-- ==== Sys2Proof/Word.lean ====
section
/-!
DEFINITION. Sys2Proof/Word.lean: the word types of the block: bytes, register dwords (R13), 72-bit Sett data
(R100) and 32-bit IEEE floats held as bits.
-/
namespace Sys2Proof

/-- A byte on the host bus or on a network. -/
abbrev Byte := BitVec 8

/-- A register (R13). -/
abbrev Dword := BitVec 32

/-- The 72 data bits of a Sett word (R100). -/
abbrev W72 := BitVec 72

end Sys2Proof
end

