-- ==== Sys2Proof/Syntax.lean ====
section
/-!
DEFINITION. Sys2Proof/Syntax.lean: the commands of the block: one constructor per row of spec/opcode_table.json, with the
operands the row's rule gives it. The block is driven from outside: by register accesses of an agent, by the commands of
the two rings, and by events in its surroundings or on its clocks.
-/
namespace Sys2Proof

/-- Who accesses registers (R16, R506): the two PCI Express functions, the two control cores, the debug probe. -/
inductive Agent where
  | pf0 | pf1 | c0 | c1 | probe
  deriving DecidableEq, Repr

/-- The two functions (R21), and so the two command rings (R406). -/
inductive Fn where
  | pf0 | pf1
  deriving DecidableEq, Repr

/-- How a read of host memory ends (R416): bytes, a poisoned completion, or no completion within 1 ms. -/
inductive HostRead where
  | data (bytes : List Byte)
  | poison
  | timeout
  deriving DecidableEq, Repr

/-- What the read of a parity block finds (R447): its failing rows (0 to 7) and failing columns; no row and no column is a good
block. -/
structure ReadErr where
  rows : List Nat
  cols : List Nat
  deriving DecidableEq, Repr

/-- Whose lease is checked (R111). -/
inductive LeaseHolder where
  | queue (q : Fin 16)
  | capture (handle : Nat)
  | digest (id : Nat)
  | handover
  deriving DecidableEq, Repr

/-- The commands, in the table's order. -/
inductive Instr where
  /-- REGISTER_WRITE (R13). -/
  | registerWrite (a : Agent) (off len : Nat) (v : Dword)
  /-- WIDE_VALUE_LO_READ (R16). -/
  | wideValueLoRead (a : Agent) (off len : Nat)
  /-- WIDE_VALUE_HELD_WRITE (R405). -/
  | wideValueHeldWrite (a : Agent) (off : Nat) (v : Dword)
  /-- WIDE_VALUE_HI_WRITE (R17). -/
  | wideValueHiWrite (a : Agent) (off : Nat) (v : Dword)
  /-- EV_PAIR_TIMEOUT (R17). -/
  | evPairTimeout (a : Agent) (base : Nat)
  /-- REF_DETECT_RETRY (R481). -/
  | refDetectRetry (count : Nat)
  /-- EV_TIM_REF_LOST (R46). -/
  | evTimRefLost
  /-- EV_TIM_REF_RESTORED (R46). -/
  | evTimRefRestored
  /-- TIM_INCR_WRITE (R49). -/
  | timIncrWrite (a : Agent) (v : Dword)
  /-- TIM_STEP_REQUEST (R50). -/
  | timStepRequest (a : Agent) (v : Dword)
  /-- TIME_STEP_FORCE (R51). -/
  | timeStepForce (r : Fn)
  /-- PTP_CFG (R59). -/
  | ptpCfg (r : Fn)
  /-- TIME_SOURCE_LOST (R58). -/
  | timeSourceLost (backupGood : Bool)
  /-- PDELAY_REQ_TX (R59). -/
  | pdelayReqTx (p : Fin 5) (seq : Nat)
  /-- PDELAY_RESP_TX (R59). -/
  | pdelayRespTx (p : Fin 5) (seq : Nat)
  /-- PDELAY_RESP_FOLLOW_UP_TX (R59). -/
  | pdelayRespFollowUpTx (p : Fin 5) (seq : Nat)
  /-- TSQ_ENTRY_READ (R65). -/
  | tsqEntryRead (a : Agent) (p : Fin 5)
  /-- PPS_IN_EDGE (R60). -/
  | ppsInEdge (rising : Bool) (widthNs : Nat)
  /-- EV_TIM_PPSIN_MISSING (R60). -/
  | evTimPpsinMissing
  /-- IRIG_FRAME_RX (R61). -/
  | irigFrameRx (widthsUs : List Nat) (ago : Nat) (newOfs : Option Nat)
  /-- IRIG_VALID_EXPIRY (R61). -/
  | irigValidExpiry (newOfs : Option Nat)
  /-- PPS_OUT_RISE (R62). -/
  | ppsOutRise
  /-- PPS_OUT_FALL (R62). -/
  | ppsOutFall
  /-- TIM_SERVO_WRITE (R66). -/
  | timServoWrite (a : Agent) (v : Dword)
  /-- SERVO_TIMEOUT (R66). -/
  | servoTimeout
  /-- HOLD_WRITE (R69). -/
  | holdWrite (a : Agent) (v : Dword)
  /-- HOLDOVER_UNC_UPDATE (R67). -/
  | holdoverUncUpdate
  /-- DATA_FRAME_INGEST (R80). -/
  | dataFrameIngest
  /-- INJ_DOORBELL (R97). -/
  | injDoorbell (a : Agent) (v : Dword)
  /-- INJ_ENTRY_FETCH (R97). -/
  | injEntryFetch (entry frame : HostRead)
  /-- INJ_FETCH_TIMEOUT (R97). -/
  | injFetchTimeout (entry : HostRead)
  /-- CFG_FRAME_RX (R94). -/
  | cfgFrameRx
  /-- SEND_CFG2_REQUEST (R95). -/
  | sendCfg2Request (sidx : Nat)
  /-- ING_HIST_WRITE (R93). -/
  | ingHistWrite (a : Agent) (v : Dword)
  /-- OLD_ENTRY_EXPIRY (R87). -/
  | oldEntryExpiry (sidx : Nat)
  /-- STREAM_ADD (R76). -/
  | streamAdd (r : Fn) (buf : HostRead)
  /-- STREAM_DEL (R536). -/
  | streamDel (r : Fn)
  /-- STREAM_MOD (R78). -/
  | streamMod (r : Fn)
  /-- STREAM_CFG_LOAD (R76). -/
  | streamCfgLoad (r : Fn) (buf : HostRead)
  /-- STREAM_STATS (R157). -/
  | streamStats (r : Fn) (issued : Bool)
  /-- PAGE_CHARGE_MOVE (R110). -/
  | pageChargeMove (page : Nat)
  /-- LEASE_EXPIRY (R111). -/
  | leaseExpiry (h : LeaseHolder)
  /-- SETT_WINDOW_READ (R115). -/
  | settWindowRead (a : Agent) (off len : Nat) (err : ReadErr)
  /-- EV_SET_WIN_WRITE (R114). -/
  | evSetWinWrite (a : Agent) (off : Nat) (v : Dword)
  /-- HOSTQ_DMA_BLOCK_WRITE (R120). -/
  | hostqDmaBlockWrite (q : Fin 16) (err : ReadErr)
  /-- HOSTQ_CONS_WRITE (R120). -/
  | hostqConsWrite (a : Agent) (q : Fin 16) (v : Dword)
  /-- HOSTQ_DATA_POP (R121). -/
  | hostqDataPop (a : Agent) (q : Fin 16) (byte len : Nat) (err : ReadErr)
  /-- HOSTQ_CFG_WRITE (R124). -/
  | hostqCfgWrite (a : Agent) (q : Fin 16) (v : Dword)
  /-- HQ_PEND_CLEAR (R123). -/
  | hqPendClear (a : Agent) (v : Dword)
  /-- QUOTA_WRITE (R108). -/
  | quotaWrite (a : Agent) (c : Fin 7) (v : Dword)
  /-- PEAK_CLR (R107). -/
  | peakClr (a : Agent) (v : Dword)
  /-- INSTANT_OPEN (R134). -/
  | instantOpen
  /-- INSTANT_DEADLINE (R141). -/
  | instantDeadline
  /-- SET_RELEASE (R143). -/
  | setRelease
  /-- WAIT_LEARN_UPDATE (R146). -/
  | waitLearnUpdate
  /-- ALN_CTRL_WRITE (R141). -/
  | alnCtrlWrite (a : Agent) (v : Dword)
  /-- CADENCE_SET (R156). -/
  | cadenceSet (r : Fn)
  /-- WAIT_POLICY (R148). -/
  | waitPolicy (r : Fn)
  /-- ANG_ENGINE_RUN (R167). -/
  | angEngineRun
  /-- ALARM_FRAME_REPEAT (R178). -/
  | alarmFrameRepeat
  /-- ALARM_DEST_RESOLVE (R179). -/
  | alarmDestResolve (p : Fin 5) (mac : Option Nat)
  /-- ALM_PULSE_END (R172). -/
  | almPulseEnd (n : Fin 8)
  /-- ALM_LATCH_CLEAR (R172). -/
  | almLatchClear (a : Agent) (v : Dword)
  /-- ALMINH_IN_CHANGE (R173). -/
  | alminhInChange (level : Bool)
  /-- EV_ANG_STALE (R170). -/
  | evAngStale
  /-- LIMITS_LOAD (R166). -/
  | limitsLoad (r : Fn) (buf : HostRead)
  /-- ANGLE_PAIRS_LOAD (R166). -/
  | anglePairsLoad (r : Fn) (buf : HostRead)
  /-- ISL_ENGINE_RUN (R190). -/
  | islEngineRun
  /-- EV_ISL_NODE_LOST (R197). -/
  | evIslNodeLost (node : Nat)
  /-- TOPO_LOAD (R202). -/
  | topoLoad (r : Fn) (buf : HostRead)
  /-- PARTITION_EXPECT (R195). -/
  | partitionExpect (r : Fn) (buf : HostRead)
  /-- OSC_ENGINE_RUN (R222). -/
  | oscEngineRun
  /-- OSC_SIGNAL_RESTART (R206). -/
  | oscSignalRestart (sig : Nat)
  /-- BAND_RECENTRE_PASS (R212). -/
  | bandRecentrePass
  /-- EV_OSC_MODE_NEW (R215). -/
  | evOscModeNew
  /-- EV_OSC_MODE_LOST (R215). -/
  | evOscModeLost (slot : Nat)
  /-- EV_OSC_CLASS (R217). -/
  | evOscClass (slot : Nat)
  /-- OSC_SIGNALS (R229). -/
  | oscSignals (r : Fn) (buf : HostRead)
  /-- OSC_BANDS (R209). -/
  | oscBands (r : Fn) (buf : HostRead)
  /-- OUT_CMD_FRAME_RX (R241). -/
  | outCmdFrameRx
  /-- OUT_DEST_RESOLVE (R242). -/
  | outDestResolve (d : Fin 16) (mac : Option Nat)
  /-- OUT_CFGCHG_EXPIRY (R236). -/
  | outCfgchgExpiry (g : Fin 16)
  /-- OUT_GROUP_DEF (R232). -/
  | outGroupDef (r : Fn) (buf : HostRead)
  /-- OUT_DEST (R232). -/
  | outDest (r : Fn)
  /-- CASCADE_DIGEST_BUILD (R248). -/
  | cascadeDigestBuild
  /-- CASCADE_DIGEST_RX (R245). -/
  | cascadeDigestRx
  /-- DIGEST_REASSEMBLY_TIMEOUT (R246). -/
  | digestReassemblyTimeout (w : Nat)
  /-- EV_CAS_MEMBER_LOST (R251). -/
  | evCasMemberLost (w : Nat)
  /-- CAS_JOIN (R244). -/
  | casJoin (r : Fn) (buf : HostRead)
  /-- JOIN_RETRY (R244). -/
  | joinRetry
  /-- JOIN_TIMEOUT (R244). -/
  | joinTimeout
  /-- JOIN_RX (R244). -/
  | joinRx
  /-- JOIN_ANSWER_RX (R244). -/
  | joinAnswerRx
  /-- CAS_LEAVE (R252). -/
  | casLeave (r : Fn)
  /-- LEAVE_RX (R252). -/
  | leaveRx
  /-- XFIRE_FALL (R254). -/
  | xfireFall
  /-- XFIRE_PULSE_END (R254). -/
  | xfirePulseEnd
  /-- FRONT_END_START (R262). -/
  | frontEndStart
  /-- FRONT_END_STOP (R262). -/
  | frontEndStop
  /-- TAP_SAMPLE (R264). -/
  | tapSample (ch tap : Nat) (bits : Nat)
  /-- OVERLOAD_EPISODE_END (R270). -/
  | overloadEpisodeEnd (ch : Nat)
  /-- EV_FLT_MOD_FAULT (R260). -/
  | evFltModFault (ch : Nat)
  /-- EV_FLT_MOD_RESTORED (R260). -/
  | evFltModRestored (ch : Nat)
  /-- RANGE_TO_LOW_GAIN (R272). -/
  | rangeToLowGain (b : Fin 8) (x : Int)
  /-- RANGE_TO_HIGH_GAIN (R272). -/
  | rangeToHighGain (b : Fin 8) (pa pb pc : Nat)
  /-- BLANKING_END (R274). -/
  | blankingEnd (b : Fin 8)
  /-- CP_CONFIG_CHANGE (R269). -/
  | cpConfigChange (b : Fin 8)
  /-- COEF_LOAD (R275). -/
  | coefLoad (r : Fn) (buf : HostRead)
  /-- BANK_SWAP (R276). -/
  | bankSwap (r : Fn)
  /-- EV_FLT_FADE_START (R276). -/
  | evFltFadeStart
  /-- EV_FLT_FADE_DONE (R276). -/
  | evFltFadeDone
  /-- PMU_ESTIMATE_READY (R290). -/
  | pmuEstimateReady (b : Fin 8) (m : Bool) (bad : Nat)
  /-- PMU_DETECTOR_EVAL (R289). -/
  | pmuDetectorEval (b : Fin 8) (bad : Nat)
  /-- PMU_RETURN_TO_M (R290). -/
  | pmuReturnToM (b : Fin 8)
  /-- PMU_CFG (R296). -/
  | pmuCfg (r : Fn)
  /-- CAL_LOAD (R288). -/
  | calLoad (r : Fn) (buf : HostRead)
  /-- ENERGY_TICK (R304). -/
  | energyTick
  /-- ENERGY_CYCLE_END (R302). -/
  | energyCycleEnd (b : Fin 8)
  /-- ENERGY_PERIODIC_SAVE (R311). -/
  | energyPeriodicSave (readBackOk : Bool)
  /-- ENERGY_FLASH_COPY (R315). -/
  | energyFlashCopy
  /-- NRG_SNAPSHOT (R316). -/
  | nrgSnapshot (r : Fn) (issued : Bool)
  /-- EV_NRG_SNAPSHOT (R316). -/
  | evNrgSnapshot
  /-- NRG_PRESET (R316). -/
  | nrgPreset (r : Fn) (buf : HostRead)
  /-- CAPTURE_INSTANT_EVAL (R323). -/
  | captureInstantEval (b : Fin 8)
  /-- EV_TRG_DONE (R334). -/
  | evTrgDone (b : Fin 8)
  /-- CAPTURE_HELD_RESUME (R321). -/
  | captureHeldResume (b : Fin 8)
  /-- CAPTURE_REOFFER (R335). -/
  | captureReoffer
  /-- TRIGI_INPUT (R337). -/
  | trigiInput (level : Bool)
  /-- TRIGO_PULSE_END (R337). -/
  | trigoPulseEnd
  /-- TRG_ARM (R330). -/
  | trgArm (r : Fn) (buf : HostRead)
  /-- TRG_DISARM (R333). -/
  | trgDisarm (r : Fn)
  /-- TRG_FORCE (R324). -/
  | trgForce (r : Fn)
  /-- CAPT_RELEASE (R335). -/
  | captRelease (r : Fn)
  /-- TRG_DISABLE (R320). -/
  | trgDisable (a : Agent) (v : Dword)
  /-- PORT_FRAME_RX (R344). -/
  | portFrameRx (p : Fin 5) (frame : List Byte) (fcsOk : Bool) (ago : Nat)
  /-- PAUSE_TIME_END (R359). -/
  | pauseTimeEnd (p : Fin 5)
  /-- EV_MAC_PAUSE_WDOG (R360). -/
  | evMacPauseWdog (p : Fin 5)
  /-- EV_MAC_PAUSE_RESTORE (R360). -/
  | evMacPauseRestore (p : Fin 5)
  /-- PAUSE_FRAME_TX (R361). -/
  | pauseFrameTx (p : Fin 5)
  /-- PAUSE_FRAME_REPEAT (R361). -/
  | pauseFrameRepeat (p : Fin 5)
  /-- TX_FRAME_ENQUEUE (R348). -/
  | txFrameEnqueue (p : Fin 5) (cls : Fin 8) (frame : List Byte)
  /-- TX_FRAME_START (R350). -/
  | txFrameStart (p : Fin 5) (carrier : Bool)
  /-- TX_FRAME_END (R350). -/
  | txFrameEnd (p : Fin 5)
  /-- HDX_COLLISION (R363). -/
  | hdxCollision (bits : Nat)
  /-- HDX_BACKOFF_END (R363). -/
  | hdxBackoffEnd
  /-- EV_MAC_LINK_DOWN (R342). -/
  | evMacLinkDown (p : Fin 5)
  /-- EV_MAC_LINK_UP (R342). -/
  | evMacLinkUp (p : Fin 5) (phySpeed : Fin 3)
  /-- P4_PHY_POLL (R342). -/
  | p4PhyPoll (link : Bool)
  /-- GATE_CYCLE_START (R355). -/
  | gateCycleStart (p : Fin 5)
  /-- GATE_ENTRY_END (R355). -/
  | gateEntryEnd (p : Fin 5)
  /-- PRP_SUPERVISION_TX (R369). -/
  | prpSupervisionTx
  /-- MDIO_COMMAND_START (R371). -/
  | mdioCommandStart (a : Agent) (v : Dword)
  /-- MDIO_COMMAND_DONE (R371). -/
  | mdioCommandDone (ack : Bool) (data : Nat)
  /-- HEARTBEAT_INSTANT (R380). -/
  | heartbeatInstant
  /-- HEARTBEAT_WORD_RX (R375). -/
  | heartbeatWordRx (pathL : Bool) (word : Nat)
  /-- EV_TWN_PATH_DOWN (R375). -/
  | evTwnPathDown (pathL : Bool)
  /-- WITNESS_TX (R377). -/
  | witnessTx
  /-- EV_TWN_WITNESS_LOST (R377). -/
  | evTwnWitnessLost
  /-- AL_WITNESS_WAIT_END (R381). -/
  | alWitnessWaitEnd
  /-- RELINQUISH_COMPLETE (R385). -/
  | relinquishComplete
  /-- EV_TWN_HANDOVER_FAIL (R385). -/
  | evTwnHandoverFail
  /-- TWIN_REVERT (R387). -/
  | twinRevert
  /-- EV_TWN_FAULT (R383). -/
  | evTwnFault
  /-- TWIN_SYNC_TX (R393). -/
  | twinSyncTx
  /-- TWIN_EN_WRITE (R384). -/
  | twinEnWrite (a : Agent) (v : Dword)
  /-- TWIN_CFG (R391). -/
  | twinCfg (r : Fn)
  /-- TWIN_HANDOVER (R385). -/
  | twinHandover (r : Fn)
  /-- TWIN_FORCE_ROLE (R380). -/
  | twinForceRole (r : Fn)
  /-- CMD_DOORBELL (R406). -/
  | cmdDoorbell (a : Agent) (v : Dword)
  /-- CMD_ENTRY_FETCH (R408). -/
  | cmdEntryFetch (r : Fn) (entry : List Byte)
  /-- CMD_FETCH_TIMEOUT (R408). -/
  | cmdFetchTimeout (r : Fn) (poisoned : Bool)
  /-- COMMAND_STEP (R412). -/
  | commandStep (r : Fn) (buf : HostRead)
  /-- CMD_RING_RESET (R409). -/
  | cmdRingReset (a : Agent) (v : Dword)
  /-- PCIE_FUNCTION_RESET (R401). -/
  | pcieFunctionReset (f : Fn)
  /-- NOP (R407). -/
  | nop (r : Fn)
  /-- GET_INFO (R2). -/
  | getInfo (r : Fn)
  /-- COMMIT_EPOCH (R417). -/
  | commitEpoch (r : Fn)
  /-- ABORT_STEPPED (R414). -/
  | abortStepped (r : Fn)
  /-- IRQ_DELIVERY_COMMIT (R428). -/
  | irqDeliveryCommit (t : Nat)
  /-- IRQ_COAL_TIMEOUT (R431). -/
  | irqCoalTimeout (pf1 : Bool) (n : Nat)
  /-- EV_IRQ_FALLBACK (R433). -/
  | evIrqFallback (n : Nat)
  /-- IRQ_PEND_WRITE (R427). -/
  | irqPendWrite (a : Agent) (w : Fin 4) (v : Dword)
  /-- IRQ_MASK_WRITE (R429). -/
  | irqMaskWrite (a : Agent) (w : Fin 4) (v : Dword)
  /-- MSIX_VECTOR_UNMASK (R430). -/
  | msixVectorUnmask (f : Fn) (vec : Nat)
  /-- HELD_DELIVERY_RELEASE (R432). -/
  | heldDeliveryRelease (f : Fn)
  /-- EVR_BUCKET_REFILL (R440). -/
  | evrBucketRefill (code : Nat)
  /-- EVR_RATE_WRITE (R440). -/
  | evrRateWrite (a : Agent) (v : Dword)
  /-- EVR_RING_START (R442). -/
  | evrRingStart (a : Agent) (v : Dword)
  /-- EVR_RING_STOP (R442). -/
  | evrRingStop (a : Agent) (v : Dword)
  /-- EV_EVR_THAW_TIMEOUT (R442). -/
  | evEvrThawTimeout
  /-- EVR_READ (R442). -/
  | evrRead (r : Fn) (issued : Bool)
  /-- EVR_FREEZE (R442). -/
  | evrFreeze (r : Fn)
  /-- EVR_THAW (R442). -/
  | evrThaw (r : Fn)
  /-- BADGER_TAG_WRITEBACK (R451). -/
  | badgerTagWriteback (err : ReadErr)
  /-- BADGER_BLOCK_VISIT (R452). -/
  | badgerBlockVisit (err : ReadErr)
  /-- EV_ECC_LAP_LATE (R452). -/
  | evEccLapLate
  /-- PAGE_RETIRE (R456). -/
  | pageRetire (r : Fn)
  /-- SCRUB_CFG (R452). -/
  | scrubCfg (r : Fn)
  /-- SCRUB_FULL (R452). -/
  | scrubFull (r : Fn)
  /-- RETMAP_FLASH_SAVE (R457). -/
  | retmapFlashSave
  /-- KEY_LOAD_BLOB (R466). -/
  | keyLoadBlob (r : Fn) (buf : HostRead) (issued : Bool)
  /-- KEY_EVICT (R467). -/
  | keyEvict (r : Fn)
  /-- KEY_INVALIDATE_PARENT (R471). -/
  | keyInvalidateParent (r : Fn)
  /-- KEY_WRAP_NEW (R464). -/
  | keyWrapNew (r : Fn) (issued : Bool)
  /-- KEY_UPDATE_BEGIN (R472). -/
  | keyUpdateBegin (r : Fn)
  /-- KEY_UPDATE_REWRAP (R472). -/
  | keyUpdateRewrap (r : Fn) (buf : HostRead) (issued : Bool)
  /-- KEY_UPDATE_COMMIT (R472). -/
  | keyUpdateCommit (r : Fn)
  /-- KEY_UPDATE_ABORT (R472). -/
  | keyUpdateAbort (r : Fn)
  /-- KEY_LEASE_EXPIRY (R469). -/
  | keyLeaseExpiry (slot : Nat)
  /-- TAMPER_DETECT (R476). -/
  | tamperDetect (src : Fin 10) (levels : List Bool)
  /-- POR_RESET (R479). -/
  | porReset
  /-- SYS_RESET (R479). -/
  | sysReset
  /-- BOOT_SEQUENCE (R481). -/
  | bootSequence (straps refCount : Nat)
  /-- RECOVERY_GO (R483). -/
  | recoveryGo (a : Agent) (v : Dword) (buf : HostRead)
  /-- RECOVERY_FLASH_RETRY (R483). -/
  | recoveryFlashRetry
  /-- EV_BOOT_WATCHDOG (R492). -/
  | evBootWatchdog
  /-- WATCHDOG_RESTART (R492). -/
  | watchdogRestart
  /-- BOOT_FAILS_CLEAR (R486). -/
  | bootFailsClear
  /-- EV_BOOT_SVN (R485). -/
  | evBootSvn
  /-- UPD_STAGE_BEGIN (R488). -/
  | updStageBegin (r : Fn)
  /-- UPD_STAGE_DATA (R488). -/
  | updStageData (r : Fn) (buf : HostRead)
  /-- UPD_STAGE_END (R488). -/
  | updStageEnd (r : Fn)
  /-- RESTART_HITLESS (R490). -/
  | restartHitless (r : Fn)
  /-- RESTART_STAGED_UPDATE (R490). -/
  | restartStagedUpdate (r : Fn)
  /-- RESTART_SYS (R479). -/
  | restartSys (r : Fn)
  /-- EV_UPD_SLOT_WRITTEN (R488). -/
  | evUpdSlotWritten
  /-- PFWN_ACCEPT (R493). -/
  | pfwnAccept
  /-- PFWN_RETURN (R494). -/
  | pfwnReturn
  /-- PWR_QUIESCE (R495). -/
  | pwrQuiesce (r : Fn)
  /-- PWR_RUN (R495). -/
  | pwrRun (r : Fn)
  /-- QUIESCE_TIMEOUT (R495). -/
  | quiesceTimeout
  /-- CORE_RAILS_DOWN (R480). -/
  | coreRailsDown (vbatHolds : Bool)
  /-- DEBUG_LINE_RESET (R499). -/
  | debugLineReset
  /-- DBG_ADDR_WRITE (R502). -/
  | dbgAddrWrite (h crc : Nat) (v : Dword)
  /-- DBG_DATA_WRITE (R506). -/
  | dbgDataWrite (h crc : Nat) (v : Dword)
  /-- DBG_DATA_READ (R506). -/
  | dbgDataRead (h : Nat) (err : ReadErr)
  /-- DBG_CHAL_READ (R503). -/
  | dbgChalRead (h : Nat)
  /-- DBG_RESP_WRITE (R505). -/
  | dbgRespWrite (h crc : Nat) (v : Dword)
  /-- DBG_PORT_LOCK (R504). -/
  | dbgPortLock (h crc : Nat) (v : Dword)
  /-- DBG_RESPONSE_VERIFY (R504). -/
  | dbgResponseVerify
  /-- DBG_CHALLENGE_EXPIRY (R503). -/
  | dbgChallengeExpiry
  /-- DBG_CHALLENGE (R503). -/
  | dbgChallenge (r : Fn) (issued : Bool)
  /-- DBG_RESPONSE (R504). -/
  | dbgResponse (r : Fn) (buf : HostRead)
  /-- DBG_CTRL_LOCK (R504). -/
  | dbgCtrlLock (a : Agent) (v : Dword)
  /-- CORE_HALT (R508). -/
  | coreHalt (c : Fin 2)
  /-- CORE_RESUME (R508). -/
  | coreResume (c : Fin 2)
  /-- CORE_STEP (R507). -/
  | coreStep (c : Fin 2) (brk watch : Bool)
  /-- CORE_BREAKPOINT_HIT (R507). -/
  | coreBreakpointHit (c : Fin 2) (brk watch : Bool)
  /-- VBAT_LOSS (R480). -/
  | vbatLoss
  /-- PCIE_CONFIG_WRITE (R437). -/
  | pcieConfigWrite (f : Fn) (bme msixEn fmask d3 pmeEn pmeClear l2 : Bool)
  /-- ARP_ND_REQUEST_RX (R391). -/
  | arpNdRequestRx
  deriving DecidableEq, Repr

end Sys2Proof
end

