-- ==== Sys2Proof/Config.lean ====
section
/-!
DEFINITION. Sys2Proof/Config.lean: what one unit or one implementation fixes and the spec does not, and the free
values: constants without a body, of which no proof can see a value (DESIGN CHOICE, notes/assumptions/1.md).
-/
namespace Sys2Proof.Config

/-- The stream of free values: value number n (counted by State.freeCtr) of a choice the spec leaves open. -/
opaque free : Nat → Nat

/-- A free value that depends only on the operands: the tag says which open function of the spec it stands for. -/
opaque op : String → List Nat → Nat

/-- UID, the 56-bit unit serial number of GET_INFO (R2). -/
opaque uid : Nat

/-- ROM_VER of GET_INFO. -/
opaque romVer : Nat

/-- VARIANT of GET_INFO: 0 XI, 1 XE (R531). -/
opaque variant : Nat

/-- Fused minimum security version number (R485). -/
opaque svnFuses : Nat

end Sys2Proof.Config
end

