-- ==== Sys2Proof/Machine/Data.lean ====
section
/-!
DEFINITION. Sys2Proof/Machine/Data.lean: plain-data helpers: maps as lists of (key, value) pairs with rising keys,
byte-order and bit-field helpers, and the checksums the spec names.
-/
namespace Sys2Proof.Machine

/-! ### Maps: lists of pairs in rising key order, no key twice -/

/-- The value at key `k`, if there is one. -/
def mget {α : Type} (m : List (Nat × α)) (k : Nat) : Option α :=
  match m with
  | [] => none
  | (j, v) :: t => if j == k then some v else mget t k

/-- The value at key `k`, or `d`. -/
def mgetD {α : Type} (m : List (Nat × α)) (k : Nat) (d : α) : α := (mget m k).getD d

/-- The map without key `k`. -/
def merase {α : Type} (m : List (Nat × α)) (k : Nat) : List (Nat × α) := m.filter fun p => !(p.1 == k)

/-- Puts (k, v) before the first larger key. -/
def minsert {α : Type} (m : List (Nat × α)) (k : Nat) (v : α) : List (Nat × α) :=
  match m with
  | [] => [(k, v)]
  | (j, w) :: t => if k < j then (k, v) :: (j, w) :: t else (j, w) :: minsert t k v

/-- The map with value `v` at key `k`. -/
def mput {α : Type} (m : List (Nat × α)) (k : Nat) (v : α) : List (Nat × α) := minsert (merase m k) k v

/-- The map with its value at `k` changed by `f`, `d` standing for an absent one. -/
def mmod {α : Type} (m : List (Nat × α)) (k : Nat) (d : α) (f : α → α) : List (Nat × α) := mput m k (f (mgetD m k d))

/-- Keys strictly rising. -/
def mrising {α : Type} : List (Nat × α) → Bool
  | [] => true
  | [_] => true
  | (a, _) :: (b, w) :: t => decide (a < b) && mrising ((b, w) :: t)

/-- The canonical form of a map in which an absent key reads as `d`: keys rising and no value equal to `d`. -/
def mcanon {α : Type} [DecidableEq α] (d : α) (m : List (Nat × α)) : Bool :=
  mrising m && m.all fun p => !(decide (p.2 = d))

/-- Stores `v` at `k` in a map in which an absent key reads as `d`, keeping the canonical form. -/
def mstore {α : Type} [DecidableEq α] (d : α) (m : List (Nat × α)) (k : Nat) (v : α) : List (Nat × α) :=
  if v = d then merase m k else mput m k v

/-! ### Lists of naturals as sets, kept rising -/

/-- Inserts into a rising list without repeats. -/
def sadd (l : List Nat) (k : Nat) : List Nat :=
  match l with
  | [] => [k]
  | j :: t => if k < j then k :: j :: t else if k == j then j :: t else j :: sadd t k

/-- Removes a member. -/
def sdel (l : List Nat) (k : Nat) : List Nat := l.filter fun j => !(j == k)

/-- Membership as a Bool. -/
def smem (l : List Nat) (k : Nat) : Bool := l.any fun j => j == k

/-! ### Bits -/

/-- Bits hi down to lo of `x`. -/
def bits (x hi lo : Nat) : Nat := x / 2 ^ lo % 2 ^ (hi - lo + 1)

/-- Bit i of `x`. -/
def bit (x i : Nat) : Bool := x / 2 ^ i % 2 == 1

/-- A Bool as a bit. -/
def b2n (b : Bool) : Nat := if b then 1 else 0

/-- `x` with bits hi down to lo replaced by `v`. -/
def setBits (x hi lo v : Nat) : Nat :=
  x - bits x hi lo * 2 ^ lo + v % 2 ^ (hi - lo + 1) * 2 ^ lo

/-- A w-bit two's complement value as an integer. -/
def sext (w x : Nat) : Int := if x % 2 ^ w < 2 ^ (w - 1) then (x % 2 ^ w : Nat) else ((x % 2 ^ w : Nat) : Int) - (2 ^ w : Nat)

/-- An integer wrapped into w bits. -/
def wrapInt (w : Nat) (i : Int) : Nat := (i % ((2 ^ w : Nat) : Int)).toNat

/-- Saturating increment. -/
def satInc (x max : Nat) : Nat := if x < max then x + 1 else max

/-- (a − b) mod 2^w for naturals. -/
def subMod (w a b : Nat) : Nat := (a % 2 ^ w + 2 ^ w - b % 2 ^ w) % 2 ^ w

/-- Number of set bits among the low w bits. -/
def popcount (x w : Nat) : Nat := ((List.range w).filter fun i => bit x i).length

/-- Smallest set bit among the low w bits. -/
def lowBit? (x w : Nat) : Option Nat := (List.range w).find? fun i => bit x i

/-- ⌈a / b⌉. -/
def ceilDiv (a b : Nat) : Nat := (a + b - 1) / b

/-- A power of two from lo to hi. -/
def pow2Between (x lo hi : Nat) : Bool :=
  decide (lo ≤ x) && decide (x ≤ hi) && (List.range 32).any fun k => x == 2 ^ k

/-- Parity of the low n bits. -/
def parity (n x : Nat) : Bool := popcount x n % 2 == 1

/-- Mirror image of the low n bits. -/
def mirrorBits (n x : Nat) : Nat := (List.range n).foldl (fun a i => if bit x i then a + 2 ^ (n - 1 - i) else a) 0

/-- One step of an n-bit LFSR whose polynomial is x^n + poly(x). Four forms generate it: Galois or Fibonacci, shifting left or right. -/
def lfsrNext (form n poly x : Nat) : Nat :=
  match form % 4 with
  | 0 => if bit x (n - 1) then Nat.xor (2 * x % 2 ^ n) poly else 2 * x
  | 1 => if bit x 0 then Nat.xor (x / 2) (mirrorBits n poly) else x / 2
  | 2 => 2 * x % 2 ^ n + (if parity n (Nat.land x (mirrorBits n poly)) then 1 else 0)
  | _ => x / 2 + (if parity n (Nat.land x poly) then 2 ^ (n - 1) else 0)

/-! ### Bytes -/

/-- The n bytes at offset `o`, missing ones read as zero. -/
def bytesAt (b : List Byte) (o n : Nat) : List Byte := (List.range n).map fun i => (b[o + i]?).getD 0

/-- Little-endian value of a byte list (R10). -/
def leVal : List Byte → Nat
  | [] => 0
  | x :: t => x.toNat + 256 * leVal t

/-- Big-endian value of a byte list (R11). -/
def beVal (b : List Byte) : Nat := leVal b.reverse

/-- n-byte little-endian field at offset o. -/
def le (b : List Byte) (o n : Nat) : Nat := leVal (bytesAt b o n)

/-- n-byte big-endian field at offset o. -/
def be (b : List Byte) (o n : Nat) : Nat := beVal (bytesAt b o n)

/-- x as n little-endian bytes. -/
def toLe (n x : Nat) : List Byte := (List.range n).map fun i => BitVec.ofNat 8 (x / 256 ^ i)

/-- x as n big-endian bytes. -/
def toBe (n x : Nat) : List Byte := (toLe n x).reverse

/-- n zero bytes. -/
def zeros (n : Nat) : List Byte := List.replicate n 0

/-- Cuts or zero-pads to n bytes. -/
def padTo (n : Nat) (b : List Byte) : List Byte := (b ++ zeros n).take n

/-- Are the n bytes at o all zero. -/
def zeroAt (b : List Byte) (o n : Nat) : Bool := le b o n == 0

/-! ### Checksums -/

/-- One bit of a CRC of width w, polynomial p, most significant bit first. -/
def crcBit (w p : Nat) (crc : Nat) (inBit : Bool) : Nat :=
  if xor (bit crc (w - 1)) inBit then Nat.xor (crc * 2 % 2 ^ w) p else crc * 2 % 2 ^ w

/-- One byte of a most-significant-first CRC. -/
def crcByte (w p : Nat) (crc : Nat) (b : Byte) : Nat :=
  [7, 6, 5, 4, 3, 2, 1, 0].foldl (fun c i => crcBit w p c (bit b.toNat i)) crc

/-- CRC-16/CCITT, polynomial 0x1021, initial value 0xFFFF, no reflection, no final exclusive-or (R80, R443). -/
def crcCcitt (b : List Byte) : Nat := b.foldl (crcByte 16 0x1021) 0xFFFF

/-- Mirrors the low w bits. -/
def mirror (w x : Nat) : Nat := (List.range w).foldl (fun a i => a + (if bit x i then 2 ^ (w - 1 - i) else 0)) 0

/-- CRC-32 of IEEE 802.3 (R436, R310): reflected, initial value and final exclusive-or all ones. -/
def crc32 (b : List Byte) : Nat :=
  Nat.xor (mirror 32 (b.foldl (fun c x => crcByte 32 0x04C11DB7 c (BitVec.ofNat 8 (mirror 8 x.toNat))) 0xFFFFFFFF)) 0xFFFFFFFF

/-- One's complement sum of 16-bit big-endian words, as the IPv4 and UDP checksums use it. -/
def onesSum (b : List Byte) : Nat :=
  let n := (b.length + 1) / 2
  let s := ((List.range n).map fun i => be b (2 * i) 2).foldl (· + ·) 0
  let s1 := s % 65536 + s / 65536
  let s2 := s1 % 65536 + s1 / 65536
  s2 % 65536 + s2 / 65536

/-! ### 32-bit floats as bits: exact comparisons -/

/-- A quiet NaN, the missing-value marker of R90. -/
def f32NaN : Nat := 0x7FC00000

/-- Is the pattern a NaN. -/
def f32IsNaN (x : Nat) : Bool := bits x 30 23 == 255 && bits x 22 0 != 0

/-- Is the pattern finite. -/
def f32Finite (x : Nat) : Bool := bits x 30 23 != 255

/-- A total-order key of a non-NaN pattern in which −0 and +0 agree: its value order is the float order. -/
def f32Key (x : Nat) : Int := if bit x 31 then -(bits x 30 0 : Int) else (bits x 30 0 : Int)

/-- a < b for floats, false when either is a NaN. -/
def f32Lt (a b : Nat) : Bool := !f32IsNaN a && !f32IsNaN b && decide (f32Key a < f32Key b)

/-- a ≤ b for floats, false when either is a NaN. -/
def f32Le (a b : Nat) : Bool := !f32IsNaN a && !f32IsNaN b && decide (f32Key a ≤ f32Key b)

/-- The exact value of a finite float in units of 2^-149. -/
def f32Units (x : Nat) : Int :=
  let e := bits x 30 23
  let m := bits x 22 0
  let mag : Nat := if e == 0 then m else (m + 2 ^ 23) * 2 ^ (e - 1)
  if bit x 31 then -(mag : Int) else (mag : Int)

/-- Rounds the exact rational num / den (den > 0) to the nearest float, ties to even; overflow gives an infinity. -/
def f32Round (num : Int) (den : Nat) : Nat :=
  let sign := if num < 0 then 2 ^ 31 else 0
  let n := num.natAbs
  if n == 0 then sign else
  -- scaled value n / den in units of 2^-149
  let u := n * 2 ^ 149
  let q0 := u / den
  let e := if q0 < 2 ^ 24 then 0 else Nat.log2 q0 - 23
  let d2 := den * 2 ^ e
  let q := u / d2
  let r := u % d2
  let q' := if 2 * r > d2 || (2 * r == d2 && q % 2 == 1) then q + 1 else q
  -- q' ≤ 2^24: fold mantissa carry into the exponent by plain addition
  let pat := if e == 0 then q' else e * 2 ^ 23 + q'
  sign + (if pat ≥ 0x7F800000 then 0x7F800000 else pat)

end Sys2Proof.Machine
end

