-- ==== Sys2Proof/Machine/Events.lean ====
section
/-!
DEFINITION. Sys2Proof/Machine/Events.lean: the event codes of every chapter (R441 and the event tables), the interrupt
source each event raises (the source tables), which events are critical (R441) and which agent logs them (R537).
-/
namespace Sys2Proof.Machine

namespace Ev

/-- EV_PWR_PFW (R497). -/
abbrev PWR_PFW : Nat := 0x0001
/-- EV_PWR_RESUME (R497). -/
abbrev PWR_RESUME : Nat := 0x0002
/-- EV_PWR_HOLD_EXIT (R497). -/
abbrev PWR_HOLD_EXIT : Nat := 0x0003
/-- EV_PWR_COLD (R497). -/
abbrev PWR_COLD : Nat := 0x0004
/-- EV_STRAP_RESERVED (R37). -/
abbrev STRAP_RESERVED : Nat := 0x0005
/-- EV_PWR_QUIESCE (R497). -/
abbrev PWR_QUIESCE : Nat := 0x0006
/-- EV_PWR_CFG_RANGE (R497). -/
abbrev PWR_CFG_RANGE : Nat := 0x0007
/-- EV_IRQ_CFG_RANGE (R444). -/
abbrev IRQ_CFG_RANGE : Nat := 0x0010
/-- EV_IRQ_FALLBACK (R444). -/
abbrev IRQ_FALLBACK : Nat := 0x0011
/-- EV_IRQ_RESTORED (R444). -/
abbrev IRQ_RESTORED : Nat := 0x0012
/-- EV_IRQ_RETAIN_BAD (R444). -/
abbrev IRQ_RETAIN_BAD : Nat := 0x0013
/-- EV_EVR_FROZEN_DROP (R444). -/
abbrev EVR_FROZEN_DROP : Nat := 0x0014
/-- EV_EVR_THAW_TIMEOUT (R444). -/
abbrev EVR_THAW_TIMEOUT : Nat := 0x0015
/-- EV_EVR_MIRROR_FAIL (R444). -/
abbrev EVR_MIRROR_FAIL : Nat := 0x0016
/-- EV_EVR_CFG_RANGE (R444). -/
abbrev EVR_CFG_RANGE : Nat := 0x0017
/-- EV_TIM_STEPPED (R70). -/
abbrev TIM_STEPPED : Nat := 0x1001
/-- EV_TIM_STEP_REFUSED (R70). -/
abbrev TIM_STEP_REFUSED : Nat := 0x1002
/-- EV_TIM_STEP_FORCED (R70). -/
abbrev TIM_STEP_FORCED : Nat := 0x1003
/-- EV_TIM_HOLDOVER_ENTER (R70). -/
abbrev TIM_HOLDOVER_ENTER : Nat := 0x1004
/-- EV_TIM_HOLDOVER_EXIT (R70). -/
abbrev TIM_HOLDOVER_EXIT : Nat := 0x1005
/-- EV_TIM_HOLDOVER_EXPIRED (R70). -/
abbrev TIM_HOLDOVER_EXPIRED : Nat := 0x1006
/-- EV_TIM_INCR_RANGE (R70). -/
abbrev TIM_INCR_RANGE : Nat := 0x1007
/-- EV_TIM_TSQ_OVF (R70). -/
abbrev TIM_TSQ_OVF : Nat := 0x1008
/-- EV_TIM_SRC_CHANGE (R70). -/
abbrev TIM_SRC_CHANGE : Nat := 0x1009
/-- EV_TIM_PPSIN_MISSING (R70). -/
abbrev TIM_PPSIN_MISSING : Nat := 0x100A
/-- EV_TIM_IRIG_ERR (R70). -/
abbrev TIM_IRIG_ERR : Nat := 0x100B
/-- EV_TIM_REF_LOST (R70). -/
abbrev TIM_REF_LOST : Nat := 0x100C
/-- EV_TIM_REF_RESTORED (R70). -/
abbrev TIM_REF_RESTORED : Nat := 0x100D
/-- EV_TIM_LEAP (R70). -/
abbrev TIM_LEAP : Nat := 0x100E
/-- EV_ING_UNKNOWN (R98). -/
abbrev ING_UNKNOWN : Nat := 0x2001
/-- EV_ING_AUTH_FAIL (R98). -/
abbrev ING_AUTH_FAIL : Nat := 0x2002
/-- EV_ING_REPLAY (R98). -/
abbrev ING_REPLAY : Nat := 0x2003
/-- EV_ING_KEY_MISSING (R98). -/
abbrev ING_KEY_MISSING : Nat := 0x2004
/-- EV_ING_KEY_ORPHANED (R98). -/
abbrev ING_KEY_ORPHANED : Nat := 0x2005
/-- EV_ING_MALFORMED (R98). -/
abbrev ING_MALFORMED : Nat := 0x2006
/-- EV_ING_FORMAT (R98). -/
abbrev ING_FORMAT : Nat := 0x2007
/-- EV_ING_CFG_LEARNED (R98). -/
abbrev ING_CFG_LEARNED : Nat := 0x2008
/-- EV_ING_CFG_CONFLICT (R98). -/
abbrev ING_CFG_CONFLICT : Nat := 0x2009
/-- EV_ING_FUTURE (R98). -/
abbrev ING_FUTURE : Nat := 0x200A
/-- EV_ING_NOSPACE (R98). -/
abbrev ING_NOSPACE : Nat := 0x200B
/-- EV_ING_INJ_BAD (R98). -/
abbrev ING_INJ_BAD : Nat := 0x200C
/-- EV_ING_REANCHOR (R98). -/
abbrev ING_REANCHOR : Nat := 0x200D
/-- EV_ING_ENTRY_POISON (R98). -/
abbrev ING_ENTRY_POISON : Nat := 0x200E
/-- EV_ING_HIST_RESET (R98). -/
abbrev ING_HIST_RESET : Nat := 0x200F
/-- EV_SET_QUOTA_FULL (R129). -/
abbrev SET_QUOTA_FULL : Nat := 0x3001
/-- EV_SET_CFG_RANGE (R129). -/
abbrev SET_CFG_RANGE : Nat := 0x3002
/-- EV_SET_QUOTA_SHRUNK (R129). -/
abbrev SET_QUOTA_SHRUNK : Nat := 0x3003
/-- EV_LEASE_EXPIRED (R129). -/
abbrev LEASE_EXPIRED : Nat := 0x3004
/-- EV_SET_HQ_OVERRUN (R129). -/
abbrev SET_HQ_OVERRUN : Nat := 0x3005
/-- EV_SET_HQ_UNDERRUN (R129). -/
abbrev SET_HQ_UNDERRUN : Nat := 0x3006
/-- EV_SET_HQ_FLUSH (R129). -/
abbrev SET_HQ_FLUSH : Nat := 0x3007
/-- EV_SET_SKIP (R129). -/
abbrev SET_SKIP : Nat := 0x3008
/-- EV_SET_WIN_WRITE (R129). -/
abbrev SET_WIN_WRITE : Nat := 0x3009
/-- EV_ALN_WAIT_CHANGE (R158). -/
abbrev ALN_WAIT_CHANGE : Nat := 0x4001
/-- EV_ALN_DEMOTE (R158). -/
abbrev ALN_DEMOTE : Nat := 0x4002
/-- EV_ALN_PROMOTE (R158). -/
abbrev ALN_PROMOTE : Nat := 0x4003
/-- EV_ALN_TABLE_FULL (R158). -/
abbrev ALN_TABLE_FULL : Nat := 0x4004
/-- EV_ALN_GAP (R158). -/
abbrev ALN_GAP : Nat := 0x4005
/-- EV_ALN_EPOCH (R158). -/
abbrev ALN_EPOCH : Nat := 0x4006
/-- EV_ALN_CADENCE (R158). -/
abbrev ALN_CADENCE : Nat := 0x4007
/-- EV_ALN_DS_FALLBACK (R158). -/
abbrev ALN_DS_FALLBACK : Nat := 0x4008
/-- EV_ALN_CFG_RANGE (R158). -/
abbrev ALN_CFG_RANGE : Nat := 0x4009
/-- EV_ALN_CLAMP (R158). -/
abbrev ALN_CLAMP : Nat := 0x400A
/-- EV_ALN_AHEAD (R158). -/
abbrev ALN_AHEAD : Nat := 0x400B
/-- EV_ALN_DUPINST (R158). -/
abbrev ALN_DUPINST : Nat := 0x400C
/-- EV_ANG_RAISE (R180). -/
abbrev ANG_RAISE : Nat := 0x5001
/-- EV_ANG_CLEAR (R180). -/
abbrev ANG_CLEAR : Nat := 0x5002
/-- EV_ANG_TRUNC (R180). -/
abbrev ANG_TRUNC : Nat := 0x5003
/-- EV_ANG_STALE (R180). -/
abbrev ANG_STALE : Nat := 0x5004
/-- EV_ANG_INHIBIT (R180). -/
abbrev ANG_INHIBIT : Nat := 0x5005
/-- EV_ANG_CFG_RANGE (R180). -/
abbrev ANG_CFG_RANGE : Nat := 0x5006
/-- EV_ANG_NORESOLVE (R180). -/
abbrev ANG_NORESOLVE : Nat := 0x5007
/-- EV_ISL_EVENT (R203). -/
abbrev ISL_EVENT : Nat := 0x5010
/-- EV_ISL_ALARM_RAISE (R203). -/
abbrev ISL_ALARM_RAISE : Nat := 0x5011
/-- EV_ISL_ALARM_CLEAR (R203). -/
abbrev ISL_ALARM_CLEAR : Nat := 0x5012
/-- EV_ISL_UNSETTLED (R203). -/
abbrev ISL_UNSETTLED : Nat := 0x5013
/-- EV_ISL_CLASS (R203). -/
abbrev ISL_CLASS : Nat := 0x5014
/-- EV_ISL_NODE_LOST (R203). -/
abbrev ISL_NODE_LOST : Nat := 0x5015
/-- EV_ISL_EDGE_ORPHAN (R203). -/
abbrev ISL_EDGE_ORPHAN : Nat := 0x5016
/-- EV_ISL_RECONF (R203). -/
abbrev ISL_RECONF : Nat := 0x5017
/-- EV_ISL_CFG_RANGE (R203). -/
abbrev ISL_CFG_RANGE : Nat := 0x5018
/-- EV_ISL_TRUNC (R203). -/
abbrev ISL_TRUNC : Nat := 0x5019
/-- EV_OSC_RAISE (R230). -/
abbrev OSC_RAISE : Nat := 0x5020
/-- EV_OSC_CLEAR (R230). -/
abbrev OSC_CLEAR : Nat := 0x5021
/-- EV_OSC_MODE_NEW (R230). -/
abbrev OSC_MODE_NEW : Nat := 0x5022
/-- EV_OSC_MODE_LOST (R230). -/
abbrev OSC_MODE_LOST : Nat := 0x5023
/-- EV_OSC_CLASS (R230). -/
abbrev OSC_CLASS : Nat := 0x5024
/-- EV_OSC_RECENTRE (R230). -/
abbrev OSC_RECENTRE : Nat := 0x5025
/-- EV_OSC_RESTART (R230). -/
abbrev OSC_RESTART : Nat := 0x5026
/-- EV_OSC_FILL (R230). -/
abbrev OSC_FILL : Nat := 0x5027
/-- EV_OSC_TRUNC (R230). -/
abbrev OSC_TRUNC : Nat := 0x5028
/-- EV_OSC_CFG_RANGE (R230). -/
abbrev OSC_CFG_RANGE : Nat := 0x5029
/-- EV_OSC_RECONF (R230). -/
abbrev OSC_RECONF : Nat := 0x502A
/-- EV_FLT_MOD_FAULT (R278). -/
abbrev FLT_MOD_FAULT : Nat := 0x6001
/-- EV_FLT_MOD_RESTORED (R278). -/
abbrev FLT_MOD_RESTORED : Nat := 0x6002
/-- EV_FLT_OVERLOAD (R278). -/
abbrev FLT_OVERLOAD : Nat := 0x6003
/-- EV_FLT_RANGE (R278). -/
abbrev FLT_RANGE : Nat := 0x6004
/-- EV_FLT_FADE_START (R278). -/
abbrev FLT_FADE_START : Nat := 0x6005
/-- EV_FLT_FADE_DONE (R278). -/
abbrev FLT_FADE_DONE : Nat := 0x6006
/-- EV_FLT_SWAP_REPLACED (R278). -/
abbrev FLT_SWAP_REPLACED : Nat := 0x6007
/-- EV_FLT_CFG_RANGE (R278). -/
abbrev FLT_CFG_RANGE : Nat := 0x6008
/-- EV_PMU_CLASS (R298). -/
abbrev PMU_CLASS : Nat := 0x6010
/-- EV_PMU_TRIGGER (R298). -/
abbrev PMU_TRIGGER : Nat := 0x6011
/-- EV_PMU_FREQ_LOST (R298). -/
abbrev PMU_FREQ_LOST : Nat := 0x6012
/-- EV_PMU_FREQ_SRC (R298). -/
abbrev PMU_FREQ_SRC : Nat := 0x6013
/-- EV_PMU_CFG (R298). -/
abbrev PMU_CFG : Nat := 0x6014
/-- EV_PMU_CFG_RANGE (R298). -/
abbrev PMU_CFG_RANGE : Nat := 0x6015
/-- EV_PMU_SKIP (R298). -/
abbrev PMU_SKIP : Nat := 0x6016
/-- EV_NRG_SAVE_FAIL (R318). -/
abbrev NRG_SAVE_FAIL : Nat := 0x6020
/-- EV_NRG_PF_SAVED (R318). -/
abbrev NRG_PF_SAVED : Nat := 0x6021
/-- EV_NRG_PF_ABORT (R318). -/
abbrev NRG_PF_ABORT : Nat := 0x6022
/-- EV_NRG_UNCONTROLLED_LOSS (R318). -/
abbrev NRG_UNCONTROLLED_LOSS : Nat := 0x6023
/-- EV_NRG_RESTORE_FLASH (R318). -/
abbrev NRG_RESTORE_FLASH : Nat := 0x6024
/-- EV_NRG_RESTORE_NONE (R318). -/
abbrev NRG_RESTORE_NONE : Nat := 0x6025
/-- EV_NRG_PRESET (R318). -/
abbrev NRG_PRESET : Nat := 0x6026
/-- EV_NRG_SNAPSHOT (R318). -/
abbrev NRG_SNAPSHOT : Nat := 0x6027
/-- EV_NRG_WRAP (R318). -/
abbrev NRG_WRAP : Nat := 0x6028
/-- EV_NRG_CFG_RANGE (R318). -/
abbrev NRG_CFG_RANGE : Nat := 0x6029
/-- EV_NRG_FAULT_TICKS (R318). -/
abbrev NRG_FAULT_TICKS : Nat := 0x602A
/-- EV_TRG_ARM (R339). -/
abbrev TRG_ARM : Nat := 0x7001
/-- EV_TRG_TRIGGER (R339). -/
abbrev TRG_TRIGGER : Nat := 0x7002
/-- EV_TRG_DONE (R339). -/
abbrev TRG_DONE : Nat := 0x7003
/-- EV_TRG_TRUNC (R339). -/
abbrev TRG_TRUNC : Nat := 0x7004
/-- EV_TRG_SHORTPRE (R339). -/
abbrev TRG_SHORTPRE : Nat := 0x7005
/-- EV_TRG_HELD (R339). -/
abbrev TRG_HELD : Nat := 0x7006
/-- EV_TRG_RATE (R339). -/
abbrev TRG_RATE : Nat := 0x7007
/-- EV_TRG_DISARM (R339). -/
abbrev TRG_DISARM : Nat := 0x7008
/-- EV_TRG_CFG_RANGE (R339). -/
abbrev TRG_CFG_RANGE : Nat := 0x7009
/-- EV_MAC_LINK_UP (R372). -/
abbrev MAC_LINK_UP : Nat := 0x8001
/-- EV_MAC_LINK_DOWN (R372). -/
abbrev MAC_LINK_DOWN : Nat := 0x8002
/-- EV_MAC_RXOVF (R372). -/
abbrev MAC_RXOVF : Nat := 0x8003
/-- EV_MAC_FWQ_DROP (R372). -/
abbrev MAC_FWQ_DROP : Nat := 0x8004
/-- EV_MAC_TX_REFUSED (R372). -/
abbrev MAC_TX_REFUSED : Nat := 0x8005
/-- EV_MAC_EXCOLL (R372). -/
abbrev MAC_EXCOLL : Nat := 0x8006
/-- EV_MAC_LATECOL (R372). -/
abbrev MAC_LATECOL : Nat := 0x8007
/-- EV_MAC_PAUSE_WDOG (R372). -/
abbrev MAC_PAUSE_WDOG : Nat := 0x8008
/-- EV_MAC_PAUSE_RESTORE (R372). -/
abbrev MAC_PAUSE_RESTORE : Nat := 0x8009
/-- EV_MAC_GCL_SWAP (R372). -/
abbrev MAC_GCL_SWAP : Nat := 0x800A
/-- EV_MAC_GCL_CUT (R372). -/
abbrev MAC_GCL_CUT : Nat := 0x800B
/-- EV_MAC_GCL_RANGE (R372). -/
abbrev MAC_GCL_RANGE : Nat := 0x800C
/-- EV_MAC_PRP_WRONGLAN (R372). -/
abbrev MAC_PRP_WRONGLAN : Nat := 0x800D
/-- EV_MAC_MDIO_BUSY (R372). -/
abbrev MAC_MDIO_BUSY : Nat := 0x800E
/-- EV_MAC_CFG_RANGE (R372). -/
abbrev MAC_CFG_RANGE : Nat := 0x800F
/-- EV_OUT_SIZE (R255). -/
abbrev OUT_SIZE : Nat := 0x8040
/-- EV_OUT_LAYOUT (R255). -/
abbrev OUT_LAYOUT : Nat := 0x8041
/-- EV_OUT_DROP (R255). -/
abbrev OUT_DROP : Nat := 0x8042
/-- EV_OUT_NORESOLVE (R255). -/
abbrev OUT_NORESOLVE : Nat := 0x8043
/-- EV_OUT_CMD (R255). -/
abbrev OUT_CMD : Nat := 0x8044
/-- EV_OUT_RATE (R255). -/
abbrev OUT_RATE : Nat := 0x8045
/-- EV_OUT_CFG_RANGE (R255). -/
abbrev OUT_CFG_RANGE : Nat := 0x8046
/-- EV_CAS_JOINED (R255). -/
abbrev CAS_JOINED : Nat := 0x8050
/-- EV_CAS_JOIN_FAIL (R255). -/
abbrev CAS_JOIN_FAIL : Nat := 0x8051
/-- EV_CAS_LEFT (R255). -/
abbrev CAS_LEFT : Nat := 0x8052
/-- EV_CAS_MEMBER_UP (R255). -/
abbrev CAS_MEMBER_UP : Nat := 0x8053
/-- EV_CAS_MEMBER_LOST (R255). -/
abbrev CAS_MEMBER_LOST : Nat := 0x8054
/-- EV_CAS_DISCARD (R255). -/
abbrev CAS_DISCARD : Nat := 0x8055
/-- EV_CAS_DEPTH (R255). -/
abbrev CAS_DEPTH : Nat := 0x8056
/-- EV_CAS_ALARM_RAISE (R255). -/
abbrev CAS_ALARM_RAISE : Nat := 0x8057
/-- EV_CAS_ALARM_CLEAR (R255). -/
abbrev CAS_ALARM_CLEAR : Nat := 0x8058
/-- EV_CAS_XFIRE (R255). -/
abbrev CAS_XFIRE : Nat := 0x8059
/-- EV_CAS_XBLOCKED (R255). -/
abbrev CAS_XBLOCKED : Nat := 0x805A
/-- EV_CAS_CFG_RANGE (R255). -/
abbrev CAS_CFG_RANGE : Nat := 0x805B
/-- EV_TWN_ROLE (R396). -/
abbrev TWN_ROLE : Nat := 0x9001
/-- EV_TWN_AL (R396). -/
abbrev TWN_AL : Nat := 0x9002
/-- EV_TWN_PATH_UP (R396). -/
abbrev TWN_PATH_UP : Nat := 0x9003
/-- EV_TWN_PATH_DOWN (R396). -/
abbrev TWN_PATH_DOWN : Nat := 0x9004
/-- EV_TWN_WITNESS_UP (R396). -/
abbrev TWN_WITNESS_UP : Nat := 0x9005
/-- EV_TWN_WITNESS_LOST (R396). -/
abbrev TWN_WITNESS_LOST : Nat := 0x9006
/-- EV_TWN_FAULT (R396). -/
abbrev TWN_FAULT : Nat := 0x9007
/-- EV_TWN_PARTNER_FAULT (R396). -/
abbrev TWN_PARTNER_FAULT : Nat := 0x9008
/-- EV_TWN_GASP_RX (R396). -/
abbrev TWN_GASP_RX : Nat := 0x9009
/-- EV_TWN_SPLIT (R396). -/
abbrev TWN_SPLIT : Nat := 0x900A
/-- EV_TWN_STRAP_CONFLICT (R396). -/
abbrev TWN_STRAP_CONFLICT : Nat := 0x900B
/-- EV_TWN_CFG_MISMATCH (R396). -/
abbrev TWN_CFG_MISMATCH : Nat := 0x900C
/-- EV_TWN_SYNC_FALLBACK (R396). -/
abbrev TWN_SYNC_FALLBACK : Nat := 0x900D
/-- EV_TWN_SEQ_OVF (R396). -/
abbrev TWN_SEQ_OVF : Nat := 0x900E
/-- EV_TWN_HANDOVER_FAIL (R396). -/
abbrev TWN_HANDOVER_FAIL : Nat := 0x900F
/-- EV_TWN_CFG_RANGE (R396). -/
abbrev TWN_CFG_RANGE : Nat := 0x9010
/-- EV_PAIR_TIMEOUT (R421). -/
abbrev PAIR_TIMEOUT : Nat := 0xA001
/-- EV_PRIV_WRITE_DROPPED (R421). -/
abbrev PRIV_WRITE_DROPPED : Nat := 0xA002
/-- EV_CMD_SEQ (R421). -/
abbrev CMD_SEQ : Nat := 0xA003
/-- EV_CMD_FETCH (R421). -/
abbrev CMD_FETCH : Nat := 0xA004
/-- EV_CMD_RING_RESET (R421). -/
abbrev CMD_RING_RESET : Nat := 0xA005
/-- EV_CMD_DB_BAD (R421). -/
abbrev CMD_DB_BAD : Nat := 0xA006
/-- EV_CMD_EPOCH (R421). -/
abbrev CMD_EPOCH : Nat := 0xA007
/-- EV_CMD_PAUSE (R421). -/
abbrev CMD_PAUSE : Nat := 0xA008
/-- EV_CMD_CFG_RANGE (R421). -/
abbrev CMD_CFG_RANGE : Nat := 0xA009
/-- EV_PCIE_RESET (R421). -/
abbrev PCIE_RESET : Nat := 0xA00A
/-- EV_CORR (R458). -/
abbrev CORR : Nat := 0xB001
/-- EV_UNCORR (R458). -/
abbrev UNCORR : Nat := 0xB002
/-- EV_ECC_HARD (R458). -/
abbrev ECC_HARD : Nat := 0xB003
/-- EV_ECC_TAGOVF (R458). -/
abbrev ECC_TAGOVF : Nat := 0xB004
/-- EV_ECC_RETIRED (R458). -/
abbrev ECC_RETIRED : Nat := 0xB005
/-- EV_ECC_RETIRE_SAVED (R458). -/
abbrev ECC_RETIRE_SAVED : Nat := 0xB006
/-- EV_ECC_CRAM_REMAP (R458). -/
abbrev ECC_CRAM_REMAP : Nat := 0xB007
/-- EV_ECC_SPARE_OUT (R458). -/
abbrev ECC_SPARE_OUT : Nat := 0xB008
/-- EV_ECC_LAP_LATE (R458). -/
abbrev ECC_LAP_LATE : Nat := 0xB009
/-- EV_ECC_CFG_RANGE (R458). -/
abbrev ECC_CFG_RANGE : Nat := 0xB00A
/-- EV_KEY_TAMPER (R477). -/
abbrev KEY_TAMPER : Nat := 0xC001
/-- EV_KEY_ZEROISED (R477). -/
abbrev KEY_ZEROISED : Nat := 0xC002
/-- EV_KEY_MISS (R477). -/
abbrev KEY_MISS : Nat := 0xC003
/-- EV_KEY_ORPHANED (R477). -/
abbrev KEY_ORPHANED : Nat := 0xC004
/-- EV_KEY_UPDATE_COMMIT (R477). -/
abbrev KEY_UPDATE_COMMIT : Nat := 0xC005
/-- EV_KEY_UPDATE_ROLLBACK (R477). -/
abbrev KEY_UPDATE_ROLLBACK : Nat := 0xC006
/-- EV_KEY_UPDATE_ABORT (R477). -/
abbrev KEY_UPDATE_ABORT : Nat := 0xC007
/-- EV_KEY_VERIFY_FAIL (R477). -/
abbrev KEY_VERIFY_FAIL : Nat := 0xC008
/-- EV_KEY_PUF_FAIL (R477). -/
abbrev KEY_PUF_FAIL : Nat := 0xC009
/-- EV_KEY_ROOT_NEW (R477). -/
abbrev KEY_ROOT_NEW : Nat := 0xC00A
/-- EV_KEY_CFG_RANGE (R477). -/
abbrev KEY_CFG_RANGE : Nat := 0xC00B
/-- EV_BOOT_READY (R497). -/
abbrev BOOT_READY : Nat := 0xD001
/-- EV_BOOT_WATCHDOG (R497). -/
abbrev BOOT_WATCHDOG : Nat := 0xD002
/-- EV_BOOT_FALLBACK (R497). -/
abbrev BOOT_FALLBACK : Nat := 0xD003
/-- EV_BOOT_RECOVERY (R497). -/
abbrev BOOT_RECOVERY : Nat := 0xD004
/-- EV_BOOT_CFG_BAD (R497). -/
abbrev BOOT_CFG_BAD : Nat := 0xD005
/-- EV_BOOT_SVN (R497). -/
abbrev BOOT_SVN : Nat := 0xD006
/-- EV_UPD_STAGED (R497). -/
abbrev UPD_STAGED : Nat := 0xD007
/-- EV_UPD_VERIFY_FAIL (R497). -/
abbrev UPD_VERIFY_FAIL : Nat := 0xD008
/-- EV_UPD_HANDOVER_DONE (R497). -/
abbrev UPD_HANDOVER_DONE : Nat := 0xD009
/-- EV_UPD_HANDOVER_FAIL (R497). -/
abbrev UPD_HANDOVER_FAIL : Nat := 0xD00A
/-- EV_UPD_SLOT_WRITTEN (R497). -/
abbrev UPD_SLOT_WRITTEN : Nat := 0xD00B
/-- EV_DBG_UNLOCK (R509). -/
abbrev DBG_UNLOCK : Nat := 0xE001
/-- EV_DBG_FAIL (R509). -/
abbrev DBG_FAIL : Nat := 0xE002
/-- EV_DBG_LOCKOUT (R509). -/
abbrev DBG_LOCKOUT : Nat := 0xE003
/-- EV_DBG_LOCK (R509). -/
abbrev DBG_LOCK : Nat := 0xE004
/-- EV_DBG_HALT (R509). -/
abbrev DBG_HALT : Nat := 0xE005
/-- EV_DBG_RESUME (R509). -/
abbrev DBG_RESUME : Nat := 0xE006

end Ev

/-- Events of class 0x0 with the source each raises. -/
def evTable0 : List (Nat × Nat) := [
  (0x0001, 0), (0x0002, 1), (0x0003, 2), (0x0004, 2), (0x0005, 4), (0x0006, 3), (0x0007, 5), (0x0010, 6), (0x0011, 6), (0x0012, 6),
  (0x0013, 6), (0x0014, 6), (0x0015, 6), (0x0016, 6), (0x0017, 6)]

/-- Events of class 0x1 with the source each raises. -/
def evTable1 : List (Nat × Nat) := [
  (0x1001, 8), (0x1002, 8), (0x1003, 8), (0x1004, 9), (0x1005, 9), (0x1006, 10), (0x1008, 14), (0x100A, 11), (0x100B, 12), (0x100C,
  15), (0x100D, 15)]

/-- Events of class 0x2 with the source each raises. -/
def evTable2 : List (Nat × Nat) := [
  (0x2001, 16), (0x2002, 17), (0x2003, 17), (0x2004, 17), (0x2005, 17), (0x2006, 18), (0x2007, 18), (0x2008, 19), (0x2009, 19),
  (0x200A, 20), (0x200B, 21), (0x200C, 23), (0x200D, 20), (0x200E, 21)]

/-- Events of class 0x3 with the source each raises. -/
def evTable3 : List (Nat × Nat) := [
  (0x3001, 29), (0x3002, 31), (0x3003, 29), (0x3004, 28), (0x3005, 26), (0x3006, 27), (0x3007, 28), (0x3008, 30), (0x3009, 31)]

/-- Events of class 0x4 with the source each raises. -/
def evTable4 : List (Nat × Nat) := [
  (0x4001, 34), (0x4002, 35), (0x4003, 35), (0x4004, 36), (0x4005, 36), (0x4006, 37), (0x4007, 37), (0x4008, 39), (0x4009, 39),
  (0x400A, 39), (0x400B, 38), (0x400C, 38)]

/-- Events of class 0x5 with the source each raises. -/
def evTable5 : List (Nat × Nat) := [
  (0x5001, 41), (0x5002, 41), (0x5003, 42), (0x5004, 42), (0x5005, 42), (0x5006, 42), (0x5007, 42), (0x5010, 44), (0x5011, 44),
  (0x5012, 44), (0x5013, 45), (0x5014, 45), (0x5015, 45), (0x5016, 45), (0x5017, 45), (0x5018, 45), (0x5019, 45), (0x5020, 47),
  (0x5021, 47), (0x5022, 47), (0x5023, 47), (0x5024, 47), (0x5025, 47), (0x5026, 47), (0x5027, 47), (0x5028, 47), (0x5029, 47),
  (0x502A, 47)]

/-- Events of class 0x6 with the source each raises. -/
def evTable6 : List (Nat × Nat) := [
  (0x6001, 48), (0x6002, 48), (0x6003, 48), (0x6004, 49), (0x6005, 50), (0x6006, 50), (0x6007, 50), (0x6008, 50), (0x6010, 51),
  (0x6011, 51), (0x6012, 52), (0x6013, 52), (0x6014, 52), (0x6015, 52), (0x6016, 52), (0x6020, 54), (0x6022, 54), (0x6023, 54),
  (0x6024, 54), (0x6025, 54), (0x6026, 54), (0x6027, 55), (0x6028, 54), (0x6029, 54), (0x602A, 54)]

/-- Events of class 0x7 with the source each raises. -/
def evTable7 : List (Nat × Nat) := [
  (0x7001, 59), (0x7002, 56), (0x7003, 57), (0x7004, 58), (0x7005, 58), (0x7006, 58), (0x7007, 59), (0x7008, 59), (0x7009, 58)]

/-- Events of class 0x8 with the source each raises. -/
def evTable8 : List (Nat × Nat) := [
  (0x8001, 64), (0x8002, 64), (0x8003, 65), (0x8004, 65), (0x8005, 66), (0x8006, 66), (0x8007, 66), (0x8008, 66), (0x8009, 66),
  (0x800A, 67), (0x800B, 67), (0x800C, 67), (0x800D, 65), (0x800E, 67), (0x800F, 67), (0x8040, 68), (0x8041, 68), (0x8042, 68),
  (0x8043, 68), (0x8044, 68), (0x8045, 68), (0x8046, 68), (0x8050, 70), (0x8051, 70), (0x8052, 70), (0x8053, 70), (0x8054, 70),
  (0x8055, 70), (0x8056, 70), (0x8057, 70), (0x8058, 70), (0x8059, 71), (0x805A, 71), (0x805B, 70)]

/-- Events of class 0x9 with the source each raises. -/
def evTable9 : List (Nat × Nat) := [
  (0x9001, 72), (0x9002, 72), (0x9003, 73), (0x9004, 73), (0x9005, 74), (0x9006, 74), (0x9007, 75), (0x9008, 75), (0x9009, 75),
  (0x900A, 76), (0x900B, 76), (0x900C, 77), (0x900D, 77), (0x900E, 78), (0x900F, 78), (0x9010, 78)]

/-- Events of class 0xA with the source each raises. -/
def evTableA : List (Nat × Nat) := [
  (0xA001, 85), (0xA002, 84), (0xA003, 82), (0xA004, 82), (0xA005, 86), (0xA006, 82), (0xA007, 83), (0xA008, 86), (0xA009, 86),
  (0xA00A, 86)]

/-- Events of class 0xB with the source each raises. -/
def evTableB : List (Nat × Nat) := [
  (0xB001, 88), (0xB002, 89), (0xB003, 90), (0xB004, 92), (0xB005, 91), (0xB006, 91), (0xB007, 90), (0xB008, 90), (0xB009, 92),
  (0xB00A, 92)]

/-- Events of class 0xC with the source each raises. -/
def evTableC : List (Nat × Nat) := [
  (0xC001, 96), (0xC002, 97), (0xC003, 98), (0xC004, 99), (0xC005, 100), (0xC006, 100), (0xC007, 100), (0xC008, 102), (0xC009, 102),
  (0xC00A, 100), (0xC00B, 102)]

/-- Events of class 0xD with the source each raises. -/
def evTableD : List (Nat × Nat) := [
  (0xD001, 104), (0xD002, 105), (0xD003, 105), (0xD004, 105), (0xD005, 105), (0xD006, 105), (0xD007, 106), (0xD008, 106), (0xD009,
  107), (0xD00A, 107), (0xD00B, 108)]

/-- Events of class 0xE with the source each raises. -/
def evTableE : List (Nat × Nat) := [
  (0xE001, 112), (0xE002, 114), (0xE003, 114), (0xE004, 112), (0xE005, 113), (0xE006, 113)]

/-- The source tables (R71, R99, R130, R159, R181, R204, R231, R256, R279, R299, R319, R340, R373, R397, R422, R445, R459, R478, R498,
R509). -/
def evTable : List (Nat × Nat) :=
  evTable0 ++ evTable1 ++ evTable2 ++ evTable3 ++ evTable4 ++ evTable5 ++ evTable6 ++ evTable7 ++ evTable8 ++ evTable9 ++ evTableA
  ++ evTableB ++ evTableC ++ evTableD ++ evTableE

/-- The interrupt source an event raises; none where no table names the event (R439). -/
def evSource (code : Nat) : Option Nat := mget evTable code

/-- Critical events (R441): those a chapter names so, EV_IRQ_RETAIN_BAD, and every event of class 0xC. -/
def evCritical (code : Nat) : Bool :=
  code / 0x1000 == 0xC || [0x0013, 0xB002, 0xB003, 0x0001, 0xD002, 0xD003, 0xD004, 0xE001, 0xE003, 0x6021, 0x6023, 0x6024, 0x6025, 0x6026].contains code

/-- ORIGIN of an event logged after the ring has started (R537): core C0, core C1, else the hardware. -/
def evOrigin (code : Nat) : Nat :=
  if [0xA007, 0x6024, 0x6025, 0xB006, 0xD001, 0xD005, 0xD006, 0xD007, 0xD008, 0xD009, 0xD00A, 0xD00B].contains code then 1
  else if [0x1009, 0x100E, 0x2008, 0x2009, 0x8044, 0x8043, 0x8050, 0x8051, 0x8052, 0x900C, 0x900D].contains code then 2
  else 0

end Sys2Proof.Machine
end

