-- ==== Sys2Proof/Machine/Regs.lean ====
section
/-!
DEFINITION. Sys2Proof/Machine/Regs.lean: the register map of the block (R13 to R20, R402), one row for
each register of the spec's register tables: offset in PF0 BAR0, repetition, view, reset domain and fields
with their types and reset values. `R` holds the offsets, `F` the fields, `regRows` the rows, block by block.
Addresses are offsets in PF0 BAR0. A register of which each function has a copy of its own (R404, R410)
keeps PF1's copy at `pf1Own` above PF0's.
-/
namespace Sys2Proof.Machine

/-- Field types of R15. `rwe` is an RW field marked "epoch": it is written to the shadow (R155, R417). -/
inductive FTy where
  | rw | rwe | ro | wo | w1c | hws | snap
  deriving DecidableEq, Repr

/-- Which function sees a register: `pf0` only, `both`, a host queue register (R117), a selector of which
each function has a copy (R404), or a command ring register of which each function has its own (R410). -/
inductive View where
  | pf0 | both | queue | sel | ring
  deriving DecidableEq, Repr

/-- Reset domains, outermost first (R19). -/
inductive Dom where
  | aon | por | sys | pcie
  deriving DecidableEq, Repr

/-- One field of a register: bits hi down to lo of the dword at `addr`. -/
structure Fld where
  addr : Nat
  hi : Nat
  lo : Nat
  deriving DecidableEq, Repr

/-- The same field of the register `off` bytes further (a repeated register). -/
def Fld.at (f : Fld) (off : Nat) : Fld := { f with addr := f.addr + off }

/-- One row of a register table: a field's place, type and reset value. -/
structure FldRow where
  hi : Nat
  lo : Nat
  ty : FTy
  rst : Nat
  deriving DecidableEq, Repr

/-- One register, or one family of repeated registers: `dims` are (count, stride) pairs. -/
structure RegRow where
  base : Nat
  dims : List (Nat × Nat)
  view : View
  dom : Dom
  flds : List FldRow
  deriving DecidableEq, Repr

/-- Where PF1's copy of a per-function register lies, above PF0's (R404, R410). -/
def pf1Own : Nat := 0x400000

namespace R

/-- TOP_STRAPS (01_system_view.md, R34). -/
abbrev TOP_STRAPS : Nat := 0x10
/-- TIM_CTRL (02_time_base.md, R66). -/
abbrev TIM_CTRL : Nat := 0x10000
/-- TIM_STAT (02_time_base.md, R46). -/
abbrev TIM_STAT : Nat := 0x10004
/-- TIM_SRC (02_time_base.md, R58). -/
abbrev TIM_SRC : Nat := 0x10008
/-- TIM_NOW_LO (02_time_base.md, R47). -/
abbrev TIM_NOW_LO : Nat := 0x10010
/-- TIM_NOW_MID (02_time_base.md, R47). -/
abbrev TIM_NOW_MID : Nat := 0x10014
/-- TIM_NOW_HI (02_time_base.md, R47). -/
abbrev TIM_NOW_HI : Nat := 0x10018
/-- TIM_SHORT (02_time_base.md, R55). -/
abbrev TIM_SHORT : Nat := 0x1001C
/-- TIM_CNT_LO (02_time_base.md, R47). -/
abbrev TIM_CNT_LO : Nat := 0x10020
/-- TIM_CNT_HI (02_time_base.md, R47). -/
abbrev TIM_CNT_HI : Nat := 0x10024
/-- TIM_INCR_LO (02_time_base.md, R48). -/
abbrev TIM_INCR_LO : Nat := 0x10030
/-- TIM_INCR_HI (02_time_base.md, R48). -/
abbrev TIM_INCR_HI : Nat := 0x10034
/-- TIM_STEP_LO (02_time_base.md, R50). -/
abbrev TIM_STEP_LO : Nat := 0x10040
/-- TIM_STEP_HI (02_time_base.md, R50). -/
abbrev TIM_STEP_HI : Nat := 0x10044
/-- TIM_STEPLIM (02_time_base.md, R50). -/
abbrev TIM_STEPLIM : Nat := 0x10050
/-- TIM_STEPREQ_LO (02_time_base.md, R50). -/
abbrev TIM_STEPREQ_LO : Nat := 0x10054
/-- TIM_STEPREQ_HI (02_time_base.md, R50). -/
abbrev TIM_STEPREQ_HI : Nat := 0x10058
/-- TIM_UTCOFF (02_time_base.md, R68). -/
abbrev TIM_UTCOFF : Nat := 0x10060
/-- TIM_SERVO (02_time_base.md, R66). -/
abbrev TIM_SERVO : Nat := 0x10064
/-- TIM_SERVO_TMO (02_time_base.md, R66). -/
abbrev TIM_SERVO_TMO : Nat := 0x10068
/-- TIM_HOLDRATE (02_time_base.md, R67). -/
abbrev TIM_HOLDRATE : Nat := 0x1006C
/-- TIM_HOLDMAX (02_time_base.md, R67). -/
abbrev TIM_HOLDMAX : Nat := 0x10070
/-- TIM_UNC (02_time_base.md, R67). -/
abbrev TIM_UNC : Nat := 0x10074
/-- TIM_TQ (02_time_base.md, R68). -/
abbrev TIM_TQ : Nat := 0x10078
/-- TIM_PPSOUT (02_time_base.md, R62). -/
abbrev TIM_PPSOUT : Nat := 0x10080
/-- TIM_PPSOUT_OFS (02_time_base.md, R62). -/
abbrev TIM_PPSOUT_OFS : Nat := 0x10084
/-- TIM_PPSIN_TS_LO (02_time_base.md, R60). -/
abbrev TIM_PPSIN_TS_LO : Nat := 0x10090
/-- TIM_PPSIN_TS_MID (02_time_base.md, R60). -/
abbrev TIM_PPSIN_TS_MID : Nat := 0x10094
/-- TIM_PPSIN_TS_HI (02_time_base.md, R60). -/
abbrev TIM_PPSIN_TS_HI : Nat := 0x10098
/-- TIM_PPSIN_CNT (02_time_base.md, R60). -/
abbrev TIM_PPSIN_CNT : Nat := 0x1009C
/-- TIM_IRIG_TS_LO (02_time_base.md, R61). -/
abbrev TIM_IRIG_TS_LO : Nat := 0x100A0
/-- TIM_IRIG_TS_MID (02_time_base.md, R61). -/
abbrev TIM_IRIG_TS_MID : Nat := 0x100A4
/-- TIM_IRIG_TS_HI (02_time_base.md, R61). -/
abbrev TIM_IRIG_TS_HI : Nat := 0x100A8
/-- TIM_IRIG_DATA_LO (02_time_base.md, R61). -/
abbrev TIM_IRIG_DATA_LO : Nat := 0x100B0
/-- TIM_IRIG_DATA_MID (02_time_base.md, R61). -/
abbrev TIM_IRIG_DATA_MID : Nat := 0x100B4
/-- TIM_IRIG_DATA_HI (02_time_base.md, R61). -/
abbrev TIM_IRIG_DATA_HI : Nat := 0x100B8
/-- TIM_IRIG_STAT (02_time_base.md, R61). -/
abbrev TIM_IRIG_STAT : Nat := 0x100BC
/-- TIM_PLL_STAT (02_time_base.md, R45). -/
abbrev TIM_PLL_STAT : Nat := 0x100C0
/-- TIM_TSQ_STAT_P (02_time_base.md, R64, 5 at stride 0x40). -/
abbrev TIM_TSQ_STAT_P : Nat := 0x10100
/-- TIM_LATCOR_P (02_time_base.md, R57, 5 at stride 0x40). -/
abbrev TIM_LATCOR_P : Nat := 0x10104
/-- TIM_TSQ_E0_P (02_time_base.md, R65, 5 at stride 0x40). -/
abbrev TIM_TSQ_E0_P : Nat := 0x10110
/-- TIM_TSQ_E1_P (02_time_base.md, R65, 5 at stride 0x40). -/
abbrev TIM_TSQ_E1_P : Nat := 0x10114
/-- TIM_TSQ_E2_P (02_time_base.md, R65, 5 at stride 0x40). -/
abbrev TIM_TSQ_E2_P : Nat := 0x10118
/-- TIM_TSQ_E3_P (02_time_base.md, R65, 5 at stride 0x40). -/
abbrev TIM_TSQ_E3_P : Nat := 0x1011C
/-- MAC_CTRL_P (14_network_ports.md, R341, 4 at stride 0x2000). -/
abbrev MAC_CTRL_P : Nat := 0x20000
/-- MAC_CTRL_P4 (14_network_ports.md, R341). -/
abbrev MAC_CTRL_P4 : Nat := 0x28000
/-- MAC_STAT_P (14_network_ports.md, R342, 5 at stride 0x2000). -/
abbrev MAC_STAT_P : Nat := 0x20004
/-- MAC_MAXLEN_P (14_network_ports.md, R347, 5 at stride 0x2000). -/
abbrev MAC_MAXLEN_P : Nat := 0x20008
/-- MAC_ADDR_LO_P (14_network_ports.md, R344, 5 at stride 0x2000). -/
abbrev MAC_ADDR_LO_P : Nat := 0x20010
/-- MAC_ADDR_HI_P (14_network_ports.md, R344, 5 at stride 0x2000). -/
abbrev MAC_ADDR_HI_P : Nat := 0x20014
/-- MAC_VLAN_P (14_network_ports.md, R353, 5 at stride 0x2000). -/
abbrev MAC_VLAN_P : Nat := 0x20018
/-- MAC_PCPMAP_P (14_network_ports.md, R353, 5 at stride 0x2000). -/
abbrev MAC_PCPMAP_P : Nat := 0x2001C
/-- MAC_VIDF_P (14_network_ports.md, R352, 5 at stride 0x2000, 8 at stride 0x4). -/
abbrev MAC_VIDF_P : Nat := 0x20020
/-- MAC_PAUSE_P (14_network_ports.md, R361, 5 at stride 0x2000). -/
abbrev MAC_PAUSE_P : Nat := 0x20040
/-- MAC_PAUSE_WD_P (14_network_ports.md, R360, 5 at stride 0x2000). -/
abbrev MAC_PAUSE_WD_P : Nat := 0x20044
/-- MAC_PAUSE_THR_P (14_network_ports.md, R361, 4 at stride 0x2000). -/
abbrev MAC_PAUSE_THR_P : Nat := 0x20048
/-- MAC_PAUSE_THR_P4 (14_network_ports.md, R361). -/
abbrev MAC_PAUSE_THR_P4 : Nat := 0x28048
/-- MAC_TXLIM_P (14_network_ports.md, R348, 4 at stride 0x2000, 8 at stride 0x4). -/
abbrev MAC_TXLIM_P : Nat := 0x20050
/-- MAC_TXLIM_P4 (14_network_ports.md, R348, 8 at stride 0x4). -/
abbrev MAC_TXLIM_P4 : Nat := 0x28050
/-- MAC_HDX (14_network_ports.md, R363). -/
abbrev MAC_HDX : Nat := 0x28070
/-- MAC_GCL_CTRL_P (14_network_ports.md, R354, 5 at stride 0x2000). -/
abbrev MAC_GCL_CTRL_P : Nat := 0x20080
/-- MAC_GCL_OFS_P (14_network_ports.md, R355, 5 at stride 0x2000). -/
abbrev MAC_GCL_OFS_P : Nat := 0x20084
/-- MAC_GCL_CYCLE_P (14_network_ports.md, R355, 5 at stride 0x2000). -/
abbrev MAC_GCL_CYCLE_P : Nat := 0x20088
/-- MAC_GCL_BASE_LO_P (14_network_ports.md, R355, 5 at stride 0x2000). -/
abbrev MAC_GCL_BASE_LO_P : Nat := 0x2008C
/-- MAC_GCL_BASE_HI_P (14_network_ports.md, R355, 5 at stride 0x2000). -/
abbrev MAC_GCL_BASE_HI_P : Nat := 0x20090
/-- MAC_GCL_LO_P (14_network_ports.md, R354, 5 at stride 0x2000, 2 at stride 0x200, 64 at stride 0x8). -/
abbrev MAC_GCL_LO_P : Nat := 0x21000
/-- MAC_GCL_HI_P (14_network_ports.md, R354, 5 at stride 0x2000, 2 at stride 0x200, 64 at stride 0x8). -/
abbrev MAC_GCL_HI_P : Nat := 0x21004
/-- MAC_MCF_LO_P (14_network_ports.md, R344, 5 at stride 0x2000, 64 at stride 0x8). -/
abbrev MAC_MCF_LO_P : Nat := 0x20800
/-- MAC_MCF_HI_P (14_network_ports.md, R344, 5 at stride 0x2000, 64 at stride 0x8). -/
abbrev MAC_MCF_HI_P : Nat := 0x20804
/-- MAC_RXBYTES_LO_P (14_network_ports.md, R370, 5 at stride 0x2000). -/
abbrev MAC_RXBYTES_LO_P : Nat := 0x20100
/-- MAC_RXBYTES_HI_P (14_network_ports.md, R370, 5 at stride 0x2000). -/
abbrev MAC_RXBYTES_HI_P : Nat := 0x20104
/-- MAC_CNT_P (14_network_ports.md, R370, 5 at stride 0x2000, 10 at stride 0x4). -/
abbrev MAC_CNT_P : Nat := 0x20108
/-- MAC_TXBYTES_LO_P (14_network_ports.md, R370, 5 at stride 0x2000). -/
abbrev MAC_TXBYTES_LO_P : Nat := 0x20130
/-- MAC_TXBYTES_HI_P (14_network_ports.md, R370, 5 at stride 0x2000). -/
abbrev MAC_TXBYTES_HI_P : Nat := 0x20134
/-- MAC_CNT2_P (14_network_ports.md, R370, 5 at stride 0x2000, 15 at stride 0x4). -/
abbrev MAC_CNT2_P : Nat := 0x20138
/-- MAC_PRP_CTRL (14_network_ports.md, R365). -/
abbrev MAC_PRP_CTRL : Nat := 0x2A000
/-- MAC_PRP_FORGET (14_network_ports.md, R368). -/
abbrev MAC_PRP_FORGET : Nat := 0x2A004
/-- MAC_PRP_LIFECHECK (14_network_ports.md, R369). -/
abbrev MAC_PRP_LIFECHECK : Nat := 0x2A008
/-- MAC_PRP_SEQ (14_network_ports.md, R366). -/
abbrev MAC_PRP_SEQ : Nat := 0x2A00C
/-- MAC_MDIO_CFG (14_network_ports.md, R371). -/
abbrev MAC_MDIO_CFG : Nat := 0x2A010
/-- MAC_MDIO_CMD (14_network_ports.md, R371). -/
abbrev MAC_MDIO_CMD : Nat := 0x2A014
/-- MAC_MDIO_RDATA (14_network_ports.md, R371). -/
abbrev MAC_MDIO_RDATA : Nat := 0x2A018
/-- ING_CTRL (03_stream_ingest.md, R86). -/
abbrev ING_CTRL : Nat := 0x30000
/-- ING_STAT (03_stream_ingest.md, R86). -/
abbrev ING_STAT : Nat := 0x30004
/-- ING_HIST (03_stream_ingest.md, R93). -/
abbrev ING_HIST : Nat := 0x30008
/-- ING_UDPPORT_0 (03_stream_ingest.md, R80). -/
abbrev ING_UDPPORT_0 : Nat := 0x30010
/-- ING_UDPPORT (03_stream_ingest.md, R80, 7 at stride 0x4). -/
abbrev ING_UDPPORT : Nat := 0x30014
/-- ING_CNT_ACCEPT_LO (03_stream_ingest.md, R81). -/
abbrev ING_CNT_ACCEPT_LO : Nat := 0x30040
/-- ING_CNT_ACCEPT_HI (03_stream_ingest.md, R81). -/
abbrev ING_CNT_ACCEPT_HI : Nat := 0x30044
/-- ING_CNT_LATE (03_stream_ingest.md, R81). -/
abbrev ING_CNT_LATE : Nat := 0x30048
/-- ING_CNT_IPHDR (03_stream_ingest.md, R81). -/
abbrev ING_CNT_IPHDR : Nat := 0x3004C
/-- ING_CNT_SESSION (03_stream_ingest.md, R81). -/
abbrev ING_CNT_SESSION : Nat := 0x30050
/-- ING_CNT_MALFORMED (03_stream_ingest.md, R81). -/
abbrev ING_CNT_MALFORMED : Nat := 0x30054
/-- ING_CNT_CRC (03_stream_ingest.md, R81). -/
abbrev ING_CNT_CRC : Nat := 0x30058
/-- ING_CNT_UNKNOWN (03_stream_ingest.md, R81). -/
abbrev ING_CNT_UNKNOWN : Nat := 0x3005C
/-- ING_CNT_DISABLED (03_stream_ingest.md, R81). -/
abbrev ING_CNT_DISABLED : Nat := 0x30060
/-- ING_CNT_AUTH (03_stream_ingest.md, R81). -/
abbrev ING_CNT_AUTH : Nat := 0x30064
/-- ING_CNT_REPLAY (03_stream_ingest.md, R81). -/
abbrev ING_CNT_REPLAY : Nat := 0x30068
/-- ING_CNT_FORMAT (03_stream_ingest.md, R81). -/
abbrev ING_CNT_FORMAT : Nat := 0x3006C
/-- ING_CNT_FUTURE (03_stream_ingest.md, R81). -/
abbrev ING_CNT_FUTURE : Nat := 0x30070
/-- ING_CNT_STALE (03_stream_ingest.md, R81). -/
abbrev ING_CNT_STALE : Nat := 0x30074
/-- ING_CNT_DUP (03_stream_ingest.md, R81). -/
abbrev ING_CNT_DUP : Nat := 0x30078
/-- ING_CNT_NOSPACE (03_stream_ingest.md, R81). -/
abbrev ING_CNT_NOSPACE : Nat := 0x3007C
/-- ING_CNT_INJBAD (03_stream_ingest.md, R81). -/
abbrev ING_CNT_INJBAD : Nat := 0x30080
/-- ING_CNT_POISON (03_stream_ingest.md, R81). -/
abbrev ING_CNT_POISON : Nat := 0x30084
/-- ING_CNT_TOFW (03_stream_ingest.md, R81). -/
abbrev ING_CNT_TOFW : Nat := 0x30088
/-- ING_UNK_A0 (03_stream_ingest.md, R98). -/
abbrev ING_UNK_A0 : Nat := 0x300A0
/-- ING_UNK_A1 (03_stream_ingest.md, R98). -/
abbrev ING_UNK_A1 : Nat := 0x300A4
/-- ING_UNK_A2 (03_stream_ingest.md, R98). -/
abbrev ING_UNK_A2 : Nat := 0x300A8
/-- ING_UNK_A3 (03_stream_ingest.md, R98). -/
abbrev ING_UNK_A3 : Nat := 0x300AC
/-- ING_UNK_KEY (03_stream_ingest.md, R98). -/
abbrev ING_UNK_KEY : Nat := 0x300B0
/-- ING_INJ_BASE_LO (03_stream_ingest.md, R96). -/
abbrev ING_INJ_BASE_LO : Nat := 0x300C0
/-- ING_INJ_BASE_HI (03_stream_ingest.md, R96). -/
abbrev ING_INJ_BASE_HI : Nat := 0x300C4
/-- ING_INJ_SIZE (03_stream_ingest.md, R96). -/
abbrev ING_INJ_SIZE : Nat := 0x300C8
/-- ING_INJ_PROD (03_stream_ingest.md, R97). -/
abbrev ING_INJ_PROD : Nat := 0x300CC
/-- ING_INJ_CONS (03_stream_ingest.md, R97). -/
abbrev ING_INJ_CONS : Nat := 0x300D0
/-- ING_INJ_IRQIDX (03_stream_ingest.md, R97). -/
abbrev ING_INJ_IRQIDX : Nat := 0x300D4
/-- SET_CTRL (04_sett_store.md, R107). -/
abbrev SET_CTRL : Nat := 0x40000
/-- SET_STAT (04_sett_store.md, R109). -/
abbrev SET_STAT : Nat := 0x40004
/-- SET_WINSEL (04_sett_store.md, R113). -/
abbrev SET_WINSEL : Nat := 0x40008
/-- SET_QUOTA_ALIGN (04_sett_store.md, R106). -/
abbrev SET_QUOTA_ALIGN : Nat := 0x40040
/-- SET_QUOTA_LATE (04_sett_store.md, R106). -/
abbrev SET_QUOTA_LATE : Nat := 0x40044
/-- SET_QUOTA_HOSTQ (04_sett_store.md, R106). -/
abbrev SET_QUOTA_HOSTQ : Nat := 0x40048
/-- SET_QUOTA_CAPT (04_sett_store.md, R106). -/
abbrev SET_QUOTA_CAPT : Nat := 0x4004C
/-- SET_QUOTA_EVREC (04_sett_store.md, R106). -/
abbrev SET_QUOTA_EVREC : Nat := 0x40050
/-- SET_QUOTA_CASC (04_sett_store.md, R106). -/
abbrev SET_QUOTA_CASC : Nat := 0x40054
/-- SET_QUOTA_HANDOVER (04_sett_store.md, R106). -/
abbrev SET_QUOTA_HANDOVER : Nat := 0x40058
/-- SET_QUOTA_SPARE (04_sett_store.md, R106). -/
abbrev SET_QUOTA_SPARE : Nat := 0x4005C
/-- SET_USE (04_sett_store.md, R107, 8 at stride 0x4). -/
abbrev SET_USE : Nat := 0x40060
/-- SET_FAIL (04_sett_store.md, R107, 7 at stride 0x4). -/
abbrev SET_FAIL : Nat := 0x40080
/-- SET_LEASE_CAPT (04_sett_store.md, R111). -/
abbrev SET_LEASE_CAPT : Nat := 0x400A0
/-- SET_LEASE_CASC (04_sett_store.md, R111). -/
abbrev SET_LEASE_CASC : Nat := 0x400A4
/-- SET_LEASE_HANDOVER (04_sett_store.md, R111). -/
abbrev SET_LEASE_HANDOVER : Nat := 0x400A8
/-- SET_SCHED_CTRL (04_sett_store.md, R127). -/
abbrev SET_SCHED_CTRL : Nat := 0x400C0
/-- SET_SCHED_AGE (04_sett_store.md, R127, 3 at stride 0x4). -/
abbrev SET_SCHED_AGE : Nat := 0x400C4
/-- SET_SCHED_STAT (04_sett_store.md, R126). -/
abbrev SET_SCHED_STAT : Nat := 0x400D0
/-- SET_SKIP (04_sett_store.md, R127, 3 at stride 0x4). -/
abbrev SET_SKIP : Nat := 0x400D4
/-- SET_HQ_PEND (04_sett_store.md, R123). -/
abbrev SET_HQ_PEND : Nat := 0x400E0
/-- SET_HQ_CFG (04_sett_store.md, R124, 16 at stride 0x80). -/
abbrev SET_HQ_CFG : Nat := 0x41000
/-- SET_HQ_SRC (04_sett_store.md, R118, 16 at stride 0x80). -/
abbrev SET_HQ_SRC : Nat := 0x41004
/-- SET_HQ_LEASE (04_sett_store.md, R111, 16 at stride 0x80). -/
abbrev SET_HQ_LEASE : Nat := 0x41008
/-- SET_HQ_STAT (04_sett_store.md, R122, 16 at stride 0x80). -/
abbrev SET_HQ_STAT : Nat := 0x4100C
/-- SET_HQ_BASE_LO (04_sett_store.md, R120, 16 at stride 0x80). -/
abbrev SET_HQ_BASE_LO : Nat := 0x41010
/-- SET_HQ_BASE_HI (04_sett_store.md, R120, 16 at stride 0x80). -/
abbrev SET_HQ_BASE_HI : Nat := 0x41014
/-- SET_HQ_SIZE (04_sett_store.md, R120, 16 at stride 0x80). -/
abbrev SET_HQ_SIZE : Nat := 0x41018
/-- SET_HQ_PROD (04_sett_store.md, R120, 16 at stride 0x80). -/
abbrev SET_HQ_PROD : Nat := 0x4101C
/-- SET_HQ_CONS (04_sett_store.md, R120, 16 at stride 0x80). -/
abbrev SET_HQ_CONS : Nat := 0x41020
/-- SET_HQ_PKTIN (04_sett_store.md, R118, 16 at stride 0x80). -/
abbrev SET_HQ_PKTIN : Nat := 0x41024
/-- SET_HQ_PKTOUT (04_sett_store.md, R120, 16 at stride 0x80). -/
abbrev SET_HQ_PKTOUT : Nat := 0x41028
/-- SET_HQ_DROP (04_sett_store.md, R118, 16 at stride 0x80). -/
abbrev SET_HQ_DROP : Nat := 0x4102C
/-- SET_HQ_UNDER (04_sett_store.md, R121, 16 at stride 0x80). -/
abbrev SET_HQ_UNDER : Nat := 0x41030
/-- SET_HQ_DATA (04_sett_store.md, R121, 16 at stride 0x80, 4 at stride 0x4). -/
abbrev SET_HQ_DATA : Nat := 0x41040
/-- SET_HQ_LAST (04_sett_store.md, R121, 16 at stride 0x80, 4 at stride 0x4). -/
abbrev SET_HQ_LAST : Nat := 0x41050
/-- ALN_CTRL (05_alignment.md, R141). -/
abbrev ALN_CTRL : Nat := 0x50000
/-- ALN_STAT (05_alignment.md, R154). -/
abbrev ALN_STAT : Nat := 0x50004
/-- ALN_WAITMIN (05_alignment.md, R147). -/
abbrev ALN_WAITMIN : Nat := 0x50010
/-- ALN_WAITMAX (05_alignment.md, R147). -/
abbrev ALN_WAITMAX : Nat := 0x50014
/-- ALN_WAITINIT (05_alignment.md, R146). -/
abbrev ALN_WAITINIT : Nat := 0x50018
/-- ALN_WAIT_EFF (05_alignment.md, R147). -/
abbrev ALN_WAIT_EFF : Nat := 0x5001C
/-- ALN_LEARN (05_alignment.md, R146). -/
abbrev ALN_LEARN : Nat := 0x50020
/-- ALN_MARGIN (05_alignment.md, R146). -/
abbrev ALN_MARGIN : Nat := 0x50024
/-- ALN_DEMOTE (05_alignment.md, R149). -/
abbrev ALN_DEMOTE : Nat := 0x50028
/-- ALN_TOL (05_alignment.md, R132). -/
abbrev ALN_TOL : Nat := 0x5002C
/-- ALN_EPOCH_LEAD (05_alignment.md, R154). -/
abbrev ALN_EPOCH_LEAD : Nat := 0x50030
/-- ALN_HORIZ_LO (05_alignment.md, R138). -/
abbrev ALN_HORIZ_LO : Nat := 0x50040
/-- ALN_HORIZ_HI (05_alignment.md, R138). -/
abbrev ALN_HORIZ_HI : Nat := 0x50044
/-- ALN_SETS_LO (05_alignment.md, R143). -/
abbrev ALN_SETS_LO : Nat := 0x50048
/-- ALN_SETS_HI (05_alignment.md, R143). -/
abbrev ALN_SETS_HI : Nat := 0x5004C
/-- ALN_CNT_DL (05_alignment.md, R141). -/
abbrev ALN_CNT_DL : Nat := 0x50050
/-- ALN_CNT_FORCED (05_alignment.md, R141). -/
abbrev ALN_CNT_FORCED : Nat := 0x50054
/-- ALN_CNT_GAP (05_alignment.md, R137). -/
abbrev ALN_CNT_GAP : Nat := 0x50058
/-- ALN_NDEMOTED (05_alignment.md, R149). -/
abbrev ALN_NDEMOTED : Nat := 0x5005C
/-- ALN_RELMAX (05_alignment.md, R143). -/
abbrev ALN_RELMAX : Nat := 0x50060
/-- ALN_BOUND_LO (05_alignment.md, R154). -/
abbrev ALN_BOUND_LO : Nat := 0x50068
/-- ALN_BOUND_HI (05_alignment.md, R154). -/
abbrev ALN_BOUND_HI : Nat := 0x5006C
/-- ANG_CTRL (06_limits_angles.md, R163). -/
abbrev ANG_CTRL : Nat := 0x60000
/-- ANG_STAT (06_limits_angles.md, R170). -/
abbrev ANG_STAT : Nat := 0x60004
/-- ANG_ACTIVE (06_limits_angles.md, R163). -/
abbrev ANG_ACTIVE : Nat := 0x60008
/-- ANG_NRULES (06_limits_angles.md, R166). -/
abbrev ANG_NRULES : Nat := 0x6000C
/-- ANG_CNT_RAISE (06_limits_angles.md, R163). -/
abbrev ANG_CNT_RAISE : Nat := 0x60010
/-- ANG_CNT_CLEAR (06_limits_angles.md, R163). -/
abbrev ANG_CNT_CLEAR : Nat := 0x60014
/-- ANG_CNT_MISS (06_limits_angles.md, R162). -/
abbrev ANG_CNT_MISS : Nat := 0x60018
/-- ANG_CNT_TRUNC (06_limits_angles.md, R177). -/
abbrev ANG_CNT_TRUNC : Nat := 0x6001C
/-- ANG_RUNMAX (06_limits_angles.md, R126). -/
abbrev ANG_RUNMAX : Nat := 0x60020
/-- ANG_STALE (06_limits_angles.md, R170). -/
abbrev ANG_STALE : Nat := 0x60024
/-- ANG_RECMAX (06_limits_angles.md, R177). -/
abbrev ANG_RECMAX : Nat := 0x60028
/-- ANG_ALMCFG (06_limits_angles.md, R172, 8 at stride 0x4). -/
abbrev ANG_ALMCFG : Nat := 0x60040
/-- ANG_ALMCLR (06_limits_angles.md, R172). -/
abbrev ANG_ALMCLR : Nat := 0x60060
/-- ANG_ALMSTAT (06_limits_angles.md, R172). -/
abbrev ANG_ALMSTAT : Nat := 0x60064
/-- ANG_ASPCNT (06_limits_angles.md, R170). -/
abbrev ANG_ASPCNT : Nat := 0x60068
/-- ANG_ASPSUM (06_limits_angles.md, R170). -/
abbrev ANG_ASPSUM : Nat := 0x6006C
/-- ANG_NET_CFG (06_limits_angles.md, R178). -/
abbrev ANG_NET_CFG : Nat := 0x60080
/-- ANG_NET_DST (06_limits_angles.md, R179, 4 at stride 0x4). -/
abbrev ANG_NET_DST : Nat := 0x60084
/-- ANG_NET_UNIT (06_limits_angles.md, R178). -/
abbrev ANG_NET_UNIT : Nat := 0x60094
/-- ANG_NET_SEQ (06_limits_angles.md, R178). -/
abbrev ANG_NET_SEQ : Nat := 0x60098
/-- ANG_NET_MAC_LO (06_limits_angles.md, R179). -/
abbrev ANG_NET_MAC_LO : Nat := 0x6009C
/-- ANG_NET_MAC_HI (06_limits_angles.md, R179). -/
abbrev ANG_NET_MAC_HI : Nat := 0x600A0
/-- ANG_NET_NORES (06_limits_angles.md, R179). -/
abbrev ANG_NET_NORES : Nat := 0x600A4
/-- ANG_GRP (06_limits_angles.md, R169, 31 at stride 0x4). -/
abbrev ANG_GRP : Nat := 0x60100
/-- ISL_CTRL (07_island_engine.md, R201). -/
abbrev ISL_CTRL : Nat := 0x70000
/-- ISL_STAT (07_island_engine.md, R195). -/
abbrev ISL_STAT : Nat := 0x70004
/-- ISL_PERSIST (07_island_engine.md, R193). -/
abbrev ISL_PERSIST : Nat := 0x70008
/-- ISL_DRIFT (07_island_engine.md, R187). -/
abbrev ISL_DRIFT : Nat := 0x7000C
/-- ISL_LOST (07_island_engine.md, R197). -/
abbrev ISL_LOST : Nat := 0x70010
/-- ISL_RECMAX (07_island_engine.md, R201). -/
abbrev ISL_RECMAX : Nat := 0x70014
/-- ISL_ALMGRP (07_island_engine.md, R195). -/
abbrev ISL_ALMGRP : Nat := 0x70018
/-- ISL_SIZE (07_island_engine.md, R182). -/
abbrev ISL_SIZE : Nat := 0x7001C
/-- ISL_EVNO (07_island_engine.md, R192). -/
abbrev ISL_EVNO : Nat := 0x70020
/-- ISL_CNT_UNSETTLED (07_island_engine.md, R193). -/
abbrev ISL_CNT_UNSETTLED : Nat := 0x70024
/-- ISL_CNT_UNKNOWN (07_island_engine.md, R188). -/
abbrev ISL_CNT_UNKNOWN : Nat := 0x70028
/-- ISL_RUNS (07_island_engine.md, R190). -/
abbrev ISL_RUNS : Nat := 0x7002C
/-- ISL_RUNMAX (07_island_engine.md, R126). -/
abbrev ISL_RUNMAX : Nat := 0x70030
/-- ISL_ROUNDMAX (07_island_engine.md, R190). -/
abbrev ISL_ROUNDMAX : Nat := 0x70034
/-- ISL_LABEL_SEL (07_island_engine.md, R404). -/
abbrev ISL_LABEL_SEL : Nat := 0x70040
/-- ISL_LABEL (07_island_engine.md, R194). -/
abbrev ISL_LABEL : Nat := 0x70044
/-- ISL_EDGE_SEL (07_island_engine.md, R404). -/
abbrev ISL_EDGE_SEL : Nat := 0x70048
/-- ISL_EDGE_STAT (07_island_engine.md, R188). -/
abbrev ISL_EDGE_STAT : Nat := 0x7004C
/-- ISL_EDGE_DF (07_island_engine.md, R186). -/
abbrev ISL_EDGE_DF : Nat := 0x70050
/-- OSC_CTRL (08_oscillation_engine.md, R227). -/
abbrev OSC_CTRL : Nat := 0x80000
/-- OSC_STAT (08_oscillation_engine.md, R211). -/
abbrev OSC_STAT : Nat := 0x80004
/-- OSC_BANDCFG (08_oscillation_engine.md, R209). -/
abbrev OSC_BANDCFG : Nat := 0x80008
/-- OSC_BW (08_oscillation_engine.md, R210). -/
abbrev OSC_BW : Nat := 0x8000C
/-- OSC_RECENTRE (08_oscillation_engine.md, R212). -/
abbrev OSC_RECENTRE : Nat := 0x80010
/-- OSC_TRACK (08_oscillation_engine.md, R214). -/
abbrev OSC_TRACK : Nat := 0x80014
/-- OSC_TRKRANGE (08_oscillation_engine.md, R215). -/
abbrev OSC_TRKRANGE : Nat := 0x80018
/-- OSC_CLASS (08_oscillation_engine.md, R217). -/
abbrev OSC_CLASS : Nat := 0x8001C
/-- OSC_CLASSHYST (08_oscillation_engine.md, R217). -/
abbrev OSC_CLASSHYST : Nat := 0x80020
/-- OSC_GAP (08_oscillation_engine.md, R223). -/
abbrev OSC_GAP : Nat := 0x80024
/-- OSC_RECMAX (08_oscillation_engine.md, R227). -/
abbrev OSC_RECMAX : Nat := 0x80028
/-- OSC_RUNS (08_oscillation_engine.md, R222). -/
abbrev OSC_RUNS : Nat := 0x80030
/-- OSC_CNT_RAISE (08_oscillation_engine.md, R219). -/
abbrev OSC_CNT_RAISE : Nat := 0x80034
/-- OSC_CNT_CLEAR (08_oscillation_engine.md, R219). -/
abbrev OSC_CNT_CLEAR : Nat := 0x80038
/-- OSC_CNT_FILL (08_oscillation_engine.md, R223). -/
abbrev OSC_CNT_FILL : Nat := 0x8003C
/-- OSC_CNT_RESTART (08_oscillation_engine.md, R206). -/
abbrev OSC_CNT_RESTART : Nat := 0x80040
/-- OSC_CNT_TRUNC (08_oscillation_engine.md, R227). -/
abbrev OSC_CNT_TRUNC : Nat := 0x80044
/-- OSC_RUNMAX (08_oscillation_engine.md, R126). -/
abbrev OSC_RUNMAX : Nat := 0x80048
/-- OSC_MODE_SEL (08_oscillation_engine.md, R404). -/
abbrev OSC_MODE_SEL : Nat := 0x80050
/-- OSC_MODE_INFO (08_oscillation_engine.md, R216). -/
abbrev OSC_MODE_INFO : Nat := 0x80054
/-- OSC_MODE_FREQ (08_oscillation_engine.md, R216). -/
abbrev OSC_MODE_FREQ : Nat := 0x80058
/-- OSC_MODE_ZETA (08_oscillation_engine.md, R216). -/
abbrev OSC_MODE_ZETA : Nat := 0x8005C
/-- OSC_MODE_AMP (08_oscillation_engine.md, R216). -/
abbrev OSC_MODE_AMP : Nat := 0x80060
/-- OSC_BAND_SEL (08_oscillation_engine.md, R404). -/
abbrev OSC_BAND_SEL : Nat := 0x80070
/-- OSC_BAND_CTR (08_oscillation_engine.md, R209). -/
abbrev OSC_BAND_CTR : Nat := 0x80074
/-- OSC_BAND_AMP (08_oscillation_engine.md, R210). -/
abbrev OSC_BAND_AMP : Nat := 0x80078
/-- OSC_BAND_NOM (08_oscillation_engine.md, R209). -/
abbrev OSC_BAND_NOM : Nat := 0x8007C
/-- OUT_CTRL (09_output_federation.md, R235). -/
abbrev OUT_CTRL : Nat := 0x90000
/-- OUT_STAT (09_output_federation.md, R232). -/
abbrev OUT_STAT : Nat := 0x90004
/-- OUT_CFGCHG (09_output_federation.md, R236). -/
abbrev OUT_CFGCHG : Nat := 0x90008
/-- OUT_GINFO (09_output_federation.md, R234, 16 at stride 0x10). -/
abbrev OUT_GINFO : Nat := 0x90100
/-- OUT_CFGCNT (09_output_federation.md, R242, 16 at stride 0x10). -/
abbrev OUT_CFGCNT : Nat := 0x90104
/-- OUT_SETS (09_output_federation.md, R235, 16 at stride 0x10). -/
abbrev OUT_SETS : Nat := 0x90108
/-- OUT_DSTAT (09_output_federation.md, R238, 16 at stride 0x10). -/
abbrev OUT_DSTAT : Nat := 0x90200
/-- OUT_SENT (09_output_federation.md, R239, 16 at stride 0x10). -/
abbrev OUT_SENT : Nat := 0x90204
/-- OUT_DROP (09_output_federation.md, R240, 16 at stride 0x10). -/
abbrev OUT_DROP : Nat := 0x90208
/-- OUT_NORES (09_output_federation.md, R242, 16 at stride 0x10). -/
abbrev OUT_NORES : Nat := 0x9020C
/-- CAS_CTRL (09_output_federation.md, R248). -/
abbrev CAS_CTRL : Nat := 0x90800
/-- CAS_STAT (09_output_federation.md, R244). -/
abbrev CAS_STAT : Nat := 0x90804
/-- CAS_GROUPID (09_output_federation.md, R243). -/
abbrev CAS_GROUPID : Nat := 0x90808
/-- CAS_LOSS (09_output_federation.md, R251). -/
abbrev CAS_LOSS : Nat := 0x9080C
/-- CAS_UP_MAC_LO (09_output_federation.md, R244). -/
abbrev CAS_UP_MAC_LO : Nat := 0x90810
/-- CAS_UP_MAC_HI (09_output_federation.md, R244). -/
abbrev CAS_UP_MAC_HI : Nat := 0x90814
/-- CAS_MEMBERS (09_output_federation.md, R251). -/
abbrev CAS_MEMBERS : Nat := 0x90818
/-- CAS_CNT_SENT (09_output_federation.md, R248). -/
abbrev CAS_CNT_SENT : Nat := 0x90820
/-- CAS_CNT_RECV (09_output_federation.md, R245). -/
abbrev CAS_CNT_RECV : Nat := 0x90824
/-- CAS_CNT_DISC_FMT (09_output_federation.md, R245). -/
abbrev CAS_CNT_DISC_FMT : Nat := 0x90828
/-- CAS_CNT_DISC_AUTH (09_output_federation.md, R245). -/
abbrev CAS_CNT_DISC_AUTH : Nat := 0x9082C
/-- CAS_CNT_DISC_DEPTH (09_output_federation.md, R245). -/
abbrev CAS_CNT_DISC_DEPTH : Nat := 0x90830
/-- CAS_CNT_INCOMPLETE (09_output_federation.md, R246). -/
abbrev CAS_CNT_INCOMPLETE : Nat := 0x90834
/-- CAS_CNT_UNMAPPED (09_output_federation.md, R249). -/
abbrev CAS_CNT_UNMAPPED : Nat := 0x90838
/-- CAS_CNT_TIER0 (09_output_federation.md, R36). -/
abbrev CAS_CNT_TIER0 : Nat := 0x9083C
/-- CAS_MCFG (09_output_federation.md, R245, 15 at stride 0x20). -/
abbrev CAS_MCFG : Nat := 0x90920
/-- CAS_MBASE (09_output_federation.md, R249, 15 at stride 0x20). -/
abbrev CAS_MBASE : Nat := 0x90924
/-- CAS_MMACA_LO (09_output_federation.md, R245, 15 at stride 0x20). -/
abbrev CAS_MMACA_LO : Nat := 0x90928
/-- CAS_MMACA_HI (09_output_federation.md, R245, 15 at stride 0x20). -/
abbrev CAS_MMACA_HI : Nat := 0x9092C
/-- CAS_MMACB_LO (09_output_federation.md, R245, 15 at stride 0x20). -/
abbrev CAS_MMACB_LO : Nat := 0x90930
/-- CAS_MMACB_HI (09_output_federation.md, R245, 15 at stride 0x20). -/
abbrev CAS_MMACB_HI : Nat := 0x90934
/-- CAS_MSTAT (09_output_federation.md, R251, 15 at stride 0x20). -/
abbrev CAS_MSTAT : Nat := 0x90938
/-- CAS_MDSEQ (09_output_federation.md, R245, 15 at stride 0x20). -/
abbrev CAS_MDSEQ : Nat := 0x9093C
/-- CAS_XTRIG (09_output_federation.md, R253). -/
abbrev CAS_XTRIG : Nat := 0x890A00
/-- CAS_XFIRE_TS_LO (09_output_federation.md, R254). -/
abbrev CAS_XFIRE_TS_LO : Nat := 0x890A04
/-- CAS_XFIRE_TS_MID (09_output_federation.md, R254). -/
abbrev CAS_XFIRE_TS_MID : Nat := 0x890A08
/-- CAS_XFIRE_TS_HI (09_output_federation.md, R254). -/
abbrev CAS_XFIRE_TS_HI : Nat := 0x890A0C
/-- CAS_XFIRE_CNT (09_output_federation.md, R254). -/
abbrev CAS_XFIRE_CNT : Nat := 0x890A10
/-- FLT_CTRL (10_local_front_end.md, R262). -/
abbrev FLT_CTRL : Nat := 0xA0000
/-- FLT_STAT (10_local_front_end.md, R270). -/
abbrev FLT_STAT : Nat := 0xA0004
/-- FLT_T0_LO (10_local_front_end.md, R262). -/
abbrev FLT_T0_LO : Nat := 0xA0008
/-- FLT_T0_HI (10_local_front_end.md, R262). -/
abbrev FLT_T0_HI : Nat := 0xA000C
/-- FLT_BAYCFG (10_local_front_end.md, R258, 8 at stride 0x4). -/
abbrev FLT_BAYCFG : Nat := 0xA0040
/-- FLT_BAYSTAT (10_local_front_end.md, R260, 8 at stride 0x4). -/
abbrev FLT_BAYSTAT : Nat := 0xA0060
/-- FLT_RNG (10_local_front_end.md, R272). -/
abbrev FLT_RNG : Nat := 0xA0080
/-- FLT_RNGTIME (10_local_front_end.md, R272). -/
abbrev FLT_RNGTIME : Nat := 0xA0084
/-- FLT_RNGRATIO (10_local_front_end.md, R273, 8 at stride 0x4). -/
abbrev FLT_RNGRATIO : Nat := 0xA00A0
/-- FLT_RNGCNT (10_local_front_end.md, R272). -/
abbrev FLT_RNGCNT : Nat := 0xA00C0
/-- FLT_OVLCNT (10_local_front_end.md, R270). -/
abbrev FLT_OVLCNT : Nat := 0xA00C4
/-- FLT_BANK (10_local_front_end.md, R276). -/
abbrev FLT_BANK : Nat := 0xA00D0
/-- FLT_COEFLEN (10_local_front_end.md, R275, 2 at stride 0x4). -/
abbrev FLT_COEFLEN : Nat := 0xA00D4
/-- FLT_GD_PH (10_local_front_end.md, R267). -/
abbrev FLT_GD_PH : Nat := 0xA00E0
/-- FLT_GD_EN (10_local_front_end.md, R267). -/
abbrev FLT_GD_EN : Nat := 0xA00E4
/-- FLT_GD_CP (10_local_front_end.md, R268). -/
abbrev FLT_GD_CP : Nat := 0xA00E8
/-- PMU_CTRL (11_local_phasors.md, R290). -/
abbrev PMU_CTRL : Nat := 0xB0000
/-- PMU_STAT (11_local_phasors.md, R290). -/
abbrev PMU_STAT : Nat := 0xB0004
/-- PMU_DET (11_local_phasors.md, R289). -/
abbrev PMU_DET : Nat := 0xB0008
/-- PMU_HOLD (11_local_phasors.md, R290). -/
abbrev PMU_HOLD : Nat := 0xB000C
/-- PMU_FMIN (11_local_phasors.md, R287). -/
abbrev PMU_FMIN : Nat := 0xB0010
/-- PMU_BAYCFG (11_local_phasors.md, R296, 8 at stride 0x4). -/
abbrev PMU_BAYCFG : Nat := 0xB0020
/-- PMU_BAYSTAT (11_local_phasors.md, R290, 8 at stride 0x4). -/
abbrev PMU_BAYSTAT : Nat := 0xB0040
/-- PMU_LAG (11_local_phasors.md, R285, 8 at stride 0x4). -/
abbrev PMU_LAG : Nat := 0xB0060
/-- PMU_CNT_TRIG (11_local_phasors.md, R289). -/
abbrev PMU_CNT_TRIG : Nat := 0xB0080
/-- PMU_CNT_CLASS (11_local_phasors.md, R290). -/
abbrev PMU_CNT_CLASS : Nat := 0xB0084
/-- PMU_CNT_REC (11_local_phasors.md, R294). -/
abbrev PMU_CNT_REC : Nat := 0xB0088
/-- PMU_CNT_SKIP (11_local_phasors.md, R295). -/
abbrev PMU_CNT_SKIP : Nat := 0xB008C
/-- NRG_CTRL (12_energy.md, R317). -/
abbrev NRG_CTRL : Nat := 0xC0000
/-- NRG_STAT (12_energy.md, R314). -/
abbrev NRG_STAT : Nat := 0xC0004
/-- NRG_SAVE (12_energy.md, R311). -/
abbrev NRG_SAVE : Nat := 0xC0008
/-- NRG_SAVESEQ (12_energy.md, R311). -/
abbrev NRG_SAVESEQ : Nat := 0xC000C
/-- NRG_TICK_LO (12_energy.md, R303). -/
abbrev NRG_TICK_LO : Nat := 0xC0010
/-- NRG_TICK_HI (12_energy.md, R303). -/
abbrev NRG_TICK_HI : Nat := 0xC0014
/-- NRG_CNT_SAVE (12_energy.md, R311). -/
abbrev NRG_CNT_SAVE : Nat := 0xC0018
/-- NRG_CNT_FAULTTICK (12_energy.md, R307). -/
abbrev NRG_CNT_FAULTTICK : Nat := 0xC001C
/-- NRG_CNT_PFTICK (12_energy.md, R312). -/
abbrev NRG_CNT_PFTICK : Nat := 0xC0020
/-- NRG_CNT_PRESET (12_energy.md, R316). -/
abbrev NRG_CNT_PRESET : Nat := 0xC0024
/-- NRG_CFG (12_energy.md, R308, 8 at stride 0x4). -/
abbrev NRG_CFG : Nat := 0xC0040
/-- NRG_SCALE_LO (12_energy.md, R305, 8 at stride 0x8). -/
abbrev NRG_SCALE_LO : Nat := 0xC0060
/-- NRG_SCALE_HI (12_energy.md, R305, 8 at stride 0x8). -/
abbrev NRG_SCALE_HI : Nat := 0xC0064
/-- NRG_VAL (12_energy.md, R314, 8 at stride 0x400, 4 at stride 0x100, 9 at stride 0x10, 4 at stride 0x4). -/
abbrev NRG_VAL : Nat := 0xC1000
/-- TRG_CTRL (13_capture.md, R320). -/
abbrev TRG_CTRL : Nat := 0xD0000
/-- TRG_STAT (13_capture.md, R320). -/
abbrev TRG_STAT : Nat := 0xD0004
/-- TRG_RRED (13_capture.md, R336). -/
abbrev TRG_RRED : Nat := 0xD0008
/-- TRG_TRIGIO (13_capture.md, R337). -/
abbrev TRG_TRIGIO : Nat := 0xD000C
/-- TRG_CNT_TRIG (13_capture.md, R325). -/
abbrev TRG_CNT_TRIG : Nat := 0xD0010
/-- TRG_CNT_CAPT (13_capture.md, R334). -/
abbrev TRG_CNT_CAPT : Nat := 0xD0014
/-- TRG_CNT_TRUNC (13_capture.md, R333). -/
abbrev TRG_CNT_TRUNC : Nat := 0xD0018
/-- TRG_CNT_INPOST (13_capture.md, R326). -/
abbrev TRG_CNT_INPOST : Nat := 0xD001C
/-- TRG_CNT_MISS (13_capture.md, R321). -/
abbrev TRG_CNT_MISS : Nat := 0xD0020
/-- TRG_CNT_RATE (13_capture.md, R336). -/
abbrev TRG_CNT_RATE : Nat := 0xD0024
/-- TRG_UARM (13_capture.md, R330, 8 at stride 0x20). -/
abbrev TRG_UARM : Nat := 0xD0100
/-- TRG_URATE (13_capture.md, R336, 8 at stride 0x20). -/
abbrev TRG_URATE : Nat := 0xD0104
/-- TRG_UHELD (13_capture.md, R332, 8 at stride 0x20). -/
abbrev TRG_UHELD : Nat := 0xD0108
/-- TRG_ULEFT (13_capture.md, R334, 8 at stride 0x20). -/
abbrev TRG_ULEFT : Nat := 0xD010C
/-- TWN_CTRL (15_twin_operation.md, R384). -/
abbrev TWN_CTRL : Nat := 0xE0000
/-- TWN_STAT (15_twin_operation.md, R375). -/
abbrev TWN_STAT : Nat := 0xE0004
/-- TWN_HB (15_twin_operation.md, R374). -/
abbrev TWN_HB : Nat := 0xE0008
/-- TWN_WIT (15_twin_operation.md, R377). -/
abbrev TWN_WIT : Nat := 0xE000C
/-- TWN_REVERT (15_twin_operation.md, R387). -/
abbrev TWN_REVERT : Nat := 0xE0010
/-- TWN_FAULTMASK (15_twin_operation.md, R383). -/
abbrev TWN_FAULTMASK : Nat := 0xE0014
/-- TWN_FAULT (15_twin_operation.md, R383). -/
abbrev TWN_FAULT : Nat := 0xE0018
/-- TWN_SEQ (15_twin_operation.md, R390). -/
abbrev TWN_SEQ : Nat := 0xE001C
/-- TWN_SYNC (15_twin_operation.md, R393). -/
abbrev TWN_SYNC : Nat := 0xE0020
/-- TWN_PAIRID (15_twin_operation.md, R391). -/
abbrev TWN_PAIRID : Nat := 0xE0024
/-- TWN_PEER_MAC_LO (15_twin_operation.md, R391). -/
abbrev TWN_PEER_MAC_LO : Nat := 0xE0028
/-- TWN_PEER_MAC_HI (15_twin_operation.md, R391). -/
abbrev TWN_PEER_MAC_HI : Nat := 0xE002C
/-- TWN_SHARED_MAC_LO (15_twin_operation.md, R391). -/
abbrev TWN_SHARED_MAC_LO : Nat := 0xE0030
/-- TWN_SHARED_MAC_HI (15_twin_operation.md, R391). -/
abbrev TWN_SHARED_MAC_HI : Nat := 0xE0034
/-- TWN_PHB (15_twin_operation.md, R378). -/
abbrev TWN_PHB : Nat := 0xE0038
/-- TWN_PHB_AGE (15_twin_operation.md, R378). -/
abbrev TWN_PHB_AGE : Nat := 0xE003C
/-- TWN_SHARED_IP_0 (15_twin_operation.md, R391). -/
abbrev TWN_SHARED_IP_0 : Nat := 0xE0040
/-- TWN_SHARED_IP (15_twin_operation.md, R391, 3 at stride 0x4). -/
abbrev TWN_SHARED_IP : Nat := 0xE0044
/-- TWN_CFGSUM_LO (15_twin_operation.md, R392). -/
abbrev TWN_CFGSUM_LO : Nat := 0xE0050
/-- TWN_CFGSUM_HI (15_twin_operation.md, R392). -/
abbrev TWN_CFGSUM_HI : Nat := 0xE0054
/-- TWN_PCFGSUM_LO (15_twin_operation.md, R392). -/
abbrev TWN_PCFGSUM_LO : Nat := 0xE0058
/-- TWN_PCFGSUM_HI (15_twin_operation.md, R392). -/
abbrev TWN_PCFGSUM_HI : Nat := 0xE005C
/-- TWN_CNT_HB_RX_H (15_twin_operation.md, R375). -/
abbrev TWN_CNT_HB_RX_H : Nat := 0xE0060
/-- TWN_CNT_HB_RX_L (15_twin_operation.md, R375). -/
abbrev TWN_CNT_HB_RX_L : Nat := 0xE0064
/-- TWN_CNT_HB_BAD (15_twin_operation.md, R378). -/
abbrev TWN_CNT_HB_BAD : Nat := 0xE0068
/-- TWN_CNT_WIT_RX_P0 (15_twin_operation.md, R377). -/
abbrev TWN_CNT_WIT_RX_P0 : Nat := 0xE006C
/-- TWN_CNT_WIT_RX_P1 (15_twin_operation.md, R377). -/
abbrev TWN_CNT_WIT_RX_P1 : Nat := 0xE0070
/-- TWN_CNT_SWITCH (15_twin_operation.md, R380). -/
abbrev TWN_CNT_SWITCH : Nat := 0xE0074
/-- TWN_CNT_SEQOVF (15_twin_operation.md, R390). -/
abbrev TWN_CNT_SEQOVF : Nat := 0xE0078
/-- TWN_CNT_FOREIGN (15_twin_operation.md, R391). -/
abbrev TWN_CNT_FOREIGN : Nat := 0xE007C
/-- CMD_CTRL (16_host_commands.md, R406). -/
abbrev CMD_CTRL : Nat := 0xF0000
/-- CMD_STAT (16_host_commands.md, R408). -/
abbrev CMD_STAT : Nat := 0xF0004
/-- CMD_BASE_LO (16_host_commands.md, R406). -/
abbrev CMD_BASE_LO : Nat := 0xF0008
/-- CMD_BASE_HI (16_host_commands.md, R406). -/
abbrev CMD_BASE_HI : Nat := 0xF000C
/-- CMD_SIZE (16_host_commands.md, R406). -/
abbrev CMD_SIZE : Nat := 0xF0010
/-- CMD_DB (16_host_commands.md, R406). -/
abbrev CMD_DB : Nat := 0xF0014
/-- CMD_CONS (16_host_commands.md, R406). -/
abbrev CMD_CONS : Nat := 0xF0018
/-- CMD_SEQEXP (16_host_commands.md, R408). -/
abbrev CMD_SEQEXP : Nat := 0xF001C
/-- RPL_BASE_LO (16_host_commands.md, R411). -/
abbrev RPL_BASE_LO : Nat := 0xF0020
/-- RPL_BASE_HI (16_host_commands.md, R411). -/
abbrev RPL_BASE_HI : Nat := 0xF0024
/-- RPL_SIZE (16_host_commands.md, R411). -/
abbrev RPL_SIZE : Nat := 0xF0028
/-- RPL_PROD (16_host_commands.md, R411). -/
abbrev RPL_PROD : Nat := 0xF002C
/-- RPL_CONS (16_host_commands.md, R411). -/
abbrev RPL_CONS : Nat := 0xF0030
/-- RPL_PRODADDR_LO (16_host_commands.md, R411). -/
abbrev RPL_PRODADDR_LO : Nat := 0xF0034
/-- RPL_PRODADDR_HI (16_host_commands.md, R411). -/
abbrev RPL_PRODADDR_HI : Nat := 0xF0038
/-- CMD_INFLIGHT (16_host_commands.md, R412). -/
abbrev CMD_INFLIGHT : Nat := 0xF003C
/-- CMD_EPOCH (16_host_commands.md, R418). -/
abbrev CMD_EPOCH : Nat := 0xF0100
/-- CMD_EPOCH_PEND (16_host_commands.md, R418). -/
abbrev CMD_EPOCH_PEND : Nat := 0xF0104
/-- CMD_EPSTAT (16_host_commands.md, R417). -/
abbrev CMD_EPSTAT : Nat := 0xF0108
/-- CMD_PRIVDROP (16_host_commands.md, R404). -/
abbrev CMD_PRIVDROP : Nat := 0xF010C
/-- CMD_PAIRTMO (16_host_commands.md, R17). -/
abbrev CMD_PAIRTMO : Nat := 0xF0110
/-- CMD_PF1_STAT (16_host_commands.md, R410). -/
abbrev CMD_PF1_STAT : Nat := 0xF0120
/-- CMD_PF1_CONS (16_host_commands.md, R410). -/
abbrev CMD_PF1_CONS : Nat := 0xF0124
/-- CMD_PF1_RPROD (16_host_commands.md, R410). -/
abbrev CMD_PF1_RPROD : Nat := 0xF0128
/-- IRQ_STAT (17_interrupts_events.md, R436). -/
abbrev IRQ_STAT : Nat := 0x100004
/-- IRQ_CORESTAT (17_interrupts_events.md, R433). -/
abbrev IRQ_CORESTAT : Nat := 0x100008
/-- IRQ_PEND (17_interrupts_events.md, R427, 4 at stride 0x4). -/
abbrev IRQ_PEND : Nat := 0x100010
/-- IRQ_MASK (17_interrupts_events.md, R429, 4 at stride 0x4). -/
abbrev IRQ_MASK : Nat := 0x100020
/-- IRQ_DUE (17_interrupts_events.md, R428, 4 at stride 0x4). -/
abbrev IRQ_DUE : Nat := 0x100030
/-- IRQ_ROUTE (17_interrupts_events.md, R426, 128 at stride 0x4). -/
abbrev IRQ_ROUTE : Nat := 0x100100
/-- IRQ_COAL (17_interrupts_events.md, R431, 128 at stride 0x4). -/
abbrev IRQ_COAL : Nat := 0x100300
/-- IRQ_OCC (17_interrupts_events.md, R424, 64 at stride 0x4). -/
abbrev IRQ_OCC : Nat := 0x100500
/-- EVR_CTRL (17_interrupts_events.md, R442). -/
abbrev EVR_CTRL : Nat := 0x110000
/-- EVR_STAT (17_interrupts_events.md, R442). -/
abbrev EVR_STAT : Nat := 0x110004
/-- EVR_SEQ (17_interrupts_events.md, R438). -/
abbrev EVR_SEQ : Nat := 0x110008
/-- EVR_OLDEST (17_interrupts_events.md, R442). -/
abbrev EVR_OLDEST : Nat := 0x11000C
/-- EVR_RATE (17_interrupts_events.md, R440). -/
abbrev EVR_RATE : Nat := 0x110010
/-- EVR_FREEZE_MS (17_interrupts_events.md, R442). -/
abbrev EVR_FREEZE_MS : Nat := 0x110014
/-- EVR_CNT_SUPP (17_interrupts_events.md, R440). -/
abbrev EVR_CNT_SUPP : Nat := 0x110018
/-- EVR_CNT_FROZENDROP (17_interrupts_events.md, R442). -/
abbrev EVR_CNT_FROZENDROP : Nat := 0x11001C
/-- EVR_CNT_OVERWRITE (17_interrupts_events.md, R442). -/
abbrev EVR_CNT_OVERWRITE : Nat := 0x110020
/-- EVR_CNT_CRIT (17_interrupts_events.md, R443). -/
abbrev EVR_CNT_CRIT : Nat := 0x110024
/-- EVR_MIRROR (17_interrupts_events.md, R443). -/
abbrev EVR_MIRROR : Nat := 0x110028
/-- ECC_CTRL (18_store_integrity.md, R452). -/
abbrev ECC_CTRL : Nat := 0x120000
/-- ECC_STAT (18_store_integrity.md, R453). -/
abbrev ECC_STAT : Nat := 0x120004
/-- ECC_SCRUB (18_store_integrity.md, R452). -/
abbrev ECC_SCRUB : Nat := 0x120008
/-- ECC_LAP (18_store_integrity.md, R452). -/
abbrev ECC_LAP : Nat := 0x12000C
/-- ECC_LAPMAX (18_store_integrity.md, R452). -/
abbrev ECC_LAPMAX : Nat := 0x120010
/-- ECC_CNT_CORR (18_store_integrity.md, R448). -/
abbrev ECC_CNT_CORR : Nat := 0x120020
/-- ECC_CNT_UNCORR (18_store_integrity.md, R449). -/
abbrev ECC_CNT_UNCORR : Nat := 0x120024
/-- ECC_CNT_HARD (18_store_integrity.md, R453). -/
abbrev ECC_CNT_HARD : Nat := 0x120028
/-- ECC_CNT_WB (18_store_integrity.md, R451). -/
abbrev ECC_CNT_WB : Nat := 0x12002C
/-- ECC_CNT_TAGOVF (18_store_integrity.md, R451). -/
abbrev ECC_CNT_TAGOVF : Nat := 0x120030
/-- ECC_LAST_LO (18_store_integrity.md, R448). -/
abbrev ECC_LAST_LO : Nat := 0x120040
/-- ECC_LAST_HI (18_store_integrity.md, R448). -/
abbrev ECC_LAST_HI : Nat := 0x120044
/-- ECC_HARD_SEL (18_store_integrity.md, R404). -/
abbrev ECC_HARD_SEL : Nat := 0x120050
/-- ECC_HARD (18_store_integrity.md, R453). -/
abbrev ECC_HARD : Nat := 0x120054
/-- ECC_RETMAP_SEL (18_store_integrity.md, R404). -/
abbrev ECC_RETMAP_SEL : Nat := 0x120060
/-- ECC_RETMAP (18_store_integrity.md, R457). -/
abbrev ECC_RETMAP : Nat := 0x120064
/-- ECC_PERSIST (18_store_integrity.md, R457). -/
abbrev ECC_PERSIST : Nat := 0x120068
/-- KEY_CTRL (19_keys_tamper.md, R466). -/
abbrev KEY_CTRL : Nat := 0x130000
/-- KEY_STAT (19_keys_tamper.md, R472). -/
abbrev KEY_STAT : Nat := 0x130004
/-- KEY_BRGEN (19_keys_tamper.md, R463). -/
abbrev KEY_BRGEN : Nat := 0x130008
/-- KEY_LEASE (19_keys_tamper.md, R469). -/
abbrev KEY_LEASE : Nat := 0x13000C
/-- KEY_CNT_LOAD (19_keys_tamper.md, R466). -/
abbrev KEY_CNT_LOAD : Nat := 0x130010
/-- KEY_CNT_VFAIL (19_keys_tamper.md, R466). -/
abbrev KEY_CNT_VFAIL : Nat := 0x130014
/-- KEY_CNT_MISS (19_keys_tamper.md, R470). -/
abbrev KEY_CNT_MISS : Nat := 0x130018
/-- KEY_CNT_ORPHUSE (19_keys_tamper.md, R468). -/
abbrev KEY_CNT_ORPHUSE : Nat := 0x13001C
/-- KEY_GEN_SEL (19_keys_tamper.md, R404). -/
abbrev KEY_GEN_SEL : Nat := 0x130020
/-- KEY_GEN (19_keys_tamper.md, R463). -/
abbrev KEY_GEN : Nat := 0x130024
/-- KEY_SLOT_SEL (19_keys_tamper.md, R404). -/
abbrev KEY_SLOT_SEL : Nat := 0x130030
/-- KEY_SLOT_INFO (19_keys_tamper.md, R467). -/
abbrev KEY_SLOT_INFO : Nat := 0x130034
/-- KEY_SLOT_ID (19_keys_tamper.md, R467). -/
abbrev KEY_SLOT_ID : Nat := 0x130038
/-- KEY_TAMP_CFG (19_keys_tamper.md, R474). -/
abbrev KEY_TAMP_CFG : Nat := 0x130100
/-- KEY_TAMP_PIN (19_keys_tamper.md, R474). -/
abbrev KEY_TAMP_PIN : Nat := 0x130104
/-- KEY_MESH (19_keys_tamper.md, R475). -/
abbrev KEY_MESH : Nat := 0x130108
/-- KEY_TAMP_LATCH (19_keys_tamper.md, R476). -/
abbrev KEY_TAMP_LATCH : Nat := 0x13010C
/-- KEY_TAMP_NOW (19_keys_tamper.md, R476). -/
abbrev KEY_TAMP_NOW : Nat := 0x130110
/-- KEY_TAMP_RTC (19_keys_tamper.md, R476). -/
abbrev KEY_TAMP_RTC : Nat := 0x130114
/-- BOOT_STAT (20_start_update_power.md, R481). -/
abbrev BOOT_STAT : Nat := 0x140000
/-- BOOT_RSTCAUSE (20_start_update_power.md, R479). -/
abbrev BOOT_RSTCAUSE : Nat := 0x140004
/-- BOOT_CNT (20_start_update_power.md, R481). -/
abbrev BOOT_CNT : Nat := 0x140008
/-- BOOT_FAILS (20_start_update_power.md, R486). -/
abbrev BOOT_FAILS : Nat := 0x14000C
/-- BOOT_WDOG (20_start_update_power.md, R492). -/
abbrev BOOT_WDOG : Nat := 0x140010
/-- BOOT_SVN (20_start_update_power.md, R485). -/
abbrev BOOT_SVN : Nat := 0x140014
/-- BOOT_RECOV_ADDR_LO (20_start_update_power.md, R483). -/
abbrev BOOT_RECOV_ADDR_LO : Nat := 0x140020
/-- BOOT_RECOV_ADDR_HI (20_start_update_power.md, R483). -/
abbrev BOOT_RECOV_ADDR_HI : Nat := 0x140024
/-- BOOT_RECOV_LEN (20_start_update_power.md, R483). -/
abbrev BOOT_RECOV_LEN : Nat := 0x140028
/-- BOOT_RECOV_CTRL (20_start_update_power.md, R483). -/
abbrev BOOT_RECOV_CTRL : Nat := 0x14002C
/-- PWR_STAT (20_start_update_power.md, R493). -/
abbrev PWR_STAT : Nat := 0x140100
/-- PWR_CTRL (20_start_update_power.md, R495). -/
abbrev PWR_CTRL : Nat := 0x140104
/-- PWR_CNT_PFW (20_start_update_power.md, R493). -/
abbrev PWR_CNT_PFW : Nat := 0x140108
/-- PWR_HOLDTIME (20_start_update_power.md, R480). -/
abbrev PWR_HOLDTIME : Nat := 0x14010C
/-- UPD_STAT (20_start_update_power.md, R488). -/
abbrev UPD_STAT : Nat := 0x140200
/-- UPD_FWVER (20_start_update_power.md, R488). -/
abbrev UPD_FWVER : Nat := 0x140204
/-- UPD_STAGEVER (20_start_update_power.md, R488). -/
abbrev UPD_STAGEVER : Nat := 0x140208
/-- UPD_BYTES (20_start_update_power.md, R488). -/
abbrev UPD_BYTES : Nat := 0x14020C
/-- DBG_STAT (21_debug_port.md, R502). -/
abbrev DBG_STAT : Nat := 0x150000
/-- DBG_CTRL (21_debug_port.md, R504). -/
abbrev DBG_CTRL : Nat := 0x150004

end R

namespace F

abbrev TOP_STRAPS_STRAP_ERR : Fld := ⟨0x10, 12, 12⟩
abbrev TOP_STRAPS_TIER_EFF : Fld := ⟨0x10, 11, 10⟩
abbrev TOP_STRAPS_ROLE_EFF : Fld := ⟨0x10, 9, 8⟩
abbrev TOP_STRAPS_BOOTSEL : Fld := ⟨0x10, 4, 4⟩
abbrev TOP_STRAPS_TIER : Fld := ⟨0x10, 3, 2⟩
abbrev TOP_STRAPS_ROLE : Fld := ⟨0x10, 1, 0⟩
abbrev TIM_CTRL_PPSIN_EDGE : Fld := ⟨0x10000, 4, 4⟩
abbrev TIM_CTRL_IRIG_EN : Fld := ⟨0x10000, 3, 3⟩
abbrev TIM_CTRL_PPSIN_EN : Fld := ⟨0x10000, 2, 2⟩
abbrev TIM_CTRL_HOLD : Fld := ⟨0x10000, 0, 0⟩
abbrev TIM_STAT_TSQ_OVF : Fld := ⟨0x10004, 7, 7⟩
abbrev TIM_STAT_IRIG_VALID : Fld := ⟨0x10004, 6, 6⟩
abbrev TIM_STAT_PPSIN_MISSING : Fld := ⟨0x10004, 5, 5⟩
abbrev TIM_STAT_REF_LOST : Fld := ⟨0x10004, 4, 4⟩
abbrev TIM_STAT_STEP_HELD : Fld := ⟨0x10004, 3, 3⟩
abbrev TIM_STAT_EXPIRED : Fld := ⟨0x10004, 2, 2⟩
abbrev TIM_STAT_HOLD_HW : Fld := ⟨0x10004, 1, 1⟩
abbrev TIM_STAT_LOCKED : Fld := ⟨0x10004, 0, 0⟩
abbrev TIM_SRC_ACT : Fld := ⟨0x10008, 10, 8⟩
abbrev TIM_SRC_BAK : Fld := ⟨0x10008, 6, 4⟩
abbrev TIM_SRC_PRI : Fld := ⟨0x10008, 2, 0⟩
abbrev TIM_NOW_LO_V : Fld := ⟨0x10010, 31, 0⟩
abbrev TIM_NOW_MID_V : Fld := ⟨0x10014, 31, 0⟩
abbrev TIM_NOW_HI_V : Fld := ⟨0x10018, 31, 0⟩
abbrev TIM_SHORT_SHORT : Fld := ⟨0x1001C, 31, 0⟩
abbrev TIM_CNT_LO_CNT : Fld := ⟨0x10020, 31, 0⟩
abbrev TIM_CNT_HI_CNT : Fld := ⟨0x10024, 31, 0⟩
abbrev TIM_INCR_LO_INCR : Fld := ⟨0x10030, 31, 0⟩
abbrev TIM_INCR_HI_INCR : Fld := ⟨0x10034, 11, 0⟩
abbrev TIM_STEP_LO_STEP_NS : Fld := ⟨0x10040, 31, 16⟩
abbrev TIM_STEP_LO_STEP_FRAC : Fld := ⟨0x10040, 15, 0⟩
abbrev TIM_STEP_HI_STEP_NS : Fld := ⟨0x10044, 31, 0⟩
abbrev TIM_STEPLIM_LIMIT : Fld := ⟨0x10050, 31, 0⟩
abbrev TIM_STEPREQ_LO_REQ : Fld := ⟨0x10054, 31, 0⟩
abbrev TIM_STEPREQ_HI_REQ : Fld := ⟨0x10058, 31, 0⟩
abbrev TIM_UTCOFF_LEAP_PEND : Fld := ⟨0x10060, 18, 18⟩
abbrev TIM_UTCOFF_LEAP_OCC : Fld := ⟨0x10060, 17, 17⟩
abbrev TIM_UTCOFF_LEAP_DIR : Fld := ⟨0x10060, 16, 16⟩
abbrev TIM_UTCOFF_OFFSET : Fld := ⟨0x10060, 15, 0⟩
abbrev TIM_SERVO_UNC : Fld := ⟨0x10064, 31, 8⟩
abbrev TIM_SERVO_LOCK : Fld := ⟨0x10064, 0, 0⟩
abbrev TIM_SERVO_TMO_TMO : Fld := ⟨0x10068, 15, 0⟩
abbrev TIM_HOLDRATE_RATE : Fld := ⟨0x1006C, 23, 0⟩
abbrev TIM_HOLDMAX_MAX : Fld := ⟨0x10070, 31, 0⟩
abbrev TIM_UNC_U : Fld := ⟨0x10074, 31, 0⟩
abbrev TIM_TQ_HOLD_S : Fld := ⟨0x10078, 31, 16⟩
abbrev TIM_TQ_TQ : Fld := ⟨0x10078, 7, 0⟩
abbrev TIM_PPSOUT_POL : Fld := ⟨0x10080, 17, 17⟩
abbrev TIM_PPSOUT_SQUELCH : Fld := ⟨0x10080, 16, 16⟩
abbrev TIM_PPSOUT_WIDTH : Fld := ⟨0x10080, 15, 0⟩
abbrev TIM_PPSOUT_OFS_OFS : Fld := ⟨0x10084, 31, 0⟩
abbrev TIM_PPSIN_TS_LO_V : Fld := ⟨0x10090, 31, 0⟩
abbrev TIM_PPSIN_TS_MID_V : Fld := ⟨0x10094, 31, 0⟩
abbrev TIM_PPSIN_TS_HI_V : Fld := ⟨0x10098, 31, 0⟩
abbrev TIM_PPSIN_CNT_EDGES : Fld := ⟨0x1009C, 31, 0⟩
abbrev TIM_IRIG_TS_LO_V : Fld := ⟨0x100A0, 31, 0⟩
abbrev TIM_IRIG_TS_MID_V : Fld := ⟨0x100A4, 31, 0⟩
abbrev TIM_IRIG_TS_HI_V : Fld := ⟨0x100A8, 31, 0⟩
abbrev TIM_IRIG_DATA_LO_POS : Fld := ⟨0x100B0, 31, 0⟩
abbrev TIM_IRIG_DATA_MID_POS : Fld := ⟨0x100B4, 31, 0⟩
abbrev TIM_IRIG_DATA_HI_POS : Fld := ⟨0x100B8, 24, 0⟩
abbrev TIM_IRIG_STAT_ERR : Fld := ⟨0x100BC, 31, 16⟩
abbrev TIM_IRIG_STAT_GOOD : Fld := ⟨0x100BC, 15, 0⟩
abbrev TIM_PLL_STAT_UNLOCK_CNT : Fld := ⟨0x100C0, 31, 16⟩
abbrev TIM_PLL_STAT_REF_BAD : Fld := ⟨0x100C0, 3, 3⟩
abbrev TIM_PLL_STAT_REF_LOST : Fld := ⟨0x100C0, 2, 2⟩
abbrev TIM_PLL_STAT_REF_25 : Fld := ⟨0x100C0, 1, 1⟩
abbrev TIM_PLL_STAT_LOCK : Fld := ⟨0x100C0, 0, 0⟩
abbrev TIM_TSQ_STAT_P_OVF_CNT : Fld := ⟨0x10100, 31, 16⟩
abbrev TIM_TSQ_STAT_P_COUNT : Fld := ⟨0x10100, 6, 0⟩
abbrev TIM_LATCOR_P_TX : Fld := ⟨0x10104, 31, 16⟩
abbrev TIM_LATCOR_P_RX : Fld := ⟨0x10104, 15, 0⟩
abbrev TIM_TSQ_E0_P_NS : Fld := ⟨0x10110, 31, 0⟩
abbrev TIM_TSQ_E1_P_SEC : Fld := ⟨0x10114, 31, 0⟩
abbrev TIM_TSQ_E2_P_FRAC : Fld := ⟨0x10118, 31, 16⟩
abbrev TIM_TSQ_E2_P_SEC : Fld := ⟨0x10118, 15, 0⟩
abbrev TIM_TSQ_E3_P_VALID : Fld := ⟨0x1011C, 31, 31⟩
abbrev TIM_TSQ_E3_P_DIR : Fld := ⟨0x1011C, 30, 30⟩
abbrev TIM_TSQ_E3_P_MSGTYPE : Fld := ⟨0x1011C, 27, 24⟩
abbrev TIM_TSQ_E3_P_DOMAIN : Fld := ⟨0x1011C, 23, 16⟩
abbrev TIM_TSQ_E3_P_SEQID : Fld := ⟨0x1011C, 15, 0⟩
abbrev MAC_CTRL_P_ACCEPT_UNTAGGED : Fld := ⟨0x20000, 7, 7⟩
abbrev MAC_CTRL_P_SPEED : Fld := ⟨0x20000, 5, 4⟩
abbrev MAC_CTRL_P_AN_EN : Fld := ⟨0x20000, 3, 3⟩
abbrev MAC_CTRL_P_MODE : Fld := ⟨0x20000, 2, 1⟩
abbrev MAC_CTRL_P_EN : Fld := ⟨0x20000, 0, 0⟩
abbrev MAC_CTRL_P4_ACCEPT_UNTAGGED : Fld := ⟨0x28000, 7, 7⟩
abbrev MAC_CTRL_P4_DUPLEX : Fld := ⟨0x28000, 6, 6⟩
abbrev MAC_CTRL_P4_SPEED : Fld := ⟨0x28000, 5, 4⟩
abbrev MAC_CTRL_P4_AN_EN : Fld := ⟨0x28000, 3, 3⟩
abbrev MAC_CTRL_P4_MODE : Fld := ⟨0x28000, 2, 1⟩
abbrev MAC_CTRL_P4_EN : Fld := ⟨0x28000, 0, 0⟩
abbrev MAC_STAT_P_PAUSE_DEFEAT : Fld := ⟨0x20004, 7, 7⟩
abbrev MAC_STAT_P_PAUSED : Fld := ⟨0x20004, 6, 6⟩
abbrev MAC_STAT_P_SPEED_ACT : Fld := ⟨0x20004, 5, 4⟩
abbrev MAC_STAT_P_DUPLEX_ACT : Fld := ⟨0x20004, 3, 3⟩
abbrev MAC_STAT_P_AN_DONE : Fld := ⟨0x20004, 2, 2⟩
abbrev MAC_STAT_P_LINK : Fld := ⟨0x20004, 0, 0⟩
abbrev MAC_MAXLEN_P_LEN : Fld := ⟨0x20008, 11, 0⟩
abbrev MAC_ADDR_LO_P_ADDR : Fld := ⟨0x20010, 31, 0⟩
abbrev MAC_ADDR_HI_P_ADDR : Fld := ⟨0x20014, 15, 0⟩
abbrev MAC_VLAN_P_TAG_EN : Fld := ⟨0x20018, 15, 15⟩
abbrev MAC_VLAN_P_VID : Fld := ⟨0x20018, 11, 0⟩
abbrev MAC_PCPMAP_P_PCP : Fld := ⟨0x2001C, 23, 0⟩
abbrev MAC_VIDF_P_V1 : Fld := ⟨0x20020, 31, 31⟩
abbrev MAC_VIDF_P_VID1 : Fld := ⟨0x20020, 27, 16⟩
abbrev MAC_VIDF_P_V0 : Fld := ⟨0x20020, 15, 15⟩
abbrev MAC_VIDF_P_VID0 : Fld := ⟨0x20020, 11, 0⟩
abbrev MAC_PAUSE_P_TX_EN : Fld := ⟨0x20040, 16, 16⟩
abbrev MAC_PAUSE_P_PTIME : Fld := ⟨0x20040, 15, 0⟩
abbrev MAC_PAUSE_WD_P_DEFEAT_S : Fld := ⟨0x20044, 31, 16⟩
abbrev MAC_PAUSE_WD_P_MS : Fld := ⟨0x20044, 15, 0⟩
abbrev MAC_PAUSE_THR_P_XOFF : Fld := ⟨0x20048, 31, 16⟩
abbrev MAC_PAUSE_THR_P_XON : Fld := ⟨0x20048, 15, 0⟩
abbrev MAC_PAUSE_THR_P4_XOFF : Fld := ⟨0x28048, 31, 16⟩
abbrev MAC_PAUSE_THR_P4_XON : Fld := ⟨0x28048, 15, 0⟩
abbrev MAC_TXLIM_P_KIB : Fld := ⟨0x20050, 7, 0⟩
abbrev MAC_TXLIM_P4_KIB : Fld := ⟨0x28050, 7, 0⟩
abbrev MAC_HDX_ATTEMPTS : Fld := ⟨0x28070, 4, 0⟩
abbrev MAC_GCL_CTRL_P_NENT1 : Fld := ⟨0x20080, 22, 16⟩
abbrev MAC_GCL_CTRL_P_NENT0 : Fld := ⟨0x20080, 14, 8⟩
abbrev MAC_GCL_CTRL_P_SWAP : Fld := ⟨0x20080, 3, 3⟩
abbrev MAC_GCL_CTRL_P_OPER : Fld := ⟨0x20080, 2, 2⟩
abbrev MAC_GCL_CTRL_P_LOCK : Fld := ⟨0x20080, 1, 1⟩
abbrev MAC_GCL_CTRL_P_GCL_EN : Fld := ⟨0x20080, 0, 0⟩
abbrev MAC_GCL_OFS_P_OFS : Fld := ⟨0x20084, 31, 0⟩
abbrev MAC_GCL_CYCLE_P_NS : Fld := ⟨0x20088, 31, 0⟩
abbrev MAC_GCL_BASE_LO_P_NS : Fld := ⟨0x2008C, 31, 0⟩
abbrev MAC_GCL_BASE_HI_P_SOC : Fld := ⟨0x20090, 31, 0⟩
abbrev MAC_GCL_LO_P_DURATION : Fld := ⟨0x21000, 31, 0⟩
abbrev MAC_GCL_HI_P_GATES : Fld := ⟨0x21004, 7, 0⟩
abbrev MAC_MCF_LO_P_ADDR : Fld := ⟨0x20800, 31, 0⟩
abbrev MAC_MCF_HI_P_VALID : Fld := ⟨0x20804, 31, 31⟩
abbrev MAC_MCF_HI_P_ADDR : Fld := ⟨0x20804, 15, 0⟩
abbrev MAC_RXBYTES_LO_P_COUNT : Fld := ⟨0x20100, 31, 0⟩
abbrev MAC_RXBYTES_HI_P_COUNT : Fld := ⟨0x20104, 31, 0⟩
abbrev MAC_CNT_P_COUNT : Fld := ⟨0x20108, 31, 0⟩
abbrev MAC_TXBYTES_LO_P_COUNT : Fld := ⟨0x20130, 31, 0⟩
abbrev MAC_TXBYTES_HI_P_COUNT : Fld := ⟨0x20134, 31, 0⟩
abbrev MAC_CNT2_P_COUNT : Fld := ⟨0x20138, 31, 0⟩
abbrev MAC_PRP_CTRL_EN : Fld := ⟨0x2A000, 0, 0⟩
abbrev MAC_PRP_FORGET_MS : Fld := ⟨0x2A004, 15, 0⟩
abbrev MAC_PRP_LIFECHECK_MS : Fld := ⟨0x2A008, 15, 0⟩
abbrev MAC_PRP_SEQ_SEQ : Fld := ⟨0x2A00C, 15, 0⟩
abbrev MAC_MDIO_CFG_DIV : Fld := ⟨0x2A010, 7, 0⟩
abbrev MAC_MDIO_CMD_BUSY : Fld := ⟨0x2A014, 31, 31⟩
abbrev MAC_MDIO_CMD_NOACK : Fld := ⟨0x2A014, 30, 30⟩
abbrev MAC_MDIO_CMD_START : Fld := ⟨0x2A014, 29, 29⟩
abbrev MAC_MDIO_CMD_C45 : Fld := ⟨0x2A014, 28, 28⟩
abbrev MAC_MDIO_CMD_OP : Fld := ⟨0x2A014, 27, 26⟩
abbrev MAC_MDIO_CMD_PHYAD : Fld := ⟨0x2A014, 25, 21⟩
abbrev MAC_MDIO_CMD_REGAD : Fld := ⟨0x2A014, 20, 16⟩
abbrev MAC_MDIO_CMD_WDATA : Fld := ⟨0x2A014, 15, 0⟩
abbrev MAC_MDIO_RDATA_DATA : Fld := ⟨0x2A018, 15, 0⟩
abbrev ING_CTRL_HORIZON : Fld := ⟨0x30000, 31, 16⟩
abbrev ING_CTRL_UNK_CAP : Fld := ⟨0x30000, 2, 2⟩
abbrev ING_CTRL_INJ_EN : Fld := ⟨0x30000, 1, 1⟩
abbrev ING_CTRL_EN : Fld := ⟨0x30000, 0, 0⟩
abbrev ING_STAT_FUT_SUSP : Fld := ⟨0x30004, 2, 2⟩
abbrev ING_STAT_INJ_RUN : Fld := ⟨0x30004, 1, 1⟩
abbrev ING_STAT_RUN : Fld := ⟨0x30004, 0, 0⟩
abbrev ING_HIST_WINDOW : Fld := ⟨0x30008, 31, 16⟩
abbrev ING_HIST_UNIT : Fld := ⟨0x30008, 15, 0⟩
abbrev ING_UDPPORT_0_SESSION : Fld := ⟨0x30010, 16, 16⟩
abbrev ING_UDPPORT_0_PORT : Fld := ⟨0x30010, 15, 0⟩
abbrev ING_UDPPORT_SESSION : Fld := ⟨0x30014, 16, 16⟩
abbrev ING_UDPPORT_PORT : Fld := ⟨0x30014, 15, 0⟩
abbrev ING_CNT_ACCEPT_LO_COUNT : Fld := ⟨0x30040, 31, 0⟩
abbrev ING_CNT_ACCEPT_HI_COUNT : Fld := ⟨0x30044, 31, 0⟩
abbrev ING_CNT_LATE_COUNT : Fld := ⟨0x30048, 31, 0⟩
abbrev ING_CNT_IPHDR_COUNT : Fld := ⟨0x3004C, 31, 0⟩
abbrev ING_CNT_SESSION_COUNT : Fld := ⟨0x30050, 31, 0⟩
abbrev ING_CNT_MALFORMED_COUNT : Fld := ⟨0x30054, 31, 0⟩
abbrev ING_CNT_CRC_COUNT : Fld := ⟨0x30058, 31, 0⟩
abbrev ING_CNT_UNKNOWN_COUNT : Fld := ⟨0x3005C, 31, 0⟩
abbrev ING_CNT_DISABLED_COUNT : Fld := ⟨0x30060, 31, 0⟩
abbrev ING_CNT_AUTH_COUNT : Fld := ⟨0x30064, 31, 0⟩
abbrev ING_CNT_REPLAY_COUNT : Fld := ⟨0x30068, 31, 0⟩
abbrev ING_CNT_FORMAT_COUNT : Fld := ⟨0x3006C, 31, 0⟩
abbrev ING_CNT_FUTURE_COUNT : Fld := ⟨0x30070, 31, 0⟩
abbrev ING_CNT_STALE_COUNT : Fld := ⟨0x30074, 31, 0⟩
abbrev ING_CNT_DUP_COUNT : Fld := ⟨0x30078, 31, 0⟩
abbrev ING_CNT_NOSPACE_COUNT : Fld := ⟨0x3007C, 31, 0⟩
abbrev ING_CNT_INJBAD_COUNT : Fld := ⟨0x30080, 31, 0⟩
abbrev ING_CNT_POISON_COUNT : Fld := ⟨0x30084, 31, 0⟩
abbrev ING_CNT_TOFW_COUNT : Fld := ⟨0x30088, 31, 0⟩
abbrev ING_UNK_A0_ADDR : Fld := ⟨0x300A0, 31, 0⟩
abbrev ING_UNK_A1_ADDR : Fld := ⟨0x300A4, 31, 0⟩
abbrev ING_UNK_A2_ADDR : Fld := ⟨0x300A8, 31, 0⟩
abbrev ING_UNK_A3_ADDR : Fld := ⟨0x300AC, 31, 0⟩
abbrev ING_UNK_KEY_IDCODE : Fld := ⟨0x300B0, 31, 16⟩
abbrev ING_UNK_KEY_PORT : Fld := ⟨0x300B0, 15, 0⟩
abbrev ING_INJ_BASE_LO_BASE : Fld := ⟨0x300C0, 31, 0⟩
abbrev ING_INJ_BASE_HI_BASE : Fld := ⟨0x300C4, 31, 0⟩
abbrev ING_INJ_SIZE_SIZE : Fld := ⟨0x300C8, 12, 0⟩
abbrev ING_INJ_PROD_PROD : Fld := ⟨0x300CC, 15, 0⟩
abbrev ING_INJ_CONS_CONS : Fld := ⟨0x300D0, 15, 0⟩
abbrev ING_INJ_IRQIDX_IDX : Fld := ⟨0x300D4, 15, 0⟩
abbrev SET_CTRL_PEAK_CLR : Fld := ⟨0x40000, 2, 2⟩
abbrev SET_CTRL_SCHED_EN : Fld := ⟨0x40000, 1, 1⟩
abbrev SET_CTRL_EN : Fld := ⟨0x40000, 0, 0⟩
abbrev SET_STAT_NO_BORROW : Fld := ⟨0x40004, 31, 31⟩
abbrev SET_STAT_RETIRED : Fld := ⟨0x40004, 29, 16⟩
abbrev SET_STAT_FREE : Fld := ⟨0x40004, 13, 0⟩
abbrev SET_WINSEL_WIN : Fld := ⟨0x40008, 5, 0⟩
abbrev SET_QUOTA_ALIGN_BORROW : Fld := ⟨0x40040, 16, 16⟩
abbrev SET_QUOTA_ALIGN_QUOTA : Fld := ⟨0x40040, 13, 0⟩
abbrev SET_QUOTA_LATE_BORROW : Fld := ⟨0x40044, 16, 16⟩
abbrev SET_QUOTA_LATE_QUOTA : Fld := ⟨0x40044, 13, 0⟩
abbrev SET_QUOTA_HOSTQ_BORROW : Fld := ⟨0x40048, 16, 16⟩
abbrev SET_QUOTA_HOSTQ_QUOTA : Fld := ⟨0x40048, 13, 0⟩
abbrev SET_QUOTA_CAPT_BORROW : Fld := ⟨0x4004C, 16, 16⟩
abbrev SET_QUOTA_CAPT_QUOTA : Fld := ⟨0x4004C, 13, 0⟩
abbrev SET_QUOTA_EVREC_BORROW : Fld := ⟨0x40050, 16, 16⟩
abbrev SET_QUOTA_EVREC_QUOTA : Fld := ⟨0x40050, 13, 0⟩
abbrev SET_QUOTA_CASC_BORROW : Fld := ⟨0x40054, 16, 16⟩
abbrev SET_QUOTA_CASC_QUOTA : Fld := ⟨0x40054, 13, 0⟩
abbrev SET_QUOTA_HANDOVER_BORROW : Fld := ⟨0x40058, 16, 16⟩
abbrev SET_QUOTA_HANDOVER_QUOTA : Fld := ⟨0x40058, 13, 0⟩
abbrev SET_QUOTA_SPARE_QUOTA : Fld := ⟨0x4005C, 13, 0⟩
abbrev SET_USE_PEAK : Fld := ⟨0x40060, 29, 16⟩
abbrev SET_USE_USED : Fld := ⟨0x40060, 13, 0⟩
abbrev SET_FAIL_COUNT : Fld := ⟨0x40080, 31, 0⟩
abbrev SET_LEASE_CAPT_MS : Fld := ⟨0x400A0, 15, 0⟩
abbrev SET_LEASE_CASC_MS : Fld := ⟨0x400A4, 15, 0⟩
abbrev SET_LEASE_HANDOVER_MS : Fld := ⟨0x400A8, 15, 0⟩
abbrev SET_SCHED_CTRL_POL_OSC : Fld := ⟨0x400C0, 2, 2⟩
abbrev SET_SCHED_CTRL_POL_ISL : Fld := ⟨0x400C0, 1, 1⟩
abbrev SET_SCHED_CTRL_POL_ANG : Fld := ⟨0x400C0, 0, 0⟩
abbrev SET_SCHED_AGE_AGE : Fld := ⟨0x400C4, 19, 0⟩
abbrev SET_SCHED_STAT_BUSY : Fld := ⟨0x400D0, 18, 16⟩
abbrev SET_SCHED_STAT_PEND_OSC : Fld := ⟨0x400D0, 10, 8⟩
abbrev SET_SCHED_STAT_PEND_ISL : Fld := ⟨0x400D0, 6, 4⟩
abbrev SET_SCHED_STAT_PEND_ANG : Fld := ⟨0x400D0, 2, 0⟩
abbrev SET_SKIP_COUNT : Fld := ⟨0x400D4, 31, 0⟩
abbrev SET_HQ_PEND_PEND : Fld := ⟨0x400E0, 15, 0⟩
abbrev SET_HQ_CFG_MAXPG : Fld := ⟨0x41000, 29, 16⟩
abbrev SET_HQ_CFG_DECIM : Fld := ⟨0x41000, 15, 8⟩
abbrev SET_HQ_CFG_OWNER : Fld := ⟨0x41000, 2, 2⟩
abbrev SET_HQ_CFG_MODE : Fld := ⟨0x41000, 1, 1⟩
abbrev SET_HQ_CFG_EN : Fld := ⟨0x41000, 0, 0⟩
abbrev SET_HQ_SRC_SRC : Fld := ⟨0x41004, 9, 0⟩
abbrev SET_HQ_LEASE_MS : Fld := ⟨0x41008, 15, 0⟩
abbrev SET_HQ_STAT_PAGES : Fld := ⟨0x4100C, 29, 16⟩
abbrev SET_HQ_STAT_RUN : Fld := ⟨0x4100C, 4, 4⟩
abbrev SET_HQ_STAT_EXPIRED : Fld := ⟨0x4100C, 3, 3⟩
abbrev SET_HQ_STAT_OVERRUN : Fld := ⟨0x4100C, 2, 2⟩
abbrev SET_HQ_STAT_UNDERRUN : Fld := ⟨0x4100C, 1, 1⟩
abbrev SET_HQ_STAT_EMPTY : Fld := ⟨0x4100C, 0, 0⟩
abbrev SET_HQ_BASE_LO_BASE : Fld := ⟨0x41010, 31, 0⟩
abbrev SET_HQ_BASE_HI_BASE : Fld := ⟨0x41014, 31, 0⟩
abbrev SET_HQ_SIZE_SIZE : Fld := ⟨0x41018, 16, 0⟩
abbrev SET_HQ_PROD_PROD : Fld := ⟨0x4101C, 31, 0⟩
abbrev SET_HQ_CONS_CONS : Fld := ⟨0x41020, 31, 0⟩
abbrev SET_HQ_PKTIN_PKTIN : Fld := ⟨0x41024, 31, 0⟩
abbrev SET_HQ_PKTOUT_PKTOUT : Fld := ⟨0x41028, 31, 0⟩
abbrev SET_HQ_DROP_FLUSHED : Fld := ⟨0x4102C, 31, 16⟩
abbrev SET_HQ_DROP_OVERRUN : Fld := ⟨0x4102C, 15, 0⟩
abbrev SET_HQ_UNDER_UNDER_CNT : Fld := ⟨0x41030, 31, 0⟩
abbrev SET_HQ_DATA_V : Fld := ⟨0x41040, 31, 0⟩
abbrev SET_HQ_LAST_V : Fld := ⟨0x41050, 31, 0⟩
abbrev ALN_CTRL_BETWEEN_SUPP : Fld := ⟨0x50000, 3, 3⟩
abbrev ALN_CTRL_DEMOTE_EN : Fld := ⟨0x50000, 2, 2⟩
abbrev ALN_CTRL_LEARN_EN : Fld := ⟨0x50000, 1, 1⟩
abbrev ALN_CTRL_EN : Fld := ⟨0x50000, 0, 0⟩
abbrev ALN_STAT_BOUND_PEND : Fld := ⟨0x50004, 31, 31⟩
abbrev ALN_STAT_RATE : Fld := ⟨0x50004, 27, 24⟩
abbrev ALN_STAT_INFLIGHT : Fld := ⟨0x50004, 8, 0⟩
abbrev ALN_WAITMIN_US : Fld := ⟨0x50010, 23, 0⟩
abbrev ALN_WAITMAX_US : Fld := ⟨0x50014, 23, 0⟩
abbrev ALN_WAITINIT_US : Fld := ⟨0x50018, 23, 0⟩
abbrev ALN_WAIT_EFF_US : Fld := ⟨0x5001C, 23, 0⟩
abbrev ALN_LEARN_Q : Fld := ⟨0x50020, 31, 24⟩
abbrev ALN_LEARN_MINSAMP : Fld := ⟨0x50020, 23, 16⟩
abbrev ALN_LEARN_PERIOD : Fld := ⟨0x50020, 15, 0⟩
abbrev ALN_MARGIN_DECAY : Fld := ⟨0x50024, 31, 16⟩
abbrev ALN_MARGIN_MARGIN : Fld := ⟨0x50024, 15, 0⟩
abbrev ALN_DEMOTE_PROMOTE_N : Fld := ⟨0x50028, 15, 8⟩
abbrev ALN_DEMOTE_DEMOTE_N : Fld := ⟨0x50028, 6, 0⟩
abbrev ALN_TOL_US : Fld := ⟨0x5002C, 15, 0⟩
abbrev ALN_EPOCH_LEAD_US : Fld := ⟨0x50030, 19, 0⟩
abbrev ALN_HORIZ_LO_NS : Fld := ⟨0x50040, 31, 0⟩
abbrev ALN_HORIZ_HI_SOC : Fld := ⟨0x50044, 31, 0⟩
abbrev ALN_SETS_LO_SETS : Fld := ⟨0x50048, 31, 0⟩
abbrev ALN_SETS_HI_SETS : Fld := ⟨0x5004C, 31, 0⟩
abbrev ALN_CNT_DL_COUNT : Fld := ⟨0x50050, 31, 0⟩
abbrev ALN_CNT_FORCED_COUNT : Fld := ⟨0x50054, 31, 0⟩
abbrev ALN_CNT_GAP_COUNT : Fld := ⟨0x50058, 31, 0⟩
abbrev ALN_NDEMOTED_COUNT : Fld := ⟨0x5005C, 13, 0⟩
abbrev ALN_RELMAX_CLK : Fld := ⟨0x50060, 15, 0⟩
abbrev ALN_BOUND_LO_NS : Fld := ⟨0x50068, 31, 0⟩
abbrev ALN_BOUND_HI_SOC : Fld := ⟨0x5006C, 31, 0⟩
abbrev ANG_CTRL_PAIR_EN : Fld := ⟨0x60000, 2, 2⟩
abbrev ANG_CTRL_LIM_EN : Fld := ⟨0x60000, 1, 1⟩
abbrev ANG_CTRL_EN : Fld := ⟨0x60000, 0, 0⟩
abbrev ANG_STAT_NET_RES : Fld := ⟨0x60004, 8, 4⟩
abbrev ANG_STAT_SHADOW_DIRTY : Fld := ⟨0x60004, 3, 3⟩
abbrev ANG_STAT_INHIBIT : Fld := ⟨0x60004, 2, 2⟩
abbrev ANG_STAT_STALE : Fld := ⟨0x60004, 1, 1⟩
abbrev ANG_STAT_RUN : Fld := ⟨0x60004, 0, 0⟩
abbrev ANG_ACTIVE_PAIRS : Fld := ⟨0x60008, 31, 16⟩
abbrev ANG_ACTIVE_LIMITS : Fld := ⟨0x60008, 15, 0⟩
abbrev ANG_NRULES_PAIRS : Fld := ⟨0x6000C, 31, 16⟩
abbrev ANG_NRULES_LIMITS : Fld := ⟨0x6000C, 15, 0⟩
abbrev ANG_CNT_RAISE_COUNT : Fld := ⟨0x60010, 31, 0⟩
abbrev ANG_CNT_CLEAR_COUNT : Fld := ⟨0x60014, 31, 0⟩
abbrev ANG_CNT_MISS_COUNT : Fld := ⟨0x60018, 31, 0⟩
abbrev ANG_CNT_TRUNC_COUNT : Fld := ⟨0x6001C, 31, 0⟩
abbrev ANG_RUNMAX_CLK : Fld := ⟨0x60020, 23, 0⟩
abbrev ANG_STALE_MS : Fld := ⟨0x60024, 15, 0⟩
abbrev ANG_RECMAX_MAX : Fld := ⟨0x60028, 10, 0⟩
abbrev ANG_ALMCFG_PULSE : Fld := ⟨0x60040, 31, 25⟩
abbrev ANG_ALMCFG_FSAFE : Fld := ⟨0x60040, 24, 24⟩
abbrev ANG_ALMCFG_POL : Fld := ⟨0x60040, 23, 23⟩
abbrev ANG_ALMCFG_MODE : Fld := ⟨0x60040, 22, 20⟩
abbrev ANG_ALMCFG_GCNT : Fld := ⟨0x60040, 19, 10⟩
abbrev ANG_ALMCFG_GBASE : Fld := ⟨0x60040, 9, 0⟩
abbrev ANG_ALMCLR_CLR : Fld := ⟨0x60060, 7, 0⟩
abbrev ANG_ALMSTAT_INHIBIT : Fld := ⟨0x60064, 16, 16⟩
abbrev ANG_ALMSTAT_LATCHED : Fld := ⟨0x60064, 15, 8⟩
abbrev ANG_ALMSTAT_OUT : Fld := ⟨0x60064, 7, 0⟩
abbrev ANG_ASPCNT_WORD : Fld := ⟨0x60068, 15, 0⟩
abbrev ANG_ASPSUM_WORD : Fld := ⟨0x6006C, 15, 0⟩
abbrev ANG_NET_CFG_UDP_PORT : Fld := ⟨0x60080, 31, 16⟩
abbrev ANG_NET_CFG_REPEAT : Fld := ⟨0x60080, 9, 8⟩
abbrev ANG_NET_CFG_FIXED_MAC : Fld := ⟨0x60080, 6, 6⟩
abbrev ANG_NET_CFG_PORTS : Fld := ⟨0x60080, 5, 1⟩
abbrev ANG_NET_CFG_EN : Fld := ⟨0x60080, 0, 0⟩
abbrev ANG_NET_DST_ADDR : Fld := ⟨0x60084, 31, 0⟩
abbrev ANG_NET_UNIT_UNIT : Fld := ⟨0x60094, 31, 0⟩
abbrev ANG_NET_SEQ_SEQ : Fld := ⟨0x60098, 31, 0⟩
abbrev ANG_NET_MAC_LO_MAC : Fld := ⟨0x6009C, 31, 0⟩
abbrev ANG_NET_MAC_HI_MAC : Fld := ⟨0x600A0, 15, 0⟩
abbrev ANG_NET_NORES_COUNT : Fld := ⟨0x600A4, 31, 0⟩
abbrev ANG_GRP_ACTIVE : Fld := ⟨0x60100, 31, 0⟩
abbrev ISL_CTRL_MEMB : Fld := ⟨0x70000, 2, 1⟩
abbrev ISL_CTRL_EN : Fld := ⟨0x70000, 0, 0⟩
abbrev ISL_STAT_NISL : Fld := ⟨0x70004, 29, 16⟩
abbrev ISL_STAT_SHADOW_DIRTY : Fld := ⟨0x70004, 3, 3⟩
abbrev ISL_STAT_PENDING : Fld := ⟨0x70004, 2, 2⟩
abbrev ISL_STAT_DIFFERS : Fld := ⟨0x70004, 1, 1⟩
abbrev ISL_STAT_RUN : Fld := ⟨0x70004, 0, 0⟩
abbrev ISL_PERSIST_MAXWAIT : Fld := ⟨0x70008, 15, 8⟩
abbrev ISL_PERSIST_PERSIST : Fld := ⟨0x70008, 7, 0⟩
abbrev ISL_DRIFT_D : Fld := ⟨0x7000C, 5, 0⟩
abbrev ISL_LOST_N : Fld := ⟨0x70010, 15, 0⟩
abbrev ISL_RECMAX_MEMBERS : Fld := ⟨0x70014, 29, 16⟩
abbrev ISL_RECMAX_ISLANDS : Fld := ⟨0x70014, 10, 0⟩
abbrev ISL_ALMGRP_MERGE_GRP : Fld := ⟨0x70018, 9, 0⟩
abbrev ISL_SIZE_EDGES : Fld := ⟨0x7001C, 31, 16⟩
abbrev ISL_SIZE_NODES : Fld := ⟨0x7001C, 13, 0⟩
abbrev ISL_EVNO_COUNT : Fld := ⟨0x70020, 31, 0⟩
abbrev ISL_CNT_UNSETTLED_COUNT : Fld := ⟨0x70024, 31, 0⟩
abbrev ISL_CNT_UNKNOWN_COUNT : Fld := ⟨0x70028, 31, 0⟩
abbrev ISL_RUNS_COUNT : Fld := ⟨0x7002C, 31, 0⟩
abbrev ISL_RUNMAX_CLK : Fld := ⟨0x70030, 23, 0⟩
abbrev ISL_ROUNDMAX_ROUNDS : Fld := ⟨0x70034, 4, 0⟩
abbrev ISL_LABEL_SEL_NODE : Fld := ⟨0x70040, 12, 0⟩
abbrev ISL_LABEL_LOST : Fld := ⟨0x70044, 26, 26⟩
abbrev ISL_LABEL_PRESENT : Fld := ⟨0x70044, 25, 25⟩
abbrev ISL_LABEL_USED : Fld := ⟨0x70044, 24, 24⟩
abbrev ISL_LABEL_EXP : Fld := ⟨0x70044, 22, 16⟩
abbrev ISL_LABEL_ID : Fld := ⟨0x70044, 12, 0⟩
abbrev ISL_EDGE_SEL_EDGE : Fld := ⟨0x70048, 14, 0⟩
abbrev ISL_EDGE_STAT_ADR : Fld := ⟨0x7004C, 31, 16⟩
abbrev ISL_EDGE_STAT_BRK_KNOWN : Fld := ⟨0x7004C, 3, 3⟩
abbrev ISL_EDGE_STAT_BRK_OPEN : Fld := ⟨0x7004C, 2, 2⟩
abbrev ISL_EDGE_STAT_UNKNOWN : Fld := ⟨0x7004C, 1, 1⟩
abbrev ISL_EDGE_STAT_HELD : Fld := ⟨0x7004C, 0, 0⟩
abbrev ISL_EDGE_DF_DF : Fld := ⟨0x70050, 31, 0⟩
abbrev OSC_CTRL_SHAPE : Fld := ⟨0x80000, 4, 3⟩
abbrev OSC_CTRL_TRACK_EN : Fld := ⟨0x80000, 2, 2⟩
abbrev OSC_CTRL_RECENTRE_EN : Fld := ⟨0x80000, 1, 1⟩
abbrev OSC_CTRL_EN : Fld := ⟨0x80000, 0, 0⟩
abbrev OSC_STAT_NACT : Fld := ⟨0x80004, 31, 24⟩
abbrev OSC_STAT_NMODE : Fld := ⟨0x80004, 20, 16⟩
abbrev OSC_STAT_SHADOW_DIRTY : Fld := ⟨0x80004, 3, 3⟩
abbrev OSC_STAT_WARM : Fld := ⟨0x80004, 1, 1⟩
abbrev OSC_STAT_RUN : Fld := ⟨0x80004, 0, 0⟩
abbrev OSC_BANDCFG_FHI_CHZ : Fld := ⟨0x80008, 31, 16⟩
abbrev OSC_BANDCFG_FLO_CHZ : Fld := ⟨0x80008, 15, 4⟩
abbrev OSC_BANDCFG_MODE : Fld := ⟨0x80008, 1, 0⟩
abbrev OSC_BW_BW : Fld := ⟨0x8000C, 9, 0⟩
abbrev OSC_RECENTRE_LIMIT : Fld := ⟨0x80010, 31, 24⟩
abbrev OSC_RECENTRE_STEP : Fld := ⟨0x80010, 23, 16⟩
abbrev OSC_RECENTRE_PEAKR : Fld := ⟨0x80010, 15, 8⟩
abbrev OSC_RECENTRE_PERIOD : Fld := ⟨0x80010, 7, 0⟩
abbrev OSC_TRACK_DROP : Fld := ⟨0x80014, 31, 24⟩
abbrev OSC_TRACK_MINPER : Fld := ⟨0x80014, 23, 16⟩
abbrev OSC_TRACK_NPER : Fld := ⟨0x80014, 15, 8⟩
abbrev OSC_TRACK_MODEMAX : Fld := ⟨0x80014, 4, 0⟩
abbrev OSC_TRKRANGE_FHI_CHZ : Fld := ⟨0x80018, 31, 16⟩
abbrev OSC_TRKRANGE_FLO_CHZ : Fld := ⟨0x80018, 15, 0⟩
abbrev OSC_CLASS_CLS_PER : Fld := ⟨0x8001C, 31, 24⟩
abbrev OSC_CLASS_CV_F : Fld := ⟨0x8001C, 23, 16⟩
abbrev OSC_CLASS_ZETA_F : Fld := ⟨0x8001C, 15, 0⟩
abbrev OSC_CLASSHYST_CVHYST : Fld := ⟨0x80020, 23, 16⟩
abbrev OSC_CLASSHYST_ZHYST : Fld := ⟨0x80020, 15, 0⟩
abbrev OSC_GAP_FILLMAX : Fld := ⟨0x80024, 23, 8⟩
abbrev OSC_GAP_SIGGAP : Fld := ⟨0x80024, 7, 0⟩
abbrev OSC_RECMAX_ALMW : Fld := ⟨0x80028, 26, 16⟩
abbrev OSC_RECMAX_SHAPEW : Fld := ⟨0x80028, 10, 0⟩
abbrev OSC_RUNS_COUNT : Fld := ⟨0x80030, 31, 0⟩
abbrev OSC_CNT_RAISE_COUNT : Fld := ⟨0x80034, 31, 0⟩
abbrev OSC_CNT_CLEAR_COUNT : Fld := ⟨0x80038, 31, 0⟩
abbrev OSC_CNT_FILL_COUNT : Fld := ⟨0x8003C, 31, 0⟩
abbrev OSC_CNT_RESTART_COUNT : Fld := ⟨0x80040, 31, 0⟩
abbrev OSC_CNT_TRUNC_COUNT : Fld := ⟨0x80044, 31, 0⟩
abbrev OSC_RUNMAX_CLK : Fld := ⟨0x80048, 23, 0⟩
abbrev OSC_MODE_SEL_SLOT : Fld := ⟨0x80050, 3, 0⟩
abbrev OSC_MODE_INFO_MODE_ID : Fld := ⟨0x80054, 31, 16⟩
abbrev OSC_MODE_INFO_OCC : Fld := ⟨0x80054, 15, 15⟩
abbrev OSC_MODE_INFO_FVALID : Fld := ⟨0x80054, 14, 14⟩
abbrev OSC_MODE_INFO_ZVALID : Fld := ⟨0x80054, 13, 13⟩
abbrev OSC_MODE_INFO_CLASS : Fld := ⟨0x80054, 11, 10⟩
abbrev OSC_MODE_INFO_SOURCE : Fld := ⟨0x80054, 9, 0⟩
abbrev OSC_MODE_FREQ_V : Fld := ⟨0x80058, 31, 0⟩
abbrev OSC_MODE_ZETA_V : Fld := ⟨0x8005C, 31, 0⟩
abbrev OSC_MODE_AMP_V : Fld := ⟨0x80060, 31, 0⟩
abbrev OSC_BAND_SEL_SIG : Fld := ⟨0x80070, 25, 16⟩
abbrev OSC_BAND_SEL_BAND : Fld := ⟨0x80070, 5, 0⟩
abbrev OSC_BAND_CTR_CENTRE : Fld := ⟨0x80074, 31, 0⟩
abbrev OSC_BAND_AMP_AMP : Fld := ⟨0x80078, 31, 0⟩
abbrev OSC_BAND_NOM_NOMINAL : Fld := ⟨0x8007C, 31, 0⟩
abbrev OUT_CTRL_EN : Fld := ⟨0x90000, 0, 0⟩
abbrev OUT_STAT_DST_ON : Fld := ⟨0x90004, 31, 16⟩
abbrev OUT_STAT_GRP_ON : Fld := ⟨0x90004, 15, 0⟩
abbrev OUT_CFGCHG_S : Fld := ⟨0x90008, 15, 0⟩
abbrev OUT_GINFO_BYTES : Fld := ⟨0x90100, 31, 16⟩
abbrev OUT_GINFO_NBLK : Fld := ⟨0x90100, 10, 0⟩
abbrev OUT_CFGCNT_CFGCNT : Fld := ⟨0x90104, 15, 0⟩
abbrev OUT_SETS_COUNT : Fld := ⟨0x90108, 31, 0⟩
abbrev OUT_DSTAT_RESOLVED : Fld := ⟨0x90200, 3, 3⟩
abbrev OUT_DSTAT_TX_ON : Fld := ⟨0x90200, 2, 2⟩
abbrev OUT_DSTAT_SIZE_ERR : Fld := ⟨0x90200, 1, 1⟩
abbrev OUT_DSTAT_EN : Fld := ⟨0x90200, 0, 0⟩
abbrev OUT_SENT_COUNT : Fld := ⟨0x90204, 31, 0⟩
abbrev OUT_DROP_COUNT : Fld := ⟨0x90208, 31, 0⟩
abbrev OUT_NORES_COUNT : Fld := ⟨0x9020C, 31, 0⟩
abbrev CAS_CTRL_ISLMAX : Fld := ⟨0x90800, 21, 11⟩
abbrev CAS_CTRL_TC : Fld := ⟨0x90800, 10, 8⟩
abbrev CAS_CTRL_PORT : Fld := ⟨0x90800, 6, 4⟩
abbrev CAS_CTRL_FEED : Fld := ⟨0x90800, 3, 1⟩
abbrev CAS_CTRL_EN : Fld := ⟨0x90800, 0, 0⟩
abbrev CAS_STAT_REASON : Fld := ⟨0x90804, 15, 12⟩
abbrev CAS_STAT_DEPTH : Fld := ⟨0x90804, 11, 8⟩
abbrev CAS_STAT_MEMBER : Fld := ⟨0x90804, 7, 4⟩
abbrev CAS_STAT_JOIN_PEND : Fld := ⟨0x90804, 1, 1⟩
abbrev CAS_STAT_JOINED : Fld := ⟨0x90804, 0, 0⟩
abbrev CAS_GROUPID_ID : Fld := ⟨0x90808, 31, 0⟩
abbrev CAS_LOSS_REASM : Fld := ⟨0x9080C, 23, 16⟩
abbrev CAS_LOSS_MS : Fld := ⟨0x9080C, 15, 0⟩
abbrev CAS_UP_MAC_LO_MAC : Fld := ⟨0x90810, 31, 0⟩
abbrev CAS_UP_MAC_HI_MAC : Fld := ⟨0x90814, 15, 0⟩
abbrev CAS_MEMBERS_LOST : Fld := ⟨0x90818, 31, 17⟩
abbrev CAS_MEMBERS_UP : Fld := ⟨0x90818, 15, 1⟩
abbrev CAS_CNT_SENT_COUNT : Fld := ⟨0x90820, 31, 0⟩
abbrev CAS_CNT_RECV_COUNT : Fld := ⟨0x90824, 31, 0⟩
abbrev CAS_CNT_DISC_FMT_COUNT : Fld := ⟨0x90828, 31, 0⟩
abbrev CAS_CNT_DISC_AUTH_COUNT : Fld := ⟨0x9082C, 31, 0⟩
abbrev CAS_CNT_DISC_DEPTH_COUNT : Fld := ⟨0x90830, 31, 0⟩
abbrev CAS_CNT_INCOMPLETE_COUNT : Fld := ⟨0x90834, 31, 0⟩
abbrev CAS_CNT_UNMAPPED_COUNT : Fld := ⟨0x90838, 31, 0⟩
abbrev CAS_CNT_TIER0_COUNT : Fld := ⟨0x9083C, 31, 0⟩
abbrev CAS_MCFG_EN : Fld := ⟨0x90920, 31, 31⟩
abbrev CAS_MCFG_AUTH_REQ : Fld := ⟨0x90920, 30, 30⟩
abbrev CAS_MCFG_ANY_GRP : Fld := ⟨0x90920, 29, 20⟩
abbrev CAS_MCFG_LOST_GRP : Fld := ⟨0x90920, 19, 10⟩
abbrev CAS_MCFG_NITEMS : Fld := ⟨0x90920, 8, 0⟩
abbrev CAS_MBASE_SIDX_BASE : Fld := ⟨0x90924, 12, 0⟩
abbrev CAS_MMACA_LO_MAC : Fld := ⟨0x90928, 31, 0⟩
abbrev CAS_MMACA_HI_MAC : Fld := ⟨0x9092C, 15, 0⟩
abbrev CAS_MMACB_LO_MAC : Fld := ⟨0x90930, 31, 0⟩
abbrev CAS_MMACB_HI_MAC : Fld := ⟨0x90934, 15, 0⟩
abbrev CAS_MSTAT_DEPTH : Fld := ⟨0x90938, 31, 28⟩
abbrev CAS_MSTAT_UP : Fld := ⟨0x90938, 27, 27⟩
abbrev CAS_MSTAT_LOST : Fld := ⟨0x90938, 26, 26⟩
abbrev CAS_MSTAT_ANY : Fld := ⟨0x90938, 25, 25⟩
abbrev CAS_MSTAT_JOINED : Fld := ⟨0x90938, 24, 24⟩
abbrev CAS_MDSEQ_DSEQ : Fld := ⟨0x9093C, 31, 0⟩
abbrev CAS_XTRIG_XFIRE : Fld := ⟨0x890A00, 17, 17⟩
abbrev CAS_XTRIG_XARM : Fld := ⟨0x890A00, 16, 16⟩
abbrev CAS_XTRIG_WIDTH : Fld := ⟨0x890A00, 15, 8⟩
abbrev CAS_XTRIG_FIRE_IN : Fld := ⟨0x890A00, 3, 3⟩
abbrev CAS_XTRIG_FIRE_OUT : Fld := ⟨0x890A00, 2, 2⟩
abbrev CAS_XTRIG_ARM_PART : Fld := ⟨0x890A00, 1, 1⟩
abbrev CAS_XTRIG_EN : Fld := ⟨0x890A00, 0, 0⟩
abbrev CAS_XFIRE_TS_LO_V : Fld := ⟨0x890A04, 31, 0⟩
abbrev CAS_XFIRE_TS_MID_V : Fld := ⟨0x890A08, 31, 0⟩
abbrev CAS_XFIRE_TS_HI_V : Fld := ⟨0x890A0C, 31, 0⟩
abbrev CAS_XFIRE_CNT_BLOCKED : Fld := ⟨0x890A10, 31, 16⟩
abbrev CAS_XFIRE_CNT_FIRES : Fld := ⟨0x890A10, 15, 0⟩
abbrev FLT_CTRL_ARNG_EN : Fld := ⟨0xA0000, 2, 2⟩
abbrev FLT_CTRL_MOD_DIV : Fld := ⟨0xA0000, 1, 1⟩
abbrev FLT_CTRL_EN : Fld := ⟨0xA0000, 0, 0⟩
abbrev FLT_STAT_FAULT : Fld := ⟨0xA0004, 23, 16⟩
abbrev FLT_STAT_HIGH : Fld := ⟨0xA0004, 15, 8⟩
abbrev FLT_STAT_SETTLED : Fld := ⟨0xA0004, 1, 1⟩
abbrev FLT_STAT_RUN : Fld := ⟨0xA0004, 0, 0⟩
abbrev FLT_T0_LO_T0 : Fld := ⟨0xA0008, 31, 0⟩
abbrev FLT_T0_HI_T0 : Fld := ⟨0xA000C, 31, 0⟩
abbrev FLT_BAYCFG_IRNG_POL : Fld := ⟨0xA0040, 24, 24⟩
abbrev FLT_BAYCFG_RNGMODE : Fld := ⟨0xA0040, 23, 22⟩
abbrev FLT_BAYCFG_CP_FAST : Fld := ⟨0xA0040, 21, 21⟩
abbrev FLT_BAYCFG_CP_K : Fld := ⟨0xA0040, 20, 16⟩
abbrev FLT_BAYCFG_CH_EN : Fld := ⟨0xA0040, 13, 8⟩
abbrev FLT_BAYCFG_MCLK_EN : Fld := ⟨0xA0040, 7, 7⟩
abbrev FLT_BAYCFG_TRIM : Fld := ⟨0xA0040, 6, 0⟩
abbrev FLT_BAYSTAT_OVL : Fld := ⟨0xA0060, 21, 16⟩
abbrev FLT_BAYSTAT_FAULT : Fld := ⟨0xA0060, 13, 8⟩
abbrev FLT_BAYSTAT_BLANK : Fld := ⟨0xA0060, 1, 1⟩
abbrev FLT_BAYSTAT_HIGH : Fld := ⟨0xA0060, 0, 0⟩
abbrev FLT_RNG_DOWN : Fld := ⟨0xA0080, 23, 16⟩
abbrev FLT_RNG_UP : Fld := ⟨0xA0080, 7, 0⟩
abbrev FLT_RNGTIME_DWELL : Fld := ⟨0xA0084, 31, 16⟩
abbrev FLT_RNGTIME_SETTLE : Fld := ⟨0xA0084, 4, 0⟩
abbrev FLT_RNGRATIO_RATIO : Fld := ⟨0xA00A0, 31, 0⟩
abbrev FLT_RNGCNT_COUNT : Fld := ⟨0xA00C0, 31, 0⟩
abbrev FLT_OVLCNT_COUNT : Fld := ⟨0xA00C4, 31, 0⟩
abbrev FLT_BANK_LEFT : Fld := ⟨0xA00D0, 31, 16⟩
abbrev FLT_BANK_PEND_FADE : Fld := ⟨0xA00D0, 15, 8⟩
abbrev FLT_BANK_PEND : Fld := ⟨0xA00D0, 2, 2⟩
abbrev FLT_BANK_BUSY : Fld := ⟨0xA00D0, 1, 1⟩
abbrev FLT_BANK_ACTIVE : Fld := ⟨0xA00D0, 0, 0⟩
abbrev FLT_COEFLEN_L_CP : Fld := ⟨0xA00D4, 22, 16⟩
abbrev FLT_COEFLEN_L_EN : Fld := ⟨0xA00D4, 14, 8⟩
abbrev FLT_COEFLEN_L_PH : Fld := ⟨0xA00D4, 6, 0⟩
abbrev FLT_GD_PH_TICKS : Fld := ⟨0xA00E0, 31, 0⟩
abbrev FLT_GD_EN_TICKS : Fld := ⟨0xA00E4, 31, 0⟩
abbrev FLT_GD_CP_TICKS : Fld := ⟨0xA00E8, 31, 0⟩
abbrev PMU_CTRL_AUTO_EN : Fld := ⟨0xB0000, 1, 1⟩
abbrev PMU_CTRL_EN : Fld := ⟨0xB0000, 0, 0⟩
abbrev PMU_STAT_CLASS_M : Fld := ⟨0xB0004, 15, 8⟩
abbrev PMU_STAT_ON : Fld := ⟨0xB0004, 7, 0⟩
abbrev PMU_DET_RESTH : Fld := ⟨0xB0008, 31, 24⟩
abbrev PMU_DET_RFTH : Fld := ⟨0xB0008, 23, 8⟩
abbrev PMU_HOLD_MS : Fld := ⟨0xB000C, 15, 0⟩
abbrev PMU_FMIN_PERMIL : Fld := ⟨0xB0010, 15, 0⟩
abbrev PMU_BAYCFG_PHSEL : Fld := ⟨0xB0020, 31, 24⟩
abbrev PMU_BAYCFG_ANSEL : Fld := ⟨0xB0020, 23, 21⟩
abbrev PMU_BAYCFG_DIGEN : Fld := ⟨0xB0020, 20, 20⟩
abbrev PMU_BAYCFG_CMODE : Fld := ⟨0xB0020, 19, 18⟩
abbrev PMU_BAYCFG_FNOM : Fld := ⟨0xB0020, 17, 17⟩
abbrev PMU_BAYCFG_TEST : Fld := ⟨0xB0020, 16, 16⟩
abbrev PMU_BAYCFG_RATE : Fld := ⟨0xB0020, 15, 12⟩
abbrev PMU_BAYCFG_EN : Fld := ⟨0xB0020, 0, 0⟩
abbrev PMU_BAYSTAT_FSRC : Fld := ⟨0xB0040, 7, 4⟩
abbrev PMU_BAYSTAT_TRIG : Fld := ⟨0xB0040, 3, 3⟩
abbrev PMU_BAYSTAT_HELD : Fld := ⟨0xB0040, 2, 2⟩
abbrev PMU_BAYSTAT_CLASS : Fld := ⟨0xB0040, 1, 1⟩
abbrev PMU_BAYSTAT_ON : Fld := ⟨0xB0040, 0, 0⟩
abbrev PMU_LAG_S_M : Fld := ⟨0xB0060, 31, 16⟩
abbrev PMU_LAG_S_P : Fld := ⟨0xB0060, 15, 0⟩
abbrev PMU_CNT_TRIG_COUNT : Fld := ⟨0xB0080, 31, 0⟩
abbrev PMU_CNT_CLASS_COUNT : Fld := ⟨0xB0084, 31, 0⟩
abbrev PMU_CNT_REC_COUNT : Fld := ⟨0xB0088, 31, 0⟩
abbrev PMU_CNT_SKIP_COUNT : Fld := ⟨0xB008C, 31, 0⟩
abbrev NRG_CTRL_PRESET_LOCK : Fld := ⟨0xC0000, 3, 3⟩
abbrev NRG_CTRL_PF_EN : Fld := ⟨0xC0000, 2, 2⟩
abbrev NRG_CTRL_SAVE_EN : Fld := ⟨0xC0000, 1, 1⟩
abbrev NRG_CTRL_EN : Fld := ⟨0xC0000, 0, 0⟩
abbrev NRG_STAT_SRC : Fld := ⟨0xC0004, 4, 3⟩
abbrev NRG_STAT_SNAP_PEND : Fld := ⟨0xC0004, 2, 2⟩
abbrev NRG_STAT_PFHOLD : Fld := ⟨0xC0004, 1, 1⟩
abbrev NRG_STAT_RUN : Fld := ⟨0xC0004, 0, 0⟩
abbrev NRG_SAVE_FLASH_MIN : Fld := ⟨0xC0008, 31, 16⟩
abbrev NRG_SAVE_MS : Fld := ⟨0xC0008, 15, 0⟩
abbrev NRG_SAVESEQ_SEQ : Fld := ⟨0xC000C, 31, 0⟩
abbrev NRG_TICK_LO_TICK : Fld := ⟨0xC0010, 31, 0⟩
abbrev NRG_TICK_HI_TICK : Fld := ⟨0xC0014, 31, 0⟩
abbrev NRG_CNT_SAVE_COUNT : Fld := ⟨0xC0018, 31, 0⟩
abbrev NRG_CNT_FAULTTICK_COUNT : Fld := ⟨0xC001C, 31, 0⟩
abbrev NRG_CNT_PFTICK_COUNT : Fld := ⟨0xC0020, 31, 0⟩
abbrev NRG_CNT_PRESET_COUNT : Fld := ⟨0xC0024, 31, 0⟩
abbrev NRG_CFG_FREF_SRC : Fld := ⟨0xC0040, 2, 2⟩
abbrev NRG_CFG_FNOM : Fld := ⟨0xC0040, 1, 1⟩
abbrev NRG_CFG_EN : Fld := ⟨0xC0040, 0, 0⟩
abbrev NRG_SCALE_LO_SCALE : Fld := ⟨0xC0060, 31, 0⟩
abbrev NRG_SCALE_HI_SCALE : Fld := ⟨0xC0064, 15, 0⟩
abbrev NRG_VAL_V : Fld := ⟨0xC1000, 31, 0⟩
abbrev TRG_CTRL_RRED_EN : Fld := ⟨0xD0000, 1, 1⟩
abbrev TRG_CTRL_EN : Fld := ⟨0xD0000, 0, 0⟩
abbrev TRG_STAT_XVALID : Fld := ⟨0xD0004, 27, 27⟩
abbrev TRG_STAT_XBAY : Fld := ⟨0xD0004, 26, 24⟩
abbrev TRG_STAT_STATE : Fld := ⟨0xD0004, 23, 0⟩
abbrev TRG_RRED_DRAIN : Fld := ⟨0xD0008, 31, 16⟩
abbrev TRG_RRED_LO : Fld := ⟨0xD0008, 15, 8⟩
abbrev TRG_RRED_HI : Fld := ⟨0xD0008, 7, 0⟩
abbrev TRG_TRIGIO_TRIGO_POL : Fld := ⟨0xD000C, 24, 24⟩
abbrev TRG_TRIGIO_TRIGO_WIDTH : Fld := ⟨0xD000C, 23, 16⟩
abbrev TRG_TRIGIO_TRIGO_MASK : Fld := ⟨0xD000C, 15, 8⟩
abbrev TRG_TRIGIO_TRIGI_EDGE : Fld := ⟨0xD000C, 2, 2⟩
abbrev TRG_TRIGIO_TRIGI_POL : Fld := ⟨0xD000C, 1, 1⟩
abbrev TRG_TRIGIO_TRIGI_EN : Fld := ⟨0xD000C, 0, 0⟩
abbrev TRG_CNT_TRIG_COUNT : Fld := ⟨0xD0010, 31, 0⟩
abbrev TRG_CNT_CAPT_COUNT : Fld := ⟨0xD0014, 31, 0⟩
abbrev TRG_CNT_TRUNC_COUNT : Fld := ⟨0xD0018, 31, 0⟩
abbrev TRG_CNT_INPOST_COUNT : Fld := ⟨0xD001C, 31, 0⟩
abbrev TRG_CNT_MISS_COUNT : Fld := ⟨0xD0020, 31, 0⟩
abbrev TRG_CNT_RATE_COUNT : Fld := ⟨0xD0024, 31, 0⟩
abbrev TRG_UARM_ARMNO : Fld := ⟨0xD0100, 31, 16⟩
abbrev TRG_UARM_CAPNO : Fld := ⟨0xD0100, 15, 0⟩
abbrev TRG_URATE_RLOG : Fld := ⟨0xD0104, 10, 8⟩
abbrev TRG_UHELD_SEGS : Fld := ⟨0xD0108, 13, 0⟩
abbrev TRG_ULEFT_CAPTURES : Fld := ⟨0xD010C, 15, 0⟩
abbrev TWN_CTRL_SELF_FAULT : Fld := ⟨0xE0000, 3, 3⟩
abbrev TWN_CTRL_SEQ_TT : Fld := ⟨0xE0000, 2, 2⟩
abbrev TWN_CTRL_REVERT_EN : Fld := ⟨0xE0000, 1, 1⟩
abbrev TWN_CTRL_EN : Fld := ⟨0xE0000, 0, 0⟩
abbrev TWN_STAT_PFAULT : Fld := ⟨0xE0004, 31, 24⟩
abbrev TWN_STAT_PROLE : Fld := ⟨0xE0004, 23, 22⟩
abbrev TWN_STAT_PAL : Fld := ⟨0xE0004, 21, 21⟩
abbrev TWN_STAT_PHEALTHY : Fld := ⟨0xE0004, 20, 20⟩
abbrev TWN_STAT_PFORCED : Fld := ⟨0xE0004, 19, 19⟩
abbrev TWN_STAT_CFG_MISMATCH : Fld := ⟨0xE0004, 15, 15⟩
abbrev TWN_STAT_SYNC_FALLBACK : Fld := ⟨0xE0004, 14, 14⟩
abbrev TWN_STAT_STRAP_CONFLICT : Fld := ⟨0xE0004, 13, 13⟩
abbrev TWN_STAT_SPLIT : Fld := ⟨0xE0004, 12, 12⟩
abbrev TWN_STAT_WIT1 : Fld := ⟨0xE0004, 11, 11⟩
abbrev TWN_STAT_WIT0 : Fld := ⟨0xE0004, 10, 10⟩
abbrev TWN_STAT_PATH_L : Fld := ⟨0xE0004, 9, 9⟩
abbrev TWN_STAT_PATH_H : Fld := ⟨0xE0004, 8, 8⟩
abbrev TWN_STAT_FORCE : Fld := ⟨0xE0004, 7, 6⟩
abbrev TWN_STAT_PREF : Fld := ⟨0xE0004, 5, 5⟩
abbrev TWN_STAT_HEALTHY : Fld := ⟨0xE0004, 4, 4⟩
abbrev TWN_STAT_AL : Fld := ⟨0xE0004, 3, 3⟩
abbrev TWN_STAT_RELINQ : Fld := ⟨0xE0004, 2, 2⟩
abbrev TWN_STAT_ROLE : Fld := ⟨0xE0004, 1, 0⟩
abbrev TWN_HB_TOL_US : Fld := ⟨0xE0008, 31, 20⟩
abbrev TWN_HB_DOWN_N : Fld := ⟨0xE0008, 19, 16⟩
abbrev TWN_HB_PERIOD_US : Fld := ⟨0xE0008, 15, 0⟩
abbrev TWN_WIT_AL_MS : Fld := ⟨0xE000C, 31, 16⟩
abbrev TWN_WIT_MS : Fld := ⟨0xE000C, 15, 8⟩
abbrev TWN_WIT_PERIOD_MS : Fld := ⟨0xE000C, 7, 0⟩
abbrev TWN_REVERT_S : Fld := ⟨0xE0010, 15, 0⟩
abbrev TWN_FAULTMASK_MASK : Fld := ⟨0xE0014, 7, 0⟩
abbrev TWN_FAULT_FAULT : Fld := ⟨0xE0018, 7, 0⟩
abbrev TWN_SEQ_SHIFT : Fld := ⟨0xE001C, 3, 0⟩
abbrev TWN_SYNC_FALLBACK_MS : Fld := ⟨0xE0020, 15, 8⟩
abbrev TWN_SYNC_LINK_MS : Fld := ⟨0xE0020, 7, 0⟩
abbrev TWN_PAIRID_ID : Fld := ⟨0xE0024, 31, 0⟩
abbrev TWN_PEER_MAC_LO_MAC : Fld := ⟨0xE0028, 31, 0⟩
abbrev TWN_PEER_MAC_HI_MAC : Fld := ⟨0xE002C, 15, 0⟩
abbrev TWN_SHARED_MAC_LO_MAC : Fld := ⟨0xE0030, 31, 0⟩
abbrev TWN_SHARED_MAC_HI_MAC : Fld := ⟨0xE0034, 15, 0⟩
abbrev TWN_PHB_WORD : Fld := ⟨0xE0038, 31, 0⟩
abbrev TWN_PHB_AGE_US : Fld := ⟨0xE003C, 31, 0⟩
abbrev TWN_SHARED_IP_0_ADDR : Fld := ⟨0xE0040, 31, 0⟩
abbrev TWN_SHARED_IP_ADDR : Fld := ⟨0xE0044, 31, 0⟩
abbrev TWN_CFGSUM_LO_SUM : Fld := ⟨0xE0050, 31, 0⟩
abbrev TWN_CFGSUM_HI_SUM : Fld := ⟨0xE0054, 31, 0⟩
abbrev TWN_PCFGSUM_LO_SUM : Fld := ⟨0xE0058, 31, 0⟩
abbrev TWN_PCFGSUM_HI_SUM : Fld := ⟨0xE005C, 31, 0⟩
abbrev TWN_CNT_HB_RX_H_COUNT : Fld := ⟨0xE0060, 31, 0⟩
abbrev TWN_CNT_HB_RX_L_COUNT : Fld := ⟨0xE0064, 31, 0⟩
abbrev TWN_CNT_HB_BAD_COUNT : Fld := ⟨0xE0068, 31, 0⟩
abbrev TWN_CNT_WIT_RX_P0_COUNT : Fld := ⟨0xE006C, 31, 0⟩
abbrev TWN_CNT_WIT_RX_P1_COUNT : Fld := ⟨0xE0070, 31, 0⟩
abbrev TWN_CNT_SWITCH_COUNT : Fld := ⟨0xE0074, 31, 0⟩
abbrev TWN_CNT_SEQOVF_COUNT : Fld := ⟨0xE0078, 31, 0⟩
abbrev TWN_CNT_FOREIGN_COUNT : Fld := ⟨0xE007C, 31, 0⟩
abbrev CMD_CTRL_RESET : Fld := ⟨0xF0000, 1, 1⟩
abbrev CMD_CTRL_EN : Fld := ⟨0xF0000, 0, 0⟩
abbrev CMD_STAT_ERR : Fld := ⟨0xF0004, 15, 8⟩
abbrev CMD_STAT_PAUSED : Fld := ⟨0xF0004, 3, 3⟩
abbrev CMD_STAT_HALTED : Fld := ⟨0xF0004, 2, 2⟩
abbrev CMD_STAT_BUSY : Fld := ⟨0xF0004, 1, 1⟩
abbrev CMD_STAT_RUN : Fld := ⟨0xF0004, 0, 0⟩
abbrev CMD_BASE_LO_BASE : Fld := ⟨0xF0008, 31, 0⟩
abbrev CMD_BASE_HI_BASE : Fld := ⟨0xF000C, 31, 0⟩
abbrev CMD_SIZE_SIZE : Fld := ⟨0xF0010, 12, 0⟩
abbrev CMD_DB_PROD : Fld := ⟨0xF0014, 31, 0⟩
abbrev CMD_CONS_CONS : Fld := ⟨0xF0018, 31, 0⟩
abbrev CMD_SEQEXP_SEQ : Fld := ⟨0xF001C, 31, 0⟩
abbrev RPL_BASE_LO_BASE : Fld := ⟨0xF0020, 31, 0⟩
abbrev RPL_BASE_HI_BASE : Fld := ⟨0xF0024, 31, 0⟩
abbrev RPL_SIZE_SIZE : Fld := ⟨0xF0028, 12, 0⟩
abbrev RPL_PROD_PROD : Fld := ⟨0xF002C, 31, 0⟩
abbrev RPL_CONS_CONS : Fld := ⟨0xF0030, 31, 0⟩
abbrev RPL_PRODADDR_LO_ADDR : Fld := ⟨0xF0034, 31, 0⟩
abbrev RPL_PRODADDR_HI_ADDR : Fld := ⟨0xF0038, 31, 0⟩
abbrev CMD_INFLIGHT_N : Fld := ⟨0xF003C, 2, 0⟩
abbrev CMD_EPOCH_EPOCH : Fld := ⟨0xF0100, 31, 0⟩
abbrev CMD_EPOCH_PEND_EPOCH : Fld := ⟨0xF0104, 31, 0⟩
abbrev CMD_EPSTAT_DIRTYN : Fld := ⟨0xF0108, 31, 16⟩
abbrev CMD_EPSTAT_PREP : Fld := ⟨0xF0108, 2, 2⟩
abbrev CMD_EPSTAT_PEND : Fld := ⟨0xF0108, 1, 1⟩
abbrev CMD_EPSTAT_DIRTY : Fld := ⟨0xF0108, 0, 0⟩
abbrev CMD_PRIVDROP_COUNT : Fld := ⟨0xF010C, 31, 0⟩
abbrev CMD_PAIRTMO_COUNT : Fld := ⟨0xF0110, 31, 0⟩
abbrev CMD_PF1_STAT_STAT : Fld := ⟨0xF0120, 15, 0⟩
abbrev CMD_PF1_CONS_CONS : Fld := ⟨0xF0124, 31, 0⟩
abbrev CMD_PF1_RPROD_PROD : Fld := ⟨0xF0128, 31, 0⟩
abbrev IRQ_STAT_RETAIN_BAD : Fld := ⟨0x100004, 1, 1⟩
abbrev IRQ_STAT_RESTORED : Fld := ⟨0x100004, 0, 0⟩
abbrev IRQ_CORESTAT_PARK_C1 : Fld := ⟨0x100008, 1, 1⟩
abbrev IRQ_CORESTAT_PARK_C0 : Fld := ⟨0x100008, 0, 0⟩
abbrev IRQ_PEND_PEND : Fld := ⟨0x100010, 31, 0⟩
abbrev IRQ_MASK_MASK : Fld := ⟨0x100020, 31, 0⟩
abbrev IRQ_DUE_DUE : Fld := ⟨0x100030, 31, 0⟩
abbrev IRQ_ROUTE_FALLBACK : Fld := ⟨0x100100, 28, 26⟩
abbrev IRQ_ROUTE_PRIO : Fld := ⟨0x100100, 25, 24⟩
abbrev IRQ_ROUTE_VECTOR : Fld := ⟨0x100100, 20, 16⟩
abbrev IRQ_ROUTE_PF1_EN : Fld := ⟨0x100100, 15, 15⟩
abbrev IRQ_ROUTE_PF1_VEC : Fld := ⟨0x100100, 10, 8⟩
abbrev IRQ_ROUTE_TARGET : Fld := ⟨0x100100, 2, 0⟩
abbrev IRQ_COAL_TIME_US : Fld := ⟨0x100300, 31, 16⟩
abbrev IRQ_COAL_COUNT : Fld := ⟨0x100300, 7, 0⟩
abbrev IRQ_OCC_OCC_HI : Fld := ⟨0x100500, 31, 16⟩
abbrev IRQ_OCC_OCC_LO : Fld := ⟨0x100500, 15, 0⟩
abbrev EVR_CTRL_EN : Fld := ⟨0x110000, 0, 0⟩
abbrev EVR_STAT_RINGPG : Fld := ⟨0x110004, 26, 16⟩
abbrev EVR_STAT_FROZEN : Fld := ⟨0x110004, 1, 1⟩
abbrev EVR_STAT_RUN : Fld := ⟨0x110004, 0, 0⟩
abbrev EVR_SEQ_SEQ : Fld := ⟨0x110008, 31, 0⟩
abbrev EVR_OLDEST_SEQ : Fld := ⟨0x11000C, 31, 0⟩
abbrev EVR_RATE_BURST : Fld := ⟨0x110010, 31, 16⟩
abbrev EVR_RATE_PER_S : Fld := ⟨0x110010, 15, 0⟩
abbrev EVR_FREEZE_MS_MS : Fld := ⟨0x110014, 15, 0⟩
abbrev EVR_CNT_SUPP_COUNT : Fld := ⟨0x110018, 31, 0⟩
abbrev EVR_CNT_FROZENDROP_COUNT : Fld := ⟨0x11001C, 31, 0⟩
abbrev EVR_CNT_OVERWRITE_COUNT : Fld := ⟨0x110020, 31, 0⟩
abbrev EVR_CNT_CRIT_COUNT : Fld := ⟨0x110024, 31, 0⟩
abbrev EVR_MIRROR_NEXT : Fld := ⟨0x110028, 13, 8⟩
abbrev EVR_MIRROR_VALID : Fld := ⟨0x110028, 6, 0⟩
abbrev ECC_CTRL_EN : Fld := ⟨0x120000, 0, 0⟩
abbrev ECC_STAT_HARDN : Fld := ⟨0x120004, 31, 24⟩
abbrev ECC_STAT_SPARES : Fld := ⟨0x120004, 23, 16⟩
abbrev ECC_STAT_TAGOVF : Fld := ⟨0x120004, 4, 4⟩
abbrev ECC_STAT_FULL : Fld := ⟨0x120004, 3, 3⟩
abbrev ECC_STAT_MODE : Fld := ⟨0x120004, 2, 2⟩
abbrev ECC_STAT_LATE : Fld := ⟨0x120004, 1, 1⟩
abbrev ECC_STAT_RUN : Fld := ⟨0x120004, 0, 0⟩
abbrev ECC_SCRUB_IDLE_MAX : Fld := ⟨0x120008, 31, 24⟩
abbrev ECC_SCRUB_INTERVAL : Fld := ⟨0x120008, 15, 0⟩
abbrev ECC_LAP_MS : Fld := ⟨0x12000C, 31, 0⟩
abbrev ECC_LAPMAX_MS : Fld := ⟨0x120010, 31, 0⟩
abbrev ECC_CNT_CORR_COUNT : Fld := ⟨0x120020, 31, 0⟩
abbrev ECC_CNT_UNCORR_COUNT : Fld := ⟨0x120024, 31, 0⟩
abbrev ECC_CNT_HARD_COUNT : Fld := ⟨0x120028, 31, 0⟩
abbrev ECC_CNT_WB_COUNT : Fld := ⟨0x12002C, 31, 0⟩
abbrev ECC_CNT_TAGOVF_COUNT : Fld := ⟨0x120030, 31, 0⟩
abbrev ECC_LAST_LO_ADDR : Fld := ⟨0x120040, 31, 0⟩
abbrev ECC_LAST_HI_KIND : Fld := ⟨0x120044, 31, 30⟩
abbrev ECC_LAST_HI_CRAM : Fld := ⟨0x120044, 29, 29⟩
abbrev ECC_LAST_HI_BIT : Fld := ⟨0x120044, 6, 0⟩
abbrev ECC_HARD_SEL_IDX : Fld := ⟨0x120050, 3, 0⟩
abbrev ECC_HARD_VALID : Fld := ⟨0x120054, 31, 31⟩
abbrev ECC_HARD_PAGE : Fld := ⟨0x120054, 12, 0⟩
abbrev ECC_RETMAP_SEL_WORD : Fld := ⟨0x120060, 7, 0⟩
abbrev ECC_RETMAP_BITS : Fld := ⟨0x120064, 31, 0⟩
abbrev ECC_PERSIST_N : Fld := ⟨0x120068, 13, 0⟩
abbrev KEY_CTRL_IMPORT_LOCK : Fld := ⟨0x130000, 1, 1⟩
abbrev KEY_CTRL_EN : Fld := ⟨0x130000, 0, 0⟩
abbrev KEY_STAT_USED : Fld := ⟨0x130004, 25, 16⟩
abbrev KEY_STAT_UPD_GROUP : Fld := ⟨0x130004, 15, 8⟩
abbrev KEY_STAT_UPD_TARGET : Fld := ⟨0x130004, 6, 6⟩
abbrev KEY_STAT_UPD_PEND : Fld := ⟨0x130004, 5, 5⟩
abbrev KEY_STAT_ROOT_SLOT : Fld := ⟨0x130004, 4, 4⟩
abbrev KEY_STAT_ZEROED : Fld := ⟨0x130004, 3, 3⟩
abbrev KEY_STAT_PUF_VALID : Fld := ⟨0x130004, 2, 2⟩
abbrev KEY_STAT_ROOT_VALID : Fld := ⟨0x130004, 1, 1⟩
abbrev KEY_STAT_RUN : Fld := ⟨0x130004, 0, 0⟩
abbrev KEY_BRGEN_BRGEN : Fld := ⟨0x130008, 31, 0⟩
abbrev KEY_LEASE_S : Fld := ⟨0x13000C, 15, 0⟩
abbrev KEY_CNT_LOAD_COUNT : Fld := ⟨0x130010, 31, 0⟩
abbrev KEY_CNT_VFAIL_COUNT : Fld := ⟨0x130014, 31, 0⟩
abbrev KEY_CNT_MISS_COUNT : Fld := ⟨0x130018, 31, 0⟩
abbrev KEY_CNT_ORPHUSE_COUNT : Fld := ⟨0x13001C, 31, 0⟩
abbrev KEY_GEN_SEL_GROUP : Fld := ⟨0x130020, 7, 0⟩
abbrev KEY_GEN_PEND : Fld := ⟨0x130024, 16, 16⟩
abbrev KEY_GEN_GEN : Fld := ⟨0x130024, 15, 0⟩
abbrev KEY_SLOT_SEL_SLOT : Fld := ⟨0x130030, 8, 0⟩
abbrev KEY_SLOT_INFO_STATE : Fld := ⟨0x130034, 31, 30⟩
abbrev KEY_SLOT_INFO_TYPE : Fld := ⟨0x130034, 29, 28⟩
abbrev KEY_SLOT_INFO_USE : Fld := ⟨0x130034, 27, 26⟩
abbrev KEY_SLOT_INFO_GROUP : Fld := ⟨0x130034, 23, 16⟩
abbrev KEY_SLOT_INFO_GEN : Fld := ⟨0x130034, 15, 0⟩
abbrev KEY_SLOT_ID_KEY_ID : Fld := ⟨0x130038, 31, 0⟩
abbrev KEY_TAMP_CFG_LOCK : Fld := ⟨0x130100, 31, 31⟩
abbrev KEY_TAMP_CFG_LEVEL : Fld := ⟨0x130100, 19, 0⟩
abbrev KEY_TAMP_PIN_FILT : Fld := ⟨0x130104, 19, 4⟩
abbrev KEY_TAMP_PIN_TAMP_POL : Fld := ⟨0x130104, 3, 0⟩
abbrev KEY_MESH_MISS : Fld := ⟨0x130108, 7, 4⟩
abbrev KEY_MESH_EN : Fld := ⟨0x130108, 1, 0⟩
abbrev KEY_TAMP_LATCH_SRC : Fld := ⟨0x13010C, 9, 0⟩
abbrev KEY_TAMP_NOW_SRC : Fld := ⟨0x130110, 9, 0⟩
abbrev KEY_TAMP_RTC_SEC : Fld := ⟨0x130114, 31, 0⟩
abbrev BOOT_STAT_ERR : Fld := ⟨0x140000, 15, 8⟩
abbrev BOOT_STAT_CFG_ERR : Fld := ⟨0x140000, 7, 7⟩
abbrev BOOT_STAT_FALLBACK : Fld := ⟨0x140000, 6, 6⟩
abbrev BOOT_STAT_SLOT : Fld := ⟨0x140000, 5, 5⟩
abbrev BOOT_STAT_RECOVERY : Fld := ⟨0x140000, 4, 4⟩
abbrev BOOT_STAT_STEP : Fld := ⟨0x140000, 3, 1⟩
abbrev BOOT_STAT_READY : Fld := ⟨0x140000, 0, 0⟩
abbrev BOOT_RSTCAUSE_CAUSE : Fld := ⟨0x140004, 6, 0⟩
abbrev BOOT_CNT_STARTS : Fld := ⟨0x140008, 31, 0⟩
abbrev BOOT_FAILS_LIMIT : Fld := ⟨0x14000C, 11, 8⟩
abbrev BOOT_FAILS_FAILS : Fld := ⟨0x14000C, 3, 0⟩
abbrev BOOT_WDOG_TMO_MS : Fld := ⟨0x140010, 15, 0⟩
abbrev BOOT_SVN_SVN_MIN : Fld := ⟨0x140014, 6, 0⟩
abbrev BOOT_RECOV_ADDR_LO_ADDR : Fld := ⟨0x140020, 31, 0⟩
abbrev BOOT_RECOV_ADDR_HI_ADDR : Fld := ⟨0x140024, 31, 0⟩
abbrev BOOT_RECOV_LEN_LEN : Fld := ⟨0x140028, 18, 0⟩
abbrev BOOT_RECOV_CTRL_GO : Fld := ⟨0x14002C, 0, 0⟩
abbrev PWR_STAT_HOLD_EXIT : Fld := ⟨0x140100, 3, 3⟩
abbrev PWR_STAT_QUIESCE : Fld := ⟨0x140100, 2, 2⟩
abbrev PWR_STAT_PFW : Fld := ⟨0x140100, 1, 1⟩
abbrev PWR_STAT_PFWN_LVL : Fld := ⟨0x140100, 0, 0⟩
abbrev PWR_CTRL_QTMO_S : Fld := ⟨0x140104, 15, 0⟩
abbrev PWR_CNT_PFW_COUNT : Fld := ⟨0x140108, 31, 0⟩
abbrev PWR_HOLDTIME_S : Fld := ⟨0x14010C, 31, 0⟩
abbrev UPD_STAT_LAST : Fld := ⟨0x140200, 15, 8⟩
abbrev UPD_STAT_KIND : Fld := ⟨0x140200, 5, 4⟩
abbrev UPD_STAT_STATE : Fld := ⟨0x140200, 3, 0⟩
abbrev UPD_FWVER_VER : Fld := ⟨0x140204, 31, 0⟩
abbrev UPD_STAGEVER_VER : Fld := ⟨0x140208, 31, 0⟩
abbrev UPD_BYTES_N : Fld := ⟨0x14020C, 31, 0⟩
abbrev DBG_STAT_STAT : Fld := ⟨0x150000, 9, 0⟩
abbrev DBG_CTRL_LOCK : Fld := ⟨0x150004, 0, 0⟩

end F

/-- Registers of block 0x00 (R20). -/
def regRows00 : List RegRow := [
  ⟨0x10, [], .both, .sys, [⟨12, 12, .ro, 0⟩, ⟨11, 10, .ro, 0⟩, ⟨9, 8, .ro, 0⟩, ⟨4, 4, .ro, 0⟩, ⟨3, 2, .ro, 0⟩, ⟨1, 0, .ro, 0⟩]⟩]

/-- Registers of block 0x01 (R20). -/
def regRows01 : List RegRow := [
  ⟨0x10000, [], .pf0, .sys, [⟨4, 4, .rw, 0⟩, ⟨3, 3, .rw, 0⟩, ⟨2, 2, .rw, 0⟩, ⟨0, 0, .hws, 0⟩]⟩,
  ⟨0x10004, [], .both, .sys, [⟨7, 7, .w1c, 0⟩, ⟨6, 6, .ro, 0⟩, ⟨5, 5, .ro, 0⟩, ⟨4, 4, .ro, 0⟩, ⟨3, 3, .ro, 0⟩, ⟨2, 2, .ro, 0⟩, ⟨1, 1, .ro, 0⟩, ⟨0, 0, .ro, 0⟩]⟩,
  ⟨0x10008, [], .pf0, .sys, [⟨10, 8, .ro, 0⟩, ⟨6, 4, .rw, 0⟩, ⟨2, 0, .rw, 0⟩]⟩,
  ⟨0x10010, [], .both, .sys, [⟨31, 0, .ro, 0⟩]⟩,
  ⟨0x10014, [], .both, .sys, [⟨31, 0, .snap, 0⟩]⟩,
  ⟨0x10018, [], .both, .sys, [⟨31, 0, .snap, 0⟩]⟩,
  ⟨0x1001C, [], .both, .sys, [⟨31, 0, .ro, 0⟩]⟩,
  ⟨0x10020, [], .pf0, .sys, [⟨31, 0, .ro, 0⟩]⟩,
  ⟨0x10024, [], .pf0, .sys, [⟨31, 0, .snap, 0⟩]⟩,
  ⟨0x10030, [], .pf0, .sys, [⟨31, 0, .rw, 0xd5555555⟩]⟩,
  ⟨0x10034, [], .pf0, .sys, [⟨11, 0, .rw, 520⟩]⟩,
  ⟨0x10040, [], .pf0, .sys, [⟨31, 16, .wo, 0⟩, ⟨15, 0, .wo, 0⟩]⟩,
  ⟨0x10044, [], .pf0, .sys, [⟨31, 0, .wo, 0⟩]⟩,
  ⟨0x10050, [], .pf0, .sys, [⟨31, 0, .rw, 0xf4240⟩]⟩,
  ⟨0x10054, [], .pf0, .sys, [⟨31, 0, .ro, 0⟩]⟩,
  ⟨0x10058, [], .pf0, .sys, [⟨31, 0, .snap, 0⟩]⟩,
  ⟨0x10060, [], .pf0, .sys, [⟨18, 18, .rw, 0⟩, ⟨17, 17, .rw, 0⟩, ⟨16, 16, .rw, 0⟩, ⟨15, 0, .rw, 0⟩]⟩,
  ⟨0x10064, [], .pf0, .sys, [⟨31, 8, .rw, 0xffffff⟩, ⟨0, 0, .rw, 0⟩]⟩,
  ⟨0x10068, [], .pf0, .sys, [⟨15, 0, .rw, 2000⟩]⟩,
  ⟨0x1006C, [], .pf0, .sys, [⟨23, 0, .rw, 1000⟩]⟩,
  ⟨0x10070, [], .pf0, .sys, [⟨31, 0, .rw, 25000⟩]⟩,
  ⟨0x10074, [], .both, .sys, [⟨31, 0, .ro, 0xffffffff⟩]⟩,
  ⟨0x10078, [], .both, .sys, [⟨31, 16, .ro, 0⟩, ⟨7, 0, .ro, 15⟩]⟩,
  ⟨0x10080, [], .pf0, .sys, [⟨17, 17, .rw, 0⟩, ⟨16, 16, .rw, 0⟩, ⟨15, 0, .rw, 0⟩]⟩,
  ⟨0x10084, [], .pf0, .sys, [⟨31, 0, .rw, 0⟩]⟩,
  ⟨0x10090, [], .pf0, .sys, [⟨31, 0, .ro, 0⟩]⟩,
  ⟨0x10094, [], .pf0, .sys, [⟨31, 0, .snap, 0⟩]⟩,
  ⟨0x10098, [], .pf0, .sys, [⟨31, 0, .snap, 0⟩]⟩,
  ⟨0x1009C, [], .pf0, .sys, [⟨31, 0, .ro, 0⟩]⟩,
  ⟨0x100A0, [], .pf0, .sys, [⟨31, 0, .ro, 0⟩]⟩,
  ⟨0x100A4, [], .pf0, .sys, [⟨31, 0, .snap, 0⟩]⟩,
  ⟨0x100A8, [], .pf0, .sys, [⟨31, 0, .snap, 0⟩]⟩,
  ⟨0x100B0, [], .pf0, .sys, [⟨31, 0, .snap, 0⟩]⟩,
  ⟨0x100B4, [], .pf0, .sys, [⟨31, 0, .snap, 0⟩]⟩,
  ⟨0x100B8, [], .pf0, .sys, [⟨24, 0, .snap, 0⟩]⟩,
  ⟨0x100BC, [], .pf0, .sys, [⟨31, 16, .ro, 0⟩, ⟨15, 0, .ro, 0⟩]⟩,
  ⟨0x100C0, [], .pf0, .por, [⟨31, 16, .ro, 0⟩, ⟨3, 3, .ro, 0⟩, ⟨2, 2, .ro, 0⟩, ⟨1, 1, .ro, 0⟩, ⟨0, 0, .ro, 0⟩]⟩,
  ⟨0x10100, [(5, 0x40)], .pf0, .sys, [⟨31, 16, .ro, 0⟩, ⟨6, 0, .ro, 0⟩]⟩,
  ⟨0x10104, [(5, 0x40)], .pf0, .sys, [⟨31, 16, .rw, 0⟩, ⟨15, 0, .rw, 0⟩]⟩,
  ⟨0x10110, [(5, 0x40)], .pf0, .sys, [⟨31, 0, .ro, 0⟩]⟩,
  ⟨0x10114, [(5, 0x40)], .pf0, .sys, [⟨31, 0, .snap, 0⟩]⟩,
  ⟨0x10118, [(5, 0x40)], .pf0, .sys, [⟨31, 16, .snap, 0⟩, ⟨15, 0, .snap, 0⟩]⟩,
  ⟨0x1011C, [(5, 0x40)], .pf0, .sys, [⟨31, 31, .snap, 0⟩, ⟨30, 30, .snap, 0⟩, ⟨27, 24, .snap, 0⟩, ⟨23, 16, .snap, 0⟩, ⟨15, 0, .snap, 0⟩]⟩]

/-- Registers of block 0x02 (R20). -/
def regRows02 : List RegRow := [
  ⟨0x20000, [(4, 0x2000)], .pf0, .sys, [⟨7, 7, .rw, 1⟩, ⟨5, 4, .rw, 2⟩, ⟨3, 3, .rw, 1⟩, ⟨2, 1, .rw, 0⟩, ⟨0, 0, .rw, 0⟩]⟩,
  ⟨0x28000, [], .pf0, .sys, [⟨7, 7, .rw, 1⟩, ⟨6, 6, .rw, 0⟩, ⟨5, 4, .rw, 1⟩, ⟨3, 3, .rw, 1⟩, ⟨2, 1, .rw, 0⟩, ⟨0, 0, .rw, 0⟩]⟩,
  ⟨0x20004, [(5, 0x2000)], .both, .sys, [⟨7, 7, .ro, 0⟩, ⟨6, 6, .ro, 0⟩, ⟨5, 4, .ro, 0⟩, ⟨3, 3, .ro, 0⟩, ⟨2, 2, .ro, 0⟩, ⟨0, 0, .ro, 0⟩]⟩,
  ⟨0x20008, [(5, 0x2000)], .pf0, .sys, [⟨11, 0, .rw, 1522⟩]⟩,
  ⟨0x20010, [(5, 0x2000)], .pf0, .sys, [⟨31, 0, .rw, 0⟩]⟩,
  ⟨0x20014, [(5, 0x2000)], .pf0, .sys, [⟨15, 0, .rw, 0⟩]⟩,
  ⟨0x20018, [(5, 0x2000)], .pf0, .sys, [⟨15, 15, .rw, 0⟩, ⟨11, 0, .rw, 0⟩]⟩,
  ⟨0x2001C, [(5, 0x2000)], .pf0, .sys, [⟨23, 0, .rw, 0⟩]⟩,
  ⟨0x20020, [(5, 0x2000), (8, 0x4)], .pf0, .sys, [⟨31, 31, .rw, 0⟩, ⟨27, 16, .rw, 0⟩, ⟨15, 15, .rw, 0⟩, ⟨11, 0, .rw, 0⟩]⟩,
  ⟨0x20040, [(5, 0x2000)], .pf0, .sys, [⟨16, 16, .rw, 0⟩, ⟨15, 0, .rw, 65535⟩]⟩,
  ⟨0x20044, [(5, 0x2000)], .pf0, .sys, [⟨31, 16, .rw, 1⟩, ⟨15, 0, .rw, 20⟩]⟩,
  ⟨0x20048, [(4, 0x2000)], .pf0, .sys, [⟨31, 16, .rw, 96⟩, ⟨15, 0, .rw, 64⟩]⟩,
  ⟨0x28048, [], .pf0, .sys, [⟨31, 16, .rw, 24⟩, ⟨15, 0, .rw, 16⟩]⟩,
  ⟨0x20050, [(4, 0x2000), (8, 0x4)], .pf0, .sys, [⟨7, 0, .rw, 128⟩]⟩,
  ⟨0x28050, [(8, 0x4)], .pf0, .sys, [⟨7, 0, .rw, 32⟩]⟩,
  ⟨0x28070, [], .pf0, .sys, [⟨4, 0, .rw, 16⟩]⟩,
  ⟨0x20080, [(5, 0x2000)], .pf0, .sys, [⟨22, 16, .rw, 0⟩, ⟨14, 8, .rw, 0⟩, ⟨3, 3, .hws, 0⟩, ⟨2, 2, .ro, 0⟩, ⟨1, 1, .rw, 1⟩, ⟨0, 0, .rw, 0⟩]⟩,
  ⟨0x20084, [(5, 0x2000)], .pf0, .sys, [⟨31, 0, .rw, 0⟩]⟩,
  ⟨0x20088, [(5, 0x2000)], .pf0, .sys, [⟨31, 0, .rw, 0⟩]⟩,
  ⟨0x2008C, [(5, 0x2000)], .pf0, .sys, [⟨31, 0, .rw, 0⟩]⟩,
  ⟨0x20090, [(5, 0x2000)], .pf0, .sys, [⟨31, 0, .rw, 0⟩]⟩,
  ⟨0x21000, [(5, 0x2000), (2, 0x200), (64, 0x8)], .pf0, .sys, [⟨31, 0, .rw, 0⟩]⟩,
  ⟨0x21004, [(5, 0x2000), (2, 0x200), (64, 0x8)], .pf0, .sys, [⟨7, 0, .rw, 0⟩]⟩,
  ⟨0x20800, [(5, 0x2000), (64, 0x8)], .pf0, .sys, [⟨31, 0, .ro, 0⟩]⟩,
  ⟨0x20804, [(5, 0x2000), (64, 0x8)], .pf0, .sys, [⟨31, 31, .snap, 0⟩, ⟨15, 0, .snap, 0⟩]⟩,
  ⟨0x20100, [(5, 0x2000)], .both, .sys, [⟨31, 0, .ro, 0⟩]⟩,
  ⟨0x20104, [(5, 0x2000)], .both, .sys, [⟨31, 0, .snap, 0⟩]⟩,
  ⟨0x20108, [(5, 0x2000), (10, 0x4)], .both, .sys, [⟨31, 0, .ro, 0⟩]⟩,
  ⟨0x20130, [(5, 0x2000)], .both, .sys, [⟨31, 0, .ro, 0⟩]⟩,
  ⟨0x20134, [(5, 0x2000)], .both, .sys, [⟨31, 0, .snap, 0⟩]⟩,
  ⟨0x20138, [(5, 0x2000), (15, 0x4)], .both, .sys, [⟨31, 0, .ro, 0⟩]⟩,
  ⟨0x2A000, [], .pf0, .sys, [⟨0, 0, .rw, 0⟩]⟩,
  ⟨0x2A004, [], .pf0, .sys, [⟨15, 0, .rw, 400⟩]⟩,
  ⟨0x2A008, [], .pf0, .sys, [⟨15, 0, .rw, 2000⟩]⟩,
  ⟨0x2A00C, [], .both, .sys, [⟨15, 0, .ro, 0⟩]⟩,
  ⟨0x2A010, [], .pf0, .sys, [⟨7, 0, .rw, 24⟩]⟩,
  ⟨0x2A014, [], .pf0, .sys, [⟨31, 31, .ro, 0⟩, ⟨30, 30, .ro, 0⟩, ⟨29, 29, .wo, 0⟩, ⟨28, 28, .rw, 0⟩, ⟨27, 26, .rw, 0⟩, ⟨25, 21, .rw, 0⟩, ⟨20, 16, .rw, 0⟩, ⟨15, 0, .rw, 0⟩]⟩,
  ⟨0x2A018, [], .pf0, .sys, [⟨15, 0, .ro, 0⟩]⟩]

/-- Registers of block 0x03 (R20). -/
def regRows03 : List RegRow := [
  ⟨0x30000, [], .pf0, .sys, [⟨31, 16, .rw, 20⟩, ⟨2, 2, .rw, 1⟩, ⟨1, 1, .rw, 0⟩, ⟨0, 0, .rw, 0⟩]⟩,
  ⟨0x30004, [], .both, .sys, [⟨2, 2, .ro, 0⟩, ⟨1, 1, .ro, 0⟩, ⟨0, 0, .ro, 0⟩]⟩,
  ⟨0x30008, [], .pf0, .sys, [⟨31, 16, .rw, 4096⟩, ⟨15, 0, .rw, 250⟩]⟩,
  ⟨0x30010, [], .pf0, .sys, [⟨16, 16, .rw, 0⟩, ⟨15, 0, .rw, 4713⟩]⟩,
  ⟨0x30014, [(7, 0x4)], .pf0, .sys, [⟨16, 16, .rw, 0⟩, ⟨15, 0, .rw, 0⟩]⟩,
  ⟨0x30040, [], .both, .sys, [⟨31, 0, .ro, 0⟩]⟩,
  ⟨0x30044, [], .both, .sys, [⟨31, 0, .snap, 0⟩]⟩,
  ⟨0x30048, [], .both, .sys, [⟨31, 0, .ro, 0⟩]⟩,
  ⟨0x3004C, [], .both, .sys, [⟨31, 0, .ro, 0⟩]⟩,
  ⟨0x30050, [], .both, .sys, [⟨31, 0, .ro, 0⟩]⟩,
  ⟨0x30054, [], .both, .sys, [⟨31, 0, .ro, 0⟩]⟩,
  ⟨0x30058, [], .both, .sys, [⟨31, 0, .ro, 0⟩]⟩,
  ⟨0x3005C, [], .both, .sys, [⟨31, 0, .ro, 0⟩]⟩,
  ⟨0x30060, [], .both, .sys, [⟨31, 0, .ro, 0⟩]⟩,
  ⟨0x30064, [], .both, .sys, [⟨31, 0, .ro, 0⟩]⟩,
  ⟨0x30068, [], .both, .sys, [⟨31, 0, .ro, 0⟩]⟩,
  ⟨0x3006C, [], .both, .sys, [⟨31, 0, .ro, 0⟩]⟩,
  ⟨0x30070, [], .both, .sys, [⟨31, 0, .ro, 0⟩]⟩,
  ⟨0x30074, [], .both, .sys, [⟨31, 0, .ro, 0⟩]⟩,
  ⟨0x30078, [], .both, .sys, [⟨31, 0, .ro, 0⟩]⟩,
  ⟨0x3007C, [], .both, .sys, [⟨31, 0, .ro, 0⟩]⟩,
  ⟨0x30080, [], .both, .sys, [⟨31, 0, .ro, 0⟩]⟩,
  ⟨0x30084, [], .both, .sys, [⟨31, 0, .ro, 0⟩]⟩,
  ⟨0x30088, [], .both, .sys, [⟨31, 0, .ro, 0⟩]⟩,
  ⟨0x300A0, [], .pf0, .sys, [⟨31, 0, .ro, 0⟩]⟩,
  ⟨0x300A4, [], .pf0, .sys, [⟨31, 0, .snap, 0⟩]⟩,
  ⟨0x300A8, [], .pf0, .sys, [⟨31, 0, .snap, 0⟩]⟩,
  ⟨0x300AC, [], .pf0, .sys, [⟨31, 0, .snap, 0⟩]⟩,
  ⟨0x300B0, [], .pf0, .sys, [⟨31, 16, .snap, 0⟩, ⟨15, 0, .snap, 0⟩]⟩,
  ⟨0x300C0, [], .pf0, .sys, [⟨31, 0, .rw, 0⟩]⟩,
  ⟨0x300C4, [], .pf0, .sys, [⟨31, 0, .rw, 0⟩]⟩,
  ⟨0x300C8, [], .pf0, .sys, [⟨12, 0, .rw, 0⟩]⟩,
  ⟨0x300CC, [], .pf0, .sys, [⟨15, 0, .rw, 0⟩]⟩,
  ⟨0x300D0, [], .pf0, .sys, [⟨15, 0, .ro, 0⟩]⟩,
  ⟨0x300D4, [], .pf0, .sys, [⟨15, 0, .rw, 0⟩]⟩]

/-- Registers of block 0x04 (R20). -/
def regRows04 : List RegRow := [
  ⟨0x40000, [], .pf0, .sys, [⟨2, 2, .wo, 0⟩, ⟨1, 1, .rw, 0⟩, ⟨0, 0, .rw, 0⟩]⟩,
  ⟨0x40004, [], .both, .sys, [⟨31, 31, .ro, 0⟩, ⟨29, 16, .ro, 0⟩, ⟨13, 0, .ro, 8192⟩]⟩,
  ⟨0x40008, [], .pf0, .sys, [⟨5, 0, .rw, 0⟩]⟩,
  ⟨0x40040, [], .pf0, .sys, [⟨16, 16, .rw, 1⟩, ⟨13, 0, .rw, 5120⟩]⟩,
  ⟨0x40044, [], .pf0, .sys, [⟨16, 16, .rw, 1⟩, ⟨13, 0, .rw, 256⟩]⟩,
  ⟨0x40048, [], .pf0, .sys, [⟨16, 16, .rw, 1⟩, ⟨13, 0, .rw, 1024⟩]⟩,
  ⟨0x4004C, [], .pf0, .sys, [⟨16, 16, .rw, 1⟩, ⟨13, 0, .rw, 1024⟩]⟩,
  ⟨0x40050, [], .pf0, .sys, [⟨16, 16, .rw, 0⟩, ⟨13, 0, .rw, 128⟩]⟩,
  ⟨0x40054, [], .pf0, .sys, [⟨16, 16, .rw, 0⟩, ⟨13, 0, .rw, 384⟩]⟩,
  ⟨0x40058, [], .pf0, .sys, [⟨16, 16, .rw, 0⟩, ⟨13, 0, .rw, 64⟩]⟩,
  ⟨0x4005C, [], .pf0, .sys, [⟨13, 0, .ro, 192⟩]⟩,
  ⟨0x40060, [(8, 0x4)], .both, .sys, [⟨29, 16, .hws, 0⟩, ⟨13, 0, .ro, 0⟩]⟩,
  ⟨0x40080, [(7, 0x4)], .both, .sys, [⟨31, 0, .ro, 0⟩]⟩,
  ⟨0x400A0, [], .pf0, .sys, [⟨15, 0, .rw, 60000⟩]⟩,
  ⟨0x400A4, [], .pf0, .sys, [⟨15, 0, .rw, 100⟩]⟩,
  ⟨0x400A8, [], .pf0, .sys, [⟨15, 0, .rw, 1000⟩]⟩,
  ⟨0x400C0, [], .pf0, .sys, [⟨2, 2, .rw, 0⟩, ⟨1, 1, .rw, 0⟩, ⟨0, 0, .rw, 0⟩]⟩,
  ⟨0x400C4, [(3, 0x4)], .pf0, .sys, [⟨19, 0, .rw, 0⟩]⟩,
  ⟨0x400D0, [], .both, .sys, [⟨18, 16, .ro, 0⟩, ⟨10, 8, .ro, 0⟩, ⟨6, 4, .ro, 0⟩, ⟨2, 0, .ro, 0⟩]⟩,
  ⟨0x400D4, [(3, 0x4)], .both, .sys, [⟨31, 0, .ro, 0⟩]⟩,
  ⟨0x400E0, [], .both, .sys, [⟨15, 0, .w1c, 0⟩]⟩,
  ⟨0x41000, [(16, 0x80)], .queue, .sys, [⟨29, 16, .rw, 1024⟩, ⟨15, 8, .rw, 0⟩, ⟨2, 2, .rw, 0⟩, ⟨1, 1, .rw, 0⟩, ⟨0, 0, .rw, 0⟩]⟩,
  ⟨0x41004, [(16, 0x80)], .queue, .sys, [⟨9, 0, .rw, 0⟩]⟩,
  ⟨0x41008, [(16, 0x80)], .queue, .sys, [⟨15, 0, .rw, 2000⟩]⟩,
  ⟨0x4100C, [(16, 0x80)], .queue, .sys, [⟨29, 16, .ro, 0⟩, ⟨4, 4, .ro, 0⟩, ⟨3, 3, .w1c, 0⟩, ⟨2, 2, .w1c, 0⟩, ⟨1, 1, .w1c, 0⟩, ⟨0, 0, .ro, 1⟩]⟩,
  ⟨0x41010, [(16, 0x80)], .queue, .sys, [⟨31, 0, .rw, 0⟩]⟩,
  ⟨0x41014, [(16, 0x80)], .queue, .sys, [⟨31, 0, .rw, 0⟩]⟩,
  ⟨0x41018, [(16, 0x80)], .queue, .sys, [⟨16, 0, .rw, 0⟩]⟩,
  ⟨0x4101C, [(16, 0x80)], .queue, .sys, [⟨31, 0, .ro, 0⟩]⟩,
  ⟨0x41020, [(16, 0x80)], .queue, .sys, [⟨31, 0, .rw, 0⟩]⟩,
  ⟨0x41024, [(16, 0x80)], .queue, .sys, [⟨31, 0, .ro, 0⟩]⟩,
  ⟨0x41028, [(16, 0x80)], .queue, .sys, [⟨31, 0, .ro, 0⟩]⟩,
  ⟨0x4102C, [(16, 0x80)], .queue, .sys, [⟨31, 16, .ro, 0⟩, ⟨15, 0, .ro, 0⟩]⟩,
  ⟨0x41030, [(16, 0x80)], .queue, .sys, [⟨31, 0, .ro, 0⟩]⟩,
  ⟨0x41040, [(16, 0x80), (4, 0x4)], .queue, .sys, [⟨31, 0, .ro, 0⟩]⟩,
  ⟨0x41050, [(16, 0x80), (4, 0x4)], .queue, .sys, [⟨31, 0, .ro, 0⟩]⟩]

/-- Registers of block 0x05 (R20). -/
def regRows05 : List RegRow := [
  ⟨0x50000, [], .pf0, .sys, [⟨3, 3, .rw, 0⟩, ⟨2, 2, .rw, 1⟩, ⟨1, 1, .rw, 1⟩, ⟨0, 0, .rw, 0⟩]⟩,
  ⟨0x50004, [], .both, .sys, [⟨31, 31, .ro, 0⟩, ⟨27, 24, .ro, 9⟩, ⟨8, 0, .ro, 0⟩]⟩,
  ⟨0x50010, [], .pf0, .sys, [⟨23, 0, .rwe, 500⟩]⟩,
  ⟨0x50014, [], .pf0, .sys, [⟨23, 0, .rwe, 50000⟩]⟩,
  ⟨0x50018, [], .pf0, .sys, [⟨23, 0, .rw, 20000⟩]⟩,
  ⟨0x5001C, [], .both, .sys, [⟨23, 0, .ro, 0⟩]⟩,
  ⟨0x50020, [], .pf0, .sys, [⟨31, 24, .rw, 250⟩, ⟨23, 16, .rw, 32⟩, ⟨15, 0, .rw, 120⟩]⟩,
  ⟨0x50024, [], .pf0, .sys, [⟨31, 16, .rw, 1000⟩, ⟨15, 0, .rw, 500⟩]⟩,
  ⟨0x50028, [], .pf0, .sys, [⟨15, 8, .rw, 32⟩, ⟨6, 0, .rw, 8⟩]⟩,
  ⟨0x5002C, [], .pf0, .sys, [⟨15, 0, .rwe, 10⟩]⟩,
  ⟨0x50030, [], .pf0, .sys, [⟨19, 0, .rw, 1000⟩]⟩,
  ⟨0x50040, [], .both, .sys, [⟨31, 0, .ro, 0⟩]⟩,
  ⟨0x50044, [], .both, .sys, [⟨31, 0, .snap, 0⟩]⟩,
  ⟨0x50048, [], .both, .sys, [⟨31, 0, .ro, 0⟩]⟩,
  ⟨0x5004C, [], .both, .sys, [⟨31, 0, .snap, 0⟩]⟩,
  ⟨0x50050, [], .both, .sys, [⟨31, 0, .ro, 0⟩]⟩,
  ⟨0x50054, [], .both, .sys, [⟨31, 0, .ro, 0⟩]⟩,
  ⟨0x50058, [], .both, .sys, [⟨31, 0, .ro, 0⟩]⟩,
  ⟨0x5005C, [], .both, .sys, [⟨13, 0, .ro, 0⟩]⟩,
  ⟨0x50060, [], .pf0, .sys, [⟨15, 0, .hws, 0⟩]⟩,
  ⟨0x50068, [], .pf0, .sys, [⟨31, 0, .ro, 0⟩]⟩,
  ⟨0x5006C, [], .pf0, .sys, [⟨31, 0, .snap, 0⟩]⟩]

/-- Registers of block 0x06 (R20). -/
def regRows06 : List RegRow := [
  ⟨0x60000, [], .pf0, .sys, [⟨2, 2, .rw, 1⟩, ⟨1, 1, .rw, 1⟩, ⟨0, 0, .rw, 0⟩]⟩,
  ⟨0x60004, [], .both, .sys, [⟨8, 4, .ro, 0⟩, ⟨3, 3, .ro, 0⟩, ⟨2, 2, .ro, 0⟩, ⟨1, 1, .ro, 0⟩, ⟨0, 0, .ro, 0⟩]⟩,
  ⟨0x60008, [], .both, .sys, [⟨31, 16, .ro, 0⟩, ⟨15, 0, .ro, 0⟩]⟩,
  ⟨0x6000C, [], .both, .sys, [⟨31, 16, .ro, 0⟩, ⟨15, 0, .ro, 0⟩]⟩,
  ⟨0x60010, [], .both, .sys, [⟨31, 0, .ro, 0⟩]⟩,
  ⟨0x60014, [], .both, .sys, [⟨31, 0, .ro, 0⟩]⟩,
  ⟨0x60018, [], .both, .sys, [⟨31, 0, .ro, 0⟩]⟩,
  ⟨0x6001C, [], .both, .sys, [⟨31, 0, .ro, 0⟩]⟩,
  ⟨0x60020, [], .pf0, .sys, [⟨23, 0, .hws, 0⟩]⟩,
  ⟨0x60024, [], .pf0, .sys, [⟨15, 0, .rw, 100⟩]⟩,
  ⟨0x60028, [], .pf0, .sys, [⟨10, 0, .rw, 1008⟩]⟩,
  ⟨0x60040, [(8, 0x4)], .pf0, .sys, [⟨31, 25, .rw, 10⟩, ⟨24, 24, .rw, 0⟩, ⟨23, 23, .rw, 0⟩, ⟨22, 20, .rw, 3⟩, ⟨19, 10, .rw, 0⟩, ⟨9, 0, .rw, 0⟩]⟩,
  ⟨0x60060, [], .pf0, .sys, [⟨7, 0, .wo, 0⟩]⟩,
  ⟨0x60064, [], .both, .sys, [⟨16, 16, .ro, 0⟩, ⟨15, 8, .ro, 0⟩, ⟨7, 0, .ro, 0⟩]⟩,
  ⟨0x60068, [], .both, .sys, [⟨15, 0, .ro, 0⟩]⟩,
  ⟨0x6006C, [], .both, .sys, [⟨15, 0, .ro, 0⟩]⟩,
  ⟨0x60080, [], .pf0, .sys, [⟨31, 16, .rw, 0⟩, ⟨9, 8, .rw, 1⟩, ⟨6, 6, .rw, 0⟩, ⟨5, 1, .rw, 0⟩, ⟨0, 0, .rw, 0⟩]⟩,
  ⟨0x60084, [(4, 0x4)], .pf0, .sys, [⟨31, 0, .rw, 0⟩]⟩,
  ⟨0x60094, [], .pf0, .sys, [⟨31, 0, .rw, 0⟩]⟩,
  ⟨0x60098, [], .pf0, .sys, [⟨31, 0, .ro, 0⟩]⟩,
  ⟨0x6009C, [], .pf0, .sys, [⟨31, 0, .rw, 0⟩]⟩,
  ⟨0x600A0, [], .pf0, .sys, [⟨15, 0, .rw, 0⟩]⟩,
  ⟨0x600A4, [], .both, .sys, [⟨31, 0, .ro, 0⟩]⟩,
  ⟨0x60100, [(31, 0x4)], .both, .sys, [⟨31, 0, .ro, 0⟩]⟩]

/-- Registers of block 0x07 (R20). -/
def regRows07 : List RegRow := [
  ⟨0x70000, [], .pf0, .sys, [⟨2, 1, .rw, 1⟩, ⟨0, 0, .rw, 0⟩]⟩,
  ⟨0x70004, [], .both, .sys, [⟨29, 16, .ro, 0⟩, ⟨3, 3, .ro, 0⟩, ⟨2, 2, .ro, 0⟩, ⟨1, 1, .ro, 0⟩, ⟨0, 0, .ro, 0⟩]⟩,
  ⟨0x70008, [], .pf0, .sys, [⟨15, 8, .rwe, 8⟩, ⟨7, 0, .rwe, 2⟩]⟩,
  ⟨0x7000C, [], .pf0, .sys, [⟨5, 0, .rwe, 12⟩]⟩,
  ⟨0x70010, [], .pf0, .sys, [⟨15, 0, .rw, 120⟩]⟩,
  ⟨0x70014, [], .pf0, .sys, [⟨29, 16, .rw, 1024⟩, ⟨10, 0, .rw, 256⟩]⟩,
  ⟨0x70018, [], .pf0, .sys, [⟨9, 0, .rw, 1023⟩]⟩,
  ⟨0x7001C, [], .both, .sys, [⟨31, 16, .ro, 0⟩, ⟨13, 0, .ro, 0⟩]⟩,
  ⟨0x70020, [], .both, .sys, [⟨31, 0, .ro, 0⟩]⟩,
  ⟨0x70024, [], .both, .sys, [⟨31, 0, .ro, 0⟩]⟩,
  ⟨0x70028, [], .both, .sys, [⟨31, 0, .ro, 0⟩]⟩,
  ⟨0x7002C, [], .both, .sys, [⟨31, 0, .ro, 0⟩]⟩,
  ⟨0x70030, [], .pf0, .sys, [⟨23, 0, .hws, 0⟩]⟩,
  ⟨0x70034, [], .pf0, .sys, [⟨4, 0, .hws, 0⟩]⟩,
  ⟨0x70040, [], .sel, .sys, [⟨12, 0, .rw, 0⟩]⟩,
  ⟨0x70044, [], .both, .sys, [⟨26, 26, .ro, 0⟩, ⟨25, 25, .ro, 0⟩, ⟨24, 24, .ro, 0⟩, ⟨22, 16, .ro, 0⟩, ⟨12, 0, .ro, 0⟩]⟩,
  ⟨0x70048, [], .sel, .sys, [⟨14, 0, .rw, 0⟩]⟩,
  ⟨0x7004C, [], .both, .sys, [⟨31, 16, .ro, 0⟩, ⟨3, 3, .ro, 0⟩, ⟨2, 2, .ro, 0⟩, ⟨1, 1, .ro, 0⟩, ⟨0, 0, .ro, 0⟩]⟩,
  ⟨0x70050, [], .both, .sys, [⟨31, 0, .ro, 0⟩]⟩]

/-- Registers of block 0x08 (R20). -/
def regRows08 : List RegRow := [
  ⟨0x80000, [], .pf0, .sys, [⟨4, 3, .rw, 1⟩, ⟨2, 2, .rw, 1⟩, ⟨1, 1, .rw, 1⟩, ⟨0, 0, .rw, 0⟩]⟩,
  ⟨0x80004, [], .both, .sys, [⟨31, 24, .ro, 0⟩, ⟨20, 16, .ro, 0⟩, ⟨3, 3, .ro, 0⟩, ⟨1, 1, .ro, 0⟩, ⟨0, 0, .ro, 0⟩]⟩,
  ⟨0x80008, [], .pf0, .sys, [⟨31, 16, .ro, 3000⟩, ⟨15, 4, .ro, 1⟩, ⟨1, 0, .ro, 0⟩]⟩,
  ⟨0x8000C, [], .pf0, .sys, [⟨9, 0, .rwe, 128⟩]⟩,
  ⟨0x80010, [], .pf0, .sys, [⟨31, 24, .rwe, 96⟩, ⟨23, 16, .rwe, 16⟩, ⟨15, 8, .rwe, 32⟩, ⟨7, 0, .rwe, 120⟩]⟩,
  ⟨0x80014, [], .pf0, .sys, [⟨31, 24, .rwe, 30⟩, ⟨23, 16, .rwe, 10⟩, ⟨15, 8, .rwe, 20⟩, ⟨4, 0, .rwe, 8⟩]⟩,
  ⟨0x80018, [], .pf0, .sys, [⟨31, 16, .rwe, 0⟩, ⟨15, 0, .rwe, 0⟩]⟩,
  ⟨0x8001C, [], .pf0, .sys, [⟨31, 24, .rwe, 10⟩, ⟨23, 16, .rwe, 51⟩, ⟨15, 0, .rwe, 50⟩]⟩,
  ⟨0x80020, [], .pf0, .sys, [⟨23, 16, .rwe, 13⟩, ⟨15, 0, .rwe, 50⟩]⟩,
  ⟨0x80024, [], .pf0, .sys, [⟨23, 8, .rw, 240⟩, ⟨7, 0, .rw, 24⟩]⟩,
  ⟨0x80028, [], .pf0, .sys, [⟨26, 16, .rw, 256⟩, ⟨10, 0, .rw, 256⟩]⟩,
  ⟨0x80030, [], .both, .sys, [⟨31, 0, .ro, 0⟩]⟩,
  ⟨0x80034, [], .both, .sys, [⟨31, 0, .ro, 0⟩]⟩,
  ⟨0x80038, [], .both, .sys, [⟨31, 0, .ro, 0⟩]⟩,
  ⟨0x8003C, [], .both, .sys, [⟨31, 0, .ro, 0⟩]⟩,
  ⟨0x80040, [], .both, .sys, [⟨31, 0, .ro, 0⟩]⟩,
  ⟨0x80044, [], .both, .sys, [⟨31, 0, .ro, 0⟩]⟩,
  ⟨0x80048, [], .pf0, .sys, [⟨23, 0, .hws, 0⟩]⟩,
  ⟨0x80050, [], .sel, .sys, [⟨3, 0, .rw, 0⟩]⟩,
  ⟨0x80054, [], .both, .sys, [⟨31, 16, .ro, 0⟩, ⟨15, 15, .ro, 0⟩, ⟨14, 14, .ro, 0⟩, ⟨13, 13, .ro, 0⟩, ⟨11, 10, .ro, 0⟩, ⟨9, 0, .ro, 0⟩]⟩,
  ⟨0x80058, [], .both, .sys, [⟨31, 0, .snap, 0⟩]⟩,
  ⟨0x8005C, [], .both, .sys, [⟨31, 0, .snap, 0⟩]⟩,
  ⟨0x80060, [], .both, .sys, [⟨31, 0, .snap, 0⟩]⟩,
  ⟨0x80070, [], .sel, .sys, [⟨25, 16, .rw, 0⟩, ⟨5, 0, .rw, 0⟩]⟩,
  ⟨0x80074, [], .both, .sys, [⟨31, 0, .ro, 0⟩]⟩,
  ⟨0x80078, [], .both, .sys, [⟨31, 0, .snap, 0⟩]⟩,
  ⟨0x8007C, [], .both, .sys, [⟨31, 0, .ro, 0⟩]⟩]

/-- Registers of block 0x09 (R20). -/
def regRows09 : List RegRow := [
  ⟨0x90000, [], .pf0, .sys, [⟨0, 0, .rw, 0⟩]⟩,
  ⟨0x90004, [], .both, .sys, [⟨31, 16, .ro, 0⟩, ⟨15, 0, .ro, 0⟩]⟩,
  ⟨0x90008, [], .pf0, .sys, [⟨15, 0, .rw, 60⟩]⟩,
  ⟨0x90100, [(16, 0x10)], .both, .sys, [⟨31, 16, .ro, 0⟩, ⟨10, 0, .ro, 0⟩]⟩,
  ⟨0x90104, [(16, 0x10)], .both, .sys, [⟨15, 0, .ro, 0⟩]⟩,
  ⟨0x90108, [(16, 0x10)], .both, .sys, [⟨31, 0, .ro, 0⟩]⟩,
  ⟨0x90200, [(16, 0x10)], .both, .sys, [⟨3, 3, .ro, 0⟩, ⟨2, 2, .ro, 0⟩, ⟨1, 1, .ro, 0⟩, ⟨0, 0, .ro, 0⟩]⟩,
  ⟨0x90204, [(16, 0x10)], .both, .sys, [⟨31, 0, .ro, 0⟩]⟩,
  ⟨0x90208, [(16, 0x10)], .both, .sys, [⟨31, 0, .ro, 0⟩]⟩,
  ⟨0x9020C, [(16, 0x10)], .both, .sys, [⟨31, 0, .ro, 0⟩]⟩,
  ⟨0x90800, [], .pf0, .sys, [⟨21, 11, .rw, 256⟩, ⟨10, 8, .rw, 6⟩, ⟨6, 4, .rw, 2⟩, ⟨3, 1, .rw, 7⟩, ⟨0, 0, .rw, 0⟩]⟩,
  ⟨0x90804, [], .both, .sys, [⟨15, 12, .ro, 0⟩, ⟨11, 8, .ro, 0⟩, ⟨7, 4, .ro, 0⟩, ⟨1, 1, .ro, 0⟩, ⟨0, 0, .ro, 0⟩]⟩,
  ⟨0x90808, [], .pf0, .sys, [⟨31, 0, .rwe, 0⟩]⟩,
  ⟨0x9080C, [], .pf0, .sys, [⟨23, 16, .rw, 2⟩, ⟨15, 0, .rw, 100⟩]⟩,
  ⟨0x90810, [], .pf0, .sys, [⟨31, 0, .ro, 0⟩]⟩,
  ⟨0x90814, [], .pf0, .sys, [⟨15, 0, .snap, 0⟩]⟩,
  ⟨0x90818, [], .both, .sys, [⟨31, 17, .ro, 0⟩, ⟨15, 1, .ro, 0⟩]⟩,
  ⟨0x90820, [], .both, .sys, [⟨31, 0, .ro, 0⟩]⟩,
  ⟨0x90824, [], .both, .sys, [⟨31, 0, .ro, 0⟩]⟩,
  ⟨0x90828, [], .both, .sys, [⟨31, 0, .ro, 0⟩]⟩,
  ⟨0x9082C, [], .both, .sys, [⟨31, 0, .ro, 0⟩]⟩,
  ⟨0x90830, [], .both, .sys, [⟨31, 0, .ro, 0⟩]⟩,
  ⟨0x90834, [], .both, .sys, [⟨31, 0, .ro, 0⟩]⟩,
  ⟨0x90838, [], .both, .sys, [⟨31, 0, .ro, 0⟩]⟩,
  ⟨0x9083C, [], .both, .sys, [⟨31, 0, .ro, 0⟩]⟩,
  ⟨0x90920, [(15, 0x20)], .pf0, .sys, [⟨31, 31, .rwe, 0⟩, ⟨30, 30, .rwe, 0⟩, ⟨29, 20, .rwe, 1023⟩, ⟨19, 10, .rwe, 1023⟩, ⟨8, 0, .rwe, 0⟩]⟩,
  ⟨0x90924, [(15, 0x20)], .pf0, .sys, [⟨12, 0, .rwe, 0⟩]⟩,
  ⟨0x90928, [(15, 0x20)], .pf0, .sys, [⟨31, 0, .rwe, 0⟩]⟩,
  ⟨0x9092C, [(15, 0x20)], .pf0, .sys, [⟨15, 0, .rwe, 0⟩]⟩,
  ⟨0x90930, [(15, 0x20)], .pf0, .sys, [⟨31, 0, .rwe, 0⟩]⟩,
  ⟨0x90934, [(15, 0x20)], .pf0, .sys, [⟨15, 0, .rwe, 0⟩]⟩,
  ⟨0x90938, [(15, 0x20)], .pf0, .sys, [⟨31, 28, .ro, 0⟩, ⟨27, 27, .ro, 0⟩, ⟨26, 26, .ro, 0⟩, ⟨25, 25, .ro, 0⟩, ⟨24, 24, .ro, 0⟩]⟩,
  ⟨0x9093C, [(15, 0x20)], .pf0, .sys, [⟨31, 0, .ro, 0⟩]⟩]

/-- Registers of block 0x0A (R20). -/
def regRows0A : List RegRow := [
  ⟨0xA0000, [], .pf0, .sys, [⟨2, 2, .rw, 1⟩, ⟨1, 1, .rw, 0⟩, ⟨0, 0, .rw, 0⟩]⟩,
  ⟨0xA0004, [], .both, .sys, [⟨23, 16, .ro, 0⟩, ⟨15, 8, .ro, 0⟩, ⟨1, 1, .ro, 0⟩, ⟨0, 0, .ro, 0⟩]⟩,
  ⟨0xA0008, [], .both, .sys, [⟨31, 0, .ro, 0⟩]⟩,
  ⟨0xA000C, [], .both, .sys, [⟨31, 0, .snap, 0⟩]⟩,
  ⟨0xA0040, [(8, 0x4)], .pf0, .sys, [⟨24, 24, .rw, 0⟩, ⟨23, 22, .rw, 0⟩, ⟨21, 21, .rw, 0⟩, ⟨20, 16, .rw, 9⟩, ⟨13, 8, .rw, 0⟩, ⟨7, 7, .rw, 0⟩, ⟨6, 0, .rw, 0⟩]⟩,
  ⟨0xA0060, [(8, 0x4)], .both, .sys, [⟨21, 16, .w1c, 0⟩, ⟨13, 8, .ro, 0⟩, ⟨1, 1, .ro, 0⟩, ⟨0, 0, .ro, 0⟩]⟩,
  ⟨0xA0080, [], .pf0, .sys, [⟨23, 16, .rw, 154⟩, ⟨7, 0, .rw, 205⟩]⟩,
  ⟨0xA0084, [], .pf0, .sys, [⟨31, 16, .rw, 200⟩, ⟨4, 0, .rw, 5⟩]⟩,
  ⟨0xA00A0, [(8, 0x4)], .pf0, .sys, [⟨31, 0, .rw, 0x100000⟩]⟩,
  ⟨0xA00C0, [], .both, .sys, [⟨31, 0, .ro, 0⟩]⟩,
  ⟨0xA00C4, [], .both, .sys, [⟨31, 0, .ro, 0⟩]⟩,
  ⟨0xA00D0, [], .both, .sys, [⟨31, 16, .ro, 0⟩, ⟨15, 8, .ro, 0⟩, ⟨2, 2, .ro, 0⟩, ⟨1, 1, .ro, 0⟩, ⟨0, 0, .ro, 0⟩]⟩,
  ⟨0xA00D4, [(2, 0x4)], .both, .sys, [⟨22, 16, .ro, 1⟩, ⟨14, 8, .ro, 1⟩, ⟨6, 0, .ro, 1⟩]⟩,
  ⟨0xA00E0, [], .both, .sys, [⟨31, 0, .ro, 0x806dc⟩]⟩,
  ⟨0xA00E4, [], .both, .sys, [⟨31, 0, .ro, 0x3e6dc⟩]⟩,
  ⟨0xA00E8, [], .both, .sys, [⟨31, 0, .ro, 0x1d6dc⟩]⟩]

/-- Registers of block 0x0B (R20). -/
def regRows0B : List RegRow := [
  ⟨0xB0000, [], .pf0, .sys, [⟨1, 1, .rw, 1⟩, ⟨0, 0, .rw, 0⟩]⟩,
  ⟨0xB0004, [], .both, .sys, [⟨15, 8, .ro, 0⟩, ⟨7, 0, .ro, 0⟩]⟩,
  ⟨0xB0008, [], .pf0, .sys, [⟨31, 24, .rw, 50⟩, ⟨23, 8, .rw, 500⟩]⟩,
  ⟨0xB000C, [], .pf0, .sys, [⟨15, 0, .rw, 100⟩]⟩,
  ⟨0xB0010, [], .pf0, .sys, [⟨15, 0, .rw, 100⟩]⟩,
  ⟨0xB0020, [(8, 0x4)], .both, .sys, [⟨31, 24, .ro, 0⟩, ⟨23, 21, .ro, 0⟩, ⟨20, 20, .ro, 0⟩, ⟨19, 18, .ro, 0⟩, ⟨17, 17, .ro, 0⟩, ⟨16, 16, .ro, 0⟩, ⟨15, 12, .ro, 0⟩, ⟨0, 0, .ro, 0⟩]⟩,
  ⟨0xB0040, [(8, 0x4)], .both, .sys, [⟨7, 4, .ro, 15⟩, ⟨3, 3, .ro, 0⟩, ⟨2, 2, .ro, 0⟩, ⟨1, 1, .ro, 0⟩, ⟨0, 0, .ro, 0⟩]⟩,
  ⟨0xB0060, [(8, 0x4)], .both, .sys, [⟨31, 16, .ro, 0⟩, ⟨15, 0, .ro, 0⟩]⟩,
  ⟨0xB0080, [], .both, .sys, [⟨31, 0, .ro, 0⟩]⟩,
  ⟨0xB0084, [], .both, .sys, [⟨31, 0, .ro, 0⟩]⟩,
  ⟨0xB0088, [], .both, .sys, [⟨31, 0, .ro, 0⟩]⟩,
  ⟨0xB008C, [], .both, .sys, [⟨31, 0, .ro, 0⟩]⟩]

/-- Registers of block 0x0C (R20). -/
def regRows0C : List RegRow := [
  ⟨0xC0000, [], .pf0, .sys, [⟨3, 3, .rw, 0⟩, ⟨2, 2, .rw, 1⟩, ⟨1, 1, .rw, 1⟩, ⟨0, 0, .rw, 0⟩]⟩,
  ⟨0xC0004, [], .both, .sys, [⟨4, 3, .ro, 0⟩, ⟨2, 2, .ro, 0⟩, ⟨1, 1, .ro, 0⟩, ⟨0, 0, .ro, 0⟩]⟩,
  ⟨0xC0008, [], .pf0, .sys, [⟨31, 16, .rw, 60⟩, ⟨15, 0, .rw, 1000⟩]⟩,
  ⟨0xC000C, [], .pf0, .sys, [⟨31, 0, .ro, 0⟩]⟩,
  ⟨0xC0010, [], .both, .sys, [⟨31, 0, .ro, 0⟩]⟩,
  ⟨0xC0014, [], .both, .sys, [⟨31, 0, .snap, 0⟩]⟩,
  ⟨0xC0018, [], .both, .sys, [⟨31, 0, .ro, 0⟩]⟩,
  ⟨0xC001C, [], .both, .sys, [⟨31, 0, .ro, 0⟩]⟩,
  ⟨0xC0020, [], .both, .sys, [⟨31, 0, .ro, 0⟩]⟩,
  ⟨0xC0024, [], .both, .sys, [⟨31, 0, .ro, 0⟩]⟩,
  ⟨0xC0040, [(8, 0x4)], .pf0, .sys, [⟨2, 2, .rwe, 0⟩, ⟨1, 1, .rwe, 0⟩, ⟨0, 0, .rwe, 0⟩]⟩,
  ⟨0xC0060, [(8, 0x8)], .pf0, .sys, [⟨31, 0, .rwe, 0⟩]⟩,
  ⟨0xC0064, [(8, 0x8)], .pf0, .sys, [⟨15, 0, .rwe, 0⟩]⟩,
  ⟨0xC1000, [(8, 0x400), (4, 0x100), (9, 0x10), (4, 0x4)], .both, .sys, [⟨31, 0, .ro, 0⟩]⟩]

/-- Registers of block 0x0D (R20). -/
def regRows0D : List RegRow := [
  ⟨0xD0000, [], .pf0, .sys, [⟨1, 1, .rw, 1⟩, ⟨0, 0, .rw, 0⟩]⟩,
  ⟨0xD0004, [], .both, .sys, [⟨27, 27, .ro, 0⟩, ⟨26, 24, .ro, 0⟩, ⟨23, 0, .ro, 0⟩]⟩,
  ⟨0xD0008, [], .pf0, .sys, [⟨31, 16, .rw, 5000⟩, ⟨15, 8, .rw, 64⟩, ⟨7, 0, .rw, 192⟩]⟩,
  ⟨0xD000C, [], .pf0, .sys, [⟨24, 24, .rw, 0⟩, ⟨23, 16, .rw, 10⟩, ⟨15, 8, .rw, 0⟩, ⟨2, 2, .rw, 0⟩, ⟨1, 1, .rw, 0⟩, ⟨0, 0, .rw, 0⟩]⟩,
  ⟨0xD0010, [], .both, .sys, [⟨31, 0, .ro, 0⟩]⟩,
  ⟨0xD0014, [], .both, .sys, [⟨31, 0, .ro, 0⟩]⟩,
  ⟨0xD0018, [], .both, .sys, [⟨31, 0, .ro, 0⟩]⟩,
  ⟨0xD001C, [], .both, .sys, [⟨31, 0, .ro, 0⟩]⟩,
  ⟨0xD0020, [], .both, .sys, [⟨31, 0, .ro, 0⟩]⟩,
  ⟨0xD0024, [], .both, .sys, [⟨31, 0, .ro, 0⟩]⟩,
  ⟨0xD0100, [(8, 0x20)], .both, .sys, [⟨31, 16, .ro, 0⟩, ⟨15, 0, .ro, 0⟩]⟩,
  ⟨0xD0104, [(8, 0x20)], .both, .sys, [⟨10, 8, .ro, 0⟩]⟩,
  ⟨0xD0108, [(8, 0x20)], .both, .sys, [⟨13, 0, .ro, 0⟩]⟩,
  ⟨0xD010C, [(8, 0x20)], .both, .sys, [⟨15, 0, .ro, 0⟩]⟩]

/-- Registers of block 0x0E (R20). -/
def regRows0E : List RegRow := [
  ⟨0xE0000, [], .pf0, .sys, [⟨3, 3, .rw, 0⟩, ⟨2, 2, .rw, 1⟩, ⟨1, 1, .rw, 1⟩, ⟨0, 0, .rw, 0⟩]⟩,
  ⟨0xE0004, [], .both, .sys, [⟨31, 24, .ro, 0⟩, ⟨23, 22, .ro, 0⟩, ⟨21, 21, .ro, 0⟩, ⟨20, 20, .ro, 0⟩, ⟨19, 19, .ro, 0⟩, ⟨15, 15, .ro, 0⟩, ⟨14, 14, .ro, 0⟩, ⟨13, 13, .ro, 0⟩, ⟨12, 12, .w1c, 0⟩, ⟨11, 11, .ro, 0⟩, ⟨10, 10, .ro, 0⟩, ⟨9, 9, .ro, 0⟩, ⟨8, 8, .ro, 0⟩, ⟨7, 6, .ro, 0⟩, ⟨5, 5, .ro, 0⟩, ⟨4, 4, .ro, 0⟩, ⟨3, 3, .ro, 0⟩, ⟨2, 2, .ro, 0⟩, ⟨1, 0, .ro, 3⟩]⟩,
  ⟨0xE0008, [], .pf0, .sys, [⟨31, 20, .rw, 400⟩, ⟨19, 16, .rw, 3⟩, ⟨15, 0, .rw, 1000⟩]⟩,
  ⟨0xE000C, [], .pf0, .sys, [⟨31, 16, .rw, 1000⟩, ⟨15, 8, .rw, 20⟩, ⟨7, 0, .rw, 2⟩]⟩,
  ⟨0xE0010, [], .pf0, .sys, [⟨15, 0, .rw, 30⟩]⟩,
  ⟨0xE0014, [], .pf0, .sys, [⟨7, 0, .rw, 239⟩]⟩,
  ⟨0xE0018, [], .both, .sys, [⟨7, 0, .ro, 0⟩]⟩,
  ⟨0xE001C, [], .pf0, .sys, [⟨3, 0, .rw, 6⟩]⟩,
  ⟨0xE0020, [], .pf0, .sys, [⟨15, 8, .rw, 20⟩, ⟨7, 0, .rw, 1⟩]⟩,
  ⟨0xE0024, [], .both, .sys, [⟨31, 0, .ro, 0⟩]⟩,
  ⟨0xE0028, [], .both, .sys, [⟨31, 0, .ro, 0⟩]⟩,
  ⟨0xE002C, [], .both, .sys, [⟨15, 0, .snap, 0⟩]⟩,
  ⟨0xE0030, [], .both, .sys, [⟨31, 0, .ro, 0⟩]⟩,
  ⟨0xE0034, [], .both, .sys, [⟨15, 0, .snap, 0⟩]⟩,
  ⟨0xE0038, [], .both, .sys, [⟨31, 0, .ro, 0⟩]⟩,
  ⟨0xE003C, [], .both, .sys, [⟨31, 0, .ro, 0xffffffff⟩]⟩,
  ⟨0xE0040, [], .both, .sys, [⟨31, 0, .ro, 0⟩]⟩,
  ⟨0xE0044, [(3, 0x4)], .both, .sys, [⟨31, 0, .snap, 0⟩]⟩,
  ⟨0xE0050, [], .both, .sys, [⟨31, 0, .ro, 0⟩]⟩,
  ⟨0xE0054, [], .both, .sys, [⟨31, 0, .snap, 0⟩]⟩,
  ⟨0xE0058, [], .both, .sys, [⟨31, 0, .ro, 0⟩]⟩,
  ⟨0xE005C, [], .both, .sys, [⟨31, 0, .snap, 0⟩]⟩,
  ⟨0xE0060, [], .both, .sys, [⟨31, 0, .ro, 0⟩]⟩,
  ⟨0xE0064, [], .both, .sys, [⟨31, 0, .ro, 0⟩]⟩,
  ⟨0xE0068, [], .both, .sys, [⟨31, 0, .ro, 0⟩]⟩,
  ⟨0xE006C, [], .both, .sys, [⟨31, 0, .ro, 0⟩]⟩,
  ⟨0xE0070, [], .both, .sys, [⟨31, 0, .ro, 0⟩]⟩,
  ⟨0xE0074, [], .both, .sys, [⟨31, 0, .ro, 0⟩]⟩,
  ⟨0xE0078, [], .both, .sys, [⟨31, 0, .ro, 0⟩]⟩,
  ⟨0xE007C, [], .both, .sys, [⟨31, 0, .ro, 0⟩]⟩]

/-- Registers of block 0x0F (R20). -/
def regRows0F : List RegRow := [
  ⟨0xF0000, [], .ring, .pcie, [⟨1, 1, .wo, 0⟩, ⟨0, 0, .rw, 0⟩]⟩,
  ⟨0xF0004, [], .ring, .pcie, [⟨15, 8, .ro, 0⟩, ⟨3, 3, .ro, 0⟩, ⟨2, 2, .ro, 0⟩, ⟨1, 1, .ro, 0⟩, ⟨0, 0, .ro, 0⟩]⟩,
  ⟨0xF0008, [], .ring, .pcie, [⟨31, 0, .rw, 0⟩]⟩,
  ⟨0xF000C, [], .ring, .pcie, [⟨31, 0, .rw, 0⟩]⟩,
  ⟨0xF0010, [], .ring, .pcie, [⟨12, 0, .rw, 0⟩]⟩,
  ⟨0xF0014, [], .ring, .pcie, [⟨31, 0, .rw, 0⟩]⟩,
  ⟨0xF0018, [], .ring, .pcie, [⟨31, 0, .ro, 0⟩]⟩,
  ⟨0xF001C, [], .ring, .pcie, [⟨31, 0, .ro, 0⟩]⟩,
  ⟨0xF0020, [], .ring, .pcie, [⟨31, 0, .rw, 0⟩]⟩,
  ⟨0xF0024, [], .ring, .pcie, [⟨31, 0, .rw, 0⟩]⟩,
  ⟨0xF0028, [], .ring, .pcie, [⟨12, 0, .rw, 0⟩]⟩,
  ⟨0xF002C, [], .ring, .pcie, [⟨31, 0, .ro, 0⟩]⟩,
  ⟨0xF0030, [], .ring, .pcie, [⟨31, 0, .rw, 0⟩]⟩,
  ⟨0xF0034, [], .ring, .pcie, [⟨31, 0, .rw, 0⟩]⟩,
  ⟨0xF0038, [], .ring, .pcie, [⟨31, 0, .rw, 0⟩]⟩,
  ⟨0xF003C, [], .ring, .pcie, [⟨2, 0, .ro, 0⟩]⟩,
  ⟨0xF0100, [], .pf0, .sys, [⟨31, 0, .ro, 0⟩]⟩,
  ⟨0xF0104, [], .pf0, .sys, [⟨31, 0, .ro, 0⟩]⟩,
  ⟨0xF0108, [], .pf0, .sys, [⟨31, 16, .ro, 0⟩, ⟨2, 2, .ro, 0⟩, ⟨1, 1, .ro, 0⟩, ⟨0, 0, .ro, 0⟩]⟩,
  ⟨0xF010C, [], .pf0, .sys, [⟨31, 0, .ro, 0⟩]⟩,
  ⟨0xF0110, [], .pf0, .sys, [⟨31, 0, .ro, 0⟩]⟩,
  ⟨0xF0120, [], .pf0, .sys, [⟨15, 0, .ro, 0⟩]⟩,
  ⟨0xF0124, [], .pf0, .sys, [⟨31, 0, .ro, 0⟩]⟩,
  ⟨0xF0128, [], .pf0, .sys, [⟨31, 0, .ro, 0⟩]⟩]

/-- Registers of block 0x10 (R20). -/
def regRows10 : List RegRow := [
  ⟨0x100004, [], .both, .sys, [⟨1, 1, .ro, 0⟩, ⟨0, 0, .w1c, 0⟩]⟩,
  ⟨0x100008, [], .both, .sys, [⟨1, 1, .ro, 1⟩, ⟨0, 0, .ro, 1⟩]⟩,
  ⟨0x100010, [(4, 0x4)], .both, .sys, [⟨31, 0, .hws, 0⟩]⟩,
  ⟨0x100020, [(4, 0x4)], .pf0, .sys, [⟨31, 0, .rw, 0xffffffff⟩]⟩,
  ⟨0x100030, [(4, 0x4)], .both, .sys, [⟨31, 0, .ro, 0⟩]⟩,
  ⟨0x100100, [(128, 0x4)], .pf0, .sys, [⟨28, 26, .rw, 0⟩, ⟨25, 24, .rw, 0⟩, ⟨20, 16, .rw, 0⟩, ⟨15, 15, .rw, 0⟩, ⟨10, 8, .rw, 0⟩, ⟨2, 0, .rw, 0⟩]⟩,
  ⟨0x100300, [(128, 0x4)], .pf0, .sys, [⟨31, 16, .rw, 0⟩, ⟨7, 0, .rw, 0⟩]⟩,
  ⟨0x100500, [(64, 0x4)], .both, .sys, [⟨31, 16, .ro, 0⟩, ⟨15, 0, .ro, 0⟩]⟩]

/-- Registers of block 0x11 (R20). -/
def regRows11 : List RegRow := [
  ⟨0x110000, [], .pf0, .sys, [⟨0, 0, .rw, 0⟩]⟩,
  ⟨0x110004, [], .both, .sys, [⟨26, 16, .ro, 0⟩, ⟨1, 1, .ro, 0⟩, ⟨0, 0, .ro, 0⟩]⟩,
  ⟨0x110008, [], .both, .sys, [⟨31, 0, .ro, 0⟩]⟩,
  ⟨0x11000C, [], .both, .sys, [⟨31, 0, .ro, 0⟩]⟩,
  ⟨0x110010, [], .pf0, .sys, [⟨31, 16, .rw, 16⟩, ⟨15, 0, .rw, 10⟩]⟩,
  ⟨0x110014, [], .pf0, .sys, [⟨15, 0, .rw, 1000⟩]⟩,
  ⟨0x110018, [], .both, .sys, [⟨31, 0, .ro, 0⟩]⟩,
  ⟨0x11001C, [], .both, .sys, [⟨31, 0, .ro, 0⟩]⟩,
  ⟨0x110020, [], .both, .sys, [⟨31, 0, .ro, 0⟩]⟩,
  ⟨0x110024, [], .both, .sys, [⟨31, 0, .ro, 0⟩]⟩,
  ⟨0x110028, [], .both, .sys, [⟨13, 8, .ro, 0⟩, ⟨6, 0, .ro, 0⟩]⟩]

/-- Registers of block 0x12 (R20). -/
def regRows12 : List RegRow := [
  ⟨0x120000, [], .pf0, .sys, [⟨0, 0, .rw, 1⟩]⟩,
  ⟨0x120004, [], .both, .sys, [⟨31, 24, .ro, 0⟩, ⟨23, 16, .ro, 0⟩, ⟨4, 4, .w1c, 0⟩, ⟨3, 3, .ro, 0⟩, ⟨2, 2, .ro, 0⟩, ⟨1, 1, .w1c, 0⟩, ⟨0, 0, .ro, 1⟩]⟩,
  ⟨0x120008, [], .both, .sys, [⟨31, 24, .ro, 0⟩, ⟨15, 0, .ro, 206⟩]⟩,
  ⟨0x12000C, [], .both, .sys, [⟨31, 0, .ro, 0⟩]⟩,
  ⟨0x120010, [], .both, .sys, [⟨31, 0, .hws, 0⟩]⟩,
  ⟨0x120020, [], .both, .sys, [⟨31, 0, .ro, 0⟩]⟩,
  ⟨0x120024, [], .both, .sys, [⟨31, 0, .ro, 0⟩]⟩,
  ⟨0x120028, [], .both, .sys, [⟨31, 0, .ro, 0⟩]⟩,
  ⟨0x12002C, [], .both, .sys, [⟨31, 0, .ro, 0⟩]⟩,
  ⟨0x120030, [], .both, .sys, [⟨31, 0, .ro, 0⟩]⟩,
  ⟨0x120040, [], .both, .sys, [⟨31, 0, .ro, 0⟩]⟩,
  ⟨0x120044, [], .both, .sys, [⟨31, 30, .snap, 0⟩, ⟨29, 29, .snap, 0⟩, ⟨6, 0, .snap, 0⟩]⟩,
  ⟨0x120050, [], .sel, .sys, [⟨3, 0, .rw, 0⟩]⟩,
  ⟨0x120054, [], .both, .sys, [⟨31, 31, .ro, 0⟩, ⟨12, 0, .ro, 0⟩]⟩,
  ⟨0x120060, [], .sel, .sys, [⟨7, 0, .rw, 0⟩]⟩,
  ⟨0x120064, [], .both, .sys, [⟨31, 0, .ro, 0⟩]⟩,
  ⟨0x120068, [], .both, .sys, [⟨13, 0, .ro, 0⟩]⟩]

/-- Registers of block 0x13 (R20). -/
def regRows13 : List RegRow := [
  ⟨0x130000, [], .pf0, .sys, [⟨1, 1, .rw, 0⟩, ⟨0, 0, .rw, 0⟩]⟩,
  ⟨0x130004, [], .both, .sys, [⟨25, 16, .ro, 0⟩, ⟨15, 8, .ro, 0⟩, ⟨6, 6, .ro, 0⟩, ⟨5, 5, .ro, 0⟩, ⟨4, 4, .ro, 0⟩, ⟨3, 3, .ro, 0⟩, ⟨2, 2, .ro, 0⟩, ⟨1, 1, .ro, 0⟩, ⟨0, 0, .ro, 0⟩]⟩,
  ⟨0x130008, [], .both, .aon, [⟨31, 0, .ro, 0⟩]⟩,
  ⟨0x13000C, [], .both, .sys, [⟨15, 0, .rw, 3600⟩]⟩,
  ⟨0x130010, [], .both, .sys, [⟨31, 0, .ro, 0⟩]⟩,
  ⟨0x130014, [], .both, .sys, [⟨31, 0, .ro, 0⟩]⟩,
  ⟨0x130018, [], .both, .sys, [⟨31, 0, .ro, 0⟩]⟩,
  ⟨0x13001C, [], .both, .sys, [⟨31, 0, .ro, 0⟩]⟩,
  ⟨0x130020, [], .sel, .aon, [⟨7, 0, .rw, 0⟩]⟩,
  ⟨0x130024, [], .both, .aon, [⟨16, 16, .ro, 0⟩, ⟨15, 0, .ro, 0⟩]⟩,
  ⟨0x130030, [], .sel, .sys, [⟨8, 0, .rw, 0⟩]⟩,
  ⟨0x130034, [], .both, .sys, [⟨31, 30, .ro, 0⟩, ⟨29, 28, .ro, 0⟩, ⟨27, 26, .ro, 0⟩, ⟨23, 16, .ro, 0⟩, ⟨15, 0, .ro, 0⟩]⟩,
  ⟨0x130038, [], .both, .sys, [⟨31, 0, .snap, 0⟩]⟩,
  ⟨0x130100, [], .pf0, .aon, [⟨31, 31, .rw, 0⟩, ⟨19, 0, .rw, 0⟩]⟩,
  ⟨0x130104, [], .pf0, .aon, [⟨19, 4, .rw, 8738⟩, ⟨3, 0, .rw, 0⟩]⟩,
  ⟨0x130108, [], .pf0, .aon, [⟨7, 4, .rw, 2⟩, ⟨1, 0, .rw, 0⟩]⟩,
  ⟨0x13010C, [], .both, .aon, [⟨9, 0, .w1c, 0⟩]⟩,
  ⟨0x130110, [], .both, .aon, [⟨9, 0, .ro, 0⟩]⟩,
  ⟨0x130114, [], .both, .aon, [⟨31, 0, .ro, 0⟩]⟩]

/-- Registers of block 0x14 (R20). -/
def regRows14 : List RegRow := [
  ⟨0x140000, [], .both, .sys, [⟨15, 8, .ro, 0⟩, ⟨7, 7, .ro, 0⟩, ⟨6, 6, .ro, 0⟩, ⟨5, 5, .ro, 0⟩, ⟨4, 4, .ro, 0⟩, ⟨3, 1, .ro, 0⟩, ⟨0, 0, .ro, 0⟩]⟩,
  ⟨0x140004, [], .both, .aon, [⟨6, 0, .ro, 0⟩]⟩,
  ⟨0x140008, [], .both, .aon, [⟨31, 0, .ro, 0⟩]⟩,
  ⟨0x14000C, [], .pf0, .aon, [⟨11, 8, .rw, 3⟩, ⟨3, 0, .ro, 0⟩]⟩,
  ⟨0x140010, [], .pf0, .sys, [⟨15, 0, .rw, 2000⟩]⟩,
  ⟨0x140014, [], .both, .por, [⟨6, 0, .ro, 0⟩]⟩,
  ⟨0x140020, [], .pf0, .sys, [⟨31, 0, .rw, 0⟩]⟩,
  ⟨0x140024, [], .pf0, .sys, [⟨31, 0, .rw, 0⟩]⟩,
  ⟨0x140028, [], .pf0, .sys, [⟨18, 0, .rw, 0⟩]⟩,
  ⟨0x14002C, [], .pf0, .sys, [⟨0, 0, .wo, 0⟩]⟩,
  ⟨0x140100, [], .both, .sys, [⟨3, 3, .ro, 0⟩, ⟨2, 2, .ro, 0⟩, ⟨1, 1, .ro, 0⟩, ⟨0, 0, .ro, 1⟩]⟩,
  ⟨0x140104, [], .pf0, .sys, [⟨15, 0, .rw, 30⟩]⟩,
  ⟨0x140108, [], .both, .aon, [⟨31, 0, .ro, 0⟩]⟩,
  ⟨0x14010C, [], .both, .aon, [⟨31, 0, .ro, 0⟩]⟩,
  ⟨0x140200, [], .both, .sys, [⟨15, 8, .ro, 0⟩, ⟨5, 4, .ro, 0⟩, ⟨3, 0, .ro, 0⟩]⟩,
  ⟨0x140204, [], .both, .sys, [⟨31, 0, .ro, 0⟩]⟩,
  ⟨0x140208, [], .both, .sys, [⟨31, 0, .ro, 0⟩]⟩,
  ⟨0x14020C, [], .both, .sys, [⟨31, 0, .ro, 0⟩]⟩]

/-- Registers of block 0x15 (R20). -/
def regRows15 : List RegRow := [
  ⟨0x150000, [], .both, .sys, [⟨9, 0, .ro, 0⟩]⟩,
  ⟨0x150004, [], .pf0, .sys, [⟨0, 0, .wo, 0⟩]⟩]

/-- Registers of block 0x89 (R20). -/
def regRows89 : List RegRow := [
  ⟨0x890A00, [], .pf0, .sys, [⟨17, 17, .ro, 1⟩, ⟨16, 16, .ro, 1⟩, ⟨15, 8, .rw, 2⟩, ⟨3, 3, .rw, 0⟩, ⟨2, 2, .rw, 0⟩, ⟨1, 1, .rw, 0⟩, ⟨0, 0, .rw, 0⟩]⟩,
  ⟨0x890A04, [], .pf0, .sys, [⟨31, 0, .ro, 0⟩]⟩,
  ⟨0x890A08, [], .pf0, .sys, [⟨31, 0, .snap, 0⟩]⟩,
  ⟨0x890A0C, [], .pf0, .sys, [⟨31, 0, .snap, 0⟩]⟩,
  ⟨0x890A10, [], .pf0, .sys, [⟨31, 16, .ro, 0⟩, ⟨15, 0, .ro, 0⟩]⟩]

/-- The rows of block k. -/
def regRows (k : Nat) : List RegRow :=
  match k with
  | 0x00 => regRows00
  | 0x01 => regRows01
  | 0x02 => regRows02
  | 0x03 => regRows03
  | 0x04 => regRows04
  | 0x05 => regRows05
  | 0x06 => regRows06
  | 0x07 => regRows07
  | 0x08 => regRows08
  | 0x09 => regRows09
  | 0x0A => regRows0A
  | 0x0B => regRows0B
  | 0x0C => regRows0C
  | 0x0D => regRows0D
  | 0x0E => regRows0E
  | 0x0F => regRows0F
  | 0x10 => regRows10
  | 0x11 => regRows11
  | 0x12 => regRows12
  | 0x13 => regRows13
  | 0x14 => regRows14
  | 0x15 => regRows15
  | 0x89 => regRows89
  | _ => []

/-- Non-zero reset values of domain AON, part 0. -/
def resetImageAon0 : List (Nat × Dword) := [
  (0x130104, 0x22220), (0x130108, 0x20), (0x14000C, 0x300)]

/-- Every register of domain AON whose reset value is not zero, with that value, by rising offset. -/
def resetImageAon : List (Nat × Dword) := resetImageAon0

/-- Every register of domain POR whose reset value is not zero, with that value, by rising offset. -/
def resetImagePor : List (Nat × Dword) := []

/-- Non-zero reset values of domain SYS, part 0. -/
def resetImageSys0 : List (Nat × Dword) := [
  (0x10030, 0xD5555555), (0x10034, 0x208), (0x10050, 0xF4240), (0x10064, 0xFFFFFF00), (0x10068, 0x7D0), (0x1006C, 0x3E8),
  (0x10070, 0x61A8), (0x10074, 0xFFFFFFFF), (0x10078, 0xF), (0x20000, 0xA8), (0x20008, 0x5F2), (0x20040, 0xFFFF),
  (0x20044, 0x10014), (0x20048, 0x600040), (0x20050, 0x80), (0x20054, 0x80), (0x20058, 0x80), (0x2005C, 0x80),
  (0x20060, 0x80), (0x20064, 0x80), (0x20068, 0x80), (0x2006C, 0x80), (0x20080, 0x2), (0x22000, 0xA8),
  (0x22008, 0x5F2), (0x22040, 0xFFFF), (0x22044, 0x10014), (0x22048, 0x600040), (0x22050, 0x80), (0x22054, 0x80),
  (0x22058, 0x80), (0x2205C, 0x80), (0x22060, 0x80), (0x22064, 0x80), (0x22068, 0x80), (0x2206C, 0x80),
  (0x22080, 0x2), (0x24000, 0xA8), (0x24008, 0x5F2), (0x24040, 0xFFFF), (0x24044, 0x10014), (0x24048, 0x600040),
  (0x24050, 0x80), (0x24054, 0x80), (0x24058, 0x80), (0x2405C, 0x80), (0x24060, 0x80), (0x24064, 0x80),
  (0x24068, 0x80), (0x2406C, 0x80), (0x24080, 0x2), (0x26000, 0xA8), (0x26008, 0x5F2), (0x26040, 0xFFFF),
  (0x26044, 0x10014), (0x26048, 0x600040), (0x26050, 0x80), (0x26054, 0x80), (0x26058, 0x80), (0x2605C, 0x80)]

/-- Non-zero reset values of domain SYS, part 1. -/
def resetImageSys1 : List (Nat × Dword) := [
  (0x26060, 0x80), (0x26064, 0x80), (0x26068, 0x80), (0x2606C, 0x80), (0x26080, 0x2), (0x28000, 0x98),
  (0x28008, 0x5F2), (0x28040, 0xFFFF), (0x28044, 0x10014), (0x28048, 0x180010), (0x28050, 0x20), (0x28054, 0x20),
  (0x28058, 0x20), (0x2805C, 0x20), (0x28060, 0x20), (0x28064, 0x20), (0x28068, 0x20), (0x2806C, 0x20),
  (0x28070, 0x10), (0x28080, 0x2), (0x2A004, 0x190), (0x2A008, 0x7D0), (0x2A010, 0x18), (0x30000, 0x140004),
  (0x30008, 0x100000FA), (0x30010, 0x1269), (0x40004, 0x2000), (0x40040, 0x11400), (0x40044, 0x10100), (0x40048, 0x10400),
  (0x4004C, 0x10400), (0x40050, 0x80), (0x40054, 0x180), (0x40058, 0x40), (0x4005C, 0xC0), (0x400A0, 0xEA60),
  (0x400A4, 0x64), (0x400A8, 0x3E8), (0x41000, 0x4000000), (0x41008, 0x7D0), (0x4100C, 0x1), (0x41080, 0x4000000),
  (0x41088, 0x7D0), (0x4108C, 0x1), (0x41100, 0x4000000), (0x41108, 0x7D0), (0x4110C, 0x1), (0x41180, 0x4000000),
  (0x41188, 0x7D0), (0x4118C, 0x1), (0x41200, 0x4000000), (0x41208, 0x7D0), (0x4120C, 0x1), (0x41280, 0x4000000),
  (0x41288, 0x7D0), (0x4128C, 0x1), (0x41300, 0x4000000), (0x41308, 0x7D0), (0x4130C, 0x1), (0x41380, 0x4000000)]

/-- Non-zero reset values of domain SYS, part 2. -/
def resetImageSys2 : List (Nat × Dword) := [
  (0x41388, 0x7D0), (0x4138C, 0x1), (0x41400, 0x4000000), (0x41408, 0x7D0), (0x4140C, 0x1), (0x41480, 0x4000000),
  (0x41488, 0x7D0), (0x4148C, 0x1), (0x41500, 0x4000000), (0x41508, 0x7D0), (0x4150C, 0x1), (0x41580, 0x4000000),
  (0x41588, 0x7D0), (0x4158C, 0x1), (0x41600, 0x4000000), (0x41608, 0x7D0), (0x4160C, 0x1), (0x41680, 0x4000000),
  (0x41688, 0x7D0), (0x4168C, 0x1), (0x41700, 0x4000000), (0x41708, 0x7D0), (0x4170C, 0x1), (0x41780, 0x4000000),
  (0x41788, 0x7D0), (0x4178C, 0x1), (0x50000, 0x6), (0x50004, 0x9000000), (0x50010, 0x1F4), (0x50014, 0xC350),
  (0x50018, 0x4E20), (0x50020, 0xFA200078), (0x50024, 0x3E801F4), (0x50028, 0x2008), (0x5002C, 0xA), (0x50030, 0x3E8),
  (0x60000, 0x6), (0x60024, 0x64), (0x60028, 0x3F0), (0x60040, 0x14300000), (0x60044, 0x14300000), (0x60048, 0x14300000),
  (0x6004C, 0x14300000), (0x60050, 0x14300000), (0x60054, 0x14300000), (0x60058, 0x14300000), (0x6005C, 0x14300000), (0x60080, 0x100),
  (0x70000, 0x2), (0x70008, 0x802), (0x7000C, 0xC), (0x70010, 0x78), (0x70014, 0x4000100), (0x70018, 0x3FF),
  (0x80000, 0xE), (0x80008, 0xBB80010), (0x8000C, 0x80), (0x80010, 0x60102078), (0x80014, 0x1E0A1408), (0x8001C, 0xA330032)]

/-- Non-zero reset values of domain SYS, part 3. -/
def resetImageSys3 : List (Nat × Dword) := [
  (0x80020, 0xD0032), (0x80024, 0xF018), (0x80028, 0x1000100), (0x90008, 0x3C), (0x90800, 0x8062E), (0x9080C, 0x20064),
  (0x90920, 0x3FFFFC00), (0x90940, 0x3FFFFC00), (0x90960, 0x3FFFFC00), (0x90980, 0x3FFFFC00), (0x909A0, 0x3FFFFC00), (0x909C0, 0x3FFFFC00),
  (0x909E0, 0x3FFFFC00), (0x90A00, 0x3FFFFC00), (0x90A20, 0x3FFFFC00), (0x90A40, 0x3FFFFC00), (0x90A60, 0x3FFFFC00), (0x90A80, 0x3FFFFC00),
  (0x90AA0, 0x3FFFFC00), (0x90AC0, 0x3FFFFC00), (0x90AE0, 0x3FFFFC00), (0xA0000, 0x4), (0xA0040, 0x90000), (0xA0044, 0x90000),
  (0xA0048, 0x90000), (0xA004C, 0x90000), (0xA0050, 0x90000), (0xA0054, 0x90000), (0xA0058, 0x90000), (0xA005C, 0x90000),
  (0xA0080, 0x9A00CD), (0xA0084, 0xC80005), (0xA00A0, 0x100000), (0xA00A4, 0x100000), (0xA00A8, 0x100000), (0xA00AC, 0x100000),
  (0xA00B0, 0x100000), (0xA00B4, 0x100000), (0xA00B8, 0x100000), (0xA00BC, 0x100000), (0xA00D4, 0x10101), (0xA00D8, 0x10101),
  (0xA00E0, 0x806DC), (0xA00E4, 0x3E6DC), (0xA00E8, 0x1D6DC), (0xB0000, 0x2), (0xB0008, 0x3201F400), (0xB000C, 0x64),
  (0xB0010, 0x64), (0xB0040, 0xF0), (0xB0044, 0xF0), (0xB0048, 0xF0), (0xB004C, 0xF0), (0xB0050, 0xF0),
  (0xB0054, 0xF0), (0xB0058, 0xF0), (0xB005C, 0xF0), (0xC0000, 0x6), (0xC0008, 0x3C03E8), (0xD0000, 0x2)]

/-- Non-zero reset values of domain SYS, part 4. -/
def resetImageSys4 : List (Nat × Dword) := [
  (0xD0008, 0x138840C0), (0xD000C, 0xA0000), (0xE0000, 0x6), (0xE0004, 0x3), (0xE0008, 0x190303E8), (0xE000C, 0x3E81402),
  (0xE0010, 0x1E), (0xE0014, 0xEF), (0xE001C, 0x6), (0xE0020, 0x1401), (0xE003C, 0xFFFFFFFF), (0x100008, 0x3),
  (0x100020, 0xFFFFFFFF), (0x100024, 0xFFFFFFFF), (0x100028, 0xFFFFFFFF), (0x10002C, 0xFFFFFFFF), (0x110010, 0x10000A), (0x110014, 0x3E8),
  (0x120000, 0x1), (0x120004, 0x1), (0x120008, 0xCE), (0x13000C, 0xE10), (0x140010, 0x7D0), (0x140100, 0x1),
  (0x140104, 0x1E), (0x890A00, 0x30200)]

/-- Every register of domain SYS whose reset value is not zero, with that value, by rising offset. -/
def resetImageSys : List (Nat × Dword) := resetImageSys0 ++ resetImageSys1 ++ resetImageSys2 ++ resetImageSys3 ++ resetImageSys4

/-- Every register of domain PCIE whose reset value is not zero, with that value, by rising offset. -/
def resetImagePcie : List (Nat × Dword) := []

/-- Does the row hold the address: base + Σ index × stride with every index in range. -/
def dimsHold : List (Nat × Nat) → Nat → Bool
  | [], o => o == 0
  | (n, st) :: ds, o => o / st < n && dimsHold ds (o % st)

/-- The row of the register at an offset of PF0 BAR0, if a register lies there (R18). -/
def regRow? (a : Nat) : Option RegRow :=
  (regRows (a / 0x10000)).find? fun r => decide (r.base ≤ a) && dimsHold r.dims (a - r.base)

end Sys2Proof.Machine
end

