-- ==== Sys2Proof/Machine/Types.lean ====
section
/-!
DEFINITION. Sys2Proof/Machine/Types.lean: the types of the state's parts, first half: the Sett, time, ingest, alignment,
commands, interrupts, events, outputs.
-/
namespace Sys2Proof.Machine

/-! ### The Sett (R100 to R118) -/

/-- A Sett word: 72 data bits and the two out-of-band flags (R100). -/
structure SWord where
  v : W72
  eop : Bool
  poison : Bool
  deriving DecidableEq, Repr

/-- Who keeps a page from being freed (R110, R111). -/
inductive Holder where
  | inst                 -- an instant in flight, or a released set not yet handed on
  | engine (e : Nat)     -- 0 limit-and-angle, 1 island, 2 oscillation
  | group (g : Nat)      -- an output group
  | cascade              -- the cascade builder
  | queue (q : Nat)      -- host queue q
  | ring                 -- the event ring
  | capture (n : Nat)    -- capture handle n
  | digest (n : Nat)     -- cascade digest n
  | handover             -- the firmware's handover block
  deriving DecidableEq, Repr

/-- An allocated page (R103, R104): its physical number, the class charged, the words written so far, its holders,
and whether a HOSTQ charge is reserved for it that has not moved yet (R110, R118). -/
structure Page where
  phys : Nat
  cls : Nat
  words : List SWord
  holders : List Holder
  reserved : Bool
  deriving DecidableEq, Repr

/-- Where a record lies: page id, first word, number of words; with its stream index. -/
structure Ref where
  sidx : Nat
  page : Nat
  ofs : Nat
  n : Nat
  deriving DecidableEq, Repr

/-- A packet held in a host queue: the source bit of SET_HQ_SRC_q it came from and its records in order. `cap` is the
capture handle of a capture packet. -/
structure Pkt where
  src : Nat
  parts : List Ref
  pages : List Nat
  cap : Option Nat
  deriving DecidableEq, Repr

/-- A host queue beside its registers (R118 to R124): packets held, oldest first; words of the oldest already
delivered; start or last renewal of the lease; the last word popped with its flag byte. -/
structure HostQ where
  pkts : List Pkt
  sent : Nat
  leaseAt : Nat
  last : Nat × Nat
  deriving DecidableEq, Repr

/-- The Sett: allocated pages by id, next id, retired pages, the page last handed out (R105), when each class last
logged EV_SET_QUOTA_FULL, the queues, the word latch of each reading agent for the window and for queue data (R115):
key, value = (word address or queue, low bytes as one number with the flag byte above). -/
structure Sett where
  pages : List (Nat × Page)
  nextId : Nat
  retired : List Nat
  lastPhys : Option Nat
  quotaLog : List (Nat × Nat)
  queues : List (Nat × HostQ)
  winLatch : List (Nat × (Nat × Nat))
  hqLatch : List (Nat × (Nat × Nat))
  deriving DecidableEq, Repr

/-! ### Agents' latches and held pair writes (R16, R17, R405) -/

/-- The dwords an agent has written of one pair, with the tick of the first held write. -/
structure Held where
  agent : Agent
  base : Nat
  dwords : List (Nat × Dword)
  since : Nat
  deriving DecidableEq, Repr

/-! ### Shadow, pending and effective copies (R417, R418) -/

/-- One configuration table in its three copies: the shadow, the dirty items since the last accepted commit, the
items a commit has prepared, those whose boundary has passed but which their block has not taken up yet, by the tag of
their epoch, and the items in effect. A prepared item is none where it was removed. -/
structure Tbl (α : Type) where
  shadow : List (Nat × α)
  dirty : List Nat
  pend : List (Nat × Option α)
  due : List (Nat × List (Nat × Option α))
  eff : List (Nat × α)
  deriving DecidableEq, Repr

/-! ### Time base (R44 to R71) -/

/-- A timestamp queue entry (R63): TAI time in units of 2^-40 ns, direction (true: transmit), messageType, domainNumber,
sequenceId. -/
structure TsqEntry where
  time : Nat
  tx : Bool
  msgType : Nat
  domain : Nat
  seqId : Nat
  deriving DecidableEq, Repr

/-- PTP_CFG as accepted (R59). -/
structure PtpCfg where
  ports : Nat
  domain : Nat
  twoStep : Nat
  logSync : Int
  lossCount : Nat
  flags : Nat
  vlan : Nat
  deriving DecidableEq, Repr

/-- Time base state: the TIME count since power was first applied and the count at the last SYS reset (TIM_CNT is
their difference, R54); the local-time anchor (R47), none before seeding; the anchors it had before, newest first, each with the tick until
which it held and its TIM_INCR, so that a stamp taken before a correction keeps its time (R56); whether and when TIM_SERVO was last written, and
from when the servo timeout counts (R66); whether a source has locked since the SYS reset (R68); when HOLD was set and U
last recomputed (R67); PPS_IN's last two captures as (tick, local time), newest first; the tick of
the last good IRIG-B frame; PPS_OUT's level and next rise; the
timestamp queues; of the last PTP event message sent, by 16 × port + messageType, the sequenceId and whether its transmit completion carries
the mark "no timestamp" (R64); the requestingPortIdentity of each Pdelay_Req answered in two-step mode, by 65 536 × port + sequenceId (R59);
PTP settings in use and those waiting for the next Sync interval (R59); the coarse real-time clock's
seconds at a count (R54). -/
structure Tim where
  now : Nat
  base : Nat
  anchor : Option (Nat × Nat)
  past : List (Nat × Nat × Nat × Nat)
  servoAt : Option Nat
  servoFrom : Nat
  everLocked : Bool
  holdAt : Nat
  uncAt : Nat
  ppsHist : List (Nat × Nat)
  irigAt : Option Nat
  ppsHigh : Bool
  ppsFallAt : Nat
  ppsNext : Nat
  tsq : List (Nat × List TsqEntry)
  sentMark : List (Nat × (Nat × Bool))
  reqId : List (Nat × Nat)
  ptp : Option PtpCfg
  ptpNext : Option PtpCfg
  rtcBase : Nat
  rtcFrom : Nat
  deriving DecidableEq, Repr

/-! ### Stream ingest (R72 to R99) -/

/-- A stream table entry (R76); `learned` says that a LEARN entry has its format (R94). Scales are float32 patterns. -/
structure Stream where
  idcode : Nat
  udpPort : Nat
  cmdPort : Nat
  addr : Nat
  flags : Nat
  rate : Nat
  format : Nat
  fnom : Nat
  phnmr : Nat
  annmr : Nat
  dgnmr : Nat
  block : Nat
  nblocks : Nat
  blockOfs : Nat
  frameSize : Nat
  keyGroup : Nat
  timeBase : Nat
  scale : List Nat
  learned : Bool
  /-- written by STREAM_ADD or STREAM_CFG_LOAD since the last boundary: every per-stream state restarts (R536) -/
  fresh : Bool
  deriving DecidableEq, Repr

/-- Per-stream run-time state: the STREAM_STATS block (R157), the slot window (R85), the replay window (R84), the
latency histogram (R93) and the alignment state (R146 to R150). -/
structure SStat where
  epoch : Nat
  auth : Nat
  accepted : Nat
  cnt : List Nat
  newest : Option Nat
  map : Nat
  newestTag : Nat × Nat
  staleRun : Nat
  keyId : Option Nat
  spduHigh : Nat
  spduMap : Nat
  lastArrival : Nat
  latLast : Int
  latMin : Int
  latMax : Int
  cfgchg : Nat
  bit10 : Option Bool
  hist : List Nat
  wait : Nat
  miss : Nat
  demoted : Bool
  streak : Nat
  demotions : Nat
  placed : Nat
  placeholder : Nat
  offcad : Nat
  between : Nat
  demsupp : Nat
  ahead : Nat
  dupinst : Nat
  dsfall : Nat
  /-- the stretches of instants for which the stream is or was demoted, newest first: from the first, to before the second (ns of UTC) -/
  dem : List (Nat × Option Nat)
  /-- instants still to open for which a demoted stream's record has been committed (ns of UTC), for R150 -/
  demEarly : List Nat
  /-- the boundary B at which the present content took effect, and whether it added the entry (R87) -/
  inB : Option (Nat × Nat)
  added : Bool
  deriving DecidableEq, Repr

/-- An old stream entry kept for 64 reporting intervals after the boundary that replaced or deleted it (R87): the boundary, the tick until
which it is kept, the boundary at which its own content took effect and whether that one added the entry, and the stretches for which the
stream was demoted up to the boundary where its state restarted there. -/
structure OldEntry where
  entry : Stream
  bSoc : Nat
  bNs : Nat
  untilTick : Nat
  inB : Option (Nat × Nat)
  added : Bool
  dem : List (Nat × Option Nat)
  deriving DecidableEq, Repr

/-- A datagram dispatched to ingest (R344): port, the tick at which it was complete, arrival time (TAI, 2^-40 ns, R56), IP packet bytes. -/
structure RxDatagram where
  port : Nat
  tick : Nat
  arrival : Nat
  packet : List Byte
  deriving DecidableEq, Repr

/-- A frame in the firmware's queue: port, kind (what dispatched it), bytes, arrival time, "no timestamp" mark (R64). -/
structure FwFrame where
  port : Nat
  kind : Nat
  arrival : Nat
  noTs : Bool
  bytes : List Byte
  deriving DecidableEq, Repr

/-- Ingest state: the stream table in three copies, per-stream state, that of entries which start afresh at the pending boundary (R536), old
entries by SIDX, newest first, datagrams waiting for ingest, frames waiting for the firmware, entries for which a CFG-2 request is due and when
the last was sent, learned formats waiting for the next instant boundary. -/
structure Ing where
  streams : Tbl Stream
  stat : List (Nat × SStat)
  statNext : List (Nat × SStat)
  old : List (Nat × List OldEntry)
  rxq : List RxDatagram
  fwq : List FwFrame
  cfgDue : List Nat
  cfgSent : List (Nat × Nat)
  learnNext : List (Nat × Stream)
  deriving DecidableEq, Repr

/-! ### Alignment (R131 to R159) -/

/-- A stream's WAIT_POLICY settings: fixed wait in µs if fixed, MEAN down-sampling, NODEMOTE, and a promotion to
carry out at the boundary. -/
structure Policy where
  fixed : Option Nat
  mean : Bool
  nodemote : Bool
  promote : Bool
  deriving DecidableEq, Repr

/-- A record held in a MEAN window of an open instant (R151): offset in slots from the centre, its words and arrival
(TAI ns). -/
structure WinRec where
  sidx : Nat
  j : Int
  words : List SWord
  arrival : Nat
  deriving DecidableEq, Repr

/-- Why an instant became READY (R141, R145). -/
inductive Cause where
  | all | deadline | forced
  deriving DecidableEq, Repr

/-- An instant in flight (R134, R139, R141): instant k of second soc at the rate code, its NS, epoch tag and deadline; w_eff;
MEMBER and EXPECTED; the members down-sampled by MEAN, with N; the streams that arrived, and the demoted members whose record came in
time (R150); GAP and FLAGS of its header; READY when `cause` is some; its records with the phasors, analogs and digitals of each stream's,
MEAN windows and pages; the tag of the instant opened or skipped before it. -/
structure Inst where
  soc : Nat
  k : Nat
  ns : Nat
  rate : Nat
  epoch : Nat
  deadline : Nat
  waitEff : Nat
  member : List Nat
  expected : List Nat
  mean : List (Nat × Nat)
  arrived : List Nat
  demArr : List Nat
  gap : Nat
  flags : Nat
  cause : Option Cause
  readyAt : Nat
  recs : List Ref
  shapes : List (Nat × (Nat × Nat × Nat))
  win : List WinRec
  pages : List Nat
  pred : Option (Nat × Nat)
  deriving DecidableEq, Repr

/-- A released set as the engines, output groups and cascade builder see it (R125, R140): its records and placeholders in
ascending SIDX, and the phasors, analogs and digitals of each stream's record; `lead`: on the island engine's list, the positions of
sets it skipped between the set before and this one. -/
structure SetDesc where
  soc : Nat
  k : Nat
  ns : Nat
  rate : Nat
  epoch : Nat
  flags : Nat
  cause : Cause
  gap : Nat
  lead : Nat
  releasedAt : Nat
  tq : Nat
  nexp : Nat
  narr : Nat
  recs : List Ref
  shapes : List (Nat × (Nat × Nat × Nat))
  pages : List Nat
  deriving DecidableEq, Repr

/-- Alignment state: instants in flight, oldest first; next lattice instant to open (second, index), none before
ALN_CTRL.EN first rose; deadline of the newest opened; tag of the newest opened or skipped; GAP and FLAGS for the next
header; policies in three copies; streams whose MEAN setting changed, with the instant (ns of UTC) and the setting before, newest first;
cadence shadow, prepared, waiting for a second boundary with that second, and in effect; seconds of the cadence changes with the code before,
newest first; sets since the last learning and whether learning is due; pending boundary B; the epochs that boundaries put in effect with
their first instants, newest first; tick of the last release. -/
structure Aln where
  insts : List Inst
  next : Option (Nat × Nat)
  lastDl : Nat
  last : Option (Nat × Nat)
  gapNext : Nat
  flagNext : Nat
  policy : Tbl Policy
  meanWas : List (Nat × (Nat × Bool))
  cadShadow : Nat
  cadDirty : Bool
  cadPend : Option Nat
  cadDue : Option (Nat × Nat)
  cad : Nat
  switch : List (Nat × Nat)
  learnCnt : Nat
  learnDue : Bool
  bound : Option (Nat × Nat)
  epochs : List (Nat × (Nat × Nat))
  relTick : Nat
  deriving DecidableEq, Repr

/-- A join in progress or made (R244): manager's MAC address, member number, key for tags, GROUP_ID, FWD list. -/
structure CasJoin where
  mac : Nat
  member : Nat
  key : Option Nat
  group : Nat
  fwd : List Nat
  deriving DecidableEq, Repr

/-- What an engine did with a set, for the digest (R247): which engine, whether it ran or skipped, and its words. -/
structure FeedRes where
  engine : Nat
  ran : Bool
  words : List SWord
  deriving DecidableEq, Repr

/-- The scheduler (R125): pending lists of the engines (0 limit-and-angle, 1 island, 2 oscillation); released sets the
cascade builder has still to read, each with the join it was released under, and what engines have done with them, by set tag; engines that skipped a set since their
last run; the tick of the last skip. -/
structure Sched where
  pend : List (Nat × List SetDesc)
  casc : List (CasJoin × SetDesc)
  feed : List (Nat × List FeedRes)
  skipped : List Nat
  skipAt : Option Nat
  deriving DecidableEq, Repr

/-! ### Commands and epochs (R406 to R418) -/

/-- A stepped or waiting command in flight: its ring, packet, steps done, whether it was told to abort, whether it
waits for an event instead of stepping, the progress its opcode keeps, and the final status and RESULT of one whose event has come while
the firmware did not run (R38). -/
structure Fly where
  fn : Fn
  bytes : List Byte
  steps : Nat
  abort : Bool
  waiting : Bool
  prog : List Nat
  final : Option (Nat × List Byte)
  deriving DecidableEq, Repr

/-- A reply not yet written: its ring, packet, status, steps and RESULT. -/
structure LateReply where
  fn : Fn
  bytes : List Byte
  st : Nat
  steps : Nat
  res : List Byte
  deriving DecidableEq, Repr

/-- A ring beside its registers: entries fetched and not started. -/
structure Ring where
  fetched : List (List Byte)
  deriving DecidableEq, Repr

/-- Command interpreter state: the two rings, commands in flight in order of start; the epoch registers of the epoch in
effect and of earlier ones, by tag, newest first; those captured by an accepted commit; what a commit is preparing: the
captured registers and the items still to copy as (table, index); when a hitless restart paused the rings; the ring of the present pass
of R412's loop and the SEQs of its stepped commands that have still to step in it; replies that wait for Bus Master Enable, oldest
first (R400). -/
structure Cmd where
  ring0 : Ring
  ring1 : Ring
  fly : List Fly
  epochs : List (Nat × List (Nat × Dword))
  pregs : Option (List (Nat × Dword))
  prep : Option (List (Nat × Dword) × List (Nat × Nat))
  /-- registers with an epoch field written since the last accepted commit captured them; those an accepted commit captured
  as written; those written for each epoch, newest first -/
  rdirty : List Nat
  pwrit : List Nat
  ewrit : List (Nat × List Nat)
  pauseAt : Option Nat
  turn : Fn
  todo : List Nat
  late : List LateReply
  deriving DecidableEq, Repr

/-! ### Interrupts (R423 to R437) and events (R438 to R443) -/

/-- Per-source, per-channel delivery state: raises since the last delivery or PEND clear and tick of the first. -/
structure IrqCh where
  due : Bool
  count : Nat
  since : Nat
  timeUp : Bool
  deriving DecidableEq, Repr

/-- PCI Express state of one function (R398 to R401, R430, R432): Bus Master Enable, MSI-X Enable, Function Mask, D3hot,
PME_En, PME_Status, per-vector unmasked list, PBA, committed vectors held while the function or link sleeps or Bus Master Enable is 0,
whether MSI-X Enable has still to be set for the first time since a reset (R437), and whether the function asserts PE_WAKEN (R432). -/
structure PcieFn where
  bme : Bool
  msixEn : Bool
  fmask : Bool
  d3 : Bool
  pmeEn : Bool
  pmeStatus : Bool
  unmasked : List Nat
  pba : List Nat
  held : List Nat
  rearm : Bool
  wake : Bool
  deriving DecidableEq, Repr

/-- Interrupt controller state: the main and PF1 channels of each source, the two functions, link state L2, sources that hold the two
pins low, sources moved to their fallback target, tick at which each core was parked, tick of each source's last change of TARGET
(R433). -/
structure Irq where
  main : List (Nat × IrqCh)
  pf1 : List (Nat × IrqCh)
  fn0 : PcieFn
  fn1 : PcieFn
  linkL2 : Bool
  lowBy0 : List Nat
  lowBy1 : List Nat
  moved : List Nat
  parkedAt : List (Nat × Nat)
  aimed : List (Nat × Nat)
  deriving DecidableEq, Repr

/-- An event raised but not numbered yet: code, stream, ARG values as (width, value). -/
structure PendEv where
  code : Nat
  sidx : Nat
  args : List (Nat × Nat)
  deriving DecidableEq, Repr

/-- An event record in the ring (R438, R442). -/
structure EvRec where
  seq : Nat
  ref : Ref
  deriving DecidableEq, Repr

/-- A slot of the critical-event mirror (R443): its 32 bytes. -/
structure MirrorSlot where
  bytes : List Byte
  deriving DecidableEq, Repr

/-- Event recorder state: events held before the ring starts (R481), events caused by logging itself and not yet
logged, token buckets as (code, (tokens, tick of last refill)), SUPP by code, ring size N, ring records oldest first, ring
pages oldest first, frozen since, losses while frozen (count, first, last), started since the SYS reset. -/
structure Evr where
  early : List PendEv
  backlog : List PendEv
  buckets : List (Nat × (Nat × Nat))
  supp : List (Nat × Nat)
  size : Nat
  recs : List EvRec
  pages : List Nat
  frozenAt : Option Nat
  frozenLost : Nat × Nat × Nat
  started : Bool
  mirror : List (Nat × MirrorSlot)
  deriving DecidableEq, Repr

/-! ### Outputs -/

/-- What the block sends to the outside: memory writes to a function's host (R399), MSI-X messages, core interrupt
lines, frames leaving a port, heartbeat words on HB_OUT, and the answer to a read: data bytes whether the completion's EP bit is set,
and a status with its data on the debug port. -/
inductive Out where
  | dma (fn : Fn) (addr : Nat) (bytes : List Byte)
  | msix (fn : Fn) (vector : Nat)
  | core (c : Nat) (source : Nat)
  | frame (port : Nat) (cls : Nat) (bytes : List Byte)
  | heartbeat (word : Nat)
  | answer (agent : Agent) (bytes : List Byte) (ep : Bool)
  | dbg (status : Nat) (data : Dword)
  deriving DecidableEq, Repr

end Sys2Proof.Machine
end

