-- ==== Sys2Proof/Machine/Types2.lean ====
section
/-!
DEFINITION. Sys2Proof/Machine/Types2.lean: the types of the state's parts, second half: network ports and the blocks of
the later chapters.
-/
namespace Sys2Proof.Machine

/-! ### Network ports (R341 to R371) -/

/-- What a frame's sender waits for: nothing, an OUT event on refusal (R240), or an egress timestamp (R63), with
messageType, domainNumber, sequenceId. -/
inductive TxKind where
  | plain
  | output
  | ptp (msgType domain seqId : Nat)
  deriving DecidableEq, Repr

/-- A frame in a transmit buffer: class, bytes from destination address to the last byte before the FCS, what its
sender waits for, whether it has counted in GUARD (R356) and in DEFER (R362), its collisions so far and until when it is in
back-off (R363). -/
structure TxFrame where
  tc : Nat
  bytes : List Byte
  kind : TxKind
  guarded : Bool
  deferred : Bool
  colls : Nat
  waitTo : Option Nat
  deriving DecidableEq, Repr

/-- A port beside its registers. Pause: start tick, quanta and end of the pause in force; start of the unbroken pause; end
of a defeat. Pause sending: whether XOFF is out, tick of the last frame. Half duplex: the generator's LFSR (R363). Gates: cycle start
tick and TAI time, entry in force. Ticks of the last events that are logged at a limited rate. The tick from which the link can have
stayed good (R342). -/
structure Port where
  txq : List TxFrame
  flight : Option (TxFrame × Nat)
  pause : Option (Nat × Nat × Nat)
  pausedSince : Option Nat
  defeatEnd : Option Nat
  xoff : Bool
  xoffAt : Nat
  lfsr : Nat
  gateStart : Option (Nat × Nat)
  gateIdx : Nat
  rxOvfLog : Option Nat
  cutLog : Option Nat
  wrongLanLog : Option Nat
  goodFrom : Nat
  deriving DecidableEq, Repr

/-- An entry of the PRP duplicate table (R368): source address, SeqNr, LAN, tick. -/
structure PrpEntry where
  src : Nat
  seq : Nat
  lan : Nat
  at_ : Nat
  deriving DecidableEq, Repr

/-- An MDIO frame waiting or running for an agent (R371): whose, command word, start tick. -/
structure MdioJob where
  fw : Bool
  cmd : Nat
  start : Nat
  deriving DecidableEq, Repr

/-- The network ports: port state by number, PRP table oldest first, supervision sequence and tick, MDIO jobs in order of
service, the firmware's own MDIO command and data registers, tick of the last P4 poll. The multicast filter of each port as the firmware
keeps it, and the memberships it has reported, as (port, group address) (R5, R344). -/
structure Mac where
  ports : List (Nat × Port)
  prp : List PrpEntry
  supSeq : Nat
  supAt : Nat
  mdio : List MdioJob
  fwMdioCmd : Nat
  fwMdioData : Nat
  pollAt : Nat
  mcf : List (Nat × List Nat)
  reported : List (Nat × Nat)
  deriving DecidableEq, Repr

end Sys2Proof.Machine
end

