-- ==== Sys2Proof/Machine/Types3.lean ====
section
/-!
DEFINITION. Sys2Proof/Machine/Types3.lean: the types of the state's parts, third part: the local streams, the keys and
store integrity.
-/
namespace Sys2Proof.Machine

/-! ### Local phasors (R280 to R300) -/

/-- A bay's PMU_CFG entry (R280). -/
structure PmuCfg where
  enable : Bool
  test : Bool
  digen : Bool
  rate : Nat
  cmode : Nat
  phsel : Nat
  ansel : Nat
  fnom : Nat
  idcode : Nat
  vnom : Nat
  deriving DecidableEq, Repr

/-- A channel's phasor calibration (R288): RATIO, then GAIN (float32 patterns) and DELAY (ps) for the low and the high range. -/
structure PmuCal where
  ratio : Nat
  gainLo : Nat
  delayLo : Int
  gainHi : Nat
  delayHi : Int
  deriving DecidableEq, Repr

/-- A local record ready to commit: the configuration of its instant, its tag, words after H1 and STAT apart from the bits that stand at
the commit (R292 to R294). -/
structure PmuRec where
  cfg : PmuCfg
  soc : Nat
  ns : Nat
  stat : Nat
  words : List Nat
  fsrc : Nat
  freq : Option Nat
  deriving DecidableEq, Repr

/-- A bay's estimator state (R286 to R295): AUTO state M, and the state that stands for the instants before a boundary that changed
CMODE; tick and reason of the latest trigger; reference frequency in 0.01 Hz; for each instant whose computation has started, by tag
(ns of UTC), its reference frequency, n_r and TIM_INCR (R284); frequency source (15 none); tags of the last P and M estimates
and of the last record committed; P estimates held, by tag; tick of the last boundary that changed the stream; tick of the last
detector evaluation; whether the configuration was AUTO when last looked at. -/
structure PmuBay where
  stM : Bool
  wasM : List (Nat × Bool)
  trig : Option (Nat × Nat)
  fref : Nat
  starts : List (Nat × (Nat × (Int × Nat)))
  fsrc : Nat
  lastP : Option Nat
  lastM : Option Nat
  lastOut : Option Nat
  held : List (Nat × PmuRec)
  cfgAt : Option Nat
  detAt : Nat
  deriving DecidableEq, Repr

/-- Local phasors: PMU_CFG entries and calibration in three copies; those in effect before each of the last boundaries that changed
them, by boundary (ns of UTC), newest first (R296); bays. -/
structure Pmu where
  cfg : Tbl PmuCfg
  cal : Tbl PmuCal
  olds : List (Nat × (List (Nat × PmuCfg) × List (Nat × PmuCal)))
  bays : List (Nat × PmuBay)
  deriving DecidableEq, Repr

/-! ### Keys (R460 to R478) -/

/-- State of a key cache slot that is not FREE (R467). -/
inductive KeyState where
  | valid | pending | orphaned
  deriving DecidableEq, Repr

/-- A key cache slot that is not FREE: its state, TYPE, USE, GROUP, GEN, KEY_ID, the key itself, and the tick its lease last
started (R467, R469). -/
structure KeySlot where
  st : KeyState
  type : Nat
  use : Nat
  group : Nat
  gen : Nat
  keyId : Nat
  key : Nat
  leaseAt : Nat
  deriving DecidableEq, Repr

/-- A PREPARED commit record (R472): TARGET, GROUP, and the prepared root with its BRGEN, or the prepared GEN. -/
structure KeyUpd where
  target : Nat
  group : Nat
  root : Nat
  brgen : Nat
  gen : Nat
  deriving DecidableEq, Repr

/-- Key engine state: cache slots, GEN by group (absent: 0), root slots A and B, which is active, KPRV, the commit record when
PREPARED, when each KEY_ID's miss was last logged (R470), the tick of the last AON reset and that at which each mesh was enabled
(R475). -/
structure Keys where
  slots : List (Nat × KeySlot)
  gens : List (Nat × Nat)
  rootA : Option Nat
  rootB : Option Nat
  activeB : Bool
  kprv : Option Nat
  upd : Option KeyUpd
  missLog : List (Nat × Nat)
  aonFrom : Nat
  meshOn : List (Nat × Nat)
  deriving DecidableEq, Repr

/-! ### Store integrity (R446 to R459) -/

/-- A block of a memory: of the control RAM or of the Sett, with its number. -/
structure Block where
  cram : Bool
  no : Nat
  deriving DecidableEq, Repr

/-- A tagged block (R448, R449): the word in it that failed (8: a column check bit), and the column of a correction (74: a row check
bit), none for an uncorrectable error. -/
structure EccTag where
  blk : Block
  word : Nat
  col : Option Nat
  deriving DecidableEq, Repr

/-- Store integrity state: tag queue, oldest first; blocks whose uncorrectable error has been logged and not written back; Sett blocks that a write-back has poisoned, as 128 × page id + block;
write-back history, newest first (R453); hard-fault list by index (R453); control RAM blocks to remap and remapped (R454);
poisoned control RAM words, and the items rewritten since as (kind, index); next block of the walk, start of the lap, tick of
the last visit, whether a MODE 1 lap is late; when a dropped tag was last logged; the retired map as flash holds it. -/
structure Ecc where
  tags : List EccTag
  logged : List Block
  wb : List Nat
  hist : List (Block × Nat × Nat)
  hard : List (Nat × Nat)
  cramHard : List Nat
  cramMap : List Nat
  cramPoison : List Nat
  healed : List (Nat × Nat)
  walk : Nat
  lapStart : Nat
  visitAt : Nat
  late : Bool
  ovfLog : Option Nat
  flashMap : List Nat
  deriving DecidableEq, Repr

end Sys2Proof.Machine
end

