-- ==== Sys2Proof/Machine/Types4.lean ====
section
/-!
DEFINITION. Sys2Proof/Machine/Types4.lean: the types of the state's parts, fourth part: the alarm logic and the limit-and-angle
engine.
-/
namespace Sys2Proof.Machine

/-! ### The alarm logic (R169 to R179) -/

/-- Copies of an alarm datagram still to send (R178): when, which copy and which is the last, from which ports, SEQ and words. -/
structure AlmRepeat where
  due : Nat
  copy : Nat
  last : Nat
  ports : List Nat
  seq : Nat
  words : List SWord
  deriving DecidableEq, Repr

/-- Alarm logic state: active alarms by key with the group each names; ASP word 0 and the active groups as the port presents them;
pins whose raw was 1; pulses running as (pin, end tick); pins whose ANG_ALMCFG has been written; ALMINH_IN; resolved MAC
addresses by port; datagram copies to come; ANG_ALMCLR bits written since the last twin sync (R395). -/
structure Alm where
  act : List (Nat × Nat)
  word0 : Nat
  groups : List Nat
  raw : List Nat
  pulse : List (Nat × Nat)
  cfgd : List Nat
  inh : Bool
  macs : List (Nat × Nat)
  repeats : List AlmRepeat
  clrSince : Nat
  deriving DecidableEq, Repr

/-! ### Limits and angles (R160 to R166) -/

/-- A limit rule; HI, LO and HYST are float32 patterns. -/
structure Limit where
  sidx : Nat
  kind : Nat
  phidx : Nat
  hi : Nat
  lo : Nat
  hyst : Nat
  persist : Nat
  enable : Bool
  grp : Nat
  deriving DecidableEq, Repr

/-- An angle pair; MINMAG is a float32 pattern. -/
structure Pair where
  sidxA : Nat
  phA : Nat
  phB : Nat
  sidxB : Nat
  enable : Bool
  hi : Int
  lo : Int
  hyst : Nat
  persist : Nat
  minmag : Nat
  grp : Nat
  deriving DecidableEq, Repr

/-- The limit-and-angle engine: its tables, the counters CNT by alarm key (absent: 0). ACT of a rule or pair is its entry in `Alm.act`. -/
structure Ang where
  limits : Tbl Limit
  pairs : Tbl Pair
  cnt : List (Nat × Nat)
  deriving DecidableEq, Repr

end Sys2Proof.Machine
end

