-- ==== Sys2Proof/Machine/Types5.lean ====
section
/-!
DEFINITION. Sys2Proof/Machine/Types5.lean: the types of the state's parts, fifth part: the island engine.
-/
namespace Sys2Proof.Machine

/-- A node (R182): KIND 0 unused, 1 measured, 2 bus. -/
structure Node where
  sidx : Nat
  kind : Nat
  phidx : Nat
  deriving DecidableEq, Repr

/-- An edge (R183). -/
structure Edge where
  a : Nat
  b : Nat
  fbound : Nat
  fhyst : Nat
  abound : Nat
  ahyst : Nat
  enable : Bool
  gate : Bool
  brk : Bool
  pol : Bool
  brkSidx : Nat
  brkWord : Nat
  brkBit : Nat
  deriving DecidableEq, Repr

/-- The expected partition (R195): alarm groups by expected label, an absent one 0x3FF; labels of nodes; the label of the nodes that
`label` does not list. -/
structure Expect where
  grp : List (Nat × Nat)
  label : List (Nat × Nat)
  rest : Nat
  deriving DecidableEq, Repr

/-- What an edge keeps from run to run (R187, ISL_EDGE_STAT): HELD, whether the last test was unknown, the breaker's last
reading (none: unknown; some true: open), df and |drift| of the last known test. -/
structure EdgeSt where
  held : Bool
  unknown : Bool
  brk : Option Bool
  df : Nat
  adr : Nat
  deriving DecidableEq, Repr

/-- The island engine: tables (the expected partition under key 0); the epoch of its last run; history positions of skipped
sets to enter before the oldest set waiting, and after the newest (R185); angle histories by node, newest first (none: absent); consecutive absent runs and lost nodes; nodes
present in the last run; edge states; the reported partition P as labels by node; the previous run's candidate; PCNT; the
pending count; runs in which the candidate has differed from P; class and CUT_CLOSED by island ID. -/
structure Isl where
  nodes : Tbl Node
  edges : Tbl Edge
  expect : Tbl Expect
  epoch : Nat
  gapN : Nat
  gapT : Nat
  hist : List (Nat × List (Option Nat))
  absent : List (Nat × Nat)
  lost : List Nat
  present : List Nat
  est : List (Nat × EdgeSt)
  part : List (Nat × Nat)
  cand : Option (List (Nat × Nat))
  pcnt : Nat
  pend : Nat
  diff : Nat
  cls : List (Nat × (Nat × Bool))
  deriving DecidableEq, Repr

end Sys2Proof.Machine
end

