-- ==== Sys2Proof/Machine/Types6.lean ====
section
/-!
DEFINITION. Sys2Proof/Machine/Types6.lean: the types of the state's parts, sixth part: the oscillation engine.
-/
namespace Sys2Proof.Machine

/-- A number m · 2^e. -/
structure Dy where
  m : Int
  e : Int
  deriving DecidableEq, Repr

/-- A signal entry (R205); SCALE and NORM are float32 patterns. -/
structure OscSig where
  kind : Nat
  enable : Bool
  track : Bool
  sidxA : Nat
  phA : Nat
  phB : Nat
  sidxB : Nat
  scale : Nat
  norm : Nat
  deriving DecidableEq, Repr

/-- A rule entry (R218); FLO, FHI, BOUND and HYST are float32 patterns; `classes` holds the class flags by class: bit 0
undetermined, 1 natural, 2 forced. -/
structure OscRule where
  scope : Nat
  enable : Bool
  classes : Nat
  sig : Nat
  blo : Nat
  bhi : Nat
  grp : Nat
  flo : Nat
  fhi : Nat
  bound : Nat
  hyst : Nat
  holdMs : Nat
  deriving DecidableEq, Repr

/-- A placement of the bands (R209); frequencies are float32 patterns; MODE 2 lists each centre with its FIX. -/
structure OscPlace where
  mode : Nat
  fixAll : Bool
  flo : Nat
  fhi : Nat
  centres : List (Nat × Bool)
  deriving DecidableEq, Repr

/-- A band analyser's state (R210): the parts of y, and a. -/
structure OscBand where
  re : Dy
  im : Dy
  amp : Dy
  deriving DecidableEq, Repr

/-- A started signal (R206 to R211): last value; KIND 2's last separation and unwrapped value in units of 1/65 536 turn; DC
estimate; samples since the last restart; consecutive missing samples; whether this set's sample was missing, and its UNAUTH; for each
band the samples after which it is ready; the 64 analysers. -/
structure OscRun where
  x : Dy
  th : Nat
  u : Int
  mean : Dy
  n : Nat
  miss : Nat
  missing : Bool
  unauth : Bool
  need : List Nat
  bands : List OscBand
  deriving DecidableEq, Repr

/-- An occupied mode slot (R215 to R217): identity, order of seeding, instants since seeding, class with the runs for which
each change of class has been due, instants without a peak, the fit's state, which the spec does not lay out, the envelope over T_W,
newest first, estimates, amplitude and shape by tracked signal, and what happened to it since the last run. -/
structure OscSlot where
  id : Nat
  order : Nat
  age : Nat
  cls : Nat
  cntForced : Nat
  cntNatural : Nat
  noPeak : Nat
  fit : Nat
  env : List Nat
  freq : Nat
  zeta : Nat
  amp : Nat
  source : Nat
  amps : List (Nat × Nat)
  shape : List (Nat × (Nat × Nat))
  fvalid : Bool
  zvalid : Bool
  seeded : Bool
  classed : Bool
  deriving DecidableEq, Repr

/-- The oscillation engine: tables (the placement under key 0); the epoch of its last run; started signals; centres in effect;
slots, and as the last run left them; counters of instances by rule × 16 + slot; last MODE_ID; seeds so far; runs since the last
re-centring pass and whether a centre moved since the last run; classes of the slots released since the last run; spectrum of the last run and runs for which each band's
peak has qualified; tag and rate of the last set. -/
structure Osc where
  sigs : Tbl OscSig
  rules : Tbl OscRule
  place : Tbl OscPlace
  epoch : Nat
  run : List (Nat × OscRun)
  centres : List Nat
  slots : List (Nat × OscSlot)
  shown : List (Nat × OscSlot)
  cnt : List (Nat × Nat)
  modeId : Nat
  seeds : Nat
  passRuns : Nat
  moved : Bool
  lostCls : List (Nat × Nat)
  spectrum : List Dy
  peakRuns : List (Nat × Nat)
  last : Option (Nat × Nat × Nat)
  deriving DecidableEq, Repr

end Sys2Proof.Machine
end

