-- ==== Sys2Proof/Machine/Types7.lean ====
section
/-!
DEFINITION. Sys2Proof/Machine/Types7.lean: the types of the state's parts, seventh part: output groups, the cascade link and the twin
monitor.
-/
namespace Sys2Proof.Machine

/-! ### Output groups (R232 to R242) -/

/-- A listed stream of a group: SIDX, the list entry's IDCODE, STN. -/
structure OutItem where
  sidx : Nat
  idcode : Nat
  stn : List Byte
  deriving DecidableEq, Repr

/-- A group definition. -/
structure OutGroup where
  polar : Bool
  rate : Nat
  idcode : Nat
  timeBase : Nat
  items : List OutItem
  header : List Byte
  deriving DecidableEq, Repr

/-- A destination definition. -/
structure OutDest where
  group : Nat
  ports : Nat
  startOn : Bool
  vlan : Option Nat
  fixedMac : Option Nat
  dport : Nat
  sport : Nat
  addr : Nat
  tc : Nat
  dscp : Nat
  ttl : Nat
  deriving DecidableEq, Repr

/-- A block's layout, fixed when its group takes effect (R234); `stale` is the time (ns of UTC) from which a later change of the
stream's format leaves the block absent. -/
structure OutBlock where
  sidx : Nat
  idcode : Nat
  stn : List Byte
  ph : Nat
  an : Nat
  dg : Nat
  fnom : Nat
  stale : Option Nat
  deriving DecidableEq, Repr

/-- What a destination was when a later boundary changed it: TX_ON, the MAC address known, SIZE_ERR. -/
structure DestWas where
  on : Bool
  mac : Option Nat
  sizeErr : Bool
  deriving DecidableEq, Repr

/-- Definitions of one epoch: groups with their layouts, destinations; for sets of the epoch still in flight after later boundaries, what
each destination changed since was, and the tick until which STAT bit 10 was set for each group changed since. -/
structure OutEpoch where
  tag : Nat
  groups : List (Nat × (OutGroup × List OutBlock))
  dests : List (Nat × OutDest)
  was : List (Nat × DestWas)
  chgWas : List (Nat × Option Nat)
  deriving DecidableEq, Repr

/-- Output state: both tables; definitions by epoch, newest first; destinations with TX_ON; MAC addresses the firmware has
resolved, by destination; IPv4 identification counters; ticks until which STAT bit 10 is set, by group; groups whose rate does not
fit the cadence; command words counted and ignored (R241); slot of the last set offered to the groups (R395). -/
structure OutSt where
  groups : Tbl OutGroup
  dests : Tbl OutDest
  epochs : List OutEpoch
  txOn : List Nat
  macs : List (Nat × Nat)
  ipIds : List (Nat × Nat)
  chg : List (Nat × Nat)
  rateBad : List Nat
  ignored : Nat
  slot : Nat
  deriving DecidableEq, Repr

/-! ### The cascade link (R243 to R252) and the trigger lines (R253, R254) -/

/-- A member as its manager sees it: digests arrive, lost, JOINED, ANY, last DEPTH and DSEQ; the tick from which silence counts
(none: it does not); whether the next digest logs EV_CAS_MEMBER_UP. -/
structure CasMember where
  up : Bool
  lost : Bool
  joined : Bool
  any : Bool
  depth : Nat
  dseq : Nat
  since : Option Nat
  announce : Bool
  deriving DecidableEq, Repr

/-- A digest under reassembly: its number, member, DSEQ, tag of the set, NFRAG, tick of the first fragment, arrival (TAI ns) of
the last, whether every fragment's tag verified, DEPTH, pages, and where each fragment lies. -/
structure CasReasm where
  id : Nat
  member : Nat
  dseq : Nat
  soc : Nat
  ns : Nat
  nfrag : Nat
  first : Nat
  arrival : Nat
  verified : Bool
  depth : Nat
  pages : List Nat
  frags : List (Nat × Ref)
  deriving DecidableEq, Repr

/-- Cascade state: the join, tick of its start and of the last JOIN sent; next DSEQ, sets not digested since the last digest,
whether no digest has been sent since joining; members; digests under reassembly, oldest first, and the next digest number;
cascade frames waiting (port, arrival, source MAC address, payload); LEAVE frames still to be sent (tick, MAC address, payload). The trigger lines: whether the unit drives XFIRE low and until
when, whether another does, since when XFIRE has been high, and whether other units hold XARM low. -/
structure Cas where
  join : Option CasJoin
  joinAt : Nat
  joinSent : Nat
  dseq : Nat
  gap : Nat
  fresh : Bool
  members : List (Nat × CasMember)
  reasm : List CasReasm
  nextId : Nat
  rxq : List (Nat × (Nat × (Nat × List Byte)))
  leave : List (Nat × (Nat × List Byte))
  fireUntil : Option Nat
  fireHighAt : Option Nat
  armOther : Bool
  deriving DecidableEq, Repr

/-! ### The twin monitor (R374 to R395) -/

/-- Twin state: TWIN_CFG's SHARED and LPORT; tick EN rose; tick of the next heartbeat instant; HBSEQ of paths H and L; ticks of the last
valid word on H and L and of the last valid witness on P0 and P1; newest valid word and its tick; relinquish in progress as
(cause, tick); tick since which the partner has been fit for a revert; ticks of the last witness and sync frame sent, SYNCSEQ; tick
EV_UNCORR was last raised; whether keys have been zeroised since the SYS reset; held ANG_NET_SEQ and cascade DSEQ of the partner. -/
structure Twn where
  shared : Bool
  lport : Nat
  enAt : Option Nat
  hbNext : Nat
  seqH : Nat
  seqL : Nat
  lastH : Option Nat
  lastL : Option Nat
  lastWit0 : Option Nat
  lastWit1 : Option Nat
  phb : Option (Nat × Nat)
  relinq : Option (Nat × Nat)
  fitAt : Option Nat
  witAt : Nat
  syncAt : Nat
  syncSeq : Nat
  uncorrAt : Option Nat
  zeroed : Bool
  heldSeq : Option Nat
  heldDseq : Option Nat
  deriving DecidableEq, Repr

end Sys2Proof.Machine
end

