-- ==== Sys2Proof/Machine/Types8.lean ====
section
/-!
DEFINITION. Sys2Proof/Machine/Types8.lean: the types of the state's parts, eighth part: the local front end, the energy registers and
waveform capture.
-/
namespace Sys2Proof.Machine

/-! ### The front end (R257 to R277) -/

/-- A scaled S1 output in a tap's history (R265, R273): its 28-bit value, whether |S1| was an overload, whether it was extrapolated. -/
structure FltIn where
  x : Int
  ovl : Bool
  ext : Bool
  deriving DecidableEq, Repr

/-- A tap sample (R264, R270): index, ticks of decimation and of the effective sample time, value in Q1.23, the four flags. -/
structure TapOut where
  m : Nat
  tDec : Nat
  tEff : Int
  v : Int
  flags : Nat
  deriving DecidableEq, Repr

/-- A tap of a channel: next sample index, tap FIR history newest first (since the last refill began), samples its consumers still
hold, newest first. -/
structure FltTap where
  next : Nat
  hist : List Int
  out : List TapOut
  deriving DecidableEq, Repr

/-- A channel upstream of its taps (R265, R268, R274): S1 outputs formed since T0; bits its sinc³ still reads, newest first; the sum
of the fast-settle window in progress; finished fast-settle sums by window index, newest first; scaled S1 outputs, newest first;
the last two good ones, and how many have been blanked since. -/
structure FltChan where
  n : Nat
  tail : List Bool
  acc : Int
  sums : List (Nat × Int)
  win : List FltIn
  good : Int × Int
  blanked : Nat
  deriving DecidableEq, Repr

/-- A bay's range from a tick on: high gain, RATIO, and the tick up to which S1 outputs are blanked where the range changed at that
tick (R271 to R274). -/
structure FltRng where
  tick : Nat
  high : Bool
  ratio : Nat
  blank : Option Nat
  deriving DecidableEq, Repr

/-- A bay: ranges newest first, end of the blanking in progress, a range decided during blanking, the tick since which no S1 output
seen has been above DOWN (R272), CP exponent and CP_FAST in effect, and the frame boundary at which newly written ones take effect
(R269). -/
structure FltBay where
  rng : List FltRng
  blankTo : Option Nat
  want : Option Bool
  quiet : Nat
  k : Nat
  fast : Bool
  due : Option Nat
  deriving DecidableEq, Repr

/-- A bank swap in progress (R275, R276): FADE, tick of F_b, and whether F_b has come. -/
structure FltSwap where
  fade : Nat
  fb : Nat
  started : Bool
  deriving DecidableEq, Repr

/-- The front end: taps by 4 × channel + tap (0 PH, 1 EN, 2 CP); channels; bays; for each channel the ticks at which FAULT came and
went, newest first (R260); overload episodes by channel as (last overload, in progress); coefficients by 4 × bank + tap; the swap in progress; FADE of the pending one; the last tick at which a sample carried
SETTLE. -/
structure Flt where
  taps : List (Nat × FltTap)
  chans : List (Nat × FltChan)
  bays : List (Nat × FltBay)
  faults : List (Nat × List (Nat × Bool))
  ovl : List (Nat × (Nat × Bool))
  coefs : List (Nat × List Int)
  swap : Option FltSwap
  pendFade : Option Nat
  lastSettle : Nat
  deriving DecidableEq, Repr

/-! ### Energy (R300 to R317) -/

/-- A point of a correction (R306): X, PHI in 0.0001°, GAIN in Q2.22. -/
structure NrgPt where
  x : Nat
  phi : Int
  gain : Nat
  deriving DecidableEq, Repr

/-- A channel's correction. -/
structure NrgCorr where
  lo : List NrgPt
  hi : List NrgPt
  deriving DecidableEq, Repr

/-- P_f, Q_f and V_rms × I_rms of a phase's last completed cycle (R302). -/
structure NrgCyc where
  pf : Int
  qf : Int
  va : Nat
  deriving DecidableEq, Repr

/-- A bay's cycle in progress and the last completed one (R302): its length, f_ref (0.01 Hz) at its start, ticks done, corrected pairs as
(phase, tick in the cycle, v, i), samples as (quantity, tap value), values of the last cycle by phase (none: no cycle completed), each quantity's RMS over it. -/
structure NrgBay where
  len : Nat
  fref : Nat
  ticks : Nat
  pairs : List (Nat × (Nat × (Int × Int)))
  raw : List (Nat × Int)
  cyc : Option (List NrgCyc)
  rms : List (Nat × Nat)
  deriving DecidableEq, Repr

/-- Energy state: accumulators by 36 b + 9 g + q (120 bits); next tick index; bays; phases that have accumulated since they last skipped a tick for FAULT (3 b + p);
corrections in three copies, and those in effect before each of the last boundaries that changed them, by boundary (ns of UTC); ticks since the last periodic save and whether one is due; AON
slots and the flash copy as bytes; tick of the last flash copy; pending MODE 1 snapshot (destination, AT) and its image once taken;
pending presets (bay, group, mask, values). -/
structure Nrg where
  acc : List (Nat × Nat)
  next : Nat
  bays : List (Nat × NrgBay)
  normal : List Nat
  corr : Tbl NrgCorr
  olds : List (Nat × List (Nat × NrgCorr))
  saveCnt : Nat
  saveDue : Option (Nat × Nat)
  slots : List (Nat × List Byte)
  flash : Option (List Byte)
  flashAt : Nat
  snap : Option (Nat × Nat)
  snapImg : Option (List Byte)
  preset : List (Nat × Nat × Nat × List Nat)
  deriving DecidableEq, Repr

/-! ### Waveform capture (R320 to R338) -/

/-- A condition of an arming (R323). -/
structure TrgCond where
  enable : Bool
  edge : Bool
  xout : Bool
  mask : Nat
  value : Nat
  delay : Nat
  deriving DecidableEq, Repr

/-- An arming's settings (TRG_ARM). -/
structure TrgCfg where
  mode : Bool
  xunit : Bool
  rlog0 : Nat
  rlogMax : Nat
  chmask : Nat
  queue : Nat
  pre : Nat
  post : Nat
  captures : Nat
  segcount : Nat
  hi : List Int
  lo : List Int
  rmsHi : List Nat
  rmsLo : List Nat
  resv : Nat
  resi : Nat
  almgrp : Nat
  fnom : Nat
  conds : List TrgCond
  deriving DecidableEq, Repr

/-- A stored set (R326, R328): its group, index of its last sample, minimum (or only) and maximum values and flags by selected
channel. -/
structure TrgSet where
  group : Nat
  last : Nat
  lo : List Int
  hi : List Int
  flags : List Nat
  deriving DecidableEq, Repr

/-- A segment: its page and its sets, oldest first. -/
structure TrgSeg where
  page : Nat
  sets : List TrgSet
  deriving DecidableEq, Repr

/-- A capture in progress (R324 to R334): trigger sample, its tick and the UTC time of its t_eff, TQ at the decision; MATCH, CAUSE,
FLAGS of S0; short stamps of the decision and of the edge behind it; trigger group; NPOST; PRE_GOT; G of the tap; ended (complete or
truncated). -/
structure TrgCap where
  mt : Nat
  ttrig : Nat
  soc : Nat
  ns : Nat
  tq : Nat
  hits : Nat
  cause : Nat
  flags : Nat
  decide : Nat
  xstamp : Nat
  group : Nat
  npost : Nat
  preGot : Nat
  delay : Nat
  ended : Bool
  deriving DecidableEq, Repr

/-- A unit (R320 to R338): state code (0 IDLE, 1 FILL, 2 ARMED, 3 POST, 4 HELD), settings, ARMNO of the next and of the present
arming, CAPNO, captures left, RLOG, run counters; samples evaluated since the arming; next sample index, index of the first sample of
the ring; sets gathered in the ring; segments, oldest first, and pages allocated for the ring but not used yet; the capture;
flags for the next instant: force, PMUTRIG, PEER, TRIGI and XFIRE with their stamps. -/
structure TrgUnit where
  st : Nat
  cfg : Option TrgCfg
  armNext : Nat
  armno : Nat
  capno : Nat
  left : Nat
  rlog : Nat
  runs : List Nat
  seen : Nat
  next : Nat
  ring0 : Nat
  gathered : Nat
  segs : List TrgSeg
  spare : List Nat
  cap : Option TrgCap
  force : Bool
  pmu : Bool
  peer : Bool
  trigi : Option Nat
  xfire : Option Nat
  deriving DecidableEq, Repr

/-- A completed capture that is held (R335): its bay, ARMNO, CAPNO, pages and packet, owner, queue, whether a queue admitted it,
whether its own hold stands, ticks of its completion and of its last offer. -/
structure TrgDone where
  bay : Nat
  armno : Nat
  capno : Nat
  pkt : Pkt
  fn : Fn
  queue : Nat
  admitted : Bool
  doneAt : Nat
  offerAt : Nat
  deriving DecidableEq, Repr

/-- Capture state: units, held captures by handle, next handle, level of TRIGI, short stamp of its last active edge, and end of the pulse
on TRIGO. -/
structure Trg where
  units : List (Nat × TrgUnit)
  done : List (Nat × TrgDone)
  nextId : Nat
  trigi : Bool
  trigiAt : Option Nat
  trigoTo : Option Nat
  deriving DecidableEq, Repr

end Sys2Proof.Machine
end

