-- ==== Sys2Proof/Machine/Types9.lean ====
section
/-!
DEFINITION. Sys2Proof/Machine/Types9.lean: the types of the state's parts, ninth part: start-up, update and power, and the debug
port.
-/
namespace Sys2Proof.Machine

/-! ### Start-up, update and power loss (R479 to R498) -/

/-- Where the unit stands: a reset has ended and its boot sequence has not run; boot waits at step 2 (R481); recovery (R483);
running; core rails down with VBAT holding or not (R480). -/
inductive Phase where
  | reset | refWait | recovery | run | hold | off
  deriving DecidableEq, Repr

/-- The boot header in force (R484): whether a copy is valid, ACTIVE, PREV_OK, CFG, STAGE, STAGE_KIND and STAGE_LEN. -/
structure FlashHdr where
  valid : Bool
  active : Nat
  prevOk : Bool
  cfg : Nat
  stage : Nat
  kind : Nat
  len : Nat
  deriving DecidableEq, Repr

/-- Start-up and update state. `cause` and `came`: causes of the coming start, and the state it ends (0 run, 1 HOLD, 2 OFF); whether it
follows a POR; the tick the last HOLD began; levels of RSTOUTN; when the watchdog's count last started (none: held); ticks of
READY, of a quiesce and of the last reference detection or flash retry; the boot header; flash items (0 and 1 the image slots, 2
the staging area, 3 and 4 the stored configuration), absent: as delivered; KIND and LEN of the staging in progress and its 256-byte blocks; the
running image, whether it is in the active slot; a hitless restart in progress as (MODE, tick of acceptance); the interrupt
retention record, and what the always-on logic raised during HOLD, as registers with their values (R436). -/
structure Boot where
  phase : Phase
  cause : Nat
  came : Nat
  por : Bool
  holdAt : Nat
  rstout : Bool
  wdogAt : Option Nat
  readyAt : Option Nat
  quiesceAt : Nat
  retryAt : Nat
  hdr : FlashHdr
  items : List (Nat × List Byte)
  staging : Option (Nat × Nat)
  staged : List (Nat × List Byte)
  running : List Byte
  inSlot : Bool
  restart : Option (Nat × Nat)
  retain : Option (List (Nat × Dword))
  holdIrq : List (Nat × Dword)
  deriving DecidableEq, Repr

/-! ### The debug port (R499 to R508) -/

/-- A core's debug registers (R507): XHALT, whether halted and CAUSE, PC, REGSEL, general registers, breakpoints and watchpoints by
offset. -/
structure DbgCore where
  xhalt : Bool
  halted : Bool
  cause : Nat
  pc : Dword
  regsel : Nat
  gpr : List (Nat × Dword)
  points : List (Nat × Dword)
  deriving DecidableEq, Repr

/-- An open challenge (R503): its 32 bytes, the level asked for, the tick it was opened. -/
structure DbgChal where
  bytes : List Byte
  level : Nat
  at_ : Nat
  deriving DecidableEq, Repr

/-- Debug port state: TOGGLE and data of the last frame answered OK; ADDR; LEVEL, FAILS, LOCKOUT; the open challenge and the number of
its words read; response words written, and the tick from which a complete response is being checked; the wide-value latch is `State.latch`
under the probe; the two cores; halts asked for during a hitless restart. -/
structure Dbg where
  toggle : Option Bool
  data : Dword
  addr : Dword
  level : Nat
  fails : Nat
  lockout : Bool
  chal : Option DbgChal
  chalIdx : Nat
  resp : List Dword
  checkAt : Option Nat
  cores : List (Nat × DbgCore)
  haltLater : List Nat
  deriving DecidableEq, Repr

end Sys2Proof.Machine
end

