-- ==== Sys2Proof/Machine/State.lean ====
section
/-!
DEFINITION. Sys2Proof/Machine/State.lean: everything the spec gives the block to remember, as plain data, and the
state right after reset. Registers of the register tables live in `State.regs` under their offsets (Machine/Regs.lean);
the other fields hold the state the prose gives the block: memories, queues, tables, engine state, pin levels.
-/
namespace Sys2Proof.Machine

/-- Reasons to stop with a fault. The spec gives every command of the block an effect or says that it has none
(R13, R18, R533), so no command of this model answers a fault. -/
inductive Fault where
  /-- Raised by no command: kept so that the type has a value. Safe. -/
  | none
  deriving DecidableEq, Repr

/-- Reasons to refuse a command. -/
inductive Refusal where
  /-- The command has no meaning yet. Safe. -/
  | notModelled (mnemonic : String)
  deriving DecidableEq, Repr

/-- The whole block. `pending` is the queue of commands waiting, first in first out. -/
structure State where
  pending : List Instr
  regs : List (Nat × Dword)
  latch : List (Nat × Dword)
  held : List Held
  freeCtr : Nat
  out : List Out
  tim : Tim
  sett : Sett
  ing : Ing
  aln : Aln
  sched : Sched
  cmd : Cmd
  irq : Irq
  evr : Evr
  mac : Mac
  pmu : Pmu
  keys : Keys
  ecc : Ecc
  alm : Alm
  ang : Ang
  isl : Isl
  osc : Osc
  outp : OutSt
  cas : Cas
  twn : Twn
  flt : Flt
  nrg : Nrg
  trg : Trg
  boot : Boot
  dbg : Dbg
  deriving DecidableEq, Repr

/-! ### Reset -/

/-- Registers right after power is first applied: each at its table's reset value; one with none ("-") reads zero. -/
def resetRegs : List (Nat × Dword) := resetImageAon.foldl (fun m p => mput m p.1 p.2) resetImageSys

/-- An empty table. -/
def Tbl.empty {α : Type} : Tbl α := ⟨[], [], [], [], []⟩

/-- A function's PCI Express state after reset (R437). -/
def PcieFn.reset : PcieFn := ⟨false, false, false, false, false, false, [], [], [], true, false⟩

/-- Time base after reset. -/
def Tim.reset : Tim := ⟨0, 0, none, [], none, 0, false, 0, 0, [], none, false, 0, 0, [], [], [], none, none, 0, 0⟩

/-- An empty Sett. -/
def Sett.reset : Sett := ⟨[], 0, [], none, [], [], [], []⟩

/-- Ingest after reset. -/
def Ing.reset : Ing := ⟨Tbl.empty, [], [], [], [], [], [], [], []⟩

/-- Alignment after reset: cadence 120 reports/s, rate code 9 (ALN_STAT.RATE). -/
def Aln.reset : Aln := ⟨[], none, 0, none, 0, 0, Tbl.empty, [], 9, false, none, none, 9, [], 0, false, none, [], 0⟩

/-- The scheduler after reset. -/
def Sched.reset : Sched := ⟨[], [], [], [], none⟩

/-- The command interpreter after reset. -/
def Cmd.reset : Cmd := ⟨⟨[]⟩, ⟨[]⟩, [], [], none, none, [], [], [], none, .pf1, [], []⟩

/-- The interrupt controller after reset. -/
def Irq.reset : Irq := ⟨[], [], PcieFn.reset, PcieFn.reset, false, [], [], [], [], []⟩

/-- The event recorder after reset. -/
def Evr.reset : Evr := ⟨[], [], [], [], 0, [], [], none, (0, 0, 0), false, []⟩

/-- The ports after reset. -/
def Mac.reset : Mac := ⟨[], [], 0, 0, [], 0, 0, 0, [], []⟩

/-- Local phasors after reset. -/
def Pmu.reset : Pmu := ⟨Tbl.empty, Tbl.empty, [], []⟩

/-- A bay's estimator before its first record; reference frequency 0 stands for FNOM. -/
def PmuBay.reset : PmuBay := ⟨true, [], none, 0, [], 15, none, none, none, [], none, 0⟩

/-- The key engine after an AON reset. -/
def Keys.reset : Keys := ⟨[], [], none, none, false, none, none, [], 0, []⟩

/-- Store integrity after reset. -/
def Ecc.reset : Ecc := ⟨[], [], [], [], [], [], [], [], [], 0, 0, 0, false, none, []⟩

/-- The alarm logic after reset. -/
def Alm.reset : Alm := ⟨[], 0, [], [], [], [], false, [], [], 0⟩

/-- The limit-and-angle engine after reset. -/
def Ang.reset : Ang := ⟨Tbl.empty, Tbl.empty, []⟩

/-- The island engine after reset. -/
def Isl.reset : Isl := ⟨Tbl.empty, Tbl.empty, Tbl.empty, 0, 0, 0, [], [], [], [], [], [], none, 0, 0, 0, []⟩

/-- The oscillation engine after reset: the reset placement at 120 reports/s. -/
def Osc.reset : Osc := ⟨Tbl.empty, Tbl.empty, Tbl.empty, 0, [], [], [], [], [], 0, 0, 0, false, [], [], [], none⟩

/-- Output groups after reset. -/
def OutSt.reset : OutSt := ⟨Tbl.empty, Tbl.empty, [], [], [], [], [], [], 0, 0⟩

/-- The cascade link after reset. -/
def Cas.reset : Cas := ⟨none, 0, 0, 0, 0, true, [], [], 0, [], [], none, some 0, false⟩

/-- The twin monitor after reset; its first heartbeat instant is 1 ms after (R374). -/
def Twn.reset : Twn := ⟨false, 0, none, 491520, 0, 0, none, none, none, none, none, none, none, 0, 0, 0, none, false, none, none⟩

/-- The front end after reset: both banks hold one coefficient of 1.0 for every tap (R275). -/
def Flt.reset : Flt :=
  ⟨[], [], [], [], [], [(0, [0x400000]), (1, [0x400000]), (2, [0x400000]), (4, [0x400000]), (5, [0x400000]), (6, [0x400000])], none, none, 0⟩

/-- Energy after reset. -/
def Nrg.reset : Nrg := ⟨[], 0, [], [], Tbl.empty, [], 0, none, [], none, 0, none, none, []⟩

/-- Waveform capture after reset; handles 0 to 7 stand for the units' own segments. -/
def Trg.reset : Trg := ⟨[], [], 8, false, none, none⟩

/-- The boot header as this model takes a unit to be delivered (notes/assumptions/80.md). -/
def FlashHdr.delivered : FlashHdr := ⟨true, 0, false, 0xFF, 0, 0, 0⟩

/-- Start-up state right after power is first applied: a POR from OFF (R479, R480). -/
def Boot.reset : Boot :=
  ⟨.reset, 2, 2, true, 0, false, none, none, 0, 0, FlashHdr.delivered, [], none, [], [], true, none, none, []⟩

/-- A core's debug registers after reset. -/
def DbgCore.reset : DbgCore := ⟨false, false, 0, 0, 0, [], []⟩

/-- The debug port after a SYS reset (R502). -/
def Dbg.reset : Dbg := ⟨none, 0, 0, 0, 0, false, none, 0, [], none, [], []⟩

/-- The block right after power is first applied and before its boot sequence has run (R479, R481). -/
def State.reset : State :=
  { pending := [], regs := resetRegs, latch := [], held := [], freeCtr := 0, out := [], tim := Tim.reset,
    sett := Sett.reset, ing := Ing.reset, aln := Aln.reset, sched := Sched.reset, cmd := Cmd.reset, irq := Irq.reset, evr := Evr.reset,
    mac := Mac.reset, pmu := Pmu.reset, keys := Keys.reset, ecc := Ecc.reset,
    alm := Alm.reset, ang := Ang.reset, isl := Isl.reset, osc := Osc.reset,
    outp := OutSt.reset, cas := Cas.reset, twn := Twn.reset,
    flt := Flt.reset, nrg := Nrg.reset, trg := Trg.reset, boot := Boot.reset, dbg := Dbg.reset }

end Sys2Proof.Machine
end

