-- ==== Sys2Proof/Machine/Ops.lean ====
section
/-!
DEFINITION. Sys2Proof/Machine/Ops.lean: the operations every block shares: the register store, local time, the Sett's
allocator and host queues, interrupt raises, event logging, host memory writes, configuration tables, and the frame of
the command interpreter.
-/
namespace Sys2Proof.Machine

/-- What a meaning answers. -/
abbrev Result := Host.Outcome State Fault Refusal

/-! ### The register store (R13, R15) -/

/-- The dword stored at a register offset; a register not listed holds zero. -/
def State.rd (s : State) (a : Nat) : Dword := mgetD s.regs a 0

/-- Stores a dword at a register offset. -/
def State.wr (s : State) (a : Nat) (v : Dword) : State := { s with regs := mstore 0 s.regs a v }

/-- A field's value. -/
def State.get (s : State) (f : Fld) : Nat := bits (s.rd f.addr).toNat f.hi f.lo

/-- Puts a value, taken modulo the field's width, into a field. -/
def State.set (s : State) (f : Fld) (x : Nat) : State :=
  s.wr f.addr (BitVec.ofNat 32 (setBits (s.rd f.addr).toNat f.hi f.lo x))

/-- A one-bit field as a Bool. -/
def State.flag (s : State) (f : Fld) : Bool := s.get f != 0

/-- Puts a Bool into a one-bit field. -/
def State.setB (s : State) (f : Fld) (b : Bool) : State := s.set f (b2n b)

/-- A counter that wraps. -/
def State.inc (s : State) (f : Fld) : State := s.set f (s.get f + 1)

/-- A counter that wraps, advanced by n. -/
def State.add (s : State) (f : Fld) (n : Nat) : State := s.set f (s.get f + n)

/-- A counter that saturates at its field's largest value. -/
def State.incSat (s : State) (f : Fld) : State := s.set f (satInc (s.get f) (2 ^ (f.hi - f.lo + 1) - 1))

/-- A 64-bit counter in a LO, HI pair of dwords, advanced by one. -/
def State.inc64 (s : State) (lo hi : Nat) : State :=
  let v := (s.rd lo).toNat + 2 ^ 32 * (s.rd hi).toNat + 1
  (s.wr lo (BitVec.ofNat 32 v)).wr hi (BitVec.ofNat 32 (v / 2 ^ 32))

/-- A value of up to 64 bits put into a LO, HI pair. -/
def State.put64 (s : State) (lo hi v : Nat) : State :=
  (s.wr lo (BitVec.ofNat 32 v)).wr hi (BitVec.ofNat 32 (v / 2 ^ 32))

/-- The 64-bit value of a LO, HI pair. -/
def State.get64 (s : State) (lo hi : Nat) : Nat := (s.rd lo).toNat + 2 ^ 32 * (s.rd hi).toNat

/-- The next free value (notes/assumptions/1.md). -/
def State.fresh (s : State) : Nat × State := (Config.free s.freeCtr, { s with freeCtr := s.freeCtr + 1 })

/-! ### Time (R44, R47, R54, R55, R68) -/

/-- The fewest TIME ticks that last at least n ns: a tick is 15 625 / 7680 ns (R44). -/
def ticksOfNs (n : Nat) : Nat := ceilDiv (n * 7680) 15625

/-- Ticks of n µs, n ms, n s. -/
def ticksOfUs (n : Nat) : Nat := ticksOfNs (n * 1000)
/-- Ticks of n ms: 491 520 each. -/
def ticksOfMs (n : Nat) : Nat := n * 491520
/-- Ticks of n s. -/
def ticksOfS (n : Nat) : Nat := n * 491520000

/-- The TIME count now. -/
def State.now (s : State) : Nat := s.tim.now

/-- Whole ns since tick `t0`. -/
def State.nsSince (s : State) (t0 : Nat) : Nat := (s.now - t0) * 15625 / 7680

/-- Have `n` ticks passed since tick `t0`. -/
def State.passed (s : State) (t0 n : Nat) : Bool := decide (t0 + n ≤ s.now)

/-- TIM_INCR in effect. -/
def State.incr (s : State) : Nat := s.get64 R.TIM_INCR_LO R.TIM_INCR_HI

/-- Local time at count n from an anchor (t, n0) and an increment (R47); zero for a count before it. -/
def anchored (t n0 incr n : Nat) : Nat := if n0 ≤ n then (t + (n - n0) * incr) % 2 ^ 128 else 0

/-- Local time at TIME count n, in units of 2^-40 ns, a uint128 (R47); zero before seeding (R54). A count before the last correction of the
time is reckoned by the anchor that held then. -/
def State.t40At (s : State) (n : Nat) : Nat :=
  match (s.tim.past.takeWhile fun p => decide (n < p.1)).getLast?, s.tim.anchor with
  | some (_, t, n0, i), _ => anchored t n0 i n
  | none, some (t, n0) => anchored t n0 s.incr n
  | none, none => 0

/-- The anchor is about to change at this tick: the old one is remembered for the counts before. -/
def State.keepAnchor (s : State) : State :=
  match s.tim.anchor with
  | none => s
  | some (t, n0) => { s with tim := { s.tim with past := (s.tim.now, t, n0, s.incr) :: s.tim.past } }

/-- Local time now, in units of 2^-40 ns. -/
def State.t40 (s : State) : Nat := s.t40At s.now

/-- Local time now in whole TAI ns. -/
def State.taiNs (s : State) : Nat := s.t40 / 2 ^ 40

/-- TAI ns of a UTC tag (R85). -/
def State.taiOf (s : State) (soc ns : Nat) : Nat := (soc + s.get F.TIM_UTCOFF_OFFSET) * 1000000000 + ns

/-- UTC second and ns of a TAI ns count. -/
def State.utcOf (s : State) (tai : Nat) : Nat × Nat :=
  (tai / 1000000000 - s.get F.TIM_UTCOFF_OFFSET, tai % 1000000000)

/-- The short stamp of a TAI ns count (R55). -/
def shortStamp (tai : Nat) : Nat := tai % 2 ^ 32

/-- The active source, codes 4 to 7 acting as 0 (R58). -/
def State.actSrc (s : State) : Nat := let a := s.get F.TIM_SRC_ACT; if a < 4 then a else 0

/-- The time-quality code of R68. -/
def State.tqCode (s : State) : Nat :=
  if s.flag F.TIM_STAT_REF_LOST || s.flag F.TIM_STAT_EXPIRED || s.actSrc == 0 || !s.tim.everLocked then 0xF
  else if s.flag F.TIM_CTRL_HOLD then
    (((List.range 11).find? fun i => decide (s.get F.TIM_UNC_U ≤ 10 ^ i)).map (· + 1)).getD 0xB
  else if s.flag F.TIM_SERVO_LOCK then 0 else 0xF

/-- The time-quality byte TIM_TQ.TQ (R68). -/
def State.tqByte (s : State) : Nat :=
  64 * s.get F.TIM_UTCOFF_LEAP_DIR + 32 * s.get F.TIM_UTCOFF_LEAP_OCC + 16 * s.get F.TIM_UTCOFF_LEAP_PEND + s.tqCode

/-- The coarse real-time clock's seconds (R54). -/
def State.rtc (s : State) : Nat := s.tim.rtcBase + (s.now - s.tim.rtcFrom) / 491520000

/-! ### Interrupt raises (R424, R426, R428) -/

/-- One raise of source n on a channel: the source becomes due; raises and the first raise's time are kept (R431). -/
def IrqCh.raised (c : IrqCh) (now : Nat) : IrqCh :=
  { c with due := true, count := c.count + 1, since := if c.count == 0 then now else c.since }

/-- A channel with nothing due. -/
def IrqCh.idle : IrqCh := ⟨false, 0, 0, false⟩

/-- The OCC field of source n. -/
def occFld (n : Nat) : Fld :=
  (if n % 2 == 0 then F.IRQ_OCC_OCC_LO else F.IRQ_OCC_OCC_HI).at (4 * (n / 2))

/-- One bit of a word array as a field. -/
def bitFld (base n : Nat) : Fld := ⟨base + 4 * (n / 32), n % 32, n % 32⟩

/-- A raise of source n on the channels given: OCC advances once, the main channel sets PEND and DUE. -/
def State.raiseOn (s : State) (n : Nat) (main pf1 : Bool) : State :=
  let s := s.inc (occFld n)
  let s := if main then
      let s := (s.setB (bitFld R.IRQ_PEND n) true).setB (bitFld R.IRQ_DUE n) true
      { s with irq := { s.irq with main := mmod s.irq.main n IrqCh.idle fun c => c.raised s.now } }
    else s
  if pf1 then { s with irq := { s.irq with pf1 := mmod s.irq.pf1 n IrqCh.idle fun c => c.raised s.now } } else s

/-- PF1_EN of source n. -/
def State.pf1En (s : State) (n : Nat) : Bool := s.flag (F.IRQ_ROUTE_PF1_EN.at (4 * n))

/-- A raise of an ordinary source (R426, last paragraph). -/
def State.raise (s : State) (n : Nat) : State := s.raiseOn n true (s.pf1En n)

/-- A raise of source 24 or 25 by queue q: main for PF0's queues, PF1 channel for PF1's (R426). -/
def State.raiseQueue (s : State) (q : Nat) : State :=
  let n := if q < 8 then 24 else 25
  if s.flag (F.SET_HQ_CFG_OWNER.at (0x80 * q)) then s.raiseOn n false true else s.raiseOn n true false

/-- A raise of source 81: PF1 channel always, main only while its TARGET is a core or a pin (R426). -/
def State.raise81 (s : State) : State :=
  let t := s.get (F.IRQ_ROUTE_TARGET.at (4 * 81))
  s.raiseOn 81 (decide (2 ≤ t) && decide (t ≤ 5)) true

/-! ### Events: raising (R439, R440) -/

/-- An event: its interrupt source is raised and the record waits to be logged (within 1 µs, R438). Suppression by rate
touches neither the source nor any counter of the cause. -/
def State.ev (s : State) (code sidx : Nat) (args : List (Nat × Nat)) : State :=
  let s := match evSource code with
    | some n => s.raise n
    | none => s
  let s := if code == Ev.UNCORR then { s with twn := { s.twn with uncorrAt := some s.now } } else s
  { s with evr := { s.evr with backlog := s.evr.backlog ++ ([⟨code, sidx, args⟩] : List PendEv) } }

/-- An event with no named stream and no values. -/
def State.ev0 (s : State) (code : Nat) : State := s.ev code 0 []

/-! ### The Sett's pages (R103 to R110) -/

/-- Pages charged to class c. -/
def State.used (s : State) (c : Nat) : Nat := (s.sett.pages.filter fun p => p.2.cls == c).length

/-- QUOTA of class c. -/
def State.quota (s : State) (c : Nat) : Nat := s.get (F.SET_QUOTA_ALIGN_QUOTA.at (4 * c))

/-- Borrowed pages of class c (R107). -/
def State.borrowed (s : State) (c : Nat) : Nat := s.used c - s.quota c

/-- SPARE_FREE (R107): may be negative after retirements (R109). -/
def State.spareFree (s : State) : Int :=
  (s.get F.SET_QUOTA_SPARE_QUOTA : Int) - (((List.range 7).map s.borrowed).foldl (· + ·) 0 : Nat)

/-- Free pages: neither allocated nor retired. -/
def State.freeCount (s : State) : Nat := 8192 - s.sett.pages.length - s.sett.retired.length

/-- Does a quota of 0 shut class c out (R106): LATE, CAPT and CASC then store nothing. -/
def State.classShut (s : State) (c : Nat) : Bool := (c == 1 || c == 3 || c == 5) && s.quota c == 0

/-- May class c allocate a page now (R106, R107; SET_CTRL.EN = 0 fails every allocation). -/
def State.canAlloc (s : State) (c : Nat) : Bool :=
  s.flag F.SET_CTRL_EN && decide (0 < s.freeCount) && !s.classShut c &&
    (decide (s.used c < s.quota c) ||
      (s.flag (F.SET_QUOTA_ALIGN_BORROW.at (4 * c)) && decide (0 < s.spareFree)))

/-- Is the physical page on the free list. -/
def State.physFree (s : State) (p : Nat) : Bool :=
  !(s.sett.pages.any fun x => x.2.phys == p) && !smem s.sett.retired p

/-- The free pages of the first bank, from the bank after the last page's, that has any (R105). -/
def State.candidates (s : State) : List Nat :=
  let b0 := match s.sett.lastPhys with
    | none => 0
    | some p => (p % 16 + 1) % 16
  let inBank (b : Nat) : List Nat := ((List.range 512).map fun i => 16 * i + b).filter s.physFree
  (((List.range 16).map fun i => inBank ((b0 + i) % 16)).find? fun l => !l.isEmpty).getD []

/-- Which free page of that bank is handed out is not stated: a free choice (notes/assumptions/7.md). -/
def State.pickPhys (s : State) : Nat := (s.candidates[Config.free s.freeCtr % s.candidates.length]?).getD 0

/-- PEAK of class c follows USED (R107). -/
def State.peak (s : State) (c : Nat) : State :=
  let f := F.SET_USE_PEAK.at (4 * c)
  if s.get f < s.used c then s.set f (s.used c) else s

/-- Hands out a page to class c with the words given, without a quota test. -/
def State.takePage (s : State) (c : Nat) (ws : List SWord) (hs : List Holder) : Nat × State :=
  let id := s.sett.nextId
  let ph := s.pickPhys
  let s := { s with
    freeCtr := s.freeCtr + 1
    sett := { s.sett with
      pages := mput s.sett.pages id ⟨ph, c, ws, hs, false⟩, nextId := id + 1, lastPhys := some ph } }
  (id, s.peak c)

/-- A failed allocation: SET_FAIL_c counts it, and EV_SET_QUOTA_FULL is logged once per class per 1 ms (R107, R129). -/
def State.allocFail (s : State) (c : Nat) : State :=
  let s := s.inc (F.SET_FAIL_COUNT.at (4 * c))
  match mget s.sett.quotaLog c with
  | some t => if s.passed t (ticksOfMs 1) then
      { s with sett := { s.sett with quotaLog := mput s.sett.quotaLog c s.now } }.ev0 Ev.SET_QUOTA_FULL
    else s
  | none => { s with sett := { s.sett with quotaLog := mput s.sett.quotaLog c s.now } }.ev0 Ev.SET_QUOTA_FULL

/-- Allocates a page for class c (R105 to R107), or counts the failure. -/
def State.alloc (s : State) (c : Nat) (ws : List SWord) (hs : List Holder) : Option Nat × State :=
  if s.canAlloc c then
    let r := s.takePage c ws hs
    (some r.1, r.2)
  else (none, s.allocFail c)

/-- Changes a page. -/
def State.modPage (s : State) (id : Nat) (f : Page → Page) : State :=
  match mget s.sett.pages id with
  | none => s
  | some p => { s with sett := { s.sett with pages := mput s.sett.pages id (f p) } }

/-- Frees a page. -/
def State.freePage (s : State) (id : Nat) : State :=
  { s with sett := { s.sett with pages := merase s.sett.pages id } }

/-- Adds a holder. -/
def State.holdPage (s : State) (id : Nat) (h : Holder) : State :=
  s.modPage id fun p => if p.holders.contains h then p else { p with holders := p.holders ++ [h] }

/-- Is the holder a host queue. -/
def Holder.isQueue : Holder → Bool
  | .queue _ => true
  | _ => false

/-- A page with other holders: a charge stays reserved for HOSTQ while a queue references the page (R118). -/
def Page.heldBy (p : Page) (hs : List Holder) : Page := { p with holders := hs, reserved := p.reserved && hs.any Holder.isQueue }

/-- Takes a holder off; the page is freed when its last holder releases it (R110). -/
def State.dropHold (s : State) (h : Holder) (id : Nat) : State :=
  match mget s.sett.pages id with
  | none => s
  | some p =>
    if p.holders.contains h then
      let hs := p.holders.erase h
      if hs.isEmpty then s.freePage id else s.modPage id fun p => p.heldBy hs
    else s

/-- Takes a holder off several pages. -/
def State.dropHolds (s : State) (h : Holder) (ids : List Nat) : State := ids.foldl (fun s id => s.dropHold h id) s

/-- The words a reference names. -/
def State.refWords (s : State) (r : Ref) : List SWord :=
  match mget s.sett.pages r.page with
  | none => []
  | some p => (p.words.drop r.ofs).take r.n

/-- The words of a packet in order. -/
def State.pktWords (s : State) (p : Pkt) : List SWord := p.parts.flatMap s.refWords

/-- A plain word. -/
def sword (x : Nat) : SWord := ⟨BitVec.ofNat 72 x, false, false⟩

/-- The flag byte of a word (R116). -/
def flagByte (eop poison corrected noword : Bool) : Nat := b2n eop + 2 * b2n poison + 4 * b2n corrected + 8 * b2n noword

/-- END on the last word, and on no other (R101). -/
def markEnd : List SWord → List SWord
  | [] => []
  | [w] => [{ w with eop := true }]
  | w :: v :: t => { w with eop := false } :: markEnd (v :: t)

/-- Packs records into pages of 1024 words, no record crossing a page (R104): per page, the (stream, words) pairs. -/
def packPages : List (Nat × List SWord) → List (List (Nat × List SWord))
  | recs => (recs.foldl (fun (acc : List (List (Nat × List SWord)) × Nat) r =>
      if acc.2 + r.2.length ≤ 1024 && !acc.1.isEmpty then
        (acc.1.dropLast ++ [((acc.1.getLast?).getD []) ++ [r]], acc.2 + r.2.length)
      else (acc.1 ++ [[r]], r.2.length)) ([], 0)).1

/-- References to the records packed into one page. -/
def refsOfPage (id : Nat) (rs : List (Nat × List SWord)) : List Ref :=
  (rs.foldl (fun (acc : List Ref × Nat) r => (acc.1 ++ [⟨r.1, id, acc.2, r.2.length⟩], acc.2 + r.2.length)) ([], 0)).1

/-! ### Host queues: admission (R117, R118, R534) -/

/-- An empty queue. -/
def HostQ.empty : HostQ := ⟨[], 0, 0, (0, 0)⟩

/-- Queue q. -/
def State.hq (s : State) (q : Nat) : HostQ := mgetD s.sett.queues q HostQ.empty

/-- Stores queue q. -/
def State.setHq (s : State) (q : Nat) (h : HostQ) : State :=
  { s with sett := { s.sett with queues := mput s.sett.queues q h } }

/-- Pages a queue references, each once. -/
def HostQ.pageSet (h : HostQ) : List Nat := (h.pkts.flatMap fun p => p.pages).eraseDups

/-- HOSTQ's load in the admission test: USED and every reserved charge (R118). -/
def State.hostqLoad (s : State) : Nat :=
  (s.sett.pages.filter fun p => p.2.cls == 2 || p.2.reserved).length

/-- Can HOSTQ take `extra` more pages under R107. -/
def State.hostqTakes (s : State) (extra : Nat) : Bool :=
  let n := s.hostqLoad + extra
  extra == 0 || decide (n ≤ s.quota 2) ||
    (s.flag F.SET_QUOTA_HOSTQ_BORROW &&
      decide (((n - s.quota 2 : Nat) : Int) ≤ s.spareFree + (s.borrowed 2 : Nat)))

/-- Does queue q select the source and run. -/
def State.hqSelects (s : State) (q : Nat) (srcMask : Nat) : Bool :=
  s.flag (F.SET_HQ_CFG_EN.at (0x80 * q)) && (Nat.land (s.get (F.SET_HQ_SRC_SRC.at (0x80 * q))) srcMask != 0)

/-- The queue's pending bit, and its interrupt (R120, R123, R130). -/
def State.hqPend (s : State) (q : Nat) : State :=
  (s.setB ⟨R.SET_HQ_PEND, q, q⟩ true).raiseQueue q

/-- Puts a packet into queue q: counters, lease start on an empty queue, pending bit in MMIO mode (R111, R123). -/
def State.hqPush (s : State) (q : Nat) (p : Pkt) : State :=
  let h := s.hq q
  let s := s.setHq q { h with
    pkts := h.pkts ++ [p]
    leaseAt := if h.pkts.isEmpty then s.now else h.leaseAt }
  let s := p.pages.foldl (fun s id => s.holdPage id (.queue q)) s
  let s := s.inc (F.SET_HQ_PKTIN_PKTIN.at (0x80 * q))
  if s.flag (F.SET_HQ_CFG_MODE.at (0x80 * q)) then s.hqPend q else s

/-- A packet that queue q does not admit (R118). -/
def State.hqRefuse (s : State) (q : Nat) : State :=
  ((s.incSat (F.SET_HQ_DROP_OVERRUN.at (0x80 * q))).setB (F.SET_HQ_STAT_OVERRUN.at (0x80 * q)) true).ev0
    Ev.SET_HQ_OVERRUN

/-- Offers to queue q a packet that lies in pages of its own class; `charge` says whether HOSTQ takes the charge. -/
def State.hqOffer (s : State) (q : Nat) (p : Pkt) (charge : Bool) : State × Bool :=
  let pg := ((s.hq q).pageSet ++ p.pages).eraseDups
  let extra := if charge then
      (p.pages.filter fun id => match mget s.sett.pages id with
        | some g => !(g.cls == 2 || g.reserved)
        | none => false).length
    else 0
  if decide (pg.length ≤ s.get (F.SET_HQ_CFG_MAXPG.at (0x80 * q))) && s.hostqTakes extra then
    let s := if charge then
        p.pages.foldl (fun s id => s.modPage id fun g => if g.cls == 2 then g else { g with reserved := true }) s
      else s
    (s.hqPush q p, true)
  else (s.hqRefuse q, false)

/-- Offers a packet already stored to every queue that selects it (R118); `pre` narrows the queues (R119). -/
def State.offerRefs (s : State) (p : Pkt) (charge : Bool) (pre : State → Nat → Bool) : State :=
  (List.range 16).foldl (fun s q =>
    if s.hqSelects q (2 ^ p.src) && pre s q then (s.hqOffer q p charge).1 else s) s

/-- Offers a packet that gets HOSTQ pages of its own when some queue admits it (R534): `recs` are its records. No two packets share a page
(notes/assumptions/102.md). Where a queue would admit it and HOSTQ has no room, that is a failed allocation of HOSTQ (R107, R129). -/
def State.offerCopy (s : State) (src srcMask : Nat) (recs : List (Nat × List SWord)) : State :=
  let groups := packPages recs
  let n := groups.length
  let room := s.flag F.SET_CTRL_EN && decide (n ≤ s.freeCount) && s.hostqTakes n
  let sel := (List.range 16).filter fun q => s.hqSelects q srcMask
  let want := sel.filter fun q => decide ((s.hq q).pageSet.length + n ≤ s.get (F.SET_HQ_CFG_MAXPG.at (0x80 * q)))
  let adm := if room then want else []
  let s := sel.foldl (fun s q => if adm.contains q then s else s.hqRefuse q) s
  let s := if !room && !want.isEmpty then s.allocFail 2 else s
  if adm.isEmpty then s else
  let r := groups.foldl (fun (acc : State × List Ref × List Nat) g =>
    let t := acc.1.takePage 2 (g.flatMap fun x => x.2) []
    (t.2, acc.2.1 ++ refsOfPage t.1 g, acc.2.2 ++ [t.1])) (s, [], [])
  adm.foldl (fun s q => s.hqPush q ⟨src, r.2.1, r.2.2, none⟩) r.1

/-- Drops every packet of queue q and frees what only it held (R122). -/
def State.hqFlush (s : State) (q : Nat) : State :=
  let h := s.hq q
  let n := h.pkts.length
  let s := s.dropHolds (.queue q) h.pageSet
  let f := F.SET_HQ_DROP_FLUSHED.at (0x80 * q)
  let s := s.set f (min (s.get f + n) 65535)
  s.setHq q { h with pkts := [], sent := 0 }

/-! ### The Alarm Status Port and the ALM pins (R169 to R174) -/

/-- Is the unit one of a twin pair (R35). -/
def State.twin (s : State) : Bool := s.get F.TOP_STRAPS_ROLE_EFF != 0

/-- Are pins and alarm frames inhibited (R173, R382). -/
def State.inhibited (s : State) : Bool := s.twin && (s.alm.inh || !s.flag F.TWN_STAT_AL)

/-- Are the pins held inactive: inhibited, or from an accepted PFWN or a quiesce until its end (R493 to R495). -/
def State.pinsHeld (s : State) : Bool := s.inhibited || s.flag F.PWR_STAT_PFW || s.flag F.PWR_STAT_QUIESCE

/-- The key of an active alarm: who keeps it (0 limit rule, 1 pair, 2 island, 3 oscillation, 4 cascade) and its number. -/
def almKey (src n : Nat) : Nat := src * 2 ^ 20 + n

/-- Groups that an active alarm names; 0x3FF is no group (R169). -/
def State.almGroups (s : State) : List Nat :=
  s.alm.act.foldl (fun l p => if p.2 == 0x3FF then l else sadd l p.2) []

/-- Has an alarm of source `src` that names a group been raised. -/
def State.almAny (s : State) (src : Nat) : Bool := s.alm.act.any fun p => p.1 / 2 ^ 20 == src && p.2 != 0x3FF

/-- ASP word 0 (R170). -/
def State.aspWord0 (s : State) : Nat :=
  b2n (!s.almGroups.isEmpty) + 2 * b2n (s.almAny 0) + 4 * b2n (s.almAny 1) + 8 * b2n (s.almAny 2) + 16 * b2n (s.almAny 3) +
    32 * b2n (s.alm.inh && s.twin) + 64 * b2n (!s.twin || s.get F.TWN_STAT_ROLE == 2) + 128 * b2n (s.tqByte % 16 == 15) +
    256 * b2n (s.flag F.ANG_STAT_STALE) + 512 * b2n (!s.flag F.ANG_CTRL_EN)

/-- An ASP word (R170). -/
def State.aspWord (s : State) (w : Nat) : Nat :=
  if w == 0 then s.alm.word0
  else if w == 1 then s.get F.ANG_ASPCNT_WORD
  else (s.alm.groups.filter fun g => g / 16 == w - 2).foldl (fun a g => a + 2 ^ (g % 16)) 0

/-- A field of ANG_ALMCFG_n. -/
def almf (f : Fld) (n : Nat) : Fld := f.at (4 * n)

/-- Raw of pin n: the OR of its groups (R172). -/
def State.almRaw (s : State) (n : Nat) : Bool :=
  let b := s.get (almf F.ANG_ALMCFG_GBASE n)
  s.alm.groups.any fun g => decide (b ≤ g) && decide (g < b + s.get (almf F.ANG_ALMCFG_GCNT n))

/-- Is pin n logically active, before inhibit (R172). -/
def State.almActive (s : State) (n : Nat) : Bool :=
  (match s.get (almf F.ANG_ALMCFG_MODE n) with
    | 0 => s.almRaw n
    | 1 => s.almRaw n || bit (s.get F.ANG_ALMSTAT_LATCHED) n
    | 2 => (mget s.alm.pulse n).isSome
    | 4 => true
    | _ => false) ||
  (s.flag (almf F.ANG_ALMCFG_FSAFE n) && bits s.alm.word0 9 8 != 0)

/-- The level of pin ALM[n] (R172 to R174). -/
def State.almPin (s : State) (n : Nat) : Bool :=
  smem s.alm.cfgd n && xor (s.almActive n && !s.pinsHeld) (s.flag (almf F.ANG_ALMCFG_POL n))

/-- A rise of raw at pin n: the latch is set, or a pulse starts or starts again unless inhibited (R172, R173). -/
def State.almRise (s : State) (n : Nat) : State :=
  match s.get (almf F.ANG_ALMCFG_MODE n) with
  | 1 => s.setB ⟨R.ANG_ALMSTAT, 8 + n, 8 + n⟩ true
  | 2 => if s.inhibited then s
    else { s with alm := { s.alm with
      pulse := mput s.alm.pulse n (s.now + ticksOfMs (s.get (almf F.ANG_ALMCFG_PULSE n))) } }
  | _ => s

/-- Words, pins and their registers follow their causes; UPD counts a change (R170 to R173). -/
def State.almSync (s : State) : State :=
  let w := s.aspWord0
  let g := s.almGroups
  let s := if w == s.alm.word0 && g == s.alm.groups then s
    else ({ s with alm := { s.alm with word0 := w, groups := g } }.inc F.ANG_ASPCNT_WORD).set F.ANG_ASPSUM_WORD w
  let raw := (List.range 8).filter s.almRaw
  let s := (raw.filter fun n => !smem s.alm.raw n).foldl (fun s n => s.almRise n) s
  let s := if raw == s.alm.raw then s else { s with alm := { s.alm with raw := raw } }
  let out := ((List.range 8).filter fun n => s.almActive n && !s.pinsHeld).foldl (fun a n => a + 2 ^ n) 0
  if s.get F.ANG_ALMSTAT_OUT == out then s else s.set F.ANG_ALMSTAT_OUT out

/-! ### Event logging (R438 to R443) -/

/-- Packs ARG values from bit 71 of P1 downward (R532): the words P1 to P3. -/
def packArgs (args : List (Nat × Nat)) : List Nat :=
  let r := args.foldl (fun (acc : Nat × Nat) a =>
    if acc.2 + a.1 ≤ 216 then (acc.1 * 2 ^ a.1 + a.2 % 2 ^ a.1, acc.2 + a.1) else acc) (0, 0)
  let n := max 1 (ceilDiv r.2 72)
  let v := r.1 * 2 ^ (72 * n - r.2)
  (List.range n).map fun i => v / 2 ^ (72 * (n - 1 - i)) % 2 ^ 72

/-- A record's header word H0 (R88). -/
def h0 (ty sidx nwords stat arrival late : Nat) : Nat :=
  ty * 2 ^ 68 + sidx % 8192 * 2 ^ 55 + nwords % 64 * 2 ^ 49 + stat % 65536 * 2 ^ 33 + arrival % 2 ^ 32 * 2 + late % 2

/-- A record's time word H1 (R88). -/
def h1 (soc ns tq : Nat) : Nat := soc % 2 ^ 32 * 2 ^ 40 + ns % 2 ^ 30 * 2 ^ 10 + tq % 256 * 4

/-- An event record (R438), END on its last word (R101). -/
def State.eventWords (s : State) (e : PendEv) (seq supp : Nat) (origin : Nat) : List SWord :=
  let u := s.utcOf s.taiNs
  let ps := packArgs e.args
  let fl := b2n (evCritical e.code) + (if origin == 1 || origin == 2 then 4 else 0)
  let p0 := seq % 2 ^ 32 * 2 ^ 40 + min supp 65535 * 2 ^ 24 + fl * 2 ^ 16 + origin * 2 ^ 8
  markEnd (([h0 6 e.sidx (1 + ps.length) e.code (shortStamp s.taiNs) 0, h1 u.1 u.2 s.tqByte, p0] ++ ps).map sword)

/-- EVR_OLDEST and RINGPG follow the ring (R442). -/
def State.evrSync (s : State) : State :=
  let o := match s.evr.recs with
    | [] => s.get F.EVR_SEQ_SEQ
    | r :: _ => r.seq
  (s.set F.EVR_OLDEST_SEQ o).set F.EVR_STAT_RINGPG s.evr.pages.length

/-- Stores a record in the ring's last page if it fits. -/
def State.ringAppend (s : State) (seq : Nat) (ws : List SWord) (id : Nat) : State :=
  match mget s.sett.pages id with
  | none => s
  | some p =>
    let s := s.modPage id fun g => { g with words := g.words ++ ws }
    let s := { s with evr := { s.evr with recs := s.evr.recs ++ [EvRec.mk seq ⟨0, id, p.words.length, ws.length⟩] } }
    s.raise 7

/-- Does a record of n words fit in page id. -/
def State.fits (s : State) (id n : Nat) : Bool :=
  match mget s.sett.pages id with
  | none => false
  | some p => decide (p.words.length + n ≤ 1024)

/-- Stores a record in the event ring (R442): in the last page, in a page taken for it, or, unless the ring is frozen, in
the oldest page cleared for it. -/
def State.ringStore (s : State) (seq : Nat) (ws : List SWord) : State :=
  let last := s.evr.pages.getLast?
  if !s.flag F.EVR_CTRL_EN then s
  else if (last.map fun id => s.fits id ws.length).getD false then s.ringAppend seq ws (last.getD 0)
  else
    let r := if s.evr.pages.length < s.evr.size then s.alloc 4 [] [.ring] else (none, s)
    match r.1 with
    | some id => ({ r.2 with evr := { r.2.evr with pages := r.2.evr.pages ++ [id] } }).ringAppend seq ws id
    | none =>
      let s := r.2
      if s.evr.frozenAt.isSome then
        let l := s.evr.frozenLost
        ({ s with evr := { s.evr with
            frozenLost := (l.1 + 1, if l.1 == 0 then seq else l.2.1, seq) } }).inc F.EVR_CNT_FROZENDROP_COUNT
      else match s.evr.pages with
        | [] => s
        | id :: rest =>
          let lost := (s.evr.recs.filter fun r => r.ref.page == id).length
          let s := s.add F.EVR_CNT_OVERWRITE_COUNT lost
          let s := s.modPage id fun g => { g with words := [] }
          let s := { s with evr := { s.evr with
            pages := rest ++ [id], recs := s.evr.recs.filter fun r => !(r.ref.page == id) } }
          s.ringAppend seq ws id

/-- The 32-byte mirror slot of a critical event (R443). -/
def State.mirrorBytes (s : State) (e : PendEv) (seq origin : Nat) : List Byte :=
  let fl := 1 + (if origin == 1 || origin == 2 then 4 else 0)
  let p1 := ((packArgs e.args).head?).getD 0
  let b := toLe 4 seq ++ toLe 2 e.code ++ toLe 1 origin ++ toLe 1 fl ++ toLe 6 (s.taiNs / 1000000000) ++
    toLe 4 (s.taiNs % 1000000000) ++ toLe 1 s.tqByte ++ [0] ++ toLe 8 (p1 / 256)
  b ++ toLe 2 (crcCcitt b) ++ [0, 0]

/-- Writes the mirror slot at NEXT and advances it (R443). -/
def State.mirrorWrite (s : State) (e : PendEv) (seq origin : Nat) : State :=
  let n := s.get F.EVR_MIRROR_NEXT
  let s := { s with evr := { s.evr with mirror := mput s.evr.mirror n ⟨s.mirrorBytes e seq origin⟩ } }
  let s := s.set F.EVR_MIRROR_NEXT ((n + 1) % 64)
  let s := s.set F.EVR_MIRROR_VALID s.evr.mirror.length
  s.inc F.EVR_CNT_CRIT_COUNT

/-- The tick by which a bucket below BURST since tick t has gained n records at `per` a second (R440). -/
def bucketTick (per t n : Nat) : Nat := t + ceilDiv (n * 491520000) per

/-- A code's bucket now, as the records in it when it last fell below BURST or was drawn on and the tick its refill runs from; none while
it is full. It gains one record every 1/PER_S s (R440). -/
def State.bucket (s : State) (code : Nat) : Option (Nat × Nat) :=
  match mget s.evr.buckets code with
  | none => none
  | some b =>
    let per := s.get F.EVR_RATE_PER_S
    let k := (s.now - b.2) * per / 491520000
    if s.get F.EVR_RATE_BURST ≤ b.1 + k then none
    else if k == 0 then some b
    else some (b.1 + k, bucketTick per b.2 k)

/-- The stored bucket of a code becomes what it is now. -/
def State.bucketSync (s : State) (code : Nat) : State :=
  { s with evr := { s.evr with buckets := match s.bucket code with
      | none => merase s.evr.buckets code
      | some b => mput s.evr.buckets code b } }

/-- Records in a code's bucket (R440). -/
def State.tokens (s : State) (code : Nat) : Nat :=
  match s.bucket code with
  | none => s.get F.EVR_RATE_BURST
  | some b => b.1

/-- Takes one record from a bucket; its refill runs from when it fell below BURST. -/
def State.takeToken (s : State) (code : Nat) : State :=
  let b := match s.bucket code with
    | none => (s.get F.EVR_RATE_BURST - 1, s.now)
    | some b => (b.1 - 1, b.2)
  { s with evr := { s.evr with buckets := mput s.evr.buckets code b } }

/-- Numbers, offers, stores and mirrors one record (R438, R439, R442, R443). -/
def State.logRecord (s : State) (e : PendEv) (origin : Nat) : State :=
  let seq := s.get F.EVR_SEQ_SEQ
  let supp := mgetD s.evr.supp e.code 0
  let ws := s.eventWords e seq supp origin
  let s := s.set F.EVR_SEQ_SEQ (seq + 1)
  let s := { s with evr := { s.evr with supp := merase s.evr.supp e.code } }
  let mask := if e.code == Ev.SET_SKIP then 2 ^ 7 + 2 ^ 9 else 2 ^ 7
  let s := s.offerCopy 7 mask [(e.sidx, ws)]
  let s := s.ringStore seq ws
  let s := if evCritical e.code then s.mirrorWrite e seq origin else s
  s.evrSync

/-- Logs one event under its code's rate limit (R440). -/
def State.logOne (s : State) (origin : Nat → Nat) (e : PendEv) : State :=
  if evCritical e.code || s.get F.EVR_RATE_BURST == 0 then s.logRecord e (origin e.code)
  else if s.tokens e.code == 0 then
    ({ s with evr := { s.evr with supp := mput s.evr.supp e.code (satInc (mgetD s.evr.supp e.code 0) 65535) } }).inc
      F.EVR_CNT_SUPP_COUNT
  else (s.takeToken e.code).logRecord e (origin e.code)

/-- Inserts an event by ascending code, after those of the same code (R438). -/
def evInsert (e : PendEv) : List PendEv → List PendEv
  | [] => [e]
  | x :: t => if e.code < x.code then e :: x :: t else x :: evInsert e t

/-- Has tick `t` been within the last second. -/
def State.lastSecond (s : State) (t : Option Nat) : Bool := (t.map fun x => decide (s.now < x + ticksOfS 1)).getD false

/-- TWN_FAULT (R383). -/
def State.twnFaults (s : State) : Nat :=
  b2n (s.flag F.TIM_STAT_REF_LOST) + 2 * b2n (s.flag F.TIM_STAT_EXPIRED) +
    4 * b2n (!s.flag F.MAC_STAT_P_LINK && !s.flag (F.MAC_STAT_P_LINK.at 0x2000)) +
    8 * b2n (!s.flag F.ING_CTRL_EN || !s.flag F.ALN_CTRL_EN) + 16 * b2n (s.lastSecond s.sched.skipAt) +
    32 * b2n (s.lastSecond s.twn.uncorrAt) + 64 * b2n s.twn.zeroed + 128 * b2n (s.flag F.TWN_CTRL_SELF_FAULT)

/-- A twin unit's faults and health follow their causes; a change of health is logged (R383). -/
def State.healthSync (s : State) : State :=
  if !s.twin then s
  else
    let f := s.twnFaults
    let s := if s.get F.TWN_FAULT_FAULT == f then s else s.set F.TWN_FAULT_FAULT f
    let h := Nat.land f (s.get F.TWN_FAULTMASK_MASK) == 0
    if h == s.flag F.TWN_STAT_HEALTHY then s else (s.setB F.TWN_STAT_HEALTHY h).ev0 Ev.TWN_FAULT

/-- Events while the core rails are down (R443, R480): those of class 0xC go to the mirror; nothing else runs that could log one. -/
def State.holdLog (s : State) (es : List PendEv) : State :=
  es.foldl (fun (s : State) e =>
    if e.code / 4096 == 0xC then
      let seq := s.get F.EVR_SEQ_SEQ
      (s.set F.EVR_SEQ_SEQ (seq + 1)).mirrorWrite e seq 0
    else s) s

/-- Are the core rails down with VBAT holding (R480). -/
def State.inHold (s : State) : Bool :=
  match s.boot.phase with
  | .hold => true
  | _ => false

/-- Logs one command's events, already in ascending code. -/
def State.logAll (s : State) (es : List PendEv) : State :=
  if s.inHold then s.holdLog es
  else if s.evr.started then es.foldl (fun s e => s.logOne evOrigin e) s
  else { s with evr := { s.evr with early := s.evr.early ++ es } }

/-- The alarm outputs follow, and the events a command has raised are logged in ascending code (R438). Before the ring's first start they are held (R481).
Events that logging itself raises wait for the next logging. -/
def State.drain (s : State) : State :=
  let s := s.healthSync.almSync
  let es := s.evr.backlog.foldl (fun l e => evInsert e l) []
  ({ s with evr := { s.evr with backlog := [] } } : State).logAll es

/-- The end of every command: its events are logged, and the next state answered. -/
def State.done (s : State) : Result := .next s.drain

/-- A tick of the TIME counter (R44): time goes on, and events that logging raised are logged. -/
def State.tick (s : State) : State := { s with tim := { s.tim with now := s.tim.now + 1 } }.drain

/-- Time goes on to tick `t`, if it has not passed: a command that the clock causes happens at its own time
(notes/assumptions/3.md). -/
def State.reach (s : State) (t : Nat) : State :=
  if s.tim.now < t then { s with tim := { s.tim with now := t } }.drain else s

/-- The first TIME count, now or later, at which local time is at least `tai` ns. -/
def State.tickAtTai (s : State) (tai : Nat) : Nat :=
  match s.tim.anchor with
  | none => s.now
  | some (t, n0) => max s.now (n0 + ceilDiv (tai * 2 ^ 40 - t) (max s.incr 1))

/-! ### The cadence lattice (R131, R132) -/

/-- Reports per second of a rate code, 0 to 11 (R76); 0 for other codes. -/
def rateOf (code : Nat) : Nat := ([10, 12, 15, 20, 25, 30, 50, 60, 100, 120, 200, 240][code]?).getD 0

/-- NS of instant k at rate f (R131). -/
def instNs (f k : Nat) : Nat := (k * 1000000000 + f / 2) / f

/-- The nearest instant at rate f to a tag: second, index, and the signed distance in ns (R132). -/
def nearest (f soc ns : Nat) : Nat × Nat × Int :=
  let k := (ns * f + 500000000) / 1000000000
  if k == f then (soc + 1, 0, (ns : Int) - 1000000000) else (soc, k, (ns : Int) - (instNs f k : Nat))

/-- The instant after (soc, k) at rate f. -/
def nextInst (f : Nat) (i : Nat × Nat) : Nat × Nat := if i.2 + 1 < f then (i.1, i.2 + 1) else (i.1 + 1, 0)

/-- TAI ns of an instant. -/
def State.instTai (s : State) (f : Nat) (i : Nat × Nat) : Nat := s.taiOf i.1 (instNs f i.2)

/-- The first instant at rate f whose TAI time is after `tai` ns. -/
def State.firstInstAfter (s : State) (f tai : Nat) : Nat × Nat :=
  let u := s.utcOf tai
  let k := u.2 * f / 1000000000
  let l := [(u.1, k), nextInst f (u.1, k), nextInst f (nextInst f (u.1, k))]
  (l.find? fun i => decide (tai < s.instTai f i)).getD (u.1 + 1, 0)

/-! ### Outputs (R399, R400) -/

/-- Appends an output. -/
def State.emit (s : State) (o : Out) : State := { s with out := s.out ++ [o] }

/-- PCI Express state of a function. -/
def State.pfn (s : State) (f : Fn) : PcieFn :=
  match f with
  | .pf0 => s.irq.fn0
  | .pf1 => s.irq.fn1

/-- Changes the PCI Express state of a function. -/
def State.modFn (s : State) (f : Fn) (g : PcieFn → PcieFn) : State :=
  match f with
  | .pf0 => { s with irq := { s.irq with fn0 := g s.irq.fn0 } }
  | .pf1 => { s with irq := { s.irq with fn1 := g s.irq.fn1 } }

/-- A memory write to a function's host; none while its Bus Master Enable is 0 (R400). -/
def State.dma (s : State) (f : Fn) (addr : Nat) (b : List Byte) : State :=
  if (s.pfn f).bme then s.emit (.dma f addr b) else s

/-! ### Configuration tables (R417, R418) -/

/-- Writes an item of the shadow. -/
def Tbl.put {α : Type} (t : Tbl α) (k : Nat) (v : α) : Tbl α := { t with shadow := mput t.shadow k v, dirty := sadd t.dirty k }

/-- Removes an item of the shadow. -/
def Tbl.del {α : Type} (t : Tbl α) (k : Nat) : Tbl α := { t with shadow := merase t.shadow k, dirty := sadd t.dirty k }

/-- Copies a dirty item into the pending copy. -/
def Tbl.prepare {α : Type} (t : Tbl α) (k : Nat) : Tbl α := { t with pend := mput t.pend k (mget t.shadow k) }

/-- The commit is accepted: nothing that it copied is dirty any more. -/
def Tbl.accept {α : Type} (t : Tbl α) : Tbl α := { t with dirty := t.dirty.filter fun k => (mget t.pend k).isNone }

/-- The commit ended otherwise: nothing becomes pending. -/
def Tbl.unprepare {α : Type} (t : Tbl α) : Tbl α := { t with pend := [] }

/-- The boundary of epoch `tag` passes: the pending items are due to be taken up. -/
def Tbl.pass {α : Type} (t : Tbl α) (tag : Nat) : Tbl α := { t with due := t.due ++ [(tag, t.pend)], pend := [] }

/-- One epoch's items put into effect. -/
def Tbl.apply {α : Type} (e : List (Nat × α)) (items : List (Nat × Option α)) : List (Nat × α) :=
  items.foldl (fun e p => match p.2 with
    | some v => mput e p.1 v
    | none => merase e p.1) e

/-- The block takes up everything due. -/
def Tbl.take {α : Type} (t : Tbl α) : Tbl α := { t with eff := t.due.foldl (fun e d => Tbl.apply e d.2) t.eff, due := [] }

/-- The block meets a set of epoch `tag`: it takes up what is due up to that epoch. -/
def Tbl.takeThrough {α : Type} (t : Tbl α) (tag : Nat) : Tbl α :=
  match (t.due.map fun d => d.1).idxOf? tag with
  | none => t
  | some i => { t with
      eff := (t.due.take (i + 1)).foldl (fun e d => Tbl.apply e d.2) t.eff, due := t.due.drop (i + 1) }

/-- The items that `takeThrough` would change. -/
def Tbl.dueKeys {α : Type} (t : Tbl α) (tag : Nat) : List Nat :=
  match (t.due.map fun d => d.1).idxOf? tag with
  | none => []
  | some i => (t.due.take (i + 1)).foldl (fun l d => d.2.foldl (fun l p => sadd l p.1) l) []

/-- Is anything of the table dirty. -/
def Tbl.isDirty {α : Type} (t : Tbl α) : Bool := !t.dirty.isEmpty

/-- The registers marked "epoch" as epoch `tag` has them: those its commit captured; before any, their reset values. -/
def State.erdAt (s : State) (tag a : Nat) : Dword :=
  match mget s.cmd.epochs tag with
  | some l => mgetD l a 0
  | none => mgetD resetRegs a 0

/-- A field of a register marked "epoch" in an epoch. -/
def State.egetAt (s : State) (tag : Nat) (f : Fld) : Nat := bits (s.erdAt tag f.addr).toNat f.hi f.lo

/-- A field of a register marked "epoch", in effect (R155, R417). -/
def State.eget (s : State) (f : Fld) : Nat := s.egetAt (s.get F.CMD_EPOCH_EPOCH) f

/-- Is it the offset of a register with a field marked "epoch". -/
def isEpochReg (a : Nat) : Bool :=
  ((regRow? a).map fun r => r.flds.any fun f => decide (f.ty = .rwe)).getD false

/-- The registers with fields marked "epoch", as they stand in the shadow. -/
def State.epochRegs (s : State) : List (Nat × Dword) := s.regs.filter fun p => isEpochReg p.1

/-- The tag an accepted commit takes: one more, wrapping past all ones to 1 (R418). -/
def State.nextTag (s : State) : Nat := let t := s.get F.CMD_EPOCH_EPOCH + 1; if t == 2 ^ 32 then 1 else t

/-! ### Statuses (R420) -/

namespace St
abbrev ok : Nat := 0x00
abbrev stepping : Nat := 0x01
abbrev badOpcode : Nat := 0x02
abbrev badParam : Nat := 0x03
abbrev badLength : Nat := 0x04
abbrev noResource : Nat := 0x05
abbrev denied : Nat := 0x06
abbrev busy : Nat := 0x07
abbrev poison : Nat := 0x08
abbrev keyOrphaned : Nat := 0x09
abbrev keyMissing : Nat := 0x0A
abbrev aborted : Nat := 0x0B
abbrev timeout : Nat := 0x0C
abbrev state : Nat := 0x0D
abbrev verifyFail : Nat := 0x0E
abbrev pending : Nat := 0x0F
end St

/-! ### The frame of the command interpreter (R406 to R416, R535) -/

/-- The register of a function's own ring (R410). -/
def ringReg (r : Fn) (a : Nat) : Nat :=
  match r with
  | .pf0 => a
  | .pf1 => a + pf1Own

/-- A field of a function's own ring register. -/
def ringFld (r : Fn) (f : Fld) : Fld := { f with addr := ringReg r f.addr }

/-- A ring. -/
def State.ring (s : State) (r : Fn) : Ring :=
  match r with
  | .pf0 => s.cmd.ring0
  | .pf1 => s.cmd.ring1

/-- Stores a ring. -/
def State.setRing (s : State) (r : Fn) (x : Ring) : State :=
  match r with
  | .pf0 => { s with cmd := { s.cmd with ring0 := x } }
  | .pf1 => { s with cmd := { s.cmd with ring1 := x } }

/-- Fields of a command packet (R407). -/
def pkOp (b : List Byte) : Nat := le b 0 1
/-- FLAGS. -/
def pkFlags (b : List Byte) : Nat := le b 1 1
/-- LEN. -/
def pkLen (b : List Byte) : Nat := le b 2 1
/-- TAG. -/
def pkTag (b : List Byte) : Nat := le b 3 1
/-- SEQ. -/
def pkSeq (b : List Byte) : Nat := le b 4 4

/-- Do the firmware functions of R38 run: neither core is parked (R433, R508) and no hitless restart is in progress (R415). -/
def State.fwRuns (s : State) : Bool :=
  !s.flag F.IRQ_CORESTAT_PARK_C0 && !s.flag F.IRQ_CORESTAT_PARK_C1 && !s.flag F.CMD_STAT_PAUSED

/-- Is a reply slot free beside those that waiting commands and replies not yet written have reserved (R411). -/
def State.slotFree (s : State) (r : Fn) : Bool :=
  decide (subMod 32 (s.get (ringFld r F.RPL_PROD_PROD)) (s.get (ringFld r F.RPL_CONS_CONS)) +
    (s.cmd.fly.filter fun f => decide (f.fn = r) && f.waiting).length + (s.cmd.late.filter fun l => decide (l.fn = r)).length <
      s.get (ringFld r F.RPL_SIZE_SIZE))

/-- May a ring run commands now: enabled, not paused (R415), a slot free, the firmware running. -/
def State.ringRuns (s : State) (r : Fn) : Bool :=
  s.flag (ringFld r F.CMD_CTRL_EN) && !s.flag (ringFld r F.CMD_STAT_PAUSED) && s.slotFree r && s.fwRuns

/-- The dirty items in copy order: (table, index), tables in block order (R417). -/
def State.dirtyItems (s : State) : List (Nat × Nat) :=
  let t {α : Type} (n : Nat) (x : Tbl α) : List (Nat × Nat) := x.dirty.map fun i => (n, i)
  t 0 s.ing.streams ++ t 1 s.aln.policy ++ (if s.aln.cadDirty then [(2, 0)] else []) ++ t 3 s.ang.limits ++ t 4 s.ang.pairs ++
    t 5 s.isl.nodes ++ t 6 s.isl.edges ++ t 7 s.isl.expect ++ t 8 s.osc.sigs ++ t 9 s.osc.rules ++ t 10 s.osc.place ++
    t 11 s.outp.groups ++ t 12 s.outp.dests ++ t 13 s.pmu.cfg ++ t 14 s.pmu.cal ++ t 15 s.nrg.corr

/-- Does the command write items of the shadow in its steps (R417). -/
def writesShadow (b : List Byte) : Bool := pkOp b == 0x11 || pkOp b == 0x28 || pkOp b == 0x30

/-- May a command in flight take its next step: a stepped one of the ring, and not one held while a commit prepares (R417). -/
def State.mayStep (s : State) (r : Fn) (f : Fly) : Bool :=
  decide (f.fn = r) && !f.waiting && !(s.cmd.prep.isSome && writesShadow f.bytes)

/-- Does a head need fewer than 4 commands in flight: a stepped or a waiting one (R412). -/
def State.needsRoom (s : State) (b : List Byte) : Bool :=
  ([0x11, 0x28, 0x30, 0x51, 0x69, 0x6A, 0x80, 0x82, 0x89, 0x8B] : List Nat).contains (pkOp b) ||
    (pkOp b == 0x03 && decide (512 < s.dirtyItems.length))

/-- May the ring's head start, whosever turn it is: FENCE waits for every earlier command's final reply (R412). -/
def State.headReady (s : State) (r : Fn) : Bool :=
  match (s.ring r).fetched with
  | [] => false
  | b :: _ => s.ringRuns r && !(bit (pkFlags b) 1 && s.cmd.fly.any fun f => decide (f.fn = r)) &&
      !(s.needsRoom b && decide (4 ≤ s.cmd.fly.length))

/-- Has the ring anything to do: a head that may start, or a command that may step. -/
def State.ringWork (s : State) (r : Fn) : Bool := s.headReady r || (s.ringRuns r && s.cmd.fly.any fun f => s.mayStep r f)

/-- The commands of the present pass that have still to step. -/
def State.passLeft (s : State) : List Fly :=
  if s.ringRuns s.cmd.turn then
    s.cmd.todo.filterMap fun q => s.cmd.fly.find? fun f => s.mayStep s.cmd.turn f && pkSeq f.bytes == q
  else []

/-- The other function. -/
def otherFn : Fn → Fn
  | .pf0 => .pf1
  | .pf1 => .pf0

/-- May a pass of the loop on ring r begin: the present pass is over, and the rings alternate while both have work (R412). -/
def State.turnOf (s : State) (r : Fn) : Bool := s.passLeft.isEmpty && (decide (s.cmd.turn ≠ r) || !s.ringWork (otherFn r))

/-- The head of a ring, if it may start (R412). -/
def State.head (s : State) (r : Fn) : Option (List Byte) :=
  match (s.ring r).fetched with
  | [] => none
  | b :: _ => if s.headReady r && s.turnOf r then some b else none

/-- A pass on ring r begins: the stepped commands in flight are due a step in it. -/
def State.beginPass (s : State) (r : Fn) : State :=
  { s with cmd := { s.cmd with
    turn := r, todo := (s.cmd.fly.filter fun f => decide (f.fn = r) && !f.waiting).map fun f => pkSeq f.bytes } }

/-- Takes the head off its ring, which begins a pass of the loop. -/
def State.popHead (s : State) (r : Fn) : State := (s.setRing r ⟨(s.ring r).fetched.tail⟩).beginPass r

/-- Where the next reply of ring r goes (R410). -/
def State.replyAddr (s : State) (r : Fn) : Nat :=
  s.get64 (ringReg r R.RPL_BASE_LO) (ringReg r R.RPL_BASE_HI) / 32 * 32 +
    32 * (s.get (ringFld r F.RPL_PROD_PROD) % s.get (ringFld r F.RPL_SIZE_SIZE))

/-- The 32 bytes of the next reply of ring r to the packet b (R410). -/
def State.replyBytes (s : State) (r : Fn) (b : List Byte) (st steps : Nat) (res : List Byte) : List Byte :=
  let fl := s.get (ringFld r F.RPL_PROD_PROD) / s.get (ringFld r F.RPL_SIZE_SIZE) % 2 + (if st == St.stepping then 2 else 0)
  toLe 1 st ++ toLe 1 (pkTag b) ++ toLe 2 steps ++ toLe 4 (pkSeq b) ++ padTo 23 res ++ toLe 1 fl

/-- Puts a reply into the host's ring and advances RPL_PROD, also at RPL_PRODADDR (R410, R411). -/
def State.replyPut (s : State) (r : Fn) (b : List Byte) (st steps : Nat) (res : List Byte) : State :=
  let j := s.get (ringFld r F.RPL_PROD_PROD)
  let s := (s.dma r (s.replyAddr r) (s.replyBytes r b st steps res)).set (ringFld r F.RPL_PROD_PROD) (j + 1)
  let pa := s.get64 (ringReg r R.RPL_PRODADDR_LO) (ringReg r R.RPL_PRODADDR_HI) / 4 * 4
  if pa == 0 then s else s.dma r pa (toLe 4 (j + 1))

/-- Writes a reply (R410, R411), with the interrupt its packet asks for. -/
def State.replyNow (s : State) (r : Fn) (b : List Byte) (st steps : Nat) (res : List Byte) : State :=
  let s := s.replyPut r b st steps res
  if bit (pkFlags b) 0 && st != St.stepping then
    match r with
    | .pf0 => s.raise 80
    | .pf1 => s.raise81
  else s

/-- Replies that waited are written, in order, once their function gets DMA again. -/
def State.lateReplies (s : State) : State :=
  let go (l : LateReply) : Bool := s.fwRuns && (s.pfn l.fn).bme
  let mine := s.cmd.late.filter go
  let s := { s with cmd := { s.cmd with late := s.cmd.late.filter fun l => !go l } }
  mine.foldl (fun (s : State) l => s.replyNow l.fn l.bytes l.st l.steps l.res) s

/-- A reply is written behind those that waited, or waits while the function gets no DMA (R400). -/
def State.reply (s : State) (r : Fn) (b : List Byte) (st steps : Nat) (res : List Byte) : State :=
  if (s.pfn r).bme then s.lateReplies.replyNow r b st steps res
  else { s with cmd := { s.cmd with late := s.cmd.late ++ [⟨r, b, st, steps, res⟩] } }

/-- Stages 1 to 5 of R535 for a defined opcode whose parameter area ends at byte `plen`; none when all pass. -/
def stages15 (r : Fn) (b : List Byte) (plen : Nat) (pf1Ok : Bool) : Option Nat :=
  if pkLen b < 2 || 16 < pkLen b then some St.badLength
  else if r == .pf1 && !pf1Ok then some St.denied
  else if 4 ≤ pkFlags b then some St.badParam
  else if 4 * pkLen b < plen then some St.badLength
  else none

/-- The status of the first condition that holds, in the order given (R535). -/
def firstFail (l : List (Bool × Nat)) : Option Nat := (l.find? fun c => c.1).map fun c => c.2

/-- What the body of a command answers: status, RESULT bytes, and the state it leaves. -/
structure CmdRes where
  st : Nat
  res : List Byte
  s : State

/-- A command that fails changes nothing (R416). -/
def CmdRes.fail (st : Nat) (s : State) : CmdRes := ⟨st, [], s⟩

/-- Checks in order; the first that fails gives the status, else the command goes on. -/
def checked (l : List (Bool × Nat)) (s : State) (k : CmdRes) : CmdRes :=
  match firstFail l with
  | some st => CmdRes.fail st s
  | none => k

/-- A plain command: the head of ring r if it may start, has this opcode and, where one opcode has several rows,
belongs to this row. It runs to its final reply (R412, R413). -/
def State.plain (s : State) (r : Fn) (op plen : Nat) (pf1Ok : Bool) (mine : List Byte → Bool)
    (body : List Byte → State → CmdRes) : State :=
  match s.head r with
  | none => s
  | some b =>
    if pkOp b == op && mine b then
      let s := s.popHead r
      match stages15 r b plen pf1Ok with
      | some st => s.reply r b st 0 []
      | none =>
        let c := body b s
        c.s.reply r b c.st 0 c.res
    else s

/-- The outcome of a host read as bytes, or the status of R416. -/
def hostStatus : HostRead → Option Nat
  | .data _ => none
  | .poison => some St.poison
  | .timeout => some St.timeout

/-- The bytes of a host read. -/
def hostBytes : HostRead → List Byte
  | .data b => b
  | _ => []

/-- Stages 9 and on for a command that reads a host buffer: the read's status first (R416). -/
def withBuf (buf : HostRead) (s : State) (k : List Byte → CmdRes) : CmdRes :=
  match hostStatus buf with
  | some st => CmdRes.fail st s
  | none => k (hostBytes buf)

/-- A host write of a command: ST_TIMEOUT where it could not be issued within 1 ms (R416). -/
def withWrite (issued : Bool) (r : Fn) (s : State) (k : CmdRes) : CmdRes :=
  if issued && (s.pfn r).bme then k else CmdRes.fail St.timeout s

/-- In-flight stepped and waiting commands of a ring shown in CMD_INFLIGHT (R412). -/
def State.flySync (s : State) : State :=
  let n (r : Fn) : Nat := (s.cmd.fly.filter fun f => decide (f.fn = r)).length
  (s.set (ringFld .pf0 F.CMD_INFLIGHT_N) (n .pf0)).set (ringFld .pf1 F.CMD_INFLIGHT_N) (n .pf1)

/-- Steps completed when a command ends: a step that ends with a failure is not complete (R410). -/
def stepsDone (steps st : Nat) : Nat := if st == St.ok then steps + 1 else steps

/-- What one step of a stepped command does: it ends with a final status, or goes on with new progress. -/
inductive StepRes where
  | final (st : Nat) (res : List Byte) (s : State)
  | more (prog : List Nat) (s : State)

/-- Starts a stepped command: fewer than 4 in flight (R412), no second instance (R414), checks, and its first step. -/
def State.stepped (s : State) (r : Fn) (op plen : Nat) (check : List Byte → State → Option Nat) (prog0 : List Byte → List Nat)
    (step : List Byte → List Nat → State → StepRes) : State :=
  match s.head r with
  | none => s
  | some b =>
    if pkOp b == op && decide (s.cmd.fly.length < 4) then
      let s := s.popHead r
      match stages15 r b plen false with
      | some st => s.reply r b st 0 []
      | none =>
        match check b s with
        | some st => s.reply r b st 0 []
        | none =>
          if s.cmd.fly.any fun f => pkOp f.bytes == op then s.reply r b St.busy 0 []
          else match step b (prog0 b) s with
            | .final st res t => t.reply r b st (stepsDone 0 st) res
            | .more p t =>
              let t := t.reply r b St.stepping 1 []
              ({ t with cmd := { t.cmd with fly := t.cmd.fly ++ [Fly.mk r b 1 false false p none] } }).flySync
    else s

/-- Starts a waiting command: fewer than 4 in flight; `check` gives an early final status, else it waits (R412). -/
def State.waits (s : State) (r : Fn) (op plen : Nat) (mine : List Byte → Bool) (body : List Byte → State → CmdRes ⊕ (List Nat × State)) :
    State :=
  match s.head r with
  | none => s
  | some b =>
    if pkOp b == op && mine b && decide (s.cmd.fly.length < 4) then
      let s := s.popHead r
      match stages15 r b plen false with
      | some st => s.reply r b st 0 []
      | none =>
        match body b s with
        | .inl c => c.s.reply r b c.st 0 c.res
        | .inr (p, t) =>
          ({ t with cmd := { t.cmd with fly := t.cmd.fly ++ [Fly.mk r b 0 false true p none] } }).flySync
    else s

/-- While the firmware runs, the waiting commands whose events have come get their final replies, in order of start (R38). -/
def State.finalReplies (s : State) : State :=
  if s.fwRuns then
    let mine := s.cmd.fly.filter fun f => f.final.isSome
    let s := { s with cmd := { s.cmd with fly := s.cmd.fly.filter fun f => f.final.isNone } }
    (mine.foldl (fun s f => s.reply f.fn f.bytes (f.final.getD (0, [])).1 0 (f.final.getD (0, [])).2) s.lateReplies).flySync
  else s

/-- The event has come that every waiting command of an opcode waits for: they end with a final reply, at once or when the firmware runs
again (R38). -/
def State.endWaiting (s : State) (op : Nat) (st : Nat) (res : List Byte) : State :=
  let mark (f : Fly) : Fly := if f.waiting && f.final.isNone && pkOp f.bytes == op then { f with final := some (st, res) } else f
  ({ s with cmd := { s.cmd with fly := s.cmd.fly.map mark } } : State).finalReplies

end Sys2Proof.Machine
end

