-- ==== Sys2Proof/Machine/Operands.lean ====
section
/-!
DEFINITION. Sys2Proof/Machine/Operands.lean: how a command's operands name registers: the windows of the two functions
(R402 to R404), what an agent may write (R22, R404), wide values and held pair writes (R16, R17, R405).
-/
namespace Sys2Proof.Machine

/-! ### Windows -/

/-- Where the five dwords of CAS_XTRIG to CAS_XFIRE_CNT are kept: the spec places them at offsets that member 8's
registers also occupy (notes/assumptions/12.md). -/
def busAddr (off : Nat) : Nat := if 0x090A00 ≤ off && off ≤ 0x090A10 then off + 0x800000 else off

/-- The PF0 offset that an offset of PF1 BAR0 shows (R403). -/
def pf1Addr (off : Nat) : Option Nat :=
  if off < 0x2C000 then some (off / 0x2000 * 0x10000 + off % 0x2000)
  else if off < 0x36000 then some (0x20000 + 0x2000 + (off - 0x2C000))
  else if off < 0x37000 then some (0xC0000 + 0x2000 + (off - 0x36000))
  else none

/-- The register an agent names with an offset of its own window, with its row, if a register lies there. Control cores
and the debug probe use PF0's offsets. -/
def regAt (a : Agent) (off : Nat) : Option (Nat × RegRow) :=
  let x := if a = .pf1 then pf1Addr off else some off
  (x.map busAddr).bind fun b => (regRow? b).map fun r => (b, r)

/-- The register the agent's access reaches: a register of which each function has its own is PF1's for PF1. -/
def ownAddr (a : Agent) (b : Nat) (r : RegRow) : Nat :=
  if a = .pf1 && (r.view = .sel || r.view = .ring) then b + pf1Own else b

/-- The ring an agent's ring registers belong to (R406). -/
def agentFn (a : Agent) : Fn := if a = .pf1 then .pf1 else .pf0

/-! ### What PF1 may write (R22, R404) -/

/-- The queue a queue register belongs to (R117). -/
def queueOf (b : Nat) : Nat := (b - 0x41000) / 0x80

/-- May PF1 write the register: a selector, a register of its own ring or of a queue it owns. -/
def State.pf1May (s : State) (b : Nat) (r : RegRow) : Bool :=
  match r.view with
  | .sel => true
  | .ring => true
  | .queue => s.flag (F.SET_HQ_CFG_OWNER.at (0x80 * queueOf b))
  | .pf0 => false
  | .both => b == R.SET_HQ_PEND

/-- A dropped PF1 write: counted and logged (R22, R404). -/
def State.privDrop (s : State) : State := (s.inc F.CMD_PRIVDROP_COUNT).ev0 Ev.PRIV_WRITE_DROPPED

/-- Does the unit serve an agent's access to the register at `b`: in recovery only PF0's to the BOOT registers (R483). -/
def State.serves (s : State) (a : Agent) (b : Nat) : Bool :=
  match s.boot.phase with
  | .recovery => decide (a = .pf0) && decide (0x140000 ≤ b) && decide (b < 0x140030)
  | _ => true

/-- A write by an agent of the register at PF0 offset `b`: dropped where PF1 may not write it, else what it does. -/
def State.gate (s : State) (a : Agent) (b : Nat) (f : State → State) : State :=
  if !s.serves a b then s else
  match a with
  | .pf1 => match regRow? b with
    | some r => if s.pf1May b r then f s else s.privDrop
    | none => s
  | _ => f s

/-! ### Fields of a written value -/

/-- A field's part of a written dword. -/
def fval (f : Fld) (v : Dword) : Nat := bits v.toNat f.hi f.lo

/-- The fields of a row that a plain write stores: RW, RW marked epoch and HWS fields take the written bits; the rest of
the dword stays (R15, R18). -/
def mergeWrite (r : RegRow) (old v : Nat) : Nat :=
  r.flds.foldl (fun x f => match f.ty with
    | .rw | .rwe | .hws => setBits x f.hi f.lo (bits v f.hi f.lo)
    | .w1c => setBits x f.hi f.lo (Nat.land (bits x f.hi f.lo) (2 ^ (f.hi - f.lo + 1) - 1 - bits v f.hi f.lo))
    | _ => x) old

/-- The row of a register or of PF1's own copy of it. -/
def rowOf (b : Nat) : Option RegRow := regRow? (if pf1Own ≤ b && b < 2 * pf1Own then b - pf1Own else b)

/-- Stores a write of the register at `b` under its fields' types. -/
def State.store (s : State) (b : Nat) (v : Dword) : State :=
  match rowOf b with
  | some r => s.wr b (BitVec.ofNat 32 (mergeWrite r (s.rd b).toNat v.toNat))
  | none => s

/-! ### Wide values: read latches (R16) -/

/-- An agent's number, for the latch map. -/
def agentNum : Agent → Nat
  | .pf0 => 0
  | .pf1 => 1
  | .c0 => 2
  | .c1 => 3
  | .probe => 4

/-- The key of an agent's latch of a dword. -/
def latchKey (a : Agent) (b : Nat) : Nat := agentNum a * 0x1000000 + b

/-- Has the row a SNAP field. -/
def RegRow.snap (r : RegRow) : Bool := r.flds.any fun f => decide (f.ty = .snap)

/-- The dwords a read of the register at `b` latches: the SNAP dwords that follow it without a gap, and for TIM_IRIG_TS the
three data dwords too (R15, R16). -/
def snapFollowers (b : Nat) : List Nat :=
  let isSnap (x : Nat) : Bool := ((regRow? x).map RegRow.snap).getD false
  if b == R.TIM_IRIG_TS_LO then [0x100A4, 0x100A8, 0x100B0, 0x100B4, 0x100B8]
  else if isSnap b then []
  else ([b + 4, b + 8, b + 12, b + 16, b + 20].takeWhile isSnap)

/-! ### Wide values: held writes (R17, R405) -/

/-- The wide RW values: offset of the LO dword of the first, repetition, number of dwords. -/
def pairTable : List (Nat × List (Nat × Nat) × Nat) := [
  (R.TIM_INCR_LO, [], 2), (R.TIM_STEP_LO, [], 2), (R.MAC_ADDR_LO_P, [(5, 0x2000)], 2),
  (R.MAC_GCL_BASE_LO_P, [(5, 0x2000)], 2), (R.MAC_GCL_LO_P, [(5, 0x2000), (2, 0x200), (64, 8)], 2),
  (R.ING_INJ_BASE_LO, [], 2), (R.SET_HQ_BASE_LO, [(16, 0x80)], 2), (R.ANG_NET_MAC_LO, [], 2), (R.ANG_NET_DST, [], 4),
  (R.CAS_MMACA_LO, [(15, 0x20)], 2), (R.CAS_MMACB_LO, [(15, 0x20)], 2), (R.NRG_SCALE_LO, [(8, 8)], 2),
  (R.CMD_BASE_LO, [], 2), (R.RPL_BASE_LO, [], 2), (R.RPL_PRODADDR_LO, [], 2), (R.BOOT_RECOV_ADDR_LO, [], 2)]

/-- The LO dword's offset of the wide value that holds the dword at `b`, which dword of it this is, and their number. -/
def pairOf (b : Nat) : Option (Nat × Nat × Nat) :=
  (pairTable.findSome? fun p =>
    (List.range p.2.2).findSome? fun i =>
      if p.1 + 4 * i ≤ b && dimsHold p.2.1 (b - 4 * i - p.1) then some (b - 4 * i, i, p.2.2) else none)

/-- What an agent holds of the value at `base`. -/
def State.heldOf (s : State) (a : Agent) (base : Nat) : Option Held :=
  s.held.find? fun h => decide (h.agent = a) && h.base == base

/-- The agent holds nothing of the value any more. -/
def State.dropHeld (s : State) (a : Agent) (base : Nat) : State :=
  { s with held := s.held.filter fun h => !(decide (h.agent = a) && h.base == base) }

/-- Holds a write of one dword: a second write replaces it, and the time counts from the first (R405). -/
def State.hold (s : State) (a : Agent) (base b : Nat) (v : Dword) : State :=
  let h := (s.heldOf a base).getD ⟨a, base, [], s.now⟩
  let t := s.dropHeld a base
  { t with held := t.held ++ [{ h with dwords := mput h.dwords b v }] }

/-- The value of a lower dword when HI is written: the agent's held one, else the present value (R405). -/
def State.heldDword (s : State) (a : Agent) (base b : Nat) (present : Dword) : Dword :=
  match s.heldOf a base with
  | some h => mgetD h.dwords b present
  | none => present

/-- The two-dword value that a HI write completes, LO first. -/
def State.pair (s : State) (a : Agent) (base : Nat) (v : Dword) : Nat :=
  (s.heldDword a base base (s.rd base)).toNat + 2 ^ 32 * v.toNat

end Sys2Proof.Machine
end

