-- ==== Sys2Proof/Machine/Port.lean ====
section
/-!
DEFINITION. Sys2Proof/Machine/Port.lean: what every sender of frames shares: the ports' registers, the transmit buffers with
their refusals, VLAN tags, PRP trailers, gate windows (R341 to R368), and the timestamp queues (R63, R64).
-/
namespace Sys2Proof.Machine

/-! ### A port's state and registers -/

/-- A port after reset. -/
def Port.idle : Port := ⟨[], none, none, none, none, false, 0, 1, none, 0, none, none, none, 0⟩

/-- Port p. -/
def State.port (s : State) (p : Nat) : Port := mgetD s.mac.ports p Port.idle

/-- Stores port p. -/
def State.setPort (s : State) (p : Nat) (x : Port) : State := { s with mac := { s.mac with ports := mput s.mac.ports p x } }

/-- Changes port p. -/
def State.modPort (s : State) (p : Nat) (f : Port → Port) : State := s.setPort p (f (s.port p))

/-- A field of port p's registers. -/
def pfld (f : Fld) (p : Nat) : Fld := f.at (0x2000 * p)

/-- Counter i of port p (R370). -/
def macCnt (p i : Nat) : Fld := ⟨0x20100 + 0x2000 * p + 4 * i, 31, 0⟩

/-- Counts one in counter i of port p. -/
def State.macInc (s : State) (p i : Nat) : State := s.inc (macCnt p i)

/-- Adds n bytes to a 64-bit byte counter (i = 0 receive, 12 transmit). -/
def State.macBytes (s : State) (p i n : Nat) : State :=
  let lo := 0x20100 + 0x2000 * p + 4 * i
  s.put64 lo (lo + 4) (s.get64 lo (lo + 4) + n)

/-- Is PRP on for port p (R365). -/
def State.prpOn (s : State) (p : Nat) : Bool := s.flag F.MAC_PRP_CTRL_EN && decide (p < 2)

/-- The MAC address of port p; under PRP, P1 uses P0's (R365). -/
def State.portMac (s : State) (p : Nat) : Nat :=
  let q := if s.prpOn p then 0 else p
  s.get (pfld F.MAC_ADDR_LO_P_ADDR q) + 2 ^ 32 * s.get (pfld F.MAC_ADDR_HI_P_ADDR q)

/-- EN of port p. -/
def State.portEn (s : State) (p : Nat) : Bool := s.flag (pfld F.MAC_CTRL_P_EN p)

/-- Does port p run: enabled, in a mode that is not disabled (R341). -/
def State.portRuns (s : State) (p : Nat) : Bool := s.portEn p && s.get (pfld F.MAC_CTRL_P_MODE p) != 0

/-- LINK of port p. -/
def State.portLink (s : State) (p : Nat) : Bool := s.flag (pfld F.MAC_STAT_P_LINK p)

/-- Is port p in half duplex: only P4 can be (R341). -/
def State.halfDuplex (s : State) (p : Nat) : Bool := decide (p = 4) && s.flag F.MAC_CTRL_P4_DUPLEX

/-- Line rate of port p in bits per second (R341): of P4 by SPEED; 10 Gb/s in mode 1 of a SerDes port, else by the speed in effect. -/
def State.lineRate (s : State) (p : Nat) : Nat :=
  if p == 4 then if s.get F.MAC_CTRL_P4_SPEED == 0 then 10000000 else 100000000
  else if p < 4 && s.get (pfld F.MAC_CTRL_P_MODE p) == 1 then 10000000000
  else match s.get (pfld F.MAC_STAT_P_SPEED_ACT p) with
    | 0 => 10000000
    | 1 => 100000000
    | _ => 1000000000

/-- TIME ticks that n bit times last. -/
def State.bitTicks (s : State) (p n : Nat) : Nat := ceilDiv (n * 491520000) (s.lineRate p)

/-- Size of a port's receive or transmit buffer in bytes (R343). -/
def bufSize (p : Nat) : Nat := if p < 4 then 131072 else 32768

/-! ### Gates (R354 to R356) -/

/-- Entry i of gate list l: open classes and duration in ns. -/
def State.gateEntry (s : State) (p l i : Nat) : Nat × Nat :=
  let o := 0x200 * l + 8 * i
  (s.get ((pfld F.MAC_GCL_HI_P_GATES p).at o), s.get ((pfld F.MAC_GCL_LO_P_DURATION p).at o))

/-- The operational list's number. -/
def State.gclOper (s : State) (p : Nat) : Nat := s.get (pfld F.MAC_GCL_CTRL_P_OPER p)

/-- NENT of list l. -/
def State.gclNent (s : State) (p l : Nat) : Nat :=
  s.get (pfld (if l == 0 then F.MAC_GCL_CTRL_P_NENT0 else F.MAC_GCL_CTRL_P_NENT1) p)

/-- The operational list. -/
def State.gateList (s : State) (p : Nat) : List (Nat × Nat) :=
  (List.range (s.gclNent p (s.gclOper p))).map fun i => s.gateEntry p (s.gclOper p) i

/-- The length of a gate cycle in ns: CYCLE, or under LOCK the cadence interval (R355). -/
def State.cycleNs (s : State) (p : Nat) : Nat :=
  if s.flag (pfld F.MAC_GCL_CTRL_P_LOCK p) then 1000000000 / max (rateOf s.aln.cad) 1
  else s.get (pfld F.MAC_GCL_CYCLE_P_NS p)

/-- The operational list with its last entry reaching to the next cycle start. -/
def State.gateListFull (s : State) (p : Nat) : List (Nat × Nat) :=
  let l := s.gateList p
  let before := ((l.dropLast).map fun e => e.2).foldl (· + ·) 0
  match l.getLast? with
  | none => []
  | some e => l.dropLast ++ [(e.1, max e.2 (s.cycleNs p - before))]

/-- The longest open window of class c in the operational list in ns; none where the class never closes. -/
def State.longestWindow (s : State) (p c : Nat) : Option Nat :=
  let l := s.gateListFull p
  if l.all fun e => bit e.1 c then none
  else
    let r := (l ++ l).foldl (fun (acc : Nat × Nat) e =>
      if bit e.1 c then (acc.1 + e.2, max acc.2 (acc.1 + e.2)) else (0, acc.2)) (0, 0)
    some r.2

/-- ns a frame of n bytes (with its FCS) takes with preamble and the gap of R356. -/
def State.frameNs (s : State) (p n : Nat) : Nat := ceilDiv ((8 + n + 12) * 8 * 1000000000) (s.lineRate p)

/-- ns until class c's gate next closes, from now: 0 while it is closed, none where it never closes or gates are off. -/
def State.gateLeft (s : State) (p c : Nat) : Option Nat :=
  if !s.flag (pfld F.MAC_GCL_CTRL_P_GCL_EN p) then none
  else match (s.port p).gateStart with
  | none => none
  | some g =>
    let l := s.gateListFull p
    let i := (s.port p).gateIdx
    if l.all fun e => bit e.1 c then none
    else if !(((l[i]?).map fun e => bit e.1 c).getD true) then some 0
    else
      let before := ((l.take i).map fun e => e.2).foldl (· + ·) 0
      let run := ((l.drop i ++ l).takeWhile fun e => bit e.1 c).foldl (fun a e => a + e.2) 0
      some (before + run - s.nsSince g.1)

/-! ### Building a frame -/

/-- 01-80-C2-00-00-00 and the other fixed addresses of R344. -/
def macPause : Nat := 0x0180C2000001
/-- The peer-delay address of R344. -/
def macPdelay : Nat := 0x0180C200000E
/-- The PTP address of R344. -/
def macPtp : Nat := 0x011B19000000
/-- The PRP supervision address of R344. -/
def macSup : Nat := 0x01154E000100

/-- A frame from destination to payload, untagged. -/
def mkFrame (dst src et : Nat) (payload : List Byte) : List Byte := toBe 6 dst ++ toBe 6 src ++ toBe 2 et ++ payload

/-- Inserts a VLAN tag after the source address. -/
def addTag (f : List Byte) (tci : Nat) : List Byte := f.take 12 ++ toBe 2 0x8100 ++ toBe 2 tci ++ f.drop 12

/-- The tag a port adds to frames that bring none (R353). -/
def State.portTag (s : State) (p tc : Nat) : Option Nat :=
  if s.flag (pfld F.MAC_VLAN_P_TAG_EN p) then
    some (s.get (pfld F.MAC_VLAN_P_VID p) +
      2 ^ 13 * bits (s.get (pfld F.MAC_PCPMAP_P_PCP p)) (3 * tc + 2) (3 * tc))
  else none

/-- How a sender wants its frame tagged (R353): as the port does, with its own tag, or never. -/
inductive TagWish where
  | port
  | own (tci : Nat)
  | never

/-- Pads with zeros to `n` bytes. -/
def padMin (n : Nat) (f : List Byte) : List Byte := f ++ zeros (n - f.length)

/-- The PRP trailer (R366). LSDUsize counts from the byte after the EtherType, or after the VLAN tag, to its own end. -/
def prpTrailer (f : List Byte) (lan seq : Nat) : List Byte :=
  let start := if be f 12 2 == 0x8100 then 16 else 14
  toBe 2 seq ++ toBe 2 ((if lan == 0 then 0xA000 else 0xB000) + (f.length - start + 6) % 4096) ++ toBe 2 0x88FB

/-! ### Enqueueing (R348, R365) -/

/-- Bytes class c holds in port p's transmit buffer, FCS included. -/
def State.txHeld (s : State) (p : Nat) (sel : TxFrame → Bool) : Nat :=
  (((s.port p).txq ++ ((s.port p).flight.map fun x => x.1).toList).filter sel).foldl
    (fun n f => n + f.bytes.length + 4) 0

/-- Is a frame refused at enqueue (R348). -/
def State.txRefused (s : State) (p : Nat) (f : TxFrame) : Bool :=
  let n := f.bytes.length + 4
  decide (s.get (pfld F.MAC_MAXLEN_P_LEN p) < n) || !s.portRuns p || !s.portLink p ||
    decide (1024 * s.get ((pfld F.MAC_TXLIM_P_KIB p).at (4 * f.tc)) < s.txHeld p (fun g => g.tc == f.tc) + n) ||
    decide (bufSize p < s.txHeld p (fun _ => true) + n) ||
    (s.flag (pfld F.MAC_GCL_CTRL_P_GCL_EN p) &&
      ((s.longestWindow p f.tc).map fun w => decide (w < s.frameNs p n)).getD false)

/-- Offers a finished frame to one port: queued, or refused, counted, and logged unless its source has its own event. -/
def State.txOffer (s : State) (p : Nat) (f : TxFrame) : State × Bool :=
  if s.txRefused p f then
    let s := s.macInc p 15
    (if f.kind = .output then s else s.ev0 Ev.MAC_TX_REFUSED, false)
  else (s.modPort p fun x => { x with txq := x.txq ++ [f] }, true)

/-- A frame as a port sends it: source address, tag, padding, and on a PRP pair the trailer. -/
def State.txBuild (s : State) (p tc : Nat) (tag : TagWish) (kind : TxKind) (prpSeq : Option Nat) (dst et : Nat)
    (payload : List Byte) : TxFrame :=
  let f := mkFrame dst (s.portMac p) et payload
  let t := match tag with
    | .port => s.portTag p tc
    | .own x => some x
    | .never => none
  let f := match t with
    | some x => addTag f x
    | none => f
  let f := match prpSeq with
    | some q => let g := padMin 54 f; g ++ prpTrailer g p q
    | none => padMin 60 f
  ⟨tc, f, kind, false, false, 0, none⟩

/-- Sends a frame from port p, from both ports of a PRP pair with one sequence number: the source's own, or the pair's
counter, which then advances (R365, R366). Answers whether any port took it. -/
def State.send (s : State) (p tc : Nat) (tag : TagWish) (kind : TxKind) (ownSeq : Option Nat) (dst et : Nat)
    (payload : List Byte) : State × Bool :=
  if s.prpOn p then
    let q := ownSeq.getD (s.get F.MAC_PRP_SEQ_SEQ)
    let t := if ownSeq.isNone then s.inc F.MAC_PRP_SEQ_SEQ else s
    let a := t.txOffer 0 (s.txBuild 0 tc tag kind (some q) dst et payload)
    let b := a.1.txOffer 1 (s.txBuild 1 tc tag kind (some q) dst et payload)
    (b.1, a.2 || b.2)
  else s.txOffer p (s.txBuild p tc tag kind none dst et payload)

/-! ### IP and UDP -/

/-- The checksum field over a byte list: the complement of its one's complement sum. -/
def cksum (b : List Byte) : Nat := 65535 - onesSum b

/-- An IPv4 UDP packet (header of 20 bytes). Identification and TTL are not stated: free values
(notes/assumptions/1.md). -/
def udp4 (src dst sport dport : Nat) (data : List Byte) : List Byte :=
  let ulen := 8 + data.length
  let pseudo := toBe 4 src ++ toBe 4 dst ++ toBe 2 17 ++ toBe 2 ulen
  let u0 := toBe 2 sport ++ toBe 2 dport ++ toBe 2 ulen
  let c := cksum (pseudo ++ u0 ++ toBe 2 0 ++ data)
  let u := u0 ++ toBe 2 (if c == 0 then 65535 else c) ++ data
  let h1 := toBe 2 0x4500 ++ toBe 2 (20 + ulen) ++ toBe 2 (Config.op "ip.id" []) ++ toBe 2 0 ++
    toBe 1 (Config.op "ip.ttl" []) ++ toBe 1 17
  let h2 := toBe 4 src ++ toBe 4 dst
  h1 ++ toBe 2 (cksum (h1 ++ toBe 2 0 ++ h2)) ++ h2 ++ u

/-- An IPv6 UDP packet. -/
def udp6 (src dst sport dport : Nat) (data : List Byte) : List Byte :=
  let ulen := 8 + data.length
  let pseudo := toBe 16 src ++ toBe 16 dst ++ toBe 4 ulen ++ toBe 4 17
  let u0 := toBe 2 sport ++ toBe 2 dport ++ toBe 2 ulen
  let c := cksum (pseudo ++ u0 ++ toBe 2 0 ++ data)
  toBe 4 0x60000000 ++ toBe 2 ulen ++ toBe 1 17 ++ toBe 1 (Config.op "ip.ttl" []) ++ toBe 16 src ++ toBe 16 dst ++ u0 ++
    toBe 2 (if c == 0 then 65535 else c) ++ data

/-- Is a 128-bit address an IPv4 one, ::ffff:a.b.c.d (R76). -/
def isV4 (a : Nat) : Bool := a / 2 ^ 32 == 0xFFFF

/-- Is an address a multicast one. -/
def isMcast (a : Nat) : Bool := if isV4 a then bits a 31 28 == 0xE else bits a 127 120 == 0xFF

/-- A port's own IP address, of which it has one per version: the spec names it (R178, R391) and does not give its value. -/
def portIp (p : Nat) (v4 : Bool) : Nat :=
  if v4 then 0xFFFF * 2 ^ 32 + Config.op "ip.source" [p, 4] % 2 ^ 32 else Config.op "ip.source" [p, 6] % 2 ^ 128

/-- The MAC address a multicast IP address maps to. -/
def mcastMac (a : Nat) : Nat := if isV4 a then 0x01005E000000 + bits a 22 0 else 0x333300000000 + bits a 31 0

/-- A UDP datagram between 128-bit addresses, with its EtherType. -/
def udpPacket (src dst sport dport : Nat) (data : List Byte) : Nat × List Byte :=
  if isV4 dst then (0x0800, udp4 (bits src 31 0) (bits dst 31 0) sport dport data)
  else (0x86DD, udp6 src dst sport dport data)

/-! ### Timestamp queues (R63 to R65) -/

/-- Timestamp queue of port p. -/
def State.tsq (s : State) (p : Nat) : List TsqEntry := mgetD s.tim.tsq p []

/-- Takes a timestamp; a full queue drops it (R64). Answers whether it was kept. -/
def State.tsqPush (s : State) (p : Nat) (e : TsqEntry) : State × Bool :=
  let q := s.tsq p
  let f := F.TIM_TSQ_STAT_P_OVF_CNT.at (0x40 * p)
  if 64 ≤ q.length then (((s.incSat f).setB F.TIM_STAT_TSQ_OVF true).ev0 Ev.TIM_TSQ_OVF, false)
  else
    let s := { s with tim := { s.tim with tsq := mput s.tim.tsq p (q ++ [e]) } }
    let s := s.set (F.TIM_TSQ_STAT_P_COUNT.at (0x40 * p)) (q.length + 1)
    (if q.isEmpty then s.raise 13 else s, true)

/-- The tick at which port p stamps an edge of tick t (R59): P4 has the resolution of its 20 ns P4_REFCLK, so that its stamp is taken at
an edge of that clock less than 20 ns away, which one is open (notes/assumptions/98.md). -/
def stampTick (p t : Nat) : Nat := if p == 4 then t + Config.op "p4.refclk" [t] % 19 - 9 else t

/-- The egress stamp of a frame whose start-of-frame delimiter ended at tick t (R56, TIM_LATCOR_Pp.TX). -/
def State.egressStamp (s : State) (p t : Nat) : Nat := s.t40At (stampTick p t) + s.get (F.TIM_LATCOR_P_TX.at (0x40 * p)) * 2 ^ 40

/-- The ingress stamp of a frame whose start-of-frame delimiter ended at tick t (TIM_LATCOR_Pp.RX). -/
def State.ingressStamp (s : State) (p t : Nat) : Nat := s.t40At (stampTick p t) - s.get (F.TIM_LATCOR_P_RX.at (0x40 * p)) * 2 ^ 40

/-- A frame's last bit leaves port p: counted, sent, its egress stamp queued (R63); the transmit completion carries the mark "no timestamp"
where the queue drops it (R64). `start` is the tick it started. -/
def State.txDone (s : State) (p : Nat) (f : TxFrame) (start : Nat) : State :=
  let s := (s.macInc p 14).macBytes p 12 (f.bytes.length + 4)
  let s := s.emit (.frame p f.tc f.bytes)
  match f.kind with
  | .ptp ty dom sq =>
    let r := s.tsqPush p ⟨s.egressStamp p (start + s.bitTicks p 64), true, ty, dom, sq⟩
    { r.1 with tim := { r.1.tim with sentMark := mput r.1.tim.sentMark (16 * p + ty) (sq, !r.2) } }
  | _ => s

/-- A pause frame (R361): 0x8808, opcode 1, the quanta; it waits for no queue and carries no trailer or tag. -/
def State.sendPause (s : State) (p quanta : Nat) : State :=
  let f := padMin 60 (mkFrame macPause (s.portMac p) 0x8808 (toBe 2 1 ++ toBe 2 quanta))
  (s.macInc p 17).emit (.frame p 8 f)

/-- Bytes of received frames that wait in port p's receive buffer for ingest and the cascade logic (R343). -/
def State.rxFill (s : State) (p : Nat) : Nat :=
  (s.cas.rxq.filter fun d => d.1 == p).foldl (fun n d => n + d.2.2.2.length)
    ((s.ing.rxq.filter fun d => d.port == p).foldl (fun n d => n + d.packet.length) 0)

end Sys2Proof.Machine
end

