-- ==== Sys2Proof/Machine/AlarmOut.lean ====
section
/-!
DEFINITION. Sys2Proof/Machine/AlarmOut.lean: what every source of alarms shares: alarm records (R175, R177), alarm frames (R178, R179)
and their publication (R168).
-/
namespace Sys2Proof.Machine

/-! ### Alarm records (R175, R177) -/

/-- Records of TYPE 0x4 with up to 63 payload words each, END on the packet's last word. -/
def alarmRecs (engine kind arrival soc ns tq : Nat) (ws : List Nat) : List (Nat × List SWord) :=
  let n := max 1 (ceilDiv ws.length 63)
  (List.range n).map fun i =>
    let c := (ws.drop (63 * i)).take 63
    let r := ([h0 4 0 c.length (engine * 4096 + kind * 256) arrival 0, h1 soc ns tq] ++ c).map sword
    (0, if i + 1 == n then markEnd r else r)

/-- A transition: SRC, DIR, INDEX, GRP, CAUSE, VALUE, FLAGS (R177). -/
structure Trans where
  src : Nat
  dir : Nat
  index : Nat
  grp : Nat
  cause : Nat
  value : Nat
  flags : Nat

/-- Its word. -/
def Trans.word (t : Trans) : Nat :=
  t.src * 2 ^ 70 + t.dir * 2 ^ 69 + t.index % 65536 * 2 ^ 53 + t.grp % 1024 * 2 ^ 43 + t.cause * 2 ^ 40 +
    t.value % 2 ^ 32 * 2 ^ 8 + t.flags % 256

/-- Inserts a transition by SRC and ascending INDEX, after those of the same. -/
def transInsert (t : Trans) : List Trans → List Trans
  | [] => [t]
  | x :: r => if t.src * 65536 + t.index < x.src * 65536 + x.index then t :: x :: r else x :: transInsert t r

/-- Transition FLAGS [0] and [2] (R177, R382). -/
def State.transFlags (s : State) (tq : Nat) : Nat := b2n s.inhibited + (if tq % 16 == 15 then 4 else 0)

/-- An alarm becomes active, naming a group. -/
def State.almSet (s : State) (key grp : Nat) : State := { s with alm := { s.alm with act := mput s.alm.act key grp } }

/-- An alarm stops being active. -/
def State.almClear (s : State) (key : Nat) : State := { s with alm := { s.alm with act := merase s.alm.act key } }

/-! ### Alarm frames (R178, R179) -/

/-- ANG_NET_DST. -/
def State.almDst (s : State) : Nat :=
  (List.range 4).foldl (fun a i => a + (s.rd (R.ANG_NET_DST + 4 * i)).toNat * 2 ^ (32 * i)) 0

/-- Where alarm frames go from port p (R179); none while it is not resolved. -/
def State.almMac (s : State) (p : Nat) : Option Nat :=
  if s.flag F.ANG_NET_CFG_FIXED_MAC then some (s.get64 R.ANG_NET_MAC_LO R.ANG_NET_MAC_HI % 2 ^ 48)
  else if isMcast s.almDst then some (mcastMac s.almDst)
  else mget s.alm.macs p

/-- The ports selected in PORTS. -/
def State.almPorts (s : State) : List Nat := (List.range 5).filter fun p => bit (s.get F.ANG_NET_CFG_PORTS) p

/-- ANG_STAT.NET_RES: ports of PORTS whose address is resolved. -/
def State.netRes (s : State) : Nat := (s.almPorts.filter fun p => (s.almMac p).isSome).foldl (fun a p => a + 2 ^ p) 0

/-- Of several ports, those on which a frame is enqueued: a PRP pair counts once (R365). -/
def State.portsOnce (s : State) (ps : List Nat) : List Nat :=
  if s.flag F.MAC_PRP_CTRL_EN && ps.contains 0 then ps.filter fun p => p != 1 else ps

/-- The payload of an alarm datagram. -/
def State.almPayload (s : State) (copy seq : Nat) (ws : List SWord) : List Byte :=
  toBe 2 0x4443 ++ [1] ++ toBe 1 copy ++ toBe 4 (s.get F.ANG_NET_UNIT_UNIT) ++ toBe 4 seq ++ toBe 2 ws.length ++ toBe 2 0 ++
    ws.flatMap fun w => toBe 9 w.v.toNat ++ toBe 1 (flagByte w.eop w.poison false false)

/-- Sends one datagram from the ports given, in class 7, with the port's own addresses as source (R178). -/
def State.almSend (s : State) (copy seq : Nat) (ports : List Nat) (ws : List SWord) : State :=
  (s.portsOnce ports).foldl (fun s p =>
    match s.almMac p with
    | none => s
    | some mac =>
      let u := s.get F.ANG_NET_CFG_UDP_PORT
      let k := udpPacket (portIp p (isV4 s.almDst)) s.almDst u u (s.almPayload copy seq ws)
      (s.send p 7 .port .plain none mac k.1 k.2).1) s

/-- Whole records in datagrams of at most 128 words. -/
def packDatagrams (recs : List (List SWord)) : List (List SWord) :=
  recs.foldl (fun acc r =>
    match acc.getLast? with
    | some l => if l.length + r.length ≤ 128 then acc.dropLast ++ [l ++ r] else acc ++ [r]
    | none => [r]) []

/-- Sends a transition packet (R178): once per datagram a SEQ; REPEAT copies follow at 1 ms intervals. -/
def State.almFrames (s : State) (recs : List (Nat × List SWord)) : State :=
  if !s.flag F.ANG_NET_CFG_EN || s.inhibited then s
  else
    let un := s.almPorts.filter fun p => (s.almMac p).isNone
    let ok := s.almPorts.filter fun p => (s.almMac p).isSome
    let s := un.foldl (fun s _ => (s.inc F.ANG_NET_NORES_COUNT).ev0 Ev.ANG_NORESOLVE) s
    if ok.isEmpty then s
    else (packDatagrams (recs.map fun r => r.2)).foldl (fun s ws =>
      let seq := s.get F.ANG_NET_SEQ_SEQ
      let rep := s.get F.ANG_NET_CFG_REPEAT
      let s := (s.almSend 0 seq ok ws).inc F.ANG_NET_SEQ_SEQ
      if rep == 0 then s
      else { s with alm := { s.alm with repeats := s.alm.repeats ++ [⟨s.now + ticksOfMs 1, 1, rep, ok, seq, ws⟩] } }) s

/-- A decision's transition packet, then its result record (R168). -/
def State.publish (s : State) (trans : List (Nat × List SWord)) (resSrc : Nat) (res : List (Nat × List SWord)) : State :=
  let s := if trans.isEmpty then s else (s.offerCopy 5 (2 ^ 5) trans).almFrames trans
  if res.isEmpty then s else s.offerCopy resSrc (2 ^ resSrc) res

end Sys2Proof.Machine
end

