-- ==== Sys2Proof/Machine/Bound.lean ====
section
/-!
DEFINITION. Sys2Proof/Machine/Bound.lean: what a boundary does to output groups and cascade members (R234, R241, R242, R252), which take
up their configuration at the boundary itself.
-/
namespace Sys2Proof.Machine

/-! ### Block layouts (R234) -/

/-- Counts of phasors, analogs and digitals of a local stream (R280). -/
def PmuCfg.shape (c : PmuCfg) : Nat × Nat × Nat := (popcount c.phsel 8, popcount c.ansel 3, b2n c.digen)

/-- PHNMR, ANNMR, DGNMR, FNOM and IDCODE of a stream by tables of entries; none where it has no format. -/
def layoutOf (streams : List (Nat × Stream)) (bays : List (Nat × PmuCfg)) (sidx : Nat) : Option (Nat × Nat × Nat × Nat) × Nat :=
  if sidx < 8184 then
    match mget streams sidx with
    | none => (none, 0)
    | some e => (if !bit e.flags 2 || e.learned then some (e.phnmr, e.annmr, e.dgnmr, e.fnom) else none, e.idcode)
  else match mget bays (sidx - 8184) with
    | none => (none, 0)
    | some c => (some (c.shape.1, c.shape.2.1, c.shape.2.2, c.fnom), c.idcode)

/-- The layout of a stream now. -/
def State.layoutNow (s : State) (sidx : Nat) : Option (Nat × Nat × Nat × Nat) × Nat :=
  layoutOf s.ing.streams.eff s.pmu.cfg.eff sidx

/-- A group's block for an item. -/
def State.outBlock (s : State) (i : OutItem) : OutBlock :=
  let l := s.layoutNow i.sidx
  let f := l.1.getD (0, 0, 0, 0)
  ⟨i.sidx, if i.idcode == 0 then l.2 else i.idcode, i.stn, f.1, f.2.1, f.2.2.1, f.2.2.2, none⟩

/-- Bytes of a block (R235). -/
def OutBlock.size (b : OutBlock) : Nat := 10 + 8 * b.ph + 4 * b.an + 2 * b.dg

/-- FRAMESIZE (R235). -/
def outFrameSize (bs : List OutBlock) : Nat := 16 + (bs.map OutBlock.size).foldl (· + ·) 0

/-! ### Definitions in effect -/

/-- Changes the output state. -/
def State.modOut (s : State) (f : OutSt → OutSt) : State := { s with outp := f s.outp }

/-- The newest definitions. -/
def State.outNow (s : State) : OutEpoch := (s.outp.epochs.head?).getD ⟨0, [], [], [], []⟩

/-- The definitions of an epoch. -/
def State.outAt (s : State) (tag : Nat) : OutEpoch := (s.outp.epochs.find? fun e => e.tag == tag).getD ⟨0, [], [], [], []⟩

/-- A field of group g's registers. -/
def ogf (f : Fld) (g : Nat) : Fld := f.at (0x10 * g)

/-- MAC address of a destination, if known (R242). -/
def State.outMac (s : State) (d : Nat) (x : OutDest) : Option Nat :=
  match x.fixedMac with
  | some m => some m
  | none => if isMcast x.addr then some (mcastMac x.addr) else mget s.outp.macs d

/-- The registers of groups and destinations follow. -/
def State.outSync (s : State) : State :=
  let e := s.outNow
  let s := (List.range 16).foldl (fun s g =>
    let bs := (mget e.groups g).map fun x => x.2
    let s := s.set (ogf F.OUT_GINFO_BYTES g) ((bs.map outFrameSize).getD 0)
    s.set (ogf F.OUT_GINFO_NBLK g) ((bs.map List.length).getD 0)) s
  let s := (List.range 16).foldl (fun s d =>
    let x := mget e.dests d
    let s := s.setB (ogf F.OUT_DSTAT_EN d) x.isSome
    let s := s.setB (ogf F.OUT_DSTAT_TX_ON d) (x.isSome && smem s.outp.txOn d)
    s.setB (ogf F.OUT_DSTAT_RESOLVED d) ((x.bind fun y => s.outMac d y).isSome)) s
  let on := (List.range 16).filter fun g => (mget e.groups g).isSome
  let s := s.set F.OUT_STAT_GRP_ON (on.foldl (fun a g => a + 2 ^ g) 0)
  let dst := (List.range 16).filter fun d => s.flag (ogf F.OUT_DSTAT_EN d) && s.flag (ogf F.OUT_DSTAT_TX_ON d) &&
    !s.flag (ogf F.OUT_DSTAT_SIZE_ERR d)
  s.set F.OUT_STAT_DST_ON (dst.foldl (fun a d => a + 2 ^ d) 0)

/-- Does a group's rate fit a cadence (R233). -/
def outRateOk (g : OutGroup) (cad : Nat) : Bool := decide (rateOf g.rate ≤ rateOf cad) && rateOf cad % max (rateOf g.rate) 1 == 0

/-- Groups whose rate stops fitting the cadence in effect log EV_OUT_RATE (R233). -/
def State.outRates (s : State) : State :=
  let bad := (s.outNow.groups.filter fun p => !outRateOk p.2.1 s.aln.cad).map fun p => p.1
  let s := (bad.filter fun g => !smem s.outp.rateBad g).foldl (fun s _ => s.ev0 Ev.OUT_RATE) s
  s.modOut fun o => { o with rateBad := bad }

/-- A change of a stream's format since a group took effect leaves its block absent from the instant given on (R234). -/
def State.outLayouts (s : State) (at_ : Nat × Nat) : State :=
  match s.outp.epochs with
  | [] => s
  | e :: rest =>
    let changed (b : OutBlock) : Bool := b.stale.isNone &&
      (s.layoutNow b.sidx).1.getD (0, 0, 0, 0) != (b.ph, b.an, b.dg, b.fnom)
    let n := (e.groups.map fun p => (p.2.2.filter changed).length).foldl (· + ·) 0
    if n == 0 then s
    else
      let t := at_.1 * 1000000000 + at_.2
      let gs := e.groups.map fun p =>
        (p.1, (p.2.1, p.2.2.map fun b => if changed b then { b with stale := some t } else b))
      let s := s.modOut fun o => { o with epochs := { e with groups := gs } :: rest }
      (List.range n).foldl (fun s _ => s.ev0 Ev.OUT_LAYOUT) s

/-- Sets of the epochs before a boundary keep the destinations it changes as they stand now, and the groups' STAT bit 10 (R232, R236). -/
def State.outKeep (s : State) (kg kd : List Nat) : State :=
  let now (d : Nat) : DestWas :=
    { on := smem s.outp.txOn d, mac := ((mget s.outNow.dests d).bind fun x => s.outMac d x), sizeErr := s.flag (ogf F.OUT_DSTAT_SIZE_ERR d) }
  let keep (e : OutEpoch) : OutEpoch := { e with
    was := kd.foldl (fun m d => if (mget m d).isSome then m else mput m d (now d)) e.was
    chgWas := kg.foldl (fun m g => if (mget m g).isSome then m else mput m g (mget s.outp.chg g)) e.chgWas }
  s.modOut fun o => { o with epochs := o.epochs.map keep }

/-- The boundary of epoch `tag` at the instant `at_`, after the stream tables have taken effect (R234, R241, R242). -/
def State.outBoundary (s : State) (tag : Nat) (at_ : Nat × Nat) : State :=
  let kg := s.outp.groups.pend.map fun p => p.1
  let kd := s.outp.dests.pend.map fun p => p.1
  let s := s.modOut fun o => { o with groups := (o.groups.pass tag).take, dests := (o.dests.pass tag).take }
  let s := s.outKeep kg kd
  let old := s.outNow
  let gs := s.outp.groups.eff.map fun p =>
    (p.1, (p.2, if kg.contains p.1 then p.2.items.map s.outBlock
      else ((mget old.groups p.1).map fun x => x.2).getD (p.2.items.map s.outBlock)))
  let s := s.modOut fun o => { o with epochs := (⟨tag, gs, o.dests.eff, [], []⟩ :: o.epochs).take 64 }
  let noFmt := (kg.filterMap fun g => mget s.outp.groups.eff g).flatMap fun g =>
    g.items.filter fun i => (s.layoutNow i.sidx).1.isNone
  let s := noFmt.foldl (fun s _ => s.ev0 Ev.OUT_LAYOUT) s
  let sec := s.get F.OUT_CFGCHG_S
  let s := kg.foldl (fun s g =>
    let s := s.inc (ogf F.OUT_CFGCNT_CFGCNT g)
    if sec == 0 then s.modOut fun o => { o with chg := merase o.chg g }
    else s.modOut fun o => { o with chg := mput o.chg g (s.now + ticksOfS sec) }) s
  let touched := (List.range 16).filter fun d => kd.contains d ||
    ((mget s.outp.dests.eff d).map fun x => kg.contains x.group).getD false
  let s := touched.foldl (fun s d => s.setB (ogf F.OUT_DSTAT_SIZE_ERR d) false) s
  let s := kd.foldl (fun s d =>
    let on := ((mget s.outp.dests.eff d).map fun x => x.startOn).getD false
    s.modOut fun o => { o with
      txOn := if on then sadd o.txOn d else sdel o.txOn d, macs := merase o.macs d }) s
  ((s.outLayouts at_).outRates).outSync

/-! ### Cascade members (R251, R252) -/

/-- Changes the cascade state. -/
def State.modCas (s : State) (f : Cas → Cas) : State := { s with cas := f s.cas }

/-- A field of cascade member w's registers, w = 1 to 15. -/
def mbr (f : Fld) (w : Nat) : Fld := f.at (0x20 * (w - 1))

/-- A member that has sent nothing. -/
def CasMember.idle : CasMember := ⟨false, false, false, false, 0, 0, none, false⟩

/-- Member w. -/
def State.casMember (s : State) (w : Nat) : CasMember := mgetD s.cas.members w CasMember.idle

/-- Changes member w, its registers following. -/
def State.modMember (s : State) (w : Nat) (f : CasMember → CasMember) : State :=
  let m := f (s.casMember w)
  let s := s.modCas fun c => { c with members := mput c.members w m }
  let s := (((s.setB (mbr F.CAS_MSTAT_UP w) m.up).setB (mbr F.CAS_MSTAT_LOST w) m.lost).setB (mbr F.CAS_MSTAT_ANY w) m.any).setB
    (mbr F.CAS_MSTAT_JOINED w) m.joined
  let s := (s.set (mbr F.CAS_MSTAT_DEPTH w) m.depth).set (mbr F.CAS_MDSEQ_DSEQ w) m.dseq
  (s.setB ⟨R.CAS_MEMBERS, w, w⟩ m.up).setB ⟨R.CAS_MEMBERS, 16 + w, 16 + w⟩ m.lost

/-- Keys of a member's ANY and LOST alarms. -/
def anyKey (w : Nat) : Nat := almKey 4 w
/-- The LOST alarm. -/
def lostKey (w : Nat) : Nat := almKey 4 (16 + w)

/-- Is member w enabled in the epoch in effect. -/
def State.casEnabled (s : State) (w : Nat) : Bool := s.eget (mbr F.CAS_MCFG_EN w) == 1

/-- The tier in effect: 0 worker, 1 manager, 2 top manager. -/
def State.tier (s : State) : Nat := s.get F.TOP_STRAPS_TIER_EFF

/-- Own DEPTH (R243). -/
def State.casDepth (s : State) : Nat :=
  if s.tier == 0 then 0
  else 1 + (s.cas.members.filter fun p => s.casEnabled p.1).foldl (fun m p => max m p.2.depth) 0

/-- One raise or clear of a member's alarm (R251): the state, and the transition. -/
def State.casAlarm (s : State) (w : Nat) (lost raised : Bool) (cause value fl : Nat) : State × List Trans :=
  let key := if lost then lostKey w else anyKey w
  let grp := s.eget (mbr (if lost then F.CAS_MCFG_LOST_GRP else F.CAS_MCFG_ANY_GRP) w)
  match mget s.alm.act key, raised with
  | none, true => ((s.almSet key grp).ev0 Ev.CAS_ALARM_RAISE, [⟨b2n lost, 1, w, grp, cause, value, fl⟩])
  | some g, false => ((s.almClear key).ev0 Ev.CAS_ALARM_CLEAR, [⟨b2n lost, 0, w, g, cause, value, fl⟩])
  | _, _ => (s, [])

/-- All words of a packet but each record's H0 carry POISON where what they are computed from did (R102). -/
def poisonRecs (bad : Bool) (rs : List (Nat × List SWord)) : List (Nat × List SWord) :=
  rs.map fun r => (r.1, r.2.zipIdx.map fun w => if bad && w.2 != 0 then { w.1 with poison := true } else w.1)

/-- A member's decision is published as a packet of ENGINE 4, KIND 1; `bad`: the digest's D1, which gave it, was poisoned. -/
def State.casPublish (s : State) (bad : Bool) (ts : List Trans) (soc ns tq : Nat) : State :=
  if ts.isEmpty then s
  else s.publish (poisonRecs bad (alarmRecs 4 1 (shortStamp s.taiNs) soc ns tq (ts.map Trans.word))) 5 []

/-- The boundary at the instant `at_`: newly disabled members clear their alarms with CAUSE 3; newly enabled ones count silence from
here; an active alarm names the member's present group. -/
def State.casBoundary (s : State) (was : Nat → Bool) (at_ : Nat × Nat) : State :=
  let fl := s.transFlags s.tqByte
  (List.range 16).foldl (fun s w =>
    if w == 0 then s
    else
      let on := s.casEnabled w
      if was w && !on then
        let a := s.casAlarm w false false 3 0 fl
        let b := a.1.casAlarm w true false 3 0 fl
        let s := b.1.casPublish false (a.2 ++ b.2) at_.1 at_.2 s.tqByte
        s.modMember w fun _ => CasMember.idle
      else if !was w && on then s.modMember w fun m => { m with since := some s.now }
      else if on then
        let re (s : State) (key grp : Nat) : State :=
          if (mget s.alm.act key).isSome then s.almSet key grp else s
        re (re s (anyKey w) (s.eget (mbr F.CAS_MCFG_ANY_GRP w))) (lostKey w) (s.eget (mbr F.CAS_MCFG_LOST_GRP w))
      else s) s

end Sys2Proof.Machine
end

