-- ==== Sys2Proof/Machine/Ecc.lean ====
section
/-!
DEFINITION. Sys2Proof/Machine/Ecc.lean: store integrity: reads with correction and poison, the tag queue and the Badger, hard
faults, page retirement (R446 to R459).
-/
namespace Sys2Proof.Machine

/-! ### Reads (R448, R449) -/

/-- Changes the state of store integrity. -/
def State.modEcc (s : State) (f : Ecc → Ecc) : State := { s with ecc := f s.ecc }

/-- ECC_LAST takes an error: word address, KIND, memory, BIT. -/
def State.eccLast (s : State) (b : Block) (word kind col : Nat) : State :=
  (((s.set F.ECC_LAST_LO_ADDR (8 * b.no + word)).set F.ECC_LAST_HI_KIND kind).set F.ECC_LAST_HI_CRAM (b2n b.cram)).set
    F.ECC_LAST_HI_BIT col

/-- Places a block in the 64-entry tag queue, once; a full queue drops the tag (R448, R451). -/
def State.eccTag (s : State) (t : EccTag) : State :=
  if s.ecc.tags.any fun x => x.blk = t.blk then s
  else if s.ecc.tags.length < 64 then s.modEcc fun e => { e with tags := e.tags ++ [t] }
  else
    let s := (s.inc F.ECC_CNT_TAGOVF_COUNT).setB F.ECC_STAT_TAGOVF true
    let log := match s.ecc.ovfLog with
      | some n => s.passed n (ticksOfMs 1)
      | none => true
    if log then (s.modEcc fun e => { e with ovfLog := some s.now }).ev0 Ev.ECC_TAGOVF else s

/-- HARDN and SPARES follow the lists. -/
def State.eccSync (s : State) : State :=
  (s.set F.ECC_STAT_HARDN s.ecc.hard.length).set F.ECC_STAT_SPARES (min 64 s.ecc.cramMap.length)

/-- A hard fault (R453, R454): logged and counted; a Sett page enters the list of 16, a control RAM block waits for its
remap. -/
def State.eccHard (s : State) (b : Block) (word col : Nat) : State :=
  let page := 8 * b.no / 1024
  let s := (s.inc F.ECC_CNT_HARD_COUNT).eccLast b word 3 col
  let s := s.ev Ev.ECC_HARD 0 ([(1, b2n b.cram), (32, b.no), (32, word), (7, col)] ++ (if b.cram then [] else [(16, page)]))
  if b.cram then s.modEcc fun e => { e with cramHard := sadd e.cramHard b.no }
  else if s.ecc.hard.any fun p => p.2 == page then s
  else match (List.range 16).find? fun i => (mget s.ecc.hard i).isNone with
    | some i => (s.modEcc fun e => { e with hard := mput e.hard i page }).eccSync
    | none => s

/-- A correction at a word and column of a block: counted, tagged, logged; a hard fault where the same bit was written back
among the last 256 (R448, R453). Of a check bit (word 8 or column 74) ECC_LAST and the event of a hard fault have no word or no column
to name: an open value (notes/assumptions/101.md). -/
def State.eccCorr (s : State) (b : Block) (word col : Nat) : State :=
  let again := s.ecc.hist.contains (b, word, col)
  let f := s.fresh
  let s := if word == 8 || col == 74 then f.2 else s
  let w := if word == 8 then f.1 % 8 else word
  let c := if col == 74 then f.1 / 8 % 74 else col
  let s := ((s.inc F.ECC_CNT_CORR_COUNT).eccLast b w 1 c).ev0 Ev.CORR
  let s := s.eccTag ⟨b, word, some col⟩
  if again then s.eccHard b w c else s

/-- EV_UNCORR for a word of a block, with its counter and ECC_LAST (R449). -/
def State.uncorrLog (s : State) (b : Block) (word : Nat) : State :=
  ((s.inc F.ECC_CNT_UNCORR_COUNT).eccLast b word 2 0x7F).ev Ev.UNCORR 0 [(1, b2n b.cram), (24, 8 * b.no + word)]

/-- An uncorrectable error found at a word of a block: tagged, logged once per block (R449). -/
def State.eccUncorr (s : State) (b : Block) (word : Nat) : State :=
  let s := s.eccTag ⟨b, word, none⟩
  if s.ecc.logged.contains b then s
  else (s.uncorrLog b word).modEcc fun e => { e with logged := e.logged ++ [b] }

/-- What R447 makes of the failing rows and columns of a block. -/
inductive BlockFix where
  /-- nothing failed -/
  | none
  /-- one bit is put right: its word (8: a column check bit) and its column (74: a row check bit) -/
  | fix (word col : Nat)
  /-- uncorrectable: these words of the block get POISON -/
  | poison (words : List Nat)

/-- Columns of a parity block of a memory (R446). -/
def blockCols (cram : Bool) : Nat := if cram then 65 else 74

/-- The table of R447. -/
def blockFix (cram : Bool) (e : ReadErr) : BlockFix :=
  match e.rows, e.cols with
  | [], [] => .none
  | [r], [c] => .fix (r % 8) (c % blockCols cram)
  | [r], [] => .fix (r % 8) 74
  | [], [c] => .fix 8 (c % blockCols cram)
  | [], _ => .poison (List.range 8)
  | rs, _ => .poison (rs.map fun r => r % 8)

/-! ### Poison in the control RAM (R455): where an item lies there is not stated -/

/-- Does an item have bits in word w of the control RAM: open (notes/assumptions/42.md). -/
def cramHolds (w kind idx : Nat) : Bool := Config.op "cram.holds" [w, kind, idx] % 2 == 1

/-- Does the control RAM entry of an item read poisoned: kind 0 stream, 1 rule, 2 pair, 3 node, 4 edge, 5 signal. -/
def State.cramPoisoned (s : State) (kind idx : Nat) : Bool :=
  (s.ecc.cramPoison.any fun w => cramHolds w kind idx) && !s.ecc.healed.contains (kind, idx)

/-- An item is written anew (R450). -/
def State.heal (s : State) (kind idx : Nat) : State :=
  if s.ecc.cramPoison.isEmpty || s.ecc.healed.contains (kind, idx) then s
  else s.modEcc fun e => { e with healed := e.healed ++ [(kind, idx)] }

/-- The shadow copies of items are written anew; a table's shadow has kind 16 plus the table's place in the copy order of R417. -/
def State.healAll (s : State) (table : Nat) (ks : List Nat) : State :=
  if s.ecc.cramPoison.isEmpty then s else ks.foldl (fun s k => s.heal (16 + table) k) s

/-- Of an engine's items the ones whose own state in the control RAM reads poisoned (R455): kinds 32 rule, 33 pair, 34 edge, 35 node, 36
signal, 37 mode slot. -/
def State.stateLost (s : State) (kind : Nat) (ks : List Nat) : List Nat := ks.filter fun k => s.cramPoisoned kind k

/-! ### Poison in place (R102, R447) -/

/-- Puts POISON on a stored Sett word. -/
def State.poisonWord (s : State) (addr : Nat) : State :=
  match s.sett.pages.find? fun p => p.2.phys == addr / 1024 with
  | none => s
  | some (id, p) =>
    match p.words[addr % 1024]? with
    | none => s
    | some w => s.modPage id fun g => { g with words := g.words.set (addr % 1024) { w with poison := true } }

/-- The words of a block whose rows fail get POISON (R447). -/
def State.poisonWords (s : State) (b : Block) (ws : List Nat) : State :=
  if b.cram then ws.foldl (fun s w => s.modEcc fun e => { e with
    cramPoison := sadd e.cramPoison (8 * b.no + w)
    healed := e.healed.filter fun h => !cramHolds (8 * b.no + w) h.1 h.2 }) s
  else ws.foldl (fun s w => s.poisonWord (8 * b.no + w)) s

/-- What a check of the block of the word at `addr` does (R447 to R449): the state it leaves and whether that word was corrected; words
that turn out uncorrectable stand poisoned from here on (R102). -/
def State.eccRead (s : State) (cram : Bool) (addr : Nat) (err : ReadErr) : State × Bool :=
  let b : Block := ⟨cram, addr / 8⟩
  match blockFix cram err with
  | .none => (s, false)
  | .fix w c => (s.eccCorr b w c, w == addr % 8 && c != 74)
  | .poison ws => ((s.poisonWords b ws).eccUncorr b (addr % 8), false)

/-! ### The Badger (R451 to R454) -/

/-- Where a Sett block's poison is kept that a write-back has put there: by page id, and block of the page. -/
def State.blockKey (s : State) (b : Block) : Option Nat :=
  if b.cram then none
  else (s.sett.pages.find? fun p => p.2.phys == b.no / 128).map fun p => 128 * p.1 + b.no % 128

/-- An uncorrectable block has been written back with its POISON (R451): it is never logged again (R449). -/
def State.writtenBack (s : State) (b : Block) : State :=
  match s.blockKey b with
  | some k => s.modEcc fun e => { e with wb := sadd e.wb k }
  | none => s

/-- A host window or queue read returns the word at `addr`: EV_UNCORR for a poisoned one (R115), unless its block's own error has been
logged or written back (R449). -/
def State.poisonRead (s : State) (addr : Nat) (poison : Bool) : State :=
  let b : Block := ⟨false, addr / 8⟩
  let known := s.ecc.logged.contains b || ((s.blockKey b).map fun k => smem s.ecc.wb k).getD false
  if poison && !known then s.uncorrLog b (addr % 8) else s

/-- A control RAM block with a hard fault moves to a spare at its write-back (R454). -/
def State.cramRemap (s : State) (b : Block) : State :=
  if b.cram && s.ecc.cramHard.contains b.no then
    if s.ecc.cramMap.length < 64 then
      ((s.modEcc fun e => { e with cramHard := sdel e.cramHard b.no, cramMap := sadd e.cramMap b.no }).ev0
        Ev.ECC_CRAM_REMAP).eccSync
    else s.ev0 Ev.ECC_SPARE_OUT
  else s

/-- BADGER_TAG_WRITEBACK (R451, R453): the oldest tagged block is written back and read back; `err` is what the read-back
finds. -/
def execBadgerTagWriteback (err : ReadErr) (s : State) : Result :=
  match s.ecc.tags with
  | [] => s.done
  | t :: rest =>
    let s := s.modEcc fun e => { e with tags := rest, logged := e.logged.filter fun b => !(b = t.blk) }
    let s := s.inc F.ECC_CNT_WB_COUNT
    let s := match t.col with
      | some c => s.modEcc fun e => { e with hist := ((t.blk, t.word, c) :: e.hist).take 256 }
      | none => s.writtenBack t.blk
    let s := s.cramRemap t.blk
    match blockFix t.blk.cram err with
    | .none => s.done
    | .fix w c =>
      if t.col == some c && t.word == w then
        let f := s.fresh
        let s := if w == 8 || c == 74 then f.2 else s
        ((s.inc F.ECC_CNT_CORR_COUNT).eccHard t.blk (if w == 8 then f.1 % 8 else w) (if c == 74 then f.1 / 8 % 74 else c)).done
      else (s.eccCorr t.blk w c).done
    | .poison ws => ((s.poisonWords t.blk ws).eccUncorr t.blk (ws.headD 0)).done

/-- Blocks of the walk: the Sett's, then the control RAM's (R452). -/
def walkBlocks : Nat := 1048576 + 32768

/-- The lap ends: its time goes to ECC_LAP and ECC_LAPMAX. -/
def State.lapEnd (s : State) : State :=
  let ms := (s.now - s.ecc.lapStart) / ticksOfMs 1
  let s := s.set F.ECC_LAP_MS ms
  let s := if s.get F.ECC_LAPMAX_MS < ms then s.set F.ECC_LAPMAX_MS ms else s
  s.modEcc fun e => { e with walk := 0, lapStart := s.now, late := false }

/-- BADGER_BLOCK_VISIT (R452): the next block of the walk, INTERVAL ns after the last in MODE 0 or in a late lap; which word
of it an error concerns is a free choice. -/
def execBadgerBlockVisit (err : ReadErr) (s : State) : Result :=
  if s.flag F.ECC_CTRL_EN then
    let paced := !s.flag F.ECC_STAT_MODE || s.ecc.late
    let s := if paced then s.reach (s.ecc.visitAt + ticksOfNs (s.get F.ECC_SCRUB_INTERVAL)) else s
    let i := s.ecc.walk
    let b : Block := if i < 1048576 then ⟨false, i⟩ else ⟨true, i - 1048576⟩
    let f := s.fresh
    let s := match blockFix b.cram err with
      | .none => s
      | .fix w c => s.eccCorr b w c
      | .poison ws => (f.2.poisonWords b ws).eccUncorr b (f.1 % 8)
    let s := s.modEcc fun e => { e with walk := i + 1, visitAt := s.now }
    (if walkBlocks ≤ i + 1 then s.lapEnd else s).done
  else s.done

/-- EV_ECC_LAP_LATE (R452): in MODE 1, IDLE_MAX has passed since the lap started. -/
def execEvEccLapLate (s : State) : Result :=
  if s.flag F.ECC_CTRL_EN && s.flag F.ECC_STAT_MODE && !s.ecc.late then
    let s := s.reach (s.ecc.lapStart + ticksOfS (s.get F.ECC_SCRUB_IDLE_MAX))
    (((s.modEcc fun e => { e with late := true }).setB F.ECC_STAT_LATE true).ev0 Ev.ECC_LAP_LATE).done
  else s.done

/-- SCRUB_CFG (0x81): body. -/
def scrubCfgBody (p : List Byte) (s : State) : CmdRes :=
  let mode := le p 8 1
  let idle := le p 9 1
  let iv := le p 10 2
  checked [(decide (1 < mode), St.badParam), (if mode == 1 then idle == 0 || decide (60 < idle) else idle != 0, St.badParam),
      (decide (iv < 50) || decide (10000 < iv), St.badParam), (!zeroAt p 12 4, St.badParam)] s
  ⟨St.ok, [], ((s.set F.ECC_SCRUB_IDLE_MAX idle).set F.ECC_SCRUB_INTERVAL iv).set F.ECC_STAT_MODE mode⟩

/-- SCRUB_CFG (R452). -/
def execScrubCfg (r : Fn) (s : State) : Result := (s.plain r 0x81 16 false (fun _ => true) scrubCfgBody).done

/-! ### Stepped commands: PAGE_RETIRE and SCRUB_FULL (R456, R109) -/

/-- Lowers SET_QUOTA_SPARE by one for a retired page; where it is zero, the quota of the class that held the page (R109). -/
def State.retireQuota (s : State) (cls : Nat) : State :=
  let sp := s.get F.SET_QUOTA_SPARE_QUOTA
  if 0 < sp then s.set F.SET_QUOTA_SPARE_QUOTA (sp - 1)
  else
    let f := F.SET_QUOTA_ALIGN_QUOTA.at (4 * cls)
    (s.set f (s.get f - 1)).ev0 Ev.SET_QUOTA_SHRUNK

/-- A physical page is retired: off the free list for good, RETIRED, the quota, the hard-fault list, PERSIST, the event. -/
def State.retire (s : State) (phys cls : Nat) : State :=
  let s := { s with sett := { s.sett with retired := sadd s.sett.retired phys } }
  let s := s.set F.SET_STAT_RETIRED s.sett.retired.length
  let s := s.retireQuota cls
  let s := (s.modEcc fun e => { e with hard := e.hard.filter fun p => p.2 != phys }).eccSync
  (s.inc F.ECC_PERSIST_N).ev0 Ev.ECC_RETIRED

/-- RESULT of PAGE_RETIRE. -/
def retireResult (new poisoned : Nat) : List Byte := toLe 2 new ++ toLe 2 poisoned

/-- Stages 6 to 12 of PAGE_RETIRE (0x80). -/
def pageRetireCheck (p : List Byte) (s : State) : Option Nat :=
  let page := le p 8 2
  let used := s.sett.pages.any fun x => x.2.phys == page
  firstFail [(decide (8191 < page), St.badParam), (!zeroAt p 10 6, St.badParam),
    (s.cmd.fly.any fun f => pkOp f.bytes == 0x80, St.busy), (smem s.sett.retired page, St.state),
    (used && s.freeCount == 0, St.noResource)]

/-- A step of PAGE_RETIRE. Progress: page id of the replacement, step number. -/
def pageRetireStep (p : List Byte) (prog : List Nat) (s : State) : StepRes :=
  let page := le p 8 2
  match s.sett.pages.find? fun x => x.2.phys == page with
  | none =>
    -- a free page; one freed while it was copied gives its replacement back
    let s := match prog with
      | id :: _ => s.freePage id
      | [] => s
    let f := s.fresh
    let t := if s.get F.SET_QUOTA_SPARE_QUOTA == 0 then f.2 else s
    .final St.ok (retireResult 0xFFFF 0) (t.retire page (f.1 % 7))
  | some (id, g) =>
    match prog with
    | [] =>
      let r := s.takePage g.cls (g.words.take 256) []
      .more [r.1, 1] r.2
    | new :: k =>
      let n := k.headD 1
      let s := s.modPage new fun x => { x with words := g.words.take (256 * (n + 1)) }
      if n < 3 then .more [new, n + 1] s
      else match mget s.sett.pages new with
        | none => .final St.ok (retireResult 0xFFFF 0) s
        | some y =>
          let bad := (g.words.filter fun w => w.poison).length
          let s := (s.freePage new).modPage id fun x => { x with phys := y.phys }
          .final St.ok (retireResult y.phys bad) (s.retire page g.cls)

/-- PAGE_RETIRE (R456). -/
def execPageRetire (r : Fn) (s : State) : Result :=
  (s.stepped r 0x80 16 pageRetireCheck (fun _ => []) pageRetireStep).done

/-- What PAGE_RETIRE leaves when it is aborted: the replacement is freed. -/
def State.retireAbort (s : State) (prog : List Nat) : State :=
  match prog with
  | id :: _ => s.freePage id
  | [] => s

/-- Stage 6 of SCRUB_FULL (0x82). -/
def scrubFullCheck (p : List Byte) (_ : State) : Option Nat := firstFail [(!zeroAt p 8 8, St.badParam)]

/-- A step of SCRUB_FULL, of 66. Progress: steps done, and the counters CORR, UNCORR, HARD at the start. Errors reach this
model through the rows that name one, so that a step itself finds none (notes/assumptions/41.md). -/
def scrubFullStep (_ : List Byte) (prog : List Nat) (s : State) : StepRes :=
  let n := prog.headD 0
  let c0 := if n == 0 then [s.get F.ECC_CNT_CORR_COUNT, s.get F.ECC_CNT_UNCORR_COUNT, s.get F.ECC_CNT_HARD_COUNT]
    else prog.tail
  let s := s.setB F.ECC_STAT_FULL (decide (n + 1 < 66))
  if n + 1 < 66 then .more ((n + 1) :: c0) s
  else
    let d (f : Fld) (i : Nat) : List Byte := toLe 4 (subMod 32 (s.get f) ((c0[i]?).getD 0))
    .final St.ok (d F.ECC_CNT_CORR_COUNT 0 ++ d F.ECC_CNT_UNCORR_COUNT 1 ++ d F.ECC_CNT_HARD_COUNT 2) s

/-- SCRUB_FULL. -/
def execScrubFull (r : Fn) (s : State) : Result :=
  (s.stepped r 0x82 16 scrubFullCheck (fun _ => []) scrubFullStep).done

/-- RETMAP_FLASH_SAVE (R457): the firmware writes the map to flash, then PERSIST goes down by one. -/
def execRetmapFlashSave (s : State) : Result :=
  if 0 < s.get F.ECC_PERSIST_N && s.fwRuns then
    (((s.modEcc fun e => { e with flashMap := s.sett.retired }).set F.ECC_PERSIST_N (s.get F.ECC_PERSIST_N - 1)).ev0
      Ev.ECC_RETIRE_SAVED).done
  else s.done

end Sys2Proof.Machine
end

