-- ==== Sys2Proof/Machine/Join.lean ====
section
/-!
DEFINITION. Sys2Proof/Machine/Join.lean: multicast group joins by the firmware (R5, R344, R38): the ports' multicast filters and the
membership reports of IGMPv3 and MLDv2. What joins which group on which port is the model's (notes/assumptions/25.md).
-/
namespace Sys2Proof.Machine

/-! ### Memberships -/

/-- Is port p named in the PORTS of the last PTP_CFG. -/
def State.ptpNamed (s : State) (p : Nat) : Bool := ((s.tim.ptpNext.orElse fun _ => s.tim.ptp).map fun c => bit c.ports p).getD false

/-- The groups that output destinations in effect join, each on the destination's ports. -/
def State.outGroups (s : State) : List (Nat × Nat) :=
  s.outNow.dests.flatMap fun d =>
    if isMcast d.2.addr then ((List.range 5).filter fun p => bit d.2.ports p).map fun p => (p, d.2.addr) else []

/-- The groups that enabled streams join; which group a stream is sent to, and on which ports it is joined, the entry does not say. -/
def State.streamGroups (s : State) : List (Nat × Nat) :=
  (s.ing.streams.eff.filter fun e => bit e.2.flags 0 && !bit e.2.flags 1).flatMap fun e =>
    (List.range 5).filterMap fun p =>
      let g := Config.op "stream.group" [e.1, p]
      if isMcast g then some (p, g) else none

/-- The groups joined, as (port, group address). -/
def State.mcWanted (s : State) : List (Nat × Nat) := (s.outGroups ++ s.streamGroups).foldl (fun l g => if l.contains g then l else l ++ [g]) []

/-- The addresses of port p's filter: those of PTP where it names the port, and those of the groups, as many as the filter holds. -/
def State.mcMacs (s : State) (p : Nat) : List Nat :=
  let l := (if s.ptpNamed p then [macPdelay, macPtp] else []) ++ ((s.mcWanted.filter fun g => g.1 == p).map fun g => mcastMac g.2)
  (l.foldl (fun l a => if l.contains a then l else l ++ [a]) []).take 64

/-- Writes entry i of port p's filter. -/
def State.mcEntry (s : State) (p i : Nat) (mac : Option Nat) : State :=
  let a := mac.getD 0
  let f (x : Fld) : Fld := (pfld x p).at (8 * i)
  ((s.set (f F.MAC_MCF_LO_P_ADDR) (a % 2 ^ 32)).set (f F.MAC_MCF_HI_P_ADDR) (a / 2 ^ 32)).setB (f F.MAC_MCF_HI_P_VALID) mac.isSome

/-- Port p's filter takes the addresses given. -/
def State.mcFilter (s : State) (p : Nat) (macs : List Nat) : State :=
  let was := mgetD s.mac.mcf p []
  if was == macs then s
  else
    let s := (List.range (max was.length macs.length)).foldl (fun (s : State) i => s.mcEntry p i macs[i]?) s
    { s with mac := { s.mac with mcf := mput s.mac.mcf p macs } }

/-! ### Reports -/

/-- A group record without sources: IGMPv3's and MLDv2's forms differ in the length of the address alone. -/
def mcRecord (v4 : Bool) (r : Nat × Nat) : List Byte := toBe 1 r.1 ++ toBe 1 0 ++ toBe 2 0 ++ (if v4 then toBe 4 (bits r.2 31 0) else toBe 16 r.2)

/-- An IGMPv3 report to 224.0.0.22 from the port, or an MLDv2 report to ff02::16, of records (type, group). -/
def mcReport (p : Nat) (v4 : Bool) (rs : List (Nat × Nat)) : List Byte :=
  let recs := rs.flatMap (mcRecord v4)
  let n := toBe 2 0 ++ toBe 2 rs.length
  if v4 then
    let src := bits (portIp p true) 31 0
    let body (c : Nat) : List Byte := toBe 2 0x2200 ++ toBe 2 c ++ n ++ recs
    let h (c : Nat) : List Byte := toBe 2 0x46C0 ++ toBe 2 (32 + recs.length) ++ toBe 2 (Config.op "ip.id" []) ++ toBe 2 0 ++ toBe 2 0x0102 ++
      toBe 2 c ++ toBe 4 src ++ toBe 4 0xE0000016 ++ toBe 4 0x94040000
    h (cksum (h 0)) ++ body (cksum (body 0))
  else
    let src := portIp p false
    let dst := 0xFF02 * 2 ^ 112 + 0x16
    let body (c : Nat) : List Byte := toBe 2 0x8F00 ++ toBe 2 c ++ n ++ recs
    let pseudo := toBe 16 src ++ toBe 16 dst ++ toBe 4 (8 + recs.length) ++ toBe 4 58
    toBe 4 0x60000000 ++ toBe 2 (16 + recs.length) ++ [0, 1] ++ toBe 16 src ++ toBe 16 dst ++ [58, 0, 5, 2, 0, 0, 1, 0] ++
      body (cksum (pseudo ++ body 0))

/-- Port p sends a report of the records of one IP version, in class 0 (R349). -/
def State.mcSend (s : State) (p : Nat) (v4 : Bool) (rs : List (Nat × Nat)) : State :=
  let l := rs.filter fun r => isV4 r.2 == v4
  if l.isEmpty then s
  else (s.send p 0 .port .plain none (mcastMac (if v4 then 0xFFFF * 2 ^ 32 + 0xE0000016 else 0xFF02 * 2 ^ 112 + 0x16))
    (if v4 then 0x0800 else 0x86DD) (mcReport p v4 l)).1

/-- Port p reports what has changed since its last report: a group joined excludes no source, one left includes none. -/
def State.mcChange (s : State) (p : Nat) : State :=
  if s.portRuns p && s.portLink p then
    let want := (s.mcWanted.filter fun g => g.1 == p).map fun g => g.2
    let was := (s.mac.reported.filter fun g => g.1 == p).map fun g => g.2
    let rs := ((want.filter fun g => !was.contains g).map fun g => (4, g)) ++ ((was.filter fun g => !want.contains g).map fun g => (3, g))
    let s := (s.mcSend p true rs).mcSend p false rs
    { s with mac := { s.mac with reported := (s.mac.reported.filter fun g => g.1 != p) ++ want.map fun g => (p, g) } }
  else { s with mac := { s.mac with reported := s.mac.reported.filter fun g => g.1 != p } }

/-- The firmware brings filters and reports up to what is joined; over a hitless restart the filters stay and it reports afterwards
(R38). -/
def State.mcSync (s : State) : State :=
  if s.fwRuns then (List.range 5).foldl (fun (s : State) p => (s.mcFilter p (s.mcMacs p)).mcChange p) s else s

/-! ### Queries -/

/-- Follows the extension headers of an IPv6 packet from a header of a type at an offset: the upper protocol and its offset. -/
def ip6Upper (p : List Byte) : Nat → Nat → Nat → Nat × Nat
  | 0, ty, o => (ty, o)
  | n + 1, ty, o =>
    if ty == 0 || ty == 43 || ty == 60 then ip6Upper p n (le p o 1) (o + 8 * (le p (o + 1) 1 + 1))
    else if ty == 44 then ip6Upper p n (le p o 1) (o + 8)
    else (ty, o)

/-- Is an IP packet a membership query: IGMP type 0x11, ICMPv6 type 130. -/
def isMcQuery (et : Nat) (b : List Byte) : Bool :=
  if et == 0x0800 then le b 9 1 == 2 && le b (le b 0 1 % 16 * 4) 1 == 0x11
  else let u := ip6Upper b 64 (le b 6 1) 40; u.1 == 58 && le b u.2 1 == 130

/-- The firmware answers the queries in its queue with the memberships of their port. -/
def State.mcAnswer (s : State) : State :=
  if s.fwRuns then
    let qs := s.ing.fwq.filter fun f => f.kind == 5
    let s := { s with ing := { s.ing with fwq := s.ing.fwq.filter fun f => f.kind != 5 } }
    qs.foldl (fun (s : State) q =>
      let v4 := le q.bytes 0 1 / 16 == 4
      s.mcSend q.port v4 (((s.mac.reported.filter fun g => g.1 == q.port)).map fun g => (2, g.2))) s
  else s

/-! ### Links (R342) -/

/-- The link of a SerDes port goes down. -/
def State.linkDown (s : State) (p : Nat) : State :=
  if s.portLink p then
    let s := ((s.setB (pfld F.MAC_STAT_P_LINK p) false).setB (pfld F.MAC_STAT_P_AN_DONE p) false).ev0 Ev.MAC_LINK_DOWN
    (s.modPort p fun x => { x with goodFrom := s.now }).mcSync
  else s

end Sys2Proof.Machine
end

