-- ==== Sys2Proof/Machine/Num.lean ====
section
/-!
DEFINITION. Sys2Proof/Machine/Num.lean: real-valued results. The value a rule defines is formed exactly, or in fixed point far below
any float's last place; which of the results within the rule's error bound appears is an open value (R90, R151, R160, R161, R236).
-/
namespace Sys2Proof.Machine

/-! ### Floats near an exact value -/

/-- Is a float pattern an infinity. -/
def f32Inf (x : Nat) : Bool := bits x 30 0 == 0x7F800000

/-- The pattern with an ordered key (f32Key). -/
def f32OfKey (k : Int) : Nat := if k < 0 then 2 ^ 31 + k.natAbs else k.toNat

/-- The unit in the last place of a value of q units of 2^-149, in those units. -/
def ulpOf (q : Nat) : Nat := if q < 2 ^ 24 then 1 else 2 ^ (Nat.log2 q - 23)

/-- One of the patterns up to n steps from a pattern that are finite and pass a test; the pattern itself where none does. -/
def f32Among (x n : Nat) (ok : Nat → Bool) (pick : Nat) : Nat :=
  let l := ((List.range (2 * n + 1)).map fun (i : Nat) => f32OfKey (f32Key x + (i : Int) - (n : Int))).filter fun c => f32Finite c && ok c
  (l[pick % l.length]?).getD x

/-- A float within `ulps` units in the last place of num / den, which one is open; a zero stays zero, an overflow an infinity. -/
def f32Choose (num : Int) (den ulps pick : Nat) : Nat :=
  let n := f32Round num den
  if num == 0 then 0
  else if !f32Finite n then n
  else
    let u := ulpOf (num.natAbs * 2 ^ 149 / den)
    f32Among n (2 * ulps) (fun c => decide ((f32Units c * (den : Int) - num * 2 ^ 149).natAbs ≤ ulps * u * den)) pick

/-- num / den as a float: itself where it is one, else one of the two floats beside it, which is open. -/
def f32Either (num : Int) (den pick : Nat) : Nat :=
  let n := f32Round num den
  if !f32Finite n then n
  else
    let d := f32Units n * (den : Int) - num * 2 ^ 149
    if d == 0 || pick % 2 == 0 then n
    else
      let c := f32OfKey (f32Key n + if d < 0 then 1 else -1)
      if f32Finite c then c else n

/-! ### Square roots -/

/-- The integer square root, built bit by bit from the bit of weight p down. -/
def isqrtBits (x : Nat) : Nat → Nat → Nat → Nat
  | 0, _, r => r
  | n + 1, p, r => isqrtBits x n (p / 2) (if (r + p) * (r + p) ≤ x then r + p else r)

/-- ⌊√x⌋. -/
def isqrt (x : Nat) : Nat :=
  let k := Nat.log2 x / 2
  isqrtBits x (k + 1) (2 ^ (k / 2) * 2 ^ (k - k / 2)) 0

/-- √x in units of 2^-149, for x in units of 2^-298: a float within `ulps` units in the last place, which one is open. -/
def f32Sqrt (x ulps pick : Nat) : Nat :=
  let n := f32Round (isqrt (x * 2 ^ 128)) (2 ^ 213)
  if x == 0 then 0
  else if !f32Finite n then n
  else
    let d := ulps * ulpOf (isqrt x)
    f32Among n (2 * ulps) (fun c =>
      let v := (f32Units c).toNat
      decide (0 ≤ f32Units c) && decide ((v - d) * (v - d) ≤ x) && decide (x ≤ (v + d) * (v + d))) pick

/-- √(re² + im²) as float32: one of the results within 2 units in the last place, which of them is open (R160, R236). -/
def mag (re im : Nat) : Nat :=
  let a := f32Units re
  let b := f32Units im
  f32Sqrt (a * a + b * b).toNat 2 (Config.op "mag" [re, im])

/-! ### Angles: fixed point with 192 places -/

/-- One in this fixed point. -/
def fxOne : Nat := 2 ^ 192

/-- 2^512. -/
def two512 : Nat := 2 ^ 256 * 2 ^ 256

/-- π in units of 2^-512. -/
def piFx : Nat :=
  42121870893450636219446821484559388105255997313489254605594685088103805782276098919793885372247726346443771296916333485327292916625599161542353774203832599

/-- The angle num / den rad in units of 2^-192 turn. -/
def turnOf (num : Int) (den : Nat) : Int := (num * (two512 : Int) * 2 ^ 191).fdiv ((den * piFx : Nat) : Int)

/-- t · 2^-192 turn in rad, as a numerator over `radDen`. -/
def radNum (t : Int) : Int := t * (piFx : Int)

/-- The denominator of `radNum`: 2^703. -/
def radDen : Nat := two512 * 2 ^ 191

/-- t + t·c/d₀ + t·c²/(d₀·d₁) + … , c and t fixed point. -/
def series (c : Int) : List Nat → Int → Int → Int
  | [], _, acc => acc
  | d :: ds, t, acc =>
    let u := (t * c).fdiv ((d * fxOne : Nat) : Int)
    series c ds u (acc + u)

/-- cos and sin of t · 2^-192 turn, in fixed point. -/
def cosSin (t : Int) : Int × Int :=
  let n := (4 * t + 2 ^ 191).fdiv (2 ^ 192)
  let x := (2 * radNum (t - n * 2 ^ 190)).fdiv (two512 : Int)
  let x2 := - (x * x).fdiv (2 ^ 192)
  let c := series x2 ((List.range 26).map fun i => (2 * i + 1) * (2 * i + 2)) fxOne fxOne
  let s := series x2 ((List.range 26).map fun i => (2 * i + 2) * (2 * i + 3)) x x
  match (n % 4).toNat with
  | 0 => (c, s)
  | 1 => (-s, c)
  | 2 => (-c, -s)
  | _ => (s, -c)

/-- atan(2^-i) in units of 2^-48 turn, i = 0 to 24. -/
def atanTab : List Nat :=
  [35184372088832, 20770547670515, 10974586953444, 5570871696862, 2796246208089, 1399486241028, 699913886760,
    349978300884, 174991820497, 87496244017, 43748163730, 21874087080, 10937044192, 5468522177, 2734261099, 1367130551,
    683565276, 341782638, 170891319, 85445659, 42722830, 21361415, 10680707, 5340354, 2670177]

/-- Vectoring steps: the angle of (x, y), x ≥ 0, in units of 2^-48 turn. -/
def vectoring : List Nat → Nat → Int → Int → Int → Int
  | [], _, _, _, acc => acc
  | t :: ts, i, x, y, acc =>
    let dx := y.fdiv (2 ^ i)
    let dy := x.fdiv (2 ^ i)
    if 0 < y then vectoring ts (i + 1) (x + dx) (y - dy) (acc + t) else vectoring ts (i + 1) (x - dx) (y + dy) (acc - t)

/-- The angle of (a, b), not both zero, in units of 2^-48 turn, good to about 2^-23 turn. -/
def angleRough (a b : Int) : Int :=
  let k := Nat.log2 (a.natAbs + b.natAbs)
  -- both scaled to about 60 bits
  let sc (v : Int) : Int := if k ≤ 60 then v * 2 ^ (60 - k) else v.tdiv (2 ^ (k - 60))
  let x := sc a
  let y := sc b
  if x < 0 then vectoring atanTab 0 (-x) (-y) (2 ^ 47) else vectoring atanTab 0 x y 0

/-- The angle of (a, b), not both zero, in units of 2^-192 turn, from −1/2 to 1/2 turn: the rough angle, and the arc tangent of what is
left. -/
def angleFx (a b : Int) : Int :=
  if b == 0 then (if a < 0 then 2 ^ 191 else 0)
  else
    let t := angleRough a b * 2 ^ 144
    let r := cosSin t
    let x := a * r.1 + b * r.2
    let y := b * r.1 - a * r.2
    let d := (y * 2 ^ 192).fdiv x
    let d2 := - (d * d).fdiv (2 ^ 192)
    let p := (List.range 12).foldl (fun (acc : Int × Int) i =>
      ((acc.1 * d2).fdiv (2 ^ 192), acc.2 + acc.1.fdiv (2 * i + 1 : Nat))) (d, 0)
    let u := (t + turnOf p.2 fxOne) % 2 ^ 192
    if 2 ^ 191 < u then u - 2 ^ 192 else u

/-- The binary angle of a phasor (R161): within 1 unit of 1/65 536 turn, which of those is open; of a zero phasor it is open. -/
def bangle (re im : Nat) : Nat :=
  if bits re 30 0 == 0 && bits im 30 0 == 0 then Config.op "angle0" [re, im] % 65536
  else
    let t := angleFx (f32Units re) (f32Units im)
    let f := t.fdiv (2 ^ 176)
    let r := t % 2 ^ 176
    let l := (if r ≤ 2 ^ 16 then [f - 1] else []) ++ [f, f + 1] ++ (if (2 ^ 176 - 2 ^ 16 : Int) ≤ r then [f + 2] else [])
    let l := if r == 0 then [f - 1, f, f + 1] else l
    (((l[Config.op "angle" [re, im] % l.length]?).getD f) % 65536).toNat

/-- The angle of a phasor in rad: a float within 2 units in the last place, which one is open (R236); of a zero phasor it is open. -/
def radAngle (re im : Nat) : Nat :=
  let pick := Config.op "polar.angle" [re, im]
  if bits re 30 0 == 0 && bits im 30 0 == 0 then pick % 2 ^ 32
  else f32Choose (radNum (angleFx (f32Units re) (f32Units im))) radDen 2 pick

/-- The parts of a phasor of magnitude num / den at an angle in units of 2^-192 turn, each within `ulps` units in the last place, which
values within them is open (R90). -/
def rectParts (num : Int) (den : Nat) (t : Int) (ulps : Nat) (pick : Nat × Nat) : Nat × Nat :=
  let r := cosSin t
  (f32Choose (num * r.1) (den * fxOne) ulps pick.1, f32Choose (num * r.2) (den * fxOne) ulps pick.2)

/-! ### Sums and comparisons -/

/-- a + b, or a − b where `neg`, of a float and a finite float, rounded once to the nearest float; an infinite a stays. -/
def f32AddSub (neg : Bool) (a b : Nat) : Nat :=
  if f32Inf a then a
  else f32Round (f32Units a + (if neg then - f32Units b else f32Units b)) (2 ^ 149)

/-- Does a − b exceed 2 h, exactly, for a non-negative finite h; infinities compare as such. -/
def f32SpanOk (a b h : Nat) : Bool :=
  if f32Inf a || f32Inf b then f32Lt b a else decide (2 * f32Units h < f32Units a - f32Units b)

end Sys2Proof.Machine
end

