-- ==== Sys2Proof/Machine/Align.lean ====
section
/-!
DEFINITION. Sys2Proof/Machine/Align.lean: alignment: opening and closing instants, epoch boundaries and cadence changes,
classifying and placing records, deadlines and learned waits (R131 to R159). SET_RELEASE stands in Release.lean.
-/
namespace Sys2Proof.Machine

/-! ### Streams as alignment sees them -/

/-- A UTC tag as one number of ns. -/
def ukey (t : Nat × Nat) : Nat := t.1 * 1000000000 + t.2

/-- The rate code of a stream whose entry in effect is enabled, remote or local (R139). -/
def State.streamRate? (s : State) (sidx : Nat) : Option Nat :=
  if sidx < 8184 then
    match mget s.ing.streams.eff sidx with
    | some e => if bit e.flags 0 then some e.rate else none
    | none => none
  else
    match mget s.pmu.cfg.eff (sidx - 8184) with
    | some c => if c.enable then some c.rate else none
    | none => none

/-- Every stream enabled in the epoch in effect, in ascending SIDX, with its rate in reports/s. -/
def State.enabledStreams (s : State) : List (Nat × Nat) :=
  (s.ing.streams.eff.filterMap fun p => if bit p.2.flags 0 then some (p.1, rateOf p.2.rate) else none) ++
    (s.pmu.cfg.eff.filterMap fun p => if p.2.enable then some (8184 + p.1, rateOf p.2.rate) else none)

/-- The lattice tolerance in ns of an epoch. -/
def State.tolNs (s : State) (tag : Nat) : Nat := s.egetAt tag F.ALN_TOL_US * 1000

/-- The instant at which the epoch in effect took effect. -/
def State.epochB (s : State) : Option (Nat × Nat) := s.aln.epochs.head?.map fun e => e.2

/-- The epoch to which an instant belongs, among those in effect now or before (R155). -/
def State.epochOf (s : State) (t : Nat × Nat) : Nat :=
  match s.aln.epochs.find? fun e => decide (ukey e.2 ≤ ukey t) with
  | some e => e.1
  | none => match s.aln.epochs.getLast? with
    | some e => e.1 - 1
    | none => s.get F.CMD_EPOCH_EPOCH

/-- Does an instant lie at or after the pending boundary. -/
def State.atPending (s : State) (t : Nat × Nat) : Bool :=
  s.cmd.pregs.isSome && (s.aln.bound.map fun b => decide (ukey b ≤ ukey t)).getD false

/-- The instant in flight with a tag. -/
def State.inst? (s : State) (t : Nat × Nat) : Option Inst := s.aln.insts.find? fun i => i.soc == t.1 && i.ns == t.2

/-- The tolerance in ns that applies to an instant: its own epoch's (R155), the pending one's from B on. -/
def State.tolAt (s : State) (t : Nat × Nat) : Nat :=
  match s.inst? t with
  | some i => s.tolNs i.epoch
  | none =>
    if s.atPending t then fval F.ALN_TOL_US (mgetD (s.cmd.pregs.getD []) R.ALN_TOL 0) * 1000 else s.tolNs (s.epochOf t)

/-- Slot of a tag at a rate (R85). -/
def slotOf (f soc ns : Nat) : Nat := soc * f + (ns * f + 500000000) / 1000000000

/-- Is a tag within tolerance of the nearest instant at rate f (R132). -/
def onLattice (f tol : Nat) (t : Nat × Nat) : Bool := decide ((nearest f t.1 t.2).2.2.natAbs ≤ tol)

/-- Alignment and ingest state of a stream after R536, with its wait. -/
def SStat.fresh (wait epoch : Nat) (inB : Option (Nat × Nat)) (added : Bool) : SStat :=
  { epoch := epoch, auth := 0, accepted := 0, cnt := List.replicate 12 0, newest := none, map := 0, newestTag := (0, 0),
    staleRun := 0, keyId := none, spduHigh := 0, spduMap := 0, lastArrival := 0, latLast := 0, latMin := 0x7FFFFFFF,
    latMax := -0x80000000, cfgchg := 0, bit10 := none, hist := List.replicate 32 0, wait := wait, miss := 0, demoted := false,
    streak := 0, demotions := 0, placed := 0, placeholder := 0, offcad := 0, between := 0, demsupp := 0, ahead := 0,
    dupinst := 0, dsfall := 0, dem := [], demEarly := [], inB := inB, added := added }

/-- WAIT_MIN and WAIT_MAX in effect (R155). -/
def State.waitBounds (s : State) : Nat × Nat := (s.eget F.ALN_WAITMIN_US, s.eget F.ALN_WAITMAX_US)

/-- x inside the wait bounds in effect. -/
def State.clampWait (s : State) (x : Nat) : Nat := min (max x s.waitBounds.1) s.waitBounds.2

/-- The starting wait (R146). -/
def State.waitInit (s : State) : Nat := s.clampWait (s.get F.ALN_WAITINIT_US)

/-- A stream's state; one that has had no record yet is as an entry just added. -/
def State.stat (s : State) (sidx : Nat) : SStat :=
  (mget s.ing.stat sidx).getD (SStat.fresh s.waitInit (s.get F.CMD_EPOCH_EPOCH) none false)

/-- Stores a stream's state. -/
def State.setStat (s : State) (sidx : Nat) (x : SStat) : State := { s with ing := { s.ing with stat := mput s.ing.stat sidx x } }

/-- Changes a stream's state. -/
def State.modStat (s : State) (sidx : Nat) (f : SStat → SStat) : State := s.setStat sidx (f (s.stat sidx))

/-- Does the pending boundary restart a stream's state (R536): it puts an entry into effect that STREAM_ADD or STREAM_CFG_LOAD wrote. -/
def State.pendFresh (s : State) (sidx : Nat) : Bool :=
  s.cmd.pregs.isSome && (((mget s.ing.streams.pend sidx).bind id).map fun e => e.fresh).getD false

/-- The state of a stream as a record sees it; `pd` says that the record belongs to the entry of the pending boundary, whose state starts
afresh if that boundary restarts it. -/
def State.statIn (s : State) (pd : Bool) (sidx : Nat) : SStat :=
  if pd && s.pendFresh sidx then (mget s.ing.statNext sidx).getD (SStat.fresh s.waitInit 0 none false) else s.stat sidx

/-- Changes that state. -/
def State.modStatIn (s : State) (pd : Bool) (sidx : Nat) (f : SStat → SStat) : State :=
  if pd && s.pendFresh sidx then
    { s with ing := { s.ing with statNext := mput s.ing.statNext sidx (f (s.statIn pd sidx)) } }
  else s.modStat sidx f

/-- W[s] changes: the change is logged with both values (R146). -/
def State.setWait (s : State) (sidx w : Nat) : State :=
  let o := (s.stat sidx).wait
  if o == w then s else (s.modStat sidx fun x => { x with wait := w }).ev Ev.ALN_WAIT_CHANGE sidx [(32, o), (32, w)]

/-- A stream's WAIT_POLICY settings in effect; the default is learning, PICK and demotable. -/
def Policy.default : Policy := ⟨none, false, false, false⟩

/-- The settings in effect. -/
def State.policyOf (s : State) (sidx : Nat) : Policy := mgetD s.aln.policy.eff sidx Policy.default

/-- N of a MEAN stream at a cadence: F_s / F_c where that is a whole number of at least 2 (R151). -/
def meanN (fs fc : Nat) : Option Nat := if fc != 0 && fs % fc == 0 && 2 ≤ fs / fc then some (fs / fc) else none

/-- ALN_NDEMOTED follows the streams demoted now. -/
def State.demSync (s : State) : State :=
  s.set F.ALN_NDEMOTED_COUNT (s.ing.stat.filter fun p => p.2.demoted).length

/-! ### The lattice ahead: pending cadence changes (R156) -/

/-- The rate code of the lattice to which instants of a UTC second belong, over past changes and one waiting for its second. -/
def State.cadSoon (s : State) (soc : Nat) : Nat :=
  match s.aln.switch.reverse.find? fun w => decide (soc < w.1) with
  | some w => w.2
  | none => match s.aln.cadDue with
    | some c => if c.2 ≤ soc then c.1 else s.aln.cad
    | none => s.aln.cad

/-- The first UTC second boundary at or after an instant (second, index or ns). -/
def secondAfter (i : Nat × Nat) : Nat := if i.2 == 0 then i.1 else i.1 + 1

/-- The rate code of the lattice to which instants of a UTC second belong. A cadence committed with the pending epoch counts from the first
second at or after the instant at which that epoch will take effect: B, or the next instant to open where B has passed (R154, R156). -/
def State.cadAt (s : State) (soc : Nat) : Nat :=
  match s.aln.bound, s.aln.cadPend with
  | some b, some c =>
    let w := match s.aln.next with
      | some n => max (secondAfter b) (if b.1 ≤ n.1 then secondAfter n else 0)
      | none => secondAfter b
    if w ≤ soc then c else s.cadSoon soc
  | _, _ => s.cadSoon soc

/-- The instant after one, over any pending cadence change. -/
def State.afterInst (s : State) (i : Nat × Nat) : Nat × Nat := nextInst (rateOf (s.cadAt i.1)) i

/-- The instant before one. -/
def State.beforeInst (s : State) (i : Nat × Nat) : Nat × Nat :=
  if i.2 == 0 then (i.1 - 1, rateOf (s.cadAt (i.1 - 1)) - 1) else (i.1, i.2 - 1)

/-- The tag of an instant. -/
def State.instTag (s : State) (i : Nat × Nat) : Nat × Nat := (i.1, instNs (rateOf (s.cadAt i.1)) i.2)

/-- TAI ns of an instant of the cadence. -/
def State.cadTai (s : State) (i : Nat × Nat) : Nat := let t := s.instTag i; s.taiOf t.1 t.2

/-- How many instants would open to bring instant with tag `t` into flight, up to `fuel`; none where it would take more. -/
def State.opensTo (s : State) (t : Nat × Nat) : Nat → Nat × Nat → Option Nat
  | 0, _ => none
  | fuel + 1, i => if ukey t ≤ ukey (s.instTag i) then some 1 else (s.opensTo t fuel (s.afterInst i)).map (· + 1)

/-- The next instant to open, as ns of UTC; 0 before any. -/
def State.nextKey (s : State) : Nat := (s.aln.next.map fun i => ukey (s.instTag i)).getD 0

/-! ### Demotion (R149, R150) -/

/-- Closes a running stretch of demotion. -/
def closeDem (k : Nat) : List (Nat × Option Nat) → List (Nat × Option Nat)
  | (f, none) :: t => (f, some k) :: t
  | l => l

/-- Promotes a stream: it is expected again from the next instant opened (R150). -/
def State.promote (s : State) (sidx : Nat) : State :=
  ((s.modStat sidx fun x => { x with demoted := false, streak := 0, demEarly := [], dem := closeDem s.nextKey x.dem }).ev
    Ev.ALN_PROMOTE sidx []).demSync

/-- Demotes a stream for the instants opened from now on (R149). -/
def State.demote (s : State) (sidx : Nat) : State :=
  ((s.modStat sidx fun x => { x with
      demoted := true, streak := 0, miss := 0, demotions := satInc x.demotions 255, dem := (s.nextKey, none) :: x.dem }).ev
    Ev.ALN_DEMOTE sidx []).demSync

/-- Does a stretch of demotion hold an instant. -/
def demHolds (k : Nat) (d : Nat × Option Nat) : Bool :=
  decide (d.1 ≤ k) && match d.2 with
    | none => true
    | some e => decide (k < e)

/-- Will the pending boundary end a stream's demotion: its state restarts (R536), or WAIT_POLICY promotes it (R150). -/
def State.pendPromotes (s : State) (sidx : Nat) : Bool :=
  s.pendFresh sidx || (((mget s.aln.policy.pend sidx).bind id).map fun p => p.promote).getD false

/-- Is a stream demoted for the instant with a tag (R133 row 4): as its maps say while it is in flight (R139), as it would open, or as it was
(the stretches of a state that a boundary ended stay with the old entry). -/
def State.demotedFor (s : State) (sidx : Nat) (t : Nat × Nat) : Bool :=
  match s.inst? t with
  | some i => i.member.contains sidx && !i.expected.contains sidx
  | none =>
    if s.nextKey ≤ ukey t then (s.stat sidx).demoted && !(s.atPending t && s.pendPromotes sidx)
    else ((s.stat sidx).dem ++ (mgetD s.ing.old sidx []).flatMap fun o => o.dem).any (demHolds (ukey t))

/-- The cadence instant nearest to a tag, and the signed distance in ns (R132). -/
def State.nearestCad (s : State) (t : Nat × Nat) : (Nat × Nat) × Int :=
  let n := nearest (rateOf (s.cadAt t.1)) t.1 t.2
  ((n.1, n.2.1), n.2.2)

/-! ### Boundaries and cadence changes (R154 to R156) -/

/-- One stream's part in the boundary: an old entry is kept (R87), and an entry written by STREAM_ADD or STREAM_CFG_LOAD restarts all state
(R536); records of that entry that came before the boundary took effect count from the restart. -/
def State.enterStream (s : State) (b : Nat × Nat) (tag : Nat) (item : Nat × Option Stream) : State :=
  let sidx := item.1
  let old := mget s.ing.streams.eff sidx
  let x := s.stat sidx
  let restarts := (item.2.map fun e => e.fresh).getD true
  let s := match old with
    | none => s
    | some e =>
      let f := max (rateOf e.rate) 1
      let t := s.tickAtTai (s.taiOf b.1 b.2 + 64 * 1000000000 / f)
      let o : OldEntry := ⟨e, b.1, b.2, t, x.inB, x.added, if restarts then closeDem (ukey b) x.dem else []⟩
      { s with ing := { s.ing with old := mput s.ing.old sidx (o :: mgetD s.ing.old sidx []) } }
  let nx := mget s.ing.statNext sidx
  let s := { s with ing := { s.ing with
    statNext := merase s.ing.statNext sidx, learnNext := if restarts then merase s.ing.learnNext sidx else s.ing.learnNext } }
  match item.2 with
  | none => { s with ing := { s.ing with stat := merase s.ing.stat sidx } }
  | some e =>
    let s := s.heal 0 sidx
    if e.fresh then
      let y := nx.getD (SStat.fresh s.waitInit tag (some b) old.isNone)
      s.setStat sidx { y with epoch := tag, wait := s.waitInit, inB := some b, added := old.isNone }
    else s.modStat sidx fun x => { x with epoch := tag, inB := some b, added := false }

/-- A policy item takes effect from the instant with tag `at_` on: a fixed wait applies, a return to learning starts again, a promotion is
made. -/
def State.enterPolicy (s : State) (at_ : Nat × Nat) (item : Nat × Option Policy) : State :=
  let sidx := item.1
  let was := s.policyOf sidx
  match item.2 with
  | none => s
  | some p =>
    let s := match p.fixed, was.fixed with
      | some w, _ => s.setWait sidx w
      | none, some _ => s.setWait sidx s.waitInit
      | none, none => s
    let s := if p.mean == was.mean then s
      else { s with aln := { s.aln with meanWas := (sidx, (ukey at_, was.mean)) :: s.aln.meanWas } }
    if p.promote && (s.stat sidx).demoted then s.promote sidx else s

/-- A fixed wait of a policy goes to a new value where it is the one given. -/
def Policy.refix (old new : Nat) (p : Policy) : Policy := if p.fixed = some old then { p with fixed := some new } else p

/-- Every wait comes inside the new bounds; a fixed one is from then on fixed at the bound (R148, R42). -/
def State.clampWaits (s : State) : State :=
  s.ing.stat.foldl (fun s p =>
    let w := s.clampWait p.2.wait
    if w == p.2.wait then s
    else
      let s := s.setWait p.1 w
      if (s.policyOf p.1).fixed.isSome then
        let re (l : List (Nat × Policy)) : List (Nat × Policy) := l.map fun q => if q.1 == p.1 then (q.1, q.2.refix p.2.wait w) else q
        ({ s with aln := { s.aln with policy := { s.aln.policy with
          eff := re s.aln.policy.eff, shadow := re s.aln.policy.shadow } } } : State).ev Ev.ALN_CLAMP p.1 []
      else s) s

/-- The pending copies become due in every block (R418); each block takes them up with its first set of the epoch. -/
def State.passTables (s : State) (tag : Nat) (at_ : Nat × Nat) : State :=
  { s with
    ing := { s.ing with streams := s.ing.streams.pass tag }
    aln := { s.aln with policy := s.aln.policy.pass tag }
    ang := { s.ang with limits := s.ang.limits.pass tag, pairs := s.ang.pairs.pass tag }
    isl := { s.isl with nodes := s.isl.nodes.pass tag, edges := s.isl.edges.pass tag, expect := s.isl.expect.pass tag }
    osc := { s.osc with sigs := s.osc.sigs.pass tag, rules := s.osc.rules.pass tag, place := s.osc.place.pass tag }
    pmu := { s.pmu with
      cfg := s.pmu.cfg.pass tag, cal := (s.pmu.cal.pass tag).take
      olds := if s.pmu.cfg.pend.isEmpty && s.pmu.cal.pend.isEmpty then s.pmu.olds
        else ((ukey at_, (s.pmu.cfg.eff, s.pmu.cal.eff)) :: s.pmu.olds).take 64 }
    nrg := { s.nrg with
      corr := (s.nrg.corr.pass tag).take
      olds := if s.nrg.corr.pend.isEmpty then s.nrg.olds else ((ukey at_, s.nrg.corr.eff) :: s.nrg.olds).take 64 } }

/-- A boundary changes a local stream: STAT bit 10 counts from here, a bay whose CMODE changes starts in M (R290, R292); for instants before
the boundary its state stays (R296). -/
def State.pmuBoundary (s : State) (at_ : Nat × Nat) (b : Nat) (c : Option PmuCfg) : State :=
  let old := mget s.pmu.cfg.eff b
  let x := mgetD s.pmu.bays b PmuBay.reset
  let ch := (old.map fun o => o.cmode) != (c.map fun o => o.cmode)
  let x := { x with
    cfgAt := some s.now
    stM := x.stM || ch
    wasM := if ch then ((ukey at_, x.stM) :: x.wasM).take 64 else x.wasM
    fref := if (old.map fun o => o.fnom) == (c.map fun o => o.fnom) then x.fref else 0 }
  { s with pmu := { s.pmu with bays := mput s.pmu.bays b x } }

/-- The boundary takes effect at the instant with tag `at_` (R154, R155, R418). -/
def State.enterEpoch (s : State) (b at_ : Nat × Nat) : State :=
  let tag := s.nextTag
  let casWas := s.casEnabled
  let s := { s with cmd := { s.cmd with
    epochs := ((tag, s.cmd.pregs.getD []) :: s.cmd.epochs).take 1024, pregs := none
    ewrit := ((tag, s.cmd.pwrit) :: s.cmd.ewrit).take 1024, pwrit := [] } }
  let s := s.set F.CMD_EPOCH_EPOCH tag
  let streamItems := s.ing.streams.pend
  let polItems := s.aln.policy.pend
  let pmuItems := s.pmu.cfg.pend
  let s := s.passTables tag at_
  let s := streamItems.foldl (fun s i => s.enterStream b tag i) s
  let s := ({ s with ing := { s.ing with streams := s.ing.streams.take } } : State).demSync
  let s := pmuItems.foldl (fun s i =>
    if mget s.pmu.cfg.eff i.1 == i.2 then s else (s.pmuBoundary at_ i.1 i.2).ev Ev.PMU_CFG (8184 + i.1) []) s
  let s := { s with pmu := { s.pmu with cfg := s.pmu.cfg.take } }
  let s := polItems.foldl (fun s i => s.enterPolicy at_ i) s
  let s := { s with aln := { s.aln with policy := s.aln.policy.take } }
  let s := { s with aln := { s.aln with
    cadDue := match s.aln.cadPend with
      | some c => some (c, secondAfter at_)
      | none => s.aln.cadDue
    cadPend := none, bound := none, epochs := ((tag, at_) :: s.aln.epochs).take 1024, flagNext := Nat.lor s.aln.flagNext 1 } }
  let s := s.clampWaits
  let s := s.setB F.ALN_STAT_BOUND_PEND false
  let s := (s.wr R.ALN_BOUND_LO (BitVec.ofNat 32 at_.2)).wr R.ALN_BOUND_HI (BitVec.ofNat 32 at_.1)
  let s := ((s.outBoundary tag at_).casBoundary casWas at_).mcSync
  let s := if s.twin then let r := s.fresh; r.2.put64 R.TWN_CFGSUM_LO R.TWN_CFGSUM_HI r.1 else s
  s.ev0 Ev.ALN_EPOCH

/-- The rate code of a stream's entry in effect, enabled or not. -/
def State.effRate? (s : State) (sidx : Nat) : Option Nat :=
  if sidx < 8184 then (mget s.ing.streams.eff sidx).map fun e => e.rate
  else (mget s.pmu.cfg.eff (sidx - 8184)).map fun c => c.rate

/-- A MEAN stream goes to PICK (R153): in the settings in effect and, unless the host has written them since the last commit, in the shadow. -/
def State.dsFallback (s : State) (soc sidx : Nat) : State :=
  let t := s.aln.policy
  let pick (l : List (Nat × Policy)) : List (Nat × Policy) := l.map fun q => if q.1 == sidx then (q.1, { q.2 with mean := false }) else q
  ({ s with aln := { s.aln with
    policy := { t with eff := pick t.eff, shadow := if t.dirty.contains sidx || (mget t.pend sidx).isSome then t.shadow else pick t.shadow }
    meanWas := (sidx, (ukey (soc, 0), true)) :: s.aln.meanWas } } : State).ev Ev.ALN_DS_FALLBACK sidx []

/-- The cadence waiting for a second boundary takes effect at that second; one equal to the present changes nothing
(R156); MEAN streams that no longer fit go to PICK (R153). -/
def State.switchCadence (s : State) : State :=
  match s.aln.cadDue with
  | none => s
  | some (c, soc) =>
    let old := s.aln.cad
    let s := { s with aln := { s.aln with cadDue := none } }
    if c == old then s
    else
      let s := { s with aln := { s.aln with
        cad := c, switch := (soc, old) :: s.aln.switch, flagNext := Nat.lor s.aln.flagNext 2 } }
      let s := s.set F.ALN_STAT_RATE c
      let s := (s.ev0 Ev.ALN_CADENCE).outRates
      s.aln.policy.eff.foldl (fun s p =>
        match s.effRate? p.1 with
        | some r => if p.2.mean && (meanN (rateOf r) (rateOf c)).isNone then s.dsFallback soc p.1 else s
        | none => s) s

/-- The cadence change takes effect if its second has come by second `soc`. -/
def State.switchBy (s : State) (soc : Nat) : State :=
  match s.aln.cadDue with
  | some c => if c.2 ≤ soc then s.switchCadence else s
  | none => s

/-! ### Opening and closing instants (R134 to R144) -/

/-- INFLIGHT follows the table. -/
def State.inflightSync (s : State) : State := s.set F.ALN_STAT_INFLIGHT s.aln.insts.length

/-- The largest wait among the streams expected, with the MEAN half-width of those in MEAN (R147). -/
def State.waitEffOf (s : State) (mean : List (Nat × Nat)) (expected : List Nat) : Nat :=
  let w := expected.foldl (fun m sidx =>
    let st := s.stat sidx
    let fs := ((s.streamRate? sidx).map rateOf).getD 1
    let extra := match mget mean sidx with
      | some n => (n / 2 * 1000000 + fs - 1) / fs
      | none => 0
    max m (st.wait + extra)) 0
  min w s.waitBounds.2

/-- The deadline tick of an instant opened now (R147). -/
def State.deadlineOf (s : State) (t : Nat × Nat) (w : Nat) : Nat :=
  let tdl := s.taiOf t.1 t.2 + w * 1000
  let d := if tdl ≤ s.taiNs then s.now
    else s.now + ceilDiv ((tdl - s.taiNs) * 2 ^ 40) (max s.incr 1)
  max d s.aln.lastDl

/-- Changes an instant in flight, named by its tag. -/
def State.modInst (s : State) (t : Nat × Nat) (f : Inst → Inst) : State :=
  { s with aln := { s.aln with insts := s.aln.insts.map fun i => if i.soc == t.1 && i.ns == t.2 then f i else i } }

/-- An entry with the fields of R77 of another. -/
def Stream.filled (e x : Stream) : Stream :=
  { e with format := x.format, fnom := x.fnom, phnmr := x.phnmr, annmr := x.annmr, dgnmr := x.dgnmr, nblocks := x.nblocks,
           blockOfs := x.blockOfs, frameSize := x.frameSize, timeBase := x.timeBase, scale := x.scale, learned := true }

/-- Fills an entry of a table, if it is there. -/
def fillAt (l : List (Nat × Stream)) (k : Nat) (x : Stream) : List (Nat × Stream) :=
  l.map fun p => if p.1 == k then (p.1, p.2.filled x) else p

/-- Learned formats take effect at an instant boundary: the fields of R77 in the active and the shadow entry, and in one that STREAM_MOD has
prepared, unless the host has written the entry's shadow since the last commit (R94, R95). An entry that a commit will put in its place
learns for itself. -/
def State.takeLearned (s : State) : State :=
  let l := s.ing.learnNext
  l.foldl (fun s p =>
    if s.ing.streams.dirty.contains p.1 then s.ev Ev.ING_CFG_CONFLICT p.1 []
    else if (mget s.ing.streams.eff p.1).isNone then s
    else
      let tb := s.ing.streams
      let same := !s.pendFresh p.1
      ({ s with ing := { s.ing with streams := { tb with
        eff := fillAt tb.eff p.1 p.2, shadow := if same then fillAt tb.shadow p.1 p.2 else tb.shadow
        pend := if same then tb.pend.map fun q => if q.1 == p.1 then (q.1, q.2.map fun e => e.filled p.2) else q else tb.pend } } } :
        State).ev Ev.ING_CFG_LEARNED p.1 [])
    { s with ing := { s.ing with learnNext := [] } }

/-- The members of an instant in MEAN, with N (R151). -/
def State.meanMembers (s : State) (member : List Nat) : List (Nat × Nat) :=
  member.filterMap fun x =>
    if (s.policyOf x).mean then ((s.streamRate? x).bind fun r => meanN (rateOf r) (rateOf s.aln.cad)).map fun n => (x, n) else none

/-- Demoted members whose record for an instant came before it opened (R150). -/
def State.demCame (s : State) (t : Nat × Nat) (member : List Nat) : List Nat :=
  member.filter fun x => (s.stat x).demoted && (s.stat x).demEarly.contains (ukey t)

/-- Those records are counted; nothing of an instant opened or passed stays. -/
def State.demForget (s : State) (t : Nat × Nat) : State :=
  { s with ing := { s.ing with stat := s.ing.stat.map fun p =>
    if p.2.demEarly.isEmpty then p else (p.1, { p.2 with demEarly := p.2.demEarly.filter fun k => decide (ukey t < k) }) } }

/-- Opens the next lattice instant (R134, R139, R141, R147), with the boundary and the cadence change that are due. -/
def State.openNext (s : State) : State :=
  match s.aln.next with
  | none => s
  | some i =>
    let t0 := s.instTag i
    let s := match s.aln.bound with
      | some b => if ukey b ≤ ukey t0 then s.enterEpoch b t0 else s
      | none => s
    let s := (s.switchBy i.1).takeLearned
    let f := rateOf s.aln.cad
    let t := (i.1, instNs f i.2)
    let s := s.outLayouts t
    let tol := s.tolNs (s.get F.CMD_EPOCH_EPOCH)
    let member := (s.enabledStreams.filter fun p => onLattice p.2 tol t).map fun p => p.1
    let expected := member.filter fun x => !(s.stat x).demoted
    let mean := s.meanMembers member
    let w := s.waitEffOf mean expected
    let dl := s.deadlineOf t w
    let inst : Inst := {
      soc := t.1, k := i.2, ns := t.2, rate := s.aln.cad, epoch := s.get F.CMD_EPOCH_EPOCH, deadline := dl,
      waitEff := w, member := member, expected := expected, mean := mean, arrived := [], demArr := s.demCame t member
      gap := min s.aln.gapNext 65535, flags := s.aln.flagNext, cause := if expected.isEmpty then some Cause.all else none
      readyAt := s.now, recs := [], shapes := [], win := [], pages := [], pred := s.aln.last }
    let s := { s with aln := { s.aln with
      insts := s.aln.insts ++ [inst], next := some (nextInst f i), lastDl := dl, last := some t, gapNext := 0,
      flagNext := 0 } }
    ((s.demForget t).set F.ALN_WAIT_EFF_US w).inflightSync

/-- Opens instants until the one with tag `t` is open, at most `fuel`. -/
def State.openTo (s : State) (t : Nat × Nat) : Nat → State
  | 0 => s
  | n + 1 =>
    match s.aln.next with
    | none => s
    | some i => if ukey t < ukey (s.instTag i) then s else (s.openNext).openTo t n

/-- Weight of the record j slots from the centre, in units of 1/(2N) (R151). -/
def meanWeight (n : Nat) (j : Int) : Nat := if n % 2 == 0 && j.natAbs == n / 2 then 1 else 2

/-- A weighted sum of finite floats as a float within 4 units in the last place (R151); an open value where one is not finite. -/
def meanVal (n pick : Nat) (l : List (Int × Nat)) : Nat :=
  if l.all fun p => f32Finite p.2 then
    f32Choose ((l.map fun p => (meanWeight n p.1 : Int) * f32Units p.2).foldl (· + ·) 0) (2 * n * 2 ^ 149) 4 pick
  else pick % 2 ^ 32

/-- The weighted sum of phasors, the one at offset j rotated by −2π·Δf·j/F_s (R151): its parts within 4 units in the last place; open where a
part or Δf is not finite. -/
def meanPhasor (n fs df : Nat) (pick : Nat × Nat) (l : List (Int × (Nat × Nat))) : Nat × Nat :=
  if f32Finite df && l.all fun p => f32Finite p.2.1 && f32Finite p.2.2 then
    let z := l.map fun p =>
      let r := cosSin ((- f32Units df * p.1 * 2 ^ 43).fdiv (max fs 1 : Nat))
      let a := f32Units p.2.1
      let b := f32Units p.2.2
      let w : Int := meanWeight n p.1
      (w * (a * r.1 - b * r.2), w * (a * r.2 + b * r.1))
    let den := 2 * n * 2 ^ 149 * fxOne
    (f32Choose ((z.map fun v => v.1).foldl (· + ·) 0) den 4 pick.1, f32Choose ((z.map fun v => v.2).foldl (· + ·) 0) den 4 pick.2)
  else (pick.1 % 2 ^ 32, pick.2 % 2 ^ 32)

/-- The words of a MEAN derived record for N = n at F_s = fs (R151). A value missing in a window record is the centre record's, with its
flags; a word with such a value and another that is derived keeps the OR of UNAUTH and CONVERTED (notes/assumptions/109.md). -/
def meanWords (ph an n fs : Nat) (ws : List WinRec) (centre : WinRec) : List SWord :=
  let all := ws.map fun r => (r.j, r.words)
  let poison := all.any fun l => l.2.any fun w => w.poison
  let word (l : List SWord) (i : Nat) : Nat := ((l[i]?).map fun w => w.v.toNat).getD 0
  let arrival := (ws.foldl (fun m r => max m r.arrival) 0) % 2 ^ 32
  let nval := ph + 1 + (an + 1) / 2
  let fw := word centre.words (2 + ph)
  let df := if bit fw 7 then f32NaN else bits fw 71 40
  centre.words.zipIdx.map fun x =>
    let v := x.1.v.toNat
    if x.2 == 0 then { x.1 with v := BitVec.ofNat 72 (setBits v 32 1 arrival), poison := poison }
    else if x.2 == 1 then x.1
    else if x.2 < 2 + nval then
      let src := all.map fun l => (l.1, word l.2 x.2)
      let pick (b : Nat) : Nat := Config.op "mean" (b :: n :: fs :: df :: src.flatMap fun p => [(p.1 + 1000).toNat, p.2])
      let miss (b : Nat) : Bool := src.any fun p => bit p.2 b
      let orFl := Nat.lor (bits v 7 0) (16 * b2n (miss 4) + 32 * b2n (miss 5))
      if x.2 < 2 + ph then
        if miss 7 then { x.1 with poison := poison }
        else
          let z := meanPhasor n fs df (pick 0, pick 1) (src.map fun p => (p.1, (bits p.2 71 40, bits p.2 39 8)))
          ⟨BitVec.ofNat 72 (z.1 * 2 ^ 40 + z.2 * 2 ^ 8 + orFl), false, poison⟩
      else
        let keepA := miss 7
        let keepB := miss 3 || bit v 1
        let a := if keepA then bits v 71 40 else meanVal n (pick 0) (src.map fun p => (p.1, bits p.2 71 40))
        let b := if keepB then bits v 39 8 else meanVal n (pick 1) (src.map fun p => (p.1, bits p.2 39 8))
        ⟨BitVec.ofNat 72 (a * 2 ^ 40 + b * 2 ^ 8 + (if keepA && keepB then bits v 7 0 else orFl)), false, poison⟩
    else { x.1 with poison := x.1.poison || poison }

/-- Overwrites words of a page. -/
def State.putWords (s : State) (r : Ref) (ws : List SWord) : State :=
  s.modPage r.page fun p => { p with words := p.words.take r.ofs ++ ws ++ p.words.drop (r.ofs + r.n) }

/-- The centre records whose window did not fill stay as under PICK when the instant becomes READY (R152). -/
def State.closeWindows (s : State) (i : Inst) : State × List Nat :=
  let cs := (i.win.filter fun r => r.j == 0).map fun r => r.sidx
  let open_ := cs.filter fun x => !(i.arrived.contains x)
  (open_.foldl (fun s x => s.modStat x fun st => { st with dsfall := satInc st.dsfall 65535 }) s, open_)

/-- An OPEN instant becomes READY: its content is fixed (R141, R142). -/
def State.ready (s : State) (t : Nat × Nat) (c : Cause) : State :=
  match s.inst? t with
  | none => s
  | some i =>
    if i.cause.isSome then s
    else
      let r := s.closeWindows i
      r.1.modInst t fun i => { i with cause := some c, readyAt := s.now, arrived := i.arrived ++ r.2, win := [] }

/-- READY with cause ALL once ARRIVED covers EXPECTED. -/
def State.complete (s : State) (t : Nat × Nat) : State :=
  match s.inst? t with
  | none => s
  | some i => if i.expected.all fun x => i.arrived.contains x then s.ready t .all else s

/-! ### Classifying and placing a record (R132, R133, R151, R152) -/

/-- The classes of R133, each with the instant it concerns. -/
inductive Cls where
  | offcad
  | between
  | window (at_ : List ((Nat × Nat) × Int))
  | demoted (i : Nat × Nat)
  | late
  | ahead
  | dupinst
  | placed (i : Nat × Nat)
  deriving DecidableEq, Repr

/-- What a window or an instant with tag `t` is: open, still to be opened, too far ahead, or closed. -/
inductive Reach where
  | open_ | toOpen | far | closed
  deriving DecidableEq, Repr

/-- Where the instant with tag `t` stands (R133 rows 5 and 6). -/
def State.instReach (s : State) (t : Nat × Nat) : Reach :=
  match s.inst? t with
  | some i => if i.cause.isSome then .closed else .open_
  | none =>
    match s.aln.next with
    | none => .closed
    | some n =>
      if ukey t < ukey (s.instTag n) then .closed
      else match s.opensTo t (256 - s.aln.insts.length) n with
        | some _ => .toOpen
        | none => .far

/-- N of a stream at rate fs in MEAN for the instant with a tag: as fixed when it opened, as it would open, or as it was (R151, R155). -/
def State.meanFor (s : State) (sidx fs : Nat) (t : Nat × Nat) : Option Nat :=
  match s.inst? t with
  | some i => mget i.mean sidx
  | none =>
    let now := (s.policyOf sidx).mean
    let on := if s.nextKey ≤ ukey t then
        if s.atPending t then
          match mget s.aln.policy.pend sidx with
          | some p => (p.map fun q => q.mean).getD false
          | none => now
        else now
      else ((s.aln.meanWas.filter fun w => w.1 == sidx && decide (ukey t < w.2.1)).getLast?.map fun w => w.2.2).getD now
    if on then meanN fs (rateOf (s.cadAt t.1)) else none

/-- The stretch of tags for which an entry is in effect: from, to before (ns of UTC). -/
abbrev Span := Nat × Option Nat

/-- Every tag. -/
def Span.all : Span := (0, none)

/-- Does an instant lie in a span. -/
def Span.has (p : Span) (t : Nat × Nat) : Bool := demHolds (ukey t) p

/-- The instants of the entry's own epoch whose MEAN window holds a record of a stream at rate fs, with its offset in slots from the centre
(R151). A stream demoted for an instant has no window there. -/
def State.windowsOf (s : State) (sidx fs : Nat) (sp : Span) (t : Nat × Nat) : List ((Nat × Nat) × Int) :=
  let n := (s.nearestCad t).1
  let pair := if ukey (s.instTag n) ≤ ukey t then [n, s.afterInst n] else [s.beforeInst n, n]
  (pair.map fun i => (i, (slotOf fs t.1 t.2 : Int) - (slotOf fs (s.instTag i).1 (s.instTag i).2 : Nat))).filter fun x =>
    let it := s.instTag x.1
    sp.has it && !s.demotedFor sidx it && ((s.meanFor sidx fs it).map fun n => decide (x.2.natAbs ≤ n / 2)).getD false

/-- Classifies a record of a stream with a tag, taken by an entry in effect for the tags of a span (R133). The cadence of an epoch ends before
the boundary that ends it: a record of one side within tolerance of an instant of the other is on its grid but not on the cadence
(notes/assumptions/110.md). -/
def State.classify (s : State) (sidx rate : Nat) (sp : Span) (t : Nat × Nat) : Cls :=
  let fs := rateOf rate
  let c := s.nearestCad t
  let it := s.instTag c.1
  let tol := s.tolAt it
  if !s.flag F.ALN_CTRL_EN then .offcad
  else if !onLattice fs tol t then .offcad
  else if tol < c.2.natAbs || !sp.has it then
    let ws := s.windowsOf sidx fs sp t
    if ws.isEmpty then .between
    else
      let live := ws.filter fun w =>
        let r := s.instReach (s.instTag w.1)
        decide (r = .open_) || decide (r = .toOpen)
      if !live.isEmpty then .window live
      else if ws.any fun w => decide (s.instReach (s.instTag w.1) = .far) then .ahead
      else .late
  else if s.demotedFor sidx it then .demoted c.1
  else match s.instReach it with
    | .closed => .late
    | .far => .ahead
    | .toOpen => .placed c.1
    | .open_ =>
      match s.inst? it with
      | none => .late
      | some x =>
        if x.arrived.contains sidx || x.win.any fun r => r.sidx == sidx && r.j == 0 then .dupinst
        else .placed c.1

/-- A supplement (R133): LATE = 1, END on its last word, in a LATE page of its own, offered to the queues that select late
supplements. Answers false where no page could be allocated. -/
def State.supplement (s : State) (ws : List SWord) : Bool × State :=
  let ws := markEnd (match ws with
    | [] => []
    | w :: t => { w with v := BitVec.ofNat 72 (setBits w.v.toNat 0 0 1) } :: t)
  let r := s.alloc 1 ws [.inst]
  match r.1 with
  | none => (false, r.2)
  | some id =>
    let s := r.2.offerRefs ⟨1, [⟨0, id, 0, ws.length⟩], [id], none⟩ true fun _ _ => true
    (true, s.dropHold .inst id)

/-- Stores a record in an instant's ALIGN pages: in the last one if it fits, else in a page taken for it. -/
def State.instStore (s : State) (t : Nat × Nat) (sidx : Nat) (ws : List SWord) (id : Nat) : State :=
  match mget s.sett.pages id with
  | none => s
  | some p =>
    let ref : Ref := ⟨sidx, id, p.words.length, ws.length⟩
    let s := s.modPage id fun g => { g with words := g.words ++ ws }
    s.modInst t fun i => { i with
      recs := i.recs ++ [ref], pages := if i.pages.contains id then i.pages else i.pages ++ [id] }

/-- The page of an instant in which n more words go: its last page, or a new one; none where none can be allocated. -/
def State.instPage (s : State) (t : Nat × Nat) (n : Nat) : Option Nat × State :=
  match (s.inst? t).bind fun i => i.pages.getLast? with
  | some id => if s.fits id n then (some id, s) else s.alloc 0 [] [.inst]
  | none => s.alloc 0 [] [.inst]

/-- Puts a record into the MEAN window of an open instant; once the window is full the derived record takes the
centre's place and the arrived bit is set (R151). -/
def State.windowPut (s : State) (t : Nat × Nat) (fs ph an : Nat) (r : WinRec) : State :=
  match (s.inst? t).bind fun i => mget i.mean r.sidx with
  | none => s
  | some n =>
    let s := s.modInst t fun i => if i.win.any fun x => x.sidx == r.sidx && x.j == r.j then i else { i with win := i.win ++ [r] }
    match s.inst? t with
    | none => s
    | some i =>
      let mine := i.win.filter fun x => x.sidx == r.sidx
      match mine.find? fun x => x.j == 0 with
      | none => s
      | some c =>
        if mine.length < 2 * (n / 2) + 1 then s
        else match i.recs.find? fun x => x.sidx == r.sidx with
          | none => s
          | some ref =>
            let s := s.putWords ref (meanWords ph an n fs mine c)
            (s.modInst t fun i => { i with arrived := sadd i.arrived r.sidx }).complete t

/-- A record of a demoted stream for an instant has been committed: it counts for the streak if the instant is open or still to open (R150). -/
def State.demNote (s : State) (pd : Bool) (sidx : Nat) (t : Nat × Nat) : State :=
  match s.inst? t with
  | some i => if i.cause.isNone then s.modInst t fun x => { x with demArr := sadd x.demArr sidx } else s
  | none => if s.nextKey ≤ ukey t then s.modStatIn pd sidx fun x => { x with demEarly := sadd x.demEarly (ukey t) } else s

/-- Commits a record: stores it as its class says (R133). `pd` says whether it belongs to the entry of the pending boundary, `sh` are its counts
of phasors, analogs and digitals. Answers false, with only the failed allocation counted, where a page it needs cannot be had (R80 step 13). -/
def State.place (s : State) (c : Cls) (pd : Bool) (sidx rate : Nat) (sh : Nat × Nat × Nat) (arrival : Nat)
    (ws : List SWord) : Bool × State :=
  let supp (s : State) (f : SStat → SStat) : Bool × State :=
    let r := s.supplement ws
    if r.1 then (true, r.2.modStatIn pd sidx f) else (false, r.2)
  match c with
  | .offcad => supp s fun x => { x with offcad := x.offcad + 1 }
  | .between =>
    if s.flag F.ALN_CTRL_BETWEEN_SUPP then supp s fun x => { x with between := x.between + 1 }
    else (true, s.modStatIn pd sidx fun x => { x with between := x.between + 1 })
  | .window live =>
    let s := s.modStatIn pd sidx fun x => { x with between := x.between + 1 }
    (true, live.foldl (fun s w =>
      let it := s.instTag w.1
      let s := s.openTo it 257
      s.windowPut it (rateOf rate) sh.1 sh.2.1 ⟨sidx, w.2, ws, arrival⟩) s)
  | .demoted i =>
    let r := supp s fun x => { x with demsupp := x.demsupp + 1 }
    (r.1, if r.1 then r.2.demNote pd sidx (s.instTag i) else r.2)
  | .late =>
    let r := supp s fun x => { x with cnt := x.cnt.set 0 ((x.cnt[0]?).getD 0 + 1) }
    (r.1, if r.1 then r.2.inc F.ING_CNT_LATE_COUNT else r.2)
  | .ahead =>
    let r := supp s fun x => { x with ahead := satInc x.ahead 255 }
    (r.1, if r.1 then r.2.ev Ev.ALN_AHEAD sidx [] else r.2)
  | .dupinst =>
    let r := supp s fun x => { x with dupinst := satInc x.dupinst 255 }
    (r.1, if r.1 then r.2.ev Ev.ALN_DUPINST sidx [] else r.2)
  | .placed i =>
    let it := s.instTag i
    let r := s.instPage it ws.length
    match r.1 with
    | none => (false, r.2)
    | some id =>
      let s := r.2.openTo it 257
      let s := (s.instStore it sidx ws id).modInst it fun x => { x with shapes := mput x.shapes sidx sh }
      if ((s.inst? it).map fun x => (mget x.mean sidx).isSome).getD false then
        (true, s.windowPut it (rateOf rate) sh.1 sh.2.1 ⟨sidx, 0, ws, arrival⟩)
      else (true, (s.modInst it fun x => { x with arrived := sadd x.arrived sidx }).complete it)

/-! ### Latency histogram and learned waits (R93, R146) -/

/-- The bin of a latency (R93). -/
def histBin (lat : Int) (u : Nat) : Nat :=
  if lat < 0 then 0
  else
    let q := lat.toNat / 1000 / max u 1
    if q < 8 then 1 + q
    else
      let e := Nat.log2 q - 2
      min 31 (9 + 4 * (e - 1) + (q / 2 ^ e - 4))

/-- A committed record's latency enters LAT_LAST, LAT_MIN, LAT_MAX and the histogram, unless the time quality is 0xF. -/
def State.histAdd (s : State) (pd : Bool) (sidx : Nat) (lat : Int) : State :=
  if s.tqCode == 0xF then s
  else
    let us := max (-2147483647) (min 2147483646 (lat.fdiv 1000))
    let b := histBin lat (s.get F.ING_HIST_UNIT)
    let w := s.get F.ING_HIST_WINDOW
    s.modStatIn pd sidx fun x =>
      let h := x.hist.set b ((x.hist[b]?).getD 0 + 1)
      let h := if w != 0 && decide (w ≤ h.foldl (· + ·) 0) then h.map fun v => v / 2 else h
      { x with hist := h, latLast := us, latMin := min x.latMin us,
               latMax := max x.latMax us }

/-- The lower edge of the bin above b, in µs (R146). -/
def upperUs (u b : Nat) : Nat :=
  if b == 0 then 0
  else if b ≤ 8 then b * u
  else ((b - 8) % 4 + 4) * 2 ^ ((b - 8) / 4 + 1) * u

/-- The first bin up to which `need` samples lie, at most 31. -/
def quantBin (need : Nat) : List Nat → Nat → Nat → Nat
  | [], _, b => min b 31
  | h :: t, cum, b => if need ≤ cum + h || b == 31 then b else quantBin need t (cum + h) (b + 1)

/-- One stream's learning update (R146). -/
def State.learnOne (s : State) (sidx : Nat) : State :=
  let x := s.stat sidx
  let total := x.hist.foldl (· + ·) 0
  if total == 0 || total < s.get F.ALN_LEARN_MINSAMP || (s.policyOf sidx).fixed.isSome then s
  else
    let need := (total * s.get F.ALN_LEARN_Q + 255) / 256
    let b := quantBin need x.hist 0 0
    let t0 := if b == 31 then s.waitBounds.2 else upperUs (max (s.get F.ING_HIST_UNIT) 1) b + s.get F.ALN_MARGIN_MARGIN
    let t := s.clampWait t0
    let w := if x.wait ≤ t then t else max t (x.wait - s.get F.ALN_MARGIN_DECAY)
    s.setWait sidx w

/-! ### The commands -/

/-- The number of lattice instants, from `i` on, whose TAI time is before `lim` ns: those to skip (R137), and the first that
is not. A cadence change that falls among them takes effect. -/
def State.skipTo (s : State) (lim : Nat) (i : Nat × Nat) : Nat × (Nat × Nat) × State :=
  let f := rateOf s.aln.cad
  let countTo (f : Nat) (a b : Nat × Nat) : Nat := (b.1 * f + b.2) - (a.1 * f + a.2)
  let firstAt (f : Nat) : Nat × Nat := if lim == 0 then (0, 0) else s.firstInstAfter f (lim - 1)
  match s.aln.cadDue with
  | some c =>
    let w := (c.2, 0)
    let e := firstAt f
    if ukey (e.1, instNs f e.2) ≤ ukey w then (countTo f i e, e, s)
    else
      let n0 := countTo f i w
      let s := s.switchCadence
      let f2 := rateOf s.aln.cad
      let e2 := firstAt f2
      (n0 + countTo f2 w e2, e2, s)
  | none => let e := firstAt f; (countTo f i e, e, s)

/-- The closed horizon goes to a tag (R138). -/
def State.setHoriz (s : State) (t : Nat × Nat) : State :=
  (s.wr R.ALN_HORIZ_LO (BitVec.ofNat 32 t.2)).wr R.ALN_HORIZ_HI (BitVec.ofNat 32 t.1)

/-- Skips every instant more than WAIT_MAX behind local time (R137). -/
def State.skipLate (s : State) : State :=
  match s.aln.next with
  | none => s
  | some i =>
    let lim := s.taiNs - s.waitBounds.2 * 1000
    if s.cadTai i < lim then
      let r := s.skipTo lim i
      let s := r.2.2
      let last := s.instTag (s.beforeInst r.2.1)
      let gap := s.aln.gapNext + r.1
      let s := { s with aln := { s.aln with next := some r.2.1, last := some last, gapNext := gap } }
      let s := s.add F.ALN_CNT_GAP_COUNT r.1
      let s := if s.aln.insts.isEmpty then s.setHoriz last else s
      s.ev Ev.ALN_GAP 0 [(16, min gap 65535)]
    else s

/-- INSTANT_OPEN (R134, R135, R137): local time reaches the next lattice instant. -/
def execInstantOpen (s : State) : Result :=
  match s.aln.next with
  | none => s.done
  | some i =>
    if s.flag F.ALN_CTRL_EN && s.tim.anchor.isSome then
      let s := s.reach (s.tickAtTai (s.cadTai i))
      let s := s.skipLate
      match s.aln.next with
      | none => s.done
      | some j =>
        if s.taiNs < s.cadTai j then s.done
        else if s.aln.insts.length < 256 then s.openNext.done
        else match s.aln.insts with
          | [] => s.done
          | x :: _ =>
            if x.cause.isSome then s.done
            else ((s.ready (x.soc, x.ns) .forced).ev0 Ev.ALN_TABLE_FULL).done
    else s.done

/-- INSTANT_DEADLINE (R141): the TIME counter reaches the deadline tick of the first OPEN instant, and of those with the
same one. -/
def execInstantDeadline (s : State) : Result :=
  match s.aln.insts.find? fun i => i.cause.isNone with
  | none => s.done
  | some x =>
    let s := s.reach x.deadline
    ((s.aln.insts.filter fun i => i.cause.isNone && decide (i.deadline ≤ s.now)).foldl
      (fun s i => s.ready (i.soc, i.ns) .deadline) s).done

/-- Does learning go on: ALN_CTRL.LEARN_EN = 1, and not paused with the histogram while the time quality is 0xF (R93, R146). -/
def State.learns (s : State) : Bool := s.flag F.ALN_CTRL_LEARN_EN && s.tqCode != 0xF

/-- WAIT_LEARN_UPDATE (R146): due after ALN_LEARN.PERIOD released sets; one that falls due and finds learning off or paused changes nothing. -/
def execWaitLearnUpdate (s : State) : Result :=
  if s.aln.learnDue then
    let s := { s with aln := { s.aln with learnDue := false } }
    if s.learns then (s.ing.stat.foldl (fun s p => if (s.streamRate? p.1).isSome then s.learnOne p.1 else s) s).done else s.done
  else s.done

/-- A write of ALN_CTRL (R133, R134, R141). -/
def State.alnCtrlWrite (s : State) (v : Dword) : State :=
  let was := s.flag F.ALN_CTRL_EN
  let s := s.store R.ALN_CTRL v
  let now := s.flag F.ALN_CTRL_EN
  if was && !now then
    s.aln.insts.foldl (fun s i => s.ready (i.soc, i.ns) .forced) s
  else if !was && now then
    let u := (s.utcOf s.taiNs).1
    let s := s.switchBy u
    let i := s.firstInstAfter (rateOf (s.cadAt u)) s.taiNs
    let i := match s.aln.next with
      | some n => if ukey (s.instTag n) ≤ ukey (s.instTag i) then i else n
      | none => i
    { s with aln := { s.aln with next := some i } }
  else s

/-- ALN_CTRL_WRITE. -/
def execAlnCtrlWrite (a : Agent) (v : Dword) (s : State) : Result :=
  (s.gate a R.ALN_CTRL fun s => s.alnCtrlWrite v).done

/-- CADENCE_SET (0x20): body. -/
def cadenceSetBody (b : List Byte) (s : State) : CmdRes :=
  checked [(decide (11 < le b 8 1), St.badParam), (!zeroAt b 9 7, St.badParam), (s.cmd.prep.isSome, St.busy)] s
    ⟨St.ok, [], ({ s with aln := { s.aln with cadShadow := le b 8 1, cadDirty := true } } : State).healAll 2 [0]⟩

/-- CADENCE_SET (R156). -/
def execCadenceSet (r : Fn) (s : State) : Result := (s.plain r 0x20 16 false (fun _ => true) cadenceSetBody).done

/-- The rate code of a stream's shadow entry, remote or local, if it has one. -/
def State.shadowRate? (s : State) (sidx : Nat) : Option Nat :=
  if sidx < 8184 then (mget s.ing.streams.shadow sidx).map fun e => e.rate
  else (mget s.pmu.cfg.shadow (sidx - 8184)).map fun c => c.rate

/-- One stream's WAIT_POLICY (0x21) change in the shadow. -/
def policyMask (p : Policy) (mask flags wait : Nat) : Policy :=
  { fixed := if bit mask 0 then (if bit flags 0 then some wait else none) else p.fixed
    mean := if bit mask 1 then bit flags 1 else p.mean
    nodemote := if bit mask 2 then bit flags 2 else p.nodemote
    promote := p.promote || bit mask 3 }

/-- WAIT_POLICY (0x21): body. -/
def waitPolicyBody (b : List Byte) (s : State) : CmdRes :=
  let first := le b 8 2
  let count := le b 10 2
  let mask := le b 12 1
  let flags := le b 13 1
  let wait := le b 16 4
  let used := ((List.range count).map fun i => first + i).filter fun x => (s.shadowRate? x).isSome
  let badMean := bit mask 1 && bit flags 1 && used.any fun x =>
    (meanN (rateOf ((s.shadowRate? x).getD 0)) (rateOf s.aln.cadShadow)).isNone
  let badWait := bit mask 0 && bit flags 0 &&
    (decide (wait < s.get F.ALN_WAITMIN_US) || decide (s.get F.ALN_WAITMAX_US < wait))
  checked [(count == 0, St.badLength), (decide (8192 < first + count), St.badParam),
      (mask == 0 || decide (15 < mask), St.badParam), (decide (7 < flags) || badMean, St.badParam),
      (!zeroAt b 14 2, St.badParam), (badWait, St.badParam), (!zeroAt b 20 4, St.badParam),
      (s.cmd.prep.isSome, St.busy)] s
    ⟨St.ok, [], ({ s with aln := { s.aln with policy := used.foldl (fun t x =>
      t.put x (policyMask (mgetD t.shadow x Policy.default) mask flags wait)) s.aln.policy } } : State).healAll 1 used⟩

/-- WAIT_POLICY (R148). -/
def execWaitPolicy (r : Fn) (s : State) : Result := (s.plain r 0x21 24 false (fun _ => true) waitPolicyBody).done

end Sys2Proof.Machine
end

