-- ==== Sys2Proof/Machine/Alarm.lean ====
section
/-!
DEFINITION. Sys2Proof/Machine/Alarm.lean: what the three engines share: taking sets and skipping them (R125 to R127), reading a
set, alarm frames' copies and destinations (R178, R179), the pins' own events (R172) and STALE (R170).
-/
namespace Sys2Proof.Machine

/-! ### Taking sets (R125 to R127) -/

/-- Enters what engine e did with a set, for the cascade builder (R248). -/
def State.feedMark (s : State) (d : SetDesc) (e : Nat) (ran : Bool) (ws : List SWord) : State :=
  let k := ukey (d.soc, d.ns)
  if s.sched.casc.any fun c => ukey (c.2.soc, c.2.ns) == k then
    { s with sched := { s.sched with feed := mmod s.sched.feed k [] fun l => l ++ [FeedRes.mk e ran ws] } }
  else s

/-- Engine e skips a set (R127). In the island engine's histories the set takes a position (R185): before the oldest set still waiting, or,
for an arriving set (`new`), after the newest. -/
def State.skipSet (s : State) (e : Nat) (new : Bool) (d : SetDesc) : State :=
  let s := (s.dropHolds (.engine e) d.pages).inc (F.SET_SKIP_COUNT.at (4 * e))
  let s := { s with sched := { s.sched with skipped := sadd s.sched.skipped e, skipAt := some s.now } }
  let n := d.lead + d.gap + 1
  let s := if e != 1 then s
    else if new then { s with isl := { s.isl with gapT := s.isl.gapT + n } }
    else { s with isl := { s.isl with gapN := s.isl.gapN + n } }
  (s.feedMark d e false []).ev Ev.SET_SKIP 0 [(32, e), (32, d.soc), (30, d.ns)]

/-- Pending list of engine e. -/
def State.pendOf (s : State) (e : Nat) : List SetDesc := mgetD s.sched.pend e []

/-- Stores a pending list. -/
def State.setPend (s : State) (e : Nat) (l : List SetDesc) : State :=
  { s with sched := { s.sched with pend := mput s.sched.pend e l } }

/-- Is a set too old for engine e to start (R127). -/
def State.tooOld (s : State) (e : Nat) (d : SetDesc) : Bool :=
  let a := s.get (F.SET_SCHED_AGE_AGE.at (4 * e))
  a != 0 && decide (d.releasedAt + ticksOfUs a < s.now)

/-- Engine e starts its next set: sets too old before it are skipped. -/
def State.engineTake (s : State) (e : Nat) : Option SetDesc × State :=
  let l := s.pendOf e
  let old := l.takeWhile (s.tooOld e)
  let s := old.foldl (fun s d => s.skipSet e false d) s
  match l.drop old.length with
  | [] => (none, s.setPend e [])
  | d :: rest => (some d, s.setPend e rest)

/-- Places a released set on engine e's pending list of four (R125, R127). -/
def State.enginePut (s : State) (e : Nat) (d : SetDesc) : State :=
  let l := s.pendOf e
  let s := d.pages.foldl (fun s p => s.holdPage p (.engine e)) s
  let put (s : State) (l : List SetDesc) : State :=
    if e == 1 then ({ s with isl := { s.isl with gapT := 0 } } : State).setPend e (l ++ [{ d with lead := s.isl.gapT }])
    else s.setPend e (l ++ [d])
  if l.length < 4 then put s l
  else if s.flag ⟨R.SET_SCHED_CTRL, e, e⟩ then s.skipSet e true d
  else match l with
    | [] => s
    | o :: rest => put (s.skipSet e false o) rest

/-- Were sets skipped before this one, by engine e or by alignment (R164). -/
def State.afterSkip (s : State) (e : Nat) (d : SetDesc) : Bool := smem s.sched.skipped e || d.gap != 0

/-- A run's end: its hold is released and its longest interval recorded, in ANAL clocks of 819.2 MHz (R126). -/
def State.runEnd (s : State) (e : Nat) (d : SetDesc) (runmax : Fld) (ws : List SWord) : State :=
  let s := s.dropHolds (.engine e) d.pages
  let c := min ((s.now - d.releasedAt) * 5 / 3) 16777215
  let s := if s.get runmax < c then s.set runmax c else s
  let s := { s with sched := { s.sched with skipped := sdel s.sched.skipped e } }
  s.feedMark d e true ws

/-! ### Reading a set (R88 to R91) -/

/-- Counts of phasors, analogs and digitals of a stream's record in a set. -/
def SetDesc.shape (d : SetDesc) (sidx : Nat) : Nat × Nat × Nat := mgetD d.shapes sidx (0, 0, 0)

/-- The words of a stream's record in a set; none where it has no record or a placeholder. -/
def State.setRec (s : State) (d : SetDesc) (sidx : Nat) : Option (List SWord) :=
  match d.recs.find? fun r => r.sidx == sidx with
  | none => none
  | some r => if r.n ≤ 2 then none else some (s.refWords r)

/-- A phasor of a stream in a set: its two floats and UNAUTH; none where it is missing (R162, R206). -/
def State.setPhasor (s : State) (d : SetDesc) (sidx ph : Nat) : Option (Nat × Nat × Bool) :=
  match s.setRec d sidx with
  | none => none
  | some ws =>
    if (d.shape sidx).1 ≤ ph then none
    else match ws[2 + ph]? with
      | none => none
      | some w =>
        let v := w.v.toNat
        if w.poison || bits v 7 6 != 0 then none else some (bits v 71 40, bits v 39 8, bit v 4)

/-- The frequency word's value A, or value B, in a set, and UNAUTH; none where it is missing. -/
def State.setFreq (s : State) (d : SetDesc) (sidx : Nat) (b : Bool) : Option (Nat × Bool) :=
  match s.setRec d sidx with
  | none => none
  | some ws =>
    match ws[2 + (d.shape sidx).1]? with
    | none => none
    | some w =>
      let v := w.v.toNat
      if w.poison then none
      else if b then (if bits v 3 2 != 0 then none else some (bits v 39 8, bit v 4))
      else if bits v 7 6 != 0 then none else some (bits v 71 40, bit v 4)

/-! ### Copies and destinations -/

/-- The repeat due first. -/
def firstDue : List AlmRepeat → Option AlmRepeat
  | [] => none
  | r :: t => match firstDue t with
    | none => some r
    | some x => if r.due ≤ x.due then some r else some x

/-- ALARM_FRAME_REPEAT (R178): the next copy of a datagram is due. -/
def execAlarmFrameRepeat (s : State) : Result :=
  match firstDue s.alm.repeats with
  | none => s.done
  | some r =>
    let s := s.reach r.due
    let s := { s with alm := { s.alm with repeats := s.alm.repeats.erase r ++
      (if r.copy < r.last then [{ r with due := r.due + ticksOfMs 1, copy := r.copy + 1 }] else []) } }
    if s.flag F.ANG_NET_CFG_EN && !s.inhibited then (s.almSend r.copy r.seq r.ports r.words).done else s.done

/-- ALARM_DEST_RESOLVE (R179): the firmware has resolved a unicast destination on a port, or not: then what the cache holds
stays. -/
def execAlarmDestResolve (p : Fin 5) (mac : Option Nat) (s : State) : Result :=
  if s.flag F.ANG_NET_CFG_EN && s.fwRuns && !s.flag F.ANG_NET_CFG_FIXED_MAC && !isMcast s.almDst && s.almPorts.contains p.val then
    match mac with
    | none => s.done
    | some m => ({ s with alm := { s.alm with macs := mput s.alm.macs p (m % 2 ^ 48) } } : State).done
  else s.done

/-! ### Pins and STALE (R170, R172) -/

/-- ALM_PULSE_END (R172). -/
def execAlmPulseEnd (n : Fin 8) (s : State) : Result :=
  match mget s.alm.pulse n with
  | none => s.done
  | some t =>
    let s := s.reach t
    ({ s with alm := { s.alm with pulse := merase s.alm.pulse n } } : State).done

/-- A write of ANG_ALMCLR: ones clear the latches of pins whose raw is 0 (R172). -/
def State.almClrWrite (s : State) (v : Nat) : State :=
  let s := { s with alm := { s.alm with clrSince := Nat.lor s.alm.clrSince (bits v 7 0) } }
  (List.range 8).foldl (fun s n =>
    if bit v n && !s.almRaw n then s.setB ⟨R.ANG_ALMSTAT, 8 + n, 8 + n⟩ false else s) s

/-- ALM_LATCH_CLEAR. -/
def execAlmLatchClear (a : Agent) (v : Dword) (s : State) : Result :=
  (s.gate a R.ANG_ALMCLR fun s => s.almClrWrite v.toNat).done

/-- STALE follows the time since the last release (R170). -/
def State.staleSync (s : State) : State :=
  let ms := s.get F.ANG_STALE_MS
  let st := ms != 0 && decide (s.aln.relTick + ticksOfMs ms < s.now)
  if st == s.flag F.ANG_STAT_STALE then s else (s.setB F.ANG_STAT_STALE st).ev0 Ev.ANG_STALE

/-- EV_ANG_STALE (R170): no set has been released for more than ANG_STALE ms. -/
def execEvAngStale (s : State) : Result :=
  let ms := s.get F.ANG_STALE_MS
  if ms == 0 || s.flag F.ANG_STAT_STALE then s.done
  else (s.reach (s.aln.relTick + ticksOfMs ms + 1)).staleSync.done

end Sys2Proof.Machine
end

