-- ==== Sys2Proof/Machine/Ang.lean ====
section
/-!
DEFINITION. Sys2Proof/Machine/Ang.lean: the limit-and-angle engine: its tables and their commands, and its run (R160 to R168,
R176, R177).
-/
namespace Sys2Proof.Machine

/-! ### Table entries -/

/-- Is a value allowed as GRP. -/
def grpOk (g : Nat) : Bool := decide (g ≤ 991) || g == 0x3FF

/-- A rule entry of LIMITS_LOAD. -/
def limitOf (b : List Byte) : Limit :=
  { sidx := le b 0 2, kind := le b 2 1, phidx := le b 3 1, hi := le b 4 4, lo := le b 8 4, hyst := le b 12 4,
    persist := le b 16 1, enable := bit (le b 17 1) 0, grp := le b 18 2 }

/-- Is a rule entry in range; of an unused one only its reserved bits are checked (notes/assumptions/49.md). -/
def limitOk (b : List Byte) : Bool :=
  let e := limitOf b
  let res := decide (le b 17 1 ≤ 1) && zeroAt b 20 12
  let both := !f32IsNaN e.hi && !f32IsNaN e.lo
  if e.kind == 0 then res
  else res && decide (e.sidx ≤ 8191) && decide (e.kind ≤ 3) && decide (e.phidx ≤ (if e.kind == 1 then 62 else 0)) &&
    f32Finite e.hyst && f32Le 0 e.hyst && (!both || f32SpanOk e.hi e.lo e.hyst) && e.persist != 0 && grpOk e.grp

/-- A pair entry of ANGLE_PAIRS_LOAD. -/
def pairOfBytes (b : List Byte) : Pair :=
  { sidxA := le b 0 2, phA := le b 2 1, phB := le b 3 1, sidxB := le b 4 2, enable := bit (le b 6 2) 0,
    hi := sext 16 (le b 8 2), lo := sext 16 (le b 10 2), hyst := le b 12 2, persist := le b 14 1,
    minmag := le b 16 4, grp := le b 20 2 }

/-- Is a pair entry in range. -/
def pairOk (b : List Byte) : Bool :=
  let e := pairOfBytes b
  decide (e.sidxA ≤ 8191) && decide (e.phA ≤ 62) && decide (e.phB ≤ 62) && decide (e.sidxB ≤ 8191) &&
    !(e.sidxA == e.sidxB && e.phA == e.phB) && decide (le b 6 2 ≤ 1) && decide (2 * (e.hyst : Int) < e.hi - e.lo) &&
    decide (e.hyst ≤ 16383) && e.persist != 0 && zeroAt b 15 1 && f32Le 0 e.minmag && grpOk e.grp && zeroAt b 22 10

/-- Entries of a host buffer. -/
def entriesOf (size n : Nat) (b : List Byte) : List (List Byte) := (List.range n).map fun i => bytesAt b (size * i) size

/-- Index of the first entry that is not in range. -/
def firstBad (ok : List Byte → Bool) (es : List (List Byte)) : Option Nat :=
  let i := (es.takeWhile ok).length
  if i < es.length then some i else none

/-- Parameters that the table loads share: address, FIRST, COUNT with its limits, reserved bytes. -/
def loadParams (p : List Byte) (maxCount limit : Nat) : List (Bool × Nat) :=
  [(le p 8 8 % 8 != 0, St.badParam), (le p 18 2 == 0, St.badLength),
    (decide (maxCount < le p 18 2) || decide (limit < le p 16 2 + le p 18 2), St.badParam), (!zeroAt p 20 4, St.badParam)]

/-- LIMITS_LOAD (0x29): body. -/
def limitsLoadBody (buf : HostRead) (p : List Byte) (s : State) : CmdRes :=
  checked (loadParams p 1024 32768 ++ [(s.cmd.prep.isSome, St.busy)]) s
    (withBuf buf s fun b =>
      let es := entriesOf 32 (le p 18 2) b
      match firstBad limitOk es with
      | some i => ⟨St.badParam, toLe 2 (le p 16 2 + i), s⟩
      | none =>
        let t := es.zipIdx.foldl (fun (t : Tbl Limit) e => t.put (le p 16 2 + e.2) (limitOf e.1)) s.ang.limits
        ⟨St.ok, [], ({ s with ang := { s.ang with limits := t } } : State).healAll 3 ((List.range es.length).map fun i => le p 16 2 + i)⟩)

/-- LIMITS_LOAD (R166). -/
def execLimitsLoad (r : Fn) (buf : HostRead) (s : State) : Result :=
  (s.plain r 0x29 24 false (fun _ => true) (limitsLoadBody buf)).done

/-- ANGLE_PAIRS_LOAD (0x28): checks before its first step. -/
def anglePairsCheck (p : List Byte) (s : State) : Option Nat :=
  firstFail (loadParams p 16384 16384 ++ [(s.cmd.prep.isSome, St.busy)])

/-- One step: up to 1024 pairs, read with the step; progress is the number written. -/
def anglePairsStep (buf : HostRead) (p : List Byte) (prog : List Nat) (s : State) : StepRes :=
  let done := (prog[0]?).getD 0
  let count := le p 18 2
  let n := min 1024 (count - done)
  match hostStatus buf with
  | some st => .final st [] s
  | none =>
    let es := entriesOf 32 n (hostBytes buf)
    let first := le p 16 2 + done
    match firstBad pairOk es with
    | some i => .final St.badParam (toLe 2 (first + i)) s
    | none =>
      let t := es.zipIdx.foldl (fun (t : Tbl Pair) e => t.put (first + e.2) (pairOfBytes e.1)) s.ang.pairs
      let s := ({ s with ang := { s.ang with pairs := t } } : State).healAll 4 ((List.range es.length).map fun i => first + i)
      if done + n < count then .more [done + n] s else .final St.ok [] s

/-- ANGLE_PAIRS_LOAD (R166). -/
def execAnglePairsLoad (r : Fn) (buf : HostRead) (s : State) : Result :=
  (s.stepped r 0x28 24 anglePairsCheck (fun _ => [0]) (anglePairsStep buf)).done

/-! ### The run (R160 to R168) -/

/-- A run in progress: the state, its transitions in order, missing values, and the pair with the largest |θ| so far. -/
structure AngRun where
  s : State
  trans : List Trans
  miss : Nat
  best : Option (Nat × Int)

/-- CNT of an alarm. -/
def State.angCnt (s : State) (key : Nat) : Nat := mgetD s.ang.cnt key 0

/-- Stores CNT. -/
def State.setAngCnt (s : State) (key n : Nat) : State := { s with ang := { s.ang with cnt := mstore 0 s.ang.cnt key n } }

/-- Adds a transition and counts its raise or clear. -/
def AngRun.add (a : AngRun) (t : Trans) : AngRun :=
  let s := if t.dir == 1 then (a.s.inc F.ANG_CNT_RAISE_COUNT).ev0 Ev.ANG_RAISE else (a.s.inc F.ANG_CNT_CLEAR_COUNT).ev0 Ev.ANG_CLEAR
  { a with s := s, trans := transInsert t a.trans }

/-- One evaluation of R163. -/
def AngRun.persist (a : AngRun) (src idx grp persist : Nat) (above outside inside : Bool) (value fl : Nat) : AngRun :=
  let key := almKey src idx
  match mget a.s.alm.act key with
  | none =>
    let c := if outside then a.s.angCnt key + 1 else 0
    if persist ≤ c then
      { a with s := (a.s.setAngCnt key 0).almSet key grp }.add ⟨src, 1, idx, grp, if above then 0 else 1, value, fl⟩
    else { a with s := a.s.setAngCnt key c }
  | some g =>
    let c := if inside then a.s.angCnt key + 1 else 0
    if persist ≤ c then { a with s := (a.s.setAngCnt key 0).almClear key }.add ⟨src, 0, idx, g, 2, value, fl⟩
    else { a with s := a.s.setAngCnt key c }

/-- An entry written for the epoch starts afresh; one that was active clears with CAUSE 3 (R166). -/
def AngRun.reconf (a : AngRun) (src idx fl : Nat) : AngRun :=
  let key := almKey src idx
  let s := (a.s.setAngCnt key 0).heal (1 + src) idx
  match mget s.alm.act key with
  | none => { a with s := s }
  | some g => { a with s := s.almClear key }.add ⟨src, 0, idx, g, 3, 0, fl⟩

/-- An item whose own state was lost starts at its start value (R455): no count, no alarm. -/
def AngRun.lost (a : AngRun) (src idx : Nat) : AngRun :=
  { a with s := (((a.s.setAngCnt (almKey src idx) 0).almClear (almKey src idx)).heal (32 + src) idx) }

/-- The value of a rule in a set (R160), with UNAUTH. -/
def State.limitVal (s : State) (d : SetDesc) (e : Limit) : Option (Nat × Bool) :=
  match e.kind with
  | 1 => (s.setPhasor d e.sidx e.phidx).map fun p => (mag p.1 p.2.1, p.2.2)
  | 2 => s.setFreq d e.sidx false
  | 3 => s.setFreq d e.sidx true
  | _ => none

/-- Evaluates a rule. -/
def AngRun.limit (a : AngRun) (d : SetDesc) (fl idx : Nat) (e : Limit) : AngRun :=
  if !e.enable || e.kind == 0 then a
  else
    let v := if a.s.cramPoisoned 1 idx then none else a.s.limitVal d e
    match v with
    | none => { a with miss := a.miss + 1 }
    | some (x, un) =>
      let above := f32Lt e.hi x
      let outside := above || f32Lt x e.lo
      let inside := (f32IsNaN e.hi || f32Le x (f32AddSub true e.hi e.hyst)) &&
        (f32IsNaN e.lo || f32Le (f32AddSub false e.lo e.hyst) x)
      a.persist 0 idx e.grp e.persist above outside inside x (fl + 2 * b2n un)

/-- Evaluates a pair (R161, R162). -/
def AngRun.pair (a : AngRun) (d : SetDesc) (fl idx : Nat) (e : Pair) : AngRun :=
  if !e.enable then a
  else
    let miss := { a with miss := a.miss + 1 }
    if a.s.cramPoisoned 2 idx then miss
    else match a.s.setPhasor d e.sidxA e.phA, a.s.setPhasor d e.sidxB e.phB with
      | some p, some q =>
        if f32Lt (mag p.1 p.2.1) e.minmag || f32Lt (mag q.1 q.2.1) e.minmag then miss
        else
          let th := sext 16 (subMod 16 (bangle p.1 p.2.1) (bangle q.1 q.2.1))
          let above := decide (e.hi < th)
          let outside := above || decide (th < e.lo)
          let inside := decide (th ≤ e.hi - e.hyst) && decide (e.lo + e.hyst ≤ th)
          let best := match a.best with
            | some b => if b.2.natAbs < th.natAbs then some (idx, th) else a.best
            | none => some (idx, th)
          { a with best := best }.persist 1 idx e.grp e.persist above outside inside (wrapInt 32 th)
            (fl + 2 * b2n (p.2.2 || q.2.2))
      | _, _ => miss

/-- Active alarms of a source, those without a group too. -/
def State.almCount (s : State) (src : Nat) : Nat := (s.alm.act.filter fun p => p.1 / 2 ^ 20 == src).length

/-- A whole run on a set. -/
def State.angRun (s : State) (d : SetDesc) : State :=
  let fl := s.transFlags d.tq
  let skipped := s.afterSkip 0 d
  let kl := s.ang.limits.dueKeys d.epoch
  let kp := s.ang.pairs.dueKeys d.epoch
  let s := { s with ang := { s.ang with
    limits := s.ang.limits.takeThrough d.epoch, pairs := s.ang.pairs.takeThrough d.epoch } }
  let a : AngRun := ⟨s, [], 0, none⟩
  let a := kl.foldl (fun a i => a.reconf 0 i fl) a
  let a := kp.foldl (fun a i => a.reconf 1 i fl) a
  let lost0 := s.stateLost 32 (s.ang.limits.eff.map fun p => p.1)
  let lost1 := s.stateLost 33 (s.ang.pairs.eff.map fun p => p.1)
  let a := lost0.foldl (fun a i => a.lost 0 i) a
  let a := lost1.foldl (fun a i => a.lost 1 i) a
  let a := if s.flag F.ANG_CTRL_LIM_EN then s.ang.limits.eff.foldl (fun a e => a.limit d fl e.1 e.2) a else a
  let a := if s.flag F.ANG_CTRL_PAIR_EN then s.ang.pairs.eff.foldl (fun a e => a.pair d fl e.1 e.2) a else a
  let max := s.get F.ANG_RECMAX_MAX
  let n := a.trans.length
  let trunc := max != 0 && decide (max < n)
  let s := a.s.add F.ANG_CNT_MISS_COUNT a.miss
  let s := if trunc then (s.add F.ANG_CNT_TRUNC_COUNT (n - max)).ev0 Ev.ANG_TRUNC else s
  let nr := (a.trans.filter fun t => t.dir == 1).length
  let flags := b2n (a.miss != 0 || !lost0.isEmpty || !lost1.isEmpty) + 2 * b2n skipped + 4 * b2n trunc
  let cap (x : Nat) : Nat := min x 65535
  let p0 := cap (s.almCount 0) * 2 ^ 56 + cap (s.almCount 1) * 2 ^ 40 + cap nr * 2 ^ 24 + cap (n - nr) * 2 ^ 8 + flags
  let p1 := match a.best with
    | none => 0
    | some b => b.1 % 2 ^ 14 * 2 ^ 58 + wrapInt 16 b.2 * 2 ^ 42
  let arr := shortStamp s.taiNs
  let trans := if n == 0 || max == 0 then [] else alarmRecs 1 1 arr d.soc d.ns d.tq ((a.trans.take max).map Trans.word)
  let s := s.publish trans 2 (alarmRecs 1 0 arr d.soc d.ns d.tq [p0, p1])
  (s.runEnd 0 d F.ANG_RUNMAX_CLK []).raise 40

/-- ANG_ENGINE_RUN (R167). -/
def execAngEngineRun (s : State) : Result :=
  let r := s.engineTake 0
  match r.1 with
  | none => r.2.done
  | some d => (r.2.angRun d).done

end Sys2Proof.Machine
end

