-- ==== Sys2Proof/Machine/Keys.lean ====
section
/-!
DEFINITION. Sys2Proof/Machine/Keys.lean: the key engine and the tamper logic: blobs, the key cache, parent invalidation, key
updates, leases, zeroisation (R460 to R478). Ciphers, hashes and the random source are open functions (notes/assumptions/1.md).
-/
namespace Sys2Proof.Machine

/-! ### The cache -/

/-- Changes the key engine's state. -/
def State.modKeys (s : State) (f : Keys → Keys) : State := { s with keys := f s.keys }

/-- GEN of a group (R463). -/
def State.keyGen (s : State) (g : Nat) : Nat := mgetD s.keys.gens g 0

/-- The active root. -/
def State.keyRoot (s : State) : Option Nat := if s.keys.activeB then s.keys.rootB else s.keys.rootA

/-- KEY_STAT follows the key engine's state. -/
def State.keySync (s : State) : State :=
  let k := s.keys
  let s := s.set F.KEY_STAT_USED k.slots.length
  let s := (s.setB F.KEY_STAT_ROOT_SLOT k.activeB).setB F.KEY_STAT_ROOT_VALID s.keyRoot.isSome
  let s := s.setB F.KEY_STAT_PUF_VALID k.kprv.isSome
  let s := s.setB F.KEY_STAT_UPD_PEND k.upd.isSome
  let s := s.set F.KEY_STAT_UPD_TARGET ((k.upd.map fun u => u.target).getD 0)
  s.set F.KEY_STAT_UPD_GROUP ((k.upd.map fun u => if u.target == 1 then u.group else 0).getD 0)

/-- A slot as lookups by ingest and by the cascade find it: VALID or ORPHANED, with the session key identifier (R467); none
while KEY_CTRL.EN = 0. -/
def State.keyFind (s : State) (id : Nat) : Option (Nat × KeySlot) :=
  if s.flag F.KEY_CTRL_EN then
    s.keys.slots.find? fun p => p.2.keyId == id && p.2.type != 0 && decide (p.2.st ≠ .pending)
  else none

/-- A group's KEK in a state. -/
def State.kekIn (s : State) (g : Nat) (st : KeyState) : Option (Nat × KeySlot) :=
  s.keys.slots.find? fun p => p.2.type == 0 && p.2.group == g && decide (p.2.st = st)

/-- Stores a slot. -/
def State.putSlot (s : State) (n : Nat) (k : KeySlot) : State := s.modKeys fun x => { x with slots := mput x.slots n k }

/-- Frees a slot. -/
def State.freeSlot (s : State) (n : Nat) : State := s.modKeys fun x => { x with slots := merase x.slots n }

/-- A successful use of a VALID slot renews its lease (R469). -/
def State.keyRenew (s : State) (n : Nat) : State :=
  match mget s.keys.slots n with
  | some k => if k.st = .valid then s.putSlot n { k with leaseAt := s.now } else s
  | none => s

/-- A use of an ORPHANED slot is counted. -/
def State.keyOrphUse (s : State) : State := s.inc F.KEY_CNT_ORPHUSE_COUNT

/-- The misses logged in the last second, each of another KEY_ID. -/
def State.missRecent (s : State) : List (Nat × Nat) := s.keys.missLog.filter fun p => decide (s.now < p.2 + ticksOfS 1)

/-- A key identifier is not in the cache: counted, and logged at most once per KEY_ID per second and 16 times per second in
all (R470). -/
def State.keyMiss (s : State) (id sidx : Nat) : State :=
  let s := s.inc F.KEY_CNT_MISS_COUNT
  let l := s.missRecent
  if (mget l id).isSome || decide (16 ≤ l.length) then s
  else (s.modKeys fun k => { k with missLog := mput l id s.now }).ev Ev.KEY_MISS sidx [(32, id)]

/-! ### Blobs (R462, R465, R466) -/

/-- Bytes as numbers, for open functions. -/
def nums (b : List Byte) : List Nat := b.map BitVec.toNat

/-- The one message of the counter-mode KDF of SP 800-108: the 32-bit counter 1, label, 0x00, context, and L = 256 (R462). -/
def kdfMsg (label : String) (context : List Byte) : List Byte :=
  [0, 0, 0, 1] ++ label.toList.map (fun c => BitVec.ofNat 8 c.toNat) ++ [0] ++ context ++ [0, 0, 1, 0]

/-- A key derived from a root, with HMAC-SHA-256 as the PRF (R462). -/
def kdf (root : Nat) (label : String) (context : List Byte) : Nat :=
  Config.op "hmac-sha-256" (root :: nums (kdfMsg label context)) % 2 ^ 256

/-- KSEAL of a root and its generation, 4 bytes big-endian (R462). -/
def kseal (root brgen : Nat) : Nat := kdf root "DCR-SEAL" (toLe 4 brgen).reverse

/-- KPRV of the PUF root, for the unit's UID of 7 bytes (R462). -/
def kprvOf (puf : Nat) : Nat := kdf puf "DCR-PRV" (toLe 7 Config.uid)

/-- Does the unwrap's integrity check value match (RFC 3394). -/
def unwrapOk (kek : Nat) (wrapped : List Byte) : Bool := Config.op "aeskw.icv" (kek :: nums wrapped) % 2 == 1

/-- The 56 unwrapped bytes, little-endian as one number. -/
def unwrapped (kek : Nat) (wrapped : List Byte) : List Byte :=
  toLe 56 (Config.op "aeskw.unwrap" (kek :: nums wrapped))

/-- A blob's clear header and wrapped key (R465). -/
def makeBlob (wrapper type use group gen keyId brgen kek key : Nat) : List Byte :=
  let h := toLe 2 0x4B42 ++ toLe 1 1 ++ toLe 1 wrapper ++ toLe 1 type ++ toLe 1 use ++ toLe 1 group ++ [0] ++ toLe 2 gen ++
    [0, 0] ++ toLe 4 keyId ++ toLe 4 brgen ++ zeros 4
  h ++ toLe 64 (Config.op "aeskw.wrap" (kek :: nums (h ++ toLe 32 key))) ++ zeros 8

/-- Stage 10 checks of a blob's clear header, in ascending offset (R465, R466). -/
def blobFields (b : List Byte) (brgen gen : Nat) : Option Nat :=
  let w := le b 3 1
  let ty := le b 4 1
  firstFail [(le b 0 2 != 0x4B42, St.badParam), (le b 2 1 != 1, St.badParam),
    (!((w == 0 && ty == 0) || (w == 1 && ty == 0) || (w == 2 && 1 ≤ ty && ty ≤ 3)), St.badParam),
    (decide (3 < le b 5 1) || (ty == 0 && le b 5 1 != 0), St.badParam), (!zeroAt b 7 1, St.badParam),
    (decide (gen < le b 8 2), St.badParam), (!zeroAt b 10 2, St.badParam),
    ((ty == 0) != (le b 12 4 == 0), St.badParam),
    (if w == 0 then decide (brgen < le b 16 4) else !zeroAt b 16 4, St.badParam), (!zeroAt b 20 4, St.badParam),
    (!zeroAt b 88 8, St.badParam)]

/-- What unwrapping a blob answers. -/
inductive Unwrap where
  | bad (st : Nat) (icv : Bool)
  | ok (k : KeySlot)

/-- Checks and unwraps a blob under a key, for the BRGEN and GEN it must be bound to (R466). -/
def State.unwrapBlob (s : State) (b : List Byte) (kek brgen gen : Nat) (pend : Bool) : Unwrap :=
  match blobFields b brgen gen with
  | some st => .bad st false
  | none =>
    let wr := bytesAt b 24 64
    let u := unwrapped kek wr
    let ty := le b 4 1
    if !unwrapOk kek wr then .bad St.verifyFail true
    else if bytesAt u 0 24 != bytesAt b 0 24 || (ty == 2 && !zeroAt u 40 16) then .bad St.verifyFail false
    else if le b 8 2 < gen || (le b 3 1 == 0 && decide (le b 16 4 < brgen)) then .bad St.keyOrphaned false
    else .ok ⟨if pend then .pending else .valid, ty, le b 5 1, le b 6 1, le b 8 2, le b 12 4, le u 24 32, s.now⟩

/-- The BRGEN a sealed blob must be bound to: the prepared one for a pending load under TARGET 0. -/
def State.brgenFor (s : State) (pend : Bool) : Nat :=
  match pend, s.keys.upd with
  | true, some u => if u.target == 0 then u.brgen else s.get F.KEY_BRGEN_BRGEN
  | _, _ => s.get F.KEY_BRGEN_BRGEN

/-- The GEN a blob of group g must be bound to. -/
def State.genFor (s : State) (g : Nat) (pend : Bool) : Nat :=
  match pend, s.keys.upd with
  | true, some u => if u.target == 1 && u.group == g then u.gen else s.keyGen g
  | _, _ => s.keyGen g

/-- KSEAL for a sealed blob: of the prepared root for a pending load under TARGET 0. -/
def State.sealKey (s : State) (pend : Bool) : Option Nat :=
  match pend, s.keys.upd with
  | true, some u => if u.target == 0 then some (kseal u.root u.brgen)
      else s.keyRoot.map fun r => kseal r (s.get F.KEY_BRGEN_BRGEN)
  | _, _ => s.keyRoot.map fun r => kseal r (s.get F.KEY_BRGEN_BRGEN)

/-- The slot that a loaded key replaces (R467, R468, R472). -/
def State.slotReplaced (s : State) (k : KeySlot) : Option Nat :=
  (s.keys.slots.find? fun p =>
    if k.type == 0 then p.2.type == 0 && p.2.group == k.group && decide (p.2.st = k.st)
    else p.2.type != 0 && p.2.keyId == k.keyId &&
      (if k.st = .pending then decide (p.2.st = .pending) else decide (p.2.st ≠ .pending))).map fun p => p.1

/-- The FREE slots. -/
def State.freeSlots (s : State) : List Nat := (List.range 512).filter fun n => (mget s.keys.slots n).isNone

/-- Puts a key into the cache: over the slot it replaces, else into a FREE slot, which one being a free choice. -/
def State.keyInsert (s : State) (k : KeySlot) : Option (Nat × State) :=
  match s.slotReplaced k with
  | some n => some (n, s.putSlot n k)
  | none =>
    let l := s.freeSlots
    if l.isEmpty then none
    else
      let n := (l[Config.free s.freeCtr % l.length]?).getD 0
      some (n, ({ s with freeCtr := s.freeCtr + 1 }).putSlot n k)

/-- The KEK that unwraps a group blob (R472). -/
def State.kekFor (s : State) (g : Nat) (pend : Bool) : Option KeySlot :=
  let v := (s.kekIn g .valid).map fun p => p.2
  if pend then ((s.kekIn g .pending).map fun p => p.2).or v else v

/-- A blob that fails R466. -/
def State.blobFail (s : State) (st : Nat) (icv : Bool) : CmdRes :=
  let s := s.inc F.KEY_CNT_VFAIL_COUNT
  ⟨st, [], if icv then s.ev0 Ev.KEY_VERIFY_FAIL else s⟩

/-- Loads a PARENT_ADDR blob: the sealed KEK of group g. -/
def State.loadParent (s : State) (b : List Byte) (g : Nat) (pend : Bool) : CmdRes ⊕ State :=
  match s.sealKey pend with
  | none => .inl (CmdRes.fail St.state s)
  | some ks =>
    if le b 3 1 != 0 || le b 6 1 != g then .inl (CmdRes.fail St.badParam s)
    else match s.unwrapBlob b ks (s.brgenFor pend) (s.genFor g pend) pend with
      | .bad st icv => .inl (s.blobFail st icv)
      | .ok k =>
        match s.keyInsert k with
        | none => .inl (CmdRes.fail St.noResource s)
        | some r => .inr (r.2.inc F.KEY_CNT_LOAD_COUNT)

/-- The VALID KEK of a group has been used: its lease is renewed (R469). -/
def State.kekRenew (s : State) (g : Nat) : State :=
  match s.kekIn g .valid with
  | some x => s.keyRenew x.1
  | none => s

/-! ### KEY_LOAD_BLOB, KEY_EVICT, KEY_INVALIDATE_PARENT, KEY_WRAP_NEW -/

/-- KEY_LOAD_BLOB (0x70): body. The buffer holds the blob and, where PARENT_ADDR is given, the parent blob after it. -/
def keyLoadBlobBody (r : Fn) (buf : HostRead) (issued : Bool) (p : List Byte) (s : State) : CmdRes :=
  let fl := le p 24 1
  let pend := bit fl 0
  let sealIt := bit fl 1
  let upd := s.keys.upd
  checked [(le p 8 8 % 8 != 0, St.badParam), (decide (3 < fl), St.badParam), (!zeroAt p 25 7, St.badParam),
      (!sealIt && !zeroAt p 32 8, St.badParam)] s
  (withBuf buf s fun b =>
    let w := le b 3 1
    let g := le b 6 1
    let scope := match upd with
      | none => false
      | some u => if u.target == 1 then u.group == g else w == 0
    checked [(w == 1 && s.flag F.KEY_CTRL_IMPORT_LOCK, St.denied),
        ((pend && !scope) || (w == 0 && (s.sealKey pend).isNone) || (w == 1 && s.keys.kprv.isNone) ||
          (sealIt && s.keyRoot.isNone), St.state),
        (sealIt && le b 4 1 != 0, St.badParam)] s
    (let parent := bytesAt b 96 96
     let wantParent := w == 2 && le p 16 8 != 0 &&
       (if pend then (s.kekIn g .pending).isNone else (s.kekIn g .valid).isNone)
     match (if wantParent then s.loadParent parent g pend else .inr s) with
     | .inl c => c
     | .inr t =>
       let kek : Nat ⊕ Nat := if w == 0 then (match t.sealKey pend with | some k => .inr k | none => .inl St.state)
         else if w == 1 then (match t.keys.kprv with | some k => .inr k | none => .inl St.state)
         else match t.kekFor g pend with
           | some k => .inr k.key
           | none => .inl (if (t.kekIn g .orphaned).isSome then St.keyOrphaned else St.keyMissing)
       match kek with
       | .inl st => CmdRes.fail st s
       | .inr k =>
         match t.unwrapBlob b k (t.brgenFor pend) (t.genFor g pend) pend with
         | .bad st icv => s.blobFail st icv
         | .ok slot =>
           match t.keyInsert slot with
           | none => CmdRes.fail St.noResource s
           | some x =>
             let u := (x.2.inc F.KEY_CNT_LOAD_COUNT).keySync
             let u := if w == 2 && !(pend && (t.kekIn g .pending).isSome) then u.kekRenew g else u
             let res := toLe 2 x.1 ++ zeros 2 ++ toLe 4 slot.keyId
             if sealIt then
               let root := (u.keyRoot).getD 0
               let bg := u.get F.KEY_BRGEN_BRGEN
               withWrite issued r s
                 ⟨St.ok, res, u.dma r (le p 32 8) (makeBlob 0 0 0 slot.group slot.gen 0 bg (kseal root bg) slot.key)⟩
             else ⟨St.ok, res, u⟩))

/-- KEY_LOAD_BLOB (R466, R472). -/
def execKeyLoadBlob (r : Fn) (buf : HostRead) (issued : Bool) (s : State) : Result :=
  (s.plain r 0x70 40 false (fun _ => true) (keyLoadBlobBody r buf issued)).done

/-- KEY_EVICT (0x71): body. -/
def keyEvictBody (p : List Byte) (s : State) : CmdRes :=
  let mode := le p 8 1
  let g := le p 9 1
  checked [(decide (3 < mode), St.badParam), ((mode == 0 || mode == 3) && g != 0, St.badParam), (!zeroAt p 10 2, St.badParam),
      (mode != 0 && !zeroAt p 12 4, St.badParam)] s
  (let hit (k : KeySlot) : Bool := decide (k.st ≠ .pending) && (
      if mode == 0 then k.type != 0 && k.keyId == le p 12 4
      else if mode == 1 then k.type == 0 && k.group == g
      else if mode == 2 then k.group == g
      else true)
   let n := (s.keys.slots.filter fun x => hit x.2).length
   let t := (s.modKeys fun k => { k with slots := k.slots.filter fun x => !hit x.2 }).keySync
   ⟨St.ok, toLe 2 n, t⟩)

/-- KEY_EVICT (R467). -/
def execKeyEvict (r : Fn) (s : State) : Result := (s.plain r 0x71 16 false (fun _ => true) keyEvictBody).done

/-- Every VALID slot of a group that `keep` does not spare becomes ORPHANED; answers how many. -/
def State.orphanGroup (s : State) (g : Nat) (keep : Nat → Bool) : Nat × State :=
  let hit (x : Nat × KeySlot) : Bool := x.2.group == g && decide (x.2.st = .valid) && !keep x.1
  let n := (s.keys.slots.filter hit).length
  let o (x : Nat × KeySlot) : Nat × KeySlot := if hit x then (x.1, { x.2 with st := .orphaned }) else x
  (n, s.modKeys fun k => { k with slots := k.slots.map o })

/-- KEY_INVALIDATE_PARENT (0x72): body. -/
def keyInvalidateBody (p : List Byte) (s : State) : CmdRes :=
  let g := le p 8 1
  let busy := (s.keys.upd.map fun u => u.target == 1 && u.group == g).getD false
  checked [(!zeroAt p 9 7, St.badParam), (busy, St.busy), (s.keyGen g == 0xFFFF, St.noResource)] s
  (let gen := s.keyGen g + 1
   let t := s.modKeys fun k => { k with gens := mput k.gens g gen }
   let o := t.orphanGroup g fun _ => false
   ⟨St.ok, toLe 2 gen ++ toLe 2 o.1, (o.2.ev Ev.KEY_ORPHANED 0 [(8, g), (16, gen), (16, o.1)]).keySync⟩)

/-- KEY_INVALIDATE_PARENT (R471). -/
def execKeyInvalidateParent (r : Fn) (s : State) : Result :=
  (s.plain r 0x72 16 false (fun _ => true) keyInvalidateBody).done

/-- KEY_WRAP_NEW (0x73): body. The key comes from the internal random source: a free value. -/
def keyWrapNewBody (r : Fn) (issued : Bool) (p : List Byte) (s : State) : CmdRes :=
  let g := le p 8 1
  let ty := le p 9 1
  checked [(ty == 0 || decide (3 < ty), St.badParam), (le p 10 1 == 0 || decide (3 < le p 10 1), St.badParam),
      (decide (1 < le p 11 1), St.badParam), (le p 12 4 == 0, St.badParam),
      ((s.kekIn g .valid).isNone, if (s.kekIn g .orphaned).isSome then St.keyOrphaned else St.keyMissing)] s
  (let f := s.fresh
   let key := f.1 % 2 ^ (if ty == 2 then 128 else 256)
   let t := f.2
   let kek := ((t.kekIn g .valid).map fun x => x.2.key).getD 0
   let slot : KeySlot := ⟨.valid, ty, le p 10 1, g, t.keyGen g, le p 12 4, key, t.now⟩
   let out (u : State) : State := u.dma r (le p 16 8) (makeBlob 2 ty slot.use g slot.gen slot.keyId 0 kek key)
   if bit (le p 11 1) 0 then
     match t.keyInsert slot with
     | none => CmdRes.fail St.noResource s
     | some x => withWrite issued r s ⟨St.ok, [], out (x.2.kekRenew g).keySync⟩
   else withWrite issued r s ⟨St.ok, [], out (t.kekRenew g)⟩)

/-- KEY_WRAP_NEW (R464). -/
def execKeyWrapNew (r : Fn) (issued : Bool) (s : State) : Result :=
  (s.plain r 0x73 24 false (fun _ => true) (keyWrapNewBody r issued)).done

/-! ### KEY_UPDATE (R472, R473) -/

/-- Which KEY_UPDATE packets a row takes: its OP; an OP above 3 is answered by the row of BEGIN. -/
def updOp (n : Nat) (b : List Byte) : Bool := le b 8 1 == n || (n == 0 && decide (3 < le b 8 1))

/-- Stage 6 of KEY_UPDATE. -/
def updParams (p : List Byte) : List (Bool × Nat) :=
  let rew := le p 8 1 == 1
  [(decide (3 < le p 8 1), St.badParam), (decide (1 < le p 9 1), St.badParam),
   (le p 9 1 == 0 && le p 10 1 != 0, St.badParam), (!zeroAt p 11 5, St.badParam), (!rew && !zeroAt p 16 8, St.badParam),
   (!rew && !zeroAt p 24 8, St.badParam)]

/-- RESULT of KEY_UPDATE. -/
def updResult (brgen gen : Nat) : List Byte := toLe 4 brgen ++ toLe 2 gen

/-- Do TARGET and GROUP name the prepared update. -/
def State.updMatches (s : State) (p : List Byte) : Bool :=
  match s.keys.upd with
  | none => false
  | some u => u.target == le p 9 1 && (u.target == 0 || u.group == le p 10 1)

/-- The prepared value is cleared, PENDING slots are freed and the record becomes IDLE. -/
def State.updDrop (s : State) : State :=
  (s.modKeys fun k => { k with upd := none, slots := k.slots.filter fun x => decide (x.2.st ≠ .pending) }).keySync

/-- BEGIN: body. A tamper source at level 2 present now is a free choice (notes/assumptions/27.md). -/
def keyUpdateBeginBody (p : List Byte) (s : State) : CmdRes :=
  let lvl2 := (List.range 10).any fun i => decide (2 ≤ bits (s.get F.KEY_TAMP_CFG_LEVEL) (2 * i + 1) (2 * i))
  let f := s.fresh
  let s := if lvl2 then f.2 else s
  checked (updParams p ++ [(lvl2 && f.1 % 2 == 1, St.state), (s.keys.upd.isSome, St.busy),
      (le p 9 1 == 1 && s.keyGen (le p 10 1) == 0xFFFF, St.noResource)]) s
  (let bg := s.get F.KEY_BRGEN_BRGEN
   if le p 9 1 == 0 then
     let x := s.fresh
     let root := x.1 % 2 ^ 256
     let t := x.2.modKeys fun k => { k with upd := some ⟨0, 0, root, bg + 1, 0⟩ }
     ⟨St.ok, updResult (bg + 1) 0, t.keySync⟩
   else
     let g := le p 10 1
     ⟨St.ok, updResult bg (s.keyGen g + 1), (s.modKeys fun k => { k with
       upd := some ⟨1, g, 0, bg, s.keyGen g + 1⟩ }).keySync⟩)

/-- KEY_UPDATE_BEGIN. -/
def execKeyUpdateBegin (r : Fn) (s : State) : Result := (s.plain r 0x74 32 false (updOp 0) keyUpdateBeginBody).done

/-- REWRAP: body. -/
def keyUpdateRewrapBody (r : Fn) (buf : HostRead) (issued : Bool) (p : List Byte) (s : State) : CmdRes :=
  let t0 := (s.keys.upd.map fun u => u.target == 0).getD false
  checked (updParams p ++ [(!s.updMatches p || !t0 || s.keyRoot.isNone, St.state)]) s
  (withBuf buf s fun b =>
    let bg := s.get F.KEY_BRGEN_BRGEN
    let g := le b 6 1
    if le b 3 1 != 0 then CmdRes.fail St.badParam s
    else match s.unwrapBlob b (kseal ((s.keyRoot).getD 0) bg) bg (s.keyGen g) false with
      | .bad st icv => s.blobFail st icv
      | .ok k =>
        match s.keys.upd with
        | none => CmdRes.fail St.state s
        | some u =>
          withWrite issued r s ⟨St.ok, updResult u.brgen 0, s.dma r (le p 24 8)
            (makeBlob 0 0 0 g k.gen 0 u.brgen (kseal u.root u.brgen) k.key)⟩)

/-- KEY_UPDATE_REWRAP. -/
def execKeyUpdateRewrap (r : Fn) (buf : HostRead) (issued : Bool) (s : State) : Result :=
  (s.plain r 0x74 32 false (updOp 1) (keyUpdateRewrapBody r buf issued)).done

/-- The clock after the commit point: every PENDING slot becomes VALID; what it replaces goes (R472). Answers the slots that
were made VALID or took new content. -/
def State.pendingToValid (s : State) (target : Nat) : List Nat × State :=
  (s.keys.slots.filter fun x => decide (x.2.st = .pending)).foldl (fun (acc : List Nat × State) x =>
    let t := acc.2
    let v := { x.2 with st := KeyState.valid }
    let repl := if x.2.type == 0 then (if target == 0 then (t.kekIn x.2.group .valid).map fun y => y.1 else none)
      else (t.keys.slots.find? fun y => y.2.type != 0 && y.2.keyId == x.2.keyId && decide (y.2.st ≠ .pending)).map fun y => y.1
    match repl with
    | some n => (acc.1 ++ [n], (t.freeSlot x.1).putSlot n v)
    | none => (acc.1 ++ [x.1], t.putSlot x.1 v)) ([], s)

/-- COMMIT: body. -/
def keyUpdateCommitBody (p : List Byte) (s : State) : CmdRes :=
  checked (updParams p ++ [(!s.updMatches p, St.state), (s.flag F.PWR_STAT_PFW, St.aborted)]) s
  (match s.keys.upd with
   | none => CmdRes.fail St.state s
   | some u =>
     let r := s.pendingToValid u.target
     let t := r.2.modKeys fun k => { k with upd := none }
     if u.target == 0 then
       -- with no valid root, BEGIN and COMMIT create one in slot A
       let new := t.keyRoot.isNone
       let t := (t.modKeys fun k =>
         if new || k.activeB then { k with rootA := some u.root, rootB := none, activeB := false }
         else { k with rootB := some u.root, rootA := none, activeB := true }).set F.KEY_BRGEN_BRGEN u.brgen
       let t := if new then t.ev0 Ev.KEY_ROOT_NEW else t
       ⟨St.ok, updResult u.brgen 0, (t.ev0 Ev.KEY_UPDATE_COMMIT).keySync⟩
     else
       let t := t.modKeys fun k => { k with gens := mput k.gens u.group u.gen }
       let o := t.orphanGroup u.group fun n => r.1.contains n
       ⟨St.ok, updResult (s.get F.KEY_BRGEN_BRGEN) u.gen, (o.2.ev0 Ev.KEY_UPDATE_COMMIT).keySync⟩)

/-- KEY_UPDATE_COMMIT. -/
def execKeyUpdateCommit (r : Fn) (s : State) : Result := (s.plain r 0x74 32 false (updOp 2) keyUpdateCommitBody).done

/-- ABORT: body. -/
def keyUpdateAbortBody (p : List Byte) (s : State) : CmdRes :=
  checked (updParams p ++ [(!s.updMatches p, St.state)]) s
  (match s.keys.upd with
   | none => CmdRes.fail St.state s
   | some u => ⟨St.ok, updResult u.brgen u.gen, (s.updDrop).ev0 Ev.KEY_UPDATE_ABORT⟩)

/-- KEY_UPDATE_ABORT. -/
def execKeyUpdateAbort (r : Fn) (s : State) : Result := (s.plain r 0x74 32 false (updOp 3) keyUpdateAbortBody).done

/-! ### Leases and tamper (R469, R474 to R476) -/

/-- KEY_LEASE_EXPIRY (R469): the slot's lease is over; streams whose key was orphaned in it go to missing key. -/
def execKeyLeaseExpiry (slot : Nat) (s : State) : Result :=
  match mget s.keys.slots slot with
  | none => s.done
  | some k =>
    let l := s.get F.KEY_LEASE_S
    if l == 0 then s.done
    else
      let s := s.reach (k.leaseAt + ticksOfS l)
      let s := (((s.freeSlot slot).ev Ev.LEASE_EXPIRED 0 [(32, 8), (9, slot)]).raise 101).keySync
      let s := if k.st = .orphaned && k.type != 0 then
          s.ing.stat.foldl (fun s p =>
            if p.2.auth == 2 && p.2.keyId == some k.keyId then
              (s.setStat p.1 { p.2 with auth := 3 }).ev Ev.ING_KEY_MISSING p.1 []
            else s) s
        else s
      s.done

/-- Zeroisation (R476). -/
def State.zeroise (s : State) : State :=
  let upd := s.keys.upd.isSome
  let s := s.modKeys fun k => { k with slots := [], rootA := none, rootB := none, activeB := false, kprv := none, upd := none }
  let s := if upd then s.ev0 Ev.KEY_UPDATE_ABORT else s
  let s := { s with twn := { s.twn with zeroed := true } }
  ((s.setB F.KEY_STAT_ZEROED true).ev0 Ev.KEY_ZEROISED).keySync

/-! ### The sources of the tamper logic (R474, R475) -/

/-- AON periods (of 30.5 µs, 32 768 in a second) over since the AON reset. -/
def State.aonPeriods (s : State) : Nat := (s.now - s.keys.aonFrom) / 15000

/-- The bit that mesh k drives in an AON period, counted from the AON reset: an LFSR with the polynomial x^16 + x^14 + x^13 + x^11 + 1 and
a seed of its own (R475); which form it has and which of its bits drives is open (notes/assumptions/128.md). -/
def meshBit (k i : Nat) : Bool :=
  bit ((List.range (i % 65535)).foldl (fun x _ => lfsrNext (Config.op "mesh.form" []) 16 0x6801 x) (if k == 0 then 0xACE1 else 0x1D2B))
    (Config.op "mesh.out" [] % 16)

/-- The level of MESH_DRV[k]: low while the mesh is not enabled (R475). -/
def State.meshDrv (s : State) (k : Nat) : Bool := bit (s.get F.KEY_MESH_EN) k && meshBit k s.aonPeriods

/-- Consecutive AON periods that a source must show: FILT of a pin, MISS of a mesh. -/
def State.tamperRun (s : State) (src : Nat) : Nat :=
  if src < 4 then bits (s.get F.KEY_TAMP_PIN_FILT) (4 * src + 3) (4 * src) else s.get F.KEY_MESH_MISS

/-- Is a source detected, where a pin or a mesh sense had these levels at the ends of the last AON periods, oldest first: a pin at its
active level in all of them, a mesh sense that differs from the driven bit in all of them since the mesh was enabled (R474). The other
sources' conditions lie outside the digital part: their row says that they hold. -/
def State.tamperSeen (s : State) (src : Nat) (levels : List Bool) : Bool :=
  let n := s.tamperRun src
  if src < 4 then levels.length == n && levels.all fun v => v == bit (s.get F.KEY_TAMP_PIN_TAMP_POL) src
  else if src < 6 then
    let k := src - 4
    let p := s.aonPeriods
    let on := ceilDiv (mgetD s.keys.meshOn k s.keys.aonFrom - s.keys.aonFrom) 15000
    bit (s.get F.KEY_MESH_EN) k && levels.length == n && decide (on + n ≤ p) &&
      levels.zipIdx.all fun v => v.1 != meshBit k (p - n + v.2)
  else true

/-- TAMPER_DETECT (R476): a source whose level is not 0 is detected. -/
def execTamperDetect (src : Fin 10) (levels : List Bool) (s : State) : Result :=
  let lv := bits (s.get F.KEY_TAMP_CFG_LEVEL) (2 * src + 1) (2 * src)
  if lv == 0 || decide (s.boot.phase = .off) || !s.tamperSeen src levels then s.done
  else
    let s := s.setB ⟨R.KEY_TAMP_LATCH, src, src⟩ true
    let s := s.set F.KEY_TAMP_RTC_SEC s.rtc
    let s := s.ev Ev.KEY_TAMPER 0 [(10, 2 ^ src.val), (32, s.rtc)]
    (if 2 ≤ lv then s.zeroise else s).done

end Sys2Proof.Machine
end

