-- ==== Sys2Proof/Machine/Ingest.lean ====
section
/-!
DEFINITION. Sys2Proof/Machine/Ingest.lean: stream ingest: datagram and frame checks, stream lookup over epoch boundaries,
authentication, slot windows, the tally record, the injection ring, configuration frames (R72 to R99, R536).
-/
namespace Sys2Proof.Machine

/-! ### Datagrams (R80 step 1) -/

/-- Is the UDP port listed in ING_UDPPORT_n; with the SESSION bit of the entry that lists it. -/
def State.udpListed (s : State) (port : Nat) : Option Bool :=
  if port == 0 then none
  else (List.range 8).findSome? fun n =>
    if s.get ⟨0x30010 + 4 * n, 15, 0⟩ == port then some (s.flag ⟨0x30010 + 4 * n, 16, 16⟩) else none

/-- Where a UDP header starts in an IP packet, by its version and header length. -/
def udpOfs (p : List Byte) : Nat := if le p 0 1 / 16 == 6 then 40 else le p 0 1 % 16 * 4

/-- UDP destination port as the packet has it. -/
def udpDport (p : List Byte) : Nat := be p (udpOfs p + 2) 2

/-- Source address as 128 bits (R76). -/
def ipSrc (p : List Byte) : Nat := if le p 0 1 / 16 == 6 then be p 8 16 else 0xFFFF * 2 ^ 32 + be p 12 4

/-- The checks of step 1: header checksum, no fragmentation, no extension headers, consistent lengths, UDP checksum. -/
def ipOk (p : List Byte) : Bool :=
  let v := le p 0 1 / 16
  let o := udpOfs p
  let ulen := be p (o + 4) 2
  let udp := bytesAt p o ulen
  if v == 4 then
    let total := be p 2 2
    let pseudo := bytesAt p 12 8 ++ toBe 2 17 ++ toBe 2 ulen
    decide (20 ≤ o) && onesSum (bytesAt p 0 o) == 0xFFFF && be p 6 2 % 0x4000 == 0 && le p 9 1 == 17 &&
      decide (total ≤ p.length) && total == o + ulen && decide (8 ≤ ulen) &&
      (be p (o + 6) 2 == 0 || onesSum (pseudo ++ udp) == 0xFFFF)
  else if v == 6 then
    let pseudo := bytesAt p 8 32 ++ toBe 4 ulen ++ toBe 4 17
    le p 6 1 == 17 && decide (40 + be p 4 2 ≤ p.length) && be p 4 2 == ulen && decide (8 ≤ ulen) &&
      be p (o + 6) 2 != 0 && onesSum (pseudo ++ udp) == 0xFFFF
  else false

/-- The UDP data. -/
def udpData (p : List Byte) : List Byte := let o := udpOfs p; bytesAt p (o + 8) (be p (o + 4) 2 - 8)

/-! ### C37.118 frames (R80 steps 3 and 4, R81) -/

/-- Frame type of a C37.118 frame. -/
def c37Type (f : List Byte) : Nat := bits (le f 1 1) 6 4

/-- Step 3: SYNC, version, frame type, FRAMESIZE. A frame shorter than the 16 bytes of C37.118's smallest frame has no CHK to go on to and
fails here (notes/assumptions/111.md). -/
def c37Ok (f : List Byte) : Bool :=
  let b1 := le f 1 1
  let v := bits b1 3 0
  le f 0 1 == 0xAA && !bit b1 7 && (v == 1 || v == 2) &&
    (decide (c37Type f ≤ 4) || (v == 2 && c37Type f == 5)) && decide (16 ≤ f.length) && be f 2 2 != 0 && be f 2 2 == f.length

/-- Step 4: CHK. -/
def c37Crc (f : List Byte) : Bool := crcCcitt (f.take (f.length - 2)) == be f (f.length - 2) 2

/-! ### Tags, slots, entries in effect (R85, R87, R89) -/

/-- NS of a fraction (R89). -/
def nsOf (frac tb : Nat) : Nat := (frac * 1000000000 + tb / 2) / max tb 1

/-- Does a tag lie at or after B, its fraction read with a TIME_BASE (R87). -/
def atOrAfter (b : Nat × Nat) (soc frac tb : Nat) : Bool :=
  if soc < b.1 then false
  else if b.1 < soc then true
  else decide (tb ≤ frac) || decide (b.2 ≤ nsOf frac tb)

/-- On which footing an entry is matched (R87): the entry in effect, an entry kept for earlier tags, the entry of a boundary
still to come, one added later than the tag, or the one in effect for a tag whose own entry is no longer kept. -/
inductive Side where
  | now | old | pending | early | stale
  deriving DecidableEq, Repr

/-- An entry matched, on which footing, and for which tags it is in effect. -/
abbrev Match := Stream × Side × Span

/-- From an entry (in effect from `inB` on, `added` there if no entry came before it) back over the old entries kept, newest first, to the one
for a moment: `aft b e` says that it lies at or after the boundary b, with e as the old entry there or, where none is kept, the new one. `cur`
is the entry in effect, `til` the end of the entry's span (R87). -/
def entryBack (aft : Nat × Nat → Stream → Bool) (cur : Option Stream) :
    List OldEntry → Stream → Side → Option (Nat × Nat) → Bool → Option Nat → Option Match
  | [], e, sd, inB, added, til =>
    match inB with
    | none => some (e, sd, (0, til))
    | some b => if aft b e then some (e, sd, (ukey b, til))
      else if added then some (e, .early, Span.all) else cur.map fun c => (c, .stale, Span.all)
  | o :: rest, e, sd, inB, added, til =>
    match inB with
    | none => some (e, sd, (0, til))
    | some b =>
      if b = (o.bSoc, o.bNs) then
        if aft b o.entry then some (e, sd, (ukey b, til)) else entryBack aft cur rest o.entry .old o.inB o.added (some (ukey b))
      else if aft b e then some (e, sd, (ukey b, til))
      else if aft (o.bSoc, o.bNs) o.entry then
        (if added then some (e, .early, Span.all) else cur.map fun c => (c, .stale, Span.all))
      else entryBack aft cur rest o.entry .old o.inB o.added (some (ukey (o.bSoc, o.bNs)))

/-- The entry of a SIDX for a moment, by the entries in effect and those kept (R87). -/
def State.entryBy (s : State) (aft : Nat × Nat → Stream → Bool) (sidx : Nat) (til : Option Nat) : Option Match :=
  let eff := mget s.ing.streams.eff sidx
  let olds := mgetD s.ing.old sidx []
  match eff, olds with
  | some e, _ => let x := s.stat sidx; entryBack aft eff olds e .now x.inB x.added til
  | none, o :: rest =>
    if aft (o.bSoc, o.bNs) o.entry then none else entryBack aft none rest o.entry .old o.inB o.added (some (ukey (o.bSoc, o.bNs)))
  | none, [] => none

/-- The entry of a SIDX for a moment, over a boundary still pending (R87). -/
def State.entryAtMoment (s : State) (aft : Nat × Nat → Stream → Bool) (sidx : Nat) : Option Match :=
  match s.aln.bound, (if s.cmd.pregs.isSome then mget s.ing.streams.pend sidx else none) with
  | some b, some item =>
    match mget s.ing.streams.eff sidx, item with
    | some e, _ => if aft b e then item.map fun x => (x, Side.pending, (ukey b, none)) else s.entryBy aft sidx (some (ukey b))
    | none, some x =>
      if aft b x then some (x, Side.pending, (ukey b, none))
      else (s.entryBy aft sidx none).or (some (x, Side.early, Span.all))
    | none, none => s.entryBy aft sidx none
  | _, _ => s.entryBy aft sidx none

/-- The entry of a SIDX for a tag (R87); `tb` gives the time base in which the fraction counts. -/
def State.entryFor (s : State) (tb : Stream → Nat) (sidx soc frac : Nat) : Option Match :=
  s.entryAtMoment (fun b e => atOrAfter b soc frac (tb e)) sidx

/-- The entry of a SIDX that the last boundary at or before an arrival (TAI ns) put in effect (R81). -/
def State.entryArrived (s : State) (arrival sidx : Nat) : Option Stream :=
  match s.entryAtMoment (fun b _ => decide (s.taiOf b.1 b.2 ≤ arrival)) sidx with
  | some (e, sd, _) => if sd = .early || sd = .stale then none else some e
  | none => none

/-- Every SIDX that any copy of the stream table names, ascending. -/
def State.streamKeys (s : State) : List Nat :=
  ((s.ing.streams.eff.map fun p => p.1) ++ (s.ing.old.map fun p => p.1) ++
    (if s.cmd.pregs.isSome then s.ing.streams.pend.map fun p => p.1 else [])).foldl sadd []

/-- Does a network frame's key match an entry (R73, R75). -/
def Stream.keyIs (e : Stream) (addr port idcode : Nat) : Bool :=
  !bit e.flags 1 && e.addr == addr && e.udpPort == port && e.idcode == idcode

/-- Step 5: the entries that a frame's key and tag match. -/
def State.lookup (s : State) (addr port idcode soc frac : Nat) : List (Nat × Match) :=
  s.streamKeys.filterMap fun k =>
    match s.entryFor Stream.timeBase k soc frac with
    | some m => if m.1.keyIs addr port idcode then some (k, m) else none
    | none => none

/-- The entries that a frame's key matches whatever its tag, by the boundaries at or before its arrival (R81). -/
def State.lookupNow (s : State) (arrival addr port idcode : Nat) : List Nat :=
  s.streamKeys.filter fun k => ((s.entryArrived arrival k).map fun e => e.keyIs addr port idcode).getD false

/-! ### Discards (R80, R81, R98) -/

/-- Reasons of a discard. -/
inductive Why where
  | iphdr | session | malformed | crc | unknown | poison | disabled | auth | replay | format | future | stale | dup | nospace
  deriving DecidableEq, Repr

/-- The global counter of a reason. -/
def Why.cnt : Why → Fld
  | .iphdr => F.ING_CNT_IPHDR_COUNT
  | .session => F.ING_CNT_SESSION_COUNT
  | .malformed => F.ING_CNT_MALFORMED_COUNT
  | .crc => F.ING_CNT_CRC_COUNT
  | .unknown => F.ING_CNT_UNKNOWN_COUNT
  | .poison => F.ING_CNT_POISON_COUNT
  | .disabled => F.ING_CNT_DISABLED_COUNT
  | .auth => F.ING_CNT_AUTH_COUNT
  | .replay => F.ING_CNT_REPLAY_COUNT
  | .format => F.ING_CNT_FORMAT_COUNT
  | .future => F.ING_CNT_FUTURE_COUNT
  | .stale => F.ING_CNT_STALE_COUNT
  | .dup => F.ING_CNT_DUP_COUNT
  | .nospace => F.ING_CNT_NOSPACE_COUNT

/-- Which of the twelve per-stream counters a reason has (STREAM_STATS, offset 16). -/
def Why.idx : Why → Option Nat
  | .disabled => some 1
  | .session => some 2
  | .malformed => some 3
  | .crc => some 4
  | .auth => some 5
  | .replay => some 6
  | .format => some 7
  | .future => some 8
  | .stale => some 9
  | .dup => some 10
  | .nospace => some 11
  | .iphdr => none
  | .unknown => none
  | .poison => none

/-- The event of a reason. -/
def Why.event : Why → Option Nat
  | .session => some Ev.ING_AUTH_FAIL
  | .auth => some Ev.ING_AUTH_FAIL
  | .replay => some Ev.ING_REPLAY
  | .malformed => some Ev.ING_MALFORMED
  | .crc => some Ev.ING_MALFORMED
  | .format => some Ev.ING_FORMAT
  | .future => some Ev.ING_FUTURE
  | .nospace => some Ev.ING_NOSPACE
  | .poison => some Ev.ING_ENTRY_POISON
  | .iphdr => none
  | .unknown => none
  | .disabled => none
  | .stale => none
  | .dup => none

/-- A stream's counter of a reason advances, with the reason's event. -/
def State.chargeStream (s : State) (w : Why) (pd : Bool) (sidx : Nat) : State :=
  let s := match w.idx with
    | some i => s.modStatIn pd sidx fun x => { x with cnt := x.cnt.set i ((x.cnt[i]?).getD 0 + 1) }
    | none => s
  match w.event with
  | some e => s.ev e sidx []
  | none => s

/-- A discard of one block of a stream: both counters. -/
def State.discard (s : State) (w : Why) (pd : Bool) (sidx : Nat) : State := (s.inc w.cnt).chargeStream w pd sidx

/-- A discard at step 2, 3 or 4: the global counter once, every matching entry's counter; one event for each match, or one in
all where nothing matches. -/
def State.discardFrame (s : State) (w : Why) (matched : List Nat) : State :=
  let s := s.inc w.cnt
  if matched.isEmpty then
    match w.event with
    | some e => s.ev0 e
    | none => s
  else matched.foldl (fun s x => s.chargeStream w false x) s

/-! ### Authentication (R83, R84). The session layer's layout stands outside the spec: open functions. -/

/-- What step 2 finds. -/
inductive AuthRes where
  | plain
  | verified (keyId spdu group : Nat)
  | noKey (keyId : Nat)
  | orphaned (keyId : Nat)
  deriving DecidableEq, Repr

/-- Is the session header well formed, with one unencrypted C37.118.2 frame as its user data. -/
def sessOk (d : List Byte) : Bool := Config.op "session.ok" (nums d) % 2 == 1
/-- Its key identifier. -/
def sessKey (d : List Byte) : Nat := Config.op "session.keyId" (nums d) % 2 ^ 32
/-- Its SPDU number. -/
def sessSpdu (d : List Byte) : Nat := Config.op "session.spdu" (nums d) % 2 ^ 32
/-- Its user data. -/
def sessData (d : List Byte) : List Byte :=
  let o := Config.op "session.ofs" (nums d) % (d.length + 1)
  (d.drop o).take (Config.op "session.len" (nums d) % (d.length - o + 1))
/-- Does the tag computed with a key of a type equal the frame's, under the header's algorithm. -/
def sessTag (type key : Nat) (d : List Byte) : Bool := Config.op "session.tag" (type :: key :: nums d) % 2 == 1

/-- Step 2's outcome for a well-formed session; none is BAD_TAG (R83, R464). -/
def State.sessAuth (s : State) (d : List Byte) (sidx : Nat) : Option AuthRes × State :=
  let id := sessKey d
  match s.keyFind id with
  | none => (some (.noKey id), s.keyMiss id sidx)
  | some (n, k) =>
    if k.st = .orphaned then (some (.orphaned id), s.keyOrphUse)
    else if bit k.use 0 && sessTag k.type k.key d then (some (.verified id (sessSpdu d) k.group), s.keyRenew n)
    else (none, s)

/-- AUTH_STATE follows the outcome; becoming missing or orphaned is logged (R98). -/
def State.setAuth (s : State) (pd : Bool) (sidx v : Nat) : State :=
  if (s.statIn pd sidx).auth == v then s
  else
    let s := s.modStatIn pd sidx fun x => { x with auth := v }
    if v == 3 then s.ev Ev.ING_KEY_MISSING sidx []
    else if v == 2 then s.ev Ev.ING_KEY_ORPHANED sidx []
    else s

/-- Is an SPDU number fresh for the entry (R84). -/
def SStat.spduOk (x : SStat) (keyId spdu : Nat) : Bool :=
  if x.keyId != some keyId || x.spduHigh < spdu then true
  else if spdu == x.spduHigh then false
  else let d := x.spduHigh - spdu; decide (d ≤ 64) && !bit x.spduMap (d - 1)

/-- The SPDU window after an accepted frame. -/
def SStat.spduTake (x : SStat) (keyId spdu : Nat) : SStat :=
  if x.keyId != some keyId then { x with keyId := some keyId, spduHigh := spdu, spduMap := 0 }
  else if x.spduHigh < spdu then
    let d := spdu - x.spduHigh
    { x with spduHigh := spdu, spduMap := if 64 < d then 0 else (x.spduMap * 2 ^ d + 2 ^ (d - 1)) % 2 ^ 64 }
  else { x with spduMap := Nat.lor x.spduMap (2 ^ (x.spduHigh - spdu - 1)) }

/-- Step 8: accepted with or without UNAUTH, or the reason of the failure; and the AUTH_STATE that follows. -/
def authPolicy (e : Stream) (x : SStat) (a : AuthRes) : (Bool ⊕ Why) × Nat :=
  match a with
  | .plain => if bit e.flags 3 then (.inr .auth, 4) else (.inl false, 0)
  | .verified id spdu g =>
    if g != e.keyGroup then (.inr .auth, 4)
    else if x.spduOk id spdu then (.inl false, 1) else (.inr .replay, 4)
  | .noKey _ => (if bit e.flags 5 then .inl true else .inr .auth, 3)
  | .orphaned _ => (if bit e.flags 4 then .inl true else .inr .auth, 2)

/-! ### The slot window (R85) -/

/-- What step 12 finds: the window as it is after a commit, or the reason of the failure. -/
inductive WinRes where
  | accept (newest map : Nat) (reanchor : Bool)
  | fail (w : Why)

/-- Step 12. -/
def SStat.window (x : SStat) (slot : Nat) : WinRes :=
  match x.newest with
  | none => .accept slot 1 false
  | some n =>
    if 64 ≤ x.staleRun then .accept slot 1 true
    else if n < slot then .accept slot (if 64 ≤ slot - n then 1 else (x.map * 2 ^ (slot - n) + 1) % 2 ^ 64) false
    else if n - slot < 64 then
      if bit x.map (n - slot) then .fail .dup else .accept n (Nat.lor x.map (2 ^ (n - slot))) false
    else .fail .stale

/-! ### The tally record (R88 to R91) -/

/-- A scaled integer (R90): the product where float32 holds it, else one of the two floats beside it, which is open; open where SCALE is not
finite (notes/assumptions/46.md). -/
def scaleInt (i : Int) (scale : Nat) : Nat :=
  let pick := Config.op "scale" [(i + 65536).toNat, scale]
  if f32Finite scale then f32Either (i * f32Units scale) (2 ^ 149) pick else pick % 2 ^ 32

/-- A payload word of two values and a flag byte. -/
def valWord (a b fl : Nat) : SWord := sword (a % 2 ^ 32 * 2 ^ 40 + b % 2 ^ 32 * 2 ^ 8 + fl % 256)

/-- A phasor word (R90, R91): format bit 1 float, bit 0 polar. A polar phasor's parts are within 2 units in the last place of the exact ones. -/
def phasorWord (b : List Byte) (o fmt scale ua : Nat) : SWord :=
  let u := 16 * ua
  let miss := valWord f32NaN f32NaN (128 + u)
  if bit fmt 1 then
    let x := be b o 4
    let y := be b (o + 4) 4
    if f32IsNaN x || f32IsNaN y then miss
    else if bit fmt 0 then
      if f32Inf x || f32Inf y then valWord f32NaN f32NaN (64 + 32 + u)
      else
        let z := rectParts (f32Units x) (2 ^ 149) (turnOf (f32Units y) (2 ^ 149)) 2 (Config.op "polar.re" [x, y], Config.op "polar.im" [x, y])
        valWord z.1 z.2 (32 + u)
    else valWord x y ((if f32Inf x || f32Inf y then 64 else 0) + u)
  else
    let x := be b o 2
    let y := be b (o + 2) 2
    if bit fmt 0 then
      if y == 0x8000 then miss
      else
        let pick := (Config.op "polari.re" [x, y, scale], Config.op "polari.im" [x, y, scale])
        let z := if f32Finite scale then rectParts ((x : Int) * f32Units scale) (2 ^ 149) (turnOf (sext 16 y) 10000) 2 pick else pick
        valWord z.1 z.2 (32 + u)
    else if x == 0x8000 || y == 0x8000 then miss
    else valWord (scaleInt (sext 16 x) scale) (scaleInt (sext 16 y) scale) (32 + u)

/-- One value of a frequency or analog word: its pattern and the flags for value A: missing, non-finite, converted. -/
structure Val where
  v : Nat
  miss : Bool
  inf : Bool
  conv : Bool

/-- A float value as received. -/
def floatVal (x : Nat) : Val := if f32IsNaN x then ⟨f32NaN, true, false, false⟩ else ⟨x, false, f32Inf x, false⟩

/-- A word of two values (R91). -/
def pairWord (a b : Val) (absentB : Bool) (ua : Nat) : SWord :=
  valWord a.v b.v (128 * b2n a.miss + 64 * b2n a.inf + 32 * b2n (a.conv || b.conv) + 16 * ua + 8 * b2n b.miss + 4 * b2n b.inf +
    2 * b2n absentB)

/-- The frequency word (R90). A difference or product that float32 does not hold is one of the two floats beside it, which is open
(notes/assumptions/46.md). -/
def freqWord (b : List Byte) (o fmt fnom ua : Nat) : SWord :=
  if bit fmt 3 then
    let x := be b o 4
    let hz : Int := if fnom == 1 then 50 else 60
    let f := floatVal x
    let f := if f.miss || f.inf then f else { f with v := f32Either (f32Units x - hz * 2 ^ 149) (2 ^ 149) (Config.op "freq" [x, fnom]) }
    pairWord f (floatVal (be b (o + 4) 4)) false ua
  else
    let i (o den : Nat) : Val :=
      let x := be b o 2
      if x == 0x8000 then ⟨f32NaN, true, false, false⟩ else ⟨f32Either (sext 16 x) den (Config.op "freqi" [x, den]), false, false, true⟩
    pairWord (i o 1000) (i (o + 2) 100) false ua

/-- One analog value. -/
def analogVal (b : List Byte) (o fmt scale : Nat) : Val :=
  if bit fmt 2 then floatVal (be b o 4)
  else
    let x := be b o 2
    if x == 0x8000 then ⟨f32NaN, true, false, false⟩ else ⟨scaleInt (sext 16 x) scale, false, false, true⟩

/-- Words of a block in payload (R78). -/
def Stream.nwords (e : Stream) : Nat := e.phnmr + 1 + (e.annmr + 1) / 2 + (e.dgnmr + 3) / 4

/-- Bytes of a block in the frame, STAT included. -/
def Stream.blockLen (e : Stream) : Nat :=
  2 + e.phnmr * (if bit e.format 1 then 8 else 4) + (if bit e.format 3 then 8 else 4) +
    e.annmr * (if bit e.format 2 then 4 else 2) + 2 * e.dgnmr

/-- The digital words, four to a Sett word (R91). -/
def digitalWords (b : List Byte) (o n ua : Nat) : List SWord :=
  (List.range ((n + 3) / 4)).map fun w =>
    let slot (i : Nat) : Nat := if 4 * w + i < n then be b (o + 2 * (4 * w + i)) 2 else 0
    let used (i : Nat) : Nat := b2n (decide (4 * w + i < n))
    sword (slot 0 * 2 ^ 56 + slot 1 * 2 ^ 40 + slot 2 * 2 ^ 24 + slot 3 * 2 ^ 8 + 16 * ua + 8 * used 0 + 4 * used 1 +
      2 * used 2 + used 3)

/-- A record from a block of a data frame (R88). -/
def makeRecord (e : Stream) (sidx : Nat) (f : List Byte) (arrival soc ns tq : Nat) (unauth : Bool) : List SWord :=
  let ua := b2n unauth
  let o := e.blockOfs
  let psz := if bit e.format 1 then 8 else 4
  let asz := if bit e.format 2 then 4 else 2
  let fo := o + 2 + e.phnmr * psz
  let ao := fo + (if bit e.format 3 then 8 else 4)
  let go := ao + e.annmr * asz
  let an (i : Nat) : Val := if i < e.annmr then analogVal f (ao + i * asz) e.format ((e.scale[e.phnmr + i]?).getD 0)
    else ⟨0, false, false, false⟩
  [sword (h0 1 sidx e.nwords (be f o 2) arrival 0), sword (h1 soc ns tq)] ++
    ((List.range e.phnmr).map fun i => phasorWord f (o + 2 + i * psz) e.format ((e.scale[i]?).getD 0) ua) ++
    [freqWord f fo e.format e.fnom ua] ++
    ((List.range ((e.annmr + 1) / 2)).map fun i => pairWord (an (2 * i)) (an (2 * i + 1)) (decide (e.annmr ≤ 2 * i + 1)) ua) ++
    digitalWords f go e.dgnmr ua

/-! ### Committing (R80 steps 6 to 13, R92, R93) -/

/-- The end of a commit: counters, window, latency, configuration-change edge (R92, R93, R95). -/
def State.commitStats (s : State) (pd : Bool) (sidx soc ns arrival statBits newest map : Nat) (a : AuthRes) : State :=
  let s := s.inc64 R.ING_CNT_ACCEPT_LO R.ING_CNT_ACCEPT_HI
  let x := s.statIn pd sidx
  let edge := bit statBits 10 && x.bit10 == some false
  let s := s.modStatIn pd sidx fun x => { x with
    accepted := x.accepted + 1, newest := some newest, map := map, staleRun := 0
    newestTag := if x.newest.isSome && x.newest == some newest then x.newestTag else (soc, ns)
    lastArrival := arrival % 2 ^ 32, bit10 := some (bit statBits 10), cfgchg := x.cfgchg + b2n edge }
  let s := match a with
    | .verified id spdu _ => s.modStatIn pd sidx fun x => x.spduTake id spdu
    | _ => s
  let s := if edge then { s with ing := { s.ing with cfgDue := sadd s.ing.cfgDue sidx } } else s
  s.histAdd pd sidx ((arrival : Int) - (s.taiOf soc ns : Nat))

/-- Steps 11 to 13 and the commit, for a record whose words are given. A SIDX has one state: a frame that a kept old entry takes after a restart
(R536) is tested with, and counts in, the restarted window, SPDU state and counters, its slot at the old entry's rate
(notes/assumptions/112.md). -/
def State.commitBlock (s : State) (sidx : Nat) (m : Match) (soc ns arrival statBits : Nat) (ws : List SWord)
    (a : AuthRes) : State :=
  let e := m.1
  let sd := m.2.1
  let pd := decide (sd = .pending)
  let hz := s.get F.ING_CTRL_HORIZON
  if hz != 0 && s.tqCode != 0xF && decide (arrival + hz * 1000000 < s.taiOf soc ns) then s.discard .future pd sidx
  else
    let x := s.statIn pd sidx
    match (if sd = .stale then .fail .stale else x.window (slotOf (rateOf e.rate) soc ns)) with
    | .fail w =>
      let s := if sd = .stale then s
        else s.modStatIn pd sidx fun x => { x with staleRun := if w = .stale then x.staleRun + 1 else 0 }
      s.discard w pd sidx
    | .accept newest map re =>
      let r := s.place (s.classify sidx e.rate m.2.2 (soc, ns)) pd sidx e.rate (e.phnmr, e.annmr, e.dgnmr) arrival ws
      if r.1 then
        let s := r.2.commitStats pd sidx soc ns arrival statBits newest map a
        if re then s.ev Ev.ING_REANCHOR sidx [] else s
      else
        let s := r.2
        let s := if re then s else s.modStatIn pd sidx fun x => { x with staleRun := 0 }
        s.discard .nospace pd sidx

/-- Steps 6 to 13 for one matched block of a data frame. -/
def State.ingestBlock (s : State) (f : List Byte) (arrival : Nat) (a : AuthRes) (m : Nat × Match) : State :=
  let sidx := m.1
  let e := m.2.1
  let sd := m.2.2.1
  let pd := decide (sd = .pending)
  let soc := be f 6 4
  let frac := be f 11 3
  if s.cramPoisoned 0 sidx then s.discard .poison pd sidx
  else if !bit e.flags 0 || sd = .early then s.discard .disabled pd sidx
  else
    let p := authPolicy e (s.statIn pd sidx) a
    let s := s.setAuth pd sidx p.2
    match p.1 with
    | .inr w => s.discard w pd sidx
    | .inl ua =>
      let wait := bit e.flags 2 && !e.learned
      if !wait && decide (e.timeBase ≤ frac) then s.discard .malformed pd sidx
      else if wait || f.length != e.frameSize then
        let s := if bit e.flags 2 then { s with ing := { s.ing with cfgDue := sadd s.ing.cfgDue sidx } } else s
        s.discard .format pd sidx
      else
        let ns := nsOf frac e.timeBase
        s.commitBlock sidx m.2 soc ns arrival (be f e.blockOfs 2)
          (makeRecord e sidx f arrival soc ns (le f 10 1) ua) a

/-- A frame for the firmware: queued, at most 64 per port; one that finds the queue full is counted in FWDROP and logged
(R345, notes/assumptions/39.md). -/
def State.toFw (s : State) (x : FwFrame) : State :=
  if 64 ≤ (s.ing.fwq.filter fun y => y.port == x.port).length then
    if x.port < 5 then (s.macInc x.port 10).ev0 Ev.MAC_FWQ_DROP else s
  else { s with ing := { s.ing with fwq := s.ing.fwq ++ [x] } }

/-- A frame with an unknown key (step 5). -/
def State.unknown (s : State) (addr port idcode : Nat) : State :=
  let s := s.inc F.ING_CNT_UNKNOWN_COUNT
  let w (i : Nat) : Dword := BitVec.ofNat 32 (addr / 2 ^ (32 * i))
  let s := if s.flag F.ING_CTRL_UNK_CAP then
      (((((s.wr R.ING_UNK_A0 (w 0)).wr R.ING_UNK_A1 (w 1)).wr R.ING_UNK_A2 (w 2)).wr R.ING_UNK_A3 (w 3)).set
        F.ING_UNK_KEY_IDCODE idcode).set F.ING_UNK_KEY_PORT port
    else s
  s.ev Ev.ING_UNKNOWN 0 [(128, addr), (16, port), (16, idcode)]

/-- A datagram with the user data of its session in place of the session (R94): what the firmware sees of a 90-5 frame. -/
def sessPacket (p f : List Byte) : List Byte :=
  let o := udpOfs p
  p.take (o + 4) ++ toBe 2 (8 + f.length) ++ bytesAt p (o + 6) 2 ++ f

/-- Steps 3 to 13 for a network frame (R80, R81). -/
def State.ingestFrame (s : State) (d : RxDatagram) (f : List Byte) (a : AuthRes) : State :=
  let addr := ipSrc d.packet
  let port := udpDport d.packet
  let idc := be f 4 2
  let arrival := d.arrival / 2 ^ 40
  if !c37Ok f then s.discardFrame .malformed (s.lookupNow arrival addr port idc)
  else if !c37Crc f then s.discardFrame .crc (s.lookupNow arrival addr port idc)
  else if c37Type f != 0 then
    (s.inc F.ING_CNT_TOFW_COUNT).toFw ⟨d.port, 3, d.arrival, false, sessPacket d.packet f⟩
  else match s.lookup addr port idc (be f 6 4) (be f 11 3) with
    | [] => s.unknown addr port idc
    | ms => ms.foldl (fun s m => s.ingestBlock f arrival a m) s

/-- The whole check of a datagram from step 1 on. -/
def State.ingestDatagram (s : State) (d : RxDatagram) : State :=
  if !s.flag F.ING_CTRL_EN then s.inc F.ING_CNT_DISABLED_COUNT
  else if !ipOk d.packet then s.inc F.ING_CNT_IPHDR_COUNT
  else
    let data := udpData d.packet
    let addr := ipSrc d.packet
    let port := udpDport d.packet
    match s.udpListed port with
    | some true =>
      let f := sessData data
      let ms := s.lookupNow (d.arrival / 2 ^ 40) addr port (be f 4 2)
      let fail (s : State) : State := ms.foldl (fun s x => s.setAuth false x 4) (s.discardFrame .session ms)
      if !sessOk data then fail s
      else
        let r := s.sessAuth data ((ms.head?).getD 0)
        match r.1 with
        | none => fail r.2
        | some a => r.2.ingestFrame d f a
    | _ => s.ingestFrame d data .plain

/-- DATA_FRAME_INGEST (R80): the oldest datagram dispatched to ingest. -/
def execDataFrameIngest (s : State) : Result :=
  match s.ing.rxq with
  | [] => s.done
  | d :: rest => ({ s with ing := { s.ing with rxq := rest } }.ingestDatagram d).done

/-! ### The injection ring (R96, R97) -/

/-- The cascade member to which a SIDX is bound in an epoch (R249). -/
def State.casBoundAt (s : State) (tag sidx : Nat) : Option Nat :=
  (List.range 16).find? fun w =>
    1 ≤ w && s.egetAt tag (mbr F.CAS_MCFG_EN w) == 1 && decide (s.egetAt tag (mbr F.CAS_MBASE_SIDX_BASE w) ≤ sidx) &&
      decide (sidx < s.egetAt tag (mbr F.CAS_MBASE_SIDX_BASE w) + s.egetAt tag (mbr F.CAS_MCFG_NITEMS w))

/-- The cascade member to which a SIDX is bound now. -/
def State.casBound (s : State) (sidx : Nat) : Option Nat := s.casBoundAt (s.get F.CMD_EPOCH_EPOCH) sidx

/-- A write of ING_INJ_PROD: one that would pass CONS by more than SIZE is ignored (R97). -/
def State.injDoorbell (s : State) (v : Dword) : State :=
  let p := fval F.ING_INJ_PROD_PROD v
  if s.get F.ING_INJ_SIZE_SIZE < subMod 16 p (s.get F.ING_INJ_CONS_CONS) then s.ev0 Ev.ING_INJ_BAD
  else s.set F.ING_INJ_PROD_PROD p

/-- INJ_DOORBELL (R97). -/
def execInjDoorbell (a : Agent) (v : Dword) (s : State) : Result := (s.gate a R.ING_INJ_PROD fun s => s.injDoorbell v).done

/-- May the ring's next entry be fetched. -/
def State.injReady (s : State) : Bool :=
  s.flag F.ING_CTRL_INJ_EN && s.get F.ING_INJ_PROD_PROD != s.get F.ING_INJ_CONS_CONS && (s.pfn .pf0).bme

/-- The entry is finished: CONS moves on, and source 22 fires at IRQIDX. -/
def State.injDone (s : State) : State :=
  let c := s.get F.ING_INJ_CONS_CONS
  let s := s.set F.ING_INJ_CONS_CONS (c + 1)
  if c == s.get F.ING_INJ_IRQIDX_IDX then s.raise 22 else s

/-- The entry is skipped as INJBAD. -/
def State.injBad (s : State) : State := ((s.inc F.ING_CNT_INJBAD_COUNT).ev0 Ev.ING_INJ_BAD).injDone

/-- Does a SIDX name an entry with SRC_INJ = 1 in effect, kept or prepared (R75, R87). -/
def State.injNames (s : State) (sidx : Nat) : Bool :=
  let inj (e : Stream) : Bool := bit e.flags 1
  ((mget s.ing.streams.eff sidx).map inj).getD false || (mgetD s.ing.old sidx []).any (fun o => inj o.entry) ||
    (s.cmd.pregs.isSome && (((mget s.ing.streams.pend sidx).bind id).map inj).getD false)

/-- Is an entry's LEN and SIDX good (R96, R249). A SIDX whose entry with SRC_INJ = 1 is only kept for earlier tags or prepared for later ones
is good: the frame's tag decides (notes/assumptions/113.md). -/
def State.injEntryOk (s : State) (b : List Byte) : Bool :=
  let len := le b 8 2
  let sidx := le b 12 2
  decide (18 ≤ len) && decide (len ≤ 2048) && (s.casBound sidx).isNone && s.injNames sidx

/-- Steps 3 to 13 for an injected frame; false where the SIDX names no entry with SRC_INJ = 1 for the frame's tag, which skips the ring's entry
as INJBAD. An entry deleted for the tag leaves UNKNOWN, which has no address or port to name: both read 0 (notes/assumptions/113.md). -/
def State.ingestInjected (s : State) (sidx arrival : Nat) (f : List Byte) : Bool × State :=
  let mine := if ((s.entryArrived arrival sidx).map fun e => bit e.flags 1).getD false then [sidx] else []
  if !s.flag F.ING_CTRL_EN then (true, s.inc F.ING_CNT_DISABLED_COUNT)
  else if !c37Ok f then (true, s.discardFrame .malformed mine)
  else if !c37Crc f then (true, s.discardFrame .crc mine)
  else if c37Type f != 0 then
    (true, (s.inc F.ING_CNT_TOFW_COUNT).toFw ⟨5, 4, arrival * 2 ^ 40, false, toLe 2 sidx ++ f⟩)
  else match s.entryFor Stream.timeBase sidx (be f 6 4) (be f 11 3) with
    | none => (true, s.unknown 0 0 (be f 4 2))
    | some m => if bit m.1.flags 1 then (true, s.ingestBlock f arrival .plain (sidx, m)) else (false, s)

/-- INJ_ENTRY_FETCH (R97). -/
def execInjEntryFetch (entry frame : HostRead) (s : State) : Result :=
  if s.injReady then
    match entry with
    | .data b =>
      if s.injEntryOk b then
        match frame with
        | .data f =>
          let arrival := if bit (le b 10 2) 0 then le b 16 8 else s.taiNs
          let r := s.ingestInjected (le b 12 2) arrival (padTo (le b 8 2) f)
          (if r.1 then r.2.injDone else r.2.injBad).done
        | _ => s.injBad.done
      else s.injBad.done
    | _ => s.injBad.done
  else s.done

/-- INJ_FETCH_TIMEOUT (R97): the entry's fetch, or its frame's, got no completion within 1 ms. -/
def execInjFetchTimeout (entry : HostRead) (s : State) : Result :=
  match entry with
  | .data _ => (if s.injReady then (s.reach (s.now + ticksOfMs 1)).injBad else s).done
  | .poison => (if s.injReady then s.injBad else s).done
  | .timeout => (if s.injReady then (s.reach (s.now + ticksOfMs 1)).injBad else s).done

/-! ### Configuration frames (R94, R95) -/

/-- Length of one PMU's part of a CFG-2 frame from its STN field (C37.118.2, notes/assumptions/38.md). -/
def cfg2Len (f : List Byte) (o : Nat) : Nat :=
  let ph := be f (o + 20) 2
  let an := be f (o + 22) 2
  let dg := be f (o + 24) 2
  26 + 16 * (ph + an + 16 * dg) + 4 * (ph + an + dg) + 4

/-- The offsets of the PMU parts of a CFG-2 frame. -/
def cfg2Parts (f : List Byte) : Nat → Nat → List Nat
  | 0, _ => []
  | n + 1, o => o :: cfg2Parts f n (o + cfg2Len f o)

/-- The format that a CFG-2 frame gives the block of a stream entry (R77). -/
def learnCfg2 (e : Stream) (f : List Byte) : Stream :=
  let n := be f 18 2
  let parts := cfg2Parts f n 20
  let fill (o : Nat) : Stream :=
    let ph := be f (o + 20) 2
    let an := be f (o + 22) 2
    let dg := be f (o + 24) 2
    let uo := o + 26 + 16 * (ph + an + 16 * dg)
    let phs := (List.range ph).map fun i => f32Round (be f (uo + 4 * i + 1) 3) 100000
    let ans := (List.range an).map fun i => Config.op "cfg2.anunit" [be f (uo + 4 * (ph + i)) 4] % 2 ^ 32
    { e with format := be f (o + 18) 2 % 16, fnom := be f (uo + 4 * (ph + an + dg)) 2 % 2, phnmr := ph, annmr := an, dgnmr := dg,
             nblocks := n, timeBase := be f 15 3, scale := phs ++ ans }
  let lens := parts.map fun o => (fill o).blockLen
  let mine := fill ((parts[e.block]?).getD 20)
  { mine with blockOfs := 14 + (lens.take e.block).foldl (· + ·) 0, frameSize := 16 + lens.foldl (· + ·) 0,
              learned := true, fresh := false }

/-- The format that a CFG-3 frame gives: its layout stands outside the spec, so every learned field is open. -/
def learnCfg3 (e : Stream) (f : List Byte) : Stream :=
  let g (t : String) (m : Nat) : Nat := Config.op t (e.block :: nums f) % m
  let ph := g "cfg3.phnmr" 63
  let an := g "cfg3.annmr" 64
  { e with format := g "cfg3.format" 16, fnom := g "cfg3.fnom" 2, phnmr := ph, annmr := an, dgnmr := g "cfg3.dgnmr" 64,
           nblocks := g "cfg3.nblocks" 256, blockOfs := g "cfg3.blockOfs" 65536, frameSize := g "cfg3.frameSize" 65536,
           timeBase := g "cfg3.timeBase" (2 ^ 24),
           scale := (List.range (ph + an)).map fun i => Config.op "cfg3.scale" (i :: e.block :: nums f) % 2 ^ 32,
           learned := true, fresh := false }

/-- Is a learned entry one that R78 allows. -/
def Stream.shapeOk (e : Stream) : Bool :=
  decide (e.nwords ≤ 63) && decide (e.block < e.nblocks) && decide (14 ≤ e.blockOfs) &&
    decide (e.blockOfs + e.blockLen + 2 ≤ e.frameSize) && decide (0 < e.timeBase) && decide (e.phnmr ≤ 62)

/-- A CFG-2 or CFG-3 frame fills the LEARN entries it matches, at the next instant boundary; where the host has written an
entry's shadow since the last commit, the learned format is discarded (R94, R95). A usable format ends a request for one that is still due
(notes/assumptions/114.md). -/
def State.learnFrame (s : State) (f : List Byte) (sidxs : List Nat) : State :=
  sidxs.foldl (fun s k =>
    match mget s.ing.streams.eff k with
    | none => s
    | some e =>
      if !bit e.flags 2 then s
      else
        let x := if c37Type f == 3 then learnCfg2 e f else learnCfg3 e f
        if s.ing.streams.dirty.contains k then s.ev Ev.ING_CFG_CONFLICT k []
        else if x.shapeOk then { s with ing := { s.ing with learnNext := mput s.ing.learnNext k x, cfgDue := sdel s.ing.cfgDue k } }
        else s) s

/-- The entries in effect that a configuration frame's key matches (R94). -/
def State.lookupEff (s : State) (addr port idcode : Nat) : List Nat :=
  (s.ing.streams.eff.filter fun p => p.2.keyIs addr port idcode).map fun p => p.1

/-- CFG_FRAME_RX (R94): the firmware takes the oldest configuration, header or command frame in its queue. Command frames for
the output groups are OUT_CMD_FRAME_RX's. -/
def execCfgFrameRx (s : State) : Result :=
  let isCfg (x : FwFrame) : Bool :=
    (x.kind == 3 && c37Type (udpData x.bytes) != 4) || (x.kind == 4)
  match s.ing.fwq.find? isCfg with
  | none => s.done
  | some x =>
    if s.fwRuns then
      let s := { s with ing := { s.ing with fwq := s.ing.fwq.erase x } }
      let f := if x.kind == 4 then x.bytes.drop 2 else udpData x.bytes
      let ks := if x.kind == 4 then [le x.bytes 0 2]
        else s.lookupEff (ipSrc x.bytes) (udpDport x.bytes) (be f 4 2)
      (if c37Type f == 3 || c37Type f == 5 then s.learnFrame f ks else s).done
    else s.done

/-- A C37.118.2 command frame (R95, R241): version 2, time of sending, CHK. -/
def State.cmdFrame (s : State) (idcode cmd : Nat) : List Byte :=
  let u := s.utcOf s.taiNs
  let b := toBe 2 0xAA42 ++ toBe 2 18 ++ toBe 2 idcode ++ toBe 4 u.1 ++ toBe 4 (Config.op "cmd.fracsec" [u.2]) ++ toBe 2 cmd
  b ++ toBe 2 (crcCcitt b)

/-- SEND_CFG2_REQUEST (R95): due for an entry, at most once per second; sent to CMD_PORT from a port, source address and to a
MAC address that the spec leaves to the firmware. None is sent for an entry with SRC_INJ = 1: its SRC_ADDR is ignored, so there is no address to
send to (notes/assumptions/114.md). -/
def execSendCfg2Request (sidx : Nat) (s : State) : Result :=
  if s.ing.cfgDue.contains sidx && s.fwRuns then
    match mget s.ing.streams.eff sidx with
    | none => ({ s with ing := { s.ing with cfgDue := sdel s.ing.cfgDue sidx } }).done
    | some e =>
      let s := match mget s.ing.cfgSent sidx with
        | some t => s.reach (t + ticksOfS 1)
        | none => s
      let s := { s with ing := { s.ing with
        cfgDue := sdel s.ing.cfgDue sidx, cfgSent := mput s.ing.cfgSent sidx s.now } }
      if e.cmdPort == 0 || bit e.flags 1 then s.done
      else
        let r := s.fresh
        let s := r.2
        let src := Config.op "cmd.src" [sidx] % 2 ^ 128
        let pk := udpPacket src e.addr (Config.op "cmd.sport" [sidx] % 65536) e.cmdPort (s.cmdFrame e.idcode 5)
        (s.send (r.1 % 5) 0 .port .plain none (Config.op "cmd.mac" [sidx] % 2 ^ 48) pk.1 pk.2).1.done
  else s.done

/-- ING_HIST_WRITE (R93): stores the fields and clears every histogram, LAT_MIN and LAT_MAX. -/
def State.histWrite (s : State) (v : Dword) : State :=
  let s := s.store R.ING_HIST v
  let clear (x : SStat) : SStat := { x with hist := List.replicate 32 0, latMin := 0x7FFFFFFF, latMax := -0x80000000 }
  ({ s with ing := { s.ing with stat := s.ing.stat.map fun (p : Nat × SStat) => (p.1, clear p.2) } }).ev0 Ev.ING_HIST_RESET

/-- ING_HIST_WRITE. -/
def execIngHistWrite (a : Agent) (v : Dword) (s : State) : Result := (s.gate a R.ING_HIST fun s => s.histWrite v).done

/-- The old entry that expires first. -/
def firstOld : List OldEntry → Option OldEntry
  | [] => none
  | o :: t => match firstOld t with
    | none => some o
    | some x => if o.untilTick < x.untilTick then some o else some x

/-- OLD_ENTRY_EXPIRY (R87): 64 reporting intervals after its boundary an old entry is gone. -/
def execOldEntryExpiry (sidx : Nat) (s : State) : Result :=
  let l := mgetD s.ing.old sidx []
  match firstOld l with
  | none => s.done
  | some o =>
    let s := s.reach o.untilTick
    let rest := l.erase o
    ({ s with ing := { s.ing with old := if rest.isEmpty then merase s.ing.old sidx else mput s.ing.old sidx rest } }).done

end Sys2Proof.Machine
end

