-- ==== Sys2Proof/Machine/Sett.lean ====
section
/-!
DEFINITION. Sys2Proof/Machine/Sett.lean: the measurement store's host side: the Sett window, host queues, quotas (R106 to R124).
-/
namespace Sys2Proof.Machine

/-! ### Charges (R110) -/

/-- Is a page held by host queues only. -/
def Page.onlyQueues (p : Page) : Bool := !p.holders.isEmpty && p.holders.all fun h => match h with
  | .queue _ => true
  | _ => false

/-- PAGE_CHARGE_MOVE (R110): an ALIGN or LATE page that only host queues hold moves its charge to HOSTQ. -/
def execPageChargeMove (page : Nat) (s : State) : Result :=
  match s.sett.pages.find? fun p => p.2.phys == page with
  | none => s.done
  | some (id, p) =>
    if p.cls ≤ 1 && p.onlyQueues then
      ((s.modPage id fun g => { g with cls := 2, reserved := false }).peak 2).done
    else s.done

/-! ### Host forms (R115, R116) -/

/-- The 16 bytes of the padded form of a word with its flag byte. -/
def padded (data flags : Nat) : List Byte := toLe 9 data ++ toLe 1 flags ++ zeros 6

/-- May a padded word be read from `byte` on over `len` bytes (R13). -/
def paddedOk (byte len : Nat) : Bool := byte % 4 == 0 && byte + len ≤ 16 && (len == 4 || len == 8 || len == 16)

/-- Is a word with its flag byte poisoned. -/
def flagPoison (l : Nat × Nat) : Bool := bit l.2 1

/-- A read of part of a padded word is answered; a poisoned word's completion has its EP bit set (R115, R121). -/
def State.wordAnswer (s : State) (a : Agent) (byte len : Nat) (l : Nat × Nat) : State :=
  s.emit (.answer a (bytesAt (padded l.1 l.2) byte len) (flagPoison l))

/-- A read that has no effect (R13). -/
def State.zeroAnswer (s : State) (a : Agent) (len : Nat) : State := s.emit (.answer a (zeros len) false)

/-- Where a word of the Sett stands: none in a free or retired page (R114). A word of an allocated page that has not been
written since its allocation is open. -/
def State.settWord (s : State) (addr : Nat) : Option SWord :=
  match s.sett.pages.find? fun p => p.2.phys == addr / 1024 with
  | none => none
  | some (_, p) => some ((p.words[addr % 1024]?).getD (sword (Config.op "sett.unwritten" [addr, s.sett.nextId])))

/-- What an agent's window latch holds of the word at `addr`: its data and flag byte, zero where it has latched another word. -/
def State.winLatched (s : State) (a : Agent) (addr : Nat) : Nat × Nat :=
  match mget s.sett.winLatch (agentNum a) with
  | some l => if l.1 == addr then (l.2 % 2 ^ 72, l.2 / 2 ^ 72) else (0, 0)
  | none => (0, 0)

/-- A read of the Sett window (R113 to R115); `err` is what the check of the word's block finds. -/
def State.windowRead (s : State) (a : Agent) (off len : Nat) (err : ReadErr) : State :=
  if a = .pf1 || !s.serves a off || off < 0x200000 || 0x400000 ≤ off || !paddedOk (off % 16) len then s.zeroAnswer a len
  else
    let addr := s.get F.SET_WINSEL_WIN * 131072 + (off - 0x200000) / 16
    if off % 16 != 0 then s.wordAnswer a (off % 16) len (s.winLatched a addr)
    else
      let latch (s : State) (l : Nat × Nat) : State :=
        { s with sett := { s.sett with winLatch := mput s.sett.winLatch (agentNum a) (addr, l.1 + l.2 * 2 ^ 72) } }
      match s.settWord addr with
      | none => (latch s (0, 0)).wordAnswer a 0 len (0, 0)
      | some w =>
        let r := s.eccRead false addr err
        let bad := ((r.1.settWord addr).map fun x => x.poison).getD false
        let l := (w.v.toNat, flagByte w.eop bad r.2 false)
        ((latch r.1 l).poisonRead addr bad).wordAnswer a 0 len l

/-- SETT_WINDOW_READ (R113 to R115). -/
def execSettWindowRead (a : Agent) (off len : Nat) (err : ReadErr) (s : State) : Result := (s.windowRead a off len err).done

/-- EV_SET_WIN_WRITE (R114): a write into the window is dropped and logged; PF1 has no window. -/
def execEvSetWinWrite (a : Agent) (off : Nat) (_v : Dword) (s : State) : Result :=
  if a != .pf1 && 0x200000 ≤ off && off < 0x400000 && s.serves a off then (s.ev0 Ev.SET_WIN_WRITE).done else s.done

/-! ### Host queues: delivery (R117, R120, R121, R123) -/

/-- A field of queue q. -/
def hqf (f : Fld) (q : Nat) : Fld := f.at (0x80 * q)

/-- The function that owns a queue. -/
def State.hqOwner (s : State) (q : Nat) : Fn := if s.flag (hqf F.SET_HQ_CFG_OWNER q) then .pf1 else .pf0

/-- Is the agent the owning function (R117); the debug port acts as PF0 (R506). -/
def State.hqMine (s : State) (q : Nat) (a : Agent) : Bool :=
  match s.hqOwner q, a with
  | .pf0, .pf0 => true
  | .pf0, .probe => true
  | .pf1, .pf1 => true
  | _, _ => false

/-- The head packet has left: PKTOUT, and the pages no later packet of the queue names are released. -/
def State.hqLeave (s : State) (q : Nat) : State :=
  let h := s.hq q
  match h.pkts with
  | [] => s
  | p :: rest =>
    let h' := { h with pkts := rest, sent := 0 }
    let gone := p.pages.filter fun id => !(h'.pageSet.contains id)
    let s := (s.setHq q h').inc (hqf F.SET_HQ_PKTOUT_PKTOUT q)
    s.dropHolds (.queue q) gone

/-- A renewal of the queue's lease (R111). -/
def State.hqRenew (s : State) (q : Nat) : State := s.setHq q { s.hq q with leaseAt := s.now }

/-- The words of a packet with their Sett word addresses. -/
def State.pktCells (s : State) (p : Pkt) : List (Nat × SWord) :=
  p.parts.flatMap fun r =>
    match mget s.sett.pages r.page with
    | none => []
    | some g => (((g.words.drop r.ofs).take r.n).zipIdx).map fun x => (g.phys * 1024 + r.ofs + x.2, x.1)

/-- A packed block (R116): data and flags of up to eight words, with PHASE. -/
def packedBlock (ws : List (Nat × Nat)) (phase : Bool) : List Byte :=
  let ph := 16 * b2n phase
  let w (i : Nat) : Nat × Nat := (ws[i]?).getD (0, 8)
  ((List.range 8).flatMap fun i => toLe 9 (w i).1) ++ (List.range 8).flatMap fun i => toLe 1 ((w i).2 + ph)

/-- HOSTQ_DMA_BLOCK_WRITE (R120): the next block of the head packet of a queue in DMA mode; `err` is what the read of its first
word finds. -/
def execHostqDmaBlockWrite (q : Fin 16) (err : ReadErr) (s : State) : Result :=
  let h := s.hq q
  let prod := s.get (hqf F.SET_HQ_PROD_PROD q)
  let size := s.get (hqf F.SET_HQ_SIZE_SIZE q)
  let k := prod + h.sent / 8
  match h.pkts with
  | [] => s.done
  | p :: _ =>
    if s.flag (hqf F.SET_HQ_CFG_EN q) && !s.flag (hqf F.SET_HQ_CFG_MODE q) && (s.pfn (s.hqOwner q)).bme &&
        decide (subMod 32 k (s.get (hqf F.SET_HQ_CONS_CONS q)) < size) then
      let all := s.pktCells p
      let cells := (all.drop h.sent).take 8
      let r := s.eccRead false ((cells.head?.map fun c => c.1).getD 0) err
      let ws := (((r.1.pktCells p).drop h.sent).take 8).zipIdx.map fun x =>
        (x.1.2.v.toNat, flagByte x.1.2.eop x.1.2.poison (x.2 == 0 && r.2) false)
      let base := s.get64 (R.SET_HQ_BASE_LO + 0x80 * q) (R.SET_HQ_BASE_HI + 0x80 * q) / 64 * 64
      let s := r.1.dma (s.hqOwner q) (base + 80 * (k % size)) (packedBlock ws (k / size % 2 == 1))
      if h.sent + 8 < all.length then (s.setHq q { h with sent := h.sent + 8 }).done
      else
        let s := s.set (hqf F.SET_HQ_PROD_PROD q) (k + 1)
        ((s.hqLeave q).hqPend q).done
    else s.done

/-- A CONS write by the owner (R120). A value 1 to 2^31 − 1 ahead of PROD would pass it and is dropped; any other is taken, one behind the
present CONS too (notes/assumptions/103.md). In DMA mode an advance renews the lease (R111). -/
def State.consWrite (s : State) (q : Nat) (v : Dword) : State :=
  let d := subMod 32 v.toNat (s.get (hqf F.SET_HQ_PROD_PROD q))
  if 0 < d && d < 2 ^ 31 then s.ev0 Ev.SET_CFG_RANGE
  else
    let f := hqf F.SET_HQ_CONS_CONS q
    let up := subMod 32 v.toNat (s.get f)
    let s := s.set f v.toNat
    if !s.flag (hqf F.SET_HQ_CFG_MODE q) && 0 < up && up < 2 ^ 31 then s.hqRenew q else s

/-- HOSTQ_CONS_WRITE (R117, R120). -/
def execHostqConsWrite (a : Agent) (q : Fin 16) (v : Dword) (s : State) : Result :=
  (s.gate a (R.SET_HQ_CONS + 0x80 * q) fun s => if s.hqMine q a then s.consWrite q v else s).done

/-- A read of SET_HQ_DATA_q (R121); one of another width or place has no effect (R13). -/
def State.hqPop (s : State) (a : Agent) (q byte len : Nat) (err : ReadErr) : State :=
  let key := agentNum a * 16 + q
  let latch (s : State) (l : Nat × Nat) : State := { s with sett := { s.sett with hqLatch := mput s.sett.hqLatch key l } }
  if !s.hqMine q a || !s.flag (hqf F.SET_HQ_CFG_MODE q) || !paddedOk byte len then s.zeroAnswer a len
  else if byte != 0 then s.wordAnswer a byte len (mgetD s.sett.hqLatch key (0, 0))
  else
    let h := s.hq q
    match h.pkts with
    | [] =>
      let s := (s.setB (hqf F.SET_HQ_STAT_UNDERRUN q) true).inc (hqf F.SET_HQ_UNDER_UNDER_CNT q)
      let l := (0, flagByte false false false true)
      (latch (s.ev0 Ev.SET_HQ_UNDERRUN) l).wordAnswer a 0 len l
    | p :: _ =>
      let cells := s.pktCells p
      let c := (cells[h.sent]?).getD (0, sword 0)
      let r := s.eccRead false c.1 err
      let bad := ((((r.1.pktCells p)[h.sent]?).getD c).2).poison
      let l := (c.2.v.toNat, flagByte c.2.eop bad r.2 false)
      let s := ((latch r.1 l).poisonRead c.1 bad).hqRenew q
      let s := s.setHq q { s.hq q with sent := h.sent + 1, last := l }
      let s := if cells.length ≤ h.sent + 1 then s.hqLeave q else s
      s.wordAnswer a 0 len l

/-- A read of SET_HQ_LAST_q (R121): the last word popped; in DMA mode zero. -/
def State.hqLast (s : State) (a : Agent) (q byte len : Nat) : State :=
  if !paddedOk byte len then s.zeroAnswer a len
  else s.wordAnswer a byte len (if s.flag (hqf F.SET_HQ_CFG_MODE q) then (s.hq q).last else (0, 0))

/-- HOSTQ_DATA_POP (R121). -/
def execHostqDataPop (a : Agent) (q : Fin 16) (byte len : Nat) (err : ReadErr) (s : State) : Result :=
  (s.hqPop a q byte len err).done

/-! ### Queue configuration (R118, R122, R124, R533) -/

/-- Is a value allowed as SIZE: 0, or a power of two from 16 to 65 536. -/
def hqSizeOk (x : Nat) : Bool := x == 0 || pow2Between x 16 65536

/-- A write of SET_HQ_CFG_q: MAXPG 0 drops it; while EN = 1 MODE and OWNER stay; EN does not rise in DMA mode with SIZE 0; EN
falling flushes. -/
def State.hqCfgWrite (s : State) (q : Nat) (v : Dword) : State :=
  let f (x : Fld) : Fld := hqf x q
  if fval (f F.SET_HQ_CFG_MAXPG) v == 0 then s.ev0 Ev.SET_CFG_RANGE
  else
    let was := s.flag (f F.SET_HQ_CFG_EN)
    let mode := s.flag (f F.SET_HQ_CFG_MODE)
    let owner := s.flag (f F.SET_HQ_CFG_OWNER)
    let s := s.store (R.SET_HQ_CFG + 0x80 * q) v
    let s := if was then (s.setB (f F.SET_HQ_CFG_MODE) mode).setB (f F.SET_HQ_CFG_OWNER) owner else s
    let en := s.flag (f F.SET_HQ_CFG_EN)
    if !was && en && !s.flag (f F.SET_HQ_CFG_MODE) && s.get (f F.SET_HQ_SIZE_SIZE) == 0 then
      s.setB (f F.SET_HQ_CFG_EN) false
    else if was && !en then (s.hqFlush q).ev0 Ev.SET_HQ_FLUSH
    else s

/-- HOSTQ_CFG_WRITE (R124). -/
def execHostqCfgWrite (a : Agent) (q : Fin 16) (v : Dword) (s : State) : Result :=
  (s.gate a (R.SET_HQ_CFG + 0x80 * q) fun s => s.hqCfgWrite q v).done

/-- The bits of SET_HQ_PEND that an agent reads and clears: PF1 only those of its own queues. -/
def State.hqPendMask (s : State) (a : Agent) : Nat :=
  if a = .pf1 then ((List.range 16).filter fun q => s.flag (hqf F.SET_HQ_CFG_OWNER q)).foldl (fun m q => m + 2 ^ q) 0
  else 65535

/-- A write of SET_HQ_PEND: ones clear. -/
def State.hqPendWrite (s : State) (a : Agent) (v : Dword) : State :=
  let clr := Nat.land (bits v.toNat 15 0) (s.hqPendMask a)
  let p := s.get F.SET_HQ_PEND_PEND
  s.set F.SET_HQ_PEND_PEND (p - Nat.land p clr)

/-- HQ_PEND_CLEAR (R123). -/
def execHqPendClear (a : Agent) (v : Dword) (s : State) : Result :=
  (s.gate a R.SET_HQ_PEND fun s => s.hqPendWrite a v).done

/-! ### Quotas (R106 to R108) -/

/-- The quotas a class accepts (R106). -/
def quotaRange (c : Nat) : Nat × Nat :=
  match c with
  | 0 => (256, 8192)
  | 2 => (16, 8192)
  | 4 => (16, 1024)
  | 6 => (64, 1024)
  | _ => (0, 8192)

/-- A write of SET_QUOTA_c (R108). -/
def State.quotaWrite (s : State) (c : Nat) (v : Dword) : State :=
  let f := F.SET_QUOTA_ALIGN_QUOTA.at (4 * c)
  let n := fval f v
  let others := (((List.range 7).filter fun i => i != c).map s.quota).foldl (· + ·) 0
  let cap := 8192 - s.sett.retired.length
  if n < (quotaRange c).1 || (quotaRange c).2 < n || cap < others + n then s.ev0 Ev.SET_CFG_RANGE
  else (s.store (R.SET_QUOTA_ALIGN + 4 * c) v).set F.SET_QUOTA_SPARE_QUOTA (cap - (others + n))

/-- QUOTA_WRITE (R108). -/
def execQuotaWrite (a : Agent) (c : Fin 7) (v : Dword) (s : State) : Result :=
  (s.gate a (R.SET_QUOTA_ALIGN + 4 * c) fun s => s.quotaWrite c v).done

/-- A write of SET_CTRL: EN and SCHED_EN as written; PEAK_CLR sets every PEAK to its USED (R107). -/
def State.setCtrlWrite (s : State) (v : Dword) : State :=
  let s := s.store R.SET_CTRL v
  if fval F.SET_CTRL_PEAK_CLR v == 1 then
    (List.range 8).foldl (fun s c =>
      s.set (F.SET_USE_PEAK.at (4 * c)) (if c < 7 then s.used c else ((List.range 7).map s.borrowed).foldl (· + ·) 0)) s
  else s

/-- PEAK_CLR (R107). -/
def execPeakClr (a : Agent) (v : Dword) (s : State) : Result := (s.gate a R.SET_CTRL fun s => s.setCtrlWrite v).done

end Sys2Proof.Machine
end

