-- ==== Sys2Proof/Machine/Irq.lean ====
section
/-!
DEFINITION. Sys2Proof/Machine/Irq.lean: the interrupt controller's deliveries (R426 to R437) and the event recorder's ring, rate limits
and commands (R438 to R443).
-/
namespace Sys2Proof.Machine

/-- Changes the interrupt controller. -/
def State.modIrq (s : State) (f : Irq → Irq) : State := { s with irq := f s.irq }

/-! ### Messages (R430, R432) -/

/-- Is a function asleep: in D3hot, or behind a link in L2. -/
def State.fnAsleep (s : State) (f : Fn) : Bool := (s.pfn f).d3 || s.irq.linkL2

/-- Is a vector masked for its function, or MSI-X disabled. -/
def PcieFn.vecMasked (x : PcieFn) (vec : Nat) : Bool := !x.msixEn || x.fmask || !smem x.unmasked vec

/-- A committed message: held while the function sleeps, with PME; its PBA bit set while the vector is masked; held while Bus Master
Enable is 0; else sent. -/
def State.message (s : State) (f : Fn) (vec : Nat) : State :=
  if s.fnAsleep f then
    s.modFn f fun x => { x with held := x.held ++ [vec], pmeStatus := true, wake := x.wake || x.pmeEn }
  else if (s.pfn f).vecMasked vec then s.modFn f fun x => { x with pba := sadd x.pba vec }
  else if (s.pfn f).bme then s.emit (.msix f vec)
  else s.modFn f fun x => { x with held := x.held ++ [vec] }

/-- Held messages go out in commit order. -/
def State.releaseHeld (s : State) (f : Fn) : State :=
  let l := (s.pfn f).held
  l.foldl (fun s v => s.message f v) (s.modFn f fun x => { x with held := [] })

/-- Messages whose vectors can now be sent leave the PBA. -/
def State.releasePba (s : State) (f : Fn) : State :=
  let x := s.pfn f
  let l := x.pba.filter fun v => !x.vecMasked v
  l.foldl (fun s v => s.message f v) (s.modFn f fun x => { x with pba := x.pba.filter fun v => !l.contains v })

/-- A function that is awake stops asserting PE_WAKEN (R432). -/
def State.wakeSync (s : State) : State :=
  let one (s : State) (f : Fn) : State := if s.fnAsleep f then s else s.modFn f fun x => { x with wake := false }
  one (one s .pf0) .pf1

/-- The level of PE_WAKEN: low while a function asserts it (R432). -/
def State.peWaken (s : State) : Bool := !(s.pfn .pf0).wake && !(s.pfn .pf1).wake

/-! ### Delivery (R426 to R434) -/

/-- A field of a source's route. -/
def rtf (f : Fld) (n : Nat) : Fld := f.at (4 * n)

/-- The field that shows a core parked. -/
def parkFld (c : Nat) : Fld := if c == 0 then F.IRQ_CORESTAT_PARK_C0 else F.IRQ_CORESTAT_PARK_C1

/-- Core c is parked, or no longer; what has been due for it counts from its parking (R433). -/
def State.park (s : State) (c : Nat) (on : Bool) : State :=
  let t := if on && !s.flag (parkFld c) then s.modIrq fun i => { i with parkedAt := mput i.parkedAt c s.now } else s
  t.setB (parkFld c) on

/-- Is the core of a target code parked. -/
def State.coreParked (s : State) (t : Nat) : Bool :=
  if t == 2 then s.flag F.IRQ_CORESTAT_PARK_C0 else if t == 3 then s.flag F.IRQ_CORESTAT_PARK_C1 else false

/-- The main channel's target: TARGET, or FALLBACK once the source has moved to it (R433). -/
def State.mainTarget (s : State) (n : Nat) : Nat :=
  if smem s.irq.moved n then s.get (rtf F.IRQ_ROUTE_FALLBACK n) else s.get (rtf F.IRQ_ROUTE_TARGET n)

/-- Channels of a source. -/
def State.mainCh (s : State) (n : Nat) : IrqCh := mgetD s.irq.main n IrqCh.idle
/-- The PF1 channel. -/
def State.pf1Ch (s : State) (n : Nat) : IrqCh := mgetD s.irq.pf1 n IrqCh.idle

/-- Is a source's coalescing rule met on a channel (R431). -/
def State.coalMet (s : State) (n : Nat) (c : IrqCh) : Bool :=
  let k := s.get (rtf F.IRQ_COAL_COUNT n)
  decide (k ≤ 1) || decide (k ≤ c.count) || c.timeUp

/-- Is source n deliverable to target t: 1 PF0, 2 and 3 the cores, 4 and 5 the pins, 6 PF1. -/
def State.deliverable (s : State) (t n : Nat) : Bool :=
  if t == 6 then
    let c := s.pf1Ch n
    c.due && s.pf1En n && s.coalMet n c
  else
    let c := s.mainCh n
    c.due && s.mainTarget n == t && !s.flag (bitFld R.IRQ_MASK n) && s.coalMet n c && !s.coreParked t

/-- The deliverable source of the highest PRIO, the lowest number among equals. -/
def State.nextSource (s : State) (t : Nat) : Option Nat :=
  let l := (List.range 128).filter fun n => s.deliverable t n
  [3, 2, 1, 0].findSome? fun p => l.find? fun n => s.get (rtf F.IRQ_ROUTE_PRIO n) == p

/-- The main channel has nothing due any more for n; its count and timer start again. -/
def State.mainIdle (s : State) (n : Nat) : State :=
  (s.setB (bitFld R.IRQ_DUE n) false).modIrq fun i => { i with main := merase i.main n, moved := sdel i.moved n }

/-- Is source n routed to the pin of target t: by TARGET, or by FALLBACK where it drove the pin low from there. -/
def State.routedPin (s : State) (t : Nat) (by_ : List Nat) (n : Nat) : Bool :=
  s.get (rtf F.IRQ_ROUTE_TARGET n) == t || (smem by_ n && s.get (rtf F.IRQ_ROUTE_FALLBACK n) == t)

/-- Is the pin of target t still held: a source routed to it is pending and unmasked (R434). -/
def State.pinHeld (s : State) (t : Nat) (by_ : List Nat) : Bool :=
  (List.range 128).any fun n => s.routedPin t by_ n && s.flag (bitFld R.IRQ_PEND n) && !s.flag (bitFld R.IRQ_MASK n)

/-- The pins follow PEND, MASK and the routes (R434). -/
def State.pinSync (s : State) : State :=
  let s := if s.irq.lowBy0.isEmpty || s.pinHeld 4 s.irq.lowBy0 then s else s.modIrq fun i => { i with lowBy0 := [] }
  if s.irq.lowBy1.isEmpty || s.pinHeld 5 s.irq.lowBy1 then s else s.modIrq fun i => { i with lowBy1 := [] }

/-- The levels of IRQN0 and IRQN1: low while some source drives them. -/
def State.irqnPin (s : State) (k : Nat) : Bool := if k == 0 then s.irq.lowBy0.isEmpty else s.irq.lowBy1.isEmpty

/-- Commits source n to target t (R428). -/
def State.commitIrq (s : State) (t n : Nat) : State :=
  if t == 6 then
    let s := s.modIrq fun i => { i with pf1 := merase i.pf1 n }
    s.message .pf1 (s.get (rtf F.IRQ_ROUTE_PF1_VEC n))
  else
    let s := s.mainIdle n
    if t == 1 then s.message .pf0 (s.get (rtf F.IRQ_ROUTE_VECTOR n))
    else if t == 2 || t == 3 then s.emit (.core (t - 2) n)
    else if t == 4 then s.modIrq fun i => { i with lowBy0 := sadd i.lowBy0 n }
    else s.modIrq fun i => { i with lowBy1 := sadd i.lowBy1 n }

/-- IRQ_DELIVERY_COMMIT (R428): target t, 1 to 5 by the route's codes and 6 for the PF1 channel, takes its next source. -/
def execIrqDeliveryCommit (t : Nat) (s : State) : Result :=
  if t == 0 || 6 < t then s.done
  else match s.nextSource t with
    | some n => (s.commitIrq t n).done
    | none => s.done

/-- IRQ_COAL_TIMEOUT (R431): the timer of a channel of source n runs out. -/
def execIrqCoalTimeout (pf1 : Bool) (n : Nat) (s : State) : Result :=
  let c := if pf1 then s.pf1Ch n else s.mainCh n
  let us := s.get (rtf F.IRQ_COAL_TIME_US n)
  if n < 128 && c.due && !c.timeUp && decide (2 ≤ s.get (rtf F.IRQ_COAL_COUNT n)) && us != 0 then
    let s := s.reach (c.since + ticksOfUs us)
    let up (m : List (Nat × IrqCh)) : List (Nat × IrqCh) := mmod m n IrqCh.idle fun c => { c with timeUp := true }
    (s.modIrq fun i => if pf1 then { i with pf1 := up i.pf1 } else { i with main := up i.main }).done
  else s.done

/-- When source n began to be due for its parked core t: raised, aimed at the core and the core parked. -/
def State.dueParked (s : State) (n t : Nat) : Nat :=
  max (s.mainCh n).since (max (mgetD s.irq.parkedAt (t - 2) 0) (mgetD s.irq.aimed n 0))

/-- EV_IRQ_FALLBACK (R433): source n has been due for its parked core for 10 µs. -/
def execEvIrqFallback (n : Nat) (s : State) : Result :=
  let t := s.get (rtf F.IRQ_ROUTE_TARGET n)
  let f := s.get (rtf F.IRQ_ROUTE_FALLBACK n)
  let c := s.mainCh n
  if n < 128 && c.due && !smem s.irq.moved n && s.coreParked t && f != 0 && !s.coreParked f then
    let s := s.reach (s.dueParked n t + ticksOfUs 10)
    ((s.modIrq fun i => { i with moved := sadd i.moved n }).ev Ev.IRQ_FALLBACK 0 [(32, n), (32, t - 2)]).done
  else s.done

/-- One bit of a PEND write: clearing makes the source not due; setting raises it (R427). -/
def State.pendBit (s : State) (n : Nat) (b : Bool) : State :=
  let was := s.flag (bitFld R.IRQ_PEND n)
  if was && !b then (s.setB (bitFld R.IRQ_PEND n) false).mainIdle n
  else if !was && b then s.raiseOn n true (n != 24 && n != 25 && s.pf1En n)
  else s

/-- A write of IRQ_PEND_w. -/
def State.pendWrite (s : State) (w : Nat) (v : Dword) : State :=
  ((List.range 32).foldl (fun s j => s.pendBit (32 * w + j) (bit v.toNat j)) s).pinSync

/-- IRQ_PEND_WRITE (R427). -/
def execIrqPendWrite (a : Agent) (w : Fin 4) (v : Dword) (s : State) : Result :=
  (s.gate a (R.IRQ_PEND + 4 * w) fun s => s.pendWrite w v).done

/-- IRQ_MASK_WRITE (R429). -/
def execIrqMaskWrite (a : Agent) (w : Fin 4) (v : Dword) (s : State) : Result :=
  (s.gate a (R.IRQ_MASK + 4 * w) fun s => (s.store (R.IRQ_MASK + 4 * w) v).pinSync).done

/-- Number of MSI-X vectors of a function (R398). -/
def vecCount : Fn → Nat
  | .pf0 => 32
  | .pf1 => 8

/-- A vector's Mask bit is written. -/
def State.vecMask (s : State) (f : Fn) (vec : Nat) (masked : Bool) : State :=
  if vecCount f ≤ vec then s
  else if masked then s.modFn f fun x => { x with unmasked := sdel x.unmasked vec }
  else (s.modFn f fun x => { x with unmasked := sadd x.unmasked vec }).releasePba f

/-- MSIX_VECTOR_UNMASK (R430). -/
def execMsixVectorUnmask (f : Fn) (vec : Nat) (s : State) : Result := (s.vecMask f vec false).done

/-- HELD_DELIVERY_RELEASE (R432): the function is back in D0 with the link in L0. -/
def execHeldDeliveryRelease (f : Fn) (s : State) : Result :=
  let s := (s.modFn f fun x => { x with d3 := false }).modIrq fun i => { i with linkL2 := false }
  (s.wakeSync.releaseHeld f).done

/-- Every source routed to PF0 that is pending and unmasked becomes due once (R437). -/
def State.rearmPf0 (s : State) : State :=
  (List.range 128).foldl (fun (s : State) n =>
    if s.get (rtf F.IRQ_ROUTE_TARGET n) == 1 && s.flag (bitFld R.IRQ_PEND n) && !s.flag (bitFld R.IRQ_MASK n) then
      (s.setB (bitFld R.IRQ_DUE n) true).modIrq fun i =>
        { i with main := mmod i.main n IrqCh.idle fun c => if c.due then c else { c with due := true, timeUp := true, since := s.now } }
    else s) s

/-- PCIE_CONFIG_WRITE (R400, R430, R432, R437): Bus Master Enable, MSI-X Enable, Function Mask, the D-state, PME_En and whether the link
is in L2, as the host leaves them; a one written to PME_Status clears it. -/
def execPcieConfigWrite (f : Fn) (bme msixEn fmask d3 pmeEn pmeClear l2 : Bool) (s : State) : Result :=
  let was := s.pfn f
  let s := s.modFn f fun x =>
    { x with bme := bme, msixEn := msixEn, fmask := fmask, d3 := d3, pmeEn := pmeEn, pmeStatus := x.pmeStatus && !pmeClear }
  let s := s.modIrq fun i => { i with linkL2 := l2 }
  let s := if f = .pf0 && was.rearm && !was.msixEn && msixEn && bme then s.rearmPf0 else s
  let s := if msixEn && bme then s.modFn f fun x => { x with rearm := false } else s
  let s := s.wakeSync
  ((if s.fnAsleep f then s else s.releaseHeld f).releasePba f).lateReplies.done

/-! ### Reset of a function (R401, R437) -/

/-- A function's held and due deliveries are cleared; its configuration space returns to its reset values. -/
def State.irqFnReset (s : State) (f : Fn) : State :=
  let s := match f with
    | .pf0 => (List.range 128).foldl (fun (s : State) n =>
        if s.get (rtf F.IRQ_ROUTE_TARGET n) == 1 && (s.mainCh n).due then s.mainIdle n else s) s
    | .pf1 => s.modIrq fun i => { i with pf1 := [] }
  s.modFn f fun _ => PcieFn.reset

/-! ### The event ring (R440, R442) -/

/-- Changes the event recorder. -/
def State.modEvr (s : State) (f : Evr → Evr) : State := { s with evr := f s.evr }

/-- EVR_BUCKET_REFILL (R440): the clock reaches the moment at which a code's bucket next gains a record. -/
def execEvrBucketRefill (code : Nat) (s : State) : Result :=
  let per := s.get F.EVR_RATE_PER_S
  match s.bucket code with
  | none => s.done
  | some b => if per == 0 then s.done else ((s.reach (bucketTick per b.2 1)).bucketSync code).done

/-- A write of EVR_RATE fills every bucket (R440). -/
def State.evrRateWrite (s : State) (v : Dword) : State := (s.store R.EVR_RATE v).modEvr fun e => { e with buckets := [] }

/-- EVR_RATE_WRITE. -/
def execEvrRateWrite (a : Agent) (v : Dword) (s : State) : Result := (s.gate a R.EVR_RATE fun s => s.evrRateWrite v).done

/-- The ring thaws; what it lost while frozen is logged (R442). -/
def State.evrThaw (s : State) : State :=
  let l := s.evr.frozenLost
  let s := (s.modEvr fun e => { e with frozenAt := none, frozenLost := (0, 0, 0) }).setB F.EVR_STAT_FROZEN false
  if l.1 == 0 then s else s.ev Ev.EVR_FROZEN_DROP 0 [(32, l.1), (32, l.2.1), (32, l.2.2)]

/-- The ring starts: its size is the EVREC quota; events held since a reset are logged (R442, R481, R537). -/
def State.evrStart (s : State) : State :=
  let early := s.evr.early
  let s := (s.modEvr fun e => { e with size := s.quota 4, early := [], started := true }).setB F.EVR_STAT_RUN true
  early.foldl (fun s e => s.logOne (fun _ => 3) e) s.evrSync

/-- The ring stops: pages and records go, a freeze ends (R442). -/
def State.evrStop (s : State) : State :=
  let s := s.dropHolds .ring s.evr.pages
  let s := s.evrThaw.modEvr fun e => { e with pages := [], recs := [] }
  (s.setB F.EVR_STAT_RUN false).evrSync

/-- A write of EVR_CTRL. -/
def State.evrCtrlWrite (s : State) (v : Dword) : State :=
  let was := s.flag F.EVR_CTRL_EN
  let s := s.store R.EVR_CTRL v
  let now := s.flag F.EVR_CTRL_EN
  if !was && now then s.evrStart else if was && !now then s.evrStop else s

/-- EVR_RING_START (R442). -/
def execEvrRingStart (a : Agent) (v : Dword) (s : State) : Result := (s.gate a R.EVR_CTRL fun s => s.evrCtrlWrite v).done

/-- EVR_RING_STOP (R442). -/
def execEvrRingStop (a : Agent) (v : Dword) (s : State) : Result := (s.gate a R.EVR_CTRL fun s => s.evrCtrlWrite v).done

/-- EV_EVR_THAW_TIMEOUT (R442): EVR_FREEZE_MS has passed since the last freeze. -/
def execEvEvrThawTimeout (s : State) : Result :=
  let ms := s.get F.EVR_FREEZE_MS_MS
  match s.evr.frozenAt with
  | some t => if ms == 0 then s.done else ((s.reach (t + ticksOfMs ms)).evrThaw.ev0 Ev.EVR_THAW_TIMEOUT).done
  | none => s.done

/-- EVR_FREEZE (0x78): body. -/
def evrFreezeBody (p : List Byte) (s : State) : CmdRes :=
  checked [(!zeroAt p 8 8, St.badParam), (!s.flag F.EVR_CTRL_EN, St.state)] s
    ⟨St.ok, [], (s.modEvr fun e => { e with frozenAt := some s.now }).setB F.EVR_STAT_FROZEN true⟩

/-- EVR_FREEZE (R442). -/
def execEvrFreeze (r : Fn) (s : State) : Result := (s.plain r 0x78 16 false (fun _ => true) evrFreezeBody).done

/-- EVR_THAW (0x79): body. -/
def evrThawBody (p : List Byte) (s : State) : CmdRes :=
  checked [(!zeroAt p 8 8, St.badParam), (s.evr.frozenAt.isNone, St.state)] s ⟨St.ok, [], s.evrThaw⟩

/-- EVR_THAW (R442). -/
def execEvrThaw (r : Fn) (s : State) : Result := (s.plain r 0x79 16 false (fun _ => true) evrThawBody).done

/-! ### EVR_READ -/

/-- Is a mirror slot valid (R443). -/
def MirrorSlot.valid (m : MirrorSlot) : Bool := le m.bytes 4 2 != 0 && le m.bytes 28 2 == crcCcitt (m.bytes.take 28)

/-- Valid mirror slots, oldest first: from NEXT round. -/
def State.mirrorOld (s : State) : List MirrorSlot :=
  let n := s.get F.EVR_MIRROR_NEXT
  ((List.range 64).filterMap fun i => mget s.evr.mirror ((n + i) % 64)).filter MirrorSlot.valid

/-- A record rebuilt from a mirror slot; SUPP and the last eight bits of P1, which the mirror does not hold, are open values. -/
def State.mirrorWords (s : State) (m : MirrorSlot) : List SWord :=
  let b := m.bytes
  let tai := le b 8 6 * 1000000000 + le b 14 4
  let u := s.utcOf tai
  let seq := le b 0 4
  let p0 := seq * 2 ^ 40 + Config.op "evr.mirror.supp" [seq] % 2 ^ 16 * 2 ^ 24 + Nat.lor (le b 7 1) 2 * 2 ^ 16 + le b 6 1 * 2 ^ 8
  markEnd (([h0 6 0 2 (le b 4 2) (shortStamp tai) 0, h1 u.1 u.2 (le b 18 1), p0,
    le b 20 8 * 256 + Config.op "evr.mirror.arg" [seq] % 256]).map sword)

/-- Held records of a source as (SEQ, words), oldest first. -/
def State.evrHeld (s : State) (mirror : Bool) : List (Nat × List SWord) :=
  if mirror then s.mirrorOld.map fun m => (le m.bytes 0 4, s.mirrorWords m)
  else s.evr.recs.map fun r => (r.seq, s.refWords r.ref)

/-- EVR_READ (0x7A): body. -/
def evrReadBody (r : Fn) (issued : Bool) (p : List Byte) (s : State) : CmdRes :=
  let src := le p 8 1
  let from_ := le p 12 4
  let len := le p 24 4
  checked [(decide (1 < src), St.badParam), (!zeroAt p 9 3, St.badParam), (le p 16 8 % 8 != 0, St.badParam),
      (len == 0 || len % 80 != 0, St.badLength), (!zeroAt p 28 4, St.badParam), (src == 0 && !s.flag F.EVR_CTRL_EN, St.state)] s
    (let held := s.evrHeld (src == 1)
     let oldest := (held.head?.map fun x => x.1).getD (s.get F.EVR_SEQ_SEQ)
     let d := subMod 32 oldest from_
     let older := d != 0 && decide (d < 2 ^ 31)
     let start := if older then oldest else from_
     let want := (held.filter fun x => decide (subMod 32 x.1 start < 2 ^ 31)).take (len / 80)
     let good := want.takeWhile fun x => !x.2.any fun w => w.poison
     let bad := (want.drop good.length).head?
     let res (n next : Nat) : List Byte := toLe 4 start ++ toLe 4 n ++ toLe 4 next ++ toLe 4 (if older then d else 0)
     let go (s : State) : State := (good.zipIdx).foldl (fun (s : State) x =>
       s.dma r (le p 16 8 + 80 * x.2) (packedBlock (x.1.2.map fun w => (w.v.toNat, flagByte w.eop w.poison false false)) false)) s
     let k : CmdRes := match bad with
       | some x => ⟨St.poison, res good.length x.1, go s⟩
       | none => ⟨St.ok, res good.length (start + good.length), go s⟩
     if good.isEmpty then k else withWrite issued r s k)

/-- EVR_READ (R442). -/
def execEvrRead (r : Fn) (issued : Bool) (s : State) : Result :=
  (s.plain r 0x7A 32 true (fun _ => true) (evrReadBody r issued)).done

end Sys2Proof.Machine
end

