-- ==== Sys2Proof/Machine/Dyad.lean ====
section
/-!
DEFINITION. Sys2Proof/Machine/Dyad.lean: numbers m · 2^e, the arithmetic of the engines that keep real values (R210, R212): sums and
products are exact, quotients, roots, logarithms and exponentials are formed far below the last place kept, and rounding to a
significand of n bits leaves open which of the two neighbours results.
-/
namespace Sys2Proof.Machine

/-- Zero. -/
def Dy.zero : Dy := ⟨0, 0⟩

/-- An integer. -/
def Dy.ofInt (n : Int) : Dy := ⟨n, 0⟩

/-- A finite float. -/
def Dy.ofF32 (x : Nat) : Dy := ⟨f32Units x, -149⟩

/-- Numerator: the value is `num / den`. -/
def Dy.num (x : Dy) : Int := if 0 ≤ x.e then x.m * 2 ^ x.e.toNat else x.m

/-- Denominator. -/
def Dy.den (x : Dy) : Nat := if 0 ≤ x.e then 1 else 2 ^ (-x.e).toNat

/-- The value as operands of an open function. -/
def Dy.key (x : Dy) : List Nat := [b2n (decide (x.m < 0)), x.m.natAbs, (x.e + 2 ^ 64).toNat]

/-- Sum. -/
def Dy.add (a b : Dy) : Dy :=
  let e := min a.e b.e
  ⟨a.m * 2 ^ (a.e - e).toNat + b.m * 2 ^ (b.e - e).toNat, e⟩

/-- Negation. -/
def Dy.neg (a : Dy) : Dy := ⟨-a.m, a.e⟩

/-- Difference. -/
def Dy.sub (a b : Dy) : Dy := a.add b.neg

/-- Product. -/
def Dy.mul (a b : Dy) : Dy := ⟨a.m * b.m, a.e + b.e⟩

/-- Is a below b. -/
def Dy.lt (a b : Dy) : Bool := decide ((a.sub b).m < 0)

/-- At most n significant bits: the rest is cut, and the last bit kept is set where anything was lost, so that a later rounding to fewer
bits sees it. -/
def Dy.cut (n : Nat) (x : Dy) : Dy :=
  let k := Nat.log2 x.m.natAbs + 1
  if k ≤ n then x
  else
    let d := 2 ^ (k - n)
    let q := x.m.natAbs / d
    let q := if x.m.natAbs % d == 0 || q % 2 == 1 then q else q + 1
    ⟨if x.m < 0 then -(q : Int) else q, x.e + (k - n : Nat)⟩

/-- A quotient of integers, cut to about 320 bits as `cut` does. -/
def Dy.ofRat (num : Int) (den : Nat) : Dy :=
  let k := 320 + Nat.log2 den - Nat.log2 num.natAbs
  let n := num.natAbs * 2 ^ k
  let q := n / den
  let q := 2 * q + (if n % den == 0 then 0 else 1)
  ⟨if num < 0 then -(q : Int) else q, -((k : Int) + 1)⟩

/-- Quotient by a positive number. -/
def Dy.div (a b : Dy) : Dy :=
  let r := Dy.ofRat a.m b.m.natAbs
  ⟨r.m, r.e + a.e - b.e⟩

/-- The square root of a number that is not negative, cut to about 320 bits. -/
def Dy.sqrt (x : Dy) : Dy :=
  let n := x.m.natAbs
  let k := 640 - Nat.log2 n
  let k := if (x.e - k) % 2 == 0 then k else k + 1
  let q := n * 2 ^ k
  let r := isqrt q
  ⟨2 * r + (if r * r == q then 0 else 1), (x.e - k) / 2 - 1⟩

/-- Rounded to a significand of n bits, brought to exactly n bits: of an inexact value `pick` says which neighbour. -/
def Dy.roundTo (n pick : Nat) (x : Dy) : Dy :=
  let a := x.m.natAbs
  if a == 0 then Dy.zero
  else
    let k := Nat.log2 a + 1
    let s (q : Nat) : Int := if x.m < 0 then -(q : Int) else q
    if k ≤ n then ⟨s (a * 2 ^ (n - k)), x.e - (n - k : Nat)⟩
    else
      let d := 2 ^ (k - n)
      let e := x.e + (k - n : Nat)
      if a % d == 0 || pick % 2 == 0 then ⟨s (a / d), e⟩
      else if a / d + 1 == 2 ^ n then ⟨s (2 ^ (n - 1)), e + 1⟩ else ⟨s (a / d + 1), e⟩

/-- As float32: the value where it is one, else one of the two floats beside it. -/
def Dy.toF32 (x : Dy) (pick : Nat) : Nat := f32Either x.num x.den pick

/-- x to the power n, cut to 320 bits at each step; `fuel` is at least the number of bits of n. -/
def Dy.pow (x : Dy) : Nat → Nat → Dy
  | 0, _ => ⟨1, 0⟩
  | fuel + 1, n =>
    if n == 0 then ⟨1, 0⟩
    else
      let h := ((x.mul x).cut 320).pow fuel (n / 2)
      if n % 2 == 1 then (x.mul h).cut 320 else h

/-! ### Complex numbers -/

/-- Product of complex numbers. -/
def cmul (a b : Dy × Dy) : Dy × Dy := ((a.1.mul b.1).sub (a.2.mul b.2), (a.1.mul b.2).add (a.2.mul b.1))

/-- Both parts cut to 320 bits. -/
def ccut (a : Dy × Dy) : Dy × Dy := (a.1.cut 320, a.2.cut 320)

/-- x to the power n. -/
def cpow (x : Dy × Dy) : Nat → Nat → Dy × Dy
  | 0, _ => (⟨1, 0⟩, Dy.zero)
  | fuel + 1, n =>
    if n == 0 then (⟨1, 0⟩, Dy.zero)
    else
      let h := cpow (ccut (cmul x x)) fuel (n / 2)
      if n % 2 == 1 then ccut (cmul x h) else h

/-- |a|². -/
def cabs2 (a : Dy × Dy) : Dy := (a.1.mul a.1).add (a.2.mul a.2)

/-- a / b for b other than zero. -/
def cdiv (a b : Dy × Dy) : Dy × Dy :=
  let n := cmul a (b.1, b.2.neg)
  let d := cabs2 b
  (n.1.div d, n.2.div d)

/-! ### Logarithms and exponentials, in units of 2^-192 -/

/-- ln 2. -/
def ln2Fx : Int := 4350955369971217654477563090224794165364344896676135745069

/-- ln of a number from 1 up, in units of 2^-192. -/
def lnFx (n : Nat) : Int :=
  let k := Nat.log2 n
  let z : Int := ((n - 2 ^ k) * 2 ^ 192 / (n + 2 ^ k) : Nat)
  let z2 := (z * z).fdiv (2 ^ 192)
  let r := (List.range 62).foldl (fun (acc : Int × Int) i =>
    ((acc.1 * z2).fdiv (2 ^ 192), acc.2 + acc.1.fdiv (2 * i + 1 : Nat))) (z, 0)
  2 * r.2 + k * ln2Fx

/-- ln of a positive number. -/
def Dy.ln (x : Dy) : Int := lnFx x.m.natAbs + x.e * ln2Fx

/-- e to the power t · 2^-192. -/
def expFx (t : Int) : Dy :=
  let k := t.fdiv ln2Fx
  let r := t - k * ln2Fx
  let p := (List.range 52).foldl (fun (acc : Int × Int) i =>
    ((acc.1 * r).fdiv ((i + 1) * 2 ^ 192 : Nat), acc.2 + acc.1)) ((2 ^ 192 : Int), 0)
  ⟨p.2, k - 192⟩

end Sys2Proof.Machine
end

