-- ==== Sys2Proof/Machine/Out.lean ====
section
/-!
DEFINITION. Sys2Proof/Machine/Out.lean: output groups and destinations: their commands, data frames with fragmentation, and what the
firmware answers (R232 to R242, R390, R391).
-/
namespace Sys2Proof.Machine

/-! ### Definitions (OUT_GROUP_DEF, OUT_DEST) -/

/-- The list entries of a group, read from host memory. -/
def outItems (n : Nat) (b : List Byte) : List OutItem :=
  (List.range n).map fun i => ⟨le b (32 * i) 2, le b (32 * i + 2) 2, bytesAt b (32 * i + 8) 16⟩

/-- The first entry that is out of range or repeats a SIDX. -/
def outBadItem (n : Nat) (b : List Byte) : Option Nat :=
  (List.range n).find? fun i =>
    decide (8191 < le b (32 * i) 2) || !zeroAt b (32 * i + 4) 4 || !zeroAt b (32 * i + 24) 8 ||
      (List.range i).any fun j => le b (32 * j) 2 == le b (32 * i) 2

/-- FRAMESIZE of a group by the shadow tables (R237). -/
def State.outShadowSize (s : State) (g : OutGroup) : Nat :=
  16 + (g.items.map fun i =>
    let l := (layoutOf s.ing.streams.shadow s.pmu.cfg.shadow i.sidx).1.getD (0, 0, 0, 0)
    10 + 8 * l.1 + 4 * l.2.1 + 2 * l.2.2.1).foldl (· + ·) 0

/-- OUT_GROUP_DEF (0x40): body. The buffer operand holds the list entries and after them the header text
(notes/assumptions/59.md). -/
def outGroupDefBody (buf : HostRead) (p : List Byte) (s : State) : CmdRes :=
  let g := le p 8 1
  let en := bit (le p 9 1) 0
  let rate := le p 10 1
  let n := le p 14 2
  let hlen := if le p 32 8 == 0 then 0 else le p 40 2
  checked [(decide (15 < g), St.badParam), (decide (3 < le p 9 1), St.badParam),
      (en && (decide (11 < rate) || decide (rateOf s.aln.cadShadow < rateOf rate) ||
        rateOf s.aln.cadShadow % max (rateOf rate) 1 != 0), St.badParam), (!zeroAt p 11 1, St.badParam),
      (en && (le p 12 2 == 0 || decide (65534 < le p 12 2)), St.badParam), (en && n == 0, St.badLength),
      (if en then decide (1024 < n) else n != 0, St.badParam),
      (en && (le p 16 4 == 0 || decide (16777215 < le p 16 4)), St.badParam), (!zeroAt p 20 4, St.badParam),
      (if en then le p 24 8 % 8 != 0 else le p 24 8 != 0, St.badParam), (!en && le p 32 8 != 0, St.badParam),
      (decide (1024 < le p 40 2), St.badLength), (s.cmd.prep.isSome, St.busy)] s
    (if !en then ⟨St.ok, [], (s.modOut fun o => { o with groups := o.groups.del g }).healAll 11 [g]⟩
    else withBuf buf s fun b =>
      match outBadItem n b with
      | some i => ⟨St.badParam, toLe 2 i, s⟩
      | none =>
        let x : OutGroup := ⟨bit (le p 9 1) 1, rate, le p 12 2, le p 16 4, outItems n b, bytesAt b (32 * n) hlen⟩
        if 65507 < s.outShadowSize x then CmdRes.fail St.noResource s
        else ⟨St.ok, [], (s.modOut fun o => { o with groups := o.groups.put g x }).healAll 11 [g]⟩)

/-- OUT_GROUP_DEF (R232, R237). -/
def execOutGroupDef (r : Fn) (buf : HostRead) (s : State) : Result :=
  (s.plain r 0x40 42 false (fun _ => true) (outGroupDefBody buf)).done

/-- The ports a destination's frames leave from: both of a PRP pair where it names one (R365). -/
def State.outPorts (s : State) (ports : Nat) : List Nat :=
  (List.range 5).filter fun p => bit ports p || (s.prpOn p && (bit ports 0 || bit ports 1))

/-- Is a frame of a destination tagged on port p (R353). -/
def State.outTagged (s : State) (vlan : Option Nat) (p : Nat) : Bool := vlan.isSome || s.flag (pfld F.MAC_VLAN_P_TAG_EN p)

/-- L: the largest IP packet for a destination (R238). -/
def State.outL (s : State) (ports : Nat) (vlan : Option Nat) : Nat :=
  (s.outPorts ports).foldl (fun m p =>
    min m (s.get (pfld F.MAC_MAXLEN_P_LEN p) - 18 - (if s.outTagged vlan p then 4 else 0) - (if s.prpOn p then 6 else 0))) 65535

/-- OUT_DEST's definition. -/
def outDestOf (p : List Byte) : OutDest :=
  let f := le p 11 1
  { group := le p 9 1, ports := le p 10 1, startOn := bit f 0, vlan := if bit f 1 then some (le p 38 2) else none,
    fixedMac := if bit f 2 then some (be p 32 6) else none, dport := le p 12 2, sport := le p 14 2, addr := be p 16 16,
    tc := le p 40 1, dscp := le p 41 1, ttl := le p 42 1 }

/-- OUT_DEST (0x41): body. -/
def outDestBody (p : List Byte) (s : State) : CmdRes :=
  let d := le p 8 1
  let off := le p 9 1 == 0xFF
  let x := outDestOf p
  let g := mget s.outp.groups.shadow x.group
  let size := (g.map s.outShadowSize).getD 0
  checked [(decide (15 < d), St.badParam), (!off && decide (15 < x.group), St.badParam),
      (decide (31 < x.ports) || (!off && x.ports == 0), St.badParam), (decide (7 < le p 11 1), St.badParam),
      (!off && x.dport == 0, St.badParam), (!off && x.sport == 0, St.badParam), (bit (le p 38 2) 12, St.badParam),
      (!off && decide (6 < x.tc), St.badParam), (decide (63 < x.dscp), St.badParam), (!off && x.ttl == 0, St.badParam),
      (!zeroAt p 43 5, St.badParam), (!off && g.isNone, St.state), (s.cmd.prep.isSome, St.busy),
      (!off && !isV4 x.addr && decide (s.outL x.ports x.vlan < 48 + size), St.badLength)] s
    ⟨St.ok, [], (s.modOut fun o => { o with dests := if off then o.dests.del d else o.dests.put d x }).healAll 12 [d]⟩

/-- OUT_DEST (R232, R238). -/
def execOutDest (r : Fn) (s : State) : Result := (s.plain r 0x41 48 false (fun _ => true) outDestBody).done

/-! ### Data frames (R235, R236) -/

/-- A float of a frame: NaN where it is not to be shown. -/
def outF (bad : Bool) (x : Nat) : List Byte := toBe 4 (if bad then f32NaN else x)

/-- A phasor in polar form: magnitude and angle in radians, each within the stated error. -/
def outPolar (re im : Nat) : Nat × Nat := (mag re im, radAngle re im)

/-- A stream's block in a set. -/
def State.outBlockBytes (s : State) (d : SetDesc) (polar chg : Bool) (b : OutBlock) : List Byte :=
  let gone := (b.stale.map fun t => decide (t ≤ ukey (d.soc, d.ns))).getD false
  match (if gone then none else s.setRec d b.sidx) with
  | none => toBe 2 0xC000 ++ (List.replicate (2 * b.ph + 2 + b.an) (toBe 4 f32NaN)).flatten ++ zeros (2 * b.dg)
  | some ws =>
    let word (i : Nat) : SWord := (ws[2 + i]?).getD ⟨0, false, true⟩
    let hi (i : Nat) : Bool × Nat := let w := word i; (w.poison || bits w.v.toNat 7 6 != 0, bits w.v.toNat 71 40)
    let lo (i : Nat) : Bool × Nat := let w := word i; (w.poison || bits w.v.toNat 3 2 != 0, bits w.v.toNat 39 8)
    let st := bits (((ws.head?).map fun w => w.v.toNat).getD 0) 48 33
    let phasor (i : Nat) : List Byte :=
      let a := hi i
      let im := (lo i).2
      let v := if polar then outPolar a.2 im else (a.2, im)
      outF a.1 v.1 ++ outF a.1 v.2
    let f := hi b.ph
    let r := lo b.ph
    let hz := f32Round (if b.fnom == 1 then 50 else 60) 1
    let analog (i : Nat) : List Byte :=
      let v := if i % 2 == 0 then hi (b.ph + 1 + i / 2) else lo (b.ph + 1 + i / 2)
      outF v.1 v.2
    let digital (i : Nat) : List Byte :=
      let w := word (b.ph + 1 + (b.an + 1) / 2 + i / 4)
      toBe 2 (if w.poison then 0 else bits w.v.toNat (71 - 16 * (i % 4)) (56 - 16 * (i % 4)))
    toBe 2 (if chg then Nat.lor st 0x400 else st) ++ (List.range b.ph).flatMap phasor ++
      outF f.1 (f32AddSub false f.2 hz) ++ outF r.1 r.2 ++ (List.range b.an).flatMap analog ++ (List.range b.dg).flatMap digital

/-- The data frame of a group for a set (R235). -/
def State.outFrame (s : State) (d : SetDesc) (n : Nat) (g : OutGroup) (bs : List OutBlock) : List Byte :=
  let chg := (((mget (s.outAt d.epoch).chgWas n).getD (mget s.outp.chg n)).map fun t => decide (s.now < t)).getD false
  let frac := min ((d.ns * g.timeBase + 500000000) / 1000000000) (g.timeBase - 1)
  let b := toBe 2 0xAA02 ++ toBe 2 (outFrameSize bs) ++ toBe 2 g.idcode ++ toBe 4 d.soc ++ toBe 1 d.tq ++ toBe 3 frac ++
    bs.flatMap (s.outBlockBytes d g.polar chg)
  b ++ toBe 2 (crcCcitt b)

/-! ### Datagrams (R238 to R240, R390, R391) -/

/-- A UDP segment with its checksum over a pseudo header. -/
def udpSegment (pseudo : List Byte) (sport dport : Nat) (data : List Byte) : List Byte :=
  let u := toBe 2 sport ++ toBe 2 dport ++ toBe 2 (8 + data.length)
  let c := cksum (pseudo ++ u ++ toBe 2 0 ++ data)
  u ++ toBe 2 (if c == 0 then 65535 else c) ++ data

/-- Cuts a list into pieces of n. -/
def pieces {α : Type} (n : Nat) (l : List α) : List (List α) :=
  (List.range (ceilDiv l.length (max n 1))).map fun i => (l.drop (n * i)).take n

/-- An IPv4 packet of a destination: a whole segment, or a fragment at an offset of 8-byte units. -/
def ip4Packet (x : OutDest) (src id ofs : Nat) (more : Bool) (data : List Byte) : List Byte :=
  let h1 := toBe 1 0x45 ++ toBe 1 (4 * x.dscp) ++ toBe 2 (20 + data.length) ++ toBe 2 id ++
    toBe 2 (ofs + (if more then 0x2000 else 0)) ++ toBe 1 x.ttl ++ toBe 1 17
  let h2 := toBe 4 (bits src 31 0) ++ toBe 4 (bits x.addr 31 0)
  h1 ++ toBe 2 (cksum (h1 ++ toBe 2 0 ++ h2)) ++ h2 ++ data

/-- The IP packets of a datagram from a source address; none of an IPv6 one longer than L. -/
def outPackets (x : OutDest) (src id l : Nat) (data : List Byte) : List (List Byte) :=
  if isV4 x.addr then
    let seg := udpSegment (toBe 4 (bits src 31 0) ++ toBe 4 (bits x.addr 31 0) ++ toBe 2 17 ++ toBe 2 (8 + data.length)) x.sport x.dport data
    if 20 + seg.length ≤ l then [ip4Packet x src id 0 false seg]
    else
      let c := (l - 20) / 8 * 8
      let ps := pieces c seg
      ps.zipIdx.map fun q => ip4Packet x src id (c / 8 * q.2) (decide (q.2 + 1 < ps.length)) q.1
  else
    let seg := udpSegment (toBe 16 src ++ toBe 16 x.addr ++ toBe 4 (8 + data.length) ++ toBe 4 17) x.sport x.dport data
    if 40 + seg.length ≤ l then
      [toBe 4 (0x60000000 + x.dscp * 2 ^ 22) ++ toBe 2 seg.length ++ toBe 1 17 ++ toBe 1 x.ttl ++ toBe 16 src ++ toBe 16 x.addr ++ seg]
    else []

/-- Is an output frame from port p sent with the shared addresses of a twin pair (R391). -/
def State.outShared (s : State) (p : Nat) : Bool := s.twin && s.twn.shared && decide (p < 2)

/-- The source IP address on port p of a packet of IP version 4 or 6: the shared one, or the port's own. -/
def State.outSrc (s : State) (p : Nat) (v4 : Bool) : Nat :=
  if s.outShared p then
    (List.range 4).foldl (fun a i => a + (s.rd (R.TWN_SHARED_IP_0 + 4 * i)).toNat * 2 ^ (32 * i)) 0
  else portIp p v4

/-- A frame with the shared source MAC address. -/
def State.outResrc (s : State) (p : Nat) (f : TxFrame) : TxFrame :=
  if s.outShared p then
    let m := s.get64 R.TWN_SHARED_MAC_LO R.TWN_SHARED_MAC_HI % 2 ^ 48
    { f with bytes := f.bytes.take 6 ++ toBe 6 m ++ f.bytes.drop 12 }
  else f

/-- What sending a set's datagrams carries along: frames produced for the PRP pair so far, and whether the set has logged
EV_TWN_SEQ_OVF. -/
structure OutRun where
  s : State
  idx : Nat
  ovf : Bool

/-- The sequence number of the next frame for the pair (R390); none: the pair's counter. Each frame uses up its index. -/
def OutRun.seq (r : OutRun) (slot : Nat) : Option Nat × OutRun :=
  let s := r.s
  let sh := s.get F.TWN_SEQ_SHIFT
  if !(s.twin && s.flag F.TWN_CTRL_SEQ_TT) then (none, { r with idx := r.idx + 1 })
  else if r.idx < 2 ^ sh then (some ((slot * 2 ^ sh + r.idx) % 65536), { r with idx := r.idx + 1 })
  else
    let s := s.inc F.TWN_CNT_SEQOVF_COUNT
    (none, ⟨if r.ovf then s else s.ev0 Ev.TWN_SEQ_OVF, r.idx + 1, true⟩)

/-- Sends one datagram of destination d, whose MAC address is given where it is known (R238, R240): after a refusal on a port, later
fragments do not go to it. `slot` is some for a data frame of a set. -/
def OutRun.datagram (r : OutRun) (d : Nat) (x : OutDest) (mac : Option Nat) (tc : Nat) (slot : Option Nat) (data : List Byte) : OutRun :=
  let s := r.s
  let ps := s.outPorts x.ports
  let id := mgetD s.outp.ipIds d (Config.op "out.id" [d] % 65536)
  let l := s.outL x.ports x.vlan
  let npk := (outPackets x 0 id l data).length
  let paired := ps.any s.prpOn
  let s := s.modOut fun o => { o with ipIds := mput o.ipIds d ((id + 1) % 65536) }
  match mac with
  | none => ⟨s.inc (ogf F.OUT_NORES_COUNT d), if paired && slot.isSome then r.idx + npk else r.idx, r.ovf⟩
  | some mac =>
    let et := if isV4 x.addr then 0x0800 else 0x86DD
    let one (a : OutRun × List Nat) (i : Nat) : OutRun × List Nat :=
      let r := a.1
      let q : Option Nat × OutRun := if paired then
          let q := match slot with
            | some n => r.seq n
            | none => (none, r)
          match q.1 with
          | some n => (some n, q.2)
          | none => (some (q.2.s.get F.MAC_PRP_SEQ_SEQ), { q.2 with s := q.2.s.inc F.MAC_PRP_SEQ_SEQ })
        else (none, r)
      (ps.filter fun p => !a.2.contains p).foldl (fun (b : OutRun × List Nat) p =>
        let s := b.1.s
        let pk := ((outPackets x (s.outSrc p (isV4 x.addr)) id l data)[i]?).getD []
        let tag := match x.vlan with
          | some v => TagWish.own v
          | none => TagWish.port
        let f := s.outResrc p (s.txBuild p tc tag (if slot.isSome then TxKind.output else TxKind.plain)
          (if s.prpOn p then q.1 else none) mac et pk)
        let t := s.txOffer p f
        if t.2 then ({ b.1 with s := t.1 }, b.2)
        else if slot.isSome then ({ b.1 with s := (t.1.inc (ogf F.OUT_DROP_COUNT d)).ev0 Ev.OUT_DROP }, b.2 ++ [p])
        else ({ b.1 with s := t.1 }, b.2 ++ [p])) (q.2, a.2)
    let e := (List.range npk).foldl one (⟨s, r.idx, r.ovf⟩, [])
    if slot.isSome && decide (e.2.length < ps.length) then { e.1 with s := e.1.s.inc (ogf F.OUT_SENT_COUNT d) } else e.1

/-- A destination of an epoch is suspended (R238): the register and the event of the one in effect, the epoch's own copy of one changed
since. -/
def State.outSuspend (s : State) (tag d : Nat) : State :=
  if (mget (s.outAt tag).was d).isSome then
    (s.modOut fun o => { o with epochs := o.epochs.map fun e => if e.tag == tag then
      { e with was := e.was.map fun p => if p.1 == d then (d, { p.2 with sizeErr := true }) else p } else e }).ev0 Ev.OUT_SIZE
  else ((s.setB (ogf F.OUT_DSTAT_SIZE_ERR d) true).ev0 Ev.OUT_SIZE).outSync

/-- A destination's TX_ON, MAC address and SIZE_ERR for sets of an epoch. -/
def State.destNow (s : State) (tag d : Nat) (x : OutDest) : DestWas :=
  (mget (s.outAt tag).was d).getD ⟨smem s.outp.txOn d, s.outMac d x, s.flag (ogf F.OUT_DSTAT_SIZE_ERR d)⟩

/-- One destination's part of a set of epoch `tag`: suspended where the datagram breaks its limit (R238). -/
def OutRun.dest (r : OutRun) (tag d : Nat) (x : OutDest) (slot : Nat) (frame : List Byte) : OutRun :=
  let s := r.s
  let w := s.destNow tag d x
  if !w.on || w.sizeErr then r
  else if !isV4 x.addr && decide (s.outL x.ports x.vlan < 48 + frame.length) then { r with s := s.outSuspend tag d }
  else r.datagram d x w.mac x.tc (some slot) frame

/-- OUTPUT_FRAME_SEND: a released set is framed for every group that takes it (R233, R239). -/
def State.outSet (s : State) (d : SetDesc) : State :=
  if !s.flag F.OUT_CTRL_EN then s
  else
    let e := s.outAt d.epoch
    let fc := rateOf d.rate
    let slot := d.soc * fc + d.k
    let s := s.modOut fun o => { o with slot := slot }
    (e.groups.foldl (fun (r : OutRun) g =>
      let q := fc / max (rateOf g.2.1.rate) 1
      if outRateOk g.2.1 d.rate && slot % max q 1 == 0 then
        let s := r.s.inc (ogf F.OUT_SETS_COUNT g.1)
        let f := s.outFrame d g.1 g.2.1 g.2.2
        (e.dests.filter fun x => x.2.group == g.1).foldl (fun r x => r.dest d.epoch x.1 x.2 slot f) { r with s := s }
      else r) ⟨s, 0, false⟩).s

/-! ### The firmware's part (R241, R242) -/

/-- A name of 16 bytes padded with spaces. -/
def name16 (t : List Nat) : List Byte := (t ++ List.replicate (16 - t.length) 0x20).map fun c => BitVec.ofNat 8 c

/-- Decimal digits in ASCII, at most three. -/
def digits (n : Nat) : List Nat :=
  (if 100 ≤ n then [0x30 + n / 100 % 10] else []) ++ (if 10 ≤ n then [0x30 + n / 10 % 10] else []) ++ [0x30 + n % 10]

/-- One block of a CFG-1 or CFG-2 frame (R242). -/
def cfgBlock (polar : Bool) (cfgcnt : Nat) (b : OutBlock) : List Byte :=
  let names := (List.range b.ph).flatMap (fun i => name16 ([0x50, 0x48] ++ digits i)) ++
    (List.range b.an).flatMap (fun i => name16 ([0x41, 0x4E] ++ digits i)) ++
    (List.range b.dg).flatMap (fun w => (List.range 16).flatMap fun i => name16 ([0x44] ++ digits w ++ [0x2E] ++ digits i))
  b.stn ++ toBe 2 b.idcode ++ toBe 2 (if polar then 0x000F else 0x000E) ++ toBe 2 b.ph ++ toBe 2 b.an ++ toBe 2 b.dg ++ names ++
    zeros (4 * b.ph + 4 * b.an) ++ (List.replicate b.dg (toBe 4 0x0000FFFF)).flatten ++ toBe 2 b.fnom ++ toBe 2 cfgcnt

/-- A name of a CFG-3 frame: its length, then the name. -/
def longName (n : List Byte) : List Byte := toBe 1 n.length ++ n

/-- One block of a CFG-3 frame (R242). What the spec does not give (G_PMU_ID, scales, place, class, window, delay) is open. -/
def cfg3Block (polar : Bool) (cfgcnt : Nat) (b : OutBlock) : List Byte :=
  let names := (List.range b.ph).flatMap (fun i => longName (name16 ([0x50, 0x48] ++ digits i))) ++
    (List.range b.an).flatMap (fun i => longName (name16 ([0x41, 0x4E] ++ digits i))) ++
    (List.range b.dg).flatMap (fun w => (List.range 16).flatMap fun i => longName (name16 ([0x44] ++ digits w ++ [0x2E] ++ digits i)))
  let op (t : String) (n : Nat) : List Byte := (List.range n).map fun i => BitVec.ofNat 8 (Config.op t [b.sidx, i])
  longName b.stn ++ toBe 2 b.idcode ++ op "cfg3.id" 16 ++ toBe 2 (if polar then 0x000F else 0x000E) ++ toBe 2 b.ph ++ toBe 2 b.an ++
    toBe 2 b.dg ++ names ++ op "cfg3.phscale" (12 * b.ph) ++ op "cfg3.anscale" (8 * b.an) ++
    (List.replicate b.dg (toBe 4 0x0000FFFF)).flatten ++ op "cfg3.place" 21 ++ toBe 2 b.fnom ++ toBe 2 cfgcnt

/-- A frame's head and CHK around its body: SYNC, FRAMESIZE, IDCODE, time of sending. -/
def State.c37Frame (s : State) (sync idcode timeBase : Nat) (body : List Byte) : List Byte :=
  let u := s.utcOf s.taiNs
  let b := toBe 2 sync ++ toBe 2 (16 + body.length) ++ toBe 2 idcode ++ toBe 4 u.1 ++ toBe 1 s.tqByte ++
    toBe 3 (min ((u.2 * timeBase + 500000000) / 1000000000) (timeBase - 1)) ++ body
  b ++ toBe 2 (crcCcitt b)

/-- CFG-3's frames: the body is cut so that each frame, 18 bytes longer than its piece, meets R238. CONT_IDX is 0 in an only frame, else it
counts from 1, and is 0xFFFF in the last. -/
def State.cfg3Frames (s : State) (x : OutGroup) (limit : Nat) (body : List Byte) : List (List Byte) :=
  let ps := pieces (limit - 18) body
  ps.zipIdx.map fun p =>
    let idx := if ps.length == 1 then 0 else if p.2 + 1 == ps.length then 0xFFFF else p.2 + 1
    s.c37Frame 0xAA52 x.idcode x.timeBase (toBe 2 idx ++ p.1)

/-- The frames that answer a command, or none where the command is none of the list (R241); `limit` is the longest frame of R238. -/
def State.outAnswer (s : State) (g : Nat) (x : OutGroup) (bs : List OutBlock) (limit cmd : Nat) : Option (List (List Byte)) :=
  let cnt := s.get (ogf F.OUT_CFGCNT_CFGCNT g)
  let body (block : OutBlock → List Byte) : List Byte := toBe 4 x.timeBase ++ toBe 2 bs.length ++ bs.flatMap block ++ toBe 2 (rateOf x.rate)
  let cfg (sync : Nat) : List (List Byte) := [s.c37Frame sync x.idcode x.timeBase (body (cfgBlock x.polar cnt))]
  match cmd with
  | 3 => some [s.c37Frame 0xAA12 x.idcode x.timeBase x.header]
  | 4 => some (cfg 0xAA22)
  | 5 => some (cfg 0xAA32)
  | 6 => some (s.cfg3Frames x limit (body (cfg3Block x.polar cnt)))
  | _ => none

/-- What a command frame does for one destination (R241). -/
def State.outCommand (s : State) (d : Nat) (x : OutDest) (cmd : Nat) : State :=
  match mget s.outNow.groups x.group with
  | none => s
  | some g =>
    if cmd == 1 then ((s.modOut fun o => { o with txOn := sdel o.txOn d }).outSync).ev0 Ev.OUT_CMD
    else if cmd == 2 then ((s.modOut fun o => { o with txOn := sadd o.txOn d }).outSync).ev0 Ev.OUT_CMD
    else
      let limit := if isV4 x.addr then 65507 else s.outL x.ports x.vlan - 48
      match s.outAnswer x.group g.1 g.2 limit cmd with
      | none => s.modOut fun o => { o with ignored := o.ignored + 1 }
      | some fs => ((fs.foldl (fun (r : OutRun) f => r.datagram d x (r.s.outMac d x) 0 none f) ⟨s, 0, false⟩).s).ev0 Ev.OUT_CMD

/-- OUT_CMD_FRAME_RX (R241): the firmware takes the oldest IP frame or command frame in its queue. -/
def execOutCmdFrameRx (s : State) : Result :=
  let mine (x : FwFrame) : Bool := x.kind == 0 || (x.kind == 3 && c37Type (udpData x.bytes) == 4)
  match s.ing.fwq.find? mine with
  | none => s.done
  | some x =>
    if s.fwRuns then
      let s := { s with ing := { s.ing with fwq := s.ing.fwq.erase x } }
      let f := udpData x.bytes
      if ipOk x.bytes && c37Ok f && c37Type f == 4 && c37Crc f then
        let hit (p : Nat × OutDest) : Bool := udpDport x.bytes == p.2.sport && ipSrc x.bytes == p.2.addr &&
          ((mget s.outNow.groups p.2.group).map fun g => g.1.idcode == be f 4 2).getD false
        ((s.outNow.dests.filter hit).foldl (fun s p => s.outCommand p.1 p.2 (be f 14 2)) s).done
      else s.done
    else s.done

/-- OUT_DEST_RESOLVE (R242): the firmware has resolved a unicast destination, or lost it. -/
def execOutDestResolve (d : Fin 16) (mac : Option Nat) (s : State) : Result :=
  match mget s.outNow.dests d with
  | none => s.done
  | some x =>
    if s.fwRuns && x.fixedMac.isNone && !isMcast x.addr then
      match mac with
      | some m => (s.modOut fun o => { o with macs := mput o.macs d (m % 2 ^ 48) }).outSync.done
      | none => ((s.modOut fun o => { o with macs := merase o.macs d }).outSync.ev0 Ev.OUT_NORESOLVE).done
    else s.done

/-- OUT_CFGCHG_EXPIRY (R236): STAT bit 10 is no longer set. -/
def execOutCfgchgExpiry (g : Fin 16) (s : State) : Result :=
  match mget s.outp.chg g with
  | none => s.done
  | some t => ((s.reach t).modOut fun o => { o with chg := merase o.chg g }).done

end Sys2Proof.Machine
end

