-- ==== Sys2Proof/Machine/Cas.lean ====
section
/-!
DEFINITION. Sys2Proof/Machine/Cas.lean: the cascade link: joining and leaving, digests built and received, members lost (R243 to R252).
-/
namespace Sys2Proof.Machine

/-! ### Frames (R246) -/

/-- The registers of the unit's own join follow. -/
def State.casSync (s : State) : State :=
  let j := s.flag F.CAS_STAT_JOINED
  let s := s.set F.CAS_STAT_MEMBER (if j then (s.cas.join.map fun x => x.member).getD 0 else 0)
  if j then s.put64 R.CAS_UP_MAC_LO R.CAS_UP_MAC_HI ((s.cas.join.map fun x => x.mac).getD 0) else s

/-- Is the unit allowed to send digests: standalone, or the active one of a pair (R243, R382). -/
def State.casActive (s : State) : Bool := !s.twin || s.get F.TWN_STAT_ROLE == 2

/-- A cascade header (R246). -/
structure CasHdr where
  msg : Nat
  group : Nat
  member : Nat
  depth : Nat
  frag : Nat
  nfrag : Nat
  dseq : Nat
  soc : Nat
  ns : Nat
  auth : Bool
  reason : Nat
  keyId : Nat

/-- A cascade frame's payload before its tag. -/
def CasHdr.bytes (h : CasHdr) (ws : List SWord) : List Byte :=
  toBe 2 0x4344 ++ [1] ++ toBe 1 h.msg ++ toBe 4 h.group ++ toBe 1 h.member ++ toBe 1 h.depth ++ toBe 1 h.frag ++ toBe 1 h.nfrag ++
    toBe 4 h.dseq ++ toBe 4 h.soc ++ toBe 4 h.ns ++ toBe 2 ws.length ++ toBe 1 (b2n h.auth) ++ toBe 1 h.reason ++ toBe 4 h.keyId ++
    ws.flatMap fun w => toBe 9 w.v.toNat ++ toBe 1 (flagByte w.eop w.poison false false)

/-- The GMAC tag of a payload: IV from GROUP_ID, MEMBER, FRAG, DSEQ, MSG; an open function of key, IV and bytes. -/
def gmac (type key : Nat) (b : List Byte) : List Byte :=
  toBe 16 (Config.op "gmac" (type :: key :: be b 4 4 :: be b 8 1 :: be b 10 1 :: be b 12 4 :: be b 3 1 :: nums b))

/-- A key that serves the cascade (R464). -/
def State.casKey (s : State) (id : Nat) : Option (Nat × KeySlot) :=
  match s.keyFind id with
  | some (n, k) => if bit k.use 1 && decide (2 ≤ k.type) && k.st = .valid then some (n, k) else none
  | none => none

/-- Sends a cascade frame, untagged, in class CAS_CTRL.TC (R243, R353). -/
def State.casSend (s : State) (port mac : Nat) (b : List Byte) : State :=
  (s.send port (s.get F.CAS_CTRL_TC) .never .plain none mac 0x88B5 b).1

/-- A message of the handshake. DSEQ, SOC and NS of one are not stated: open values. -/
def State.casMsg (s : State) (msg group member reason : Nat) : List Byte :=
  CasHdr.bytes ⟨msg, group, member, s.casDepth, 0, 1, Config.op "cas.dseq" [msg] % 2 ^ 32, Config.op "cas.soc" [msg] % 2 ^ 32,
    Config.op "cas.ns" [msg] % 2 ^ 32, false, reason, 0⟩ []

/-- Reads a header. -/
def casHdrOf (b : List Byte) : CasHdr :=
  ⟨be b 3 1, be b 4 4, be b 8 1, be b 9 1, be b 10 1, be b 11 1, be b 12 4, be b 16 4, be b 20 4, be b 26 1 == 1, be b 27 1, be b 28 4⟩

/-- The oldest cascade frame that is one of the messages given, and the state without it. -/
def State.casTake (s : State) (mine : List Byte → Bool) : Option (Nat × (Nat × (Nat × List Byte))) × State :=
  match s.cas.rxq.find? fun f => mine f.2.2.2 with
  | none => (none, s)
  | some f => (some f, s.modCas fun c => { c with rxq := c.rxq.erase f })

/-! ### Joining and leaving (R244, R252) -/

/-- Sends a JOIN to the manager. -/
def State.sendJoin (s : State) : State :=
  match s.cas.join with
  | none => s
  | some j => (s.modCas fun c => { c with joinSent := s.now }).casSend (s.get F.CAS_CTRL_PORT) j.mac (s.casMsg 1 j.group j.member 0)

/-- CAS_JOIN (0x42): body. -/
def casJoinBody (buf : HostRead) (p : List Byte) (s : State) : CmdRes :=
  let n := le p 20 2
  let auth := bit (le p 15 1) 0
  let join (fwd : List Nat) : CmdRes :=
    if auth && (s.keyFind (le p 32 4)).isNone then CmdRes.fail St.keyMissing s
    else
      let j : CasJoin := ⟨be p 8 6, le p 14 1, if auth then some (le p 32 4) else none, le p 16 4, fwd⟩
      let s := s.modCas fun c => { c with join := some j, joinAt := s.now }
      ⟨St.pending, [], (s.setB F.CAS_STAT_JOIN_PEND true).sendJoin⟩
  checked [(le p 14 1 == 0 || decide (15 < le p 14 1), St.badParam), (decide (1 < le p 15 1), St.badParam),
      (decide (256 < n), St.badParam), (!zeroAt p 22 2, St.badParam), (n == 0 && le p 24 8 != 0, St.badParam),
      (s.tier == 2 || s.flag F.CAS_STAT_JOINED || s.flag F.CAS_STAT_JOIN_PEND, St.state)] s
    (if n == 0 then join []
    else withBuf buf s fun b =>
      let l := (List.range n).map fun i => le b (2 * i) 2
      if l.all fun x => decide (x ≤ 8191) then join l else CmdRes.fail St.badParam s)

/-- CAS_JOIN (R244). -/
def execCasJoin (r : Fn) (buf : HostRead) (s : State) : Result := (s.plain r 0x42 36 false (fun _ => true) (casJoinBody buf)).done

/-- JOIN_RETRY (R244): JOIN goes out every 100 ms while a join is pending. -/
def execJoinRetry (s : State) : Result :=
  if s.flag F.CAS_STAT_JOIN_PEND && s.fwRuns && decide (s.cas.joinSent + ticksOfMs 100 < s.cas.joinAt + ticksOfS 2) then
    (s.reach (s.cas.joinSent + ticksOfMs 100)).sendJoin.done
  else s.done

/-- A join fails with a reason. -/
def State.joinFail (s : State) (reason : Nat) : State :=
  let s := (s.setB F.CAS_STAT_JOIN_PEND false).set F.CAS_STAT_REASON reason
  (s.modCas fun c => { c with join := none }).ev0 Ev.CAS_JOIN_FAIL

/-- JOIN_TIMEOUT (R244): no answer within 2 s. -/
def execJoinTimeout (s : State) : Result :=
  if s.flag F.CAS_STAT_JOIN_PEND && s.fwRuns then ((s.reach (s.cas.joinAt + ticksOfS 2)).joinFail 15).done else s.done

/-- Is a frame well formed but for its message's own fields (R246). -/
def casWf (b : List Byte) : Bool :=
  let h := casHdrOf b
  be b 2 1 == 1 && h.nfrag != 0 && decide (h.frag < h.nfrag) && decide (be b 26 1 ≤ 1) &&
    decide (32 + 10 * be b 24 2 + (if h.auth then 16 else 0) ≤ b.length)

/-- Is a message of the handshake well formed (R246): it has no words. -/
def casMsgOk (b : List Byte) : Bool := casWf b && be b 24 2 == 0

/-- JOIN_ANSWER_RX (R244): the member's firmware takes an ACCEPT or REJECT. -/
def execJoinAnswerRx (s : State) : Result :=
  if !s.fwRuns then s.done
  else
    let r := s.casTake fun b => be b 3 1 == 2 || be b 3 1 == 3
    match r.1, r.2.cas.join with
    | some f, some j =>
      let h := casHdrOf f.2.2.2
      if casMsgOk f.2.2.2 && r.2.flag F.CAS_STAT_JOIN_PEND && f.2.2.1 == j.mac && h.group == j.group && h.member == j.member then
        if h.msg == 2 then
          let s := (r.2.setB F.CAS_STAT_JOIN_PEND false).setB F.CAS_STAT_JOINED true
          ((s.modCas fun c => { c with fresh := true, gap := 0 }).casSync.ev0 Ev.CAS_JOINED).done
        else (r.2.joinFail h.reason).done
      else r.2.done
    | _, _ => r.2.done

/-- REASON with which a JOIN is rejected, 0 for none (R244). How a JOIN carries its number of forwarded streams is not stated: an
open value of the message. -/
def State.joinReason (s : State) (src : Nat) (b : List Byte) : Nat :=
  let h := casHdrOf b
  let w := h.member
  let macA := s.eget (mbr F.CAS_MMACA_LO_MAC w) + 2 ^ 32 * s.eget (mbr F.CAS_MMACA_HI_MAC w)
  let macB := s.eget (mbr F.CAS_MMACB_LO_MAC w) + 2 ^ 32 * s.eget (mbr F.CAS_MMACB_HI_MAC w)
  if w == 0 || decide (15 < w) || !s.casEnabled w then 1
  else if src != macA && (macB == 0 || src != macB) then 2
  else if h.group != s.eget F.CAS_GROUPID_ID then 3
  else if s.tier < h.depth then 4
  else if s.eget (mbr F.CAS_MCFG_NITEMS w) < Config.op "cas.join.nfwd" (nums b) % 257 then 5
  else 0

/-- JOIN_RX (R244): the manager's firmware answers a JOIN; a unit strapped to tier 00 answers nothing. -/
def execJoinRx (s : State) : Result :=
  if !s.fwRuns then s.done
  else
    let r := s.casTake fun b => be b 3 1 == 1
    match r.1 with
    | none => r.2.done
    | some f =>
      if r.2.tier == 0 || !casMsgOk f.2.2.2 then r.2.done
      else
        let b := f.2.2.2
        let h := casHdrOf b
        let why := r.2.joinReason f.2.2.1 b
        let s := r.2.casSend f.1 f.2.2.1 (r.2.casMsg (if why == 0 then 2 else 3) h.group h.member why)
        if why == 0 then
          (s.modMember h.member fun m => { m with joined := true, announce := true, depth := h.depth }).casSync.done
        else s.done

/-- CAS_LEAVE (0x43): body. -/
def casLeaveBody (p : List Byte) (s : State) : CmdRes :=
  let joined := s.flag F.CAS_STAT_JOINED
  checked [(!zeroAt p 8 8, St.badParam), (!joined && !s.flag F.CAS_STAT_JOIN_PEND, St.state)] s
    (match s.cas.join with
    | none => CmdRes.fail St.state s
    | some j =>
      let msg := s.casMsg 4 j.group j.member 0
      let s1 := (s.casSend (s.get F.CAS_CTRL_PORT) j.mac msg).modCas fun c => { c with
        leave := c.leave ++ [(s.now + ticksOfMs 1, (j.mac, msg)), (s.now + ticksOfMs 2, (j.mac, msg))] }
      let s2 := if joined then s1.ev0 Ev.CAS_LEFT else s
      let s3 := ((s2.setB F.CAS_STAT_JOINED false).setB F.CAS_STAT_JOIN_PEND false).set F.CAS_STAT_MEMBER 0
      ⟨St.ok, [], s3.modCas fun c => { c with join := none }⟩)

/-- LEAVE frames that are due go out: the second and third follow the first at 1 ms intervals (R252). -/
def State.leaveDue (s : State) : State :=
  let due := s.cas.leave.filter fun x => decide (x.1 ≤ s.now)
  if due.isEmpty then s
  else due.foldl (fun s x => s.casSend (s.get F.CAS_CTRL_PORT) x.2.1 x.2.2)
    (s.modCas fun c => { c with leave := c.leave.filter fun x => !decide (x.1 ≤ s.now) })

/-- CAS_LEAVE (R252). -/
def execCasLeave (r : Fn) (s : State) : Result := (s.plain r 0x43 16 false (fun _ => true) casLeaveBody).done

/-- LEAVE_RX (R252): a member leaves; its silence no longer counts. -/
def execLeaveRx (s : State) : Result :=
  if !s.fwRuns then s.done
  else
    let r := s.casTake fun b => be b 3 1 == 4
    match r.1 with
    | none => r.2.done
    | some f =>
      let h := casHdrOf f.2.2.2
      let why := r.2.joinReason f.2.2.1 f.2.2.2
      if r.2.tier == 0 || !casMsgOk f.2.2.2 || (1 ≤ why && why ≤ 3) then r.2.done
      else ((r.2.modMember h.member fun m => { m with joined := false, up := false, since := none }).ev0 Ev.CAS_LEFT).done

/-! ### Digests sent (R247, R248) -/

/-- The group map (R247). -/
def State.groupMap (s : State) : List Nat :=
  (List.range 16).map fun j =>
    (List.range 4).foldl (fun a i =>
      let w := 2 + 4 * j + i
      a + (if w < 64 then s.aspWord w else 0) * 2 ^ (56 - 16 * i)) 0

/-- The words of a set's digest. -/
def State.digestWords (s : State) (d : SetDesc) (fwd : List Nat) : List SWord :=
  let feed := s.get F.CAS_CTRL_FEED
  let res := mgetD s.sched.feed (ukey (d.soc, d.ns)) []
  let of (e : Nat) : Option FeedRes := if bit feed e then res.find? fun r => r.engine == e else none
  let skip := (List.range 3).foldl (fun a e => a + (if ((of e).map fun r => !r.ran).getD false then 2 ^ e else 0)) 0
  let isl := ((of 1).map fun r => r.words).getD []
  let modes := ((of 2).map fun r => r.words).getD []
  let max := s.get F.CAS_CTRL_ISLMAX
  let recs := fwd.filterMap fun i => d.recs.find? fun r => r.sidx == i
  let fl := b2n s.cas.fresh + 2 * b2n (s.cas.gap != 0) + 4 * b2n (decide (max < isl.length))
  let d0 := recs.length * 2 ^ 63 + d.nexp % 2 ^ 14 * 2 ^ 49 + d.narr % 2 ^ 14 * 2 ^ 35 +
    (match d.cause with | .all => 0 | .deadline => 1 | .forced => 2) * 2 ^ 33 + feed * 2 ^ 30 + skip * 2 ^ 27 +
    (isl.take max).length * 2 ^ 16 + modes.length / 2 * 2 ^ 11 + fl
  let d1 := s.aspWord0 % 2 ^ 16 * 2 ^ 56 + d.tq * 2 ^ 48 + shortStamp (s.t40At d.releasedAt / 2 ^ 40) * 2 ^ 16 + min s.cas.gap 65535
  markEnd ([d0, d1].map sword ++ recs.flatMap s.refWords ++ s.groupMap.map sword ++ isl.take max ++ modes)

/-- The words of a digest in pages of 1024, no forwarded record crossing a page (R104); `lens` gives the lengths of the records. -/
def digestPages (lens : List Nat) (ws : List SWord) : List (List SWord) :=
  let r := lens.foldl (fun (acc : List (List SWord) × List SWord) n => (acc.1 ++ [acc.2.take n], acc.2.drop n)) ([ws.take 2], ws.drop 2)
  (packPages ((r.1 ++ r.2.map fun w => [w]).map fun x => (0, x))).map fun p => p.flatMap Prod.snd

/-- A digest's frames. -/
def State.digestFrames (s : State) (j : CasJoin) (d : SetDesc) (key : Option KeySlot) (ws : List SWord) : List (List Byte) :=
  let per := (s.get (pfld F.MAC_MAXLEN_P_LEN (s.get F.CAS_CTRL_PORT)) - 76) / 10
  let ps := pieces per ws
  ps.zipIdx.map fun q =>
    let b := CasHdr.bytes ⟨0, j.group, j.member, s.casDepth, q.2, ps.length, s.cas.dseq, d.soc, d.ns, j.key.isSome, 0, j.key.getD 0⟩ q.1
    match key with
    | some k => b ++ gmac k.type k.key b
    | none => b

/-- A digest is not built: the next one tells. -/
def State.digestMiss (s : State) : State := s.modCas fun c => { c with gap := c.gap + 1 }

/-- Builds and sends the digest of a set that was released under a join. -/
def State.digestSend (s : State) (j : CasJoin) (d : SetDesc) : State :=
  if !s.flag F.CAS_CTRL_EN || !s.casActive then s.digestMiss
  else
    let ws := s.digestWords d j.fwd
    let lens := j.fwd.filterMap fun i => (d.recs.find? fun r => r.sidx == i).map fun r => r.n
    let key := match j.key with
      | some id => s.casKey id
      | none => none
    match j.key, key with
    | some id, none => (if (s.keyFind id).isNone then s.keyMiss id 0 else s).digestMiss
    | _, _ =>
      let h := Holder.digest s.cas.nextId
      let r := (digestPages lens ws).foldl (fun (a : State × List Nat × Bool) p =>
        if a.2.2 then
          let t := a.1.alloc 5 p [h]
          match t.1 with
          | some id => (t.2, a.2.1 ++ [id], true)
          | none => (t.2, a.2.1, false)
        else a) (s, [], true)
      let s := r.1
      if !r.2.2 then (s.dropHolds h r.2.1).digestMiss
      else
        let s := match key with
          | some (k, _) => s.keyRenew k
          | none => s
        let fs := s.digestFrames j d (key.map Prod.snd) ws
        let s := fs.foldl (fun s f => s.casSend (s.get F.CAS_CTRL_PORT) j.mac f) s
        ((s.dropHolds h r.2.1).modCas fun c => { c with dseq := (c.dseq + 1) % 2 ^ 32, gap := 0, fresh := false, nextId := c.nextId + 1 }).inc
          F.CAS_CNT_SENT_COUNT

/-- CASCADE_DIGEST_BUILD (R248): every engine of FEED has finished or skipped the oldest set the builder holds. -/
def execCascadeDigestBuild (s : State) : Result :=
  match s.sched.casc with
  | [] => s.done
  | (j, d) :: rest =>
    let k := ukey (d.soc, d.ns)
    let res := mgetD s.sched.feed k []
    let feed := s.get F.CAS_CTRL_FEED
    if (List.range 3).all fun e => !bit feed e || res.any fun r => r.engine == e then
      let s := s.digestSend j d
      let s := s.dropHolds .cascade d.pages
      ({ s with sched := { s.sched with casc := rest, feed := merase s.sched.feed k } } : State).done
    else s.done

/-! ### Digests received (R245, R249 to R251) -/

/-- A digest frame is discarded: counted and logged. -/
def State.casDiscard (s : State) (f : Fld) : State := (s.inc f).ev0 Ev.CAS_DISCARD

/-- A digest under reassembly is dropped: its pages go. -/
def State.reasmDrop (s : State) (x : CasReasm) : State :=
  (s.dropHolds (.digest x.id) x.pages).modCas fun c => { c with reasm := c.reasm.filter fun y => y.id != x.id }

/-- A digest whose fragments did not all come. -/
def State.reasmFail (s : State) (x : CasReasm) : State := (s.reasmDrop x).casDiscard F.CAS_CNT_INCOMPLETE_COUNT

/-- Cuts forwarded records off a word list: n records, each H0's NWORDS + 2 long. -/
def casRecords : Nat → List SWord → List (List SWord) × List SWord
  | 0, ws => ([], ws)
  | _ + 1, [] => ([], [])
  | n + 1, w :: t =>
    let k := bits w.v.toNat 54 49 + 2
    let r := casRecords n ((w :: t).drop k)
    ((w :: t).take k :: r.1, r.2)

/-- Steps 6, 7, 10 in the form of R249, and 11 to 13 for a forwarded record bound to SIDX `sidx`. -/
def State.casRecord (s : State) (sidx arrival : Nat) (ws : List SWord) : State :=
  let w0 := ((ws[0]?).map fun w => w.v.toNat).getD 0
  let w1 := ((ws[1]?).map fun w => w.v.toNat).getD 0
  let soc := bits w1 71 40
  let ns := bits w1 39 10
  match s.entryFor (fun _ => 1000000000) sidx soc ns with
  | none => s.discard .disabled false sidx
  | some m =>
    let e := m.1
    let pd := decide (m.2.1 = .pending)
    if s.cramPoisoned 0 sidx then s.discard .poison pd sidx
    else if !bit e.flags 0 || !bit e.flags 1 || m.2.1 = .early then s.discard .disabled pd sidx
    else if bits w0 54 49 != e.nwords || ws.length != e.nwords + 2 then s.discard .format pd sidx
    else
      let h := { (ws[0]?).getD (sword 0) with
        v := BitVec.ofNat 72 (h0 3 sidx e.nwords (bits w0 48 33) (shortStamp arrival) 0), eop := false }
      s.commitBlock sidx m soc ns arrival (bits w0 48 33) (h :: (ws.drop 1).map fun w => { w with eop := false }) .plain

/-- Records of TYPE 0x3 that deliver a digest to the host (R250), chained as in R198; `bad`: D1, which gave H1 its TQ, was poisoned. -/
def digestRecs (w arrival soc ns tq : Nat) (bad : Bool) (ws : List SWord) : List (Nat × List SWord) :=
  let ps := pieces 63 ws
  ps.zipIdx.map fun q =>
    let r := [sword (h0 3 w q.1.length 0 arrival 0), { sword (h1 soc ns tq) with poison := bad }] ++ q.1.map fun x => { x with eop := false }
    (w, if q.2 + 1 == ps.length then markEnd r else r)

/-- A whole digest is accepted: records merged, delivery to the host, the member's state and alarms. -/
def State.digestAccept (s : State) (x : CasReasm) : State :=
  let w := x.member
  let frag (i : Nat) : List SWord := ((mget x.frags i).map s.refWords).getD []
  let ws := (List.range x.nfrag).flatMap frag
  let s := s.reasmDrop x
  let v (i : Nat) : Nat := ((ws[i]?).map fun w => w.v.toNat).getD 0
  let recs := casRecords (bits (v 0) 71 63) (ws.drop 2)
  let nitems := s.eget (mbr F.CAS_MCFG_NITEMS w)
  let base := s.eget (mbr F.CAS_MBASE_SIDX_BASE w)
  let s := s.inc F.CAS_CNT_RECV_COUNT
  let s := recs.1.zipIdx.foldl (fun s r =>
    if r.2 < nitems then s.casRecord (base + r.2) x.arrival r.1 else s.inc F.CAS_CNT_UNMAPPED_COUNT) s
  let tq := bits (v 1) 55 48
  let bad := ((ws[1]?).map fun w => w.poison).getD false
  let s := s.offerCopy 8 (2 ^ 8) (digestRecs w (shortStamp x.arrival) x.soc x.ns tq bad (ws.take 2 ++ recs.2))
  let m := s.casMember w
  let fl := b2n s.inhibited + 2 * b2n (!x.verified) + (if tq % 16 == 15 then 4 else 0)
  let any := bit (bits (v 1) 71 56) 0
  let s := s.modMember w fun m => { m with
    up := true, lost := false, any := any, depth := x.depth, dseq := x.dseq, since := some s.now, announce := false }
  let s := if m.announce || m.lost then s.ev0 Ev.CAS_MEMBER_UP else s
  let a := s.casAlarm w false any (if any then 0 else 2) x.dseq fl
  let b := a.1.casAlarm w true false 2 x.dseq fl
  ((b.1.casPublish bad (a.2 ++ b.2) x.soc x.ns tq).casSync).raise 69

/-- Stores a fragment of a digest in CASC pages; none where none can be had. -/
def State.fragStore (s : State) (x : CasReasm) (frag : Nat) (ws : List SWord) : Option CasReasm × State :=
  let fit := match x.pages.getLast? with
    | some id => if s.fits id ws.length then some id else none
    | none => none
  match fit with
  | some id =>
    let o := ((mget s.sett.pages id).map fun p => p.words.length).getD 0
    (some { x with frags := mput x.frags frag ⟨0, id, o, ws.length⟩ }, s.modPage id fun p => { p with words := p.words ++ ws })
  | none =>
    let r := s.alloc 5 ws [.digest x.id]
    match r.1 with
    | none => (none, r.2)
    | some id => (some { x with frags := mput x.frags frag ⟨0, id, 0, ws.length⟩, pages := x.pages ++ [id] }, r.2)

/-- A digest frame that has passed R245 joins its digest. -/
def State.digestFragment (s : State) (h : CasHdr) (arrival : Nat) (ver : Bool) (ws : List SWord) : State :=
  let old := s.cas.reasm.find? fun x => x.member == h.member && x.dseq == h.dseq && x.nfrag == h.nfrag
  let s := if old.isNone && decide (32 ≤ s.cas.reasm.length) then
      match s.cas.reasm with
      | [] => s
      | o :: _ => s.reasmFail o
    else s
  let x := old.getD ⟨s.cas.nextId, h.member, h.dseq, h.soc, h.ns, h.nfrag, s.now, arrival, true, h.depth, [], []⟩
  if (mget x.frags h.frag).isSome then s
  else
    let r := s.fragStore { x with arrival := arrival, verified := x.verified && ver, depth := h.depth } h.frag ws
    match r.1 with
    | none => if old.isSome then r.2.reasmFail x else r.2.casDiscard F.CAS_CNT_INCOMPLETE_COUNT
    | some y =>
      let s := r.2.modCas fun c => { c with
        nextId := if old.isNone then c.nextId + 1 else c.nextId
        reasm := if old.isNone then c.reasm ++ [y] else c.reasm.map fun z => if z.id == y.id then y else z }
      if y.frags.length == y.nfrag then s.digestAccept y else s

/-- Words of a digest frame. -/
def casWords (b : List Byte) : List SWord :=
  (List.range (be b 24 2)).map fun i =>
    let f := be b (32 + 10 * i + 9) 1
    ⟨BitVec.ofNat 72 (be b (32 + 10 * i) 9), bit f 0, bit f 1⟩

/-- Is a digest frame well formed (R246). -/
def casOk (b : List Byte) : Bool :=
  let h := casHdrOf b
  casWf b && h.msg == 0 && decide (1 ≤ h.member) && decide (h.member ≤ 15)

/-- CASCADE_DIGEST_RX (R245): the next cascade frame that is no message of the handshake. -/
def execCascadeDigestRx (s : State) : Result :=
  let r := s.casTake fun b => !(1 ≤ be b 3 1 && be b 3 1 ≤ 4)
  match r.1 with
  | none => r.2.done
  | some f =>
    let s := r.2
    let b := f.2.2.2
    let h := casHdrOf b
    let w := h.member
    if s.tier == 0 then (s.inc F.CAS_CNT_TIER0_COUNT).done
    else if !s.flag F.CAS_CTRL_EN then s.done
    else if !casOk b then (s.casDiscard F.CAS_CNT_DISC_FMT_COUNT).done
    else
      let why := s.joinReason f.2.2.1 b
      if 1 ≤ why && why ≤ 3 then (s.casDiscard F.CAS_CNT_DISC_FMT_COUNT).done
      else if s.tier < h.depth then ((s.casDiscard F.CAS_CNT_DISC_DEPTH_COUNT).ev0 Ev.CAS_DEPTH).done
      else
        let n := 32 + 10 * be b 24 2
        let body := b.take n
        let key := if h.auth then s.casKey h.keyId else none
        let ver := match key with
          | some (_, k) => gmac k.type k.key body == bytesAt b n 16
          | none => false
        let s := if h.auth && (s.keyFind h.keyId).isNone then s.keyMiss h.keyId 0 else s
        let s := match key with
          | some (k, _) => if ver then s.keyRenew k else s
          | none => s
        if s.eget (mbr F.CAS_MCFG_AUTH_REQ w) == 1 && !ver then (s.casDiscard F.CAS_CNT_DISC_AUTH_COUNT).done
        else (s.digestFragment h f.2.1 ver (casWords body)).done

/-- DIGEST_REASSEMBLY_TIMEOUT (R246): member w's oldest incomplete digest is older than REASM ms. -/
def execDigestReassemblyTimeout (w : Nat) (s : State) : Result :=
  match s.cas.reasm.find? fun x => x.member == w with
  | none => s.done
  | some x => ((s.reach (x.first + ticksOfMs (s.get F.CAS_LOSS_REASM))).reasmFail x).done

/-- EV_CAS_MEMBER_LOST (R251): no digest has been accepted from member w for CAS_LOSS.MS ms. -/
def execEvCasMemberLost (w : Nat) (s : State) : Result :=
  let ms := s.get F.CAS_LOSS_MS
  let m := s.casMember w
  match m.since with
  | none => s.done
  | some t =>
    if ms == 0 || m.lost || !s.casEnabled w then s.done
    else
      let s := s.reach (t + ticksOfMs ms)
      let s := (s.modMember w fun m => { m with up := false, lost := true, announce := true }).ev0 Ev.CAS_MEMBER_LOST
      let u := s.utcOf s.taiNs
      let a := s.casAlarm w true true 1 0 (s.transFlags s.tqByte)
      (a.1.casPublish false a.2 u.1 u.2 s.tqByte).done

end Sys2Proof.Machine
end

