-- ==== Sys2Proof/Machine/Twin.lean ====
section
/-!
DEFINITION. Sys2Proof/Machine/Twin.lean: the twin heartbeat monitor: heartbeat words, the network witness, roles and the alarm class,
relinquish and revert, state sync (R374 to R395). In the standalone role it is off.
-/
namespace Sys2Proof.Machine

/-- Changes the twin state. -/
def State.modTwn (s : State) (f : Twn → Twn) : State := { s with twn := f s.twn }

/-! ### Heartbeat words and twin frames (R375, R376) -/

/-- CRC-8 over bits 31:8 of a word. -/
def hbCrc (w : Nat) : Nat := (toBe 3 (w / 256)).foldl (crcByte 8 0x07) 0

/-- The fields of a heartbeat word. -/
def hbRole (w : Nat) : Nat := bits w 31 30
/-- ANN. -/
def hbAnn (w : Nat) : Nat := bits w 25 24
/-- Is the sender a healthy standby unit. -/
def hbFit (w : Nat) : Bool := hbRole w == 1 && bit w 27

/-- ROLE of the unit. -/
def State.role (s : State) : Nat := s.get F.TWN_STAT_ROLE

/-- The unit's own heartbeat word with a HBSEQ; `ann` is its ANN. -/
def State.hbWord (s : State) (ann seq : Nat) : Nat :=
  let w := s.role * 2 ^ 30 + b2n (s.flag F.TWN_STAT_AL) * 2 ^ 29 + b2n (s.get F.TOP_STRAPS_ROLE_EFF == 1) * 2 ^ 28 +
    b2n (s.flag F.TWN_STAT_HEALTHY) * 2 ^ 27 + b2n (s.get F.TWN_STAT_FORCE != 0) * 2 ^ 26 + ann * 2 ^ 24 + s.twnFaults * 2 ^ 16 +
    seq % 256 * 2 ^ 8
  w + hbCrc w

/-- ANN of a heartbeat sent now, but for a gasp. -/
def State.hbAnnNow (s : State) : Nat := b2n s.twn.relinq.isSome

/-- ALMINH_OUT (R382). -/
def State.alminhOut (s : State) : Bool := s.flag F.TWN_STAT_AL && !s.flag F.TWN_STAT_RELINQ

/-- ACTIVE_OUT (R382). -/
def State.activeOut (s : State) : Bool := if s.twin then s.role == 2 else s.flag F.ALN_CTRL_EN

/-- TWN_PEER_MAC. -/
def State.peerMac (s : State) : Nat := s.get64 R.TWN_PEER_MAC_LO R.TWN_PEER_MAC_HI % 2 ^ 48

/-- Is the pair configured (TWN_PAIRID not 0). -/
def State.paired (s : State) : Bool := s.rd R.TWN_PAIRID != 0

/-- A twin frame's payload. -/
def State.twinBytes (s : State) (msg word syncSeq : Nat) (sync : List Byte) : List Byte :=
  toBe 2 0x4457 ++ [1] ++ toBe 1 msg ++ toBe 4 (s.rd R.TWN_PAIRID).toNat ++ toBe 4 word ++ toBe 4 (shortStamp s.taiNs) ++
    toBe 2 sync.length ++ toBe 2 0 ++ toBe 4 syncSeq ++ sync

/-- Sends a twin frame from the ports given, untagged. -/
def State.twinSend (s : State) (ports : List Nat) (tc : Nat) (b : List Byte) : State :=
  (s.portsOnce ports).foldl (fun s p => (s.send p tc .never .plain none s.peerMac 0x88B5 b).1) s

/-- Sends a heartbeat on both paths. -/
def State.sendHb (s : State) (ann : Nat) : State :=
  let t := (s.emit (.heartbeat (s.hbWord ann s.twn.seqH))).modTwn fun w => { w with seqH := (w.seqH + 1) % 256 }
  if t.paired then
    (t.twinSend [t.twn.lport] 7 (t.twinBytes 0 (t.hbWord ann t.twn.seqL) 0 [])).modTwn fun w => { w with seqL := (w.seqL + 1) % 256 }
  else t

/-! ### What the unit knows of its partner (R375, R377 to R379) -/

/-- Ticks without a valid word after which a path is down, or a relinquish has failed. -/
def State.downTicks (s : State) : Nat := ticksOfUs (s.get F.TWN_HB_DOWN_N * s.get F.TWN_HB_PERIOD_US + s.get F.TWN_HB_TOL_US)

/-- Is the partner heard. -/
def State.heard (s : State) : Bool := s.flag F.TWN_STAT_PATH_H || s.flag F.TWN_STAT_PATH_L

/-- Is the partner witnessed. -/
def State.witnessed (s : State) : Bool := s.flag F.TWN_STAT_WIT0 || s.flag F.TWN_STAT_WIT1

/-- Is the partner seen. -/
def State.seen (s : State) : Bool := s.heard || s.witnessed

/-- The newest valid word, zero before any. -/
def State.phb (s : State) : Nat := (s.twn.phb.map Prod.fst).getD 0

/-- Is the partner seen in role r. -/
def State.seenIn (s : State) (r : Nat) : Bool := s.seen && hbRole s.phb == r

/-- Is the unit preferred (R379). -/
def State.preferred (s : State) : Bool :=
  let own := s.get F.TOP_STRAPS_ROLE_EFF == 1
  match s.twn.phb with
  | none => own
  | some p => if bit p.1 28 == own then decide (s.portMac 0 < s.peerMac) else own

/-- Witness flags follow the time; a change of "witnessed" is logged (R377). -/
def State.witSync (s : State) : State :=
  let on (t : Option Nat) : Bool := (t.map fun x => decide (s.now < x + ticksOfMs (s.get F.TWN_WIT_MS))).getD false
  let was := s.witnessed
  let a := on s.twn.lastWit0
  let b := on s.twn.lastWit1
  let s := (s.setB F.TWN_STAT_WIT0 a).setB F.TWN_STAT_WIT1 b
  if was == (a || b) then s else s.ev0 (if was then Ev.TWN_WITNESS_LOST else Ev.TWN_WITNESS_UP)

/-- A path whose last valid word is too old is down. -/
def State.pathDown (s : State) (f : Fld) (last : Option Nat) : State :=
  match last with
  | none => s
  | some t => if s.flag f && s.passed t s.downTicks then (s.setB f false).ev0 Ev.TWN_PATH_DOWN else s

/-- The latest tick at which the partner was still seen. -/
def State.seenUntil (s : State) : Nat :=
  let e (t : Option Nat) (n : Nat) : Nat := (t.map fun x => x + n).getD 0
  let w := ticksOfMs (s.get F.TWN_WIT_MS)
  max (max (e s.twn.lastH s.downTicks) (e s.twn.lastL s.downTicks)) (max (e s.twn.lastWit0 w) (e s.twn.lastWit1 w))

/-! ### Roles and the alarm class (R380, R381) -/

/-- The tick from which the partner has not been witnessed. -/
def State.unwitnessedFrom (s : State) : Nat :=
  max (max (s.twn.lastWit0.getD 0) (s.twn.lastWit1.getD 0)) (s.twn.enAt.getD 0)

/-- What the rows of R381 give for AL. -/
def State.alWanted (s : State) : Bool :=
  if s.role != 2 then false
  else if s.flag F.PWR_STAT_PFW then false
  else if !s.preferred && s.alm.inh then false
  else if s.heard then true
  else if s.preferred then true
  else !s.witnessed && s.passed s.unwitnessedFrom (ticksOfMs (s.get F.TWN_WIT_AL_MS))

/-- AL changes; on taking it, ANG_NET_SEQ goes on from the partner's (R395). -/
def State.setAl (s : State) (b : Bool) : State :=
  if b == s.flag F.TWN_STAT_AL then s
  else
    let s := (s.setB F.TWN_STAT_AL b).ev0 Ev.TWN_AL
    match b, s.twn.heldSeq with
    | true, some n => s.set F.ANG_NET_SEQ_SEQ (n + 256)
    | _, _ => s

/-- AL falls at once where a row of R381 takes it. -/
def State.alDrop (s : State) : State := if s.alWanted then s else s.setAl false

/-- The unit takes a role: logged, counted; outside ACTIVE there is no AL; on taking ACTIVE the cascade DSEQ goes on from the
partner's (R395). -/
def State.takeRole (s : State) (r : Nat) : State :=
  if s.role == r then s
  else
    let s := ((s.set F.TWN_STAT_ROLE r).inc F.TWN_CNT_SWITCH_COUNT).ev0 Ev.TWN_ROLE
    if r != 2 then s.setAl false
    else match s.twn.heldDseq with
      | some n => s.modCas fun c => { c with dseq := (n + 256) % 2 ^ 32 }
      | none => s

/-- The role that R380 gives at a heartbeat instant to a unit in START or STANDBY. -/
def State.nextRole (s : State) : Nat :=
  let force := s.get F.TWN_STAT_FORCE
  let en := s.flag F.TWN_CTRL_EN
  match s.role with
  | 0 =>
    if !en || force == 1 then (if en then 1 else 0)
    else if s.seenIn 2 then 1
    else if s.seenIn 0 then 2
    else if s.seenIn 1 then (if s.preferred then 2 else 1)
    else if !s.seen && s.passed (max (s.twn.enAt.getD 0) s.seenUntil) (ticksOfMs (s.get F.TWN_WIT_MS)) then 2
    else 0
  | 1 =>
    if force == 2 then 2
    else if force == 1 then 1
    else if s.heard && (hbAnn s.phb == 1 || hbAnn s.phb == 2) then 2
    else if s.seenIn 0 || (s.seenIn 1 && s.preferred) then 2
    else if !s.heard && !s.witnessed then 2
    else 1
  | r => r

/-- Rule 12 of R380, at once: the partner is seen ACTIVE and wins. -/
def State.splitCheck (s : State) : State :=
  let forced := s.get F.TWN_STAT_FORCE != 0
  let pforced := bit s.phb 26
  if s.role == 2 && s.twn.relinq.isNone && s.seenIn 2 && ((pforced && !forced) || (pforced == forced && !s.preferred)) then
    ((s.setB F.TWN_STAT_SPLIT true).ev0 Ev.TWN_SPLIT).takeRole 1
  else s

/-- A relinquish starts (R385 step 1). Causes: 0 handover, 1 force, 2 EN, 3 health, 4 revert. -/
def State.relinquish (s : State) (cause : Nat) : State :=
  match s.twn.relinq with
  | some r => if cause == 1 || cause == 2 then s.modTwn fun w => { w with relinq := some (cause, r.2) } else s
  | none => ((s.modTwn fun w => { w with relinq := some (cause, s.now) }).setB F.TWN_STAT_RELINQ true).sendHb 1

/-- The role a relinquishing unit takes. -/
def State.relinquishTo (s : State) : Nat := b2n (s.flag F.TWN_CTRL_EN)

/-- A relinquish is over. -/
def State.relinquishEnd (s : State) (st : Nat) : State :=
  let s := (s.modTwn fun w => { w with relinq := none }).setB F.TWN_STAT_RELINQ false
  (s.endWaiting 0x69 st []).endWaiting 0x6A st []

/-- R385 step 3. -/
def State.relinquishDone (s : State) : State :=
  if s.twn.relinq.isSome then (s.takeRole s.relinquishTo).relinquishEnd St.ok else s

/-! ### Words received -/

/-- The partner's word shows in TWN_STAT. -/
def State.showPartner (s : State) (w : Nat) : State :=
  let s := (s.set F.TWN_STAT_PFAULT (bits w 23 16)).set F.TWN_STAT_PROLE (hbRole w)
  let s := (s.setB F.TWN_STAT_PAL (bit w 29)).setB F.TWN_STAT_PHEALTHY (bit w 27)
  (s.setB F.TWN_STAT_PFORCED (bit w 26)).set F.TWN_PHB_WORD w

/-- A valid word becomes the newest (R378, R379, R383, R386, R387), and what follows at once from it (R380, R381, R385). -/
def State.newPhb (s : State) (w : Nat) : State :=
  let old := s.twn.phb
  let s := (s.modTwn fun t => { t with
    phb := some (w, s.now)
    fitAt := if hbFit w && bit w 28 && s.heard then some (t.fitAt.getD s.now) else none }).showPartner w
  let s := match old with
    | some o => if bit o.1 27 != bit w 27 then s.ev0 Ev.TWN_PARTNER_FAULT else s
    | none => s
  let s := if hbAnn w == 2 then s.ev0 Ev.TWN_GASP_RX else s
  let s := if bit w 28 == (s.get F.TOP_STRAPS_ROLE_EFF == 1) && !s.flag F.TWN_STAT_STRAP_CONFLICT then
      (s.setB F.TWN_STAT_STRAP_CONFLICT true).ev0 Ev.TWN_STRAP_CONFLICT
    else s
  let s := s.setB F.TWN_STAT_PREF s.preferred
  let s := if s.twn.relinq.isSome && hbRole w == 2 then s.relinquishDone else s
  s.splitCheck.alDrop

/-- A heartbeat word arrives on path H or L (R375). -/
def State.hbRx (s : State) (pathL : Bool) (w : Nat) : State :=
  if hbCrc w != w % 256 then s.inc F.TWN_CNT_HB_BAD_COUNT
  else
    let f := if pathL then F.TWN_STAT_PATH_L else F.TWN_STAT_PATH_H
    let s := s.inc (if pathL then F.TWN_CNT_HB_RX_L_COUNT else F.TWN_CNT_HB_RX_H_COUNT)
    let s := s.modTwn fun t => if pathL then { t with lastL := some s.now } else { t with lastH := some s.now }
    let s := if s.flag f then s else (s.setB f true).ev0 Ev.TWN_PATH_UP
    s.newPhb w

/-- HEARTBEAT_WORD_RX: a word on path H, or one from a twin frame of the pair. -/
def execHeartbeatWordRx (pathL : Bool) (word : Nat) (s : State) : Result :=
  if s.twin then (s.hbRx pathL (word % 2 ^ 32)).done else s.done

/-- A witness frame arrives on P0 or P1 (R377). -/
def State.witnessRx (s : State) (p w : Nat) : State :=
  if hbCrc w != w % 256 then s.inc F.TWN_CNT_HB_BAD_COUNT
  else
    let s := s.inc (if p == 0 then F.TWN_CNT_WIT_RX_P0_COUNT else F.TWN_CNT_WIT_RX_P1_COUNT)
    let s := s.modTwn fun t => if p == 0 then { t with lastWit0 := some s.now } else { t with lastWit1 := some s.now }
    s.witSync.newPhb w

/-- Is the unit a twin unit, and the payload a twin frame of its pair. -/
def State.twinOurs (s : State) (src : Nat) (b : List Byte) : Bool :=
  be b 2 1 == 1 && be b 4 4 == (s.rd R.TWN_PAIRID).toNat && s.paired && src == s.peerMac

/-- Every good frame on P0 and P1 is examined for a witness before duplicate discard (R377). -/
def State.twinWitness (s : State) (p src : Nat) (b : List Byte) : State :=
  if s.twin && decide (p < 2) && be b 3 1 == 1 && s.twinOurs src b then s.witnessRx p (be b 8 4) else s

/-! ### State sync (R392, R393, R395) -/

/-- An item of a sync payload. -/
def syncItem (ty : Nat) (v : List Byte) : List Byte := toBe 1 ty ++ toBe 1 v.length ++ v

/-- A sync payload. The identification counters follow the slot of the last set that was offered to the output groups. -/
def State.syncPayload (s : State) : List Byte :=
  let a := syncItem 1 (toBe 8 (s.get64 R.TWN_CFGSUM_LO R.TWN_CFGSUM_HI) ++ toBe 4 (s.get F.CMD_EPOCH_EPOCH))
  if s.role != 2 then a
  else
    let tx := (List.range 16).foldl (fun n d => n + b2n (smem s.outp.txOn d) * 2 ^ d) 0
    let ids := (List.range 16).flatMap fun d => toBe 2 (mgetD s.outp.ipIds d (Config.op "out.id" [d] % 65536))
    a ++ syncItem 2 (toBe 1 s.alm.clrSince) ++ syncItem 3 (toBe 4 (s.get F.ANG_NET_SEQ_SEQ)) ++ syncItem 4 (toBe 4 s.cas.dseq) ++
      syncItem 5 (toBe 2 tx) ++ syncItem 6 (ids ++ toBe 8 s.outp.slot)

/-- Sends a sync frame, traffic class 0, from the ports given. -/
def State.syncSend (s : State) (ports : List Nat) : State :=
  let r := s.fresh
  let s := r.2
  let s := s.modTwn fun w => { w with syncAt := s.now, syncSeq := (w.syncSeq + 1) % 2 ^ 32 }
  let s := s.twinSend ports 0 (s.twinBytes 2 (s.hbWord s.hbAnnNow r.1) s.twn.syncSeq s.syncPayload)
  if s.role == 2 then { s with alm := { s.alm with clrSince := 0 } } else s

/-- TWIN_SYNC_TX (R393). -/
def execTwinSyncTx (s : State) : Result :=
  if !s.twin || !s.fwRuns || !s.paired then s.done
  else if s.flag F.TWN_STAT_PATH_L then
    let s := s.reach (s.twn.syncAt + ticksOfMs (s.get F.TWN_SYNC_LINK_MS))
    ((s.setB F.TWN_STAT_SYNC_FALLBACK false).syncSend [s.twn.lport]).done
  else if s.witnessed then
    let s := s.reach (s.twn.syncAt + ticksOfMs (s.get F.TWN_SYNC_FALLBACK_MS))
    let s := if s.flag F.TWN_STAT_SYNC_FALLBACK then s
      else (s.setB F.TWN_STAT_SYNC_FALLBACK true).ev0 Ev.TWN_SYNC_FALLBACK
    (s.syncSend [0, 1]).done
  else s.done

/-- What the receiving unit does with an item (R395). -/
def State.syncTake (s : State) (ty : Nat) (v : List Byte) : State :=
  match ty with
  | 1 =>
    let s := s.put64 R.TWN_PCFGSUM_LO R.TWN_PCFGSUM_HI (be v 0 8)
    let bad := be v 0 8 != s.get64 R.TWN_CFGSUM_LO R.TWN_CFGSUM_HI
    let was := s.flag F.TWN_STAT_CFG_MISMATCH
    let s := s.setB F.TWN_STAT_CFG_MISMATCH bad
    if bad && !was then s.ev0 Ev.TWN_CFG_MISMATCH else s
  | 2 => let c := s.alm.clrSince; let s := s.almClrWrite (be v 0 1); { s with alm := { s.alm with clrSince := c } }
  | 3 => s.modTwn fun w => { w with heldSeq := some (be v 0 4) }
  | 4 => s.modTwn fun w => { w with heldDseq := some (be v 0 4) }
  | 5 => (s.modOut fun o => { o with txOn := (List.range 16).filter fun d => bit (be v 0 2) d && (mget o.dests.eff d).isSome }).outSync
  | 6 => s.modOut fun o => { o with ipIds := (List.range 16).map fun d => (d, be v (2 * d) 2) }
  | _ => s

/-- The items of a sync payload, in order. -/
def State.syncItems (s : State) : Nat → List Byte → State
  | 0, _ => s
  | n + 1, b => if b.length < 2 then s else
    let l := be b 1 1
    (s.syncTake (be b 0 1) (bytesAt b 2 l)).syncItems n (b.drop (2 + l))

/-- A twin frame that the dispatch of R344 passes to the monitor; a witness on P0 or P1 has been examined before. -/
def State.twinFrame (s : State) (p src : Nat) (b : List Byte) : State :=
  if !s.twin then s
  else if !s.twinOurs src b then s.inc F.TWN_CNT_FOREIGN_COUNT
  else match be b 3 1 with
    | 0 => if p == s.twn.lport then s.hbRx true (be b 8 4) else s.inc F.TWN_CNT_FOREIGN_COUNT
    | 1 => if p < 2 then s else s.inc F.TWN_CNT_FOREIGN_COUNT
    | 2 => if s.fwRuns then s.syncItems 728 (bytesAt b 24 (min (be b 16 2) 1456)) else s
    | _ => s.inc F.TWN_CNT_FOREIGN_COUNT

/-! ### Timed rows -/

/-- Paths and witness follow the time. -/
def State.twnTimes (s : State) : State :=
  let s := ((s.pathDown F.TWN_STAT_PATH_H s.twn.lastH).pathDown F.TWN_STAT_PATH_L s.twn.lastL).witSync
  let s := if s.heard then s else s.modTwn fun w => { w with fitAt := none }
  s.alDrop

/-- HEARTBEAT_INSTANT (R374, R380, R381). -/
def execHeartbeatInstant (s : State) : Result :=
  if !s.twin then s.done
  else
    let s := (s.reach s.twn.hbNext).twnTimes
    let s := s.modTwn fun w => { w with hbNext := w.hbNext + ticksOfUs (s.get F.TWN_HB_PERIOD_US) }
    let s := s.setB F.TWN_STAT_PREF s.preferred
    let s := if s.role == 2 then
        if s.get F.TWN_STAT_FORCE == 1 then s.relinquish 1
        else if !s.flag F.TWN_STAT_HEALTHY && s.heard && hbFit s.phb then s.relinquish 3
        else s
      else s.takeRole s.nextRole
    let s := s.splitCheck
    let s := s.setAl s.alWanted
    let s := if s.twn.relinq.isNone then s.endWaiting 0x6A St.ok [] else s
    (s.sendHb s.hbAnnNow).done

/-- EV_TWN_PATH_DOWN (R375). -/
def execEvTwnPathDown (pathL : Bool) (s : State) : Result :=
  let up := s.flag (if pathL then F.TWN_STAT_PATH_L else F.TWN_STAT_PATH_H)
  match (if pathL then s.twn.lastL else s.twn.lastH) with
  | none => s.done
  | some t => if s.twin && up then ((s.reach (t + s.downTicks)).twnTimes).done else s.done

/-- WITNESS_TX (R377). A witness word counts on no path: its HBSEQ is an open value. -/
def execWitnessTx (s : State) : Result :=
  let ms := s.get F.TWN_WIT_PERIOD_MS
  if s.twin && s.flag F.TWN_CTRL_EN && ms != 0 && s.paired then
    let s := s.reach (s.twn.witAt + ticksOfMs ms)
    let r := s.fresh
    let s := r.2.modTwn fun w => { w with witAt := s.now }
    (s.twinSend [0, 1] 7 (s.twinBytes 1 (s.hbWord s.hbAnnNow r.1) 0 [])).done
  else s.done

/-- EV_TWN_WITNESS_LOST (R377). -/
def execEvTwnWitnessLost (s : State) : Result :=
  if s.twin && s.witnessed then
    ((s.reach (max (s.twn.lastWit0.getD 0) (s.twn.lastWit1.getD 0) + ticksOfMs (s.get F.TWN_WIT_MS))).twnTimes).done
  else s.done

/-- The first heartbeat instant at or after tick t. -/
def State.hbAfter (s : State) (t : Nat) : Nat :=
  let p := max (ticksOfUs (s.get F.TWN_HB_PERIOD_US)) 1
  s.twn.hbNext + ceilDiv (t - s.twn.hbNext) p * p

/-- AL_WITNESS_WAIT_END (R381 row 5): AL rises at the first heartbeat instant after the wait. -/
def execAlWitnessWaitEnd (s : State) : Result :=
  if s.twin && s.role == 2 && !s.heard && !s.witnessed && !s.preferred && !s.flag F.TWN_STAT_AL then
    let s := s.reach (s.hbAfter (s.unwitnessedFrom + ticksOfMs (s.get F.TWN_WIT_AL_MS)))
    (s.setAl s.alWanted).done
  else s.done

/-- RELINQUISH_COMPLETE (R385 step 3). -/
def execRelinquishComplete (s : State) : Result :=
  if s.twin && (s.alm.inh || s.seenIn 2) then s.relinquishDone.done else s.done

/-- EV_TWN_HANDOVER_FAIL (R385 step 4). -/
def execEvTwnHandoverFail (s : State) : Result :=
  match s.twn.relinq with
  | none => s.done
  | some r =>
    if !s.twin then s.done
    else
      let s := (s.reach (r.2 + s.downTicks)).ev0 Ev.TWN_HANDOVER_FAIL
      let s := if r.1 == 1 || r.1 == 2 then s.takeRole s.relinquishTo else s
      (s.relinquishEnd St.timeout).done

/-- TWIN_REVERT (R387). -/
def execTwinRevert (s : State) : Result :=
  let sec := s.get F.TWN_REVERT_S
  match s.twn.fitAt with
  | none => s.done
  | some t =>
    if s.twin && s.role == 2 && !s.preferred && s.flag F.TWN_CTRL_REVERT_EN && sec != 0 && s.get F.TWN_STAT_FORCE == 0 &&
        !bit s.phb 26 && s.heard && s.twn.relinq.isNone then
      ((s.reach (t + ticksOfS sec)).relinquish 4).done
    else s.done

/-- EV_TWN_FAULT (R383): a fault of the last second ends, and health follows it. -/
def execEvTwnFault (s : State) : Result :=
  let ends := ([s.sched.skipAt, s.twn.uncorrAt].filterMap fun t => if s.lastSecond t then t else none).map fun t => t + ticksOfS 1
  if !s.twin then s.done
  else match ends with
    | [] => s.done
    | e :: t => (s.reach (t.foldl min e)).done

/-- ALMINH_IN_CHANGE (R173, R381, R385): pins follow, AL falls, a relinquish is completed. -/
def execAlminhInChange (level : Bool) (s : State) : Result :=
  if level == s.alm.inh then s.done
  else
    let s : State := { s with alm := { s.alm with inh := level } }
    if !s.twin then s.done
    else
      let s := s.ev0 Ev.ANG_INHIBIT
      let s := if level then s.relinquishDone else s
      s.alDrop.done

/-! ### Gasp (R386) -/

/-- A twin unit gasps: AL falls, and a heartbeat with ANN GASP goes out. -/
def State.gasp (s : State) : State := if s.twin then (s.setAl false).sendHb 2 else s

/-! ### Commands and EN -/

/-- A write of TWN_CTRL (R384). -/
def State.twnCtrlWrite (s : State) (v : Dword) : State :=
  if !s.twin then s
  else
    let was := s.flag F.TWN_CTRL_EN
    let s := s.store R.TWN_CTRL v
    let en := s.flag F.TWN_CTRL_EN
    if en && !was then s.modTwn fun w => { w with enAt := some s.now, witAt := s.now }
    else if was && !en && s.role == 2 then s.relinquish 2
    else s

/-- TWIN_EN_WRITE. -/
def execTwinEnWrite (a : Agent) (v : Dword) (s : State) : Result := (s.gate a R.TWN_CTRL fun s => s.twnCtrlWrite v).done

/-- TWIN_CFG (0x68): body. -/
def twinCfgBody (p : List Byte) (s : State) : CmdRes :=
  let sh := le p 8 1 == 1
  checked [(decide (1 < le p 8 1), St.badParam), (decide (le p 9 1 < 2) || decide (4 < le p 9 1), St.badParam),
      (!zeroAt p 10 2, St.badParam), (le p 12 4 == 0, St.badParam), (be p 16 6 == 0 || bit (le p 16 1) 0, St.badParam),
      (if sh then bit (le p 22 1) 0 else !zeroAt p 22 6, St.badParam), (!zeroAt p 28 4, St.badParam),
      (!sh && !zeroAt p 32 16, St.badParam), (!s.twin || s.flag F.TWN_CTRL_EN, St.state)] s
    (let ip := be p 32 16
    let s := s.wr R.TWN_PAIRID (BitVec.ofNat 32 (le p 12 4))
    let s := s.put64 R.TWN_PEER_MAC_LO R.TWN_PEER_MAC_HI (be p 16 6)
    let s := s.put64 R.TWN_SHARED_MAC_LO R.TWN_SHARED_MAC_HI (be p 22 6)
    let s := (List.range 4).foldl (fun s i => s.wr (R.TWN_SHARED_IP_0 + 4 * i) (BitVec.ofNat 32 (ip / 2 ^ (32 * i)))) s
    ⟨St.ok, [], s.modTwn fun w => { w with shared := sh, lport := le p 9 1 }⟩)

/-- TWIN_CFG (R391). -/
def execTwinCfg (r : Fn) (s : State) : Result := (s.plain r 0x68 48 false (fun _ => true) twinCfgBody).done

/-- TWIN_HANDOVER (0x69): body. -/
def twinHandoverBody (p : List Byte) (s : State) : CmdRes ⊕ (List Nat × State) :=
  match firstFail [(!zeroAt p 8 8, St.badParam),
      (!s.twin || s.role != 2 || s.twn.relinq.isSome || s.get F.TWN_STAT_FORCE != 0 || !s.heard || !hbFit s.phb, St.state)] with
  | some st => .inl (CmdRes.fail st s)
  | none => .inr ([], s.relinquish 0)

/-- TWIN_HANDOVER (R385). -/
def execTwinHandover (r : Fn) (s : State) : Result := (s.waits r 0x69 16 (fun _ => true) twinHandoverBody).done

/-- TWIN_FORCE_ROLE (0x6A): body. -/
def twinForceRoleBody (p : List Byte) (s : State) : CmdRes ⊕ (List Nat × State) :=
  match firstFail [(decide (2 < le p 8 1), St.badParam), (!zeroAt p 9 7, St.badParam),
      (!s.twin || !s.flag F.TWN_CTRL_EN, St.state)] with
  | some st => .inl (CmdRes.fail st s)
  | none =>
    let s := s.set F.TWN_STAT_FORCE (le p 8 1)
    if le p 8 1 == 1 && s.role == 2 then .inr ([], s) else .inl ⟨St.ok, [], s⟩

/-- TWIN_FORCE_ROLE (R380). -/
def execTwinForceRole (r : Fn) (s : State) : Result := (s.waits r 0x6A 16 (fun _ => true) twinForceRoleBody).done

end Sys2Proof.Machine
end

