-- ==== Sys2Proof/Machine/Flt.lean ====
section
/-!
DEFINITION. Sys2Proof/Machine/Flt.lean: the local front end: sample instants, the filter chain and its taps, ranges, coefficient banks
(R257 to R279). FRONT_END_STOP and CP_CONFIG_CHANGE, which end armings, stand in Trg.lean.
-/
namespace Sys2Proof.Machine

/-! ### Exact arithmetic (R265) -/

/-- n / d rounded to nearest, ties to even ("convergent"). -/
def roundConv (n : Int) (d : Nat) : Int :=
  let q := n.fdiv d
  let r := 2 * (n - q * d)
  if r < d then q else if (d : Int) < r then q + 1 else if q % 2 = 0 then q else q + 1

/-- Saturates to w bits, two's complement. -/
def satTo (w : Nat) (x : Int) : Int := max (-(2 ^ (w - 1) : Nat) : Int) (min ((2 ^ (w - 1) : Nat) - 1 : Int) x)

/-! ### Bays, channels and instants (R257 to R264) -/

/-- A field of bay b's registers. -/
def bayf (f : Fld) (b : Nat) : Fld := f.at (4 * b)

/-- T0, as a tick of the model: FLT_T0 counts like TIM_CNT (R262). -/
def State.fltT0 (s : State) : Nat := s.tim.base + s.get64 R.FLT_T0_LO R.FLT_T0_HI

/-- d of R263. -/
def State.fltD (s : State) : Nat := s.get F.FLT_CTRL_MOD_DIV + 1

/-- Does the front end run. -/
def State.fltRuns (s : State) : Bool := s.flag F.FLT_STAT_RUN

/-- Is bay b's bitstream captured: its MCLK runs. -/
def State.bayClocked (s : State) (b : Nat) : Bool := s.fltRuns && decide (b < 8) && s.flag (bayf F.FLT_BAYCFG_MCLK_EN b)

/-- Does channel ch produce samples. -/
def State.chOn (s : State) (ch : Nat) : Bool := s.bayClocked (ch / 6) && bit (s.get (bayf F.FLT_BAYCFG_CH_EN (ch / 6))) (ch % 6)

/-- Is channel ch in FAULT. -/
def State.chFault (s : State) (ch : Nat) : Bool := bit (s.get (bayf F.FLT_BAYSTAT_FAULT (ch / 6))) (ch % 6)

/-- Sets one bit of a bay's field. -/
def State.setBayBit (s : State) (f : Fld) (b q : Nat) (v : Bool) : State := s.setB ⟨f.addr + 4 * b, f.lo + q, f.lo + q⟩ v

/-- A bay before the front end has started. -/
def FltBay.idle : FltBay := ⟨[], none, none, 0, 9, false, none⟩

/-- Bay b. -/
def State.fltBay (s : State) (b : Nat) : FltBay := mgetD s.flt.bays b FltBay.idle

/-- Changes the front end's state. -/
def State.modFlt (s : State) (f : Flt → Flt) : State := { s with flt := f s.flt }

/-- Changes bay b. -/
def State.modBay (s : State) (b : Nat) (f : FltBay → FltBay) : State :=
  s.modFlt fun x => { x with bays := mput x.bays b (f (s.fltBay b)) }

/-- A tap with no history. -/
def FltTap.idle : FltTap := ⟨0, [], []⟩

/-- A channel with no history: every history starts at zero (R262). -/
def FltChan.idle : FltChan := ⟨0, [], 0, [], [], (0, 0), 0⟩

/-- Channel ch upstream of its taps. -/
def State.chan (s : State) (ch : Nat) : FltChan := mgetD s.flt.chans ch FltChan.idle

/-- A tap of a channel: 0 PH, 1 EN, 2 CP. -/
def State.tap (s : State) (ch tap : Nat) : FltTap := mgetD s.flt.taps (4 * ch + tap) FltTap.idle

/-- Stores a tap. -/
def State.setTap (s : State) (ch tap : Nat) (x : FltTap) : State :=
  s.modFlt fun f => { f with taps := mput f.taps (4 * ch + tap) x }

/-- Rate exponent of a tap (R266, R268). -/
def State.tapK (s : State) (ch tap : Nat) : Nat :=
  match tap with
  | 0 => 11
  | 1 => 10
  | _ => (s.fltBay (ch / 6)).k

/-- t_dec of sample m at exponent k on channel ch (R264). -/
def State.tapTick (s : State) (ch k m : Nat) : Nat := s.fltT0 + 24 * (2 ^ k * (m + 1)) + 120 * s.fltD * ch

/-- Frame boundary F (R276). -/
def State.frameTick (s : State) (f : Nat) : Nat := s.fltT0 + 24 * 8192 * (f + 1)

/-- The first frame boundary at or after tick t. -/
def State.frameFrom (s : State) (t : Nat) : Nat := s.frameTick (ceilDiv (t - s.fltT0) (24 * 8192) - 1)

/-! ### Group delay (R267, R268) -/

/-- Length in S1 outputs of the impulse response from S2 to the tap of exponent k. -/
def chainLen (k : Nat) : Nat := 48 + 88 * (2 ^ (k - 7) - 1)

/-- G of a tap of exponent k with an FIR of l taps; d of R263. -/
def gTicks (k l d : Nat) : Nat := 1116 - 36 * (d - 1) + 384 * (chainLen k - 1) + 12 * 2 ^ k * (l - 1)

/-- G of the fast-settle path. -/
def gFast (d : Nat) : Nat := if d == 1 then 98280 else 98256

/-- Coefficients of a tap FIR in a bank. -/
def State.coefs (s : State) (bank tap : Nat) : List Int := mgetD s.flt.coefs (4 * bank + tap) [0x400000]

/-- The active bank. -/
def State.bankActive (s : State) : Nat := s.get F.FLT_BANK_ACTIVE

/-- G of a bay's CP tap in effect. -/
def State.gCp (s : State) (b : Nat) : Nat :=
  let x := s.fltBay b
  if x.fast then gFast s.fltD else gTicks x.k (s.coefs s.bankActive 2).length s.fltD

/-- The FLT_GD registers follow. The one CP register shows the value the bays share, else an open one
(notes/assumptions/70.md). -/
def State.gdSync (s : State) : State :=
  let g (t k : Nat) : Nat := gTicks k (s.coefs s.bankActive t).length s.fltD
  let l := (List.range 8).map s.gCp
  let cp := if l.all fun x => x == l.headD 0 then l.headD 0 else Config.op "flt.gdcp" l
  ((s.set F.FLT_GD_PH_TICKS (g 0 11)).set F.FLT_GD_EN_TICKS (g 1 10)).set F.FLT_GD_CP_TICKS cp

/-! ### Ranges (R271 to R274) -/

/-- Is a bay in the high-gain range. -/
def FltBay.high (x : FltBay) : Bool := ((x.rng.head?).map fun r => r.high).getD false

/-- The range in effect at a tick. -/
def FltBay.rngAt (x : FltBay) (t : Int) : FltRng :=
  (x.rng.find? fun r => decide ((r.tick : Int) ≤ t)).getD ((x.rng.getLast?).getD ⟨0, false, 0x100000, none⟩)

/-- How many S1 outputs of a current channel a range change blanks (R274): ⌈SETTLE / 1.5625⌉ + 3, at most 16. -/
def State.blankN (s : State) : Nat := min 16 (ceilDiv (s.get F.FLT_RNGTIME_SETTLE * 16) 25 + 3)

/-- Is the S1 output of a current channel that ends at tick t blanked: it is one of the outputs after a range change that R274 counts
(notes/assumptions/123.md). -/
def FltBay.blanks (x : FltBay) (t : Nat) : Bool :=
  x.rng.any fun r => match r.blank with
    | some e => decide (r.tick < t) && decide (t ≤ e)
    | none => false

/-- The end of the n-th S1 output of channel ch after tick t (n at least 1). -/
def State.s1After (s : State) (ch t n : Nat) : Nat :=
  let z := s.fltT0 + 120 * s.fltD * ch
  z + 768 * ((t - z) / 768 + n)

/-- Notes what holds from now on for the bay's scaling: a range change, or a new RATIO. -/
def State.rngNote (s : State) (b : Nat) (high : Bool) (blank : Option Nat) : State :=
  let r := s.get (bayf F.FLT_RNGRATIO_RATIO b)
  s.modBay b fun x => { x with rng := (FltRng.mk s.now high r blank :: x.rng).take 64 }

/-- A bay changes range (R272, R274). -/
def State.setRange (s : State) (b : Nat) (high : Bool) : State :=
  let n := s.blankN
  let e := ([3, 4, 5] : List Nat).foldl (fun e q => max e (s.s1After (6 * b + q) s.now n)) 0
  let s := s.rngNote b high (some (s.now + 768 * n))
  let s := s.modBay b fun x => { x with blankTo := some e, want := none, quiet := s.now }
  let s := (s.setBayBit F.FLT_BAYSTAT_BLANK b 0 true).setBayBit F.FLT_BAYSTAT_HIGH b 0 high
  let s := (s.setB ⟨R.FLT_STAT, 8 + b, 8 + b⟩ high).inc F.FLT_RNGCNT_COUNT
  s.ev Ev.FLT_RANGE 0 [(3, b), (1, b2n high)]

/-- Is any current channel of a bay in FAULT. -/
def State.curFault (s : State) (b : Nat) : Bool := [3, 4, 5].any fun q => s.chFault (6 * b + q)

/-- May automatic mode change the bay's range. -/
def State.autoRange (s : State) (b : Nat) : Bool :=
  s.bayClocked b && s.get (bayf F.FLT_BAYCFG_RNGMODE b) == 0 && s.flag F.FLT_CTRL_ARNG_EN && !s.curFault b

/-- The range that holds where nothing is being blanked: the fixed one, or what automatic mode decided during blanking and may still
do. A bay in FAULT on a current channel keeps its range in every mode (R272). -/
def State.rngSync (s : State) (b : Nat) : State :=
  let x := s.fltBay b
  if !s.fltRuns || x.blankTo.isSome || s.curFault b then s
  else
    let go (h : Bool) : State := if h == x.high then s.modBay b fun y => { y with want := none } else s.setRange b h
    match s.get (bayf F.FLT_BAYCFG_RNGMODE b) with
    | 0 => go (if s.autoRange b then x.want.getD x.high else x.high)
    | 2 => go true
    | _ => go false

/-- Automatic mode decides a change; during blanking it waits. -/
def State.rangeTo (s : State) (b : Nat) (high : Bool) : State :=
  if s.autoRange b && (s.fltBay b).high != high then
    (s.modBay b fun x => { x with want := some high }).rngSync b
  else s

/-- Does an S1 output of a current channel call for low gain: |S1| at or above UP / 256 of full scale (R272). -/
def State.loud (s : State) (x : Int) : Bool := decide (s.get F.FLT_RNG_UP * 128 ≤ x.natAbs)

/-- Would an S1 output of bay b seen in low gain fit in high gain: |S1| × RATIO / 65 536 at or below DOWN / 256 of full scale
(R272). -/
def State.quietS1 (s : State) (b v : Nat) : Bool :=
  decide (v * s.get (bayf F.FLT_RNGRATIO_RATIO b) ≤ s.get F.FLT_RNG_DOWN * 128 * 65536)

/-- RANGE_TO_LOW_GAIN (R272): x is the deciding S1 output of one of the bay's current channels. -/
def execRangeToLowGain (b : Fin 8) (x : Int) (s : State) : Result :=
  (if s.loud x then s.rangeTo b.val false else s).done

/-- RANGE_TO_HIGH_GAIN (R272): the peaks of |S1| of the three current channels over DWELL; never with DOWN = 0. DWELL counts from the
bay's last range change and from the last S1 output above DOWN that a tap sample has shown. -/
def execRangeToHighGain (b : Fin 8) (pa pb pc : Nat) (s : State) : Result :=
  (if s.get F.FLT_RNG_DOWN == 0 || !s.autoRange b.val || (s.fltBay b.val).high || !([pa, pb, pc].all fun v => s.quietS1 b.val v) then s
  else (s.reach ((s.fltBay b.val).quiet + ticksOfMs (s.get F.FLT_RNGTIME_DWELL))).rangeTo b.val true).done

/-- BLANKING_END (R274): the last blanked output has passed; a change decided meanwhile follows. -/
def execBlankingEnd (b : Fin 8) (s : State) : Result :=
  match (s.fltBay b.val).blankTo with
  | none => s.done
  | some e =>
    let s := (s.reach e).modBay b.val fun x => { x with blankTo := none }
    ((s.setBayBit F.FLT_BAYSTAT_BLANK b.val 0 false).rngSync b.val).done

/-! ### Faults and overloads (R260, R270) -/

/-- FLT_STAT.FAULT follows the bays. -/
def State.faultSync (s : State) (b : Nat) : State :=
  s.setB ⟨R.FLT_STAT, 16 + b, 16 + b⟩ (s.get (bayf F.FLT_BAYSTAT_FAULT b) != 0)

/-- When FAULT of a channel came and went, newest first. -/
def State.faultLog (s : State) (ch : Nat) : List (Nat × Bool) := mgetD s.flt.faults ch []

/-- Was channel ch in FAULT at tick t. -/
def State.chFaultAt (s : State) (ch t : Nat) : Bool :=
  (((s.faultLog ch).find? fun p => decide (p.1 ≤ t)).map fun p => p.2).getD false

/-- FAULT of a channel comes or goes, not before the span that R260 asks for has passed since it last changed, or since T0. -/
def State.faultTo (s : State) (ch : Nat) (v : Bool) (span : Nat) : State :=
  let s := s.reach (((s.faultLog ch).head?.map fun p => p.1).getD s.fltT0 + span)
  let s := s.modFlt fun f => { f with faults := mput f.faults ch (((s.now, v) :: s.faultLog ch).take 8) }
  let s := (s.setBayBit F.FLT_BAYSTAT_FAULT (ch / 6) (ch % 6) v).faultSync (ch / 6)
  s.ev0 (if v then Ev.FLT_MOD_FAULT else Ev.FLT_MOD_RESTORED)

/-- EV_FLT_MOD_FAULT (R260): no transition for 50 µs on a captured bitstream, enabled as a channel or not. -/
def execEvFltModFault (ch : Nat) (s : State) : Result :=
  (if s.bayClocked (ch / 6) && !s.chFault ch then s.faultTo ch true (ticksOfUs 50) else s).done

/-- EV_FLT_MOD_RESTORED (R260): a transition in every 50 µs for 20 ms; a fixed range that waited follows. -/
def execEvFltModRestored (ch : Nat) (s : State) : Result :=
  (if s.bayClocked (ch / 6) && s.chFault ch then (s.faultTo ch false (ticksOfMs 20)).rngSync (ch / 6) else s).done

/-- An S1 output at tick t overloads: it starts an episode, or goes on with one (R270). -/
def State.ovlNote (s : State) (ch t : Nat) : State :=
  let start (s : State) : State :=
    let s := s.modFlt fun x => { x with ovl := mput x.ovl ch (t, true) }
    ((s.setBayBit F.FLT_BAYSTAT_OVL (ch / 6) (ch % 6) true).inc F.FLT_OVLCNT_COUNT).ev0 Ev.FLT_OVERLOAD
  match mget s.flt.ovl ch with
  | none => start s
  | some (last, run) =>
    if t ≤ last then s
    else if run && decide (t < last + ticksOfMs 20) then s.modFlt fun x => { x with ovl := mput x.ovl ch (t, true) }
    else start s

/-- OVERLOAD_EPISODE_END (R270): 20 ms without an overload. -/
def execOverloadEpisodeEnd (ch : Nat) (s : State) : Result :=
  match mget s.flt.ovl ch with
  | some (last, true) =>
    ((s.reach (last + ticksOfMs 20)).modFlt fun x => { x with ovl := mput x.ovl ch (last, false) }).done
  | _ => s.done

/-! ### The chain (R265, R273, R274) -/

/-- Scaling of an S1 output (R273): exact in low gain; in high gain within 1 LSB of the rounded quotient, which is open. -/
def scaleS1 (high : Bool) (ratio : Nat) (x : Int) : Int :=
  if high then
    satTo 28 (roundConv (x * 2 ^ 27) (max ratio 1) + (Config.op "flt.ratio" [wrapInt 17 x, ratio] % 3 : Nat) - 1)
  else x * 2048

/-- The weights of a sinc³ of length d, newest bit first: three moving sums, one after the other (R265). -/
def sinc3 (d : Nat) : List Nat :=
  (List.range (3 * d - 2)).map fun j =>
    (List.range d).foldl (fun n i => n + min d (min (j - i + 1) (2 * d - 1 - (j - i))) * b2n (decide (i ≤ j) && decide (j - i < 2 * d - 1))) 0

/-- An S1 output (R265): the sinc³ of the bits as +1 and −1, newest first; at 10.24 MHz (d = 2) shifted left 3. What precedes T0 is
zero. -/
def s1Out (d : Nat) (bits : List Bool) : Int :=
  let v := ((sinc3 (32 / d)).zip bits).foldl (fun (n : Int) p => if p.2 then n + p.1 else n - p.1) 0
  if d == 1 then v else 8 * v

/-- The weight of the bit at position p of a fast-settle window of 2D bits (R268): a sinc² of length D that ends with the window. -/
def sinc2 (dd p : Nat) : Nat := min p (2 * dd - p)

/-- A channel's history as one more S1 output x enters: blanked outputs are extrapolated (R274). -/
def s1Step (bay : FltBay) (cur : Bool) (t : Nat) (x : Int) (a : FltChan) : FltChan :=
  let r := bay.rngAt t
  let o := decide (31130 ≤ x.natAbs)
  if cur && bay.blanks t then
    let j := a.blanked + 1
    let p2 := a.good.1
    let p1 := a.good.2
    { a with win := ⟨satTo 28 (p1 + j * (p1 - p2)), o, true⟩ :: a.win, blanked := j }
  else
    let v := scaleS1 (cur && r.high) r.ratio x
    { a with win := ⟨v, o, false⟩ :: a.win, good := (a.good.2, v), blanked := 0 }

/-- The bits of one S1 period enter channel ch, the oldest in bit 0: the fast-settle sum goes on, and an S1 output is formed at its
end. Its tick and value answer too. -/
def State.s1Feed (s : State) (ch bitsIn : Nat) (a : FltChan) : FltChan × (Nat × Int) :=
  let d := s.fltD
  let l := 32 / d
  let dd := 4096 / d
  let bl := (List.range l).map fun i => bit bitsIn i
  let p := a.n * l % (2 * dd)
  let acc := bl.zipIdx.foldl (fun (n : Int) q => if q.1 then n + sinc2 dd (p + q.2) else n - sinc2 dd (p + q.2)) (if p == 0 then 0 else a.acc)
  let bits := bl.reverse ++ a.tail
  let x := s1Out d bits
  let t := s.fltT0 + 768 * (a.n + 1) + 120 * d * ch
  let a := s1Step (s.fltBay (ch / 6)) (decide (3 ≤ ch % 6)) t x a
  let sums := if p + l == 2 * dd then ((a.n / 256, acc) :: a.sums).take 64 else a.sums
  ({ a with n := a.n + 1, tail := bits.take (2 * l), acc := acc, sums := sums }, (t, x))

/-- The next n S1 periods of a channel; the S1 outputs formed, newest first, as (tick, value). -/
def State.s1Feeds (s : State) (ch : Nat) (bitsIn : Nat) : Nat → FltChan → List (Nat × Int) → FltChan × List (Nat × Int)
  | 0, a, o => (a, o)
  | n + 1, a, o =>
    let l := 2 ^ (32 / s.fltD)
    let r := s.s1Feed ch (bitsIn % l) a
    s.s1Feeds ch (bitsIn / l) n r.1 (r.2 :: o)

/-- The output of S2 and the half-bands: their coefficients are not in the spec, so it is open, but for a constant input within
one LSB per stage of it (R265). -/
def chainOut (k : Nat) (win : List FltIn) : Int :=
  let n := chainLen k
  let xs := (win.map fun p => p.x).take n
  let xs := xs ++ List.replicate (n - xs.length) 0
  let c := xs.headD 0
  let v := Config.op "flt.chain" (k :: xs.map (wrapInt 28))
  if xs.all fun x => decide (x = c) then
    satTo 24 (roundConv c 8 + (v % (2 * (k - 6) + 1) : Nat) - (k - 6 : Nat))
  else sext 24 v

/-- A tap FIR (R265). -/
def tapFir (h hist : List Int) : Int :=
  satTo 24 (roundConv ((h.zip hist).foldl (fun n p => n + p.1 * p.2) 0) (2 ^ 22))

/-- The banks of sample m at exponent k, and i and N while a fade runs (R276). -/
def State.firBanks (s : State) (k m : Nat) : Nat × Nat × Option (Nat × Nat) :=
  let a := s.bankActive
  match s.flt.swap with
  | none => (a, a, none)
  | some w =>
    let old := if w.started then 1 - a else a
    let new := 1 - old
    let mb := (w.fb - s.fltT0) / (24 * 2 ^ k) - 1
    if m < mb then (old, old, none)
    else if m - mb < w.fade * 2 ^ (13 - k) then (old, new, some (m - mb, w.fade * 2 ^ (13 - k)))
    else (new, new, none)

/-- The tap output with the cross-fade of R276. -/
def fade (yOld yNew : Int) (w : Option (Nat × Nat)) : Int :=
  match w with
  | none => yNew
  | some (i, n) => yOld + roundConv (((i + 1) * 65536 / n : Nat) * (yNew - yOld)) 65536

/-- The fast-settle output (R268): the sinc² sum with range scaling, to Q1.23. -/
def fastOut (high : Bool) (ratio d : Nat) (sum : Int) : Int :=
  let n := if d == 1 then sum else sum * 4
  if high then
    satTo 24 (roundConv (n * 65536) (2 * max ratio 1) + (Config.op "flt.fast" [wrapInt 32 n, ratio] % 3 : Nat) - 1)
  else satTo 24 (roundConv n 2)

/-- Samples a tap's consumers still hold: 512 ms of PH (R295); of EN and CP more than their consumers look back. -/
def tapKeep (tap : Nat) : Nat := (([5120, 64, 1024] : List Nat)[tap]?).getD 1024

/-- The S1 outputs that channel ch forms up to the n-th since T0, from the bits captured since the last one formed; each notes an
overload, or in low gain a level above DOWN. -/
def State.s1To (s : State) (ch bitsIn n : Nat) : State :=
  let b := ch / 6
  let a := s.chan ch
  let r := s.s1Feeds ch bitsIn (n - a.n) a []
  let s := s.modFlt fun f => { f with chans := mput f.chans ch r.1 }
  r.2.reverse.foldl (fun s p =>
    let s := if 31130 ≤ p.2.natAbs then s.ovlNote ch p.1 else s
    if decide (3 ≤ ch % 6) && !((s.fltBay b).rngAt p.1).high && !s.quietS1 b p.2.natAbs then
      s.modBay b fun x => { x with quiet := max x.quiet p.1 }
    else s) s

/-- S1 outputs that some sample of a channel still reads: the impulse response of the slowest tap, reckoned from the tap that is
furthest behind. -/
def State.winKeep (s : State) (ch : Nat) : Nat :=
  let done := (List.range 3).map fun t => 2 ^ s.tapK ch t / 32 * (s.tap ch t).next
  chainLen 13 + 63 * 256 + ((s.chan ch).n - done.foldl min (s.chan ch).n)

/-- A tap sample (R264 to R276): the next of its channel's tap. The operand holds the bits captured since the channel's last S1 output,
the oldest in bit 0; those after t_dec are not used yet. -/
def State.tapSample (s : State) (ch tap bitsIn : Nat) : State :=
  if !s.chOn ch || decide (2 < tap) then s
  else
    let bay := s.fltBay (ch / 6)
    let fast := tap == 2 && bay.fast
    let k := s.tapK ch tap
    let n := 2 ^ k / 32
    let m := (s.tap ch tap).next
    let tDec := s.tapTick ch k m
    let s := (s.reach tDec).s1To ch bitsIn (n * (m + 1))
    let x := s.tap ch tap
    let a := s.chan ch
    let win := a.win.drop (a.n - n * (m + 1))
    let cur := decide (3 ≤ ch % 6)
    let hist := (if fast then [] else chainOut k win :: x.hist).take 64
    let bk := s.firBanks k m
    let hO := s.coefs bk.1 tap
    let hN := s.coefs bk.2.1 tap
    let l := hN.length
    let g := if fast then gFast s.fltD else gTicks k l s.fltD
    let r := bay.rngAt tDec
    let v := if fast then fastOut (cur && r.high) r.ratio s.fltD (mgetD a.sums m 0) else fade (tapFir hO hist) (tapFir hN hist) bk.2.2
    let ir := win.take (if fast then 256 else chainLen k + (l - 1) * n)
    let tEff : Int := (tDec : Int) - g
    let settle := decide (tDec < s.fltT0 + 2 * g + 24 * 2 ^ k) || (ir.any fun i => i.ext) || (!fast && decide (hist.length < l))
    let fl := 8 * b2n (s.chFaultAt ch tDec) + 4 * b2n (ir.any fun i => i.ovl) + 2 * b2n settle + b2n (cur && (bay.rngAt tEff).high)
    let s := s.setTap ch tap { x with next := m + 1, hist := hist, out := (TapOut.mk m tDec tEff v fl :: x.out).take (tapKeep tap) }
    let s := s.modFlt fun f => { f with chans := mput f.chans ch { a with win := a.win.take (s.winKeep ch) } }
    if settle then s.modFlt fun f => { f with lastSettle := max f.lastSettle tDec } else s

/-- TAP_SAMPLE (R264). -/
def execTapSample (ch tap bitsIn : Nat) (s : State) : Result := (s.tapSample ch tap bitsIn).done

/-- A tap's sample m, if it is still held. -/
def FltTap.at (x : FltTap) (m : Nat) : Option TapOut := x.out.find? fun t => t.m == m

/-! ### Starting and stopping (R262) -/

/-- The exponent and path a bay's registers give its CP tap. -/
def State.cpReg (s : State) (b : Nat) : Nat × Bool :=
  let f := s.flag (bayf F.FLT_BAYCFG_CP_FAST b)
  (if f then 13 else s.get (bayf F.FLT_BAYCFG_CP_K b), f)

/-- FLT_CTRL.EN rises: the MCLKs start on an edge of 20.48 MHz, whose TIME count is T0 (R262); which one is open. -/
def State.frontStart (s : State) : State :=
  if s.flag F.FLT_CTRL_EN then s
  else
    let r := s.fresh
    let s := r.2.reach (s.now + 1 + r.1 % 24)
    let s := (s.setB F.FLT_CTRL_EN true).setB F.FLT_STAT_RUN true
    let s := s.put64 R.FLT_T0_LO R.FLT_T0_HI (s.now - s.tim.base)
    let bay (b : Nat) : Nat × FltBay :=
      (b, ⟨[⟨s.now, false, s.get (bayf F.FLT_RNGRATIO_RATIO b), none⟩], none, none, s.now, (s.cpReg b).1, (s.cpReg b).2, none⟩)
    let s := { s with
      flt := { s.flt with taps := [], chans := [], faults := [], ovl := [], bays := (List.range 8).map bay, lastSettle := s.now }
      nrg := { s.nrg with next := 0, bays := [], normal := [] } }
    ((List.range 8).foldl (fun s b => s.rngSync b) s).gdSync

/-- FRONT_END_START (R262). -/
def execFrontEndStart (s : State) : Result := s.frontStart.done

/-- FLT_CTRL.EN falls: histories go, every bay returns to low gain, a swap ends (notes/assumptions/71.md). -/
def State.fltStop (s : State) : State :=
  let s := (s.setB F.FLT_CTRL_EN false).setB F.FLT_STAT_RUN false
  let s := (List.range 8).foldl (fun s b =>
    (((s.setBayBit F.FLT_BAYSTAT_BLANK b 0 false).setBayBit F.FLT_BAYSTAT_HIGH b 0 false).set (bayf F.FLT_BAYSTAT_FAULT b) 0)) s
  let s := (s.set F.FLT_STAT_HIGH 0).set F.FLT_STAT_FAULT 0
  let s := ((s.set F.FLT_BANK_PEND_FADE 0).set F.FLT_BANK_PEND 0).set F.FLT_BANK_BUSY 0
  s.modFlt fun f => { f with taps := [], chans := [], faults := [], ovl := [], bays := [], swap := none, pendFade := none }

/-! ### Coefficient banks (R275 to R277) -/

/-- COEF_LOAD's entries as a symmetric filter of l taps; none where one is not a sign extension. -/
def coefEntries (l : Nat) (b : List Byte) : Option (List Int) :=
  let n := (l + 1) / 2
  let raw := (List.range n).map fun i => le b (4 * i) 4
  if raw.all fun x => bits x 31 24 == (if bit x 23 then 255 else 0) then
    let h := raw.map (sext 24)
    some (h ++ (h.take (l / 2)).reverse)
  else none

/-- COEFLEN of a bank's tap. -/
def coefLenFld (bank tap : Nat) : Fld :=
  let f := match tap with
    | 0 => F.FLT_COEFLEN_L_PH
    | 1 => F.FLT_COEFLEN_L_EN
    | _ => F.FLT_COEFLEN_L_CP
  f.at (4 * bank)

/-- COEF_LOAD (0x4A): body. -/
def coefLoadBody (buf : HostRead) (p : List Byte) (s : State) : CmdRes :=
  let bank := le p 8 1
  let tap := le p 9 1
  let l := le p 10 1
  checked [(decide (1 < bank), St.badParam), (decide (2 < tap), St.badParam), (l == 0, St.badLength), (decide (64 < l), St.badParam),
      (!zeroAt p 11 5, St.badParam), (le p 16 8 % 8 != 0, St.badParam),
      (bank == s.bankActive || s.flt.swap.isSome, St.state)] s
    (withBuf buf s fun b => match coefEntries l b with
      | none => CmdRes.fail St.badParam s
      | some h => ⟨St.ok, [], (s.modFlt fun f => { f with coefs := mput f.coefs (4 * bank + tap) h }).set (coefLenFld bank tap) l⟩)

/-- COEF_LOAD (R275). -/
def execCoefLoad (r : Fn) (buf : HostRead) (s : State) : Result :=
  (s.plain r 0x4A 24 false (fun _ => true) (coefLoadBody buf)).done

/-- Do the banks agree on every tap's length (R277). -/
def State.sameLens (s : State) : Bool :=
  [0, 1, 2].all fun t => (s.coefs 0 t).length == (s.coefs 1 t).length

/-- BANK_SWAP (0x4B): body. -/
def bankSwapBody (p : List Byte) (s : State) : CmdRes :=
  let fd := le p 8 1
  let cancel := le p 9 1 == 1
  checked [(decide (1 < le p 9 1) || (cancel && fd != 0) || (!cancel && fd != 0 && !s.sameLens), St.badParam),
      (!zeroAt p 10 6, St.badParam),
      (!s.flag F.FLT_CTRL_EN || (cancel && s.flt.pendFade.isNone), St.state)] s
    (if cancel then
      ⟨St.ok, zeros 8, ((s.set F.FLT_BANK_PEND_FADE 0).set F.FLT_BANK_PEND 0).modFlt fun f => { f with pendFade := none }⟩
    else if s.flt.swap.isSome then
      let t := if s.flt.pendFade.isSome then s.ev0 Ev.FLT_SWAP_REPLACED else s
      ⟨St.pending, zeros 8, ((t.set F.FLT_BANK_PEND_FADE fd).set F.FLT_BANK_PEND 1).modFlt fun f => { f with pendFade := some fd }⟩
    else
      let fb := s.frameFrom (s.now + ticksOfUs 50)
      ⟨St.ok, toLe 8 (fb - s.tim.base), (s.set F.FLT_BANK_BUSY 1).modFlt fun f => { f with swap := some ⟨fd, fb, false⟩ }⟩)

/-- BANK_SWAP (R276). -/
def execBankSwap (r : Fn) (s : State) : Result := (s.plain r 0x4B 16 false (fun _ => true) bankSwapBody).done

/-- EV_FLT_FADE_START (R276): F_b comes, and the banks change roles. -/
def execEvFltFadeStart (s : State) : Result :=
  match s.flt.swap with
  | none => s.done
  | some w =>
    if w.started then s.done
    else
      let s := (s.reach w.fb).modFlt fun f => { f with swap := some { w with started := true } }
      (((s.set F.FLT_BANK_ACTIVE (1 - s.bankActive)).gdSync).ev0 Ev.FLT_FADE_START).done

/-- The tick at which a swap's fade ends. -/
def FltSwap.ends (w : FltSwap) : Nat := w.fb + 24 * 8192 * w.fade

/-- EV_FLT_FADE_DONE (R276, R277): the fade ends; a pending swap starts at this boundary. -/
def execEvFltFadeDone (s : State) : Result :=
  match s.flt.swap with
  | none => s.done
  | some w =>
    if !w.started then s.done
    else
      let s := (s.reach w.ends).ev0 Ev.FLT_FADE_DONE
      let s := (s.set F.FLT_BANK_PEND_FADE 0).set F.FLT_BANK_PEND 0
      match s.flt.pendFade with
      | none => ((s.set F.FLT_BANK_BUSY 0).modFlt fun f => { f with swap := none }).done
      | some fd => (s.modFlt fun f => { f with swap := some ⟨fd, w.ends, false⟩, pendFade := none }).done

/-- LEFT (FLT_BANK): frames left in the fade. -/
def State.fadeLeft (s : State) : Nat :=
  match s.flt.swap with
  | none => 0
  | some w => if w.started then ceilDiv (w.ends - s.now) (24 * 8192) else 0

/-- SETTLED (R270): no enabled tap has set SETTLE for 10 ms. -/
def State.fltSettled (s : State) : Bool := s.fltRuns && s.passed s.flt.lastSettle (ticksOfMs 10)

/-- Newly written CP_K and CP_FAST wait for the next frame boundary (R269). -/
def State.cpNote (s : State) (b : Nat) : State :=
  let x := s.fltBay b
  if !s.fltRuns then s
  else if s.cpReg b == (x.k, x.fast) then s.modBay b fun y => { y with due := none }
  else s.modBay b fun y => { y with due := some (y.due.getD (s.frameFrom (s.now + 1))) }

/-- The level of IRNG[b] (R271). -/
def State.irngPin (s : State) (b : Nat) : Bool := xor (s.fltBay b).high (s.flag (bayf F.FLT_BAYCFG_IRNG_POL b))

end Sys2Proof.Machine
end

