-- ==== Sys2Proof/Machine/Fit.lean ====
section
/-!
DEFINITION. Sys2Proof/Machine/Fit.lean: the fit of a second-order envelope to a window of PH samples (R282 to R284, R287, R288): weighted
least squares in fixed point far below the significands that the rule names. What those significands lose is open
(notes/assumptions/73.md).
-/
namespace Sys2Proof.Machine

/-! ### Linear equations in fixed point -/

/-- Product of numbers in units of 2^-192. -/
def fxMul (a b : Int) : Int := (a * b).fdiv (fxOne : Int)

/-- The solution of n equations, each row its coefficients (2^-192) and then its right side (2^-192 of a unit), by elimination: the
unknowns in units of 2^-192 of the unit. -/
def solveFx : Nat → List (List Int) → List Int
  | 0, _ => []
  | n + 1, rows =>
    let r := rows.headD []
    let p := r.headD 1
    let rest := (rows.drop 1).map fun q => List.zipWith (fun x y => x - (q.headD 0 * y).fdiv p) (q.drop 1) (r.drop 1)
    let sol := solveFx n rest
    let b := r.getLastD 0 - (List.zipWith fxMul (r.drop 1) sol).foldl (· + ·) 0
    (b * (fxOne : Int)).fdiv p :: sol

/-! ### Samples in time (R284, R288) -/

/-- A sample's distance from tick `nr` (2^-16), its DELAY taken off, in units of 2^-16 / 15 625 000 tick. -/
def sampleOfs (cal : PmuCal) (nr : Int) (t : TapOut) : Int :=
  (t.tEff * 65536 - nr) * 15625000 - (if bit t.flags 0 then cal.delayHi else cal.delayLo) * (7680 * 65536)

/-- A sample's distance times TIM_INCR is a time in units of 1 / `ofsDen` ns. -/
def ofsDen : Nat := 2 ^ 56 * 15625000

/-- A sample's primary value, tap × RATIO × GAIN_r, in units of 2^-321 (R288). -/
def primary (cal : PmuCal) (t : TapOut) : Int :=
  t.v * f32Units cal.ratio * f32Units (if bit t.flags 0 then cal.gainHi else cal.gainLo)

/-- What one fit reads: class M; W in units of 200 µs; reference frequency (0.01 Hz); the instant as ns of UTC modulo 100 s; n_r in units
of 2^-16 tick and TIM_INCR. -/
structure FitAt where
  m : Bool
  w : Nat
  fref : Nat
  t0 : Nat
  nr : Int
  incr : Nat

/-- The angle of the reference at a sample, in units of 2^-192 turn (R282). -/
def FitAt.turn (x : FitAt) (ofs : Int) : Int :=
  ((x.fref : Int) * ((x.t0 * ofsDen : Nat) + ofs * x.incr) * (fxOne : Int)).fdiv ((100000000000 * ofsDen : Nat) : Int)

/-- A distance as a share of half the window, in units of 2^-192. -/
def FitAt.share (x : FitAt) (ofs : Int) : Int := (ofs * x.incr * (fxOne : Int)).fdiv ((x.w * 100000 * ofsDen : Nat) : Int)

/-- The weight of a sample at a share of half the window (R283): triangular for P, Hann for M. -/
def FitAt.weight (x : FitAt) (s : Int) : Int :=
  if x.m then ((fxOne : Int) + (cosSin (s / 2)).1) / 2 else max 0 ((fxOne : Int) - s.natAbs)

/-- A sample ready for the sums: weight, share, cos and sin of the reference (2^-192), primary value. -/
structure FitRow where
  w : Int
  s : Int
  c : Int
  n : Int
  x : Int

/-- The row of a sample; `c` is the distance of the centre. -/
def FitAt.row (x : FitAt) (cal : PmuCal) (c : Int) (t : TapOut) : FitRow :=
  let o := sampleOfs cal x.nr t
  let s := x.share (o - c)
  let r := cosSin (x.turn o)
  ⟨x.weight s, s, r.1, r.2, primary cal t⟩

/-- The six functions whose combination models x / √2: the parts of a0, a1 and a2 with time in half windows. -/
def FitRow.basis (r : FitRow) : List Int :=
  let sc := fxMul r.s r.c
  let sn := fxMul r.s r.n
  [r.c, -r.n, sc, -sn, fxMul r.s sc, -(fxMul r.s sn)]

/-- One sample enters the normal equations. -/
def FitRow.enter (m : List (List Int)) (r : FitRow) : List (List Int) :=
  let p := r.basis
  List.zipWith (fun row pi =>
    let k := fxMul r.w pi
    List.zipWith (· + ·) row ((p.map fun pj => fxMul k pj) ++ [k * r.x])) m p

/-! ### A channel's fit -/

/-- A channel's envelope at the instant: a, a′ and a″ (in 1, 1/s and 1/s²); |a0|² and the weighted mean square of the residual. -/
structure ChFit where
  a : Dy × Dy
  a1 : Dy × Dy
  a2 : Dy × Dy
  mag0 : Dy
  res : Dy

/-- Sum of complex numbers. -/
def cadd (a b : Dy × Dy) : Dy × Dy := (a.1.add b.1, a.2.add b.2)

/-- A complex number times a real one. -/
def cscale (k : Dy) (a : Dy × Dy) : Dy × Dy := (k.mul a.1, k.mul a.2)

/-- The coefficients as they are held: within 2^-26 of the sum of the parts' sizes of the exact solution, which number is open, and then
32 bits long. -/
def holdCoefs (l : List Dy) (key : List Nat) : List Dy :=
  let size := l.foldl (fun n (x : Dy) => n.add ⟨x.m.natAbs, x.e⟩) Dy.zero
  l.zipIdx.map fun p =>
    let d : Nat := Config.op "pmu.fit" (p.2 :: key) % (2 ^ 33 + 1)
    Dy.roundTo 32 (Config.op "pmu.hold" (p.2 :: key)) ((p.1.add (size.mul ⟨(d : Int) - 2 ^ 32, -58⟩)).cut 320)

/-- The fit of a channel's window, newest sample first (R282): `centred` evaluates it at the window's centre, else at the instant. -/
def FitAt.fit (x : FitAt) (cal : PmuCal) (centred : Bool) (l : List TapOut) : ChFit :=
  let c := ((l[l.length / 2]?).map fun t => sampleOfs cal x.nr t).getD 0
  let rows := l.map fun t => x.row cal c t
  let sol := solveFx 6 (rows.foldl FitRow.enter (List.replicate 6 (List.replicate 7 0)))
  let half := (Dy.sqrt ⟨1, -1⟩).cut 320
  let key := [b2n x.m, x.fref, x.t0, wrapInt 80 x.nr, x.incr, cal.ratio, cal.gainLo, wrapInt 32 cal.delayLo, cal.gainHi,
    wrapInt 32 cal.delayHi] ++ l.flatMap fun t => [wrapInt 24 t.v, wrapInt 64 t.tEff, t.flags % 2]
  let u := holdCoefs (sol.map fun v => half.mul ⟨v, -513⟩) key
  let at_ (i : Nat) : Dy × Dy := ((u[2 * i]?).getD Dy.zero, (u[2 * i + 1]?).getD Dy.zero)
  let s : Dy := if centred then Dy.zero else ⟨x.share (-c), -192⟩
  let rate := Dy.ofRat 10000 x.w
  let p1 := cadd (at_ 1) (cscale (s.mul ⟨2, 0⟩) (at_ 2))
  let two := (Dy.sqrt ⟨2, 0⟩).cut 320
  -- the residual of each sample, in units of 2^-321
  let uf := u.map fun v => (v.mul two).mul ⟨1, 513⟩
  let ui := uf.map fun v => v.num.fdiv (v.den : Int)
  let res := rows.foldl (fun (n : Int × Int) r =>
    let d := r.x - ((List.zipWith (fun a b => fxMul a b) r.basis ui).foldl (· + ·) 0).fdiv (fxOne : Int)
    (n.1 + r.w * (d * d), n.2 + r.w)) (0, 0)
  ⟨ccut (cadd (at_ 0) (cadd (cscale s (at_ 1)) (cscale (s.mul s) (at_ 2)))), ccut (cscale rate p1),
    ccut (cscale ((rate.mul rate).mul ⟨2, 0⟩) (at_ 2)), (cabs2 (at_ 0)).cut 320,
    if res.2 ≤ 0 then Dy.zero else (Dy.div ⟨res.1, -642⟩ ⟨res.2, 0⟩)⟩

/-! ### Combinations (R281, R287) -/

/-- (x + αy + α²z) / 3. -/
def positive (x y z : Dy × Dy) : Dy × Dy :=
  let h := (Dy.sqrt ⟨3, -2⟩).cut 320
  ccut (cscale (Dy.ofRat 1 3) (cadd x (cadd (cmul (⟨-1, -1⟩, h) y) (cmul (⟨-1, -1⟩, h.neg) z))))

/-- The positive-sequence envelope of three channels. -/
def ChFit.seq (x y z : ChFit) : ChFit :=
  ⟨positive x.a y.a z.a, positive x.a1 y.a1 z.a1, positive x.a2 y.a2 z.a2, Dy.zero, Dy.zero⟩

/-- Im z / 2π, times a number. -/
def perTurn (z : Dy × Dy) : Dy := (z.2.mul (Dy.ofRat (2 ^ 256 * 2 ^ 255 : Nat) piFx)).cut 320

/-- Value A of the frequency word (R287): the deviation of f_ref (0.01 Hz) from FNOM (Hz), and what the envelope turns beside it. -/
def ChFit.dev (x : ChFit) (fref hz : Nat) : Dy := (Dy.ofRat ((fref : Int) - 100 * hz) 100).add (perTurn (cdiv x.a1 x.a))

/-- Value B: ROCOF. -/
def ChFit.rocof (x : ChFit) : Dy :=
  let r := ccut (cdiv x.a1 x.a)
  let q := cmul r r
  let c := cdiv x.a2 x.a
  perTurn (c.1.sub q.1, c.2.sub q.2)

/-- The phasor at the instant (R282): the envelope turned by (f_ref − FNOM) × (t_r mod 100 s). -/
def ChFit.phasor (x : ChFit) (fref hz t0 : Nat) : Dy × Dy :=
  let r := cosSin ((((fref : Int) - 100 * hz) * t0 * (fxOne : Int)).fdiv (100000000000 : Int))
  ccut (cmul x.a (⟨r.1, -192⟩, ⟨r.2, -192⟩))

end Sys2Proof.Machine
end

