-- ==== Sys2Proof/Machine/Streams.lean ====
section
/-!
DEFINITION. Sys2Proof/Machine/Streams.lean: the stream commands: STREAM_ADD, STREAM_DEL, STREAM_MOD, STREAM_CFG_LOAD,
STREAM_STATS (R76 to R79, R157, R536).
-/
namespace Sys2Proof.Machine

/-! ### Descriptors (R76 to R79) -/

/-- A descriptor read from host memory. With LEARN = 1 the firmware fills the fields of R77 later. -/
def descOf (b : List Byte) : Stream :=
  let fl := le b 24 1
  let learn := bit fl 2
  let z (x : Nat) : Nat := if learn then 0 else x
  { idcode := le b 2 2, udpPort := le b 4 2, cmdPort := le b 6 2, addr := be b 8 16, flags := fl, rate := le b 25 1,
    format := z (le b 26 1), fnom := z (le b 27 1), phnmr := z (le b 28 1), annmr := z (le b 29 1), dgnmr := z (le b 30 1),
    block := le b 31 1, nblocks := z (le b 32 1), blockOfs := z (le b 34 2), frameSize := z (le b 36 2), keyGroup := le b 38 2,
    timeBase := z (le b 40 3),
    scale := if learn then [] else (List.range (le b 28 1 + le b 29 1)).map fun i => le b (64 + 4 * i) 4,
    learned := false, fresh := true }

/-- The descriptor length of R77. -/
def descLen (b : List Byte) : Nat := if bit (le b 24 1) 2 then 64 else 64 + 4 * (le b 28 1 + le b 29 1)

/-- Stage 10 of a descriptor: its fields in ascending offset (R76 to R78). -/
def State.descChecks (s : State) (b : List Byte) (len : Option Nat) : Option Nat :=
  let e := descOf b
  let learn := bit e.flags 2
  firstFail [(decide (8183 < le b 0 2), St.badParam), (decide (63 < e.flags), St.badParam),
    (!bit e.flags 1 && (s.udpListed e.udpPort).isNone, St.badParam), (decide (11 < e.rate), St.badParam),
    (decide (15 < le b 26 1), St.badParam), (decide (1 < le b 27 1), St.badParam), (decide (62 < le b 28 1), St.badParam), (len != none && len != some (descLen b), St.badLength),
    (!learn && decide (63 < e.nwords), St.badParam),
    (!learn && le b 32 1 == 0, St.badLength), (!learn && decide (e.nblocks ≤ e.block), St.badParam),
    (!zeroAt b 33 1, St.badParam), (!learn && e.frameSize == 0, St.badLength),
    (!learn && (decide (e.blockOfs < 14) || decide (e.frameSize < e.blockOfs + e.blockLen + 2)), St.badParam),
    (!zeroAt b 43 1, St.badParam), (!learn && e.timeBase == 0, St.badParam), (!zeroAt b 44 20, St.badParam)]

/-- Has the entry its format: a LEARN entry has none until it is filled. -/
def Stream.formatted (e : Stream) : Bool := !bit e.flags 2 || e.learned

/-- The entry of a table with which an entry conflicts (R78): the same key with the same BLOCK, or another FRAME_SIZE or
NBLOCKS. Entries with SRC_INJ = 1 have no key. A LEARN entry without a learned format has no FRAME_SIZE and NBLOCKS to compare
(notes/assumptions/115.md). -/
def conflict (tab : List (Nat × Stream)) (sidx : Nat) (e : Stream) : Option Nat :=
  if bit e.flags 1 then none
  else (tab.find? fun p =>
    p.1 != sidx && !bit p.2.flags 1 && p.2.addr == e.addr && p.2.udpPort == e.udpPort && p.2.idcode == e.idcode &&
      (p.2.block == e.block ||
        (p.2.formatted && e.formatted && (p.2.frameSize != e.frameSize || p.2.nblocks != e.nblocks)))).map fun p => p.1

/-- The summed RATE of the enabled shadow entries and local streams (R79). -/
def State.rateSum (s : State) (tab : List (Nat × Stream)) : Nat :=
  (tab.filter fun p => bit p.2.flags 0).foldl (fun n p => n + rateOf p.2.rate) 0 +
    (s.pmu.cfg.shadow.filter fun p => p.2.enable).foldl (fun n p => n + rateOf p.2.rate) 0

/-- The budget of R79 in reports/s. -/
def rateBudget : Nat := 983040

/-- Writes an entry into the shadow; the stream's WAIT_POLICY settings return to their defaults there (R536). -/
def State.writeEntry (s : State) (sidx : Nat) (e : Stream) : State :=
  let s := ({ s with ing := { s.ing with streams := s.ing.streams.put sidx e } } : State).healAll 0 [sidx]
  match mget s.aln.policy.shadow sidx with
  | some p => if p = Policy.default then s
    else ({ s with aln := { s.aln with policy := s.aln.policy.put sidx Policy.default } } : State).healAll 1 [sidx]
  | none => s

/-! ### STREAM_ADD -/

/-- STREAM_ADD (0x10): body. -/
def streamAddBody (buf : HostRead) (p : List Byte) (s : State) : CmdRes :=
  checked [(le p 8 8 % 8 != 0, St.badParam), (le p 16 2 == 0, St.badLength), (!zeroAt p 18 6, St.badParam),
      (s.cmd.prep.isSome, St.busy)] s
  (withBuf buf s fun b =>
    match s.descChecks b (some (le p 16 2)) with
    | some st => CmdRes.fail st s
    | none =>
      let sidx := le b 0 2
      let e := descOf b
      let tab := s.ing.streams.shadow
      if (mget tab sidx).isSome then CmdRes.fail St.state s
      else match conflict tab sidx e with
        | some c => ⟨St.badParam, toLe 2 c, s⟩
        | none =>
          if rateBudget < s.rateSum (mput tab sidx e) then CmdRes.fail St.noResource s
          else ⟨St.ok, [], s.writeEntry sidx e⟩)

/-- STREAM_ADD (R76). -/
def execStreamAdd (r : Fn) (buf : HostRead) (s : State) : Result :=
  (s.plain r 0x10 24 false (fun _ => true) (streamAddBody buf)).done

/-! ### STREAM_DEL -/

/-- Stages 6 to 8 of STREAM_DEL (0x11). -/
def streamDelCheck (p : List Byte) (s : State) : Option Nat :=
  firstFail [(le p 10 2 == 0, St.badLength), (decide (8184 < le p 8 2 + le p 10 2), St.badParam), (s.cmd.prep.isSome, St.busy)]

/-- A step of STREAM_DEL: clears at most 512 shadow entries, skipping unused ones. Progress: the next SIDX. -/
def streamDelStep (p : List Byte) (prog : List Nat) (s : State) : StepRes :=
  let from_ := prog.headD 0
  let end_ := le p 8 2 + le p 10 2
  let used := (s.ing.streams.shadow.map fun x => x.1).filter fun k => decide (from_ ≤ k) && decide (k < end_)
  let now := used.take 512
  let s := ({ s with ing := { s.ing with streams := now.foldl (fun t k => t.del k) s.ing.streams } } : State).healAll 0 now
  match used[512]? with
  | none => .final St.ok [] s
  | some k => .more [k] s

/-- STREAM_DEL (R536). -/
def execStreamDel (r : Fn) (s : State) : Result :=
  (s.stepped r 0x11 12 streamDelCheck (fun p => [le p 8 2]) streamDelStep).done

/-! ### STREAM_MOD -/

/-- The entry as STREAM_MOD changes it. -/
def modEntry (e : Stream) (p : List Byte) : Stream :=
  let m := le p 10 2
  { e with
    flags := if bit m 0 then le p 12 1 else e.flags
    udpPort := if bit m 1 then le p 14 2 else e.udpPort
    cmdPort := if bit m 2 then le p 16 2 else e.cmdPort
    addr := if bit m 3 then be p 24 16 else e.addr
    keyGroup := if bit m 4 then le p 18 2 else e.keyGroup }

/-- STREAM_MOD (0x12): body. -/
def streamModBody (p : List Byte) (s : State) : CmdRes :=
  let sidx := le p 8 2
  let m := le p 10 2
  let tab := s.ing.streams.shadow
  let old := mget tab sidx
  let inj := (old.map fun e => bit e.flags 1).getD false
  checked [(decide (8183 < sidx), St.badParam), (m == 0 || decide (31 < m), St.badParam),
      (bit m 0 && decide (63 < le p 12 1), St.badParam), (!zeroAt p 13 1, St.badParam),
      (bit m 1 && !inj && (s.udpListed (le p 14 2)).isNone, St.badParam), (!zeroAt p 20 4, St.badParam),
      (s.cmd.prep.isSome, St.busy)] s
  (match old with
   | none => CmdRes.fail St.state s
   | some o =>
     let e := modEntry o p
     let flip := bits e.flags 2 1 != bits o.flags 2 1
     if flip || (conflict tab sidx e).isSome then CmdRes.fail St.badParam s
     else if bit e.flags 0 && !bit o.flags 0 && decide (rateBudget < s.rateSum (mput tab sidx e)) then
       CmdRes.fail St.noResource s
     else ⟨St.ok, [], ({ s with ing := { s.ing with streams := s.ing.streams.put sidx e } } : State).healAll 0 [sidx]⟩)

/-- STREAM_MOD (R78). -/
def execStreamMod (r : Fn) (s : State) : Result := (s.plain r 0x12 40 false (fun _ => true) streamModBody).done

/-! ### STREAM_CFG_LOAD -/

/-- The offsets of n descriptors of an image, each on an 8-byte boundary, and the image's length. -/
def imageParts (b : List Byte) : Nat → Nat → List Nat × Nat
  | 0, o => ([], o)
  | n + 1, o =>
    let r := imageParts b n ((o + descLen (b.drop o) + 7) / 8 * 8)
    (o :: r.1, r.2)

/-- Stage 11 of STREAM_CFG_LOAD, entry by entry over the table as it grows; answers the failing index with its status, or the
table. -/
def loadEntries (replace : Bool) (tab : List (Nat × Stream)) (ds : List (List Byte)) : (Nat × Nat) ⊕ List (Nat × Stream) :=
  (ds.zipIdx.foldl (fun (acc : (Nat × Nat) ⊕ List (Nat × Stream)) x =>
    match acc with
    | .inl f => .inl f
    | .inr t =>
      let sidx := le x.1 0 2
      let e := descOf x.1
      if (mget t sidx).isSome && !replace then .inl (x.2, St.state)
      else if (conflict t sidx e).isSome then .inl (x.2, St.badParam)
      else .inr (mput t sidx e)) (.inr tab))

/-- STREAM_CFG_LOAD (0x13): body. -/
def streamCfgLoadBody (buf : HostRead) (p : List Byte) (s : State) : CmdRes :=
  let count := le p 20 2
  checked [(le p 16 4 == 0, St.badLength), (count == 0, St.badLength), (decide (256 < count), St.badParam),
      (decide (1 < le p 22 1), St.badParam), (!zeroAt p 23 1, St.badParam), (s.cmd.prep.isSome, St.busy)] s
  (withBuf buf s fun b =>
    let parts := imageParts b count 0
    let ds := parts.1.map fun o => b.drop o
    if parts.2 != le p 16 4 then CmdRes.fail St.badLength s
    else match ds.zipIdx.findSome? fun x => (s.descChecks x.1 none).map fun st => (x.2, st) with
      | some f => ⟨f.2, toLe 2 f.1, s⟩
      | none =>
        match loadEntries (bit (le p 22 1) 0) s.ing.streams.shadow ds with
        | .inl f => ⟨f.2, toLe 2 f.1, s⟩
        | .inr t =>
          if rateBudget < s.rateSum t then
            let over_ := ds.zipIdx.find? fun x => decide (rateBudget < s.rateSum
              ((ds.take (x.2 + 1)).foldl (fun t d => mput t (le d 0 2) (descOf d)) s.ing.streams.shadow))
            ⟨St.noResource, toLe 2 ((over_.map fun x => x.2).getD 0), s⟩
          else ⟨St.ok, [], ds.foldl (fun s d => s.writeEntry (le d 0 2) (descOf d)) s⟩)

/-- STREAM_CFG_LOAD (R76). -/
def execStreamCfgLoad (r : Fn) (buf : HostRead) (s : State) : Result :=
  (s.plain r 0x13 24 false (fun _ => true) (streamCfgLoadBody buf)).done

/-! ### STREAM_STATS -/

/-- STATE of the statistics block. -/
def State.streamState (s : State) (sidx : Nat) : Nat :=
  match mget s.ing.streams.eff sidx with
  | none => 0
  | some e =>
    if s.cramPoisoned 0 sidx then 4
    else if !e.formatted then 3
    else if bit e.flags 0 then 1 else 2

/-- A signed value in four bytes. -/
def toLeInt (i : Int) : List Byte := toLe 4 (wrapInt 32 i)

/-- The 256-byte block (R157): for local streams the ingest fields are zero. -/
def State.statsBlock (s : State) (sidx : Nat) : List Byte :=
  let x := s.stat sidx
  let p := s.policyOf sidx
  let used := (mget s.ing.streams.eff sidx).isSome
  let ing := if 8184 ≤ sidx || !used then toLe 2 sidx ++ zeros 222
    else toLe 2 sidx ++ toLe 1 (s.streamState sidx) ++ toLe 1 x.auth ++ toLe 4 x.epoch ++ toLe 8 x.accepted ++
      x.cnt.flatMap (toLe 4) ++ toLe 4 x.newestTag.2 ++ toLe 4 x.newestTag.1 ++ toLe 4 x.lastArrival ++ toLeInt x.latLast ++
      toLeInt x.latMin ++ toLeInt x.latMax ++ toLe 4 x.cfgchg ++ zeros 4 ++ x.hist.flatMap (toLe 4)
  let fl := b2n x.demoted + 2 * b2n p.fixed.isSome + 4 * b2n p.nodemote + 8 * b2n p.mean
  ing ++ toLe 4 x.wait ++ toLe 1 fl ++ toLe 1 (popcount x.miss 64) ++ toLe 1 x.streak ++ toLe 1 x.demotions ++
    toLe 4 x.placed ++ toLe 4 x.placeholder ++ toLe 4 x.offcad ++ toLe 4 x.between ++ toLe 4 x.demsupp ++ toLe 1 x.ahead ++
    toLe 1 x.dupinst ++ toLe 2 x.dsfall

/-- CLEAR: counters go to zero, LAT_MIN and LAT_MAX to "none since clear"; state stays (R157). -/
def SStat.cleared (x : SStat) : SStat :=
  { x with accepted := 0, cnt := List.replicate 12 0, cfgchg := 0, latMin := 0x7FFFFFFF, latMax := -0x80000000, demotions := 0,
           placed := 0, placeholder := 0, offcad := 0, between := 0, demsupp := 0, ahead := 0, dupinst := 0, dsfall := 0 }

/-- STREAM_STATS (0x14): body. -/
def streamStatsBody (r : Fn) (issued : Bool) (p : List Byte) (s : State) : CmdRes :=
  let sidx := le p 8 2
  let fl := le p 10 1
  checked [(decide (8191 < sidx), St.badParam), (decide (1 < fl), St.badParam), (r == .pf1 && bit fl 0, St.denied),
      (!zeroAt p 11 5, St.badParam), (le p 16 8 % 8 != 0, St.badParam), (decide (le p 24 2 < 256), St.badLength)] s
  (withWrite issued r s
    (let blk := s.statsBlock sidx
     let t := if bit fl 0 && (mget s.ing.stat sidx).isSome then s.modStat sidx SStat.cleared else s
     ⟨St.ok, [], t.dma r (le p 16 8) blk⟩))

/-- STREAM_STATS (R157). -/
def execStreamStats (r : Fn) (issued : Bool) (s : State) : Result :=
  (s.plain r 0x14 26 true (fun _ => true) (streamStatsBody r issued)).done

end Sys2Proof.Machine
end

