-- ==== Sys2Proof/Machine/TimeBase.lean ====
section
/-!
DEFINITION. Sys2Proof/Machine/TimeBase.lean: the time base's commands: reference loss, rate changes and steps, PTP,
timestamp queues, PPS and IRIG-B, holdover and time quality (R44 to R71).
-/
namespace Sys2Proof.Machine

/-! ### Holdover and uncertainty (R66 to R69) -/

/-- U (R67): all ones before the first TIM_SERVO write; UNC while HOLD = 0; in holdover UNC plus the growth up to the last
recomputation. -/
def State.uncNow (s : State) : Nat :=
  match s.tim.servoAt with
  | none => 0xFFFFFFFF
  | some t0 =>
    let unc := s.get F.TIM_SERVO_UNC
    if s.flag F.TIM_CTRL_HOLD then
      min 0xFFFFFFFF (unc + s.get F.TIM_HOLDRATE_RATE * (max s.tim.uncAt t0 - t0) / 491520000)
    else unc

/-- PPS_OUT is held low: WIDTH is 0, or SQUELCH is set and the code is 0xF; a pulse in progress ends (R62, TIM_PPSOUT). -/
def State.ppsCut (s : State) : State :=
  if s.tim.ppsHigh && (s.get F.TIM_PPSOUT_WIDTH == 0 || (s.flag F.TIM_PPSOUT_SQUELCH && s.tqCode == 0xF)) then
    { s with tim := { s.tim with ppsHigh := false } }
  else s

/-- LOCKED, U and EXPIRED follow the registers (R67, TIM_STAT). In a holdover entered before the first TIM_SERVO write U is all ones, and
where that exceeds TIM_HOLDMAX, EXPIRED is set and the event logged at once (notes/assumptions/106.md). -/
def State.timSync (s : State) : State :=
  let locked := s.flag F.TIM_SERVO_LOCK && !s.flag F.TIM_CTRL_HOLD
  let s := s.setB F.TIM_STAT_LOCKED locked
  let s := { s with tim := { s.tim with everLocked := s.tim.everLocked || locked } }
  let s := s.set F.TIM_UNC_U s.uncNow
  if s.flag F.TIM_CTRL_HOLD && !s.flag F.TIM_STAT_EXPIRED && decide (s.get F.TIM_HOLDMAX_MAX < s.get F.TIM_UNC_U) then
    ((s.setB F.TIM_STAT_EXPIRED true).ev0 Ev.TIM_HOLDOVER_EXPIRED).ppsCut
  else s.ppsCut

/-- HOLD goes from 0 to 1, by hardware or by a write; with HOLD already 1 nothing changes (R66). -/
def State.enterHold (s : State) (hw : Bool) : State :=
  if s.flag F.TIM_CTRL_HOLD then s
  else
    let s := (s.setB F.TIM_CTRL_HOLD true).setB F.TIM_STAT_HOLD_HW hw
    let s := { s with tim := { s.tim with holdAt := s.tim.now, uncAt := s.tim.now } }
    (s.ev0 Ev.TIM_HOLDOVER_ENTER).timSync

/-- HOLD goes from 1 to 0; a write of 0 is ignored while REF_LOST is 1 (R69). -/
def State.leaveHold (s : State) : State :=
  if !s.flag F.TIM_CTRL_HOLD || s.flag F.TIM_STAT_REF_LOST then s
  else
    let s := ((s.setB F.TIM_CTRL_HOLD false).setB F.TIM_STAT_HOLD_HW false).setB F.TIM_STAT_EXPIRED false
    (s.ev0 Ev.TIM_HOLDOVER_EXIT).timSync

/-- EV_TIM_REF_LOST (R46): after lock, the reference is lost. -/
def execEvTimRefLost (s : State) : Result :=
  if s.flag F.TIM_PLL_STAT_LOCK && !s.flag F.TIM_STAT_REF_LOST then
    let s := (s.setB F.TIM_STAT_REF_LOST true).setB F.TIM_PLL_STAT_REF_LOST true
    let s := (s.setB F.TIM_PLL_STAT_LOCK false).incSat F.TIM_PLL_STAT_UNLOCK_CNT
    (((s.ev0 Ev.TIM_REF_LOST).enterHold true).ppsCut).done
  else s.done

/-- EV_TIM_REF_RESTORED (R46): edges resume and the PLL relocks; HOLD stays. -/
def execEvTimRefRestored (s : State) : Result :=
  if s.flag F.TIM_STAT_REF_LOST then
    let s := (s.setB F.TIM_STAT_REF_LOST false).setB F.TIM_PLL_STAT_REF_LOST false
    ((s.setB F.TIM_PLL_STAT_LOCK true).ev0 Ev.TIM_REF_RESTORED).done
  else s.done

/-! ### Rate and steps (R48 to R53) -/

/-- The next TIME tick, at which a rate change or a step takes effect (R49, R50). -/
def State.nextTick (s : State) : State := s.reach (s.now + 1)

/-- The accepted range of TIM_INCR (R48). -/
def incrOk (v : Nat) : Bool := decide (2235843652266 ≤ v) && decide (v ≤ 2238080614400)

/-- A new TIM_INCR at the next tick: re-anchored with the old increment (R49). -/
def State.setIncr (s : State) (v : Nat) : State :=
  let s := s.nextTick
  let a := s.tim.anchor.map fun _ => (s.t40, s.now)
  let s := s.keepAnchor
  { s with tim := { s.tim with anchor := a } }.put64 R.TIM_INCR_LO R.TIM_INCR_HI v

/-- TIM_INCR_WRITE (R48, R49): the HI dword of TIM_INCR, completing the agent's held LO. -/
def State.timIncr (s : State) (a : Agent) (v : Dword) : State :=
  let x := s.pair a R.TIM_INCR_LO (BitVec.ofNat 32 (bits v.toNat 11 0))
  let s := s.dropHeld a R.TIM_INCR_LO
  if incrOk x then s.setIncr x else s.ev0 Ev.TIM_INCR_RANGE

/-- TIM_INCR_WRITE. -/
def execTimIncrWrite (a : Agent) (v : Dword) (s : State) : Result :=
  (s.gate a R.TIM_INCR_HI fun s => s.timIncr a v).done

/-- A step in the TIM_STEP layout added to local time at the next tick, in units of 2^-16 ns (R50, R52); the held step is
dropped. -/
def State.applyStep (s : State) (x : Nat) : State :=
  let s := s.nextTick.keepAnchor
  let a := s.tim.anchor.map fun (t, n) => (wrapInt 128 ((t : Int) + sext 64 x * 2 ^ 24), n)
  let s := { s with tim := { s.tim with anchor := a } }
  (s.setB F.TIM_STAT_STEP_HELD false).put64 R.TIM_STEPREQ_LO R.TIM_STEPREQ_HI 0

/-- A step written to TIM_STEP: applied within TIM_STEPLIM, else held in TIM_STEPREQ (R50). -/
def State.stepRequest (s : State) (x : Nat) : State :=
  if (sext 64 x).natAbs ≤ s.get F.TIM_STEPLIM_LIMIT * 65536 then
    (s.applyStep x).ev Ev.TIM_STEPPED 0 [(64, x)]
  else
    ((s.put64 R.TIM_STEPREQ_LO R.TIM_STEPREQ_HI x).setB F.TIM_STAT_STEP_HELD true).ev0 Ev.TIM_STEP_REFUSED

/-- TIM_STEP_REQUEST: the HI dword of TIM_STEP, completing the agent's held LO; LO not held counts as 0, since TIM_STEP
reads as zero. -/
def State.timStep (s : State) (a : Agent) (v : Dword) : State :=
  let x := s.pair a R.TIM_STEP_LO v
  (s.dropHeld a R.TIM_STEP_LO).stepRequest x

/-- TIM_STEP_REQUEST (R50). -/
def execTimStepRequest (a : Agent) (v : Dword) (s : State) : Result :=
  (s.gate a R.TIM_STEP_HI fun s => s.timStep a v).done

/-- TIME_STEP_FORCE (R51): body. -/
def timeStepForceBody (b : List Byte) (s : State) : CmdRes :=
  checked [(decide (1 < le b 8 1), St.badParam), (!zeroAt b 9 7, St.badParam),
      (le b 8 1 == 1 && le b 16 8 == 0, St.badParam),
      (le b 8 1 == 0 && !s.flag F.TIM_STAT_STEP_HELD, St.state)] s
    (let x := if le b 8 1 == 0 then s.get64 R.TIM_STEPREQ_LO R.TIM_STEPREQ_HI else le b 16 8
     ⟨St.ok, toLe 8 x, (s.applyStep x).ev0 Ev.TIM_STEP_FORCED⟩)

/-- TIME_STEP_FORCE (0x60). -/
def execTimeStepForce (r : Fn) (s : State) : Result :=
  (s.plain r 0x60 24 false (fun _ => true) timeStepForceBody).done

/-! ### PTP (R58, R59) -/

/-- PTP_CFG (0x61): body. -/
def ptpCfgBody (b : List Byte) (s : State) : CmdRes :=
  let off := (List.range 5).any fun p => bit (le b 8 1) p && s.get (pfld F.MAC_CTRL_P_MODE p) == 0
  let ls := sext 8 (le b 11 1)
  checked [(decide (31 < le b 8 1) || off, St.badParam), (decide (127 < le b 9 1), St.badParam),
      (decide (31 < le b 10 1), St.badParam), (decide (ls < -7) || decide (4 < ls), St.badParam),
      (le b 12 1 == 0, St.badParam), (decide (1 < le b 13 1), St.badParam), (bit (le b 14 2) 12, St.badParam)] s
    ⟨St.ok, [], ({ s with tim := { s.tim with
      ptpNext := some ⟨le b 8 1, le b 9 1, le b 10 1, ls, le b 12 1, le b 13 1, le b 14 2⟩ } } : State).mcSync⟩

/-- PTP_CFG (R59). -/
def execPtpCfg (r : Fn) (s : State) : Result := (s.plain r 0x61 16 false (fun _ => true) ptpCfgBody).done

/-- The firmware's next Sync interval has come: the settings of the last PTP_CFG are in use
(notes/assumptions/17.md). -/
def State.ptpTake (s : State) : State :=
  match s.tim.ptpNext with
  | none => s
  | some c => { s with tim := { s.tim with ptp := some c, ptpNext := none } }

/-- Is PTP on for port p. -/
def State.ptpOn (s : State) (p : Nat) : Bool := (s.tim.ptp.map fun c => bit c.ports p).getD false

/-- TIM_SRC.ACT changes to another source: logged; leaving code 0 restarts the servo timeout's count (R58, R66). -/
def State.setAct (s : State) (a : Nat) : State :=
  if s.get F.TIM_SRC_ACT == a then s
  else
    let s := if s.actSrc == 0 then { s with tim := { s.tim with servoFrom := s.tim.now } } else s
    ((s.set F.TIM_SRC_ACT a).ev0 Ev.TIM_SRC_CHANGE).ppsCut

/-- TIME_SOURCE_LOST (R58, R66): the firmware switches from the primary to the backup if there is one and it is good,
else it sets HOLD. -/
def execTimeSourceLost (backupGood : Bool) (s : State) : Result :=
  if s.actSrc == 0 then s.done
  else
    let bak := s.get F.TIM_SRC_BAK
    if backupGood && decide (0 < bak) && decide (bak < 4) && s.get F.TIM_SRC_ACT != bak then (s.setAct bak).done
    else (s.enterHold false).done

/-- A PTP message of the peer-delay mechanism (IEEE 1588-2019 layout, notes/assumptions/18.md). -/
def State.ptpMessage (s : State) (p ty seq : Nat) (corr : Nat) (time : Nat) (reqId : List Byte) : List Byte :=
  let ns := time / 2 ^ 40
  let dom := (s.tim.ptp.map fun c => c.domain).getD 0
  toBe 1 ty ++ toBe 1 2 ++ toBe 2 54 ++ toBe 1 dom ++ zeros 3 ++ toBe 8 corr ++ zeros 4 ++
    toBe 8 (Config.op "ptp.clockIdentity" []) ++ toBe 2 (p + 1) ++ toBe 2 seq ++ toBe 1 5 ++ toBe 1 0x7F ++
    toBe 6 (ns / 1000000000) ++ toBe 4 (ns % 1000000000) ++ reqId

/-- The frame of a PTP message from port p, tagged as PTP_CFG's flags say, with the trailer of a PRP pair (R59, R366). -/
def State.ptpFrame (s : State) (p ty seq : Nat) (stamped : Bool) (payload : List Byte) : TxFrame :=
  let c := s.tim.ptp
  let tag := match c with
    | some x => if x.flags == 1 then TagWish.own x.vlan else .port
    | none => .port
  let kind := if stamped then TxKind.ptp ty ((c.map fun x => x.domain).getD 0) seq else .plain
  s.txBuild p 7 tag kind (if s.prpOn p then some (s.get F.MAC_PRP_SEQ_SEQ) else none) macPdelay 0x88F7 payload

/-- Sends a PTP message from port p: it leaves in this step where the port takes it (notes/assumptions/17.md). -/
def State.ptpSend (s : State) (p ty seq : Nat) (stamped : Bool) (payload : List Byte) : State :=
  let f := s.ptpFrame p ty seq stamped payload
  let s := if s.prpOn p then s.inc F.MAC_PRP_SEQ_SEQ else s
  if s.txRefused p f then (s.txOffer p f).1 else s.txDone p f s.now

/-- PDELAY_REQ_TX (R59): its egress timestamp enters the queue in both modes. -/
def execPdelayReqTx (p : Fin 5) (seq : Nat) (s : State) : Result :=
  let s := s.ptpTake
  if s.ptpOn p && s.fwRuns then
    (s.ptpSend p 2 (seq % 65536) true (s.ptpMessage p 2 (seq % 65536) 0 0 (zeros 10))).done
  else s.done

/-- Does the firmware take PTP messages with a VLAN tag: FLAGS[0] of PTP_CFG (R59). -/
def State.ptpTags (s : State) : Bool := (s.tim.ptp.map fun c => c.flags % 2 == 1).getD false

/-- Is the firmware frame a PTP message of the type with the sequence number, one with a VLAN tag only where `tags` takes it. -/
def FwFrame.isPtp (f : FwFrame) (tags : Bool) (p ty seq : Nat) : Bool :=
  f.port == p && (f.kind == 2 || (tags && f.kind == 3)) && le f.bytes 14 1 % 16 == ty && be f.bytes 44 2 == seq

/-- PDELAY_RESP_TX (R59): answers a Pdelay_Req waiting in the firmware queue. In one-step mode the turnaround goes into
correctionField; in two-step mode the egress timestamp enters the queue. -/
def execPdelayRespTx (p : Fin 5) (seq : Nat) (s : State) : Result :=
  let s := s.ptpTake
  let q := seq % 65536
  match s.ing.fwq.find? fun f => f.isPtp s.ptpTags p 2 q with
  | none => s.done
  | some f =>
    if s.ptpOn p && s.fwRuns then
      let s := { s with ing := { s.ing with fwq := s.ing.fwq.erase f } }
      let two := (s.tim.ptp.map fun c => bit c.twoStep p).getD false
      let turn := (s.egressStamp p (s.now + s.bitTicks p 64) - f.arrival) / 2 ^ 24
      let reqId := bytesAt f.bytes 34 10
      if two then
        let s := { s with tim := { s.tim with reqId := mput s.tim.reqId (65536 * p + q) (beVal reqId) } }
        (s.ptpSend p 3 q true (s.ptpMessage p 3 q 0 f.arrival reqId)).done
      else (s.ptpSend p 3 q false (s.ptpMessage p 3 q turn 0 reqId)).done
    else s.done

/-- PDELAY_RESP_FOLLOW_UP_TX (R59): two-step mode; the firmware has taken the Pdelay_Resp's egress timestamp, and those
before it, from the queue. It carries the identity of the port that asked. -/
def execPdelayRespFollowUpTx (p : Fin 5) (seq : Nat) (s : State) : Result :=
  let q := seq % 65536
  let l := s.tsq p
  let mine (e : TsqEntry) : Bool := e.tx && e.msgType == 3 && e.seqId == q
  match l.find? mine with
  | none => s.done
  | some e =>
    if s.ptpOn p && s.fwRuns then
      let rest := (l.dropWhile fun x => !mine x).tail
      let s := { s with tim := { s.tim with tsq := mput s.tim.tsq p rest } }
      let s := s.set (F.TIM_TSQ_STAT_P_COUNT.at (0x40 * p)) rest.length
      let reqId := toBe 10 (mgetD s.tim.reqId (65536 * p + q) 0)
      let s := { s with tim := { s.tim with reqId := merase s.tim.reqId (65536 * p + q) } }
      (s.ptpSend p 10 q false (s.ptpMessage p 10 q 0 e.time reqId)).done
    else s.done

/-- A read of TIM_TSQ_E0_Pp (R65): a control core pops the head, PF0 peeks; E1 to E3 are latched for the reader. -/
def State.tsqRead (s : State) (a : Agent) (p : Nat) : State :=
  if a = .pf1 then s.emit (.answer a (zeros 4) false)
  else
    let q := s.tsq p
    let o := 0x40 * p
    let w (f : TsqEntry → Nat) : Dword := BitVec.ofNat 32 ((q.head?.map f).getD 0)
    let sec (e : TsqEntry) : Nat := e.time / 2 ^ 40 / 1000000000
    let e0 := w fun e => e.time / 2 ^ 40 % 1000000000
    let e1 := w fun e => sec e
    let e2 := w fun e => e.time / 2 ^ 24 % 65536 * 65536 + sec e / 2 ^ 32 % 65536
    let e3 := w fun e => 2 ^ 31 + b2n e.tx * 2 ^ 30 + e.msgType % 16 * 2 ^ 24 + e.domain % 256 * 2 ^ 16 + e.seqId % 65536
    let l := mput (mput (mput s.latch (latchKey a (R.TIM_TSQ_E1_P + o)) e1) (latchKey a (R.TIM_TSQ_E2_P + o)) e2)
      (latchKey a (R.TIM_TSQ_E3_P + o)) e3
    let s := { s with latch := l }
    let s := if a = .c0 || a = .c1 then
        ({ s with tim := { s.tim with tsq := mput s.tim.tsq p q.tail } }).set
          (F.TIM_TSQ_STAT_P_COUNT.at o) q.tail.length
      else s
    s.emit (.answer a (toLe 4 e0.toNat) false)

/-- TSQ_ENTRY_READ (R65). -/
def execTsqEntryRead (a : Agent) (p : Fin 5) (s : State) : Result := (s.tsqRead a p).done

/-! ### PPS and IRIG-B (R60 to R62) -/

/-- Puts a local time into a LO, MID, HI timestamp. -/
def State.putTime (s : State) (lo t : Nat) : State :=
  let ns := t / 2 ^ 40 % 1000000000
  let sec := t / 2 ^ 40 / 1000000000
  ((s.wr lo (BitVec.ofNat 32 (ns % 65536 * 65536 + t / 2 ^ 24 % 65536))).wr (lo + 4)
    (BitVec.ofNat 32 (sec % 65536 * 65536 + ns / 65536))).wr (lo + 8) (BitVec.ofNat 32 (sec / 65536))

/-- PPS_IN_EDGE (R60): an edge of the selected direction, of a pulse of at least 100 ns, is captured. -/
def execPpsInEdge (rising : Bool) (widthNs : Nat) (s : State) : Result :=
  if s.flag F.TIM_CTRL_PPSIN_EN && (rising == !s.flag F.TIM_CTRL_PPSIN_EDGE) && decide (100 ≤ widthNs) then
    let s := (s.putTime R.TIM_PPSIN_TS_LO s.t40).inc F.TIM_PPSIN_CNT_EDGES
    let s := s.setB F.TIM_STAT_PPSIN_MISSING false
    let s := { s with tim := { s.tim with ppsHist := ((s.tim.now, s.t40) :: s.tim.ppsHist).take 2 } }
    (s.raise 11).done
  else s.done

/-- EV_TIM_PPSIN_MISSING (R60): 1.1 s after the last edge. -/
def execEvTimPpsinMissing (s : State) : Result :=
  match s.tim.ppsHist with
  | [] => s.done
  | (t, _) :: _ =>
    if s.flag F.TIM_CTRL_PPSIN_EN && !s.flag F.TIM_STAT_PPSIN_MISSING then
      let s := s.reach (t + ticksOfMs 1100)
      ((s.setB F.TIM_STAT_PPSIN_MISSING true).ev0 Ev.TIM_PPSIN_MISSING).done
    else s.done

/-- An IRIG-B element by its width: 0 zero, 1 one, 2 marker, none out of tolerance (R61). -/
def irigElem (us : Nat) : Option Nat :=
  if 1600 ≤ us && us ≤ 2400 then some 0
  else if 4600 ≤ us && us ≤ 5400 then some 1
  else if 7600 ≤ us && us ≤ 8400 then some 2
  else none

/-- Is position i of a frame a marker: the reference marker and every tenth element after it. -/
def irigMarker (i : Nat) : Bool := i == 0 || i % 10 == 9

/-- Are the elements a good frame (R61). -/
def irigGood (us : List Nat) : Bool :=
  us.length == 100 && us.zipIdx.all fun x => match irigElem x.1 with
    | some 2 => irigMarker x.2
    | some _ => !irigMarker x.2
    | none => false

/-- The 89 non-marker elements, first in bit 0. -/
def irigData (us : List Nat) : Nat :=
  ((us.zipIdx.filter fun x => !irigMarker x.2).map fun x => (irigElem x.1).getD 0).foldr (fun b a => b + 2 * a) 0

/-- The firmware changes TIM_UTCOFF.OFFSET, which it reads from the source's extension bits (R61, R70). -/
def State.newUtcOfs (s : State) (n : Option Nat) : State :=
  match n with
  | none => s
  | some x => if s.get F.TIM_UTCOFF_OFFSET == x % 65536 then s else (s.set F.TIM_UTCOFF_OFFSET x).ev0 Ev.TIM_LEAP

/-- IRIG_FRAME_RX (R61): the widths of a frame's elements in µs and the ticks since the leading edge of its reference
marker. Under source code 2 the on-time edge is the PPS_IN capture within 1 ms of it; with none the time is a free value. -/
def execIrigFrameRx (widthsUs : List Nat) (ago : Nat) (newOfs : Option Nat) (s : State) : Result :=
  if !s.flag F.TIM_CTRL_IRIG_EN then s.done
  else if irigGood widthsUs then
    let mark := s.now - ago
    let near := s.tim.ppsHist.find? fun x => decide (x.1 ≤ mark + ticksOfMs 1) && decide (mark ≤ x.1 + ticksOfMs 1)
    let r := if s.actSrc == 2 then
        match near with
        | some x => (x.2, s)
        | none => s.fresh
      else (s.t40At mark, s)
    let s := r.2
    let d := irigData widthsUs
    let s := ((s.wr R.TIM_IRIG_DATA_LO (BitVec.ofNat 32 d)).wr R.TIM_IRIG_DATA_MID (BitVec.ofNat 32 (d / 2 ^ 32))).wr
      R.TIM_IRIG_DATA_HI (BitVec.ofNat 32 (d / 2 ^ 64))
    let s := ((s.putTime R.TIM_IRIG_TS_LO r.1).inc F.TIM_IRIG_STAT_GOOD).setB F.TIM_STAT_IRIG_VALID true
    let s := { s with tim := { s.tim with irigAt := some s.tim.now } }
    ((s.raise 12).newUtcOfs newOfs).done
  else ((s.inc F.TIM_IRIG_STAT_ERR).ev0 Ev.TIM_IRIG_ERR).done

/-- IRIG_VALID_EXPIRY (R61): 1.1 s after the last good frame. -/
def execIrigValidExpiry (newOfs : Option Nat) (s : State) : Result :=
  match s.tim.irigAt with
  | none => s.done
  | some t =>
    if s.flag F.TIM_STAT_IRIG_VALID then
      (((s.reach (t + ticksOfMs 1100)).setB F.TIM_STAT_IRIG_VALID false).newUtcOfs newOfs).done
    else s.done

/-- TIM_PPSOUT_OFS, saturated (R62). The register keeps and reads back the value as written; only its use saturates
(notes/assumptions/107.md). -/
def State.ppsOfs (s : State) : Int :=
  max (-100000) (min 100000 (sext 32 (s.get F.TIM_PPSOUT_OFS_OFS)))

/-- PPS_OUT_RISE (R62): at the next local second boundary less OFS, unless WIDTH is 0 or the output is squelched. -/
def execPpsOutRise (s : State) : Result :=
  if s.tim.anchor.isNone || s.get F.TIM_PPSOUT_WIDTH == 0 then s.done
  else
    let c := ceilDiv ((s.taiNs : Int) + s.ppsOfs).toNat 1000000000
    let sec := if s.tim.ppsNext == c + 1 then c + 1 else c
    let s := s.reach (s.tickAtTai ((sec * 1000000000 : Nat) - s.ppsOfs : Int).toNat)
    let s := { s with tim := { s.tim with ppsNext := sec + 1 } }
    if s.flag F.TIM_PPSOUT_SQUELCH && s.tqCode == 0xF then s.done
    else { s with tim := { s.tim with
      ppsHigh := true, ppsFallAt := s.tim.now + ticksOfUs (s.get F.TIM_PPSOUT_WIDTH) } }.done

/-- PPS_OUT_FALL (R62). -/
def execPpsOutFall (s : State) : Result :=
  if s.tim.ppsHigh then
    let s := s.reach s.tim.ppsFallAt
    { s with tim := { s.tim with ppsHigh := false } }.done
  else s.done

/-- The level of the PPS_OUT pin, inverted under POL. -/
def State.ppsPin (s : State) : Bool := xor s.tim.ppsHigh (s.flag F.TIM_PPSOUT_POL)

/-! ### Servo and holdover (R66 to R69) -/

/-- A write of TIM_SERVO: the timeout is armed and its count restarts (R66). -/
def State.servoWrite (s : State) (v : Dword) : State :=
  let s := s.store R.TIM_SERVO v
  { s with tim := { s.tim with servoAt := some s.tim.now, servoFrom := s.tim.now } }.timSync

/-- TIM_SERVO_WRITE (R66). -/
def execTimServoWrite (a : Agent) (v : Dword) (s : State) : Result :=
  (s.gate a R.TIM_SERVO fun s => s.servoWrite v).done

/-- SERVO_TIMEOUT (R66): armed, a source active, TMO not 0. -/
def execServoTimeout (s : State) : Result :=
  if s.tim.servoAt.isSome && s.actSrc != 0 && s.get F.TIM_SERVO_TMO_TMO != 0 && !s.flag F.TIM_CTRL_HOLD then
    ((s.reach (s.tim.servoFrom + ticksOfMs (s.get F.TIM_SERVO_TMO_TMO))).enterHold true).done
  else s.done

/-- A write of TIM_CTRL: HOLD by R66 and R69, the other fields as written. -/
def State.timCtrlWrite (s : State) (v : Dword) : State :=
  let h := s.flag F.TIM_CTRL_HOLD
  let s := (s.store R.TIM_CTRL v).setB F.TIM_CTRL_HOLD h
  if fval F.TIM_CTRL_HOLD v == 1 then s.enterHold false else s.leaveHold

/-- HOLD_WRITE (R69). -/
def execHoldWrite (a : Agent) (v : Dword) (s : State) : Result :=
  (s.gate a R.TIM_CTRL fun s => s.timCtrlWrite v).done

/-- HOLDOVER_UNC_UPDATE (R67): the next millisecond of the holdover. -/
def execHoldoverUncUpdate (s : State) : Result :=
  if s.flag F.TIM_CTRL_HOLD then
    let s := s.reach (s.tim.uncAt + ticksOfMs 1)
    let k := (s.tim.now - s.tim.holdAt) / ticksOfMs 1
    ({ s with tim := { s.tim with uncAt := s.tim.holdAt + k * ticksOfMs 1 } }.timSync).done
  else s.done

/-- TIM_TQ as it reads (R68): HOLD_S and the time-quality byte. -/
def State.timTq (s : State) : Nat :=
  (if s.flag F.TIM_CTRL_HOLD then min 65535 ((s.tim.now - s.tim.holdAt) / 491520000) else 0) * 65536 + s.tqByte

end Sys2Proof.Machine
end

