-- ==== Sys2Proof/Machine/Pmu.lean ====
section
/-!
DEFINITION. Sys2Proof/Machine/Pmu.lean: local phasor measurement: windows, frequency source, class switching, local records
(R280 to R299). The fit of a window stands in Fit.lean.
-/
namespace Sys2Proof.Machine

/-! ### Bays and their configuration -/

/-- Bay b. -/
def State.pmuBay (s : State) (b : Nat) : PmuBay := mgetD s.pmu.bays b PmuBay.reset

/-- Changes bay b. -/
def State.modPmuBay (s : State) (b : Nat) (f : PmuBay → PmuBay) : State :=
  { s with pmu := { s.pmu with bays := mput s.pmu.bays b (f (s.pmuBay b)) } }

/-- The stretches of instants with one content of PMU_CFG and TABLE 0, oldest first (R296): from and to (ns of UTC), the content. -/
def State.pmuSpans (s : State) : List (Nat × (Option Nat × (List (Nat × PmuCfg) × List (Nat × PmuCal)))) :=
  let o := s.pmu.olds.reverse
  let froms := 0 :: o.map fun p => p.1
  froms.zip ((o.map fun p => (some p.1, p.2)) ++ [(none, (s.pmu.cfg.eff, s.pmu.cal.eff))])

/-- The stretch that holds an instant (ns of UTC). -/
def State.pmuSpan (s : State) (u : Nat) : Nat × (Option Nat × (List (Nat × PmuCfg) × List (Nat × PmuCal))) :=
  (s.pmuSpans.find? fun p => demHolds u (p.1, p.2.1)).getD (0, (none, (s.pmu.cfg.eff, s.pmu.cal.eff)))

/-- A bay's configuration in effect; none where the stream is disabled. -/
def State.pmuCfgOf (s : State) (b : Nat) : Option PmuCfg := (mget s.pmu.cfg.eff b).filter fun c => c.enable

/-- A channel's calibration in a content of TABLE 0; the reset entry is 1.0, 1.0 and no delay (R288). -/
def calIn (l : List (Nat × PmuCal)) (ch : Nat) : PmuCal := mgetD l ch ⟨0x3F800000, 0x3F800000, 0, 0x3F800000, 0⟩

/-- The AUTO state of a bay that holds for an instant (R290, R296). -/
def State.pmuStM (s : State) (b u : Nat) : Bool :=
  let x := s.pmuBay b
  ((x.wasM.reverse.find? fun p => decide (u < p.1)).map fun p => p.2).getD x.stM

/-- The bay's channels that are enabled. -/
def State.bayChs (s : State) (b : Nat) : List Nat := ((List.range 6).map fun q => 6 * b + q).filter s.chOn

/-- Is the bay producing (R295). -/
def State.pmuOn (s : State) (b : Nat) : Bool :=
  s.flag F.PMU_CTRL_EN && s.fltRuns && !(s.bayChs b).isEmpty && (s.pmuCfgOf b).isSome

/-- FNOM in Hz. -/
def PmuCfg.hz (c : PmuCfg) : Nat := if c.fnom == 1 then 50 else 60

/-- W of a class in units of 200 µs (R283), which is also the number of PH samples in each half. -/
def PmuCfg.w (c : PmuCfg) (m : Bool) : Nat :=
  if m then max (ceilDiv 20000 c.hz) (ceilDiv 15000 (max (rateOf c.rate) 1)) else ceilDiv 10000 c.hz

/-- S of a class in units of 100 µs, with G_PH in ticks (R285). -/
def PmuCfg.lag (c : PmuCfg) (m : Bool) (g : Nat) : Nat :=
  let fs := max (rateOf c.rate) 1
  let num : Int := (((c.w m * 100000 + 350000) * 7680 + g * 15625) * fs : Nat) - ((if m then 5 else 2) * 7680000000000 : Nat)
  if num ≤ 0 then 0 else ceilDiv num.toNat (768000000 * fs)

/-- S of a class now. -/
def State.pmuLag (s : State) (c : PmuCfg) (m : Bool) : Nat := c.lag m (s.get F.FLT_GD_PH_TICKS)

/-- The TAI ns after which the windows of both classes hold only samples taken after T0 (R295). -/
def State.pmuStart (s : State) (c : PmuCfg) : Nat :=
  let need (m : Bool) : Nat := s.pmuLag c m * 100000 + c.w m * 100000
  s.t40At s.fltT0 / 2 ^ 40 + max (need false) (need true)

/-- The first instant of a configuration's grid after the last estimate of a class and after the front end's start, and at or after
`from_` (TAI ns). -/
def State.pmuGrid (s : State) (c : PmuCfg) (last : Option Nat) (from_ : Nat) : Nat × Nat :=
  let f := rateOf c.rate
  let lo := match last with
    | some u => s.taiOf (u / 1000000000) (u % 1000000000)
    | none => 0
  let i := s.firstInstAfter f (max lo (max (s.pmuStart c) (from_ - 1)))
  (i.1, instNs f i.2)

/-- The next instant of a class: the configuration and tag, and the content of TABLE 0 that applies to it. -/
def State.pmuNext (s : State) (b : Nat) (m : Bool) : Option (PmuCfg × (Nat × Nat) × List (Nat × PmuCal)) :=
  let x := s.pmuBay b
  let last := if m then x.lastM else x.lastP
  s.pmuSpans.findSome? fun p =>
    match (mget p.2.2.1 b).filter fun c => c.enable with
    | none => none
    | some c =>
      let t := s.pmuGrid c last (s.taiOf (p.1 / 1000000000) (p.1 % 1000000000))
      if demHolds (ukey t) (p.1, p.2.1) then some (c, t, p.2.2.2) else none

/-! ### Windows (R284, R288) -/

/-- The tick, in units of 2^-16, at which local time is `tr` ns (R284). -/
def State.tickOf (s : State) (tr : Nat) : Int :=
  match s.tim.anchor with
  | none => 0
  | some (t, n0) => (n0 * 65536 : Nat) + (((tr : Int) * 2 ^ 40 - t) * 65536).fdiv (max s.incr 1)

/-- The sample nearest `s` (100 µs units) before `nr`, the earlier of two equally near (R284). -/
def centreOf (cal : PmuCal) (incr : Nat) (nr : Int) (lag : Nat) (l : List TapOut) : Option Nat :=
  let key (t : TapOut) : Nat := (sampleOfs cal nr t * incr + (lag * 100000 * ofsDen : Nat)).natAbs
  (l.foldl (fun (best : Option (Nat × Nat)) t =>
    match best with
    | none => some (key t, t.m)
    | some b => if key t ≤ b.1 then some (key t, t.m) else some b) none).map fun b => b.2

/-- What the samples of a window allow. -/
inductive PmuWin where
  | notYet
  | gone
  | ok (w : List (Nat × List TapOut))

/-- The windows of a bay's enabled channels with centres chosen by `centre`: every sample must be held (R295). -/
def State.windows (s : State) (b h : Nat) (centre : Nat → List TapOut → Option Nat) : PmuWin :=
  (s.bayChs b).foldl (fun a ch =>
    let l := (s.tap ch 0).out
    match centre ch l, l.head?, l.getLast? with
    | some c, some new, some old =>
      match a with
      | .notYet => .notYet
      | .gone => if new.m < c + h then .notYet else .gone
      | .ok w =>
        if new.m < c + h then .notYet
        else if c < old.m + h then .gone
        else .ok (w ++ [(ch, l.filter fun t => decide (c ≤ t.m + h) && decide (t.m ≤ c + h))])
    | _, _, _ => .notYet) (.ok [])

/-! ### The estimate (R281, R282, R287, R291) -/

/-- A fitted bay: class M, FNOM (Hz), reference frequency (0.01 Hz), the instant modulo 100 s (ns), n_r, windows by quantity, and the fits
of the quantities that are not missing. -/
structure PmuEst where
  m : Bool
  hz : Nat
  fref : Nat
  t0 : Nat
  nr : Int
  wins : List (Nat × List TapOut)
  fits : List (Nat × ChFit)

/-- Fits a bay's windows, given by channel. A quantity is missing when its channel is disabled, a window sample carries FAULT, or one
carries POISON, which `bad` says by quantity (R291). -/
def estimate (x : FitAt) (hz : Nat) (centred : Bool) (cals : List (Nat × PmuCal)) (bad : Nat) (w : List (Nat × List TapOut)) : PmuEst :=
  ⟨x.m, hz, x.fref, x.t0, x.nr, w.map fun p => (p.1 % 6, p.2),
    (w.filter fun p => !bit bad (p.1 % 6) && !(p.2.any fun t => bit t.flags 3)).map fun p =>
      (p.1 % 6, x.fit (calIn cals p.1) centred p.2)⟩

/-- The fit of a quantity. -/
def PmuEst.of (x : PmuEst) (q : Nat) : Option ChFit := mget x.fits q

/-- V1 (o = 0) or I1 (o = 3): none where a phasor it needs is missing. -/
def PmuEst.seq (x : PmuEst) (o : Nat) : Option ChFit :=
  match x.of o, x.of (o + 1), x.of (o + 2) with
  | some a, some b, some c => some (ChFit.seq a b c)
  | _, _, _ => none

/-- A fit's phasor. -/
def PmuEst.ph (x : PmuEst) (f : ChFit) : Dy × Dy := f.phasor x.fref x.hz x.t0

/-- A number as float32: itself where it is one, else one of the two floats beside it, which is open. -/
def openRound (x : Dy) : Nat := x.toF32 (Config.op "pmu.round" x.key)

/-- Is the square of a magnitude at least that of PMU_FMIN × VNOM. -/
def State.enough (s : State) (vnom : Nat) (sq : Dy) : Bool :=
  let v := (Dy.ofF32 vnom).mul (Dy.ofInt (s.get F.PMU_FMIN_PERMIL))
  !(sq.mul (Dy.ofInt 1000000)).lt (v.mul v)

/-- The frequency source (R287): 0 V1, 1 to 3 the largest phase voltage, 15 none. -/
def State.freqSrc (s : State) (x : PmuEst) (vnom : Nat) : Nat :=
  let big (f : ChFit) : Option Dy := let v := cabs2 f.a; if s.enough vnom v then some v else none
  if ((x.seq 0).bind big).isSome then 0
  else
    let c := ([0, 1, 2] : List Nat).filterMap fun q => ((x.of q).bind big).map fun v => (v, q + 1)
    ((c.foldl (fun (best : Option (Dy × Nat)) p =>
      match best with
      | none => some p
      | some y => if y.1.lt p.1 then some p else some y) none).map fun y => y.2).getD 15

/-- The envelope of a source. -/
def PmuEst.source (x : PmuEst) (src : Nat) : Option ChFit :=
  if src == 15 then none else if src == 0 then x.seq 0 else x.of (src - 1)

/-- The square of RES (R289): the largest ratio over the voltage channels whose |a0| is large enough; none where no channel qualifies. -/
def State.resSq (s : State) (x : PmuEst) (vnom : Nat) : Option Dy :=
  ((([0, 1, 2] : List Nat).filterMap x.of).filter fun f => s.enough vnom f.mag0).foldl (fun best f =>
    let r := f.res.div (f.mag0.mul ⟨2, 0⟩)
    match best with
    | none => some r
    | some y => if y.lt r then some r else some y) none

/-- Σ V × conj I over the three phases; none where a phasor is missing (R281). -/
def PmuEst.power (x : PmuEst) : Option (Dy × Dy) :=
  if (List.range 6).any fun q => (x.of q).isNone then none
  else some (([0, 1, 2] : List Nat).foldl (fun n p =>
    match x.of p, x.of (p + 3) with
    | some v, some i => ccut (cadd n (cmul v.a (i.a.1, i.a.2.neg)))
    | _, _ => n) (Dy.zero, Dy.zero))

/-- A value or a missing one. -/
def optVal (o : Option Nat) : Val :=
  match o with
  | some v => ⟨v, false, false, false⟩
  | none => ⟨f32NaN, true, false, false⟩

/-- A phasor word. -/
def optPhasor (o : Option (Nat × Nat)) : SWord :=
  match o with
  | some p => valWord p.1 p.2 0
  | none => valWord f32NaN f32NaN 128

/-- The quantities behind PHSEL. -/
def selQs (phsel : Nat) : List Nat :=
  (List.range 6).filter fun q => bit phsel q || (bit phsel 6 && decide (q < 3)) || (bit phsel 7 && decide (3 ≤ q))

/-- Builds the record of an instant (R281, R291 to R294); STAT bits that stand at the commit are added there. -/
def State.pmuRecord (s : State) (b : Nat) (c : PmuCfg) (t : Nat × Nat) (x : PmuEst) : PmuRec :=
  let ph (i : Nat) : Option (Nat × Nat) :=
    ((if i < 6 then x.of i else x.seq (3 * (i - 6))).map x.ph).map fun v => (openRound v.1, openRound v.2)
  let phs := ((List.range 8).filter fun i => bit c.phsel i).map fun i => optPhasor (ph i)
  let src := s.freqSrc x c.vnom
  let f := (x.source src).map fun e => (openRound (e.dev x.fref x.hz), openRound e.rocof)
  let an (i : Nat) : Val := match i with
    | 0 => optVal (x.power.map fun w => openRound w.1)
    | 1 => optVal (x.power.map fun w => openRound w.2)
    | _ => optVal ((s.resSq x c.vnom).map fun r => openRound ((Dy.sqrt r).cut 320))
  let ans := ((List.range 3).filter fun i => bit c.ansel i).map an
  let anw := (List.range ((ans.length + 1) / 2)).map fun i =>
    pairWord ((ans[2 * i]?).getD ⟨0, false, false, false⟩) ((ans[2 * i + 1]?).getD ⟨0, false, false, false⟩)
      (decide (ans.length ≤ 2 * i + 1)) 0
  let any (qs : List Nat) (i : Nat) : Bool := qs.any fun q => (mgetD x.wins q []).any fun t => bit t.flags i
  let inc := selQs c.phsel
  let all := List.range 6
  let dg := b2n x.m + 2 * b2n (c.cmode == 2) + 4 * b2n (((s.fltBay b).rngAt (x.nr.fdiv 65536)).high) + 8 * b2n (any all 2) +
    16 * b2n (any all 3) + 32 * b2n (any all 1) + 64 * b2n (src != 0) + 128 * b2n (src == 15)
  let st := (if c.test then 2 ^ 15 else if any inc 3 || any inc 2 then 2 ^ 14 else 0) + 512 * b2n (any inc 1)
  let ws := phs ++ [pairWord (optVal (f.map fun p => p.1)) (optVal (f.map fun p => p.2)) false 0] ++ anw ++
    (if c.digen then [sword (dg * 2 ^ 56 + 8)] else [])
  ⟨c, t.1, t.2, st, ws.map fun w => w.v.toNat, src, f.map fun p => p.1⟩

/-! ### Committing (R290, R292, R294) -/

/-- STAT [8:6] from U (R292). -/
def uncCode (u : Nat) : Nat :=
  if u < 100 then 1 else if u < 1000 then 2 else if u < 10000 then 3 else if u < 100000 then 4
  else if u < 1000000 then 5 else if u < 10000000 then 6 else 7

/-- The STAT bits that stand at the commit. -/
def State.pmuStat (s : State) (b : Nat) (c : PmuCfg) (inP : Bool) : Nat :=
  let x := s.pmuBay b
  let h := s.timTq / 65536
  let chg := match x.cfgAt with
    | some t => decide (s.now < t + ticksOfS (s.get F.OUT_CFGCHG_S))
    | none => false
  let trig := c.cmode == 2 && inP
  8192 * b2n (s.tqCode == 15) + 2048 * b2n trig + 1024 * b2n chg + 64 * (if s.tqCode == 15 then 7 else uncCode (s.get F.TIM_UNC_U)) +
    16 * (if h < 10 then 0 else if h < 100 then 1 else if h < 1000 then 2 else 3) +
    (if trig then ((x.trig.map fun p => p.2).getD 0) else 0)

/-- The reference frequency after a record (R286): rounded to 0.01 Hz, clamped to FNOM ± 5 Hz; 0 stands for FNOM. -/
def nextFref (hz : Nat) (dev : Option Nat) : Nat :=
  match dev with
  | none => 0
  | some v =>
    let cHz := (2 * 100 * f32Units v + 2 ^ 149).fdiv (2 ^ 150)
    (max ((100 * hz : Nat) - 500 : Int) (min ((100 * hz : Nat) + 500 : Int) ((100 * hz : Nat) + cHz))).toNat

/-- LOCAL_RECORD_COMMIT (R294): an ordinary tally record at SIDX 8184 + b, if its instant is after the last one produced. -/
def State.pmuCommit (s : State) (b : Nat) (r : PmuRec) (inP : Bool) : State :=
  let x := s.pmuBay b
  let c := r.cfg
  let t := (r.soc, r.ns)
  if (x.lastOut.map fun u => decide (ukey t ≤ u)).getD false then s
  else
    let sidx := 8184 + b
    let arrival := s.taiNs
    let st := r.stat + s.pmuStat b c inP
    let ws := [h0 2 sidx r.words.length st (shortStamp arrival) 0, h1 r.soc r.ns s.tqByte] ++ r.words
    let s := s.modPmuBay b fun x => { x with lastOut := some (ukey t), fsrc := r.fsrc, fref := nextFref c.hz r.freq }
    let s := if x.fsrc == r.fsrc then s
      else
        let s := s.ev Ev.PMU_FREQ_SRC sidx []
        if x.fsrc == 15 || r.fsrc == 15 then s.ev Ev.PMU_FREQ_LOST sidx [] else s
    let sp := s.pmuSpan (ukey t)
    let p := s.place (s.classify sidx c.rate (sp.1, sp.2.1) t) false sidx c.rate c.shape arrival (ws.map sword)
    if p.1 then
      let s := (p.2.inc F.PMU_CNT_REC_COUNT).modStat sidx fun y => { y with
        accepted := y.accepted + 1, newestTag := t, newest := some (slotOf (rateOf c.rate) t.1 t.2), lastArrival := arrival % 2 ^ 32 }
      s.histAdd false sidx ((arrival : Int) - (s.taiOf t.1 t.2 : Nat))
    else p.2.discard .nospace false sidx

/-- The bay changes its AUTO state (R290). -/
def State.pmuClass (s : State) (b : Nat) (m : Bool) : State :=
  ((s.modPmuBay b fun x => { x with stM := m }).inc F.PMU_CNT_CLASS_COUNT).ev Ev.PMU_CLASS (8184 + b) []

/-- An estimate is ready: committed, held or dropped by the bay's class (R290). -/
def State.pmuReady (s : State) (b : Nat) (m : Bool) (r : PmuRec) : State :=
  let u := ukey (r.soc, r.ns)
  let stM := s.pmuStM b u
  match r.cfg.cmode, m with
  | 0, false => s.pmuCommit b r true
  | 1, true => s.pmuCommit b r false
  | 2, false => if stM then s.modPmuBay b fun y => { y with held := mput y.held u r } else s.pmuCommit b r true
  | 2, true =>
    if stM then (s.modPmuBay b fun y => { y with held := y.held.filter fun p => decide (u < p.1) }).pmuCommit b r false else s
  | _, _ => s

/-- The bay's reference frequency now, in 0.01 Hz (R286): FNOM at the start, and where it lies outside the range of FNOM. -/
def State.frefNow (s : State) (b : Nat) (hz : Nat) : Nat :=
  let f := (s.pmuBay b).fref
  if 100 * hz ≤ f + 500 && f ≤ 100 * hz + 500 then f else 100 * hz

/-- The computation of an instant starts: its reference frequency (R286), n_r and TIM_INCR (R284), fixed once for both classes. -/
def State.pmuStartOf (s : State) (b : Nat) (c : PmuCfg) (t : Nat × Nat) : Nat × (Int × Nat) :=
  mgetD (s.pmuBay b).starts (ukey t) (s.frefNow b c.hz, (s.tickOf (s.taiOf t.1 t.2), s.incr))

/-- An instant's estimate of a class is done with; what was fixed for it stays until the other class is done with it too. -/
def PmuBay.mark (x : PmuBay) (m : Bool) (u : Nat) (st : Nat × (Int × Nat)) : PmuBay :=
  let x := if m then { x with lastM := some u } else { x with lastP := some u }
  let done := min (x.lastP.getD 0) (x.lastM.getD 0)
  { x with starts := ((mput x.starts u st).filter fun p => decide (done < p.1)).drop (x.starts.length - 300) }

/-- PMU_ESTIMATE_READY (R290, R295): the next instant's estimate of a class. `bad` says by quantity whose window holds a sample with POISON
(R291). -/
def execPmuEstimateReady (b : Fin 8) (m : Bool) (bad : Nat) (s : State) : Result :=
  let b := b.val
  if !s.flag F.PMU_CTRL_EN || !s.fltRuns || (s.bayChs b).isEmpty || s.tim.anchor.isNone then s.done
  else match s.pmuNext b m with
    | none => s.done
    | some (c, t, cals) =>
      let u := ukey t
      let st := s.pmuStartOf b c t
      let mark (s : State) : State := s.modPmuBay b fun x => x.mark m u st
      match s.windows b (c.w m) (fun ch l => centreOf (calIn cals ch) st.2.2 st.2.1 (s.pmuLag c m) l) with
      | .notYet => s.done
      | .gone =>
        let stM := s.pmuStM b u
        let mine := if m then c.cmode == 1 || (c.cmode == 2 && stM) else c.cmode == 0 || (c.cmode == 2 && !stM)
        let s := mark s
        (if mine then (s.inc F.PMU_CNT_SKIP_COUNT).ev Ev.PMU_SKIP (8184 + b) [] else s).done
      | .ok w =>
        let x : FitAt := ⟨m, c.w m, st.1, u % 100000000000, st.2.1, st.2.2⟩
        let r := s.pmuRecord b c t (estimate x c.hz false cals bad w)
        ((mark s).pmuReady b m r).done

/-! ### The transient detector (R289) -/

/-- A trigger of a bay: it enters P unless AUTO is held, and commits in order what it held under this state. -/
def State.pmuTrigger (s : State) (b : Nat) (why : Nat) : State :=
  let s := (s.inc F.PMU_CNT_TRIG_COUNT).ev Ev.PMU_TRIGGER (8184 + b) []
  let s := s.modPmuBay b fun x => { x with trig := some (s.now, why) }
  let s := match mget s.trg.units b with
    | some u => { s with trg := { s.trg with units := mput s.trg.units b { u with pmu := true } } }
    | none => s
  if (s.pmuBay b).stM && s.flag F.PMU_CTRL_AUTO_EN then
    let x := s.pmuBay b
    let mine (u : Nat) : Bool := !(x.wasM.any fun p => decide (u < p.1))
    let s := (s.pmuClass b false).modPmuBay b fun y => { y with held := y.held.filter fun p => !mine p.1 }
    (x.held.filter fun p => mine p.1).foldl (fun s p => s.pmuCommit b p.2 true) s
  else s

/-- PMU_DETECTOR_EVAL (R289): each 1 ms, on the most recent W_P of samples. `bad` says by quantity whose window holds a sample with
POISON. -/
def execPmuDetectorEval (b : Fin 8) (bad : Nat) (s : State) : Result :=
  let b := b.val
  match s.pmuCfgOf b with
  | none => s.done
  | some c =>
    if !s.pmuOn b || c.cmode != 2 then s.done
    else
      let s := s.reach ((s.pmuBay b).detAt + ticksOfMs 1)
      let h := c.w false
      match s.windows b h (fun _ l => (l.head?).bind fun t => if h ≤ t.m then some (t.m - h) else none) with
      | .ok w =>
        let s := s.modPmuBay b fun x => { x with detAt := s.now }
        let x : FitAt := ⟨false, h, s.frefNow b c.hz, 0, (s.now * 65536 : Nat), s.incr⟩
        let e := estimate x c.hz true s.pmu.cal.eff bad w
        let th := s.get F.PMU_DET_RESTH
        let rf := s.get F.PMU_DET_RFTH
        -- RES > th / 1000, |ROCOF| > rf / 100
        let byRes := th != 0 && ((s.resSq e c.vnom).map fun r =>
          (Dy.ofInt ((th * th : Nat) : Int)).lt (r.mul (Dy.ofInt 1000000))).getD false
        let byRf := rf != 0 && ((e.source (s.freqSrc e c.vnom)).map fun f =>
          let r := f.rocof
          (Dy.ofInt rf).lt ((Dy.mk r.m.natAbs r.e).mul (Dy.ofInt 100))).getD false
        (if byRes then s.pmuTrigger b 8 else if byRf then s.pmuTrigger b 5 else s).done
      | _ => s.done

/-- PMU_RETURN_TO_M (R290): at least max(HOLD, W_M + G_PH + 350 µs) after the latest trigger. -/
def execPmuReturnToM (b : Fin 8) (s : State) : Result :=
  let b := b.val
  let x := s.pmuBay b
  match s.pmuCfgOf b, x.trig with
  | some c, some t =>
    if c.cmode == 2 && !x.stM && s.flag F.PMU_CTRL_AUTO_EN then
      let d := max (ticksOfMs (s.get F.PMU_HOLD_MS)) (ticksOfUs (200 * c.w true) + s.get F.FLT_GD_PH_TICKS + ticksOfUs 350)
      ((s.reach (t.1 + d)).pmuClass b true).done
    else s.done
  | _, _ => s.done

/-! ### PMU_CFG -/

/-- A PMU_CFG entry from its parameters. -/
def pmuCfgOf (p : List Byte) : PmuCfg :=
  let f := le p 9 1
  ⟨bit f 0, bit f 1, bit f 2, le p 10 1, le p 11 1, le p 12 1, le p 13 1, le p 14 1, le p 16 2, le p 20 4⟩

/-- PMU_CFG (0x48): body. -/
def pmuCfgBody (p : List Byte) (s : State) : CmdRes :=
  let b := le p 8 1
  let c := pmuCfgOf p
  let on (x : Bool) : Bool := c.enable && x
  let others := (s.rateSum s.ing.streams.shadow) -
    ((mget s.pmu.cfg.shadow b).map fun o => if o.enable then rateOf o.rate else 0).getD 0
  let new := if c.enable then c else match mget s.pmu.cfg.shadow b with
    | some o => { o with enable := false, test := c.test, digen := c.digen }
    | none => { c with rate := 0, cmode := 0, phsel := 0, ansel := 0, fnom := 0, idcode := 0, vnom := 0 }
  checked [(decide (7 < b), St.badParam), (decide (7 < le p 9 1), St.badParam), (on (decide (11 < c.rate)), St.badParam),
      (on (decide (2 < c.cmode)), St.badParam), (on (decide (7 < c.ansel)), St.badParam), (on (decide (1 < c.fnom)), St.badParam),
      (on (!zeroAt p 15 1), St.badParam), (on (c.idcode == 0 || c.idcode == 65535), St.badParam), (on (!zeroAt p 18 2), St.badParam),
      (on (!f32Finite c.vnom || !f32Lt 0 c.vnom), St.badParam), (s.cmd.prep.isSome, St.busy),
      (on (decide (rateBudget < others + rateOf c.rate)), St.noResource)] s
    ⟨St.ok, [], ({ s with pmu := { s.pmu with cfg := s.pmu.cfg.put b new } } : State).healAll 13 [b]⟩

/-- PMU_CFG (R296). -/
def execPmuCfg (r : Fn) (s : State) : Result := (s.plain r 0x48 24 false (fun _ => true) pmuCfgBody).done

/-! ### Registers as they read -/

/-- PMU_BAYSTAT_b. -/
def State.pmuBaystat (s : State) (b : Nat) : Nat :=
  let x := s.pmuBay b
  let trig := (x.trig.map fun t => decide (s.now < t.1 + ticksOfMs (s.get F.PMU_HOLD_MS))).getD false
  let cls := match s.pmuCfgOf b with
    | some c => if c.cmode == 2 then x.stM else c.cmode == 1
    | none => false
  16 * x.fsrc + 8 * b2n trig + 4 * b2n (!x.held.isEmpty) + 2 * b2n cls + b2n (s.pmuOn b)

/-- PMU_STAT. -/
def State.pmuStatReg (s : State) : Nat :=
  (List.range 8).foldl (fun n b =>
    let v := s.pmuBaystat b
    n + 2 ^ b * (v % 2) + 2 ^ (8 + b) * (if bit v 0 && bit v 1 then 1 else 0)) 0

/-- PMU_BAYCFG_b: in effect. -/
def State.pmuBaycfg (s : State) (b : Nat) : Nat :=
  match mget s.pmu.cfg.eff b with
  | none => 0
  | some c => 2 ^ 24 * c.phsel + 2 ^ 21 * c.ansel + 2 ^ 20 * b2n c.digen + 2 ^ 18 * c.cmode + 2 ^ 17 * c.fnom + 2 ^ 16 * b2n c.test +
      2 ^ 12 * c.rate + b2n c.enable

/-- PMU_LAG_b: S in µs. -/
def State.pmuLagReg (s : State) (b : Nat) : Nat :=
  match s.pmuCfgOf b with
  | none => 0
  | some c => 65536 * (100 * s.pmuLag c true) + 100 * s.pmuLag c false

/-- PMU_CTRL.EN rises: instants up to now belong to the time when it was 0 (R295). -/
def State.pmuEnable (s : State) : State :=
  let u := s.utcOf s.taiNs
  (List.range 8).foldl (fun s b => s.modPmuBay b fun x =>
    { x with lastP := some (max (ukey u) (x.lastP.getD 0)), lastM := some (max (ukey u) (x.lastM.getD 0)) }) s

end Sys2Proof.Machine
end

