-- ==== Sys2Proof/Machine/Trg.lean ====
section
/-!
DEFINITION. Sys2Proof/Machine/Trg.lean: waveform capture: armings, conditions, rings and segments, delivery and release, the cross-unit
trigger lines (R253, R254, R320 to R340), and what ends an arming from the front end (R262, R269).
-/
namespace Sys2Proof.Machine

/-! ### Units -/

/-- A unit that is not armed. -/
def TrgUnit.idle : TrgUnit :=
  ⟨0, none, 0, 0, 0, 0, 0, List.replicate 16 0, 0, 0, 0, 0, [], [], none, false, false, false, none, none⟩

/-- Changes the capture state. -/
def State.modTrg (s : State) (f : Trg → Trg) : State := { s with trg := f s.trg }

/-- Unit b. -/
def State.trgUnit (s : State) (b : Nat) : TrgUnit := mgetD s.trg.units b TrgUnit.idle

/-- Changes unit b. -/
def State.modUnit (s : State) (b : Nat) (f : TrgUnit → TrgUnit) : State :=
  s.modTrg fun t => { t with units := mput t.units b (f (s.trgUnit b)) }

/-- Changes every armed unit but one. -/
def State.modArmed (s : State) (except : Nat) (f : TrgUnit → TrgUnit) : State :=
  (List.range 8).foldl (fun s b => if b != except && (s.trgUnit b).st != 0 then s.modUnit b f else s) s

/-- Selected channels of an arming. -/
def TrgCfg.chs (c : TrgCfg) : List Nat := (List.range 6).filter fun q => bit c.chmask q

/-- Words per set, W_s (R328). -/
def TrgCfg.ws (c : TrgCfg) : Nat := ceilDiv c.chs.length 3 * (if c.mode then 2 else 1) + 1

/-- Whole sets per data record. -/
def TrgCfg.per (c : TrgCfg) : Nat := 63 / c.ws

/-- Sets per segment, NSET (R328). -/
def TrgCfg.nset (c : TrgCfg) : Nat :=
  let w := 2 + c.per * c.ws
  1016 / w * c.per + (1016 % w - 2) / c.ws

/-- NPRE and NPOST at R = 2^rlog (R327). -/
def TrgCfg.npre (c : TrgCfg) (rlog : Nat) : Nat := ceilDiv c.pre (2 ^ rlog)

/-- NPOST. -/
def TrgCfg.npost (c : TrgCfg) (rlog : Nat) : Nat := ceilDiv c.post (2 ^ rlog)

/-- Segments of the ring (R329). -/
def TrgCfg.ringSegs (c : TrgCfg) (rlog : Nat) : Nat := ceilDiv (c.npre rlog) c.nset + 1

/-- P_max (R329). -/
def TrgCfg.pmax (c : TrgCfg) (rlog : Nat) : Nat := ceilDiv (c.npre rlog + 1 + c.npost rlog) c.nset + 1

/-- N_h of R322 at exponent k. -/
def TrgCfg.nh (c : TrgCfg) (k : Nat) : Nat :=
  let d := 2 ^ k * 2 * (if c.fnom == 1 then 50 else 60)
  (2 * 20480000 + d) / (2 * d)

/-! ### TRIGI (R322, R337) -/

/-- Is TRIGI at its active level. -/
def State.trigiActive (s : State) : Bool := xor s.trg.trigi (s.flag F.TRG_TRIGIO_TRIGI_POL)

/-- Does bit 28 follow an active level now. -/
def State.trigiLevel (s : State) : Bool := s.flag F.TRG_TRIGIO_TRIGI_EN && !s.flag F.TRG_TRIGIO_TRIGI_EDGE && s.trigiActive

/-- What a unit starts its next interval between instants with: a level that is active now has been active since the last instant. The
stamp is that of the edge behind it. -/
def State.trigiCarry (s : State) (u : Option Nat) : Option Nat :=
  if s.trigiLevel then some (u.getD (s.trg.trigiAt.getD 0)) else none

/-- TRIGI_INPUT (R337): a level of at least 200 ns is accepted. -/
def execTrigiInput (level : Bool) (s : State) : Result :=
  let was := s.trigiActive
  let s := s.modTrg fun t => { t with trigi := level }
  (if s.trigiActive && !was then
    let s := s.modTrg fun t => { t with trigiAt := some (shortStamp s.taiNs) }
    if s.flag F.TRG_TRIGIO_TRIGI_EN then s.modArmed 8 fun u => { u with trigi := s.trg.trigiAt } else s
  else s).done

/-- TRG_TRIGIO has been written: what an armed unit has noted of TRIGI stays while the input is enabled in the same mode; an active level
counts from now. -/
def State.trigiSync (s t : State) : State :=
  let same := t.flag F.TRG_TRIGIO_TRIGI_EN && s.flag F.TRG_TRIGIO_TRIGI_EDGE == t.flag F.TRG_TRIGIO_TRIGI_EDGE
  t.modArmed 8 fun u => { u with trigi := if t.trigiLevel then t.trigiCarry u.trigi else if same then u.trigi else none }

/-! ### Segments (R328 to R332) -/

/-- Completed captures of an arming that are still held. -/
def State.heldSegs (s : State) (b armno : Nat) : Nat :=
  s.trg.done.foldl (fun n p => if p.2.bay == b && p.2.armno == armno then n + p.2.pkt.pages.length else n) 0

/-- Segments that an arming holds (R332). -/
def State.trgSegs (s : State) (b : Nat) : Nat :=
  let u := s.trgUnit b
  u.segs.length + u.spare.length + s.heldSegs b u.armno

/-- Allocates a segment for unit b: SEGCOUNT, then the CAPT class (R332). -/
def State.allocSeg (s : State) (b segcount : Nat) : Option Nat × State :=
  if segcount ≤ s.trgSegs b then (none, s.allocFail 3) else s.alloc 3 [] [.capture b]

/-- Frees unit b's segments. -/
def State.freeSegs (s : State) (b : Nat) : State :=
  let u := s.trgUnit b
  (s.dropHolds (.capture b) (u.segs.map (fun x => x.page) ++ u.spare)).modUnit b fun u => { u with segs := [], spare := [] }

/-- Allocates a ring of n segments for unit b; where one cannot be had, none stays. -/
def State.allocRing (s : State) (b segcount : Nat) : Nat → Bool × State
  | 0 => (true, s)
  | n + 1 =>
    let r := s.allocSeg b segcount
    match r.1 with
    | none => (false, r.2.freeSegs b)
    | some id => (r.2.modUnit b fun u => { u with spare := u.spare ++ [id] }).allocRing b segcount n

/-- The first CP sample of bay b whose t_dec on channel 6b is after now. -/
def State.cpAfter (s : State) (b : Nat) : Nat :=
  let k := (s.fltBay b).k
  (s.now - (s.fltT0 + 120 * s.fltD * (6 * b))) / (24 * 2 ^ k)

/-! ### Reduction at a re-arm (R336) -/

/-- Is the unit behind: a completed capture unreleased for more than DRAIN ms. -/
def State.trgBehind (s : State) (b : Nat) : Bool :=
  let d := s.get F.TRG_RRED_DRAIN
  d != 0 && s.trg.done.any fun p => p.2.bay == b && decide (p.2.doneAt + ticksOfMs d < s.now)

/-- R's logarithm for the next ring. -/
def State.nextRlog (s : State) (b : Nat) (c : TrgCfg) : Nat :=
  let cur := (s.trgUnit b).rlog
  if !s.flag F.TRG_CTRL_RRED_EN then cur
  else
    let q := s.quota 3
    let occ := if q == 0 then 256 else 256 * s.used 3 / q
    if s.get F.TRG_RRED_HI ≤ occ || s.trgBehind b then min (cur + 1) c.rlogMax
    else if occ ≤ s.get F.TRG_RRED_LO then max (cur - 1) c.rlog0
    else cur

/-- Starts a ring at a re-arm or an arming: FILL, or ARMED where no pre-trigger set is wanted (R321). -/
def State.startRing (s : State) (b : Nat) (c : TrgCfg) : State :=
  let m := s.cpAfter b
  s.modUnit b fun u =>
    let n := max u.next m
    { u with st := if c.npre u.rlog == 0 then 2 else 1, next := n, ring0 := n, gathered := 0, cap := none, trigi := s.trigiCarry u.trigi }

/-- A re-arm: R is chosen, and the ring allocated; answers false where it cannot be. -/
def State.rearm (s : State) (b : Nat) (c : TrgCfg) : Bool × State :=
  let r := s.nextRlog b c
  let a := s.allocRing b c.segcount (c.ringSegs r)
  if a.1 then
    let t := a.2
    let t := if r == (t.trgUnit b).rlog then t
      else ((t.modUnit b fun u => { u with rlog := r }).inc F.TRG_CNT_RATE_COUNT).ev0 Ev.TRG_RATE
    (true, t.startRing b c)
  else (false, a.2)

/-! ### Records of a capture (R326, R328, R334) -/

/-- Three 24-bit values a word. -/
def pack3 (vs : List Int) : List Nat :=
  (List.range (ceilDiv vs.length 3)).map fun w =>
    let v (i : Nat) : Nat := wrapInt 24 (((vs[3 * w + i]?).getD 0))
    v 0 * 2 ^ 48 + v 1 * 2 ^ 24 + v 2

/-- The words of a set, J relative to the trigger group. -/
def setWords (mode : Bool) (x : TrgSet) (j : Int) : List Nat :=
  let fl := x.flags.zipIdx.foldl (fun n p => n + p.1 % 16 * 2 ^ (68 - 4 * p.2)) 0
  pack3 x.lo ++ (if mode then pack3 x.hi else []) ++ [fl + wrapInt 32 j * 2 ^ 16]

/-- The words that a ring segment's page gets with its i-th set, before the capture completes (R334): places for headers before it, and
the set. What stands in the headers' places and in the place of J until then is open. -/
def ringWords (c : TrgCfg) (b i : Nat) (x : TrgSet) : List SWord :=
  let n := (if i == 0 then 8 else 0) + (if i % c.per == 0 then 2 else 0)
  (List.range n).map (fun k => sword (Config.op "trg.head" [b, i, k] % 2 ^ 72)) ++
    (setWords c.mode x (sext 32 (Config.op "trg.j" [b, x.group] % 2 ^ 32))).map sword

/-- Cuts a list into pieces of n. -/
def chunks {α : Type} (n : Nat) : Nat → List α → List (List α)
  | 0, _ => []
  | f + 1, l => if l.isEmpty then [] else l.take n :: chunks n f (l.drop n)

/-- What every record of a capture says. -/
structure CapHead where
  b : Nat
  cfg : TrgCfg
  armno : Nat
  capno : Nat
  cap : TrgCap
  rlog : Nat
  ksel : Nat
  fast : Bool
  d : Nat
  arrival : Nat
  nseg : Nat
  firstDec : Nat → Nat

/-- The header record of a segment. -/
def CapHead.header (x : CapHead) (i flags : Nat) (g : TrgSeg) : List Nat :=
  let c := x.cap
  let first := ((g.sets.head?).map fun t => t.last).getD 0
  let fl := flags + b2n (i + 1 == x.nseg)
  [h0 5 x.b 6 0 x.arrival 0, h1 c.soc c.ns c.tq,
   x.armno % 65536 * 2 ^ 56 + x.capno % 65536 * 2 ^ 40 + i % 4096 * 2 ^ 28 + x.nseg % 4096 * 2 ^ 16 + c.cause * 2 ^ 12 + fl % 4096,
   c.hits % 65536 * 2 ^ 56 + x.b * 2 ^ 53 + x.cfg.chmask * 2 ^ 47 + b2n x.cfg.mode * 2 ^ 46 + x.rlog * 2 ^ 43 + x.ksel * 2 ^ 40 +
     b2n x.fast * 2 ^ 39 + (x.d - 1) * 2 ^ 38 + g.sets.length % 512 * 2 ^ 29 + x.cfg.ws * 2 ^ 26,
   c.ttrig % 2 ^ 64 * 2 ^ 8, x.firstDec first % 2 ^ 64 * 2 ^ 8, c.delay % 2 ^ 32 * 2 ^ 40 + c.preGot * 2 ^ 24,
   c.decide % 2 ^ 32 * 2 ^ 40 + c.xstamp % 2 ^ 32 * 2 ^ 8]

/-- The words of a segment: header and data records. -/
def CapHead.segWords (x : CapHead) (i flags : Nat) (g : TrgSeg) : List Nat :=
  let recs := (chunks x.cfg.per g.sets.length g.sets).map fun ss =>
    let p := ss.flatMap fun t => setWords x.cfg.mode t ((t.group : Int) - x.cap.group)
    [h0 5 x.b p.length 0x1000 x.arrival 0, h1 x.cap.soc x.cap.ns x.cap.tq] ++ p
  x.header i flags g ++ recs.flatten

/-- Offers a completed capture to its queue (R335). -/
def State.offerCapture (s : State) (id : Nat) : State :=
  match mget s.trg.done id with
  | none => s
  | some d =>
    let s := s.modTrg fun t => { t with done := mput t.done id { d with offerAt := s.now } }
    if d.admitted || !s.hqSelects d.queue (2 ^ 6) then s
    else
      let r := s.hqOffer d.queue d.pkt false
      if r.2 then r.1.modTrg fun t => { t with done := mput t.done id { d with admitted := true, offerAt := s.now } } else r.1

/-- A capture completes: headers and data records are written, it is held and offered, the unit's segments are its own (R334, R335).
One without any segment gives nothing. -/
def State.deliver (s : State) (b : Nat) (c : TrgCfg) (k : TrgCap) : State :=
  let u := s.trgUnit b
  if u.segs.isEmpty then s.freeSegs b
  else
    let bay := s.fltBay b
    let fl := u.segs.foldl (fun n g => g.sets.foldl (fun n t => t.flags.foldl Nat.lor n) n) 0
    let was (g : TrgSeg) : List SWord := ((mget s.sett.pages g.page).map fun p => p.words).getD []
    let flags := k.flags + 128 * b2n (bit fl 1) + 256 * b2n (bit fl 2) + 512 * b2n (bit fl 3) +
      1024 * b2n (u.segs.any fun g => (was g).any fun w => w.poison)
    let x : CapHead := ⟨b, c, u.armno, u.capno, k, u.rlog, if bay.fast then 4 else bay.k - 9, bay.fast, s.fltD, shortStamp s.taiNs,
      u.segs.length, fun m => s.tapTick (6 * b) bay.k m - s.tim.base⟩
    let id := s.trg.nextId
    let n := u.segs.length
    let s := u.segs.zipIdx.foldl (fun s g =>
      let ws := (x.segWords g.2 flags g.1).zipIdx.map fun w =>
        { sword w.1 with poison := (((was g.1)[w.2]?).map fun o => o.poison).getD false }
      let ws := if g.2 + 1 == n then markEnd ws else ws
      ((s.modPage g.1.page fun p => { p with words := ws }).holdPage g.1.page (.capture id)).dropHold (.capture b) g.1.page) s
    let parts := u.segs.map fun g =>
      Ref.mk b g.page 0 (match mget s.sett.pages g.page with | some p => p.words.length | none => 0)
    let fn := if s.flag (F.SET_HQ_CFG_OWNER.at (0x80 * c.queue)) then Fn.pf1 else Fn.pf0
    let d : TrgDone := ⟨b, u.armno, u.capno, ⟨6, parts, u.segs.map fun g => g.page, some id⟩, fn, c.queue, false, s.now, s.now⟩
    let s := s.dropHolds (.capture b) u.spare
    let s := (s.modUnit b fun u => { u with segs := [], spare := [] }).modTrg fun t =>
      { t with done := mput t.done id d, nextId := id + 1 }
    ((s.inc F.TRG_CNT_CAPT_COUNT).ev0 Ev.TRG_DONE).offerCapture id

/-- Why an arming ends, for EV_TRG_DISARM: the code the event carries is open. -/
def disarmReason (why : Nat) : Nat := Config.op "trg.reason" [why] % 2 ^ 32

/-- An arming ends: the unit is IDLE. -/
def State.idleUnit (s : State) (b why : Nat) : State :=
  ((s.freeSegs b).modUnit b fun u => { TrgUnit.idle with armNext := u.armNext, armno := u.armno, capno := u.capno, rlog := u.rlog }).ev
    Ev.TRG_DISARM 0 [(32, disarmReason why)]

/-- The end of a completed or truncated capture (R334): delivery, then re-arm, HELD or IDLE. -/
def State.trgDone (s : State) (b : Nat) : State :=
  let u := s.trgUnit b
  match u.cfg, u.cap with
  | some c, some k =>
    if !k.ended then s
    else
      let s := s.deliver b c k
      let last := c.captures != 0 && decide (u.left ≤ 1)
      let s := s.modUnit b fun u => { u with capno := (u.capno + 1) % 65536, left := u.left - 1, cap := none }
      if last then s.idleUnit b 0
      else
        let r := if bit k.flags 3 then (false, s) else s.rearm b c
        if r.1 then r.2 else (r.2.modUnit b fun u => { u with st := 4 }).ev0 Ev.TRG_HELD
  | _, _ => s

/-- EV_TRG_DONE (R334). -/
def execEvTrgDone (b : Fin 8) (s : State) : Result := (s.trgDone b.val).done

/-- A unit's arming ends (R320, R333): a capture in progress is delivered truncated unless aborted. -/
def State.endArming (s : State) (b why : Nat) (abort : Bool) : State :=
  let u := s.trgUnit b
  match u.cfg with
  | none => s
  | some c =>
    let s := match u.cap with
      | some k =>
        if abort then s
        else if k.ended then s.deliver b c k
        else
          -- the segment being written is dropped
          let part := (u.segs.filter fun (g : TrgSeg) => decide (g.sets.length < c.nset)).map fun (g : TrgSeg) => g.page
          let s := (s.dropHolds (.capture b) part).modUnit b fun u =>
            { u with segs := u.segs.filter fun g => decide (c.nset ≤ g.sets.length) }
          ((s.inc F.TRG_CNT_TRUNC_COUNT).ev0 Ev.TRG_TRUNC).deliver b c { k with flags := k.flags + 8 }
      | none => s
    let s := if u.cap.isSome && !abort then s.modUnit b fun u => { u with capno := (u.capno + 1) % 65536 } else s
    s.idleUnit b why

/-- Every arming ends. -/
def State.endArmings (s : State) (why : Nat) : State := (List.range 8).foldl (fun s b => s.endArming b why false) s

/-! ### The lines XARM and XFIRE (R253, R254, R338) -/

/-- The unit whose arming carries XUNIT. -/
def State.xUnit (s : State) : Option Nat :=
  (List.range 8).find? fun b => ((s.trgUnit b).cfg.map fun c => c.xunit).getD false

/-- Does the unit hold XARM low. -/
def State.xarmHeld (s : State) : Bool :=
  s.flag F.CAS_XTRIG_EN && s.flag F.CAS_XTRIG_ARM_PART && s.cas.fireUntil.isNone &&
    !((s.xUnit.map fun b => (s.trgUnit b).st == 2).getD false)

/-- A cross-unit trigger drives XFIRE where XARM reads high; whether other units hold XARM low is open. Answers whether it did. -/
def State.xDrive (s : State) (held : Bool) : Bool × State :=
  if !s.flag F.CAS_XTRIG_EN || !s.flag F.CAS_XTRIG_FIRE_OUT then (false, s)
  else
    let r := s.fresh
    let other := r.1 % 2 == 1
    let s := { r.2 with cas := { r.2.cas with armOther := other } }
    if held || other then (false, (s.inc F.CAS_XFIRE_CNT_BLOCKED).ev0 Ev.CAS_XBLOCKED)
    else (true, { s with cas := { s.cas with fireUntil := some (s.now + ticksOfUs (s.get F.CAS_XTRIG_WIDTH)) } })

/-- From when XFIRE can have been high for 1 µs again: it is low now, and while the unit itself drives it. -/
def State.xHighAt (s : State) : Nat := max s.now (s.cas.fireUntil.getD s.now) + ticksOfUs 1

/-- XFIRE_FALL (R254): a fall with XARM high is a fire; after a fire falls do not count until XFIRE has been high for 1 µs, and each of them
makes that later. -/
def execXfireFall (s : State) : Result :=
  if (s.cas.fireHighAt.map fun t => decide (s.now < t)).getD false then
    { s with cas := { s.cas with fireHighAt := some s.xHighAt } }.done
  else if !s.flag F.CAS_XTRIG_EN || s.xarmHeld then s.done
  else
    let t := s.t40
    let s := (s.wr R.CAS_XFIRE_TS_LO (BitVec.ofNat 32 (s.taiNs % 1000000000 * 65536 + t / 2 ^ 24 % 65536)))
    let s := s.wr R.CAS_XFIRE_TS_MID (BitVec.ofNat 32 (s.taiNs / 1000000000 * 65536 + s.taiNs % 1000000000 / 65536))
    let s := s.wr R.CAS_XFIRE_TS_HI (BitVec.ofNat 32 (s.taiNs / 1000000000 / 65536))
    let s := (s.inc F.CAS_XFIRE_CNT_FIRES).ev0 Ev.CAS_XFIRE
    let s := { s with cas := { s.cas with fireHighAt := some s.xHighAt } }
    (if s.flag F.CAS_XTRIG_FIRE_IN then s.modArmed 8 fun u => { u with xfire := some (shortStamp s.taiNs) } else s).done

/-- XFIRE_PULSE_END (R254): the unit's own drive ends. -/
def execXfirePulseEnd (s : State) : Result :=
  match s.cas.fireUntil with
  | none => s.done
  | some t => let s := s.reach t; { s with cas := { s.cas with fireUntil := none } }.done

/-! ### TRIGI and TRIGO (R337) -/

/-- TRIGO_PULSE_END (R337). -/
def execTrigoPulseEnd (s : State) : Result :=
  match s.trg.trigoTo with
  | none => s.done
  | some t => ((s.reach t).modTrg fun x => { x with trigoTo := none }).done

/-- The level of TRIGO. -/
def State.trigoPin (s : State) : Bool := xor s.trg.trigoTo.isSome (s.flag F.TRG_TRIGIO_TRIGO_POL)

/-! ### Instants (R322 to R325) -/

/-- CP sample m of quantity q of bay b, of an enabled channel. -/
def State.cpSample (s : State) (b q m : Nat) : Option TapOut :=
  if s.chOn (6 * b + q) then (s.tap (6 * b + q) 2).at m else none

/-- A sample that an event bit may rest on: enabled and without FAULT. -/
def goodSample (o : Option TapOut) : Option Int := o.bind fun t => if bit t.flags 3 then none else some t.v

/-- The last n samples of quantities summed sample by sample, squared and added; none where one may not count. -/
def State.sumSq (s : State) (b m n : Nat) (qs : List Nat) : Option Nat :=
  (List.range n).foldl (fun a i =>
    a.bind fun acc =>
      (qs.foldl (fun x q => x.bind fun y => (goodSample (s.cpSample b q (m - i))).map fun v => y + v) (some 0)).map
        fun v => acc + v.natAbs * v.natAbs) (some 0)

/-- The event vector (R322). -/
def State.eventVector (s : State) (b : Nat) (c : TrgCfg) (u : TrgUnit) : Nat :=
  let m := u.next
  let n := c.nh (s.fltBay b).k
  let rms := decide (n ≤ u.seen + 1)
  let v (q : Nat) : Option Int := goodSample (s.cpSample b q m)
  let per (f : Nat → Bool) (o : Nat) : Nat := (List.range 6).foldl (fun a q => a + 2 ^ (o + q) * b2n (f q)) 0
  let hi (q : Nat) : Bool := ((v q).map fun x => decide ((c.hi[q]?).getD 0 < x)).getD false
  let lo (q : Nat) : Bool := ((v q).map fun x => decide (x < (c.lo[q]?).getD 0)).getD false
  let above (qs : List Nat) (t : Nat) : Bool := rms && ((s.sumSq b m n qs).map fun x => decide (n * (t * t) < x)).getD false
  let under (qs : List Nat) (t : Nat) : Bool := rms && ((s.sumSq b m n qs).map fun x => decide (x < n * (t * t))).getD false
  let bad := c.chs.any fun q => match s.cpSample b q m with
    | some t => bit t.flags 3 || bit t.flags 2
    | none => false
  let tri := s.flag F.TRG_TRIGIO_TRIGI_EN && (u.trigi.isSome || s.trigiLevel)
  per hi 0 + per lo 6 + per (fun q => above [q] ((c.rmsHi[q]?).getD 0)) 12 + per (fun q => under [q] ((c.rmsLo[q]?).getD 0)) 18 +
    2 ^ 24 * b2n (above [0, 1, 2] c.resv) + 2 ^ 25 * b2n (above [3, 4, 5] c.resi) + 2 ^ 26 * b2n u.pmu + 2 ^ 27 * b2n bad +
    2 ^ 28 * b2n tri + 2 ^ 29 * b2n u.xfire.isSome + 2 ^ 30 * b2n (c.almgrp != 0x3FF && smem s.alm.groups c.almgrp) +
    2 ^ 31 * b2n u.peer

/-- A condition's counter at the next instant (R323). -/
def TrgCond.count (c : TrgCond) (ev run : Nat) : Nat :=
  if c.enable && Nat.land (Nat.xor ev c.value) c.mask == 0 then min (run + 1) 255 else 0

/-- Does a condition hit. -/
def TrgCond.hit (c : TrgCond) (run : Nat) : Bool := c.enable && decide (c.delay ≤ run) && (!c.edge || run == c.delay)

/-- The value a set holds of a channel that is selected but not enabled: open. -/
def absentVal (b q m : Nat) : Int := sext 24 (Config.op "trg.absent" [b, q, m])

/-- Forms the set of the group of sample m from its samples up to m since the ring began (R326, R327). -/
def State.formSet (s : State) (b : Nat) (c : TrgCfg) (u : TrgUnit) (m : Nat) : TrgSet :=
  let r := 2 ^ u.rlog
  let first := max (m / r * r) u.ring0
  let ms := (List.range (m + 1 - first)).map fun i => first + i
  let val (q j : Nat) : Int := match s.cpSample b q j with
    | some t => t.v
    | none => absentVal b q j
  let fl (q j : Nat) : Nat := match s.cpSample b q j with
    | some t => t.flags
    | none => 0
  if c.mode then
    ⟨m / r, m, c.chs.map fun q => ms.foldl (fun a j => min a (val q j)) (val q m),
      c.chs.map fun q => ms.foldl (fun a j => max a (val q j)) (val q m),
      c.chs.map fun q => ms.foldl (fun a j => Nat.lor a (fl q j)) 0⟩
  else ⟨m / r, m, c.chs.map fun q => val q m, [], c.chs.map fun q => fl q m⟩

/-- Puts a set after the others of the last segment, if that has room. -/
def putLast (nset : Nat) (x : TrgSet) : List TrgSeg → Option (List TrgSeg)
  | [] => none
  | [g] => if g.sets.length < nset then some [{ g with sets := g.sets ++ [x] }] else none
  | g :: t => (putLast nset x t).map fun l => g :: l

/-- Sets bits of the FLAGS of the capture in progress. -/
def TrgUnit.flagCap (u : TrgUnit) (m : Nat) : TrgUnit :=
  let f (k : TrgCap) : TrgCap := { k with flags := Nat.lor k.flags m }
  { u with cap := u.cap.map f }

/-- The capture in progress ends. -/
def TrgUnit.endNow (u : TrgUnit) : TrgUnit :=
  let f (k : TrgCap) : TrgCap := { k with ended := true }
  { u with cap := u.cap.map f }

/-- The capture in progress ends with the set of group g if that is its last. -/
def TrgUnit.endAt (u : TrgUnit) (g : Nat) : TrgUnit :=
  match u.cap with
  | some k => if k.group + k.npost ≤ g then u.endNow else u
  | none => u

/-- Stores a set (R329, R333): in FILL and ARMED the ring goes round; in POST a segment is allocated, or the capture is truncated. -/
def State.addSet (s : State) (b : Nat) (c : TrgCfg) (x : TrgSet) : State :=
  let u := s.trgUnit b
  let write (s : State) (page i : Nat) : State := s.modPage page fun p =>
    { p with words := (if i == 0 then [] else p.words) ++ ringWords c b i x }
  let first (s : State) (l : List TrgSeg) (page : Nat) : State :=
    (write s page 0).modUnit b fun u => { u with segs := l ++ [⟨page, [x]⟩], gathered := u.gathered + 1 }
  match putLast c.nset x u.segs, u.segs.getLast? with
  | some l, some g => (write s g.page g.sets.length).modUnit b fun u => { u with segs := l, gathered := u.gathered + 1 }
  | _, _ =>
    match u.st, u.spare, u.segs with
    | 3, _, _ =>
      let r := s.allocSeg b c.segcount
      match r.1 with
      | some id => first r.2 u.segs id
      | none =>
        ((r.2.modUnit b fun u => (u.flagCap 8).endNow).inc F.TRG_CNT_TRUNC_COUNT).ev0 Ev.TRG_TRUNC
    | _, id :: rest, _ => (first s u.segs id).modUnit b fun u => { u with spare := rest }
    | _, [], g :: t => first s t g.page
    | _, [], [] => s

/-- A trigger at sample m (R324, R325, R327, R331, R338). -/
def State.trigger (s : State) (b : Nat) (c : TrgCfg) (m hits : Nat) (force : Bool) (trigi xfire : Option Nat) : State :=
  let u := s.trgUnit b
  let bay := s.fltBay b
  let r := 2 ^ u.rlog
  let g := m / r
  let short := u.st == 1
  let cause := (lowBit? hits 16).getD 0
  let cond := if hits == 0 then none else c.conds[cause]?
  let held := s.xarmHeld
  let tt := s.tapTick (6 * b) bay.k m
  let gd := s.gCp b
  let t := s.utcOf (s.t40At (tt - gd) / 2 ^ 40)
  let uses (i : Nat) : Bool := match cond with
    | some k => bit k.mask i && bit k.value i
    | none => false
  let stamp := if uses 28 then trigi.getD 0 else if uses 29 then xfire.getD 0 else 0
  let s := (s.inc F.TRG_CNT_TRIG_COUNT).ev0 Ev.TRG_TRIGGER
  let s := if short then s.ev0 Ev.TRG_SHORTPRE else s
  let w := s.get F.TRG_TRIGIO_TRIGO_WIDTH
  let s := if bit (s.get F.TRG_TRIGIO_TRIGO_MASK) b && w != 0 then
      s.modTrg fun x => { x with trigoTo := some (s.now + ticksOfUs w) }
    else s
  let s := s.modArmed b fun u => { u with peer := true }
  let x := if c.xunit && (cond.map fun k => k.xout).getD false then s.xDrive held else (false, s)
  let s := x.2
  let fl := 2 * b2n force + 4 * b2n short + 16 * b2n (decide (c.rlog0 < u.rlog)) + 64 * b2n x.1 +
    2048 * b2n (c.post == 0 && decide (0 < u.rlog))
  let got := if short then min 65535 (g * r - u.ring0) else c.pre
  -- ring segments without any set of the window are freed, but for the one being filled
  let keep (l : List TrgSeg) : List TrgSeg := l.zipIdx.filterMap fun p =>
    if (p.1.sets.any fun t => decide (g ≤ t.group + c.npre u.rlog)) || (p.2 + 1 == l.length && decide (p.1.sets.length < c.nset))
      then some p.1 else none
  let kept := keep u.segs
  let drop := (u.segs.filter fun y => !(kept.any fun z => z.page == y.page)).map fun y => y.page
  let s := s.dropHolds (.capture b) (drop ++ u.spare)
  s.modUnit b fun u => { u with
    st := 3, segs := kept, spare := []
    cap := some ⟨m, tt - s.tim.base, t.1, t.2, s.tqByte, hits, cause, fl, shortStamp s.taiNs, stamp, g, c.npost u.rlog, got, gd, false⟩ }

/-- After sample m has been evaluated it is stored: at the end of its group, or at the trigger sample of a capture without post-trigger
window. -/
def State.storeSample (s : State) (b : Nat) (c : TrgCfg) (m : Nat) : State :=
  let u := s.trgUnit b
  let cut := u.st == 3 && c.post == 0
  let ended := (u.cap.map fun k => k.ended).getD false
  if u.st == 0 || u.st == 4 || ended || !(m % 2 ^ u.rlog + 1 == 2 ^ u.rlog || cut) then s
  else
    let x := s.formSet b c u m
    let s := s.addSet b c x
    let u := s.trgUnit b
    if u.st == 1 && decide (c.npre u.rlog ≤ u.gathered) then s.modUnit b fun u => { u with st := 2 }
    else s.modUnit b fun u => u.endAt x.group

/-- The next CP instant of an armed unit (R322 to R327). -/
def State.captureEval (s : State) (b : Nat) : State :=
  let s := s.trgDone b
  let u := s.trgUnit b
  match u.cfg with
  | none => s
  | some c =>
    let m := u.next
    if (List.range 6).any fun q => s.chOn (6 * b + q) && (s.cpSample b q m).isNone then s
    else
      let s := s.reach (s.tapTick (6 * b + 5) (s.fltBay b).k m)
      let ev := s.eventVector b c u
      let runs := (c.conds.zip u.runs).map fun p => p.1.count ev p.2
      let hits := ((c.conds.zip runs).zipIdx.foldl (fun a p => a + 2 ^ p.2 * b2n (p.1.1.hit p.1.2)) 0)
      let trigi := if s.trigiLevel then s.trigiCarry u.trigi else u.trigi
      let s := s.modUnit b fun u => { u with
        runs := runs, seen := u.seen + 1, next := m + 1, force := false, pmu := false, peer := false, xfire := none
        trigi := s.trigiCarry u.trigi }
      let s := match u.st with
        | 3 =>
          if hits != 0 then (s.inc F.TRG_CNT_INPOST_COUNT).modUnit b fun u => u.flagCap 32 else s
        | 4 => if hits != 0 then s.inc F.TRG_CNT_MISS_COUNT else s
        | _ => if hits != 0 || u.force then s.trigger b c m hits u.force trigi u.xfire else s
      s.storeSample b c m

/-- CAPTURE_INSTANT_EVAL (R323). -/
def execCaptureInstantEval (b : Fin 8) (s : State) : Result := (s.captureEval b.val).done

/-- CAPTURE_HELD_RESUME (R321): the ring can be allocated again; where it cannot, the failed allocation is counted (R129). -/
def execCaptureHeldResume (b : Fin 8) (s : State) : Result :=
  let u := s.trgUnit b.val
  match u.st, u.cfg with
  | 4, some c => (s.rearm b.val c).2.done
  | _, _ => s.done

/-! ### Delivery and release (R335) -/

/-- CAPTURE_REOFFER (R335): the capture that has waited longest since its last offer. -/
def execCaptureReoffer (s : State) : Result :=
  let l := s.trg.done.filter fun p => !p.2.admitted
  match l with
  | [] => s.done
  | x :: t =>
    let o := t.foldl (fun a p => if p.2.offerAt < a.2.offerAt then p else a) x
    ((s.reach (o.2.offerAt + ticksOfMs 1)).offerCapture o.1).done

/-- Releases a capture's own hold; one not admitted yet is not offered again. -/
def State.releaseCapture (s : State) (id : Nat) : State :=
  match mget s.trg.done id with
  | none => s
  | some d => (s.dropHolds (.capture id) d.pkt.pages).modTrg fun t => { t with done := merase t.done id }

/-- CAPT_RELEASE (0x5B): body. -/
def captReleaseBody (r : Fn) (p : List Byte) (s : State) : CmdRes :=
  checked [(decide (7 < le p 8 1), St.badParam), (!zeroAt p 9 1, St.badParam), (!zeroAt p 14 2, St.badParam)] s
    (match s.trg.done.find? fun x => x.2.bay == le p 8 1 && x.2.armno == le p 10 2 && x.2.capno == le p 12 2 with
      | none => CmdRes.fail St.state s
      | some x => if x.2.fn = r then ⟨St.ok, [], s.releaseCapture x.1⟩ else CmdRes.fail St.denied s)

/-- CAPT_RELEASE (R335). -/
def execCaptRelease (r : Fn) (s : State) : Result := (s.plain r 0x5B 16 true (fun _ => true) (captReleaseBody r)).done

/-! ### Arming commands (R330, R333, R324) -/

/-- A condition at an offset of the block. -/
def condAt (b : List Byte) (o : Nat) : TrgCond :=
  let f := le b (o + 9) 1
  ⟨bit f 0, bit f 1, bit f 2, le b o 4, le b (o + 4) 4, le b (o + 8) 1⟩

/-- Is a condition's entry good. -/
def condOk (b : List Byte) (o : Nat) : Bool :=
  let c := condAt b o
  !(c.enable && (c.mask == 0 || c.delay == 0)) && decide (le b (o + 9) 1 ≤ 7) && zeroAt b (o + 10) 6

/-- Is an int32 a sign-extended Q1.23. -/
def q23Ok (x : Int) : Bool := decide (-8388608 ≤ x) && decide (x ≤ 8388607)

/-- An arming's settings before its block is read. -/
def armCfg (p : List Byte) : TrgCfg :=
  ⟨bit (le p 9 1) 0, bit (le p 9 1) 1, le p 10 1, le p 11 1, le p 12 1, le p 13 1, le p 14 2, le p 16 4, le p 20 2, le p 22 2,
    [], [], [], [], 0, 0, 0, 0, []⟩

/-- The settings with their condition block. -/
def TrgCfg.withBlock (c : TrgCfg) (b : List Byte) : TrgCfg :=
  let six (o : Nat) : List Nat := (List.range 6).map fun i => le b (o + 4 * i) 4
  { c with
    hi := (six 0).map (sext 32), lo := (six 24).map (sext 32), rmsHi := six 48, rmsLo := six 72, resv := le b 96 4, resi := le b 100 4
    almgrp := le b 104 2, fnom := le b 106 1, conds := (List.range 16).map fun i => condAt b (112 + 16 * i) }

/-- TRG_ARM (0x58): body. -/
def trgArmBody (buf : HostRead) (p : List Byte) (s : State) : CmdRes :=
  let b := le p 8 1
  let c := armCfg p
  let pm := c.pmax c.rlog0
  checked [(decide (7 < b), St.badParam), (decide (3 < le p 9 1), St.badParam), (decide (4 < c.rlog0), St.badParam),
      (decide (c.rlogMax < c.rlog0) || decide (4 < c.rlogMax), St.badParam), (c.chmask == 0, St.badLength), (decide (63 < c.chmask), St.badParam),
      (decide (15 < c.queue) || !bit (s.get (F.SET_HQ_SRC_SRC.at (0x80 * c.queue))) 6, St.badParam),
      (decide (16777215 < c.post), St.badParam), (c.segcount == 0, St.badLength), (decide (8192 < c.segcount), St.badParam),
      (decide (s.quota 3 < pm) || decide (c.segcount < pm), St.badLength), (le p 24 8 % 8 != 0, St.badParam),
      ((s.trgUnit b).st != 0 || !s.flag F.FLT_CTRL_EN || !s.flag F.TRG_CTRL_EN, St.state), (c.xunit && s.xUnit.isSome, St.busy)] s
    (withBuf buf s fun d =>
      let c := c.withBlock d
      match (List.range 16).find? fun i => !condOk d (112 + 16 * i) with
      | some i =>
        if c.hi.all q23Ok && c.lo.all q23Ok && (decide (c.almgrp ≤ 991) || c.almgrp == 0x3FF) && decide (c.fnom ≤ 1) && zeroAt d 107 5
          then ⟨St.badParam, toLe 2 i, s⟩ else CmdRes.fail St.badParam s
      | none =>
        if !(c.hi.all q23Ok && c.lo.all q23Ok && (decide (c.almgrp ≤ 991) || c.almgrp == 0x3FF) && decide (c.fnom ≤ 1) && zeroAt d 107 5)
          then CmdRes.fail St.badParam s
        else
          let u := s.trgUnit b
          let t := s.modUnit b fun u => { TrgUnit.idle with
            cfg := some c, armNext := (u.armNext + 1) % 65536, armno := u.armNext, left := c.captures, rlog := c.rlog0 }
          let r := t.allocRing b c.segcount (c.ringSegs c.rlog0)
          if r.1 then ⟨St.ok, toLe 2 u.armNext, (r.2.startRing b c).ev0 Ev.TRG_ARM⟩
          else CmdRes.fail St.noResource (r.2.modUnit b fun _ => u))

/-- TRG_ARM (R330). -/
def execTrgArm (r : Fn) (buf : HostRead) (s : State) : Result :=
  (s.plain r 0x58 32 false (fun _ => true) (trgArmBody buf)).done

/-- TRG_DISARM (0x59): body. -/
def trgDisarmBody (p : List Byte) (s : State) : CmdRes :=
  let b := le p 8 1
  checked [(decide (7 < b), St.badParam), (decide (1 < le p 9 1), St.badParam), (!zeroAt p 10 6, St.badParam),
      ((s.trgUnit b).st == 0, St.state)] s
    ⟨St.ok, [], s.endArming b 1 (le p 9 1 == 1)⟩

/-- TRG_DISARM (R333). -/
def execTrgDisarm (r : Fn) (s : State) : Result := (s.plain r 0x59 16 false (fun _ => true) trgDisarmBody).done

/-- TRG_FORCE (0x5A): body. -/
def trgForceBody (p : List Byte) (s : State) : CmdRes :=
  let b := le p 8 1
  let st := (s.trgUnit b).st
  checked [(decide (7 < b), St.badParam), (!zeroAt p 9 1, St.badParam), (!zeroAt p 10 6, St.badParam),
      (st == 0 || decide (2 < st), St.state)] s
    ⟨St.ok, [], s.modUnit b fun u => { u with force := true }⟩

/-- TRG_FORCE (R324). -/
def execTrgForce (r : Fn) (s : State) : Result := (s.plain r 0x5A 16 false (fun _ => true) trgForceBody).done

/-- A write of TRG_CTRL: EN falling ends every arming as a disarm without abort. -/
def State.trgCtrlWrite (s : State) (v : Dword) : State :=
  let was := s.flag F.TRG_CTRL_EN
  let s := s.store R.TRG_CTRL v
  if was && !s.flag F.TRG_CTRL_EN then s.endArmings 4 else s

/-- TRG_DISABLE (R320). -/
def execTrgDisable (a : Agent) (v : Dword) (s : State) : Result := (s.gate a R.TRG_CTRL fun s => s.trgCtrlWrite v).done

/-! ### The front end ends armings (R262, R269, R320) -/

/-- FLT_CTRL.EN falls. -/
def State.frontStop (s : State) : State := if s.flag F.FLT_CTRL_EN then (s.endArmings 2).fltStop else s

/-- FRONT_END_STOP (R262). -/
def execFrontEndStop (s : State) : Result := s.frontStop.done

/-- CP_CONFIG_CHANGE (R269): a new CP_K or CP_FAST takes effect at the next frame boundary; the sample of that instant is the first
under it. -/
def execCpConfigChange (b : Fin 8) (s : State) : Result :=
  let b := b.val
  let x := s.fltBay b
  let n := s.cpReg b
  if !s.fltRuns || n == (x.k, x.fast) then s.done
  else
    let f := x.due.getD (s.frameFrom (s.now + 1))
    let s := (s.reach f).endArming b 3 false
    let s := s.modBay b fun y => { y with k := n.1, fast := n.2, due := none }
    let m := (f - s.fltT0) / (24 * 2 ^ n.1) - 1
    let s := (List.range 6).foldl (fun s q =>
      let ch := 6 * b + q
      s.setTap ch 2 { s.tap ch 2 with next := m, hist := [], out := [] }) s
    s.gdSync.done

/-! ### Registers as they read -/

/-- TRG_STAT. -/
def State.trgStat (s : State) : Nat :=
  let st := (List.range 8).foldl (fun n b => n + 2 ^ (3 * b) * (s.trgUnit b).st) 0
  match s.xUnit with
  | some b => 2 ^ 27 + 2 ^ 24 * b + st
  | none => st

/-- A dword of a unit's registers: 0 ARM, 1 RATE, 2 HELD, 3 LEFT. -/
def State.trgReg (s : State) (b i : Nat) : Nat :=
  let u := s.trgUnit b
  match i with
  | 0 => u.armno % 65536 * 65536 + u.capno
  | 1 => u.rlog * 256
  | 2 => s.trgSegs b % 16384
  | _ => u.left % 65536

end Sys2Proof.Machine
end

