-- ==== Sys2Proof/Machine/Cmd.lean ====
section
/-!
DEFINITION. Sys2Proof/Machine/Cmd.lean: the command rings, COMMIT_EPOCH and the general commands (R401, R406 to R418), and leases
(R111).
-/
namespace Sys2Proof.Machine

/-- Changes the command interpreter's state. -/
def State.modCmd (s : State) (f : Cmd → Cmd) : State := { s with cmd := f s.cmd }

/-! ### Rings (R406 to R409) -/

/-- A write of CMD_DB (R406). -/
def State.doorbell (s : State) (r : Fn) (v : Dword) : State :=
  if s.get (ringFld r F.CMD_SIZE_SIZE) < subMod 32 v.toNat (s.get (ringFld r F.CMD_CONS_CONS)) then s.ev0 Ev.CMD_DB_BAD
  else s.set (ringFld r F.CMD_DB_PROD) v.toNat

/-- CMD_DOORBELL (R406). -/
def execCmdDoorbell (a : Agent) (v : Dword) (s : State) : Result := (s.gate a R.CMD_DB fun s => s.doorbell (agentFn a) v).done

/-- Does a ring fetch now: enabled, not halted, not paused, entries published, DMA possible, the firmware running. -/
def State.fetches (s : State) (r : Fn) : Bool :=
  s.flag (ringFld r F.CMD_CTRL_EN) && !s.flag (ringFld r F.CMD_STAT_HALTED) && !s.flag (ringFld r F.CMD_STAT_PAUSED) &&
    s.get (ringFld r F.CMD_DB_PROD) != s.get (ringFld r F.CMD_CONS_CONS) && (s.pfn r).bme && s.fwRuns

/-- A ring halts (R408). -/
def State.haltRing (s : State) (r : Fn) (err ev : Nat) : State :=
  ((s.setB (ringFld r F.CMD_STAT_HALTED) true).set (ringFld r F.CMD_STAT_ERR) err).ev0 ev

/-- CMD_ENTRY_FETCH (R408): the entry at CMD_CONS has been fetched. -/
def execCmdEntryFetch (r : Fn) (entry : List Byte) (s : State) : Result :=
  if s.fetches r then
    let e := padTo 64 entry
    let q := s.get (ringFld r F.CMD_SEQEXP_SEQ)
    let s := s.inc (ringFld r F.CMD_CONS_CONS)
    if pkSeq e == q then
      ((s.set (ringFld r F.CMD_SEQEXP_SEQ) (q + 1)).setRing r ⟨(s.ring r).fetched ++ [e]⟩).done
    else (s.haltRing r 1 Ev.CMD_SEQ).done
  else s.done

/-- CMD_FETCH_TIMEOUT (R408): no completion within 1 ms, or a poisoned one. -/
def execCmdFetchTimeout (r : Fn) (poisoned : Bool) (s : State) : Result :=
  if s.fetches r then (s.haltRing r (if poisoned then 3 else 2) Ev.CMD_FETCH).done else s.done

/-! ### Ends of commands in flight -/

/-- A commit that is not accepted leaves nothing pending (R417). -/
def State.unprepare (s : State) : State :=
  let s := { s with
    ing := { s.ing with streams := s.ing.streams.unprepare }
    aln := { s.aln with policy := s.aln.policy.unprepare }
    ang := { s.ang with limits := s.ang.limits.unprepare, pairs := s.ang.pairs.unprepare }
    isl := { s.isl with nodes := s.isl.nodes.unprepare, edges := s.isl.edges.unprepare, expect := s.isl.expect.unprepare }
    osc := { s.osc with sigs := s.osc.sigs.unprepare, rules := s.osc.rules.unprepare, place := s.osc.place.unprepare }
    outp := { s.outp with groups := s.outp.groups.unprepare, dests := s.outp.dests.unprepare }
    pmu := { s.pmu with cfg := s.pmu.cfg.unprepare, cal := s.pmu.cal.unprepare }
    nrg := { s.nrg with corr := s.nrg.corr.unprepare } }
  s.modCmd fun c => { c with prep := none, rdirty := c.pwrit.foldl sadd c.rdirty, pwrit := [] }

/-- What a command in flight leaves when it ends early: a commit leaves nothing pending, a retirement frees its replacement, a scrub
lap stops. -/
def State.flyEnd (s : State) (f : Fly) : State :=
  if pkOp f.bytes == 0x03 then s.unprepare
  else if pkOp f.bytes == 0x80 then s.retireAbort f.prog
  else if pkOp f.bytes == 0x82 then s.setB F.ECC_STAT_FULL false
  else s

/-- Every command of a ring in flight ends without a reply (R401, R409). -/
def State.dropFly (s : State) (r : Fn) : State :=
  let mine := s.cmd.fly.filter fun f => decide (f.fn = r)
  let s := s.modCmd fun c => { c with
    fly := c.fly.filter fun f => !decide (f.fn = r), late := c.late.filter fun l => !decide (l.fn = r) }
  (mine.foldl (fun s f => s.flyEnd f) s).flySync

/-- A ring reset (R409). -/
def State.ringReset (s : State) (r : Fn) : State :=
  let s := (s.dropFly r).setRing r ⟨[]⟩
  let s := s.set (ringFld r F.CMD_CONS_CONS) (s.get (ringFld r F.CMD_DB_PROD))
  let s := ((s.set (ringFld r F.CMD_SEQEXP_SEQ) 0).set (ringFld r F.RPL_PROD_PROD) 0).set (ringFld r F.RPL_CONS_CONS) 0
  ((s.set (ringFld r F.CMD_STAT_ERR) 0).setB (ringFld r F.CMD_STAT_HALTED) false).ev0 Ev.CMD_RING_RESET

/-- A write of CMD_CTRL: EN does not rise while a SIZE is 0 (R533); RESET resets the ring. -/
def State.cmdCtrlWrite (s : State) (r : Fn) (v : Dword) : State :=
  let en := ringFld r F.CMD_CTRL_EN
  let zero := s.get (ringFld r F.CMD_SIZE_SIZE) == 0 || s.get (ringFld r F.RPL_SIZE_SIZE) == 0
  let s := if fval F.CMD_CTRL_EN v == 0 then s.setB en false else if zero then s else s.setB en true
  if fval F.CMD_CTRL_RESET v == 1 then s.ringReset r else s

/-- CMD_RING_RESET (R409). -/
def execCmdRingReset (a : Agent) (v : Dword) (s : State) : Result := (s.gate a R.CMD_CTRL fun s => s.cmdCtrlWrite (agentFn a) v).done

/-- A write of CMD_SIZE or RPL_SIZE: dropped while EN = 1 or out of range. -/
def State.ringSizeWrite (s : State) (r : Fn) (f : Fld) (v : Dword) : State :=
  let x := fval f v
  if s.flag (ringFld r F.CMD_CTRL_EN) || !(x == 0 || pow2Between x 16 4096) then s.ev0 Ev.CMD_CFG_RANGE
  else s.set (ringFld r f) x

/-- A write of RPL_CONS: one that passes PROD is dropped. -/
def State.rplConsWrite (s : State) (r : Fn) (v : Dword) : State :=
  let c := s.get (ringFld r F.RPL_CONS_CONS)
  let p := s.get (ringFld r F.RPL_PROD_PROD)
  if subMod 32 p c < subMod 32 v.toNat c then s.ev0 Ev.CMD_CFG_RANGE else s.set (ringFld r F.RPL_CONS_CONS) v.toNat

/-- The ring registers of a function return to their reset values (R401). -/
def State.ringRegsReset (s : State) (r : Fn) : State :=
  (List.range 16).foldl (fun s i => s.wr (ringReg r (R.CMD_CTRL + 4 * i)) 0) s

/-- The host queues a function owns are disabled and flushed (R401, R122). -/
def State.queuesReset (s : State) (r : Fn) : State :=
  (List.range 16).foldl (fun s q =>
    if decide (s.hqOwner q = r) && s.flag (hqf F.SET_HQ_CFG_EN q) then
      ((s.setB (hqf F.SET_HQ_CFG_EN q) false).hqFlush q).ev0 Ev.SET_HQ_FLUSH
    else s) s

/-- What a reset of the PCIE domain does for one function (R401, R437). -/
def State.fnReset (s : State) (f : Fn) : State :=
  let paused := s.flag (ringFld f F.CMD_STAT_PAUSED)
  let s := (((s.dropFly f).setRing f ⟨[]⟩).ringRegsReset f).setB (ringFld f F.CMD_STAT_PAUSED) paused
  let s := (s.queuesReset f).irqFnReset f
  s.ev Ev.PCIE_RESET 0 [(8, if f = .pf1 then 1 else 0)]

/-- PCIE_FUNCTION_RESET (R401): a function-level reset, or PERSTN for this function. -/
def execPcieFunctionReset (f : Fn) (s : State) : Result := (s.fnReset f).done

/-! ### General commands -/

/-- NOP (0x01). -/
def execNop (r : Fn) (s : State) : Result := (s.plain r 0x01 8 true (fun _ => true) fun _ s => ⟨St.ok, [], s⟩).done

/-- The RESULT of GET_INFO, page 0. -/
def State.infoId (s : State) (r : Fn) : List Byte :=
  toLe 2 0x4872 ++ [0xB0] ++ toLe 1 Config.variant ++ toLe 4 (s.rd R.UPD_FWVER).toNat ++ toLe 2 Config.romVer ++
    toLe 1 (bits (s.rd R.TOP_STRAPS).toNat 4 0) ++ [if r = .pf1 then 1 else 0] ++ toLe 4 (s.get F.CMD_EPOCH_EPOCH) ++ toLe 7 Config.uid

/-- The RESULT of GET_INFO, page 1. -/
def State.infoSizes (s : State) : List Byte :=
  toLe 2 8192 ++ toLe 2 256 ++ toLe 2 8192 ++ toLe 2 s.sett.retired.length ++ toLe 2 4096 ++ [4, 8] ++ toLe 2 16384 ++ toLe 2 8192 ++
    toLe 2 0x8000 ++ toLe 2 1024 ++ [16, 16, 0]

/-- GET_INFO (0x02): body. -/
def getInfoBody (r : Fn) (p : List Byte) (s : State) : CmdRes :=
  checked [(decide (1 < le p 8 1), St.badParam), (!zeroAt p 9 3, St.badParam)] s
    ⟨St.ok, if le p 8 1 == 0 then s.infoId r else s.infoSizes, s⟩

/-- GET_INFO (R2). -/
def execGetInfo (r : Fn) (s : State) : Result := (s.plain r 0x02 12 true (fun _ => true) (getInfoBody r)).done

/-- ABORT_STEPPED (0x04): body. -/
def abortBody (r : Fn) (p : List Byte) (s : State) : CmdRes :=
  let mine (f : Fly) : Bool := decide (f.fn = r) && !f.waiting && pkSeq f.bytes == le p 8 4
  checked [(!zeroAt p 12 4, St.badParam), (!s.cmd.fly.any mine, St.state)] s
    ⟨St.ok, [], s.modCmd fun c => { c with fly := c.fly.map fun f => if mine f then { f with abort := true } else f }⟩

/-- ABORT_STEPPED (R414). -/
def execAbortStepped (r : Fn) (s : State) : Result := (s.plain r 0x04 16 false (fun _ => true) (abortBody r)).done

/-! ### COMMIT_EPOCH (R417, R418) -/

/-- Has the shadow been written since the last accepted commit. -/
def State.shadowDirty (s : State) : Bool := !s.dirtyItems.isEmpty || !s.cmd.rdirty.isEmpty

/-- Copies one dirty item into its pending copy. -/
def State.prepareItem (s : State) (x : Nat × Nat) : State :=
  let i := x.2
  match x.1 with
  | 0 => { s with ing := { s.ing with streams := s.ing.streams.prepare i } }
  | 1 => { s with aln := { s.aln with policy := s.aln.policy.prepare i } }
  | 3 => { s with ang := { s.ang with limits := s.ang.limits.prepare i } }
  | 4 => { s with ang := { s.ang with pairs := s.ang.pairs.prepare i } }
  | 5 => { s with isl := { s.isl with nodes := s.isl.nodes.prepare i } }
  | 6 => { s with isl := { s.isl with edges := s.isl.edges.prepare i } }
  | 7 => { s with isl := { s.isl with expect := s.isl.expect.prepare i } }
  | 8 => { s with osc := { s.osc with sigs := s.osc.sigs.prepare i } }
  | 9 => { s with osc := { s.osc with rules := s.osc.rules.prepare i } }
  | 10 => { s with osc := { s.osc with place := s.osc.place.prepare i } }
  | 11 => { s with outp := { s.outp with groups := s.outp.groups.prepare i } }
  | 12 => { s with outp := { s.outp with dests := s.outp.dests.prepare i } }
  | 13 => { s with pmu := { s.pmu with cfg := s.pmu.cfg.prepare i } }
  | 14 => { s with pmu := { s.pmu with cal := s.pmu.cal.prepare i } }
  | 15 => { s with nrg := { s.nrg with corr := s.nrg.corr.prepare i } }
  | _ => s

/-- Nothing that the commit copied is dirty any more; an entry's marks that belong to one boundary go with it. -/
def State.acceptTables (s : State) : State :=
  let old := s.ing.streams
  let streams := { old with shadow := old.shadow.map fun (p : Nat × Stream) =>
    if (mget old.pend p.1).isSome then (p.1, { p.2 with fresh := false }) else p }
  let pol := s.aln.policy
  let policy := { pol with shadow := pol.shadow.map fun (p : Nat × Policy) =>
    if (mget pol.pend p.1).isSome then (p.1, { p.2 with promote := false }) else p }
  { s with
    ing := { s.ing with streams := streams.accept }
    aln := { s.aln with
      policy := policy.accept, cadPend := if s.aln.cadDirty then some s.aln.cadShadow else none, cadDirty := false }
    ang := { s.ang with limits := s.ang.limits.accept, pairs := s.ang.pairs.accept }
    isl := { s.isl with nodes := s.isl.nodes.accept, edges := s.isl.edges.accept, expect := s.isl.expect.accept }
    osc := { s.osc with sigs := s.osc.sigs.accept, rules := s.osc.rules.accept, place := s.osc.place.accept }
    outp := { s.outp with groups := s.outp.groups.accept, dests := s.outp.dests.accept }
    pmu := { s.pmu with cfg := s.pmu.cfg.accept, cal := s.pmu.cal.accept }
    nrg := { s.nrg with corr := s.nrg.corr.accept } }

/-- The boundary of R154: the first cadence instant not yet opened and at least ALN_EPOCH_LEAD µs from now. -/
def State.boundary (s : State) : Nat × Nat :=
  let t := s.taiNs + s.get F.ALN_EPOCH_LEAD_US * 1000
  let i := s.firstInstAfter (rateOf (s.cadAt (s.utcOf t).1)) (t - 1)
  let b := s.instTag i
  match s.aln.next with
  | some n => if ukey b < ukey (s.instTag n) then s.instTag n else b
  | none => b

/-- The commit is accepted (R154, R417, R418): its boundary is chosen. `n` items were copied. -/
def State.acceptCommit (s : State) (n : Nat) : CmdRes :=
  let regs := (s.cmd.prep.map fun p => p.1).getD []
  let s := (s.acceptTables).modCmd fun c => { c with prep := none, pregs := some regs }
  let b := s.boundary
  let s := { s with aln := { s.aln with bound := some b } }
  let s := (s.wr R.ALN_BOUND_LO (BitVec.ofNat 32 b.2)).wr R.ALN_BOUND_HI (BitVec.ofNat 32 b.1)
  let s := (s.setB F.ALN_STAT_BOUND_PEND true).ev0 Ev.CMD_EPOCH
  ⟨St.ok, toLe 4 s.nextTag ++ toLe 4 b.1 ++ toLe 4 b.2 ++ toLe 4 n, s⟩

/-- A commit's first step captures the epoch registers and the list of dirty items. -/
def State.startCommit (s : State) : State :=
  let items := s.dirtyItems
  s.modCmd fun c => { c with prep := some (s.epochRegs, items), pwrit := c.rdirty, rdirty := [] }

/-- One step of a commit: up to 512 items from the k-th on; a poisoned one ends it. Answers the final result, or the new k. -/
def State.commitCopy (s : State) (k : Nat) : CmdRes ⊕ (Nat × State) :=
  let items := (s.cmd.prep.map fun p => p.2).getD []
  let now := (items.drop k).take 512
  match now.findIdx? fun x => s.cramPoisoned (16 + x.1) x.2 with
  | some j => .inl ⟨St.poison, zeros 12 ++ toLe 4 (k + j), s.unprepare⟩
  | none =>
    let s := now.foldl (fun s x => s.prepareItem x) s
    if k + 512 < items.length then .inr (k + 512, s) else .inl (s.acceptCommit items.length)

/-- Stages 6 to 8 of COMMIT_EPOCH. -/
def commitCheck (p : List Byte) (s : State) : Option Nat :=
  firstFail [(!zeroAt p 8 8, St.badParam), (!s.flag F.ALN_CTRL_EN, St.state), (s.cmd.prep.isSome || s.aln.bound.isSome, St.busy)]

/-- COMMIT_EPOCH (R417): plain with at most 512 dirty items, stepped with more. -/
def State.commit (s : State) (r : Fn) : State :=
  match s.head r with
  | none => s
  | some b =>
    if pkOp b == 0x03 && (decide (s.dirtyItems.length ≤ 512) || decide (s.cmd.fly.length < 4)) then
      let s := s.popHead r
      match stages15 r b 16 false with
      | some st => s.reply r b st 0 []
      | none =>
        match commitCheck b s with
        | some st => s.reply r b st 0 []
        | none =>
          match s.startCommit.commitCopy 0 with
          | .inl c => c.s.reply r b c.st 0 c.res
          | .inr (k, t) =>
            let t := t.reply r b St.stepping 1 []
            (t.modCmd fun c => { c with fly := c.fly ++ [Fly.mk r b 1 false false [k] none] }).flySync
    else s

/-- COMMIT_EPOCH. -/
def execCommitEpoch (r : Fn) (s : State) : Result := (s.commit r).done

/-- A later step of a commit. -/
def commitStep (prog : List Nat) (s : State) : StepRes :=
  match s.commitCopy (prog.headD 0) with
  | .inl c => .final c.st c.res c.s
  | .inr (k, t) => .more [k] t

/-! ### Leases (R111, R112) -/

/-- EV_LEASE_EXPIRED with the class and the holder's number of the width given. -/
def State.leaseEvent (s : State) (c w n : Nat) : State := s.ev Ev.LEASE_EXPIRED 0 [(32, c), (w, n)]

/-- LEASE_EXPIRY (R111): a holder's lease has run out. -/
def execLeaseExpiry (h : LeaseHolder) (s : State) : Result :=
  match h with
  | .queue q =>
    let ms := s.get (hqf F.SET_HQ_LEASE_MS q)
    let x := s.hq q
    if ms == 0 || x.pkts.isEmpty then s.done
    else
      let s := s.reach (x.leaseAt + ticksOfMs ms)
      (((s.hqFlush q).setB (hqf F.SET_HQ_STAT_EXPIRED q) true).leaseEvent 2 32 q).done
  | .capture n =>
    let ms := s.get F.SET_LEASE_CAPT_MS
    match mget s.trg.done n with
    | some d =>
      if ms == 0 then s.done
      else
        let s := s.reach (d.doneAt + ticksOfMs ms)
        ((s.releaseCapture n).leaseEvent 3 16 d.capno).done
    | none => s.done
  | .digest n =>
    let ms := s.get F.SET_LEASE_CASC_MS
    match s.cas.reasm.find? fun x => x.id == n with
    | some x =>
      if ms == 0 then s.done
      else
        let s := s.reach (x.first + ticksOfMs ms)
        ((s.reasmDrop x).leaseEvent 5 32 x.member).done
    | none => s.done
  | .handover =>
    let ms := s.get F.SET_LEASE_HANDOVER_MS
    match s.cmd.pauseAt with
    | some t =>
      let ids := (s.sett.pages.filter fun p => p.2.holders.contains .handover).map fun p => p.1
      if ms == 0 || ids.isEmpty then s.done
      else
        let s := s.reach (t + ticksOfMs ms)
        ((s.dropHolds .handover ids).leaseEvent 6 32 0).done
    | none => s.done

end Sys2Proof.Machine
end

