-- ==== Sys2Proof/Machine/Nrg.lean ====
section
/-!
DEFINITION. Sys2Proof/Machine/Nrg.lean: the energy registers: ticks, corrections, cycles, saves, power fail, presets and
snapshots (R300 to R319), and CAL_LOAD, which loads the phasor calibration and the energy correction.
-/
namespace Sys2Proof.Machine

/-! ### Accumulators (R300, R304, R309) -/

/-- Changes the energy state. -/
def State.modNrg (s : State) (f : Nrg → Nrg) : State := { s with nrg := f s.nrg }

/-- Accumulator of bay b, group g, quantity q. -/
def nrgIdx (b g q : Nat) : Nat := 36 * b + 9 * g + q

/-- An accumulator: bits [119:48] mWh, [47:0] residue. -/
def State.nrgAcc (s : State) (i : Nat) : Nat := mgetD s.nrg.acc i 0

/-- Adds an increment; a register that overflows wraps to zero and is logged. -/
def State.nrgAdd (s : State) (i inc : Nat) : State :=
  let v := s.nrgAcc i + inc
  let t := s.modNrg fun n => { n with acc := mstore 0 n.acc i (v % 2 ^ 120) }
  if 2 ^ 120 ≤ v then t.ev0 Ev.NRG_WRAP else t

/-! ### Epochs (R308) -/

/-- t_eff of the EN sample m of channel ch. -/
def State.enEff (s : State) (ch m : Nat) : Int :=
  match (s.tap ch 1).at m with
  | some t => t.tEff
  | none => (s.tapTick ch 10 m : Int) - s.get F.FLT_GD_EN_TICKS

/-- The epoch whose configuration the bay's tick m takes: its tag, and its first instant (ns of UTC, 0 for the first epoch). It is the last
whose boundary is not after t_eff of the tick's voltage sample. -/
def State.nrgEpoch (s : State) (b m : Nat) : Nat × Nat :=
  let te := s.t40At (s.enEff (6 * b) (m - 4)).toNat / 2 ^ 40
  match s.aln.epochs.find? fun e => decide (s.taiOf e.2.1 e.2.2 ≤ te) with
  | some e => (e.1, ukey e.2)
  | none => match s.aln.epochs.getLast? with
    | some e => (e.1 - 1, 0)
    | none => (s.get F.CMD_EPOCH_EPOCH, 0)

/-- A field of a bay's epoch registers in an epoch. -/
def State.nrgReg (s : State) (ep : Nat × Nat) (f : Fld) : Nat := s.egetAt ep.1 f

/-- SCALE of a bay. -/
def State.nrgScale (s : State) (ep : Nat × Nat) (b : Nat) : Nat :=
  s.nrgReg ep (F.NRG_SCALE_LO_SCALE.at (8 * b)) + 2 ^ 32 * s.nrgReg ep (F.NRG_SCALE_HI_SCALE.at (8 * b))

/-- f_ref of a bay in 0.01 Hz (R302). -/
def State.nrgFref (s : State) (ep : Nat × Nat) (b : Nat) : Nat :=
  let hz := if s.nrgReg ep (bayf F.NRG_CFG_FNOM b) == 1 then 50 else 60
  match s.pmuCfgOf b with
  | some c => if s.pmuOn b && s.nrgReg ep (bayf F.NRG_CFG_FREF_SRC b) == 0 then s.frefNow b c.hz else 100 * hz
  | none => 100 * hz

/-- A channel's correction in an epoch; the reset entry is one point of gain 1. -/
def State.corrOf (s : State) (ep : Nat × Nat) (ch : Nat) : NrgCorr :=
  let l := match s.nrg.olds.reverse.find? fun o => decide (ep.2 < o.1) with
    | some o => o.2
    | none => s.nrg.corr.eff
  mgetD l ch ⟨[⟨0, 0, 0x400000⟩], [⟨0, 0, 0x400000⟩]⟩

/-! ### Corrected samples (R305, R306) -/

/-- GAIN and PHI at x as exact numerators over one denominator: linear between points, the end points' values beyond them. -/
def corrAt : List NrgPt → Nat → Int × Int × Nat
  | [], _ => (0x400000, 0, 1)
  | [p], _ => (p.gain, p.phi, 1)
  | p :: q :: r, x =>
    if x ≤ p.x then (p.gain, p.phi, 1)
    else if x < q.x then
      let d : Nat := q.x - p.x
      let e : Int := (x : Int) - p.x
      (p.gain * (d : Int) + ((q.gain : Int) - p.gain) * e, p.phi * d + (q.phi - p.phi) * e, d)
    else corrAt (q :: r) x

/-- A bay's energy state before its first tick. -/
def NrgBay.idle : NrgBay := ⟨0, 0, 0, [], [], none, []⟩

/-- Bay b. -/
def State.nrgBay (s : State) (b : Nat) : NrgBay := mgetD s.nrg.bays b NrgBay.idle

/-- Stores bay b. -/
def State.setNrgBay (s : State) (b : Nat) (x : NrgBay) : State := s.modNrg fun n => { n with bays := mput n.bays b x }

/-- A channel's RMS argument x over the previous cycle; open where none has completed. -/
def NrgBay.x (y : NrgBay) (q : Nat) : Nat := mgetD y.rms q (Config.op "nrg.x0" [q] % 65536)

/-- What a phase gives a tick: nothing, a skip for FAULT, or the corrected pair with the two tap values it came from. -/
inductive NrgPair where
  | none
  | fault
  | ok (v i rv ri : Int)

/-- The corrected pair of phase p of bay b at tick m (R303, R305). -/
def State.nrgPair (s : State) (ep : Nat × Nat) (b p m : Nat) : NrgPair :=
  let cv := 6 * b + p
  let ci := 6 * b + 3 + p
  if !s.chOn cv || !s.chOn ci || m < 4 then .none
  else
    let y := s.nrgBay b
    let cur := (s.tap ci 1).out
    match (s.tap cv 1).at (m - 4), (s.tap ci 1).at (m - 4) with
    | some v, some c =>
      let gv := corrAt (s.corrOf ep cv).lo (y.x p)
      let ki := s.corrOf ep ci
      let gi := corrAt (if bit c.flags 0 then ki.hi else ki.lo) (y.x (3 + p))
      -- t_q = t_eff_v + s, s = num / den ticks
      let den : Nat := 3 * max (s.nrgFref ep b) 1 * gi.2.2 * gv.2.2
      let num : Int := (gi.2.1 * gv.2.2 - gv.2.1 * gi.2.2) * 40960
      let tq : Int := v.tEff * den + num
      match cur.find? fun t => decide (t.tEff * den ≤ tq) with
      | none => .none
      | some a => match (s.tap ci 1).at (a.m + 1) with
        | none => .none
        | some e =>
          if bit v.flags 3 || bit a.flags 3 || bit e.flags 3 then .fault
          else
            let wn := (tq - a.tEff * den) * 65536
            let wd := ((e.tEff - a.tEff) * den).toNat
            let w0 := wn.fdiv wd
            let w := if w0 * wd == wn then w0 else w0 + (Config.op "nrg.weight" [wrapInt 64 wn, wd] % 2 : Nat)
            .ok (satTo 24 (roundConv (v.v * gv.1) (gv.2.2 * 2 ^ 22)))
              (satTo 24 (roundConv ((a.v * 65536 + w * (e.v - a.v)) * gi.1) (gi.2.2 * 2 ^ 38))) v.v a.v
    | _, _ => .none

/-! ### Cycles (R302) -/

/-- A number that is not negative as an integer: itself where it is one, else one of the two beside it, which is open; `sq` is its square as
num / den. -/
def openRoot (num den : Nat) : Nat :=
  let r := isqrt (num / max den 1)
  r + (if r * r * den == num then 0 else Config.op "nrg.root" [num, den] % 2)

/-- A number in units of 2^-192 as an integer: one of the two beside it, which is open. -/
def openInt (n : Int) : Int :=
  let q := n.fdiv (fxOne : Int)
  if q * fxOne == n then q else q + (Config.op "nrg.int" [wrapInt 384 n] % 2 : Nat)

/-- The single-bin transform at f_ref (0.01 Hz) of the values of a cycle by tick of 50 µs, times n / √2, in units of 2^-192 (R302). -/
def oneBin (f : Nat) (l : List (Nat × Int)) : Int × Int :=
  l.foldl (fun a p =>
    let r := cosSin (((f * p.1 : Nat) : Int) * 2 ^ 192 / 2000000)
    (a.1 + p.2 * r.1, a.2 - p.2 * r.2)) (0, 0)

/-- A phase's values over a cycle (R302): P_f + jQ_f is the product of the two transforms as RMS phasors, and V_rms × I_rms that of the two
RMS values. -/
def cycOf (f : Nat) (l : List (Nat × (Int × Int))) : NrgCyc :=
  let n := l.length
  if n == 0 then ⟨0, 0, 0⟩
  else
    let v := oneBin f (l.map fun x => (x.1, x.2.1))
    let i := oneBin f (l.map fun x => (x.1, x.2.2))
    let per (z : Int) : Int := openInt ((2 * z.fdiv (fxOne : Int)).fdiv ((n * n : Nat) : Int))
    let sq (g : Int × Int → Int) : Nat := l.foldl (fun a x => a + (g x.2 * g x.2).toNat) 0
    ⟨per (v.1 * i.1 + v.2 * i.2), per (v.2 * i.1 - v.1 * i.2), openRoot (sq Prod.fst * sq Prod.snd) (n * n)⟩

/-- The RMS argument x of a quantity over a cycle (R306): its RMS as a fraction of tap full scale / √2 in Q0.16. -/
def rmsX (l : List Int) : Nat :=
  min 65535 (openRoot (2 * 2 ^ 32 * l.foldl (fun a v => a + (v * v).toNat) 0) (2 ^ 46 * l.length))

/-- The end of a bay's cycle: its values stand for the next one, whose length is fixed now by the configuration of its first tick. -/
def State.cycleEnd (s : State) (b : Nat) : State :=
  let y := s.nrgBay b
  let f := s.nrgFref (s.nrgEpoch b s.nrg.next) b
  let cyc (p : Nat) : NrgCyc := cycOf y.fref ((y.pairs.filter fun x => x.1 == p).map fun x => x.2)
  let rms (q : Nat) : Nat × Nat := (q, rmsX ((y.raw.filter fun x => x.1 == q).map fun x => x.2))
  s.setNrgBay b ⟨(4000000 + f) / (2 * max f 1), f, 0, [], [], some [cyc 0, cyc 1, cyc 2], (List.range 6).map rms⟩

/-- Has the bay's cycle run its length. -/
def NrgBay.full (y : NrgBay) : Bool := y.len != 0 && decide (y.len ≤ y.ticks)

/-- ENERGY_CYCLE_END (R302). -/
def execEnergyCycleEnd (b : Fin 8) (s : State) : Result :=
  (if (s.nrgBay b.val).full then s.cycleEnd b.val else s).done

/-! ### Ticks (R303, R304, R307) -/

/-- An increment: |x| × SCALE / 2^24 rounded convergently. -/
def nrgInc (x : Int) (scale : Nat) : Nat := (roundConv ((x.natAbs * scale : Nat) : Int) (2 ^ 24)).toNat

/-- Quantity of |Q_f| by quadrant (R300). -/
def quadrant (pf qf : Int) : Nat :=
  if 0 ≤ pf then (if 0 ≤ qf then 5 else 8) else (if 0 ≤ qf then 6 else 7)

/-- Adds one group's active energy. -/
def State.addTp (s : State) (b g scale : Nat) (prod : Int) : State :=
  s.nrgAdd (nrgIdx b g (if 0 ≤ prod then 0 else 1)) (nrgInc prod scale)

/-- Adds one group's fundamental energies. -/
def State.addCyc (s : State) (b g scale : Nat) (pf qf : Int) (ts : Nat) : State :=
  let s := s.nrgAdd (nrgIdx b g 2) ts
  let s := s.nrgAdd (nrgIdx b g (if 0 ≤ pf then 3 else 4)) (nrgInc pf scale)
  s.nrgAdd (nrgIdx b g (quadrant pf qf)) (nrgInc qf scale)

/-- A bay's part of tick m. -/
def State.bayTick (s : State) (m b : Nat) : State :=
  let ep := s.nrgEpoch b m
  let y := s.nrgBay b
  let ps := (List.range 3).map fun p => (p, s.nrgPair ep b p m)
  let good := ps.filterMap fun x => match x.2 with
    | .ok v i rv ri => some (x.1, v, i, rv, ri)
    | _ => none
  -- the cycle
  let f := s.nrgFref ep b
  let y := { y with
    len := if y.len == 0 then (4000000 + f) / (2 * max f 1) else y.len
    fref := if y.len == 0 then f else y.fref
    ticks := y.ticks + 1
    pairs := y.pairs ++ good.map fun x => (x.1, (y.ticks, (x.2.1, x.2.2.1)))
    raw := y.raw ++ good.flatMap fun x => [(x.1, x.2.2.2.1), (3 + x.1, x.2.2.2.2)] }
  let s := s.setNrgBay b y
  -- skipped phases (R307, R318)
  let on := s.nrgReg ep (bayf F.NRG_CFG_EN b) != 0
  let s := ps.foldl (fun s x =>
    let k := 3 * b + x.1
    match x.2 with
    | .fault =>
      let s := s.inc F.NRG_CNT_FAULTTICK_COUNT
      if smem s.nrg.normal k then (s.modNrg fun n => { n with normal := sdel n.normal k }).ev0 Ev.NRG_FAULT_TICKS else s
    | .ok _ _ _ _ => if on then s.modNrg fun n => { n with normal := sadd n.normal k } else s
    | .none => s) s
  if !on || good.isEmpty then s
  else
    let sc := s.nrgScale ep b
    let prods := good.map fun x => (x.1, x.2.1 * x.2.2.1)
    let s := prods.foldl (fun s x => s.addTp b x.1 sc x.2) s
    let s := s.addTp b 3 sc (prods.foldl (fun n x => n + x.2) 0)
    match y.cyc with
    | none => s
    | some cs =>
      let mine := good.map fun x => (x.1, (cs[x.1]?).getD ⟨0, 0, 0⟩)
      let s := mine.foldl (fun s x => s.addCyc b x.1 sc x.2.pf x.2.qf (nrgInc x.2.va sc)) s
      s.addCyc b 3 sc (mine.foldl (fun n x => n + x.2.pf) 0) (mine.foldl (fun n x => n + x.2.qf) 0)
        (mine.foldl (fun n x => n + nrgInc x.2.va sc) 0)

/-- The TIME count of tick m's boundary: t_dec of EN sample m on channel 47 (R303). -/
def State.nrgTickAt (s : State) (m : Nat) : Nat := s.tapTick 47 10 m

/-- The first tick whose boundary is after now. -/
def State.nrgAfter (s : State) : Nat := (s.now - (s.fltT0 + 120 * s.fltD * 47)) / 24576

/-- Does accumulation run. -/
def State.nrgRuns (s : State) : Bool := s.flag F.NRG_CTRL_EN && s.fltRuns && !s.flag F.NRG_STAT_PFHOLD

/-- Can the next tick complete: every enabled channel has its EN sample. -/
def State.nrgReady (s : State) : Bool :=
  s.nrgRuns && (List.range 48).all fun ch => !s.chOn ch || decide (s.nrg.next < (s.tap ch 1).next)

/-! ### Saves (R310, R311) -/

/-- Is a slot valid. -/
def slotValid (b : List Byte) : Bool := le b 0 2 == 0x4E52 && crc32 (b.take 2912) == le b 2912 4

/-- SEQ of a slot. -/
def slotSeq (b : List Byte) : Nat := le b 4 4

/-- The newest valid slot: its number and bytes. -/
def State.newestSlot (s : State) : Option (Nat × List Byte) :=
  let ok (i : Nat) : Option (List Byte) := (mget s.nrg.slots i).filter slotValid
  match ok 0, ok 1 with
  | some a, some b =>
    let d := subMod 32 (slotSeq b) (slotSeq a)
    if d != 0 && decide (d < 2 ^ 31) then some (1, b) else some (0, a)
  | some a, none => some (0, a)
  | none, some b => some (1, b)
  | none, none => none

/-- A value as a slot holds it: nine bytes of register, residue bits [47:40]. -/
def slotVal (acc : Nat) : List Byte := toLe 9 (acc / 2 ^ 48) ++ toLe 1 (acc / 2 ^ 40)

/-- The bytes of a save (R310). -/
def State.slotImage (s : State) (kind seq tai tq : Nat) : List Byte :=
  let h := toLe 2 0x4E52 ++ [1] ++ toLe 1 kind ++ toLe 4 seq ++ toLe 8 (s.get64 R.NRG_TICK_LO R.NRG_TICK_HI) ++
    toLe 6 (tai / 1000000000) ++ toLe 4 (tai % 1000000000) ++ toLe 1 tq ++ zeros 5
  let b := h ++ (List.range 288).flatMap fun i => slotVal (s.nrgAcc i)
  b ++ toLe 4 (crc32 b) ++ zeros 156

/-- A save into the slot that does not hold the newest valid one; where the read-back fails the slot is not valid. -/
def State.nrgSave (s : State) (kind tai tq : Nat) (ok : Bool) : State :=
  let n := match s.newestSlot with
    | some (0, _) => 1
    | _ => 0
  let seq := (s.get F.NRG_SAVESEQ_SEQ + 1) % 2 ^ 32
  if ok then
    let s := s.modNrg fun x => { x with slots := mput x.slots n (s.slotImage kind seq tai tq) }
    ((s.set F.NRG_SAVESEQ_SEQ seq).inc F.NRG_CNT_SAVE_COUNT).raise 53
  else (s.modNrg fun x => { x with slots := merase x.slots n }).ev0 Ev.NRG_SAVE_FAIL

/-- A periodic save that is due is taken from its boundary's values. -/
def State.saveNow (s : State) (ok : Bool) : State :=
  match s.nrg.saveDue with
  | none => s
  | some d => (s.nrgSave 0 d.1 d.2 ok).modNrg fun n => { n with saveDue := none }

/-- ENERGY_PERIODIC_SAVE (R311). -/
def execEnergyPeriodicSave (readBackOk : Bool) (s : State) : Result := (s.saveNow readBackOk).done

/-- ENERGY_FLASH_COPY (R315): the firmware copies the newest valid slot. -/
def execEnergyFlashCopy (s : State) : Result :=
  let m := s.get F.NRG_SAVE_FLASH_MIN
  if m == 0 || !s.fwRuns then s.done
  else
    let s := s.reach (s.nrg.flashAt + ticksOfS (60 * m))
    let s := s.modNrg fun n => { n with flashAt := s.now }
    match s.newestSlot with
    | some x => (s.modNrg fun n => { n with flash := some x.2 }).done
    | none => s.done

/-! ### Presets and snapshots (R316, R317) -/

/-- One preset at a boundary: chosen registers set, residues cleared, an event per value. -/
def State.presetOne (s : State) (p : Nat × Nat × Nat × List Nat) : State :=
  ((List.range 9).filter fun q => bit p.2.2.1 q).foldl (fun s q =>
    let i := nrgIdx p.1 p.2.1 q
    let old := s.nrgAcc i / 2 ^ 48
    let new := (p.2.2.2[q]?).getD 0 % 2 ^ 72
    let s := s.modNrg fun n => { n with acc := mstore 0 n.acc i (new * 2 ^ 48) }
    (s.inc F.NRG_CNT_PRESET_COUNT).ev Ev.NRG_PRESET 0 [(72, old), (72, new)]) s

/-- Values a preset touches. -/
def presetIdx (p : Nat × Nat × Nat × List Nat) : List Nat :=
  ((List.range 9).filter fun q => bit p.2.2.1 q).map fun q => nrgIdx p.1 p.2.1 q

/-- The image of a snapshot (R316); `applied` are the values preset at this boundary. -/
def State.nrgImage (s : State) (applied : List Nat) : List Byte :=
  let tai := s.taiNs
  let h := toLe 2 0x4E53 ++ [1, 0] ++ zeros 4 ++ toLe 8 (s.get64 R.NRG_TICK_LO R.NRG_TICK_HI) ++ toLe 8 (tai / 1000000000) ++
    toLe 4 (tai % 1000000000) ++ toLe 1 s.tqByte ++ zeros 3
  h ++ (List.range 288).flatMap fun i =>
    let a := s.nrgAcc i
    toLe 9 (a / 2 ^ 48) ++ toLe 6 (a % 2 ^ 48) ++
      toLe 1 (b2n (applied.contains i) + 2 * b2n (s.eget (bayf F.NRG_CFG_EN (i / 36)) == 0))

/-- Pending presets are applied at this boundary, saved and answered. -/
def State.presetNow (s : State) : State × List Nat :=
  if s.nrg.preset.isEmpty then (s, [])
  else
    let ps := s.nrg.preset
    let s := ps.foldl (fun s p => s.presetOne p) (s.modNrg fun n => { n with preset := [] })
    let s := s.nrgSave 2 s.taiNs s.tqByte true
    (s.endWaiting 0x51 St.ok (toLe 8 (s.get64 R.NRG_TICK_LO R.NRG_TICK_HI)), ps.flatMap presetIdx)

/-- A MODE 1 snapshot due at this boundary is taken. -/
def State.snapNow (s : State) (applied : List Nat) : State :=
  match s.nrg.snap with
  | some d =>
    if s.nrg.snapImg.isNone && decide (d.2 ≤ s.taiNs) then s.modNrg fun n => { n with snapImg := some (s.nrgImage applied) } else s
  | none => s

/-- A periodic save falls due at every (20 × MS − 1)th boundary. -/
def State.saveCount (s : State) : State :=
  if !s.flag F.NRG_CTRL_SAVE_EN then s.modNrg fun n => { n with saveCnt := 0 }
  else if s.nrg.saveCnt + 2 < 20 * s.get F.NRG_SAVE_MS then s.modNrg fun n => { n with saveCnt := n.saveCnt + 1 }
  else s.modNrg fun n => { n with saveCnt := 0, saveDue := some (s.taiNs, s.tqByte) }

/-- The next tick boundary (R303, R316), if it can complete: what fell due at the last one is done first; then the tick, a pending
preset, a due snapshot, a due save. Answers the values preset. -/
def State.nrgTick (s : State) : State × List Nat :=
  if !s.nrgReady then (s, [])
  else
    let m := s.nrg.next
    let s := s.reach (s.nrgTickAt m)
    let s := (List.range 8).foldl (fun s b => if (s.nrgBay b).full then s.cycleEnd b else s) (s.saveNow true)
    let s := (List.range 8).foldl (fun s b => s.bayTick m b) s
    let s := (s.put64 R.NRG_TICK_LO R.NRG_TICK_HI m).modNrg fun n => { n with next := m + 1 }
    let r := s.presetNow
    ((r.1.snapNow r.2).saveCount, r.2)

/-- ENERGY_TICK (R304). -/
def execEnergyTick (s : State) : Result := s.nrgTick.1.done

/-- NRG_SNAPSHOT: checks. -/
def nrgSnapshotChecks (p : List Byte) (s : State) : List (Bool × Nat) :=
  let m := le p 20 1
  [(le p 8 8 % 8 != 0, St.badParam), (decide (le p 16 4 < 4640), St.badLength), (decide (1 < m), St.badParam),
    (!zeroAt p 21 3, St.badParam), ((m == 0 && !zeroAt p 24 8) || (m == 1 && decide (s.taiNs + 3600000000000 < le p 24 8)), St.badParam),
    (!s.flag F.NRG_CTRL_EN, St.state), (m == 1 && s.nrg.snap.isSome, St.busy)]

/-- NRG_SNAPSHOT (0x50): body. -/
def nrgSnapshotBody (r : Fn) (issued : Bool) (p : List Byte) (s : State) : CmdRes :=
  checked (nrgSnapshotChecks p s) s
    (if le p 20 1 == 1 then
      ⟨St.pending, [], (s.setB F.NRG_STAT_SNAP_PEND true).modNrg fun n => { n with snap := some (le p 8 8, le p 24 8), snapImg := none }⟩
    else if s.nrgReady then
      let t := s.nrgTick
      withWrite issued r t.1 ⟨St.ok, [], t.1.dma r (le p 8 8) (t.1.nrgImage t.2)⟩
    else CmdRes.fail St.timeout s)

/-- Does a MODE 0 snapshot at the head wait for the tick in progress. -/
def State.snapshotWaits (s : State) (r : Fn) : Bool :=
  match s.head r with
  | some p => pkOp p == 0x50 && (stages15 r p 32 false).isNone && (firstFail (nrgSnapshotChecks p s)).isNone && le p 20 1 == 0 &&
      s.nrgRuns && !s.nrgReady
  | none => false

/-- NRG_SNAPSHOT (R316): MODE 0 is taken at the next tick boundary, which comes within the command. -/
def execNrgSnapshot (r : Fn) (issued : Bool) (s : State) : Result :=
  (if s.snapshotWaits r then s else s.plain r 0x50 32 false (fun _ => true) (nrgSnapshotBody r issued)).done

/-- A pending MODE 1 snapshot ends: written, or dropped. -/
def State.snapEnd (s : State) (dropped : Bool) : State :=
  match s.nrg.snap with
  | none => s
  | some d =>
    let s := match s.nrg.snapImg, dropped with
      | some img, false => s.dma .pf0 d.1 img
      | _, _ => s
    ((s.setB F.NRG_STAT_SNAP_PEND false).modNrg fun n => { n with snap := none, snapImg := none }).ev Ev.NRG_SNAPSHOT 0 [(32, b2n dropped)]

/-- EV_NRG_SNAPSHOT (R316): a MODE 1 snapshot that was taken is written. -/
def execEvNrgSnapshot (s : State) : Result := (if s.nrg.snapImg.isSome then s.snapEnd false else s).done

/-- NRG_PRESET (0x51): body: it waits for a tick boundary. -/
def nrgPresetBody (buf : HostRead) (p : List Byte) (s : State) : CmdRes ⊕ (List Nat × State) :=
  let b := le p 8 1
  let g := le p 9 1
  let q := le p 10 2
  match firstFail [(decide (7 < b), St.badParam), (decide (3 < g), St.badParam), (q == 0 || decide (511 < q), St.badParam),
      (!zeroAt p 12 4, St.badParam), (le p 16 8 % 8 != 0, St.badParam), (s.flag F.NRG_CTRL_PRESET_LOCK, St.denied)] with
  | some st => .inl (CmdRes.fail st s)
  | none => match hostStatus buf with
    | some st => .inl (CmdRes.fail st s)
    | none =>
      let d := hostBytes buf
      if (List.range 9).any fun i => bit q i && !zeroAt d (16 * i + 9) 7 then .inl (CmdRes.fail St.badParam s)
      else if s.flag F.NRG_STAT_PFHOLD then .inl (CmdRes.fail St.aborted s)
      else
        let vs := (List.range 9).map fun i => le d (16 * i) 9
        .inr ([], s.modNrg fun n => { n with preset := n.preset ++ [(b, g, q, vs)] })

/-- NRG_PRESET (R316). -/
def execNrgPreset (r : Fn) (buf : HostRead) (s : State) : Result :=
  (s.waits r 0x51 24 (fun _ => true) (nrgPresetBody buf)).done

/-! ### Power fail and restore (R312 to R314) -/

/-- The local time of the last completed tick's boundary. -/
def State.lastTickTai (s : State) : Nat :=
  if s.fltRuns && s.nrg.next != 0 then s.t40At (s.nrgTickAt (s.nrg.next - 1)) / 2 ^ 40 else s.taiNs

/-- PFWN is accepted: accumulation halts and the last completed tick is saved. -/
def State.nrgPfAccept (s : State) : State :=
  if !s.flag F.NRG_CTRL_PF_EN || s.flag F.NRG_STAT_PFHOLD then s
  else
    let s := (s.setB F.NRG_STAT_PFHOLD true).modNrg fun n => { n with saveDue := none, preset := [] }
    let s := (s.endWaiting 0x51 St.aborted []).snapEnd true
    (s.nrgSave 1 s.lastTickTai s.tqByte true).ev0 Ev.NRG_PF_SAVED

/-- PFWN returns high with the rails up: accumulation resumes at the next boundary. -/
def State.nrgPfReturn (s : State) : State :=
  if !s.flag F.NRG_STAT_PFHOLD then s
  else
    let s := s.setB F.NRG_STAT_PFHOLD false
    let nx := if s.flag F.NRG_CTRL_EN && s.fltRuns then max s.nrg.next s.nrgAfter else s.nrg.next
    let n := nx - s.nrg.next
    ((s.modNrg fun x => { x with next := nx }).add F.NRG_CNT_PFTICK_COUNT n).ev Ev.NRG_PF_ABORT 0 [(32, n)]

/-- Values from a slot's bytes: registers and residue bits [47:40]. -/
def slotAcc (b : List Byte) : List (Nat × Nat) :=
  (List.range 288).foldl (fun m i => mstore 0 m i (le b (32 + 10 * i) 9 * 2 ^ 48 + le b (41 + 10 * i) 1 * 2 ^ 40)) []

/-- The restore after a SYS reset (R314). -/
def State.nrgRestore (s : State) : State :=
  match s.newestSlot with
  | some (_, b) =>
    let k := le b 3 1
    let s := (s.modNrg fun n => { n with acc := slotAcc b }).set F.NRG_SAVESEQ_SEQ (slotSeq b)
    let s := s.set F.NRG_STAT_SRC (if k == 1 then 2 else 1)
    if k == 1 then s else s.ev Ev.NRG_UNCONTROLLED_LOSS 0 [(64, le b 8 8), (48, le b 16 6), (32, le b 22 4)]
  | none =>
    match s.nrg.flash with
    | some b => ((s.modNrg fun n => { n with acc := slotAcc b }).set F.NRG_STAT_SRC 3).ev0 Ev.NRG_RESTORE_FLASH
    | none => (s.set F.NRG_STAT_SRC 0).ev0 Ev.NRG_RESTORE_NONE

/-- NRG_CTRL.EN rises: ticks whose boundary has passed are not accumulated. -/
def State.nrgEnable (s : State) : State :=
  if s.fltRuns then s.modNrg fun n => { n with next := max n.next s.nrgAfter } else s

/-- A dword of an energy value: 0 to 2 the register, 3 residue bits [47:16]. -/
def State.nrgDword (s : State) (i w : Nat) : Nat :=
  let a := s.nrgAcc i
  if w < 3 then a / 2 ^ (48 + 32 * w) % 2 ^ (if w == 2 then 8 else 32) else a / 2 ^ 16 % 2 ^ 32

/-! ### CAL_LOAD (R288, R306) -/

/-- A signed 32-bit field. -/
def leI32 (b : List Byte) (o : Nat) : Int := sext 32 (le b o 4)

/-- Is a GAIN float in 0.5 to 2.0. -/
def gainOk (x : Nat) : Bool := f32Le 0x3F000000 x && f32Le x 0x40000000

/-- Is a DELAY in range. -/
def delayOk (d : Int) : Bool := decide (d.natAbs ≤ 100000000)

/-- A TABLE 0 entry for a channel, or its status. -/
def calEntry (ch : Nat) (b : List Byte) : Nat ⊕ PmuCal :=
  let cur := decide (3 ≤ ch % 6)
  if !f32Finite (le b 0 4) || !f32Lt 0 (le b 0 4) || !gainOk (le b 4 4) || !delayOk (leI32 b 8) ||
      (cur && (!gainOk (le b 12 4) || !delayOk (leI32 b 16))) || !zeroAt b 20 12 then .inl St.badParam
  else .inr ⟨le b 0 4, le b 4 4, leI32 b 8, if cur then le b 12 4 else 0x3F800000, if cur then leI32 b 16 else 0⟩

/-- Points of a range at offset o, n in use; none where one is out of range. -/
def corrPts (b : List Byte) (o n : Nat) : Option (List NrgPt) :=
  let pts := (List.range n).map fun i => NrgPt.mk (le b (o + 8 * i) 2) (sext 16 (le b (o + 8 * i + 2) 2)) (le b (o + 8 * i + 4) 4)
  let asc := (pts.zip (pts.drop 1)).all fun p => decide (p.1.x < p.2.x)
  if asc && (pts.all fun p => decide (p.phi.natAbs ≤ 10000) && decide (3145728 ≤ p.gain) && decide (p.gain ≤ 5242880)) &&
      zeroAt b (o + 8 * n) (64 - 8 * n) then some pts else none

/-- A TABLE 1 entry for a channel, or its status. -/
def corrEntry (ch : Nat) (b : List Byte) : Nat ⊕ NrgCorr :=
  let cur := decide (3 ≤ ch % 6)
  let nl := le b 0 1
  let nh := le b 1 1
  if nl == 0 || (cur && nh == 0) then .inl St.badLength
  else if 8 < nl || (cur && decide (8 < nh)) || !zeroAt b 2 6 then .inl St.badParam
  else match corrPts b 8 nl, (if cur then corrPts b 72 nh else some []) with
    | some l, some h => .inr ⟨l, h⟩
    | _, _ => .inl St.badParam

/-- Reads COUNT entries of `size` bytes for channels from `first`; the first bad one answers its channel and status. -/
def readEntries {α : Type} (f : Nat → List Byte → Nat ⊕ α) (size first : Nat) (b : List Byte) : Nat → (Nat × Nat) ⊕ List (Nat × α)
  | 0 => .inr []
  | n + 1 => match readEntries f size first b n with
    | .inl e => .inl e
    | .inr l => match f (first + n) (bytesAt b (size * n) size) with
      | .inl st => .inl (first + n, st)
      | .inr v => .inr (l ++ [(first + n, v)])

/-- CAL_LOAD (0x49): body. -/
def calLoadBody (buf : HostRead) (p : List Byte) (s : State) : CmdRes :=
  let t := le p 16 1
  let first := le p 17 1
  let n := le p 18 1
  checked [(le p 8 8 % 8 != 0, St.badParam), (decide (1 < t), St.badParam), (decide (47 < first), St.badParam),
      (n == 0 || decide (48 < first + n), St.badLength), (!zeroAt p 19 5, St.badParam),
      (t == 1 && s.flag F.NRG_CTRL_PRESET_LOCK, St.denied), (s.cmd.prep.isSome, St.busy)] s
    (withBuf buf s fun b =>
      if t == 0 then match readEntries calEntry 32 first b n with
        | .inl e => ⟨e.2, toLe 2 e.1, s⟩
        | .inr l => ⟨St.ok, [], ({ s with pmu := { s.pmu with cal := l.foldl (fun x e => x.put e.1 e.2) s.pmu.cal } } : State).healAll 14 (l.map Prod.fst)⟩
      else match readEntries corrEntry 136 first b n with
        | .inl e => ⟨e.2, toLe 2 e.1, s⟩
        | .inr l => ⟨St.ok, [], (s.modNrg fun x => { x with corr := l.foldl (fun t e => t.put e.1 e.2) x.corr }).healAll 15 (l.map Prod.fst)⟩)

/-- CAL_LOAD (R288, R306). -/
def execCalLoad (r : Fn) (buf : HostRead) (s : State) : Result :=
  (s.plain r 0x49 24 false (fun _ => true) (calLoadBody buf)).done

end Sys2Proof.Machine
end

