-- ==== Sys2Proof/Machine/Restart.lean ====
section
/-!
DEFINITION. Sys2Proof/Machine/Restart.lean: resets and power states (R479, R480, R493 to R496), the watchdog (R492) and what a reset
leaves of the state (R19, R496).
-/
namespace Sys2Proof.Machine

/-- Changes the start-up state. -/
def State.modBoot (s : State) (f : Boot → Boot) : State := { s with boot := f s.boot }

/-- Is the unit running or in its start: are the core rails up. -/
def State.railsUp (s : State) : Bool :=
  match s.boot.phase with
  | .hold => false
  | .off => false
  | _ => true

/-- Does the firmware of the running image run its background work. -/
def State.running (s : State) : Bool :=
  match s.boot.phase with
  | .run => s.fwRuns && s.boot.restart.isNone
  | _ => false

/-! ### What a reset leaves -/

/-- Does a register keep its value over a SYS reset, or over a POR (R19)? The straps are kept until they are sampled anew (R34), the
fused SVN_MIN for ever. -/
def keptReg (por : Bool) (a : Nat) : Bool :=
  a == R.TOP_STRAPS || a == R.BOOT_SVN ||
    match rowOf a with
    | some r => decide (r.dom = .aon) || (!por && decide (r.dom = .por))
    | none => false

/-- The registers after a reset. -/
def State.wipedRegs (s : State) (por : Bool) : List (Nat × Dword) :=
  (s.regs.filter fun p => keptReg por p.1).foldl (fun m p => mput m p.1 p.2) (resetRegs.filter fun p => !keptReg por p.1)

/-- The newest mirror slot: no other's SEQ follows its own (R438, R443). -/
def State.newestMirror (s : State) : Option (Nat × Nat) :=
  let l := s.evr.mirror.map fun p => (p.1, le p.2.bytes 0 4)
  l.foldl (fun (m : Option (Nat × Nat)) p => match m with
    | none => some p
    | some q => if subMod 32 p.2 q.2 < 2 ^ 31 then some p else some q) none

/-- EVR_SEQ and EVR_MIRROR as a start finds them. -/
def State.mirrorSync (s : State) : State :=
  let s := s.set F.EVR_MIRROR_VALID s.evr.mirror.length
  match s.newestMirror with
  | none => s
  | some m => ((s.set F.EVR_SEQ_SEQ (m.2 + 1)).set F.EVR_OLDEST_SEQ (m.2 + 1)).set F.EVR_MIRROR_NEXT ((m.1 + 1) % 64)

/-- The registers that the always-on logic changes during HOLD (R436). -/
def State.irqRaises (s : State) : List (Nat × Dword) :=
  s.regs.filter fun p => (decide (R.IRQ_PEND ≤ p.1) && decide (p.1 < R.IRQ_PEND + 16)) ||
    (decide (R.IRQ_OCC ≤ p.1) && decide (p.1 < R.IRQ_OCC + 256))

/-- Boot state over a reset. -/
def Boot.wiped (b : Boot) (por : Bool) : Boot :=
  { b with
    phase := .reset, por := por, rstout := false, wdogAt := none, readyAt := none, staging := none, staged := [],
    running := [], inSlot := true, restart := none }

/-- The state that a SYS reset (por false) or a POR leaves (R19, R54, R457, R496): battery-backed memory, flash, pin levels and the AON domain
stay; the POR domain stays over a SYS reset, and with it a loss of the reference that is still going on (notes/assumptions/108.md). -/
def State.wipe (s : State) (por : Bool) : State :=
  let n := s.now
  let t : State := { State.reset with
    pending := s.pending
    regs := s.wipedRegs por
    freeCtr := s.freeCtr
    out := s.out
    tim := { Tim.reset with
      now := n, base := n, servoFrom := n, holdAt := n, uncAt := n, rtcBase := s.tim.rtcBase, rtcFrom := s.tim.rtcFrom }
    evr := { Evr.reset with mirror := s.evr.mirror }
    mac := { Mac.reset with supAt := n, pollAt := n }
    keys := { s.keys with slots := [], kprv := if por then none else s.keys.kprv, missLog := [] }
    ecc := { Ecc.reset with flashMap := s.ecc.flashMap, lapStart := n, visitAt := n }
    alm := { Alm.reset with inh := s.alm.inh }
    cas := { Cas.reset with fireHighAt := s.cas.fireHighAt, armOther := s.cas.armOther }
    twn := { Twn.reset with hbNext := n + 491520, witAt := n, syncAt := n }
    flt := { Flt.reset with lastSettle := n }
    nrg := { Nrg.reset with slots := s.nrg.slots, flash := s.nrg.flash, flashAt := s.nrg.flashAt }
    trg := { Trg.reset with trigi := s.trg.trigi }
    boot := s.boot.wiped por }
  let t := t.setB F.TIM_STAT_REF_LOST (t.flag F.TIM_PLL_STAT_REF_LOST)
  let t := (t.setB F.PWR_STAT_PFWN_LVL (if por then true else s.flag F.PWR_STAT_PFWN_LVL)).mirrorSync.keySync
  let t := if s.dbg.level == 0 then t else t.ev0 Ev.DBG_LOCK
  let t := s.dbg.cores.foldl (fun (t : State) (p : Nat × DbgCore) => if p.2.halted then t.ev0 Ev.DBG_RESUME else t) t
  if s.nrg.snap.isSome then t.ev Ev.NRG_SNAPSHOT 0 [(32, 1)] else t

/-- The causes of the coming start gather until the boot sequence has shown them. -/
def State.addCause (s : State) (bit_ : Nat) : State :=
  let pfw := if s.flag F.PWR_STAT_PFW then 64 else 0
  let old := match s.boot.phase with
    | .reset => s.boot.cause
    | _ => 0
  s.modBoot fun b => { b with cause := Nat.lor old (Nat.lor bit_ pfw) }

/-- A SYS reset by RSTN, the watchdog, MODE 2 or a quiesce timeout: bits [5:2] of CAUSE. It makes the interrupt retention record
invalid (R436). -/
def State.sysReset (s : State) (bit_ : Nat) : State :=
  let s := (s.drain.addCause bit_).modBoot fun b => { b with retain := none, holdIrq := [] }
  let came := match s.boot.phase with
    | .reset => s.boot.came
    | _ => 0
  (s.wipe false).modBoot fun b => { b with came := came, por := s.boot.por }

/-- SYS_RESET (R479, R386): RSTN falls. -/
def execSysReset (s : State) : Result := if s.railsUp then (s.gasp.sysReset 4).done else s.done

/-- RESTART_SYS (R479): RESTART_CONTROL MODE 2 checks. -/
def restartChecks (mode : Nat) (p : List Byte) (s : State) : List (Bool × Nat) :=
  [(decide (2 < le p 8 1), St.badParam), (!zeroAt p 9 7, St.badParam),
    ((mode == 1 && s.boot.hdr.stage != 1) || s.flag F.PWR_STAT_PFW || !s.flag F.BOOT_STAT_READY, St.state),
    (s.get F.UPD_STAT_STATE == 1 || s.get F.UPD_STAT_STATE == 3, St.busy)]

/-- RESTART_SYS (R479): RESTART_CONTROL MODE 2 writes no reply when it is accepted. -/
def State.restartSys (s : State) (r : Fn) : State :=
  match s.head r with
  | none => s
  | some b =>
    if pkOp b == 0x8B && le b 8 1 == 2 && decide (s.cmd.fly.length < 4) then
      let s := s.popHead r
      match stages15 r b 16 false with
      | some st => s.reply r b st 0 []
      | none => match firstFail (restartChecks 2 b s) with
        | some st => s.reply r b st 0 []
        | none => s.sysReset 16
    else s

/-- RESTART_SYS. -/
def execRestartSys (r : Fn) (s : State) : Result := (s.restartSys r).done

/-- EV_BOOT_WATCHDOG (R492): the count has run out. -/
def execEvBootWatchdog (s : State) : Result :=
  match s.boot.wdogAt with
  | none => s.done
  | some t =>
    let s := s.reach (t + ticksOfMs (s.get F.BOOT_WDOG_TMO_MS))
    ((s.ev0 Ev.BOOT_WATCHDOG).gasp.sysReset 8).done

/-- WATCHDOG_RESTART (R492): the firmware, or the boot ROM in recovery, restarts the count. -/
def execWatchdogRestart (s : State) : Result :=
  (if s.boot.wdogAt.isSome then s.modBoot fun b => { b with wdogAt := some s.now } else s).done

/-! ### The core rails and VBAT (R480) -/

/-- AON content is lost (R19, R480). -/
def State.aonLost (s : State) : State :=
  let regs := (s.regs.filter fun p => !((rowOf p.1).map fun r => decide (r.dom = .aon)).getD false)
  { s with
    regs := resetImageAon.foldl (fun m p => mput m p.1 p.2) regs
    tim := { s.tim with rtcBase := 0, rtcFrom := s.now }
    evr := { s.evr with mirror := [] }
    keys := { s.keys with slots := [], gens := [], rootA := none, rootB := none, activeB := false, kprv := none, upd := none, aonFrom := s.now, meshOn := [] }
    nrg := { s.nrg with slots := [] }
    boot := { s.boot with phase := .off, retain := none, holdIrq := [], came := 2 } }

/-- CORE_RAILS_DOWN (R480). What the core domains held is lost at once (notes/assumptions/81.md). -/
def execCoreRailsDown (vbatHolds : Bool) (s : State) : Result :=
  if s.railsUp then
    let n := s.now
    let pfw := s.flag F.PWR_STAT_PFW
    let s := ((s.drain.wipe true).modBoot fun b => { b with
      phase := .hold, holdAt := n, came := 1, cause := if pfw then 64 else 0, holdIrq := [] })
    (if vbatHolds then s else s.aonLost).done
  else s.done

/-- VBAT_LOSS (R480): in HOLD, VBAT falls below 1.5 V. -/
def execVbatLoss (s : State) : Result := (if s.inHold then s.aonLost else s).done

/-- POR_RESET (R479, R480): PORN, a core rail below its threshold, or the return of the core rails. -/
def execPorReset (s : State) : Result :=
  match s.boot.phase with
  | .hold =>
    let h := s.irqRaises
    let secs := min ((s.now - s.boot.holdAt) / 491520000) 0xFFFFFFFF
    let c := Nat.lor s.boot.cause 1
    (((s.wipe true).set F.PWR_HOLDTIME_S secs).modBoot fun b => { b with came := 1, cause := c, holdIrq := h }).done
  | .off =>
    -- nothing ran meanwhile: the coarse clock and the AON periods count from here
    let s := { s with tim := { s.tim with rtcBase := 0, rtcFrom := s.now }, keys := { s.keys with aonFrom := s.now } }
    ((s.wipe true).modBoot fun b => { b with came := 2, cause := 2 }).done
  | .reset => ((s.addCause 0).wipe true).done
  | _ => (((s.drain.addCause 0).wipe true).modBoot fun b => { b with came := 0, retain := none, holdIrq := [] }).done

/-! ### Power fail and quiesce (R493 to R495) -/

/-- The registers of the retention record (R436): routes, masks, coalescing settings, PEND and OCC. -/
def isRetained (a : Nat) : Bool :=
  (decide (R.IRQ_PEND ≤ a) && decide (a < R.IRQ_PEND + 16)) || (decide (R.IRQ_MASK ≤ a) && decide (a < R.IRQ_MASK + 16)) ||
    (decide (R.IRQ_ROUTE ≤ a) && decide (a < R.IRQ_ROUTE + 512)) || (decide (R.IRQ_COAL ≤ a) && decide (a < R.IRQ_COAL + 512)) ||
    (decide (R.IRQ_OCC ≤ a) && decide (a < R.IRQ_OCC + 256))

/-- Writes the retention record. A register that is not listed holds zero; masks are listed at their reset value of ones. -/
def State.retainIrq (s : State) : State :=
  let l := s.regs.filter fun p => isRetained p.1
  s.modBoot fun b => { b with retain := some l }

/-- Steps 1 to 4 of R493. -/
def State.powerFail (s : State) : State := ((s.nrgPfAccept.gasp).retainIrq).ev0 Ev.PWR_PFW

/-- PFWN_ACCEPT (R312, R493): PFWN has been low for 100 ns; only PF_EN = 1 accepts it. -/
def execPfwnAccept (s : State) : Result :=
  if !s.railsUp then s.done
  else
    let s := s.setB F.PWR_STAT_PFWN_LVL false
    if s.flag F.NRG_CTRL_PF_EN && !s.flag F.PWR_STAT_PFW then
      (((s.setB F.PWR_STAT_PFW true).inc F.PWR_CNT_PFW_COUNT).powerFail).done
    else s.done

/-- What ends with a power fail or a quiesce (R313, R494). -/
def State.powerBack (s : State) : State := (s.nrgPfReturn.modBoot fun b => { b with retain := none }).ev0 Ev.PWR_RESUME

/-- PFWN_RETURN (R494). -/
def execPfwnReturn (s : State) : Result :=
  if !s.railsUp then s.done
  else
    let was := s.flag F.PWR_STAT_PFW
    let s := (s.setB F.PWR_STAT_PFWN_LVL true).setB F.PWR_STAT_PFW false
    if !was then s.done
    else if s.flag F.PWR_STAT_QUIESCE then (s.ev0 Ev.PWR_RESUME).done
    else s.powerBack.done

/-- PWR_STATE (0x90): checks of both rows; the first answers a STATE out of range. -/
def pwrChecks (p : List Byte) (s : State) : List (Bool × Nat) :=
  let q := s.flag F.PWR_STAT_QUIESCE
  [(decide (1 < le p 8 1), St.badParam), (!zeroAt p 9 7, St.badParam),
    (s.flag F.PWR_STAT_PFW || (le p 8 1 == 1 && q) || (le p 8 1 == 0 && !q), St.state)]

/-- PWR_STATE with STATE 1: body (R495). -/
def pwrQuiesceBody (p : List Byte) (s : State) : CmdRes :=
  checked (pwrChecks p s) s
    (let t := (s.setB F.PWR_STAT_QUIESCE true).powerFail
     let t := (t.setB F.ING_CTRL_EN false).modBoot fun b => { b with rstout := false, quiesceAt := s.now }
     ⟨St.ok, [], t.ev0 Ev.PWR_QUIESCE⟩)

/-- PWR_QUIESCE. -/
def execPwrQuiesce (r : Fn) (s : State) : Result := (s.plain r 0x90 16 false (fun p => le p 8 1 != 0) pwrQuiesceBody).done

/-- PWR_STATE with STATE 0: body (R495, R494). -/
def pwrRunBody (p : List Byte) (s : State) : CmdRes :=
  checked (pwrChecks p s) s
    ⟨St.ok, [], ((s.setB F.PWR_STAT_QUIESCE false).modBoot fun b => { b with rstout := true }).powerBack⟩

/-- PWR_RUN. -/
def execPwrRun (r : Fn) (s : State) : Result := (s.plain r 0x90 16 false (fun p => le p 8 1 == 0) pwrRunBody).done

/-- QUIESCE_TIMEOUT (R495). -/
def execQuiesceTimeout (s : State) : Result :=
  let q := s.get F.PWR_CTRL_QTMO_S
  if s.flag F.PWR_STAT_QUIESCE && q != 0 then ((s.reach (s.boot.quiesceAt + ticksOfS q)).sysReset 32).done else s.done

end Sys2Proof.Machine
end

