-- ==== Sys2Proof/Machine/Cores.lean ====
section
/-!
DEFINITION. Sys2Proof/Machine/Cores.lean: the two control cores as the debug port sees them (R507, R508): halt, resume, step. What a
core's firmware executes is not modelled; its registers are open values whenever it has run.
-/
namespace Sys2Proof.Machine

/-- Changes the debug port. -/
def State.modDbg (s : State) (f : Dbg → Dbg) : State := { s with dbg := f s.dbg }

/-- A core's debug registers. -/
def State.dbgCore (s : State) (c : Nat) : DbgCore := mgetD s.dbg.cores c DbgCore.reset

/-- Changes a core's debug registers. -/
def State.modCore (s : State) (c : Nat) (f : DbgCore → DbgCore) : State :=
  s.modDbg fun d => { d with cores := mmod d.cores c DbgCore.reset f }

/-- Is either core halted. -/
def State.anyHalted (s : State) : Bool := (s.dbgCore 0).halted || (s.dbgCore 1).halted

/-- Does core c execute instructions: out of reset, and not between the steps of a hitless restart. -/
def State.coresUp (s : State) : Bool :=
  s.boot.restart.isNone && match s.boot.phase with
    | .run => true
    | .recovery => true
    | _ => false

/-- PC and the general registers of a core that has executed instructions are open values. -/
def State.coreRan (s : State) (c : Nat) : State :=
  let k := s.freeCtr
  let v (i : Nat) : Dword := BitVec.ofNat 32 (Config.free (k + i))
  ({ s with freeCtr := k + 33 } : State).modCore c fun x => { x with pc := v 32, gpr := (List.range 32).map fun i => (i, v i) }

/-- A core halts with a cause (bits of CAUSE): it is parked, the watchdog is held, and the halt is logged (R508, R509). -/
def State.haltOne (s : State) (c cause : Nat) : State :=
  if (s.dbgCore c).halted then s
  else
    let s := (s.coreRan c).modCore c fun x => { x with halted := true, cause := cause }
    ((s.park c true).modBoot fun b => { b with wdogAt := none }).ev Ev.DBG_HALT 0 [(4, cause)]

/-- A halt of core c, which runs, and of the other where XHALT is set (R507). The other core's cause is the request. -/
def State.haltCore (s : State) (c cause : Nat) : State :=
  if (s.dbgCore c).halted then s
  else
    let s := s.haltOne c cause
    if (s.dbgCore c).xhalt then s.haltOne (1 - c) 1 else s

/-- A halt request (R508): during a hitless restart it acts once that has ended. -/
def State.haltRequest (s : State) (c : Nat) : State :=
  if s.boot.restart.isSome then s.modDbg fun d => { d with haltLater := sadd d.haltLater c }
  else if s.coresUp then s.haltCore c 1 else s

/-- The halts asked for during a hitless restart, once step 6 of R490 is complete. -/
def State.haltWaiting (s : State) : State :=
  s.dbg.haltLater.foldl (fun s c => s.haltCore c 1) (s.modDbg fun d => { d with haltLater := [] })

/-- A core resumes; with both running the watchdog starts its full count (R508). -/
def State.resumeCore (s : State) (c : Nat) : State :=
  if (s.dbgCore c).halted then
    let s := s.modCore c fun x => { x with halted := false }
    let run := match s.boot.phase with
      | .run => true
      | _ => false
    let s := if run then s.park c false else s
    let s := if s.anyHalted then s else s.modBoot fun b => { b with wdogAt := some s.now }
    (s.ev0 Ev.DBG_RESUME).finalReplies
  else s

/-- A halted core executes one instruction and halts again with cause step, beside the causes that instruction has of its own (R507). -/
def State.stepCore (s : State) (c more : Nat) : State :=
  if (s.dbgCore c).halted then
    let s := ((s.coreRan c).modCore c fun x => { x with cause := 8 + more }).ev Ev.DBG_HALT 0 [(4, 8 + more)]
    if (s.dbgCore c).xhalt then s.haltOne (1 - c) 1 else s
  else s

/-- An enabled breakpoint (watch false) or watchpoint of a core (R507). -/
def DbgCore.armed (x : DbgCore) (watch : Bool) : Bool :=
  if watch then
    [0x44, 0x4C].any fun o => let v := (mgetD x.points o 0).toNat; bit v 0 && bits v 2 1 != 0
  else [0x20, 0x24, 0x28, 0x2C].any fun o => bit (mgetD x.points o 0).toNat 0

end Sys2Proof.Machine
end

