-- ==== Sys2Proof/Machine/Isl.lean ====
section
/-!
DEFINITION. Sys2Proof/Machine/Isl.lean: the island engine: its tables and their commands, the coherency test, components, island
events, alarms and records (R182 to R202).
-/
namespace Sys2Proof.Machine

/-- Changes the island engine's state. -/
def State.modIsl (s : State) (f : Isl → Isl) : State := { s with isl := f s.isl }

/-! ### Tables (TOPO_LOAD, PARTITION_EXPECT) -/

/-- A node entry. -/
def nodeOf (b : List Byte) : Node := ⟨le b 0 2, le b 2 1, le b 3 1⟩

/-- Is a node entry in range. -/
def nodeOk (b : List Byte) : Bool :=
  let n := nodeOf b
  decide (n.kind ≤ 2) && zeroAt b 4 4 &&
    (if n.kind == 1 then decide (n.sidx ≤ 8191) && decide (n.phidx ≤ 62) else n.sidx == 0 && n.phidx == 0)

/-- An edge entry. -/
def edgeOf (b : List Byte) : Edge :=
  let f := le b 16 2
  { a := le b 0 2, b := le b 2 2, fbound := le b 4 4, fhyst := le b 8 4, abound := le b 12 2, ahyst := le b 14 2,
    enable := bit f 0, gate := bit f 1, brk := bit f 2, pol := bit f 3, brkSidx := le b 18 2, brkWord := le b 20 1,
    brkBit := le b 21 1 }

/-- Is an edge entry in range. -/
def edgeOk (b : List Byte) : Bool :=
  let e := edgeOf b
  decide (e.a ≤ 8191) && decide (e.b ≤ 8191) && e.a != e.b && e.fbound != 0 && decide (e.fhyst < e.fbound) &&
    decide (1 ≤ e.abound) && decide (e.abound ≤ 32767) && decide (e.ahyst < e.abound) && decide (le b 16 2 ≤ 15) &&
    (e.brk || !e.gate) && (if e.brk then decide (e.brkSidx ≤ 8191) else e.brkSidx == 0) && decide (e.brkBit ≤ 15) &&
    zeroAt b 22 2

/-- TOPO_LOAD (0x30): checks before its first step. -/
def topoLoadCheck (p : List Byte) (s : State) : Option Nat :=
  let n := if le p 20 1 == 0 then 8192 else 32768
  firstFail [(le p 8 8 % 8 != 0, St.badParam), (le p 18 2 == 0, St.badLength), (decide (1 < le p 20 1), St.badParam),
    (decide (n < le p 18 2) || decide (n < le p 16 2 + le p 18 2), St.badParam), (!zeroAt p 21 3, St.badParam),
    (s.cmd.prep.isSome, St.busy)]

/-- One step: up to 1024 entries, read with the step; progress is the number written. -/
def topoLoadStep (buf : HostRead) (p : List Byte) (prog : List Nat) (s : State) : StepRes :=
  let done := (prog[0]?).getD 0
  let count := le p 18 2
  let n := min 1024 (count - done)
  let first := le p 16 2 + done
  match hostStatus buf with
  | some st => .final st [] s
  | none =>
    let go (s : State) : StepRes := if done + n < count then .more [done + n] s else .final St.ok [] s
    if le p 20 1 == 0 then
      let es := entriesOf 8 n (hostBytes buf)
      match firstBad nodeOk es with
      | some i => .final St.badParam (toLe 2 (first + i)) s
      | none =>
        let t := es.zipIdx.foldl (fun (t : Tbl Node) e => t.put (first + e.2) (nodeOf e.1)) s.isl.nodes
        go ((s.modIsl fun x => { x with nodes := t }).healAll 5 ((List.range es.length).map fun i => first + i))
    else
      let es := entriesOf 24 n (hostBytes buf)
      match firstBad edgeOk es with
      | some i => .final St.badParam (toLe 2 (first + i)) s
      | none =>
        let t := es.zipIdx.foldl (fun (t : Tbl Edge) e => t.put (first + e.2) (edgeOf e.1)) s.isl.edges
        go ((s.modIsl fun x => { x with edges := t }).healAll 6 ((List.range es.length).map fun i => first + i))

/-- TOPO_LOAD (R202). -/
def execTopoLoad (r : Fn) (buf : HostRead) (s : State) : Result :=
  (s.stepped r 0x30 24 topoLoadCheck (fun _ => [0]) (topoLoadStep buf)).done

/-- The expected partition of reset: every node has label 0, the reset value of ISL_LABEL.EXP. No GRP_j has a reset value: none names a
group (DESIGN CHOICE, notes/assumptions/57.md). -/
def Expect.reset : Expect := ⟨[], [], 0⟩

/-- GRP_j. -/
def Expect.grpOf (x : Expect) (j : Nat) : Nat := mgetD x.grp j 0x3FF

/-- The expected label of a node. -/
def Expect.labelOf (x : Expect) (v : Nat) : Nat := mgetD x.label v x.rest

/-- The image of MODE 0. -/
def expectOf (b : List Byte) : Expect :=
  { grp := (List.range 127).foldl (fun m j => mstore 0x3FF m j (le b (2 * j) 2)) []
    label := (List.range 8192).foldl (fun m v => mstore 0x7F m v (le b (256 + v) 1)) [], rest := 0x7F }

/-- Is the image in range. -/
def expectOk (b : List Byte) : Bool :=
  ((List.range 127).all fun j => grpOk (le b (2 * j) 2)) && zeroAt b 254 2 && (bytesAt b 256 8192).all fun x => decide (x.toNat ≤ 127)

/-- Island IDs of a label vector, ascending. -/
def islandIds (l : List (Nat × Nat)) : List Nat := l.foldl (fun a p => sadd a p.2) []

/-- The reported partition as an expected one: its islands numbered from 0 in ascending ID; a node in none is unconstrained. -/
def expectFrom (x : Expect) (part : List (Nat × Nat)) : Expect :=
  let ids := islandIds part
  { x with label := part.foldl (fun m p => mput m p.1 ((ids.idxOf? p.2).getD 0)) [], rest := 0x7F }

/-- PARTITION_EXPECT (0x31): body. -/
def partitionExpectBody (buf : HostRead) (p : List Byte) (s : State) : CmdRes :=
  let mode := le p 16 1
  let cur := mgetD s.isl.expect.shadow 0 Expect.reset
  let put (x : Expect) : CmdRes := ⟨St.ok, [], (s.modIsl fun i => { i with expect := i.expect.put 0 x }).healAll 7 [0]⟩
  checked [(decide (1 < mode), St.badParam), (mode == 0 && le p 8 8 % 8 != 0, St.badParam),
      (mode == 1 && le p 8 8 != 0, St.badParam), (!zeroAt p 17 7, St.badParam),
      (mode == 1 && !s.flag F.ISL_CTRL_EN, St.state), (s.cmd.prep.isSome, St.busy)] s
    (if mode == 0 then withBuf buf s fun b => if expectOk b then put (expectOf b) else CmdRes.fail St.badParam s
    else checked [(decide (127 < (islandIds s.isl.part).length), St.noResource)] s (put (expectFrom cur s.isl.part)))

/-- PARTITION_EXPECT (R195). -/
def execPartitionExpect (r : Fn) (buf : HostRead) (s : State) : Result :=
  (s.plain r 0x31 24 false (fun _ => true) (partitionExpectBody buf)).done

/-! ### Node values and histories (R184, R185) -/

/-- f_q of a frequency deviation: µHz, nearest with ties away from zero, saturated. -/
def fq (x : Nat) : Int :=
  let n := f32Units x * 1000000
  let r : Int := (n.natAbs + 2 ^ 148) / 2 ^ 149
  max (-2147483647) (min 2147483647 (if n < 0 then -r else r))

/-- The values of a present node: f_q, θ, UNAUTH. -/
structure NodeVal where
  f : Int
  th : Nat
  ua : Bool

/-- A measured node's values in a set; none where it is absent. -/
def State.nodeVal (s : State) (d : SetDesc) (v : Nat) (n : Node) : Option NodeVal :=
  if s.cramPoisoned 3 v then none
  else match s.setFreq d n.sidx false, s.setPhasor d n.sidx n.phidx with
    | some f, some p => some ⟨fq f.1, bangle p.1 p.2.1, f.2 || p.2.2⟩
    | _, _ => none

/-- A node's history. -/
def State.islHist (s : State) (v : Nat) : List (Option Nat) := mgetD s.isl.hist v []

/-- Enters the values of this run, after `gaps` absent positions. -/
def State.histPush (s : State) (gaps : Nat) (vals : List (Nat × Option NodeVal)) : State :=
  s.modIsl fun x => { x with
    hist := vals.foldl (fun m p =>
      mput m p.1 ((p.2.map NodeVal.th) :: (List.replicate (min gaps 33) none ++ mgetD m p.1 [])
        |>.take 33)) x.hist
    absent := vals.foldl (fun m p => mput m p.1 (if p.2.isSome then 0 else mgetD m p.1 0 + 1)) x.absent
    lost := vals.foldl (fun l p => if p.2.isSome then sdel l p.1 else l) x.lost
    present := (vals.filter fun p => p.2.isSome).map fun p => p.1 }

/-! ### Edges (R186 to R188) -/

/-- A new edge's state: HELD. -/
def EdgeSt.start : EdgeSt := ⟨true, false, none, 0, 0⟩

/-- The reading of an edge's breaker in a set, open or closed, with UNAUTH; none where it is unknown (R188). -/
def State.breaker (s : State) (d : SetDesc) (e : Edge) : Option (Bool × Bool) :=
  if !e.brk then none
  else match s.setRec d e.brkSidx with
    | none => none
    | some ws =>
      let sh := d.shape e.brkSidx
      if sh.2.2 ≤ e.brkWord || ws.any (fun w => w.poison) then none
      else match ws[2 + sh.1 + 1 + (sh.2.1 + 1) / 2 + e.brkWord / 4]? with
        | none => none
        | some w =>
          let lo := 56 - 16 * (e.brkWord % 4)
          some (bit w.v.toNat (lo + e.brkBit) != e.pol, bit w.v.toNat 4)

/-- Angle of a node D positions before this run. -/
def State.thOld (s : State) (v D : Nat) : Option Nat := ((s.islHist v)[D]?).getD none

/-- What the coherency test gives (R186): hold_ok, rejoin_ok, df, |drift|; none where it is unknown. -/
def State.coherency (s : State) (vals : List (Nat × Option NodeVal)) (D : Nat) (e : Edge) : Option (Bool × Bool × Nat × Nat) :=
  match (mget vals e.a).getD none, (mget vals e.b).getD none, s.thOld e.a D, s.thOld e.b D with
  | some x, some y, some oa, some ob =>
    let df := min (x.f - y.f).natAbs 0xFFFFFFFF
    let now := subMod 16 x.th y.th
    let old := subMod 16 oa ob
    let adr := (sext 16 (subMod 16 now old)).natAbs
    some (decide (df < e.fbound) && decide (adr < e.abound),
      decide (df < e.fbound - e.fhyst) && decide (adr < e.abound - e.ahyst), df, adr)
  | _, _, _, _ => none

/-- One edge's update (R187): its new state, whether its evaluation was unknown, and UNAUTH of what it used. -/
def State.edgeStep (s : State) (d : SetDesc) (vals : List (Nat × Option NodeVal)) (D k : Nat) (e : Edge) :
    EdgeSt × Bool × Bool :=
  let st := mgetD s.isl.est k EdgeSt.start
  if s.cramPoisoned 4 k then ({ st with unknown := true }, true, false)
  else
    let b := s.breaker d e
    let st := { st with brk := b.map Prod.fst }
    let ua := (b.map Prod.snd).getD false
    let kind (v : Nat) : Nat := ((mget s.isl.nodes.eff v).map fun n => n.kind).getD 0
    let open_ : Bool := (b.map Prod.fst).getD false
    if kind e.a == 1 && kind e.b == 1 then
      match s.coherency vals D e with
      | none => ({ st with unknown := true, held := st.held && !(e.gate && open_) }, true, ua)
      | some t =>
        let held := if e.gate && open_ then false else if st.held then t.1 else t.2.1
        ({ st with unknown := false, held := held, df := t.2.2.1, adr := t.2.2.2 }, false, ua)
    else if !e.brk then ({ st with unknown := false, held := true }, false, ua)
    else match b with
      | none => ({ st with unknown := true }, true, ua)
      | some x => ({ st with unknown := false, held := !x.1 }, false, ua)

/-! ### Components (R189, R190) -/

/-- What the hook phase writes, by label: every held edge reads the labels as they stand; of several writes to one label the least
wins. -/
def hookWrites (lab : List (Nat × Nat)) (held : List (Nat × Nat)) : List (Nat × Nat) :=
  held.foldl (fun ws e =>
    let ra := mgetD lab e.1 e.1
    let rb := mgetD lab e.2 e.2
    if ra == rb then ws else mput ws (max ra rb) (min (mgetD ws (max ra rb) (min ra rb)) (min ra rb))) []

/-- The hook phase. -/
def hook (lab : List (Nat × Nat)) (held : List (Nat × Nat)) : List (Nat × Nat) :=
  let ws := hookWrites lab held
  lab.map fun p => (p.1, mgetD ws p.1 p.2)

/-- The jump phase. -/
def jump (lab : List (Nat × Nat)) : List (Nat × Nat) := lab.map fun p => (p.1, mgetD lab p.2 p.2)

/-- Label propagation with pointer jumping: the labels and the number of rounds. -/
def components (held : List (Nat × Nat)) : Nat → Nat → List (Nat × Nat) → List (Nat × Nat) × Nat
  | 0, n, lab => (lab, n)
  | fuel + 1, n, lab =>
    let h := hook lab held
    let j := jump h
    if (hookWrites lab held).isEmpty && j == h then (lab, n + 1) else components held fuel (n + 1) j

/-! ### The reported partition: alarms and classes (R195, R196) -/

/-- Members of an island. -/
def membersOf (part : List (Nat × Nat)) (id : Nat) : List Nat := (part.filter fun p => p.2 == id).map fun p => p.1

/-- Expected labels, other than 0x7F, that an island's nodes carry. -/
def Expect.labelsIn (x : Expect) (ms : List Nat) : List Nat :=
  ms.foldl (fun l v => let j := x.labelOf v; if j == 0x7F then l else sadd l j) []

/-- Islands in which the nodes labelled j lie. -/
def islandsOf (x : Expect) (part : List (Nat × Nat)) (j : Nat) : List Nat :=
  part.foldl (fun l p => if x.labelOf p.1 == j then sadd l p.2 else l) []

/-- The class of an island and its CUT_CLOSED (R196). -/
def State.islClass (s : State) (x : Expect) (id : Nat) : Nat × Bool :=
  let part := s.isl.part
  let ms := membersOf part id
  let labs := x.labelsIn ms
  let cut := s.isl.edges.eff.filterMap fun p =>
    let e := p.2
    match mget part e.a, mget part e.b with
    | some ia, some ib =>
      if e.enable && ia != ib && (ia == id || ib == id) && x.labelOf e.a == x.labelOf e.b && x.labelOf e.a != 0x7F then
        some ((mget s.isl.est p.1).bind fun t => t.brk)
      else none
    | _, _ => none
  let closed := cut.contains (some false)
  let open_ := cut.contains (some true)
  let whole := match labs with
    | [] => true
    | j :: _ => part.all fun p => x.labelOf p.1 != j || p.2 == id
  (if 2 ≤ labs.length then 3 else if whole then 0 else if open_ then 1 else 2, closed)

/-- The largest of the islands given, by the size `size` gives; of equal ones the lowest ID. -/
def largest (size : Nat → Nat) : List Nat → Option Nat
  | [] => none
  | i :: t => match largest size t with
    | none => some i
    | some j => if size j ≤ size i then some i else some j

/-- Alarm keys: split alarms by label, the merge alarm. -/
def splitKey (j : Nat) : Nat := almKey 2 j
/-- The merge alarm's key. -/
def mergeKey : Nat := almKey 2 127

/-- CAUSE of a raise from the class of the largest piece. -/
def causeOfClass (c : Nat) : Nat := if c == 1 then 0 else if c == 3 then 4 else 1

/-- A raise or clear of the island engine: its event, the alarm, and the transition. -/
def State.islAlarm (s : State) (key : Nat) (raised : Bool) (grp : Nat) : State :=
  if raised then (s.almSet key grp).ev0 Ev.ISL_ALARM_RAISE else (s.almClear key).ev0 Ev.ISL_ALARM_CLEAR

/-- Evaluates both alarms against P (R195); `reconf` gives CAUSE 3. Answers the transitions in order. -/
def State.islAlarms (s : State) (x : Expect) (cls : List (Nat × (Nat × Bool))) (reconf : Bool) (fl : Nat) : State × List Trans :=
  let part := s.isl.part
  let size (i : Nat) : Nat := (membersOf part i).length
  let cutOf (is : List Nat) : Nat := 8 * b2n (is.any fun i => (mgetD cls i (0, false)).2)
  let r := (List.range 127).foldl (fun (acc : State × List Trans) j =>
    let is := islandsOf x part j
    let now := decide (2 ≤ is.length)
    let was := mget acc.1.alm.act (splitKey j)
    let g := x.grpOf j
    let big := largest (fun i => ((membersOf part i).filter fun v => x.labelOf v == j).length) is
    let f := fl + cutOf is
    match was, now with
    | none, true =>
      let c := if reconf then 3 else causeOfClass (((big.bind fun i => mget cls i).map fun c => c.1).getD 2)
      (acc.1.islAlarm (splitKey j) true g, acc.2 ++ [⟨0, 1, j, g, c, is.length, f⟩])
    | some og, false =>
      (acc.1.islAlarm (splitKey j) false og, acc.2 ++ [⟨0, 0, j, og, if reconf then 3 else 2, is.length, f⟩])
    | some _, true => (acc.1.almSet (splitKey j) g, acc.2)
    | none, false => acc) (s, [])
  let ids := islandIds part
  let merged := ids.filter fun i => decide (2 ≤ (x.labelsIn (membersOf part i)).length)
  let mg := s.get F.ISL_ALMGRP_MERGE_GRP
  let n := ((largest size merged).map fun i => (x.labelsIn (membersOf part i)).length).getD 0
  let f := fl + cutOf merged
  match mget r.1.alm.act mergeKey, !merged.isEmpty with
  | none, true => (r.1.islAlarm mergeKey true mg, r.2 ++ [⟨1, 1, 0, mg, if reconf then 3 else 4, n, f⟩])
  | some og, false => (r.1.islAlarm mergeKey false og, r.2 ++ [⟨1, 0, 0, og, if reconf then 3 else 2, n, f⟩])
  | _, _ => r

/-- Is either alarm active. -/
def State.islDiffers (s : State) : Bool := s.alm.act.any fun p => p.1 / 2 ^ 20 == 2

/-! ### Records (R197 to R201) -/

/-- An island's mean frequency deviation as a float, NaN with no present measured member. -/
def meanFreq (vals : List (Nat × Option NodeVal)) (ms : List Nat) : Nat × Bool :=
  let fs := ms.filterMap fun v => ((mget vals v).getD none).map NodeVal.f
  if fs.isEmpty then (f32NaN, true)
  else (f32Round ((fs.foldl (· + ·) 0).tdiv fs.length) 1000000, false)

/-- Membership words of an island. -/
def memberWords (ms : List Nat) : List Nat :=
  (List.range (ceilDiv ms.length 5)).map fun i =>
    let five := (ms.drop (5 * i)).take 5
    let slot (k : Nat) : Nat := (five[k]?).getD 0
    slot 0 * 2 ^ 59 + slot 1 * 2 ^ 46 + slot 2 * 2 ^ 33 + slot 3 * 2 ^ 20 + slot 4 * 2 ^ 7 + five.length * 2 ^ 4

/-- Of the islands given in order, those listed before the next would pass `max` nodes. -/
def listable (size : Nat → Nat) (max : Nat) : List Nat → Nat → List Nat
  | [], _ => []
  | i :: t, n => if n + size i ≤ max then i :: listable size max t (n + size i) else []

/-! ### The run (R190 to R202) -/

/-- Registers marked "epoch" written for the epochs from after `old` through `tag`. -/
def State.epochWrites (s : State) (old tag : Nat) : List Nat :=
  ((s.cmd.ewrit.dropWhile fun e => e.1 != tag).takeWhile fun e => e.1 != old).flatMap fun e => e.2

/-- New tables are taken up (R202). Answers whether a shadowed item was written. -/
def State.islBoundary (s : State) (tag : Nat) : State × Bool :=
  let kn := s.isl.nodes.dueKeys tag
  let ke := s.isl.edges.dueKeys tag
  let kx := s.isl.expect.dueKeys tag
  let regs := if s.isl.epoch == tag then []
    else (s.epochWrites s.isl.epoch tag).filter fun a => a == R.ISL_PERSIST || a == R.ISL_DRIFT
  let s := s.modIsl fun x => { x with
    nodes := x.nodes.takeThrough tag, edges := x.edges.takeThrough tag, expect := x.expect.takeThrough tag, epoch := tag
    hist := kn.foldl (fun m v => merase m v) x.hist, absent := kn.foldl (fun m v => merase m v) x.absent
    lost := kn.foldl (fun l v => sdel l v) x.lost, est := ke.foldl (fun m k => merase m k) x.est }
  let s := kn.foldl (fun s v => s.heal 3 v) s
  let s := ke.foldl (fun s k => s.heal 4 k) s
  let used (v : Nat) : Bool := ((mget s.isl.nodes.eff v).map fun n => n.kind != 0).getD false
  let orphans := (s.isl.edges.eff.filter fun p => p.2.enable && !(used p.2.a && used p.2.b)).map fun p => p.1
  let s := orphans.foldl (fun s k => (s.modIsl fun x =>
    let e := (mget x.edges.eff k).map fun (e : Edge) => { e with enable := false }
    match e with
    | none => x
    | some e => { x with edges := { x.edges with eff := mput x.edges.eff k e } }).ev0 Ev.ISL_EDGE_ORPHAN) s
  (s, !(kn.isEmpty && ke.isEmpty && kx.isEmpty && regs.isEmpty))

/-- Edges and nodes whose own state was lost start at their start values (R455): HELD, no history. Answers whether there was one. -/
def State.islLost (s : State) : State × Bool :=
  let ke := s.stateLost 34 (s.isl.edges.eff.map fun p => p.1)
  let kn := s.stateLost 35 (s.isl.nodes.eff.map fun p => p.1)
  let s := s.modIsl fun x => { x with
    est := ke.foldl (fun m k => merase m k) x.est
    hist := kn.foldl (fun m v => merase m v) x.hist, absent := kn.foldl (fun m v => merase m v) x.absent }
  let s := ke.foldl (fun s k => s.heal 34 k) s
  (kn.foldl (fun s v => s.heal 35 v) s, !(ke.isEmpty && kn.isEmpty))

/-- A whole run on a set. -/
def State.islRun (s : State) (d : SetDesc) : State :=
  let skipped := s.afterSkip 1 d
  let bd := s.islBoundary d.epoch
  let lost := bd.1.islLost
  let s := lost.1
  let reconf := bd.2
  let x := mgetD s.isl.expect.eff 0 Expect.reset
  let D := s.egetAt d.epoch F.ISL_DRIFT_D
  -- values and edges
  let used := s.isl.nodes.eff.filter fun p => p.2.kind != 0
  let vals := (used.filter fun p => p.2.kind == 1).map fun p => (p.1, s.nodeVal d p.1 p.2)
  let s := (s.histPush (s.isl.gapN + d.lead + d.gap) vals).modIsl fun i => { i with gapN := 0 }
  let steps := (s.isl.edges.eff.filter fun p => p.2.enable).map fun p => (p.1, p.2, s.edgeStep d vals D p.1 p.2)
  let s := s.modIsl fun i => { i with est := steps.foldl (fun m p => mput m p.1 p.2.2.1) i.est }
  let nunk := (steps.filter fun p => p.2.2.2.1).length
  let s := s.add F.ISL_CNT_UNKNOWN_COUNT nunk
  let ua := steps.any (fun p => p.2.2.2.2) || vals.any fun p => (p.2.map NodeVal.ua).getD false
  let held := (steps.filter fun p => p.2.2.1.held).map fun p => (p.2.1.a, p.2.1.b)
  -- components
  let comp := components held (used.length + 2) 0 (used.map fun p => (p.1, p.1))
  let c := comp.1
  let s := if s.get F.ISL_ROUNDMAX_ROUNDS < comp.2 then s.set F.ISL_ROUNDMAX_ROUNDS (min comp.2 31) else s
  -- comparison
  let was := s.isl.part
  let same := s.isl.cand == some c
  let pcnt := if same then min (s.isl.pcnt + 1) 63 else 1
  let differs := c != was
  let pend := if differs then (if same then s.isl.pend + 1 else 1) else 0
  let diff := if differs then s.isl.diff + 1 else 0
  let maxw := s.egetAt d.epoch F.ISL_PERSIST_MAXWAIT
  let settled := differs && decide (s.egetAt d.epoch F.ISL_PERSIST_PERSIST ≤ pend)
  let unsettled := differs && !settled && maxw != 0 && decide (maxw ≤ diff)
  let event := !reconf && (settled || unsettled)
  let adopt := reconf || event
  let s := s.modIsl fun i => { i with
    cand := some c, pcnt := pcnt, pend := if adopt then 0 else pend, diff := if adopt then 0 else diff
    part := if adopt then c else was }
  let s := if event then (s.inc F.ISL_EVNO_COUNT).ev0 Ev.ISL_EVENT else s
  let s := if event && unsettled then (s.inc F.ISL_CNT_UNSETTLED_COUNT).ev0 Ev.ISL_UNSETTLED else s
  let s := if reconf then s.ev0 Ev.ISL_RECONF else s
  -- classes
  let ids := islandIds s.isl.part
  let cls := ids.map fun i => (i, s.islClass x i)
  let changed := (cls.filter fun p => match mget s.isl.cls p.1 with
    | some o => o != p.2
    | none => false).length
  let s := (List.range changed).foldl (fun s _ => s.ev0 Ev.ISL_CLASS) s
  let s := s.modIsl fun i => { i with cls := cls }
  -- alarms
  let fl := s.transFlags d.tq + 2 * b2n ua + 16 * b2n (event && unsettled)
  let al := if adopt then s.islAlarms x cls reconf fl else (s, [])
  let s := al.1
  let evno := s.get F.ISL_EVNO_COUNT
  let anyCut := 8 * b2n (cls.any fun p => p.2.2)
  let notice : List Trans := if event then [⟨2, 0, ids.length, 0x3FF, 0, evno, fl + anyCut⟩] else []
  let trans := notice ++ al.2
  -- the result packet
  let part := s.isl.part
  let size (i : Nat) : Nat := (membersOf part i).length
  let maxI := s.get F.ISL_RECMAX_ISLANDS
  let maxM := s.get F.ISL_RECMAX_MEMBERS
  let shown := ids.take maxI
  let memb := s.get F.ISL_CTRL_MEMB
  let doMemb := memb == 2 || (memb != 0 && adopt)
  let cand := if doMemb then shown.filter fun i => some i != largest size ids else []
  let listed := listable size maxM cand 0
  let trunc := decide (maxI < ids.length) || decide (listed.length < cand.length)
  let word (i : Nat) : Nat :=
    let m := meanFreq vals (membersOf part i)
    let k := mgetD cls i (0, false)
    let new := event && membersOf was i != membersOf part i
    i * 2 ^ 59 + size i % 2 ^ 14 * 2 ^ 45 + x.labelOf i % 128 * 2 ^ 38 + m.1 * 2 ^ 6 + k.1 * 2 ^ 4 +
      8 * b2n (listed.contains i) + 4 * b2n k.2 + 2 * b2n m.2 + b2n new
  let nabs := (vals.filter fun p => p.2.isNone).length
  let nbrk := (steps.filter fun p => !p.2.2.1.held).length
  let flags := b2n event + 2 * b2n skipped + 4 * b2n reconf + 8 * b2n (event && unsettled) + 16 * b2n s.islDiffers +
    32 * b2n (!listed.isEmpty) + 64 * b2n trunc + 128 * b2n (nunk != 0 || lost.2)
  let p0 := ids.length % 2 ^ 14 * 2 ^ 58 + (islandIds c).length % 2 ^ 14 * 2 ^ 44 + nabs % 2 ^ 14 * 2 ^ 30 + min nbrk 65535 * 2 ^ 14 +
    pcnt * 2 ^ 8 + flags
  let nsplit := ((List.range 127).filter fun j => (mget s.alm.act (splitKey j)).isSome).length
  let nmerge := (ids.filter fun i => decide (2 ≤ (x.labelsIn (membersOf part i)).length)).length
  let p1 := evno * 2 ^ 40 + nsplit * 2 ^ 24 + min nmerge 65535 * 2 ^ 8
  let words := [p0, p1] ++ shown.map word ++ listed.flatMap fun i => memberWords (membersOf part i)
  let s := if trunc then s.ev0 Ev.ISL_TRUNC else s
  let arr := shortStamp s.taiNs
  let tr := if trans.isEmpty then [] else alarmRecs 2 1 arr d.soc d.ns d.tq (trans.map Trans.word)
  let s := (s.publish tr 3 (alarmRecs 2 0 arr d.soc d.ns d.tq words)).inc F.ISL_RUNS_COUNT
  (s.runEnd 1 d F.ISL_RUNMAX_CLK ((ids.map word).map sword)).raise 43

/-- ISL_ENGINE_RUN (R190). -/
def execIslEngineRun (s : State) : Result :=
  let r := s.engineTake 1
  match r.1 with
  | none => r.2.done
  | some d => (r.2.islRun d).done

/-- EV_ISL_NODE_LOST (R197): a measured node has been absent for ISL_LOST.N consecutive runs. -/
def execEvIslNodeLost (node : Nat) (s : State) : Result :=
  let n := s.get F.ISL_LOST_N
  if n != 0 && decide (n ≤ mgetD s.isl.absent node 0) && !smem s.isl.lost node then
    ((s.modIsl fun x => { x with lost := sadd x.lost node }).ev0 Ev.ISL_NODE_LOST).done
  else s.done

end Sys2Proof.Machine
end

