-- ==== Sys2Proof/Machine/MacRx.lean ====
section
/-!
DEFINITION. Sys2Proof/Machine/MacRx.lean: a frame received by a port: length, FCS, buffer, address, VLAN and PRP checks, and dispatch
(R341 to R347, R352, R359, R367 to R369).
-/
namespace Sys2Proof.Machine

/-! ### Filters (R344, R352) -/

/-- Is the address an entry of port p's multicast filter. -/
def State.mcfHas (s : State) (p mac : Nat) : Bool :=
  (List.range 64).any fun i =>
    s.flag ((pfld F.MAC_MCF_HI_P_VALID p).at (8 * i)) &&
      s.get ((pfld F.MAC_MCF_LO_P_ADDR p).at (8 * i)) + 2 ^ 32 * s.get ((pfld F.MAC_MCF_HI_P_ADDR p).at (8 * i)) == mac

/-- The address filter (R344, R391). -/
def State.addrPass (s : State) (p dst : Nat) : Bool :=
  dst == s.portMac p || dst == 2 ^ 48 - 1 || s.mcfHas p dst || ((dst == macPdelay || dst == macPtp) && s.ptpNamed p) ||
    (dst == macSup && s.prpOn p) || dst == macPause ||
    (s.outShared p && dst == s.get64 R.TWN_SHARED_MAC_LO R.TWN_SHARED_MAC_HI % 2 ^ 48)

/-- Is the VID in port p's filter. -/
def State.vidHas (s : State) (p vid : Nat) : Bool :=
  (List.range 8).any fun n =>
    let f (x : Fld) : Fld := (pfld x p).at (4 * n)
    (s.flag (f F.MAC_VIDF_P_V0) && s.get (f F.MAC_VIDF_P_VID0) == vid) ||
      (s.flag (f F.MAC_VIDF_P_V1) && s.get (f F.MAC_VIDF_P_VID1) == vid)

/-- Does the port take the frame by its VLAN tag (R352). -/
def State.vlanPass (s : State) (p : Nat) (f : List Byte) : Bool :=
  let vid := be f 14 2 % 4096
  if be f 12 2 == 0x8100 && vid != 0 then s.vidHas p vid else s.flag (pfld F.MAC_CTRL_P_ACCEPT_UNTAGGED p)

/-! ### PRP on receive (R367, R368) -/

/-- A frame's trailer, if it is valid: SeqNr and LanId. -/
def prpRead (f : List Byte) : Option (Nat × Nat) :=
  let n := f.length
  let start := if be f 12 2 == 0x8100 then 16 else 14
  if start + 6 ≤ n && be f (n - 2) 2 == 0x88FB && be f (n - 4) 2 % 4096 == (n - start) % 4096 then
    some (be f (n - 6) 2, be f (n - 4) 2 / 4096)
  else none

/-- Frame without VLAN tag. -/
def untag (f : List Byte) : List Byte := if be f 12 2 == 0x8100 then f.take 12 ++ f.drop 16 else f

/-- Changes the ports' common state. -/
def State.modMac (s : State) (f : Mac → Mac) : State := { s with mac := f s.mac }

/-- A trailer for another LAN: counted, logged once per 1 s. -/
def State.wrongLan (s : State) (p : Nat) : State :=
  let s := s.macInc p 25
  if ((s.port p).wrongLanLog.map fun t => s.passed t (ticksOfS 1)).getD true then
    (s.modPort p fun x => { x with wrongLanLog := some s.now }).ev0 Ev.MAC_PRP_WRONGLAN
  else s

/-- Duplicate discard: answers whether the frame is passed on. -/
def State.prpDup (s : State) (p src seq : Nat) : State × Bool :=
  let mine (e : PrpEntry) : Bool := e.src == src && e.seq == seq
  match s.mac.prp.find? mine with
  | none =>
    let s := if 4096 ≤ s.mac.prp.length then (s.modMac fun m => { m with prp := m.prp.drop 1 }).macInc 0 28 else s
    (s.modMac fun m => { m with prp := m.prp ++ [⟨src, seq, p, s.now⟩] }, true)
  | some e =>
    let young := decide (s.now < e.at_ + ticksOfMs (s.get F.MAC_PRP_FORGET_MS))
    if young && e.lan != p then (s.macInc p 24, false)
    else
      let s := if e.lan == p then s.macInc p 26 else s
      let s := if young then s else s.modMac fun m => { m with prp := (m.prp.erase e) ++ [⟨src, seq, p, s.now⟩] }
      (s, true)

/-! ### Pause on receive (R359, R360) -/

/-- Quanta of the pause in force that have been honoured by now. -/
def State.pauseUsed (s : State) (p : Nat) : Nat :=
  match (s.port p).pause with
  | none => 0
  | some (t, q, _) => min q ((s.now - t) / max (s.bitTicks p 512) 1)

/-- The pause in force ends now. -/
def State.pauseEnd (s : State) (p : Nat) : State :=
  let s := s.add (macCnt p 9) (s.pauseUsed p)
  (s.modPort p fun x => { x with pause := none, pausedSince := none }).setB (pfld F.MAC_STAT_P_PAUSED p) false

/-- A pause whose time is over no longer holds the port, whether or not PAUSE_TIME_END has come (R359). -/
def State.pauseLapse (s : State) (p : Nat) : State :=
  match (s.port p).pause with
  | some (_, _, e) => if e ≤ s.now then s.pauseEnd p else s
  | none => s

/-- A pause frame arrives. -/
def State.pauseRx (s : State) (p quanta : Nat) : State :=
  let s := (s.macInc p 16).pauseLapse p
  if s.halfDuplex p || s.flag (pfld F.MAC_STAT_P_PAUSE_DEFEAT p) then s
  else if quanta == 0 then s.pauseEnd p
  else
    let since := ((s.port p).pausedSince).getD s.now
    let s := s.pauseEnd p
    (s.modPort p fun x => { x with
      pause := some (s.now, quanta, s.now + s.bitTicks p (512 * quanta)), pausedSince := some since }).setB
      (pfld F.MAC_STAT_P_PAUSED p) true

/-! ### Dispatch (R344) -/

/-- The UDP destination port by which an IP packet is dispatched; none without a UDP header there. -/
def dispatchPort (et : Nat) (p : List Byte) : Option Nat :=
  if et == 0x0800 then
    if le p 9 1 == 17 && be p 6 2 % 0x2000 == 0 then some (be p (le p 0 1 % 16 * 4 + 2) 2) else none
  else
    let u := ip6Upper p 64 (le p 6 1) 40
    if u.1 == 17 then some (be p (u.2 + 2) 2) else none

/-- Is an IPv6 packet a neighbour solicitation. -/
def isSolicit (p : List Byte) : Bool := le p 0 1 / 16 == 6 && le p 6 1 == 58 && le p 40 1 == 135

/-- PTP frames of which no command of the firmware is left to speak are taken at once while the firmware runs
(notes/assumptions/65.md). -/
def State.fwTake (s : State) : State :=
  if s.fwRuns then
    { s with ing := { s.ing with fwq := s.ing.fwq.filter fun f => !((f.kind == 2 || f.kind == 3) && le f.bytes 14 1 % 16 != 2) } }
  else s

/-- A datagram joins those waiting for ingest: behind every one complete earlier, and of those complete at the same tick in the order of the
ports (R82). -/
def rxInsert (d : RxDatagram) : List RxDatagram → List RxDatagram
  | [] => [d]
  | x :: t => if x.tick == d.tick && decide (d.port < x.port) then d :: x :: t else x :: rxInsert d t

/-- A PTP frame: an event message is time-stamped (R63, R64); `tagged` says that it had a VLAN tag, which the firmware accepts as PTP_CFG
says (R59). -/
def State.ptpRx (s : State) (p arrival : Nat) (tagged : Bool) (f : List Byte) : State :=
  let ty := le f 14 1 % 16
  let r := if ty < 4 then s.tsqPush p ⟨arrival, false, ty, le f 18 1, be f 44 2⟩ else (s, true)
  (r.1.toFw ⟨p, if tagged then 3 else 2, arrival, !r.2, f⟩).fwTake

/-- A frame that has passed the filters, without tag and trailer; `tagged` says that it had a tag. -/
def State.dispatch (s : State) (p arrival : Nat) (tagged : Bool) (f : List Byte) : State :=
  let b := f.drop 14
  let src := be f 6 6
  match be f 12 2 with
  | 0x0800 | 0x86DD =>
    if ((dispatchPort (be f 12 2) b).map fun d => (s.udpListed d).isSome).getD false then
      { s with ing := { s.ing with rxq := rxInsert ⟨p, s.now, arrival, b⟩ s.ing.rxq } }
    else (s.toFw ⟨p, if isSolicit b then 1 else if isMcQuery (be f 12 2) b then 5 else 0, arrival, false, b⟩).mcAnswer
  | 0x0806 => s.toFw ⟨p, 1, arrival, false, b⟩
  | 0x88F7 => s.ptpRx p arrival tagged f
  | 0x88B5 =>
    if be b 0 2 == 0x4344 then s.modCas fun c => { c with rxq := c.rxq ++ [(p, (arrival / 2 ^ 40, (src, b)))] }
    else if be b 0 2 == 0x4457 then s.twinFrame p src b
    else s.macInc p 11
  | 0x8808 => if be b 0 2 == 1 then s.pauseRx p (be b 2 2) else s.macInc p 11
  | 0x88FB => if s.prpOn p then s.macInc p 27 else s.macInc p 11
  | _ => s.macInc p 11

/-- A frame that has passed the address and VLAN filters: trailer, witness, duplicates, dispatch (R367, R368, R377). -/
def State.afterFilters (s : State) (p arrival : Nat) (f : List Byte) : State :=
  let tr := if s.prpOn p then prpRead f else none
  let g := untag (if tr.isSome then f.take (f.length - 6) else f)
  let src := be g 6 6
  let tagged := be f 12 2 == 0x8100
  let s := if be g 12 2 == 0x88B5 && be g 14 2 == 0x4457 then s.twinWitness p src (g.drop 14) else s
  match tr with
  | none => s.dispatch p arrival tagged g
  | some (seq, lan) =>
    let s := if lan == (if p == 0 then 0xA else 0xB) then s else s.wrongLan p
    let r := s.prpDup p src seq
    if r.2 then r.1.dispatch p arrival tagged g else r.1

/-- Does a received frame of n bytes not fit in the receive buffer. -/
def State.rxFull (s : State) (p n : Nat) : Bool := decide (bufSize p < s.rxFill p + n)

/-- A good frame: counted, filtered. -/
def State.goodFrame (s : State) (p arrival n : Nat) (f : List Byte) : State :=
  let s := (s.macInc p 2).macBytes p 0 n
  if !s.addrPass p (be f 0 6) then s.macInc p 7
  else if !s.vlanPass p f then s.macInc p 8
  else s.afterFilters p arrival f

/-- A frame that the receive buffer cannot take: counted, logged once per 1 ms (R343). -/
def State.rxOvf (s : State) (p : Nat) : State :=
  let s := s.macInc p 6
  if ((s.port p).rxOvfLog.map fun t => s.passed t (ticksOfMs 1)).getD true then
    (s.modPort p fun x => { x with rxOvfLog := some s.now }).ev0 Ev.MAC_RXOVF
  else s

/-- PORT_FRAME_RX (R344, R347): `frame` runs from the destination address through the FCS; its start-of-frame delimiter ended `ago`
ticks before now. -/
def execPortFrameRx (p : Fin 5) (frame : List Byte) (fcsOk : Bool) (ago : Nat) (s : State) : Result :=
  let n := frame.length
  if !s.portRuns p || n == 0 then s.done
  else if n < 64 then (s.macInc p 3).done
  else if s.get (pfld F.MAC_MAXLEN_P_LEN p) < n then (s.macInc p 4).done
  else if !fcsOk then (s.macInc p 5).done
  else if s.rxFull p n then (s.rxOvf p).done
  else (s.goodFrame p (s.ingressStamp p (s.now - ago)) n (frame.take (n - 4))).done

/-! ### Pause rows -/

/-- PAUSE_TIME_END (R359). -/
def execPauseTimeEnd (p : Fin 5) (s : State) : Result :=
  match (s.port p).pause with
  | none => s.done
  | some (_, _, e) => ((s.reach e).pauseEnd p).done

/-- EV_MAC_PAUSE_WDOG (R360): the port has been paused for MS ms without a break, a pause in force lasting until then. -/
def execEvMacPauseWdog (p : Fin 5) (s : State) : Result :=
  let ms := s.get (pfld F.MAC_PAUSE_WD_P_MS p)
  match (s.port p).pausedSince with
  | none => s.done
  | some t =>
    if ms == 0 || ((s.port p).pause.map fun x => decide (x.2.2 < t + ticksOfMs ms)).getD true then s.done
    else
      let s := (s.reach (t + ticksOfMs ms)).pauseEnd p
      let s := s.modPort p fun x => { x with defeatEnd := some (s.now + ticksOfS (s.get (pfld F.MAC_PAUSE_WD_P_DEFEAT_S p))) }
      ((s.setB (pfld F.MAC_STAT_P_PAUSE_DEFEAT p) true).ev0 Ev.MAC_PAUSE_WDOG).done

/-- EV_MAC_PAUSE_RESTORE (R360). -/
def execEvMacPauseRestore (p : Fin 5) (s : State) : Result :=
  match (s.port p).defeatEnd with
  | none => s.done
  | some e =>
    let s := (s.reach e).modPort p fun x => { x with defeatEnd := none }
    ((s.setB (pfld F.MAC_STAT_P_PAUSE_DEFEAT p) false).ev0 Ev.MAC_PAUSE_RESTORE).done

/-! ### Links (R342) -/

/-- EV_MAC_LINK_DOWN: a SerDes port loses its link. -/
def execEvMacLinkDown (p : Fin 5) (s : State) : Result := (if p.val < 4 then s.linkDown p else s).done

/-- EV_MAC_LINK_UP: a SerDes port's link has stayed good for 10 ms, at the earliest from when it last went down or the port was set up;
`phySpeed` is the speed that an SGMII PHY tells in band. -/
def execEvMacLinkUp (p : Fin 5) (phySpeed : Fin 3) (s : State) : Result :=
  let mode := s.get (pfld F.MAC_CTRL_P_MODE p)
  if p.val < 4 && mode != 0 && !s.portLink p then
    let s := s.reach ((s.port p).goodFrom + ticksOfMs 10)
    let an := s.flag (pfld F.MAC_CTRL_P_AN_EN p) && mode != 1
    let r := s.fresh
    let s := if mode == 1 then r.2 else s
    let sp := if mode == 1 then r.1 else if mode == 2 then 2 else if an then phySpeed.val else s.get (pfld F.MAC_CTRL_P_SPEED p)
    let s := (s.set (pfld F.MAC_STAT_P_SPEED_ACT p) sp).setB (pfld F.MAC_STAT_P_AN_DONE p) an
    (((s.setB (pfld F.MAC_STAT_P_LINK p) true).ev0 Ev.MAC_LINK_UP).mcSync).done
  else s.done

/-- P4_PHY_POLL (R342): every 100 ms the firmware reads the PHY's status. -/
def execP4PhyPoll (link : Bool) (s : State) : Result :=
  if s.fwRuns && s.get F.MAC_CTRL_P4_MODE == 1 then
    let s := (s.reach (s.mac.pollAt + ticksOfMs 100)).modMac fun m => { m with pollAt := m.pollAt + ticksOfMs 100 }
    let s := (s.set (pfld F.MAC_STAT_P_SPEED_ACT 4) (s.get F.MAC_CTRL_P4_SPEED)).setB (pfld F.MAC_STAT_P_DUPLEX_ACT 4)
      (s.flag F.MAC_CTRL_P4_DUPLEX)
    if link == s.portLink 4 then s.done
    else (((s.setB (pfld F.MAC_STAT_P_LINK 4) link).ev0 (if link then Ev.MAC_LINK_UP else Ev.MAC_LINK_DOWN)).mcSync).done
  else s.done

/-! ### ARP and neighbour discovery (R391) -/

/-- An ARP reply's payload. -/
def arpReply (mac ip : Nat) (req : List Byte) : List Byte :=
  toBe 2 1 ++ toBe 2 0x0800 ++ [6, 4] ++ toBe 2 2 ++ toBe 6 mac ++ toBe 4 ip ++ bytesAt req 8 10

/-- A neighbour advertisement packet. -/
def ndReply (mac : Nat) (req : List Byte) : List Byte :=
  let target := bytesAt req 48 16
  let dst := bytesAt req 8 16
  let body := toBe 4 0x60000000 ++ target ++ [2, 1] ++ toBe 6 mac
  let c := cksum (target ++ dst ++ toBe 4 32 ++ toBe 4 58 ++ toBe 2 0x8800 ++ toBe 2 0 ++ body)
  toBe 4 0x60000000 ++ toBe 2 32 ++ [58, 255] ++ target ++ dst ++ toBe 2 0x8800 ++ toBe 2 c ++ body

/-- Sends a reply of class 0 from port p, with the shared source address where the answer is for it. -/
def State.replyFrame (s : State) (p : Nat) (shared : Bool) (dst et : Nat) (payload : List Byte) : State :=
  let re (f : TxFrame) : TxFrame := if shared then s.outResrc p f else f
  if s.prpOn p then
    let q := some (s.get F.MAC_PRP_SEQ_SEQ)
    let t := s.inc F.MAC_PRP_SEQ_SEQ
    let a := (t.txOffer 0 (re (t.txBuild 0 0 .port .plain q dst et payload))).1
    (a.txOffer 1 (re (a.txBuild 1 0 .port .plain q dst et payload))).1
  else (s.txOffer p (re (s.txBuild p 0 .port .plain none dst et payload))).1

/-- Answers one request. -/
def State.arpAnswer (s : State) (x : FwFrame) : State :=
  let b := x.bytes
  let nd := isSolicit b
  let target := if nd then be b 48 16 else 0xFFFF * 2 ^ 32 + be b 24 4
  let p := x.port
  let shared := s.outShared p && target == s.outSrc p (!nd)
  if (nd || be b 6 2 == 1) && (shared || target == portIp p (!nd)) then
    let mac := if shared then s.get64 R.TWN_SHARED_MAC_LO R.TWN_SHARED_MAC_HI % 2 ^ 48 else s.portMac p
    if nd then s.replyFrame p shared (be b 66 6) 0x86DD (ndReply mac b)
    else s.replyFrame p shared (be b 8 6) 0x0806 (arpReply mac target b)
  else s

/-- ARP_ND_REQUEST_RX (R391): the firmware takes the oldest request from its queue. -/
def execArpNdRequestRx (s : State) : Result :=
  match s.ing.fwq.find? fun x => x.kind == 1 with
  | none => s.done
  | some x =>
    if s.fwRuns then (({ s with ing := { s.ing with fwq := s.ing.fwq.erase x } } : State).arpAnswer x).done else s.done

end Sys2Proof.Machine
end

