-- ==== Sys2Proof/Machine/MacTx.lean ====
section
/-!
DEFINITION. Sys2Proof/Machine/MacTx.lean: transmit selection, half duplex, gates, pause frames sent, PRP supervision and MDIO (R348 to
R351, R354 to R358, R361 to R364, R369, R371).
-/
namespace Sys2Proof.Machine

/-! ### Enqueueing (R348) -/

/-- A frame of another source, from its destination to its payload: tagged as the port does, padded. -/
def State.rawBuild (s : State) (p tc : Nat) (prpSeq : Option Nat) (f : List Byte) : TxFrame :=
  let f := match s.portTag p tc with
    | some x => addTag f x
    | none => f
  let f := match prpSeq with
    | some q => let g := padMin 54 f; g ++ prpTrailer g p q
    | none => padMin 60 f
  ⟨tc, f, .plain, false, false, 0, none⟩

/-- TX_FRAME_ENQUEUE (R348, R365): a frame is offered to class `cls` of port p, or of both ports of a PRP pair. -/
def execTxFrameEnqueue (p : Fin 5) (cls : Fin 8) (frame : List Byte) (s : State) : Result :=
  if s.prpOn p then
    let q := some (s.get F.MAC_PRP_SEQ_SEQ)
    let t := s.inc F.MAC_PRP_SEQ_SEQ
    let a := (t.txOffer 0 (t.rawBuild 0 cls q frame)).1
    (a.txOffer 1 (a.rawBuild 1 cls q frame)).1.done
  else (s.txOffer p (s.rawBuild p cls none frame)).1.done

/-! ### Transmit selection (R350, R356, R362) -/

/-- What keeps a head frame from starting: nothing; its gate is closed, or it is in back-off; it ends after its gate closes. -/
inductive TxHold where
  | free
  | held
  | guard
  deriving DecidableEq, Repr

/-- The hold on a head frame (R350, conditions 2 and 3 but for carrier). -/
def State.txHold (s : State) (p : Nat) (f : TxFrame) : TxHold :=
  if (f.waitTo.map fun t => decide (s.now < t)).getD false then .held
  else match s.gateLeft p f.tc with
    | none => .free
    | some 0 => .held
    | some n => if s.frameNs p (f.bytes.length + 4) ≤ n then .free else .guard

/-- Changes the first frame of class c in a queue. -/
def modHead (c : Nat) (g : TxFrame → TxFrame) : List TxFrame → List TxFrame
  | [] => []
  | f :: t => if f.tc == c then g f :: t else f :: modHead c g t

/-- Takes the first frame of class c off a queue. -/
def dropHead (c : Nat) : List TxFrame → List TxFrame
  | [] => []
  | f :: t => if f.tc == c then t else f :: dropHead c t

/-- A frame held by the guard rule counts once. -/
def State.guardCount (s : State) (p : Nat) (f : TxFrame) : State :=
  if f.guarded then s
  else (s.modPort p fun x => { x with txq := modHead f.tc (fun g => { g with guarded := true }) x.txq }).macInc p 22

/-- The first class, from the highest, whose head may start; heads held by the guard rule on the way are counted. -/
def State.txPick (s : State) (p : Nat) : List Nat → State × Option TxFrame
  | [] => (s, none)
  | c :: cs =>
    match (s.port p).txq.find? fun f => f.tc == c with
    | none => s.txPick p cs
    | some f => match s.txHold p f with
      | .free => (s, some f)
      | .held => s.txPick p cs
      | .guard => (s.guardCount p f).txPick p cs

/-- TX_FRAME_START (R350): the line is free; `carrier` says that on half duplex carrier has not been absent for 96 bit times. -/
def execTxFrameStart (p : Fin 5) (carrier : Bool) (s : State) : Result :=
  let s := s.pauseLapse p
  if !s.portRuns p || !s.portLink p || (s.port p).flight.isSome || (s.port p).pause.isSome then s.done
  else
    let r := s.txPick p [7, 6, 5, 4, 3, 2, 1, 0]
    match r.2 with
    | none => r.1.done
    | some f =>
      let s := r.1
      if s.halfDuplex p && carrier then
        if f.deferred then s.done
        else ((s.modPort p fun x => { x with txq := modHead f.tc (fun g => { g with deferred := true }) x.txq }).macInc p 18).done
      else
        let g := { f with guarded := true, deferred := true, waitTo := none }
        (s.modPort p fun x => { x with txq := dropHead f.tc x.txq, flight := some (g, s.now) }).done

/-- The frame in transmission ends at its time. -/
def State.flightEnd (s : State) (p : Nat) : State :=
  match (s.port p).flight with
  | none => s
  | some (f, t) =>
    let s := s.reach (t + s.bitTicks p ((8 + f.bytes.length + 4) * 8))
    (s.modPort p fun x => { x with flight := none }).txDone p f t

/-- TX_FRAME_END (R350). -/
def execTxFrameEnd (p : Fin 5) (s : State) : Result := (s.flightEnd p).done

/-! ### Half duplex on P4 (R363, R364) -/

/-- The generator of R363 after a draw: a 32-bit LFSR with polynomial x^32 + x^22 + x^2 + x + 1. Which form of it steps, and how many steps a
draw takes, is open (notes/assumptions/125.md). -/
def lfsr32 (x : Nat) : Nat :=
  (List.range (1 + Config.op "mac.lfsr.steps" [] % 64)).foldl (fun y _ => lfsrNext (Config.op "mac.lfsr.form" []) 32 0x400007 y) x

/-- HDX_COLLISION: a collision `bits` bit times after the frame on P4 started. -/
def execHdxCollision (bits : Nat) (s : State) : Result :=
  match (s.port 4).flight with
  | none => s.done
  | some (f, t) =>
    if !s.halfDuplex 4 || (8 + f.bytes.length + 4) * 8 ≤ bits then s.done
    else
      let s := (s.reach (t + s.bitTicks 4 bits)).macInc 4 19
      let s := s.modPort 4 fun x => { x with flight := none }
      let n := f.colls + 1
      if 512 ≤ bits then ((s.macInc 4 20).ev0 Ev.MAC_LATECOL).done
      else if s.get F.MAC_HDX_ATTEMPTS ≤ n then ((s.macInc 4 21).ev0 Ev.MAC_EXCOLL).done
      else
        let x := s.port 4
        let l := lfsr32 x.lfsr
        let g := { f with colls := n, waitTo := some (s.now + s.bitTicks 4 (32 + 512 * (l % 2 ^ min n 10))) }
        (s.setPort 4 { x with txq := g :: x.txq, lfsr := l }).done

/-- HDX_BACKOFF_END (R363): the back-off that ends first. -/
def execHdxBackoffEnd (s : State) : Result :=
  match (s.port 4).txq.filterMap fun f => f.waitTo with
  | [] => s.done
  | t :: ts =>
    let e := ts.foldl min t
    ((s.reach e).modPort 4 fun x => { x with txq := x.txq.map fun f => if f.waitTo == some e then { f with waitTo := none } else f }).done

/-! ### Gates (R355 to R358) -/

/-- TAI ns of the next cycle start of port p. -/
def State.gateNext (s : State) (p : Nat) : Nat :=
  let last := match (s.port p).gateStart with
    | some g => if g.2 ≤ s.taiNs then g.2 else 0
    | none => 0
  let from_ := max (s.taiNs - 1) last
  if s.flag (pfld F.MAC_GCL_CTRL_P_LOCK p) then
    let o := sext 32 (s.get (pfld F.MAC_GCL_OFS_P_OFS p))
    let f := rateOf s.aln.cad
    (((s.instTai f (s.firstInstAfter f ((from_ : Int) - o).toNat) : Nat) : Int) + o).toNat
  else
    let b := s.get (pfld F.MAC_GCL_BASE_HI_P_SOC p) * 1000000000 + s.get (pfld F.MAC_GCL_BASE_LO_P_NS p)
    let c := max (s.get (pfld F.MAC_GCL_CYCLE_P_NS p)) 1
    if from_ < b then b else b + ((from_ - b) / c + 1) * c

/-- A cycle that has not run all its entries is cut. -/
def State.gateCut (s : State) (p : Nat) : State :=
  match (s.port p).gateStart with
  | none => s
  | some g =>
    if s.nsSince g.1 < ((s.gateList p).map fun e => e.2).foldl (· + ·) 0 then
      let s := s.macInc p 23
      if ((s.port p).cutLog.map fun t => s.passed t (ticksOfS 1)).getD true then
        (s.modPort p fun x => { x with cutLog := some s.now }).ev0 Ev.MAC_GCL_CUT
      else s
    else s

/-- A pending SWAP makes the other list operational, if it has entries. -/
def State.gateSwap (s : State) (p : Nat) : State :=
  let other := 1 - s.gclOper p
  if s.flag (pfld F.MAC_GCL_CTRL_P_SWAP p) && decide (0 < s.gclNent p other) then
    ((s.set (pfld F.MAC_GCL_CTRL_P_OPER p) other).setB (pfld F.MAC_GCL_CTRL_P_SWAP p) false).ev0 Ev.MAC_GCL_SWAP
  else s

/-- GATE_CYCLE_START (R355). -/
def execGateCycleStart (p : Fin 5) (s : State) : Result :=
  if !s.flag (pfld F.MAC_GCL_CTRL_P_GCL_EN p) || s.tim.anchor.isNone then s.done
  else
    let tai := s.gateNext p
    let s := s.reach (s.tickAtTai tai)
    let s := (s.gateCut p).gateSwap p
    (s.modPort p fun x => { x with gateStart := some (s.now, tai), gateIdx := 0 }).done

/-- GATE_ENTRY_END (R355): the next entry's gates take effect; the last entry's stay until the next cycle. -/
def execGateEntryEnd (p : Fin 5) (s : State) : Result :=
  match (s.port p).gateStart with
  | none => s.done
  | some g =>
    let i := (s.port p).gateIdx
    let l := s.gateList p
    if s.flag (pfld F.MAC_GCL_CTRL_P_GCL_EN p) && decide (i + 1 < l.length) then
      let s := s.reach (g.1 + ticksOfNs (((l.take (i + 1)).map fun e => e.2).foldl (· + ·) 0))
      (s.modPort p fun x => { x with gateIdx := i + 1 }).done
    else s.done

/-! ### Pause frames sent (R361) -/

/-- A threshold of port p in bytes: P4 has its own registers. -/
def State.pauseThr (s : State) (p : Nat) (xoff : Bool) : Nat :=
  1024 * s.get (pfld (if xoff then F.MAC_PAUSE_THR_P_XOFF else F.MAC_PAUSE_THR_P_XON) p)

/-- May port p send pause frames. -/
def State.pauseMay (s : State) (p : Nat) : Bool :=
  s.flag (pfld F.MAC_PAUSE_P_TX_EN p) && !s.halfDuplex p && s.portRuns p && s.portLink p

/-- A pause frame waits only for the frame in transmission. -/
def State.pauseOut (s : State) (p quanta : Nat) : State := (s.flightEnd p).sendPause p quanta

/-- PAUSE_FRAME_TX: the fill has reached XOFF, or fallen below XON. -/
def execPauseFrameTx (p : Fin 5) (s : State) : Result :=
  let fill := s.rxFill p
  if !s.pauseMay p then s.done
  else if !(s.port p).xoff && decide (s.pauseThr p true ≤ fill) then
    let s := s.pauseOut p (s.get (pfld F.MAC_PAUSE_P_PTIME p))
    (s.modPort p fun x => { x with xoff := true, xoffAt := s.now }).done
  else if (s.port p).xoff && decide (fill < s.pauseThr p false) then
    ((s.pauseOut p 0).modPort p fun x => { x with xoff := false }).done
  else s.done

/-- PAUSE_FRAME_REPEAT: every PTIME / 2 quanta while the fill stays at or above XON. -/
def execPauseFrameRepeat (p : Fin 5) (s : State) : Result :=
  if s.pauseMay p && (s.port p).xoff && decide (s.pauseThr p false ≤ s.rxFill p) then
    let q := s.get (pfld F.MAC_PAUSE_P_PTIME p)
    let t := (s.port p).xoffAt + s.bitTicks p (256 * q)
    ((s.reach t).pauseOut p q |>.modPort p fun x => { x with xoffAt := t }).done
  else s.done

/-! ### PRP supervision (R369) -/

/-- The payload of a supervision frame (IEC 62439-3, PRP duplicate discard, notes/assumptions/18.md). -/
def State.supFrame (s : State) : List Byte :=
  toBe 2 1 ++ toBe 2 s.mac.supSeq ++ [20, 6] ++ toBe 6 (s.portMac 0) ++ [0, 0]

/-- PRP_SUPERVISION_TX. -/
def execPrpSupervisionTx (s : State) : Result :=
  let ms := s.get F.MAC_PRP_LIFECHECK_MS
  if s.flag F.MAC_PRP_CTRL_EN && ms != 0 then
    let t := s.mac.supAt + ticksOfMs ms
    let s := s.reach t
    let s := (s.send 0 0 .port .plain none macSup 0x88FB s.supFrame).1
    (s.modMac fun m => { m with supAt := t, supSeq := (m.supSeq + 1) % 65536 }).done
  else s.done

/-! ### MDIO (R371) -/

/-- Is the agent the firmware, which has MDIO registers of its own. -/
def mdioFw (a : Agent) : Bool := decide (a = .c0) || decide (a = .c1)

/-- Has the agent a command in progress. -/
def State.mdioBusy (s : State) (fw : Bool) : Bool := s.mac.mdio.any fun j => j.fw == fw

/-- A write of an agent's MDIO command register. -/
def State.mdioWrite (s : State) (fw : Bool) (v : Dword) : State :=
  let start := fval F.MAC_MDIO_CMD_START v == 1
  if start && s.mdioBusy fw then s.ev0 Ev.MAC_MDIO_BUSY
  else
    let s := if fw then s.modMac fun m => { m with fwMdioCmd := v.toNat % 2 ^ 29 } else s.store R.MAC_MDIO_CMD v
    if start then
      let s := if fw then s else (s.setB F.MAC_MDIO_CMD_BUSY true).setB F.MAC_MDIO_CMD_NOACK false
      s.modMac fun m => { m with mdio := m.mdio ++ [⟨fw, v.toNat % 2 ^ 29, s.now⟩] }
    else s

/-- MDIO_COMMAND_START. -/
def execMdioCommandStart (a : Agent) (v : Dword) (s : State) : Result :=
  (s.gate a R.MAC_MDIO_CMD fun s => s.mdioWrite (mdioFw a) v).done

/-- Is an MDIO command a read. -/
def mdioRead (cmd : Nat) : Bool := decide (2 ≤ bits cmd 27 26)

/-- MDIO_COMMAND_DONE: the frame on the bus ends after 64 MDC periods; the other agent's, if it waits, starts. -/
def execMdioCommandDone (ack : Bool) (data : Nat) (s : State) : Result :=
  match s.mac.mdio with
  | [] => s.done
  | j :: rest =>
    let s := s.reach (j.start + 512 * (s.get F.MAC_MDIO_CFG_DIV + 1))
    let s := s.modMac fun m => { m with mdio := rest.map fun k => { k with start := s.now } }
    let v := if ack then data % 65536 else 0xFFFF
    if j.fw then
      (s.modMac fun m => { m with fwMdioData := if mdioRead j.cmd then v else m.fwMdioData }).done
    else
      let s := s.setB F.MAC_MDIO_CMD_BUSY false
      let s := if mdioRead j.cmd then (s.setB F.MAC_MDIO_CMD_NOACK (!ack)).set F.MAC_MDIO_RDATA_DATA v else s
      (s.raise 67).done

end Sys2Proof.Machine
end

