-- ==== Sys2Proof/Machine/Osc.lean ====
section
/-!
DEFINITION. Sys2Proof/Machine/Osc.lean: the oscillation engine: its tables and their commands, signals, band analysers,
re-centring, the mode tracker, alarm rules and records (R205 to R231). What the rules define is computed; where a result is rounded, which
neighbour results is open; the tracker's fit, whose method the spec does not give, is an open function of what it works on
(notes/assumptions/50.md).
-/
namespace Sys2Proof.Machine

/-- Changes the oscillation engine's state. -/
def State.modOsc (s : State) (f : Osc → Osc) : State := { s with osc := f s.osc }

/-- An open finite float that is not negative. -/
def absF (x : Nat) : Nat := x % 0x7F800000

/-- An open float from −1 to 1. -/
def unitF (x : Nat) : Nat := x % 0x3F800001 + (if x / 2 ^ 31 % 2 == 1 then 2 ^ 31 else 0)

/-- Rounded to the 40-bit significand of the engine's state and coefficients (R210); which neighbour results is open. -/
def r40 (tag : String) (x : Dy) : Dy := x.roundTo 40 (Config.op tag x.key)

/-- The value of a positive float in units of 2^-149. -/
def fu (x : Nat) : Nat := (f32Units x).natAbs

/-- Hundredths of a hertz in units of 2^-149 Hz, times 100. -/
def chz (n : Nat) : Nat := n * 2 ^ 149

/-! ### Placement (R209) -/

/-- 0.01 Hz. -/
def f32Cent : Nat := f32Round 1 100

/-- The reset placement at cadence f: logarithmic from 0.01 Hz to f/4. -/
def OscPlace.dflt (f : Nat) : OscPlace := ⟨0, false, f32Cent, f32Round f 4, []⟩

/-- The highest float pattern from `lo` up whose value's 63rd power does not exceed t; `n` bits of the distance are still to be found. -/
def root63 (t : Nat) : Nat → Nat → Nat
  | 0, lo => lo
  | n + 1, lo => root63 t n (if fu (lo + 2 ^ n) ^ 63 ≤ t then lo + 2 ^ n else lo)

/-- The logarithmic centre of band b, 1 to 62: F_LO · (F_HI / F_LO)^(b/63), one of the two floats beside it. -/
def logCentre (flo fhi b : Nat) : Nat :=
  let t := fu flo ^ (63 - b) * fu fhi ^ b
  let c := root63 t 30 flo
  if fu c ^ 63 == t || Config.op "osc.log" [flo, fhi, b] % 2 == 0 then c else c + 1

/-- Nominal centre of band b. -/
def OscPlace.nominal (p : OscPlace) (b : Nat) : Nat :=
  match p.mode with
  | 0 => if b == 0 then p.flo else if b == 63 then p.fhi else logCentre p.flo p.fhi b
  | 1 => f32Round ((fu p.flo * (63 - b) + fu p.fhi * b : Nat) : Int) (63 * 2 ^ 149)
  | _ => ((p.centres[b]?).map Prod.fst).getD 0

/-- FIX of band b. -/
def OscPlace.fix (p : OscPlace) (b : Nat) : Bool := p.fixAll || ((p.centres[b]?).map Prod.snd).getD false

/-- F_LO: the lowest nominal centre; F_HI: the highest. -/
def OscPlace.lo (p : OscPlace) : Nat := p.nominal 0
/-- The highest nominal centre. -/
def OscPlace.hi (p : OscPlace) : Nat := p.nominal 63

/-- The cadence of the last run, or the one in effect before the first. -/
def State.oscFc (s : State) : Nat := rateOf ((s.osc.last.map fun l => l.2.2).getD s.aln.cad)

/-- The placement in effect; until one is written or falls back that of reset, whose F_HI is a quarter of the cadence. -/
def State.oscPlace (s : State) : OscPlace := mgetD s.osc.place.eff 0 (OscPlace.dflt s.oscFc)

/-- Centre in effect of band b. -/
def State.oscCentre (s : State) (b : Nat) : Nat := (s.osc.centres[b]?).getD (s.oscPlace.nominal b)

/-- Is |ln f − ln g| × k below, or with `le` at most, Δu_b × n, both exact: Δu_b is the smaller distance to a neighbour. -/
def OscPlace.within (p : OscPlace) (b f g k n : Nat) (le : Bool) : Bool :=
  let big := max (fu f) (fu g)
  let small := min (fu f) (fu g)
  let c := fu (p.nominal b)
  let nb := (if b == 0 then [] else [b - 1]) ++ (if b == 63 then [] else [b + 1])
  nb.all fun j =>
    let x := fu (p.nominal j)
    let l := big ^ k * (min c x) ^ n
    let r := small ^ k * (max c x) ^ n
    decide (l < r) || (le && l == r)

/-- The band whose centre is nearest to f in ln(frequency). -/
def State.oscBandOf (s : State) (f : Nat) : Nat :=
  (List.range 64).foldl (fun best b =>
    let far (c : Nat) : Nat × Nat := (max (fu c) (fu f), min (fu c) (fu f))
    let x := far (s.oscCentre b)
    let y := far (s.oscCentre best)
    if x.1 * y.2 < y.1 * x.2 then b else best) 0

/-! ### Tables (OSC_SIGNALS, OSC_BANDS) -/

/-- A signal entry. -/
def oscSigOf (b : List Byte) : OscSig :=
  { kind := le b 0 1, enable := bit (le b 1 1) 0 && le b 0 1 != 0, track := bit (le b 1 1) 1, sidxA := le b 2 2, phA := le b 4 1,
    phB := le b 5 1, sidxB := le b 6 2, scale := le b 8 4, norm := le b 12 4 }

/-- Is a signal entry in range. -/
def oscSigOk (b : List Byte) : Bool :=
  let e := oscSigOf b
  let two := e.kind == 2 || e.kind == 4
  decide (e.kind ≤ 4) && decide (le b 1 1 ≤ 3) && decide (e.sidxA ≤ 8191) && (e.kind == 0 || e.kind == 3 || decide (e.phA ≤ 62)) &&
    (if two then decide (e.phB ≤ 62) && decide (e.sidxB ≤ 8191) else e.phB == 0 && e.sidxB == 0) &&
    (if e.kind == 4 then f32Finite e.scale && bits e.scale 30 0 != 0 else e.scale == 0) &&
    (if e.track then f32Lt 0 e.norm else e.norm == 0)

/-- A rule entry. -/
def oscRuleOf (b : List Byte) : OscRule :=
  let f := le b 1 1
  { scope := le b 0 1, enable := bit f 0, classes := b2n (bit f 3) + 2 * b2n (bit f 1) + 4 * b2n (bit f 2), sig := le b 2 2,
    blo := le b 4 1, bhi := le b 5 1, grp := le b 6 2, flo := le b 8 4, fhi := le b 12 4, bound := le b 16 4, hyst := le b 20 4,
    holdMs := le b 24 4 }

/-- Is a rule entry in range; of an unused one only its reserved bits are checked (notes/assumptions/49.md). -/
def oscRuleOk (b : List Byte) : Bool :=
  let e := oscRuleOf b
  let res := decide (le b 1 1 ≤ 15) && zeroAt b 28 4
  if e.scope == 0 then res
  else res && decide (e.scope ≤ 3) && (if e.scope == 1 then e.classes == 0 else e.classes != 0) &&
    (if e.scope == 2 then e.sig == 0 else decide (e.sig ≤ 1023)) &&
    (if e.scope == 1 then decide (e.blo ≤ e.bhi) && decide (e.bhi ≤ 63) else e.blo == 0 && e.bhi == 0) && grpOk e.grp &&
    (e.scope == 1 || (f32Le 0 e.flo && f32Le e.flo e.fhi)) && f32Lt 0 e.bound && f32Le 0 e.hyst &&
    (e.scope == 2 || f32Lt e.hyst e.bound) && decide (e.holdMs ≤ 3600000)

/-- OSC_SIGNALS (0x38): body. -/
def oscSignalsBody (buf : HostRead) (p : List Byte) (s : State) : CmdRes :=
  let rules := le p 20 1 == 1
  let n := if rules then 256 else 1024
  let first := le p 16 2
  checked [(le p 8 8 % 8 != 0, St.badParam), (le p 18 2 == 0, St.badLength), (decide (1 < le p 20 1), St.badParam),
      (decide (n < le p 18 2) || decide (n < first + le p 18 2), St.badParam), (!zeroAt p 21 3, St.badParam),
      (s.cmd.prep.isSome, St.busy)] s
    (withBuf buf s fun b =>
      let es := entriesOf (if rules then 32 else 16) (le p 18 2) b
      match firstBad (if rules then oscRuleOk else oscSigOk) es with
      | some i => ⟨St.badParam, toLe 2 (first + i), s⟩
      | none =>
        if rules then
          let t := es.zipIdx.foldl (fun (t : Tbl OscRule) e => t.put (first + e.2) (oscRuleOf e.1)) s.osc.rules
          ⟨St.ok, [], (s.modOsc fun x => { x with rules := t }).healAll 9 ((List.range es.length).map fun i => first + i)⟩
        else
          let t := es.zipIdx.foldl (fun (t : Tbl OscSig) e => t.put (first + e.2) (oscSigOf e.1)) s.osc.sigs
          if 64 < (t.shadow.filter fun q => q.2.track).length then CmdRes.fail St.noResource s
          else ⟨St.ok, [], (s.modOsc fun x => { x with sigs := t }).healAll 8 ((List.range es.length).map fun i => first + i)⟩)

/-- OSC_SIGNALS (R229). -/
def execOscSignals (r : Fn) (buf : HostRead) (s : State) : Result :=
  (s.plain r 0x38 24 false (fun _ => true) (oscSignalsBody buf)).done

/-- Do floats rise strictly. -/
def risingF : List Nat → Bool
  | [] => true
  | [_] => true
  | a :: b :: t => f32Lt a b && risingF (b :: t)

/-- OSC_BANDS (0x39): body. -/
def oscBandsBody (buf : HostRead) (p : List Byte) (s : State) : CmdRes :=
  let mode := le p 8 1
  let fixAll := bit (le p 9 1) 0
  let lo := le p 12 4
  let hi := le p 16 4
  let top := f32Round (rateOf s.aln.cadShadow) 4
  let put (x : OscPlace) : CmdRes := ⟨St.ok, [], (s.modOsc fun o => { o with place := o.place.put 0 x }).healAll 10 [0]⟩
  checked [(decide (2 < mode), St.badParam), (decide (1 < le p 9 1), St.badParam), (!zeroAt p 10 2, St.badParam),
      (if mode == 2 then lo != 0 else !f32Le f32Cent lo || decide (fu hi < 2 * fu lo), St.badParam),
      (if mode == 2 then hi != 0 else !f32Le hi top || !f32Le 0 hi, St.badParam), (!zeroAt p 20 4, St.badParam),
      (if mode == 2 then le p 24 8 % 8 != 0 else le p 24 8 != 0, St.badParam), (s.cmd.prep.isSome, St.busy)] s
    (if mode != 2 then put ⟨mode, fixAll, lo, hi, []⟩
    else withBuf buf s fun b =>
      let es := entriesOf 8 64 b
      let cs := es.map fun e => (le e 0 4, le e 4 1 == 1)
      let ok := es.all (fun e => f32Le f32Cent (le e 0 4) && f32Le (le e 0 4) top && decide (le e 4 1 ≤ 1) && zeroAt e 5 3) &&
        risingF (cs.map Prod.fst)
      if ok then put ⟨2, fixAll, 0, 0, cs⟩ else CmdRes.fail St.badParam s)

/-- OSC_BANDS (R209, R229). -/
def execOscBands (r : Fn) (buf : HostRead) (s : State) : Result :=
  (s.plain r 0x39 32 false (fun _ => true) (oscBandsBody buf)).done

/-! ### Signals (R205 to R211) -/

/-- A present value of a signal: KIND 2's separation in binary angle units, or x; UNAUTH of the samples used. -/
structure OscVal where
  sep : Nat
  x : Dy
  ua : Bool

/-- A float as a signal's value; what a magnitude beyond float32 gives is open. -/
def sigF32 (x : Nat) : Dy := Dy.ofF32 (if f32Finite x then x else absF (Config.op "osc.over" [x]))

/-- Active power (R205): SCALE × (Re V × Re I + Im V × Im I). -/
def oscPower (scale : Nat) (v i : Nat × Nat) : Dy :=
  let d := Dy.ofF32
  r40 "osc.power" ((d scale).mul (((d v.1).mul (d i.1)).add ((d v.2).mul (d i.2))))

/-- A signal's present value in a set (R205, R206). -/
def State.oscSample (s : State) (d : SetDesc) (i : Nat) (e : OscSig) : Option OscVal :=
  let zero (p : Nat × Nat × Bool) : Bool := bits p.1 30 0 == 0 && bits p.2.1 30 0 == 0
  if s.cramPoisoned 5 i then none
  else match e.kind with
    | 1 => (s.setPhasor d e.sidxA e.phA).map fun p => ⟨0, sigF32 (mag p.1 p.2.1), p.2.2⟩
    | 2 => match s.setPhasor d e.sidxA e.phA, s.setPhasor d e.sidxB e.phB with
      | some p, some q => if zero p || zero q then none
        else some ⟨subMod 16 (bangle p.1 p.2.1) (bangle q.1 q.2.1), Dy.zero, p.2.2 || q.2.2⟩
      | _, _ => none
    | 3 => (s.setFreq d e.sidxA false).map fun f => ⟨0, sigF32 f.1, f.2⟩
    | 4 => match s.setPhasor d e.sidxA e.phA, s.setPhasor d e.sidxB e.phB with
      | some p, some q => some ⟨0, oscPower e.scale (p.1, p.2.1) (q.1, q.2.1), p.2.2 || q.2.2⟩
      | _, _ => none
    | _ => none

/-- The coefficients of a band (R210): k_b, and the parts of p_b. -/
structure OscCoef where
  k : Dy
  pr : Dy
  pi : Dy

/-- k_b and p_b of a band at centre c. -/
def oscCoef (bw fc c : Nat) : OscCoef :=
  let k := r40 "osc.k" (Dy.ofRat (piFx * bw * fu c : Nat) (two512 * 1024 * fc * 2 ^ 149))
  let t := cosSin (fu c * 2 ^ 192 / (fc * 2 ^ 149) : Nat)
  let d := Dy.sub ⟨1, 0⟩ k
  ⟨k, r40 "osc.p" (d.mul ⟨t.1, -192⟩), r40 "osc.p" (d.mul ⟨t.2, -192⟩)⟩

/-- What a run of the analysers uses: cadence, BW, α of the DC removal (R208), centres, and their coefficients. -/
structure OscEnv where
  fc : Nat
  bw : Nat
  alpha : Dy
  centres : List Nat
  coefs : List OscCoef

/-- α = 2π × (F_LO / 5) / F_c. -/
def oscAlpha (flo fc : Nat) : Dy := r40 "osc.alpha" (Dy.ofRat (2 * piFx * fu flo : Nat) (two512 * 5 * fc * 2 ^ 149))

/-- The band amplitude as the engine gives it out: float32. -/
def OscBand.out (b : OscBand) : Nat := b.amp.toF32 (Config.op "osc.out" b.amp.key)

/-- |y|. -/
def OscBand.abs (b : OscBand) : Dy := (cabs2 (b.re, b.im)).sqrt

/-- One analyser takes one sample x′ (R210). -/
def OscCoef.step (c : OscCoef) (x : Dy) (b : OscBand) : OscBand :=
  let y := cmul (c.pr, c.pi) (b.re, b.im)
  let n : OscBand := ⟨r40 "osc.y" (y.1.add (c.k.mul x)), r40 "osc.y" y.2, b.amp⟩
  { n with amp := r40 "osc.a" (b.amp.add (c.k.mul ((Dy.mul ⟨2, 0⟩ n.abs).sub b.amp))) }

/-- a after g instants with x′ held, y at each of them as the recursion gives it, unrounded. -/
def OscCoef.fillAmp (c : OscCoef) (x : Dy) : Nat → Dy × Dy → Dy → Dy
  | 0, _, a => a
  | g + 1, y, a =>
    let n := cmul (c.pr, c.pi) y
    let n := ccut (n.1.add (c.k.mul x), n.2)
    c.fillAmp x g n ((a.add (c.k.mul ((Dy.mul ⟨2, 0⟩ (cabs2 n).sqrt).sub a))).cut 320)

/-- One analyser is advanced over g instants with x′ held (R223): y ← p^g · y + k · x′ · (1 − p^g) / (1 − p), and a as its recursion gives
it over those instants; each is rounded once. -/
def OscCoef.fill (c : OscCoef) (g : Nat) (x : Dy) (b : OscBand) : OscBand :=
  let p := (c.pr, c.pi)
  let pg := cpow p 32 g
  let q := cdiv ((Dy.sub ⟨1, 0⟩ pg.1), pg.2.neg) ((Dy.sub ⟨1, 0⟩ p.1), p.2.neg)
  let y := cmul pg (b.re, b.im)
  let kx := c.k.mul x
  ⟨r40 "osc.y" (y.1.add (kx.mul q.1)), r40 "osc.y" (y.2.add (kx.mul q.2)), r40 "osc.a" (c.fillAmp x g (b.re, b.im) b.amp)⟩

/-- Analysers that have seen nothing. -/
def bandsZero : List OscBand := List.replicate 64 ⟨Dy.zero, Dy.zero, Dy.zero⟩

/-- Advances the analysers by one sample x′. -/
def OscEnv.bands (v : OscEnv) (x : Dy) (bs : List OscBand) : List OscBand := (v.coefs.zip bs).map fun p => p.1.step x p.2

/-- The DC estimate after a sample (R208): m + α × (x − m). -/
def OscEnv.mean (v : OscEnv) (m x : Dy) : Dy := r40 "osc.mean" (m.add (v.alpha.mul (x.sub m)))

/-- x′ = x − m. -/
def oscLess (x m : Dy) : Dy := r40 "osc.less" (x.sub m)

/-- KIND 2's value of an unwrapped separation u in units of 1/65 536 turn: u × 360 / 65 536 degrees. -/
def oscDeg (u : Int) : Dy := r40 "osc.deg" ⟨u * 45, -13⟩

/-- π × 10^39. -/
def piE39 : Nat := 3141592653589793238462643383279502884197

/-- Samples after which a band at centre c is ready: ⌈3 F_c / (π × BW × c)⌉ (R211). -/
def readyAfter (fc bw c : Nat) : Nat :=
  ceilDiv (3 * fc * 1024 * 10 ^ 39 * 2 ^ 149) (max 1 (piE39 * bw * fu c))

/-- One present value enters a signal (R207, R208). The samples each band needs are fixed when the signal starts, since re-centring
changes no readiness (R213). -/
def OscEnv.enter (v : OscEnv) (kind : Nat) (w : OscVal) : Option OscRun → OscRun
  | none =>
    let u := sext 16 w.sep
    let x := if kind == 2 then oscDeg u else w.x
    { x := x, th := w.sep, u := u, mean := x, n := 1, miss := 0, missing := false, unauth := w.ua
      need := v.centres.map (readyAfter v.fc v.bw), bands := v.bands Dy.zero bandsZero }
  | some o =>
    let u := o.u + sext 16 (subMod 16 w.sep o.th)
    let x := if kind == 2 then oscDeg u else w.x
    let m := v.mean o.mean x
    { o with
      x := x, th := w.sep, u := u, mean := m, n := o.n + 1, miss := 0, missing := false, unauth := w.ua
      bands := v.bands (oscLess x m) o.bands }

/-- A missing sample: the previous value takes its place (R206). -/
def OscEnv.heldStep (v : OscEnv) (o : OscRun) : OscRun :=
  let m := v.mean o.mean o.x
  { o with
    mean := m, n := o.n + 1, miss := o.miss + 1, missing := true, unauth := false
    bands := v.bands (oscLess o.x m) o.bands }

/-- The gap before a set is filled (R223), the signal held at its last value. -/
def OscEnv.gap (v : OscEnv) (g : Nat) (o : OscRun) : OscRun :=
  if g == 0 then o
  else
    let r := (Dy.sub ⟨1, 0⟩ v.alpha).pow 32 g
    { o with
      mean := r40 "osc.mean" ((r.mul o.mean).add ((Dy.sub ⟨1, 0⟩ r).mul o.x)), n := o.n + g
      bands := (v.coefs.zip o.bands).map fun p => p.1.fill g (oscLess o.x o.mean) p.2 }

/-- Is band b of a signal ready. -/
def OscRun.ready (o : OscRun) (b : Nat) : Bool := decide ((o.need[b]?).getD 0 ≤ o.n)

/-- Are all bands of a signal ready. -/
def OscRun.allReady (o : OscRun) : Bool := (List.range 64).all o.ready

/-- a[i, b] of a signal. -/
def OscRun.amp (o : OscRun) (b : Nat) : Nat := ((o.bands[b]?).map OscBand.out).getD 0

/-- Enabled signals in effect. -/
def State.oscEnabled (s : State) : List (Nat × OscSig) := s.osc.sigs.eff.filter fun p => p.2.enable

/-- Tracked signals in effect (R214). -/
def State.oscTracked (s : State) : List (Nat × OscSig) := s.oscEnabled.filter fun p => p.2.track

/-- The environment of epoch `tag` at cadence fc. -/
def State.oscEnv (s : State) (tag fc : Nat) : OscEnv :=
  let bw := s.egetAt tag F.OSC_BW_BW
  let cs := (List.range 64).map s.oscCentre
  ⟨fc, bw, oscAlpha s.oscPlace.lo fc, cs, cs.map (oscCoef bw fc)⟩

/-! ### Aggregate spectrum and peaks (R212) -/

/-- a² / P of each ready band of a signal, P the mean of a² over its ready bands; open where every a is zero. -/
def OscRun.shares (i : Nat) (o : OscRun) : List (Option Dy) :=
  let sq (b : Nat) : Dy := (Dy.ofF32 (o.amp b)).mul (Dy.ofF32 (o.amp b))
  let rd := (List.range 64).filter o.ready
  let sum := rd.foldl (fun a b => a.add (sq b)) Dy.zero
  (List.range 64).map fun b =>
    if !o.ready b then none
    else if sum.m == 0 then some (Dy.ofF32 (absF (Config.op "osc.share" [i, b])))
    else some (((sq b).mul (Dy.ofInt rd.length)).div sum)

/-- S_b for each band (R212): over tracked signals, or all enabled ones where none is tracked; zero where no signal's band is ready. -/
def State.oscSpectrum (s : State) : List Dy :=
  let l := if s.oscTracked.isEmpty then s.oscEnabled else s.oscTracked
  let sh := l.filterMap fun p => (mget s.osc.run p.1).map (OscRun.shares p.1)
  (List.range 64).map fun b => r40 "osc.S" ((sh.filterMap fun x => (x[b]?).getD none).foldl Dy.add Dy.zero)

/-- S_b of a spectrum. -/
def specAt (sp : List Dy) (b : Nat) : Dy := (sp[b]?).getD Dy.zero

/-- Is band b a peak of a spectrum. -/
def oscPeak (p : OscPlace) (peakr : Nat) (sp : List Dy) (b : Nat) : Bool :=
  let f := specAt sp
  decide (1 ≤ b) && decide (b ≤ 62) && !p.fix b && (f (b - 1)).lt (f b) && !(f b).lt (f (b + 1)) &&
    !(Dy.mul ⟨32, 0⟩ (f b)).lt (Dy.mul ⟨peakr, 0⟩ ((f (b - 1)).add (f (b + 1))))

/-- The peaks of the last run's spectrum. -/
def State.oscPeaks (s : State) : List Nat :=
  (List.range 64).filter (oscPeak s.oscPlace (s.egetAt s.osc.epoch F.OSC_RECENTRE_PEAKR) s.osc.spectrum)

/-- Of bands, the one with the largest S_b; of equal ones the lowest. -/
def State.oscHighest (s : State) (l : List Nat) : Option Nat :=
  l.foldl (fun (m : Option Nat) b => match m with
    | none => some b
    | some x => if (specAt s.osc.spectrum x).lt (specAt s.osc.spectrum b) then some b else some x) none

/-! ### Re-centring (BAND_RECENTRE_PASS) -/

/-- Δu_b in units of 2^-192: the smaller distance in ln(frequency) to a nominal neighbour. -/
def OscPlace.du (p : OscPlace) (b : Nat) : Int :=
  let d (j : Nat) : Int := ((lnFx (fu (p.nominal j)) - lnFx (fu (p.nominal b))).natAbs : Nat)
  if b == 0 then d 1 else if b == 63 then d 62 else min (d (b - 1)) (d (b + 1))

/-- A frequency at position u in ln of units of 2^-149 Hz: one of the two floats beside it that passes a test, which of them is open;
`dflt` where neither does. -/
def freqAt (u : Int) (ok : Nat → Bool) (dflt pick : Nat) : Nat :=
  let x := expFx u
  let n := f32Round x.num (x.den * 2 ^ 149)
  let o := if (Dy.sub ⟨fu n, 0⟩ x).m < 0 then n + 1 else n - 1
  let l := [n, o].filter ok
  (l[pick % l.length]?).getD dflt

/-- v held from −lim to lim. -/
def clampTo (lim v : Int) : Int := max (-lim) (min lim v)

/-- How far a band's target lies from its centre (R212), in units of 2^-192: δ × Δu_b for a peak, whose neighbours' S enter by their
logarithms; open where one of these is zero. -/
def State.oscDelta (s : State) (b : Nat) : Int :=
  let f := specAt s.osc.spectrum
  let l := f (b - 1)
  let r := f (b + 1)
  if l.m == 0 || r.m == 0 then
    let x := Config.op "osc.delta" ([b] ++ l.key ++ (f b).key ++ r.key)
    if x % 2 == 0 then x / 2 else -(x / 2 : Nat)
  else ((l.ln - r.ln) * s.oscPlace.du b).tdiv (2 * (l.ln - 2 * (f b).ln + r.ln))

/-- One band's move (R212): the new centre. It keeps within (STEP / 256) × Δu_b of the old and (LIMIT / 256) × Δu_b of the nominal one. -/
def State.oscMove (s : State) (b : Nat) : Nat :=
  let p := s.oscPlace
  let f := p.nominal b
  let c := s.oscCentre b
  let lim := s.egetAt s.osc.epoch F.OSC_RECENTRE_LIMIT
  let step := s.egetAt s.osc.epoch F.OSC_RECENTRE_STEP
  let pk := s.oscPeaks.contains b
  if p.fix b then c
  else if lim == 0 then f
  else if !pk && p.within b c f 256 step true then f
  else
    let du := p.du b
    let uf := lnFx (fu f)
    let uc := lnFx (fu c)
    let d := clampTo (du * step / 256) (if pk then s.oscDelta b else uf - uc)
    let u := uf + clampTo (du * lim / 256) (uc + d - uf)
    if u == uc then c
    else freqAt u (fun x => p.within b x f 256 lim true && p.within b x c 256 step true) c (Config.op "osc.move" [c, f, u.toNat])

/-- New centres; each that moves by more than 1 % of Δu_b logs EV_OSC_RECENTRE (R212). -/
def State.oscSetCentres (s : State) (new : List Nat) : State :=
  let far := (List.range 64).filter fun b =>
    let c := s.oscCentre b
    let n := (new[b]?).getD c
    c != n && !s.oscPlace.within b c n 100 1 true
  let moved := (List.range 64).any fun b => (new[b]?) != some (s.oscCentre b)
  far.foldl (fun s _ => s.ev0 Ev.OSC_RECENTRE) (s.modOsc fun x => { x with centres := new, moved := x.moved || moved })

/-- BAND_RECENTRE_PASS (R212, R213): a pass is due after PERIOD runs. -/
def execBandRecentrePass (s : State) : Result :=
  if s.flag F.OSC_CTRL_RECENTRE_EN && decide (s.egetAt s.osc.epoch F.OSC_RECENTRE_PERIOD ≤ s.osc.passRuns) &&
      s.osc.passRuns != 0 then
    ((s.modOsc fun x => { x with passRuns := 0 }).oscSetCentres ((List.range 64).map s.oscMove)).done
  else s.done

/-! ### Slots (R215 to R217) -/

/-- Have `a` instants at cadence fc lasted `per` periods of f. -/
def periodsPassed (per fc f a : Nat) : Bool := decide (per * fc * 2 ^ 149 ≤ a * fu f)

/-- Is a frequency in the tracking range. -/
def State.oscInRange (s : State) (f : Nat) : Bool :=
  let lo := s.egetAt s.osc.epoch F.OSC_TRKRANGE_FLO_CHZ
  let hi := s.egetAt s.osc.epoch F.OSC_TRKRANGE_FHI_CHZ
  (if lo == 0 then decide (fu s.oscPlace.lo ≤ fu f) else decide (chz lo ≤ 100 * fu f)) &&
    (if hi == 0 then decide (fu f ≤ fu s.oscPlace.hi) else decide (100 * fu f ≤ chz hi))

/-- Bands from whose peak a slot can be seeded now. -/
def State.oscSeedable (s : State) : List Nat :=
  s.oscPeaks.filter fun b =>
    let c := s.oscCentre b
    s.oscInRange c && periodsPassed 2 s.oscFc c (mgetD s.osc.peakRuns b 0) &&
      s.osc.slots.all fun m => !s.oscPlace.within b m.2.freq c 2 1 true

/-- The tracker's inputs (R214): x′ of each tracked signal that has started, divided by its NORM, as operands. -/
def State.oscInputs (s : State) : List Nat :=
  s.oscTracked.flatMap fun p => match mget s.osc.run p.1 with
    | none => [p.1]
    | some o => p.1 :: (r40 "osc.norm" ((oscLess o.x o.mean).div (Dy.ofF32 p.2.norm))).key

/-- What the fit of a slot becomes with a run's inputs, weighted by the current shape, with the forgetting of T_W = NPER / f_m (R216). -/
def State.oscFit (s : State) (m : OscSlot) (fc g : Nat) : Nat :=
  Config.op "osc.fit" ([m.fit, m.freq, s.egetAt s.osc.epoch F.OSC_TRACK_NPER, fc, g] ++ (m.shape.flatMap fun x => [x.1, x.2.1, x.2.2]) ++
    s.oscInputs)

/-- The lowest float not below n hundredths of a hertz. -/
def chzUp (n : Nat) : Nat := let x := f32Round n 100; if 100 * fu x < chz n then x + 1 else x

/-- The highest float not above n hundredths of a hertz. -/
def chzDown (n : Nat) : Nat := let x := f32Round n 100; if chz n < 100 * fu x then x - 1 else x

/-- The ends of the tracking range (R214). -/
def State.oscRange (s : State) : Nat × Nat :=
  let lo := s.egetAt s.osc.epoch F.OSC_TRKRANGE_FLO_CHZ
  let hi := s.egetAt s.osc.epoch F.OSC_TRKRANGE_FHI_CHZ
  (if lo == 0 then s.oscPlace.lo else chzUp lo, if hi == 0 then s.oscPlace.hi else chzDown hi)

/-- Of normalised amplitudes by signal, the signal with the largest; of equal ones the lowest. -/
def oscSource (l : List (Nat × Nat)) : Option (Nat × Nat) :=
  l.foldl (fun (m : Option (Nat × Nat)) p => match m with
    | none => some p
    | some x => if x.2 < p.2 then some p else some x) none

/-- What a run's fit gives (R216). The fit's frequency, damping ratio, normalised amplitudes, angles and envelope are open functions of its
state; SOURCE, AMP, AMP_i and the shape's MAG follow from the amplitudes and NORM. With no tracked signal SOURCE and AMP are open. -/
def State.oscEstimate (s : State) (m : OscSlot) (fresh : Bool) : OscSlot :=
  let r := s.oscRange
  let op (t : String) (l : List Nat) : Nat := Config.op t (m.fit :: l)
  let phi := s.oscTracked.map fun p => (p.1, absF (op "osc.fit.phi" [p.1]))
  let norm (i : Nat) : Dy := Dy.ofF32 (((mget s.oscTracked i).map fun e => e.norm).getD 0)
  let amps := phi.map fun p => (p.1, ((Dy.ofF32 p.2).mul (norm p.1)).toF32 (op "osc.fit.round" [p.1]))
  let shape (q : Nat × Nat) : List (Nat × (Nat × Nat)) := phi.map fun p =>
    if p.1 == q.1 then (p.1, (65535, 0))
    else (p.1, (if fu q.2 == 0 then op "osc.fit.mag" [p.1] % 65536 else (2 * 65535 * fu p.2 + fu q.2) / (2 * fu q.2),
      op "osc.fit.ang" [p.1] % 65536))
  let m := { m with
    freq := if fresh then m.freq else r.1 + op "osc.fit.freq" [] % (r.2 - r.1 + 1), zeta := unitF (op "osc.fit.zeta" []) }
  match oscSource phi with
  | none => { m with source := op "osc.fit.source" [] % 1024, amp := absF (op "osc.fit.amp" []), amps := [], shape := [] }
  | some q => { m with source := q.1, amp := mgetD amps q.1 0, amps := amps, shape := shape q }

/-- EV_OSC_MODE_NEW (R215): the highest seedable peak takes a free slot. -/
def execEvOscModeNew (s : State) : Result :=
  let free := (List.range (s.egetAt s.osc.epoch F.OSC_TRACK_MODEMAX)).find? fun i => (mget s.osc.slots i).isNone
  match s.flag F.OSC_CTRL_TRACK_EN, free, s.oscHighest s.oscSeedable with
  | true, some i, some b =>
    let id := if s.osc.modeId == 65535 then 1 else s.osc.modeId + 1
    let c := s.oscCentre b
    let m : OscSlot := { id := id, order := s.osc.seeds, age := 0, cls := 0, cntForced := 0, cntNatural := 0, noPeak := 0
                         fit := Config.op "osc.fit.start" (id :: c :: s.oscInputs), env := [], freq := c, zeta := 0, amp := 0, source := 0
                         amps := [], shape := [], fvalid := false, zvalid := false, seeded := true, classed := false }
    ((s.modOsc fun x => { x with
      modeId := id, seeds := x.seeds + 1, slots := mput x.slots i (s.oscEstimate m true) }).ev0 Ev.OSC_MODE_NEW).done
  | _, _, _ => s.done

/-- A slot is released; its class stays for the clears of its instances (R228). -/
def State.oscRelease (s : State) (i : Nat) : State :=
  (s.modOsc fun x => { x with
    slots := merase x.slots i, lostCls := mput x.lostCls i (((mget x.slots i).map fun m => m.cls).getD 0) }).ev0 Ev.OSC_MODE_LOST

/-- EV_OSC_MODE_LOST (R215): a slot without a peak for DROP periods, or too near to an older one, is released. -/
def execEvOscModeLost (slot : Nat) (s : State) : Result :=
  match mget s.osc.slots slot with
  | none => s.done
  | some m =>
    let b := s.oscBandOf m.freq
    let quiet := periodsPassed (s.egetAt s.osc.epoch F.OSC_TRACK_DROP) s.oscFc m.freq m.noPeak
    let near := s.osc.slots.any fun o => decide (o.2.order < m.order) && s.oscPlace.within b m.freq o.2.freq 2 1 true
    if quiet || near || !s.flag F.OSC_CTRL_TRACK_EN then (s.oscRelease slot).done else s.done

/-- EV_OSC_CLASS (R217): a slot's class changes once a condition has held for CLS_PER periods. -/
def execEvOscClass (slot : Nat) (s : State) : Result :=
  match mget s.osc.slots slot with
  | none => s.done
  | some m =>
    let per := s.egetAt s.osc.epoch F.OSC_CLASS_CLS_PER
    let due (n : Nat) : Bool := n != 0 && periodsPassed per s.oscFc m.freq n
    let nc := if due m.cntForced then 2 else if due m.cntNatural then 1 else m.cls
    if nc == m.cls then s.done
    else ((s.modOsc fun x => { x with slots := mput x.slots slot { m with cls := nc, classed := true } }).ev0 Ev.OSC_CLASS).done

/-! ### Restarts (R206, R223, R224, R229) -/

/-- A started signal restarts: counted; its state is cleared. -/
def State.oscRestart (s : State) (i : Nat) : State :=
  match mget s.osc.run i with
  | none => s
  | some _ => (s.modOsc fun x => { x with run := merase x.run i }).inc F.OSC_CNT_RESTART_COUNT

/-- Every signal restarts. -/
def State.oscRestartAll (s : State) : State :=
  ((s.osc.run.map fun p => p.1).foldl (fun s i => s.oscRestart i) s).ev0 Ev.OSC_RESTART

/-- Signals and mode slots whose own state was lost start anew (R455). Answers whether there was one. -/
def State.oscLost (s : State) : State × Bool :=
  let ks := s.stateLost 36 (s.osc.run.map fun p => p.1)
  let km := s.stateLost 37 (s.osc.slots.map fun p => p.1)
  let s := ks.foldl (fun (s : State) i => ((s.oscRestart i).ev Ev.OSC_RESTART 0 [(10, i)]).heal 36 i) s
  (km.foldl (fun (s : State) i => (s.oscRelease i).heal 37 i) s, !(ks.isEmpty && km.isEmpty))

/-- OSC_SIGNAL_RESTART (R206): a signal whose samples have been missing for SIGGAP runs restarts. -/
def execOscSignalRestart (sig : Nat) (s : State) : Result :=
  match mget s.osc.run sig with
  | none => s.done
  | some o =>
    if s.get F.OSC_GAP_SIGGAP ≤ o.miss && o.miss != 0 then ((s.oscRestart sig).ev Ev.OSC_RESTART 0 [(10, sig)]).done else s.done

/-! ### Alarm rules (R218 to R220, R228) -/

/-- A transition with its place in the packet: rule × 16 + slot. -/
structure OscTrans where
  place : Nat
  dir : Nat
  word : Nat

/-- Inserts by ascending place, after those of the same. -/
def oscInsert (t : OscTrans) : List OscTrans → List OscTrans
  | [] => [t]
  | x :: r => if t.place < x.place then t :: x :: r else x :: oscInsert t r

/-- A run's alarms: the state and its transitions. -/
structure OscAlarms where
  s : State
  trans : List OscTrans

/-- What an instance names in a transition. -/
def OscAlarms.add (a : OscAlarms) (inst scope dir subj grp cause value fl : Nat) : OscAlarms :=
  let s := if dir == 1 then ((a.s.almSet (almKey 3 inst) grp).inc F.OSC_CNT_RAISE_COUNT).ev0 Ev.OSC_RAISE
    else ((a.s.almClear (almKey 3 inst)).inc F.OSC_CNT_CLEAR_COUNT).ev0 Ev.OSC_CLEAR
  let w := (scope - 1) * 2 ^ 70 + dir * 2 ^ 69 + inst / 16 * 2 ^ 61 + subj * 2 ^ 53 + grp % 1024 * 2 ^ 43 + cause * 2 ^ 40 +
    value % 2 ^ 32 * 2 ^ 8 + fl % 256
  ⟨s, oscInsert ⟨inst, dir, w⟩ a.trans⟩

/-- CNT of an instance is zero. -/
def OscAlarms.zero (a : OscAlarms) (inst : Nat) : OscAlarms :=
  { a with s := a.s.modOsc fun x => { x with cnt := merase x.cnt inst } }

/-- The class of the slot an instance was on: of a slot released since the last run, the class it had. -/
def State.oscClassOf (s : State) (slot : Nat) : Nat :=
  (mget s.osc.lostCls slot).getD (((mget s.osc.slots slot).map fun m => m.cls).getD 0)

/-- An instance starts afresh; an active one clears with the cause given. -/
def OscAlarms.stop (a : OscAlarms) (inst scope cause fl : Nat) : OscAlarms :=
  let a := a.zero inst
  match mget a.s.alm.act (almKey 3 inst) with
  | none => a
  | some g =>
    if scope == 1 then a.add inst scope 0 0 g cause 0 fl
    else a.add inst scope 0 (inst % 16) g cause 0 (fl + 8 * a.s.oscClassOf (inst % 16))

/-- The instances of src 3 that are active. -/
def State.oscActive (s : State) : List Nat := (s.alm.act.filter fun p => p.1 / 2 ^ 20 == 3).map fun p => p.1 % 2 ^ 20

/-- Clears what a released slot leaves. -/
def OscAlarms.release (a : OscAlarms) (slot cause fl : Nat) : OscAlarms :=
  let is := a.s.oscActive.filter fun i => i % 16 == slot &&
    ((mget a.s.osc.rules.eff (i / 16)).map fun r => r.scope != 1).getD false
  let scope (i : Nat) : Nat := ((mget a.s.osc.rules.eff (i / 16)).map fun r => r.scope).getD 2
  let a := is.foldl (fun a i => a.stop i (scope i) cause fl) a
  { a with s := a.s.modOsc fun x => { x with cnt := x.cnt.filter fun p =>
      !(p.1 % 16 == slot && ((mget x.rules.eff (p.1 / 16)).map fun r => r.scope != 1).getD false) } }

/-- Does an instance apply to a slot. -/
def OscRule.applies (r : OscRule) (m : OscSlot) : Bool :=
  m.fvalid && f32Le r.flo m.freq && f32Le m.freq r.fhi && bit r.classes m.cls

/-- One evaluation of R219: `met` and `back` are what the value gives. -/
def OscAlarms.eval (a : OscAlarms) (inst : Nat) (r : OscRule) (fc f subj : Nat) (met back : Bool) (value fl : Nat) : OscAlarms :=
  let need := max (ceilDiv (r.holdMs * fc) 1000) (ceilDiv (2 * fc * 2 ^ 149) (fu f))
  let old := mgetD a.s.osc.cnt inst 0
  let put (n : Nat) : OscAlarms := { a with s := a.s.modOsc fun x => { x with cnt := mstore 0 x.cnt inst n } }
  match mget a.s.alm.act (almKey 3 inst) with
  | none =>
    let c := if met then old + 1 else 0
    if need ≤ c then (a.zero inst).add inst r.scope 1 subj r.grp (if r.scope == 2 then 0 else 1) value fl else put c
  | some g =>
    let c := if back then old + 1 else 0
    if need ≤ c then (a.zero inst).add inst r.scope 0 subj g 2 value fl else put c

/-- Evaluates a rule after the tracker. -/
def OscAlarms.rule (a : OscAlarms) (v : OscEnv) (fl : Nat) (uaTrk : Bool) (idx : Nat) (r : OscRule) : OscAlarms :=
  if !r.enable || r.scope == 0 then a
  else if r.scope == 1 then
    match mget a.s.osc.run r.sig with
    | none => a
    | some o =>
      let bs := (List.range 64).filter fun b => decide (r.blo ≤ b) && decide (b ≤ r.bhi) && o.ready b
      let amp := o.amp
      match bs.foldl (fun (m : Option Nat) b => match m with
          | none => some b
          | some x => if amp x < amp b then some b else some x) none with
      | none => a
      | some b =>
        let x := amp b
        a.eval (16 * idx) r v.fc ((v.centres[b]?).getD 1) b (f32Lt r.bound x) (f32Le x (f32AddSub true r.bound r.hyst)) x
          (fl + 2 * b2n o.unauth)
  else (a.s.osc.slots).foldl (fun a p =>
    let m := p.2
    let inst := 16 * idx + p.1
    let f := fl + 2 * b2n uaTrk + 8 * m.cls
    if !r.applies m then a
    else if r.scope == 2 then
      if m.zvalid then
        a.eval inst r v.fc m.freq p.1 (f32Lt m.zeta r.bound) (f32Le (f32AddSub false r.bound r.hyst) m.zeta) m.zeta f
      else a
    else match mget m.amps r.sig with
      | none => a
      | some x => a.eval inst r v.fc m.freq p.1 (f32Lt r.bound x) (f32Le x (f32AddSub true r.bound r.hyst)) x f) a

/-! ### The run (R222 to R229) -/

/-- Mode words of a slot (R226). -/
def State.oscModeWords (s : State) (i : Nat) (m : OscSlot) : List Nat :=
  let act := s.oscActive.any fun k => k % 16 == i && ((mget s.osc.rules.eff (k / 16)).map fun r => r.scope != 1).getD false
  let fl := b2n m.fvalid + 2 * b2n m.zvalid + 4 * b2n m.seeded + 8 * b2n m.classed + 16 * b2n act
  [m.id * 2 ^ 56 + i * 2 ^ 52 + m.cls * 2 ^ 50 + m.source % 1024 * 2 ^ 40 + m.freq * 2 ^ 8 + fl,
    (if m.zvalid then m.zeta else f32NaN) * 2 ^ 40 + m.amp * 2 ^ 8 + m.shape.length]

/-- Shape words of a slot (R227). -/
def State.oscShapeWords (s : State) (i : Nat) (m : OscSlot) : List Nat :=
  m.shape.map fun p => p.1 * 2 ^ 62 + p.2.1 * 2 ^ 46 + p.2.2 * 2 ^ 30 + i * 2 ^ 26 + 1 +
    2 * b2n (((mget s.osc.run p.1).map fun o => o.missing).getD true)

/-- Centres outside a new LIMIT are clamped to it (R42, R229). -/
def State.oscClamp (s : State) (lim : Nat) : State :=
  let p := s.oscPlace
  s.oscSetCentres ((List.range 64).map fun b =>
    let c := s.oscCentre b
    let f := p.nominal b
    let d := p.du b * lim / 256
    if p.within b c f 256 lim true then c
    else freqAt (lnFx (fu f) + (if fu c < fu f then -d else d)) (fun x => p.within b x f 256 lim true) f
      (Config.op "osc.clamp" [c, f, lim]))

/-- A boundary run takes up written configuration (R229). Answers whether anything was written, and whether every
signal restarted. -/
def OscAlarms.boundary (a : OscAlarms) (tag fl : Nat) : OscAlarms × Bool × Bool :=
  let s := a.s
  let ks := s.osc.sigs.dueKeys tag
  let kr := s.osc.rules.dueKeys tag
  let kp := s.osc.place.dueKeys tag
  let all := [R.OSC_BW, R.OSC_RECENTRE, R.OSC_TRACK, R.OSC_TRKRANGE, R.OSC_CLASS, R.OSC_CLASSHYST]
  let regs := if s.osc.epoch == tag then [] else (s.epochWrites s.osc.epoch tag).filter all.contains
  let trk := s.oscTracked.map fun p => p.1
  let scopes := kr.map fun i => (i, ((mget s.osc.rules.eff i).map fun r => r.scope).getD 2)
  let a := scopes.foldl (fun a p =>
    let is := a.s.oscActive.filter fun k => k / 16 == p.1
    let a := is.foldl (fun a k => a.stop k p.2 3 fl) a
    { a with s := (a.s.modOsc fun x => { x with cnt := x.cnt.filter fun q => q.1 / 16 != p.1 }) }) a
  let s := a.s.modOsc fun x => { x with
    sigs := x.sigs.takeThrough tag, rules := x.rules.takeThrough tag, place := x.place.takeThrough tag, epoch := tag }
  let s := ks.foldl (fun s i => s.heal 5 i) s
  let s := ks.foldl (fun s i =>
    if (mget s.osc.run i).isSome then (s.oscRestart i).ev Ev.OSC_RESTART 0 [(10, i)] else s) s
  let s := if kp.isEmpty then s else s.modOsc fun x => { x with centres := (List.range 64).map s.oscPlace.nominal }
  let hard := !kp.isEmpty || regs.contains R.OSC_BW
  let s := if hard then s.oscRestartAll else s
  let rel := hard || regs.contains R.OSC_TRACK || regs.contains R.OSC_TRKRANGE || (s.oscTracked.map fun p => p.1) != trk
  let a : OscAlarms := { a with s := s }
  let a := if rel then s.osc.slots.foldl (fun a p => let a := a.release p.1 3 fl; { a with s := a.s.oscRelease p.1 }) a else a
  let lim := a.s.egetAt tag F.OSC_RECENTRE_LIMIT
  let s := if regs.contains R.OSC_RECENTRE then a.s.oscClamp lim else a.s
  let reconf := !(ks.isEmpty && kr.isEmpty && kp.isEmpty && regs.isEmpty)
  ({ a with s := if reconf then s.ev0 Ev.OSC_RECONF else s }, reconf, hard)

/-- A full restart: every signal restarts and every slot is released (R223, R224). -/
def OscAlarms.restart (a : OscAlarms) (cause fl : Nat) : OscAlarms :=
  let a : OscAlarms := { a with s := a.s.oscRestartAll }
  let a := a.s.osc.slots.foldl (fun a p => let a := a.release p.1 cause fl; { a with s := a.s.oscRelease p.1 }) a
  { a with s := a.s.modOsc fun x => { x with peakRuns := [], spectrum := [] } }

/-- The placement at a new cadence: it falls back where the cadence is too slow for it (R224); that of reset follows the cadence. -/
def State.oscFallback (s : State) (fc : Nat) : State :=
  if (mget s.osc.place.eff 0).isNone then s.modOsc fun x => { x with centres := (List.range 64).map s.oscPlace.nominal }
  else if decide (fc * 2 ^ 149 < 4 * fu s.oscPlace.hi) then
    let p := OscPlace.dflt fc
    (s.modOsc fun x => { x with
      place := { x.place with eff := mput x.place.eff 0 p }, centres := (List.range 64).map p.nominal }).ev0 Ev.OSC_CFG_RANGE
  else s

/-- Every enabled signal takes its sample (R205 to R210); the count of filled samples. -/
def State.oscSamples (s : State) (v : OscEnv) (d : SetDesc) (g : Nat) : State × Nat × Bool :=
  s.oscEnabled.foldl (fun (acc : State × Nat × Bool) p =>
    let s := acc.1
    let o := (mget s.osc.run p.1).map (v.gap g)
    match s.oscSample d p.1 p.2, o with
    | some w, o => (s.modOsc fun x => { x with run := mput x.run p.1 (v.enter p.2.kind w o) }, acc.2)
    | none, some o => (s.modOsc fun x => { x with run := mput x.run p.1 (v.heldStep o) }, acc.2.1 + 1, true)
    | none, none => (s, acc.2.1, true)) (s, 0, false)

/-- Is the coefficient of variation of an envelope, its standard deviation over its mean, below x / 256; open of an envelope that is
zero throughout, where `pick` decides. -/
def cvBelow (env : List Nat) (x pick : Nat) : Bool :=
  let sum := (env.map fu).foldl (· + ·) 0
  let sq := (env.map fun e => fu e * fu e).foldl (· + ·) 0
  if sum == 0 then pick % 65536 < 256 * x
  else decide (65536 * (env.length * sq - sum * sum) < x * x * (sum * sum))

/-- The envelope over T_W = NPER / f_m (R217): a new value after g instants at the last one. -/
def envPush (nper fc f g e : Nat) (env : List Nat) : List Nat :=
  let n := max 1 (ceilDiv (nper * fc * 2 ^ 149) (max 1 (fu f)))
  (e :: (List.replicate (min g n) ((env.head?).getD e) ++ env)).take n

/-- The tracker's part of a run for one slot (R215 to R217). -/
def State.oscTrack (s : State) (fc g : Nat) (peaks : List Nat) (i : Nat) (m : OscSlot) : State :=
  let fresh := m.seeded
  let m := s.oscEstimate (if fresh then m else { m with fit := s.oscFit m fc g }) fresh
  let get := s.egetAt s.osc.epoch
  let env := envPush (get F.OSC_TRACK_NPER) fc m.freq g (absF (Config.op "osc.fit.env" [m.fit])) m.env
  let m := { m with age := if fresh then 0 else m.age + 1 + g, fvalid := !fresh, env := env }
  let zv := !fresh && periodsPassed (get F.OSC_TRACK_MINPER) fc m.freq m.age
  let zf := get F.OSC_CLASS_ZETA_F
  let zh := get F.OSC_CLASSHYST_ZHYST
  let cf := get F.OSC_CLASS_CV_F
  let ch := get F.OSC_CLASSHYST_CVHYST
  let z10 : Int := f32Units m.zeta * 10000
  let cv (x : Nat) : Bool := cvBelow env x (Config.op "osc.fit.cv" [m.fit])
  let forced := zv && zf != 0 && decide (z10 < (zf * 2 ^ 149 : Nat)) && cv cf
  let natural := zv && (decide (((zf + zh) * 2 ^ 149 : Nat) ≤ z10) || !cv (cf + ch))
  let b := s.oscBandOf m.freq
  let near := peaks.any fun p => decide (p ≤ b + 1) && decide (b ≤ p + 1)
  let m := { m with
    zvalid := zv, cntForced := if forced then m.cntForced + 1 else 0, cntNatural := if natural then m.cntNatural + 1 else 0
    noPeak := if near then 0 else m.noPeak + 1 + g }
  s.modOsc fun x => { x with slots := mput x.slots i m }

/-- A whole run on a set. -/
def State.oscRun (s : State) (d : SetDesc) : State :=
  let fl := s.transFlags d.tq
  let fc := rateOf d.rate
  let first := ((s.osc.last.map fun l => l.2.2).getD Aln.reset.cad) != d.rate
  let g := match s.osc.last with
    | none => 0
    | some l =>
      let n := nearest fc l.1 l.2.1
      (d.soc * fc + d.k) - (n.1 * fc + n.2.1) - 1
  let fillmax := s.get F.OSC_GAP_FILLMAX
  let lost := ((s.modOsc fun x => { x with last := some (d.soc, d.ns, d.rate) }).inc F.OSC_RUNS_COUNT).oscLost
  let s := lost.1
  let b := OscAlarms.boundary ⟨s, []⟩ d.epoch fl
  let a := b.1
  let reconf := b.2.1
  let a := if first then let a := a.restart 3 fl; { a with s := a.s.oscFallback fc } else a
  let big := !first && decide (fillmax < g)
  let a := if big then a.restart 4 fl else a
  let filled := !first && !big && g != 0
  let hard := first || big || b.2.2
  let s := if filled then a.s.ev0 Ev.OSC_FILL else a.s
  let s := if s.osc.centres.isEmpty then s.modOsc fun x => { x with centres := (List.range 64).map s.oscPlace.nominal } else s
  -- samples, spectrum, peaks
  let v := s.oscEnv d.epoch fc
  let fg := if filled then g else 0
  let r := s.oscSamples v d fg
  let s := r.1.add F.OSC_CNT_FILL_COUNT r.2.1
  let s := s.modOsc fun x => { x with spectrum := s.oscSpectrum, passRuns := x.passRuns + 1 }
  let peaks := s.oscPeaks
  let s := s.modOsc fun x => { x with peakRuns := peaks.map fun p => (p, mgetD x.peakRuns p 0 + 1) }
  -- tracker
  let a : OscAlarms := ⟨s, a.trans⟩
  let a := if s.flag F.OSC_CTRL_TRACK_EN then a
    else s.osc.slots.foldl (fun a p => let a := a.release p.1 4 fl; { a with s := a.s.oscRelease p.1 }) a
  let a : OscAlarms := { a with s := a.s.osc.slots.foldl (fun s p => s.oscTrack fc fg peaks p.1 p.2) a.s }
  -- rules
  let a := (List.range 16).foldl (fun a i => match mget a.s.osc.slots i with
    | none => a.release i 4 fl
    | some m => if m.seeded then a.release i 4 fl else a) a
  let a := a.s.oscActive.foldl (fun a k => match mget a.s.osc.rules.eff (k / 16) with
    | none => a
    | some q => match mget a.s.osc.slots (k % 16) with
      | some m => if q.scope == 1 || q.applies m then a else a.stop k q.scope 4 fl
      | none => a) a
  let uaTrk := a.s.oscTracked.any fun p => ((mget a.s.osc.run p.1).map fun o => o.unauth).getD false
  let a := a.s.osc.rules.eff.foldl (fun a p => a.rule v fl uaTrk p.1 p.2) a
  let s := a.s
  -- transitions
  let almw := s.get F.OSC_RECMAX_ALMW
  let n := a.trans.length
  let over_ := decide (almw < n)
  let s := if over_ then s.add F.OSC_CNT_TRUNC_COUNT (n - almw) else s
  -- the result packet
  let sel : List (Nat × OscSlot) := match s.get F.OSC_CTRL_SHAPE with
    | 0 => []
    | 2 => s.osc.slots
    | _ => s.osc.slots.filter fun p => p.2.seeded || p.2.classed
  let shw := s.get F.OSC_RECMAX_SHAPEW
  let shape : List Nat := (sel.foldl (fun (acc : List Nat × Bool) p =>
    let w := s.oscShapeWords p.1 p.2
    if acc.2 && decide (acc.1.length + w.length ≤ shw) then (acc.1 ++ w, true) else (acc.1, false)) ([], true)).1
  let want : Nat := (sel.map fun p => p.2.shape.length).foldl (· + ·) 0
  let trunc := decide (shape.length < want)
  let nready := (s.oscEnabled.filter fun p => ((mget s.osc.run p.1).map OscRun.allReady).getD false).length
  let flags := b2n s.osc.moved + 2 * b2n filled + 4 * b2n hard + 8 * b2n reconf + 16 * b2n (!shape.isEmpty) + 32 * b2n trunc +
    64 * b2n first + 128 * b2n (r.2.2 || lost.2)
  let p0 := s.almCount 3 * 2 ^ 59 + s.osc.slots.length * 2 ^ 54 + s.oscEnabled.length * 2 ^ 43 + nready * 2 ^ 32 +
    min g 65535 * 2 ^ 16 + flags
  let top := s.oscHighest peaks
  let p1 := s.get F.OSC_RUNS_COUNT * 2 ^ 40 + ((top.map s.oscCentre).getD f32NaN) * 2 ^ 8 + top.getD 0xFF
  let modes := s.osc.slots.flatMap fun p => s.oscModeWords p.1 p.2
  let s := if trunc || over_ then s.ev0 Ev.OSC_TRUNC else s
  let s := s.modOsc fun x => { x with
    moved := false, lostCls := [], shown := x.slots, slots := x.slots.map fun p => (p.1, { p.2 with seeded := false, classed := false }) }
  let arr := shortStamp s.taiNs
  let trans := if n == 0 || almw == 0 then []
    else alarmRecs 3 1 arr d.soc d.ns d.tq ((a.trans.take almw).map OscTrans.word)
  let s := s.publish trans 4 (alarmRecs 3 0 arr d.soc d.ns d.tq ([p0, p1] ++ modes ++ shape))
  (s.runEnd 2 d F.OSC_RUNMAX_CLK (modes.map sword)).raise 46

/-- OSC_ENGINE_RUN (R222). -/
def execOscEngineRun (s : State) : Result :=
  let r := s.engineTake 2
  match r.1 with
  | none => r.2.done
  | some d => (r.2.oscRun d).done

end Sys2Proof.Machine
end

