-- ==== Sys2Proof/Machine/Stored.lean ====
section
/-!
DEFINITION. Sys2Proof/Machine/Stored.lean: flash items, firmware images, difference images and the stored configuration (R484 to R489).
-/
namespace Sys2Proof.Machine

/-! ### Flash items -/

/-- The bytes of a flash item: as written since delivery, else as delivered, which is open (notes/assumptions/80.md). -/
def State.flashItem (s : State) (i : Nat) : List Byte :=
  match mget s.boot.items i with
  | some b => b
  | none => (List.range (if i < 3 then 262144 else 2097152)).map fun o => BitVec.ofNat 8 (Config.op "flash.byte" [i, o])

/-- Stores a flash item. -/
def State.putItem (s : State) (i : Nat) (b : List Byte) : State := s.modBoot fun x => { x with items := mput x.items i b }

/-- Changes the boot header; a header write is one commit (R484). -/
def State.modHdr (s : State) (f : FlashHdr → FlashHdr) : State := s.modBoot fun b => { b with hdr := f b.hdr }

/-- An image slot's image, or the configuration copy, cut to its LEN. -/
def State.fwImage (s : State) (i : Nat) : List Byte := let b := s.flashItem i; b.take (le b 12 4)

/-! ### Images (R485) -/

/-- SHA-256 of bytes, as a big-endian number: an open function. -/
def sha256 (b : List Byte) : Nat := Config.op "sha256" (nums b)

/-- Does an ECDSA P-256 signature of a message verify under the Tepeide image key: an open function. -/
def imageSigOk (msg sig : List Byte) : Bool := Config.op "ecdsa.image" (nums msg ++ nums sig) % 2 == 1

/-- SVN_MIN: the fuses, and what the firmware has burned since (R485). -/
def State.svnMin (s : State) : Nat := max (Config.svnFuses % 65) (s.get F.BOOT_SVN_SVN_MIN)

/-- Is an image valid (R485). -/
def State.imageValid (s : State) (b : List Byte) : Bool :=
  let n := le b 12 4
  le b 0 2 == 0x4657 && le b 2 1 == 1 && decide (256 ≤ n) && decide (n ≤ 262144) && n % 16 == 0 && b.length == n &&
    imageSigOk (b.take 64) (bytesAt b 64 64) && sha256 (b.drop 128) == be b 32 32 && decide (s.svnMin ≤ le b 8 4)

/-- FW_VER of an image. -/
def imageVer (b : List Byte) : Nat := le b 4 4

/-! ### Difference images (R487) -/

/-- The operation stream applied to a base. -/
def applyOps (base : List Byte) : Nat → List Byte → List Byte → Option (List Byte)
  | 0, _, _ => none
  | k + 1, ops, acc =>
    match le ops 0 1 with
    | 0 => if ops.length == 1 then some acc else none
    | 1 =>
      let o := le ops 1 3
      let n := le ops 4 3
      if n == 0 || ops.length < 7 || base.length < o + n then none else applyOps base k (ops.drop 7) (acc ++ (base.drop o).take n)
    | 2 =>
      let n := le ops 1 3
      if n == 0 || ops.length < 4 + n then none else applyOps base k (ops.drop (4 + n)) (acc ++ (ops.drop 4).take n)
    | 3 =>
      let n := le ops 1 3
      if n == 0 || ops.length < 5 then none
      else applyOps base k (ops.drop 5) (acc ++ List.replicate n (BitVec.ofNat 8 (le ops 4 1)))
    | _ => none

/-- The operation stream of a difference image. -/
def diffOps (d : List Byte) : List Byte := bytesAt d 192 (le d 8 4)

/-- The target built from a base and the staged image of a kind; none where the build fails. -/
def buildTarget (kind : Nat) (base staged : List Byte) : Option (List Byte) :=
  if kind == 0 then some staged
  else
    let ops := diffOps staged
    match applyOps base (ops.length + 1) ops [] with
    | some t => if t.length == le staged 12 4 then some t else none
    | none => none

/-- The target if it passes every check of R488. -/
def State.goodTarget (s : State) (base : List Byte) : Option (List Byte) :=
  let st := s.flashItem 2
  let k := s.boot.hdr.kind
  match buildTarget k base (st.take s.boot.hdr.len) with
  | none => none
  | some t => if (k == 0 || sha256 t == be st 48 32) && s.imageValid t then some t else none

/-- TARGET_VER of a staged image. -/
def stagedVer (kind : Nat) (b : List Byte) : Nat := if kind < 2 then le b 4 4 else 0

/-- Does a staged image pass the checks of UPD_STAGE_END (R488). -/
def State.stagedOk (s : State) (kind : Nat) (b : List Byte) : Bool :=
  match kind with
  | 0 => s.imageValid b
  | 1 => imageSigOk (b.take 128) (bytesAt b 128 64) && sha256 (diffOps b) == be b 80 32 &&
      be b 16 32 == sha256 (s.fwImage s.boot.hdr.active)
  | _ => crc32 (b.take (b.length - 4)) == le b (b.length - 4) 4

/-! ### The stored configuration (R489) -/

/-- Opcodes that a stored configuration may not hold. -/
def cfgForbidden (op : Nat) : Bool :=
  op == 0x03 || op == 0x04 || op == 0x60 || op == 0x69 || op == 0x6A || (decide (0x78 ≤ op) && decide (op ≤ 0x99))

/-- What a packet's address field at o names, `skip` bytes on: bytes of the image where bit 63 is 1; anything else is not there to
be read (notes/assumptions/82.md). -/
def imgRead (img p : List Byte) (o skip : Nat) : HostRead :=
  let a := le p o 8
  if bit a 63 && decide (a % 2 ^ 32 < img.length) then .data (img.drop (a % 2 ^ 32 + skip)) else .timeout

/-- A stepped command run to its final status. -/
def runSteps (step : List Nat → State → StepRes) : Nat → List Nat → State → CmdRes
  | 0, _, s => CmdRes.fail St.busy s
  | k + 1, prog, s => match step prog s with
    | .final st res t => ⟨st, res, t⟩
    | .more p t => runSteps step k p t

/-- A stepped command of a stored configuration. -/
def runStepped (check : List Byte → State → Option Nat) (prog0 : List Nat) (step : List Nat → State → StepRes) (p : List Byte)
    (s : State) : CmdRes :=
  match check p s with
  | some st => CmdRes.fail st s
  | none => runSteps step 4096 prog0 s

/-- Two ranges of bytes as one buffer. -/
def twoReads (a b : HostRead) (n : Nat) : HostRead :=
  match a, b with
  | .data x, .data y => .data (padTo n x ++ y)
  | .data x, _ => .data (x.take n)
  | r, _ => r

/-- The parameter area's end of each opcode a stored configuration may hold, and its body. -/
def cfgBody (img p : List Byte) : Nat → Option (Nat × (State → CmdRes))
  | 0x01 => some (8, fun s => ⟨St.ok, [], s⟩)
  | 0x02 => some (12, getInfoBody .pf0 p)
  | 0x10 => some (24, streamAddBody (imgRead img p 8 0) p)
  | 0x11 => some (12, runStepped streamDelCheck [le p 8 2] (streamDelStep p) p)
  | 0x12 => some (40, streamModBody p)
  | 0x13 => some (24, streamCfgLoadBody (imgRead img p 8 0) p)
  | 0x14 => some (26, streamStatsBody .pf0 false p)
  | 0x20 => some (16, cadenceSetBody p)
  | 0x21 => some (24, waitPolicyBody p)
  | 0x28 => some (24, runStepped anglePairsCheck [0] (fun g => anglePairsStep (imgRead img p 8 (32 * g.headD 0)) p g) p)
  | 0x29 => some (24, limitsLoadBody (imgRead img p 8 0) p)
  | 0x30 => some (24, runStepped topoLoadCheck [0]
      (fun g => topoLoadStep (imgRead img p 8 ((if le p 20 1 == 0 then 8 else 24) * g.headD 0)) p g) p)
  | 0x31 => some (24, partitionExpectBody (imgRead img p 8 0) p)
  | 0x38 => some (24, oscSignalsBody (imgRead img p 8 0) p)
  | 0x39 => some (32, oscBandsBody (imgRead img p 24 0) p)
  | 0x40 => some (42, outGroupDefBody (twoReads (imgRead img p 24 0) (imgRead img p 32 0) (32 * le p 14 2)) p)
  | 0x41 => some (48, outDestBody p)
  | 0x42 => some (36, casJoinBody (imgRead img p 24 0) p)
  | 0x43 => some (16, casLeaveBody p)
  | 0x48 => some (24, pmuCfgBody p)
  | 0x49 => some (24, calLoadBody (imgRead img p 8 0) p)
  | 0x4A => some (24, coefLoadBody (imgRead img p 16 0) p)
  | 0x4B => some (16, bankSwapBody p)
  | 0x50 => some (32, nrgSnapshotBody .pf0 false p)
  | 0x51 => some (24, fun s => match nrgPresetBody (imgRead img p 16 0) p s with
      | .inl c => c
      | .inr _ => CmdRes.fail St.pending s)
  | 0x58 => some (32, trgArmBody (imgRead img p 24 0) p)
  | 0x59 => some (16, trgDisarmBody p)
  | 0x5A => some (16, trgForceBody p)
  | 0x5B => some (16, captReleaseBody .pf0 p)
  | 0x61 => some (16, ptpCfgBody p)
  | 0x68 => some (48, twinCfgBody p)
  | 0x70 => some (40, keyLoadBlobBody .pf0 (twoReads (imgRead img p 8 0) (imgRead img p 16 0) 96) false p)
  | 0x71 => some (16, keyEvictBody p)
  | 0x72 => some (16, keyInvalidateBody p)
  | 0x73 => some (24, keyWrapNewBody .pf0 false p)
  | 0x74 => some (32, match le p 8 1 with
      | 1 => keyUpdateRewrapBody .pf0 (imgRead img p 16 0) false p
      | 2 => keyUpdateCommitBody p
      | 3 => keyUpdateAbortBody p
      | _ => keyUpdateBeginBody p)
  | _ => none

/-- Executes one packet of a stored configuration as a PF0 command. -/
def cfgPacket (img p : List Byte) (s : State) : CmdRes :=
  if cfgForbidden (pkOp p) then CmdRes.fail St.badOpcode s
  else match cfgBody img p (pkOp p) with
    | none => CmdRes.fail St.badOpcode s
    | some x => match stages15 .pf0 p x.1 true with
      | some st => CmdRes.fail st s
      | none => x.2 s

/-- Executes packets from the k-th on; the index of the first that does not return ST_OK. -/
def cfgRun (img : List Byte) : Nat → Nat → State → Option Nat × State
  | 0, _, s => (none, s)
  | n + 1, k, s =>
    let c := cfgPacket img (bytesAt img (16 + 64 * k) 64) s
    if c.st == St.ok then cfgRun img n (k + 1) c.s else (some k, c.s)

/-- Is a copy a valid configuration image. -/
def cfgValid (b : List Byte) : Bool :=
  let n := le b 4 4
  le b 0 2 == 0x4347 && le b 2 1 == 1 && zeroAt b 3 1 && zeroAt b 12 4 && decide (64 ≤ n) && decide (n ≤ 2097152) &&
    decide (16 + 64 * le b 8 4 + 4 ≤ n) && decide (n ≤ b.length) && crc32 (b.take (n - 4)) == le b (n - 4) 4

/-- Tries a copy: what it set up, or nothing but EV_BOOT_CFG_BAD where a packet is rejected. -/
def State.tryCfg (s : State) (copy : Nat) : Option State × State :=
  let b := s.flashItem (3 + copy)
  if !cfgValid b then (none, s)
  else
    let img := b.take (le b 4 4)
    match cfgRun img (le b 8 4) 0 s with
    | (none, t) => (some t, s)
    | (some k, t) => (none, ({ s with freeCtr := t.freeCtr } : State).ev Ev.BOOT_CFG_BAD 0 [(32, k)])

/-- A table whose shadow is in effect. -/
def Tbl.settled {α : Type} (t : Tbl α) : Tbl α := { t with dirty := [], pend := [], due := [], eff := t.shadow }

/-- The shadow becomes epoch 1 without a boundary (R482). -/
def State.settleEpoch (s : State) : State :=
  let str := s.ing.streams
  let str := ({ str with shadow := str.shadow.map fun (p : Nat × Stream) => (p.1, { p.2 with fresh := false }) } : Tbl Stream)
  let pol := s.aln.policy
  let pol := ({ pol with shadow := pol.shadow.map fun (p : Nat × Policy) => (p.1, { p.2 with promote := false }) } : Tbl Policy)
  let regs := s.epochRegs
  let s := { s with
    ing := { s.ing with streams := str.settled }
    aln := { s.aln with policy := pol.settled, cad := s.aln.cadShadow, cadDirty := false, cadPend := none, cadDue := none }
    ang := { s.ang with limits := s.ang.limits.settled, pairs := s.ang.pairs.settled }
    isl := { s.isl with nodes := s.isl.nodes.settled, edges := s.isl.edges.settled, expect := s.isl.expect.settled, epoch := 1 }
    osc := { s.osc with sigs := s.osc.sigs.settled, rules := s.osc.rules.settled, place := s.osc.place.settled, epoch := 1 }
    pmu := { s.pmu with cfg := s.pmu.cfg.settled, cal := s.pmu.cal.settled }
    nrg := { s.nrg with corr := s.nrg.corr.settled }
    cmd := { s.cmd with epochs := [(1, regs)], pregs := none, prep := none, rdirty := [], pwrit := [], ewrit := [(1, [])] } }
  let s := (s.set F.CMD_EPOCH_EPOCH 1).set F.ALN_STAT_RATE s.aln.cad
  let s := s.ing.streams.eff.foldl (fun (s : State) (p : Nat × Stream) => s.setStat p.1 (SStat.fresh s.waitInit 1 none true)) s
  let s := s.aln.policy.eff.foldl (fun (s : State) (p : Nat × Policy) => match p.2.fixed with
    | some w => s.modStat p.1 fun x => { x with wait := w }
    | none => s) s
  let s := s.modOut fun o => { o with
    groups := { o.groups with pend := o.groups.shadow.map fun p => (p.1, some p.2), dirty := [] }
    dests := { o.dests with pend := o.dests.shadow.map fun p => (p.1, some p.2), dirty := [] } }
  ((s.outBoundary 1 (s.utcOf s.taiNs)).casBoundary (fun _ => false) (s.utcOf s.taiNs)).mcSync

/-- The stored configuration becomes epoch 1; without one, or with both copies rejected, epoch 1 is empty (R482, R489). -/
def State.loadCfg (s : State) : State :=
  let c := s.boot.hdr.cfg
  if 1 < c then (s.setB F.BOOT_STAT_CFG_ERR true).settleEpoch
  else match s.tryCfg c with
    | (some t, _) => t.settleEpoch
    | (none, s) => match s.tryCfg (1 - c) with
      | (some t, _) => t.settleEpoch
      | (none, s) => (s.setB F.BOOT_STAT_CFG_ERR true).settleEpoch

end Sys2Proof.Machine
end

