-- ==== Sys2Proof/Machine/Boot.lean ====
section
/-!
DEFINITION. Sys2Proof/Machine/Boot.lean: the boot sequence, recovery, staging, hitless restart and the update of slots (R481 to R491).
-/
namespace Sys2Proof.Machine

/-! ### Steps 1 to 4 (R34, R37, R45, R54, R436, R461, R473) -/

/-- The straps and BOOTSEL are sampled: bits as in TOP_STRAPS[4:0]. A reserved value acts as 00. -/
def State.sampleStraps (s : State) (x : Nat) : State :=
  let role := x % 4
  let tier := x / 4 % 4
  let err := role == 3 || tier == 3
  let s := (((s.set F.TOP_STRAPS_ROLE role).set F.TOP_STRAPS_TIER tier).set F.TOP_STRAPS_BOOTSEL (x / 16 % 2)).setB F.TOP_STRAPS_STRAP_ERR err
  let s := (s.set F.TOP_STRAPS_ROLE_EFF (if role == 3 then 0 else role)).set F.TOP_STRAPS_TIER_EFF (if tier == 3 then 0 else tier)
  let s := (s.set F.TWN_STAT_ROLE (if s.twin then 0 else 3)).setB F.TWN_STAT_PREF (s.twin && s.preferred)
  if err then s.ev0 Ev.STRAP_RESERVED else s

/-- Step 1. -/
def State.bootStep1 (s : State) (straps : Nat) : State :=
  let s := s.sampleStraps straps
  let s := s.modTwn fun w => { w with hbNext := s.now + 491520 }
  let s := (s.inc F.BOOT_CNT_STARTS).set F.BOOT_RSTCAUSE_CAUSE s.boot.cause
  let s := if bit s.boot.cause 3 && !bit s.boot.cause 6 then s.incSat F.BOOT_FAILS_FAILS else s
  let s := { s with tim := { s.tim with anchor := some (s.rtc * 1000000000 * 2 ^ 40, s.now) } }
  let s := s.set F.BOOT_STAT_STEP 1
  let s := if s.boot.came == 1 then (s.setB F.PWR_STAT_HOLD_EXIT true).ev Ev.PWR_HOLD_EXIT 0 [(32, s.get F.PWR_HOLDTIME_S)]
    else if s.boot.came == 2 then (s.set F.PWR_HOLDTIME_S 0).ev0 Ev.PWR_COLD
    else s
  (s.modBoot fun b => { b with cause := 0 }).drain

/-- The reference detection of R45 on a count of REFCLK_IN cycles. -/
def State.refDetect (s : State) (n : Nat) : State :=
  let s := (s.set F.BOOT_STAT_STEP 2).modBoot fun b => { b with retryAt := s.now }
  let good (r25 : Bool) : State :=
    (((s.setB F.TIM_PLL_STAT_REF_BAD false).setB F.TIM_PLL_STAT_LOCK (!s.flag F.TIM_PLL_STAT_REF_LOST)).setB F.TIM_PLL_STAT_REF_25 r25).set F.BOOT_STAT_ERR 0
  if 4834 ≤ n && n ≤ 4931 then good false
  else if 12085 ≤ n && n ≤ 12329 then good true
  else (((s.setB F.TIM_PLL_STAT_REF_BAD true).setB F.TIM_PLL_STAT_LOCK false).set F.BOOT_STAT_ERR 1).modBoot fun b => { b with phase := .refWait }

/-- A retained source that is pending and unmasked is due again. -/
def State.redue (s : State) : State :=
  (List.range 128).foldl (fun (s : State) n =>
    if s.flag (bitFld R.IRQ_PEND n) && !s.flag (bitFld R.IRQ_MASK n) then
      (s.setB (bitFld R.IRQ_DUE n) true).modIrq fun i => { i with main := mput i.main n ⟨true, 1, s.now, false⟩ }
    else s) s

/-- Adds what the always-on logic raised during HOLD to a register: PEND bits are set, OCC halves advance. -/
def State.addRaise (s : State) (p : Nat × Dword) : State :=
  let a := (s.rd p.1).toNat
  let b := p.2.toNat
  if p.1 < R.IRQ_PEND + 16 then s.wr p.1 (BitVec.ofNat 32 (Nat.lor a b))
  else s.wr p.1 (BitVec.ofNat 32 ((a % 65536 + b % 65536) % 65536 + 65536 * ((a / 65536 + b / 65536) % 65536)))

/-- The interrupt retention record at a start (R436). -/
def State.restoreIrq (s : State) : State :=
  let done (s : State) : State := s.modBoot fun b => { b with retain := none, holdIrq := [], came := 0 }
  if s.boot.came != 1 then done s
  else match s.boot.retain with
    | none => done ((s.setB F.IRQ_STAT_RETAIN_BAD true).ev0 Ev.IRQ_RETAIN_BAD)
    | some (l : List (Nat × Dword)) =>
      let h := s.boot.holdIrq
      let keep (x : List (Nat × Dword)) : List (Nat × Dword) := x.filter fun p => isRetained p.1
      let s : State := { s with regs := (keep l).foldl (fun (m : List (Nat × Dword)) p => mstore 0 m p.1 p.2) (s.regs.filter fun p => !isRetained p.1) }
      let s := ((keep h).foldl State.addRaise s).redue
      done ((s.setB F.IRQ_STAT_RESTORED true).ev0 Ev.IRQ_RESTORED)

/-- The boot ROM reconstructs the PUF root after a POR; whether it succeeds is open (R461). -/
def State.bootPuf (s : State) : State :=
  if !s.boot.por then s
  else
    let r := s.fresh
    if r.1 % 2 == 1 then (r.2.modKeys fun k => { k with kprv := some (kprvOf (Config.op "puf" [])) }).keySync
    else r.2.ev0 Ev.KEY_PUF_FAIL

/-- Step 4: the boot ROM. A PREPARED key update is rolled back (R473). -/
def State.bootStep4 (s : State) : State :=
  let s := (s.set F.BOOT_STAT_STEP 4).modBoot fun b => { b with rstout := true, wdogAt := some s.now }
  let s := if s.keys.upd.isSome then s.updDrop.ev0 Ev.KEY_UPDATE_ROLLBACK else s
  (s.restoreIrq.bootPuf.modBoot fun b => { b with por := false }).drain

/-! ### Step 6: the image (R486) -/

/-- The image a start boots, with its slot and whether it stands in the active slot; none: recovery. -/
def State.bootPick (s : State) : Option (List Byte × Nat × Bool) × State :=
  let h := s.boot.hdr
  let lim := s.get F.BOOT_FAILS_LIMIT
  let fails := s.get F.BOOT_FAILS_FAILS
  if !h.valid then (none, s.set F.BOOT_STAT_ERR 2)
  else if 2 * lim ≤ fails then (none, s.set F.BOOT_STAT_ERR 4)
  else
    let two := decide (lim ≤ fails) && h.prevOk
    let s := if two then (s.setB F.BOOT_STAT_FALLBACK true).ev0 Ev.BOOT_FALLBACK else s
    let other := s.fwImage (1 - h.active)
    if two && s.imageValid other then (some (other, 1 - h.active, false), s)
    else
      let s := if two then s.incSat F.BOOT_FAILS_FAILS else s
      let target := if h.stage == 1 then s.goodTarget (s.fwImage h.active) else none
      match target with
      | some t => (some (t, h.active, false), (s.set F.UPD_STAT_STATE 3).set F.UPD_STAT_KIND h.kind)
      | none =>
        let s := if h.stage == 1 then
            ((s.modHdr fun x => { x with stage := 3 }).incSat F.BOOT_FAILS_FAILS).ev0 Ev.UPD_VERIFY_FAIL
          else s
        let s := if s.boot.hdr.stage == 3 then s.set F.UPD_STAT_STATE 4 else s
        let img := s.fwImage h.active
        if s.imageValid img then (some (img, h.active, true), s)
        else (none, (s.incSat F.BOOT_FAILS_FAILS).set F.BOOT_STAT_ERR 3)

/-! ### Steps 7 and 8 (R481, R482) -/

/-- The address of a port, and what else the firmware loads from where the spec does not say: open values
(notes/assumptions/83.md). -/
def State.bootLoads (s : State) : State :=
  let s := (List.range 5).foldl (fun (s : State) p =>
    let m := Config.op "port.mac" [p] % 2 ^ 48
    (s.wr (R.MAC_ADDR_LO_P + 0x2000 * p) (BitVec.ofNat 32 m)).wr (R.MAC_ADDR_HI_P + 0x2000 * p) (BitVec.ofNat 32 (m / 2 ^ 32))) s
  let r := s.fresh
  if r.1 % 65536 == 0 then r.2 else (r.2.set F.TIM_UTCOFF_OFFSET r.1).ev0 Ev.TIM_LEAP

/-- Step 7: the image runs on both cores. -/
def State.bootStep7 (s : State) (img : List Byte) (slot : Nat) (inSlot : Bool) : State :=
  let s := s.modBoot fun b => { b with phase := .run, running := img, inSlot := inSlot }
  let s := ((s.setB F.BOOT_STAT_RECOVERY false).set F.BOOT_STAT_ERR 0).set F.BOOT_STAT_SLOT slot
  let s := (s.set F.UPD_FWVER_VER (imageVer img)).set F.BOOT_STAT_STEP 7
  let s := (s.park 0 false).park 1 false
  let s := (s.drain.setB F.EVR_CTRL_EN true).evrStart
  let s := (s.setB F.KEY_CTRL_EN true).setB F.KEY_STAT_RUN true
  s.bootLoads.drain

/-- A register with its EN bit set. -/
def State.withEn (s : State) (a : Nat) : Dword := s.rd a ||| 1#32

/-- Step 8: the enables in order, the stored configuration, READY. -/
def State.bootStep8 (s : State) : State :=
  let s := { s with sett := { s.sett with retired := s.ecc.flashMap } }
  let s := (s.setB F.SET_CTRL_EN true).setB F.SET_CTRL_SCHED_EN true
  let s := s.loadCfg.drain
  let s := s.nrgRestore
  let s := ((s.setB F.NRG_CTRL_EN true).nrgEnable).drain
  let s := s.frontStart
  let s := (s.setB F.PMU_CTRL_EN true).pmuEnable
  let s := s.setB F.TRG_CTRL_EN true
  let s := ((s.setB F.ANG_CTRL_EN true).setB F.ISL_CTRL_EN true).setB F.OSC_CTRL_EN true
  let s := s.alnCtrlWrite (s.withEn R.ALN_CTRL)
  let s := (s.setB F.OUT_CTRL_EN true).setB F.CAS_CTRL_EN true
  let s := s.setB F.ING_CTRL_EN true
  let s := s.twnCtrlWrite (s.withEn R.TWN_CTRL)
  ((s.setB F.BOOT_STAT_READY true).modBoot fun b => { b with readyAt := some s.now }).ev0 Ev.BOOT_READY

/-- Recovery is entered (R483). -/
def State.enterRecovery (s : State) : State :=
  ((s.setB F.BOOT_STAT_RECOVERY true).modBoot fun b => { b with phase := .recovery, retryAt := s.now }).ev0 Ev.BOOT_RECOVERY

/-- Steps 5 and 6, then 7 and 8 or recovery. -/
def State.bootFlash (s : State) : State :=
  let s := s.set F.BOOT_STAT_STEP 6
  let r := s.bootPick
  match r.1 with
  | none => r.2
  | some x => (r.2.bootStep7 x.1 x.2.1 x.2.2).bootStep8

/-- Steps 4 to 8. -/
def State.bootFrom4 (s : State) : State :=
  let s := s.bootStep4
  let s := if s.flag F.TOP_STRAPS_BOOTSEL then (s.set F.BOOT_STAT_STEP 6).set F.BOOT_STAT_ERR 4 else s.bootFlash
  match s.boot.phase with
  | .run => s
  | _ => s.enterRecovery

/-- BOOT_SEQUENCE (R481): with the straps and the reference count found. The reference is detected after a POR, or while it has not been
found (R45). -/
def execBootSequence (straps refCount : Nat) (s : State) : Result :=
  match s.boot.phase with
  | .reset =>
    let s := s.bootStep1 straps
    let s := if s.boot.por || s.flag F.TIM_PLL_STAT_REF_BAD then s.refDetect refCount else s.set F.BOOT_STAT_STEP 2
    match s.boot.phase with
    | .refWait => s.done
    | _ => s.bootFrom4.done
  | _ => s.done

/-- REF_DETECT_RETRY (R481): every 100 ms while REF_BAD is set. -/
def execRefDetectRetry (count : Nat) (s : State) : Result :=
  match s.boot.phase with
  | .refWait =>
    let s := ((s.reach (s.boot.retryAt + ticksOfMs 100)).modBoot fun b => { b with phase := .reset }).refDetect count
    match s.boot.phase with
    | .refWait => s.done
    | _ => s.bootFrom4.done
  | _ => s.done

/-! ### Recovery (R483) -/

/-- RECOVERY_GO: a write of BOOT_RECOV_CTRL with GO = 1 loads an image; boot goes on at step 7 if it is valid. -/
def State.recoveryGo (s : State) (v : Dword) (buf : HostRead) : State :=
  let n := s.get F.BOOT_RECOV_LEN_LEN
  match s.boot.phase with
  | .recovery =>
    if fval F.BOOT_RECOV_CTRL_GO v == 0 || n == 0 || !(s.pfn .pf0).bme then s
    else match buf with
      | .data b =>
        let img := (padTo n b)
        if s.imageValid img then (s.bootStep7 img 0 false).bootStep8 else s.set F.BOOT_STAT_ERR 3
      | _ => s
  | _ => s

/-- RECOVERY_GO. -/
def execRecoveryGo (a : Agent) (v : Dword) (buf : HostRead) (s : State) : Result :=
  (s.gate a R.BOOT_RECOV_CTRL fun s => s.recoveryGo v buf).done

/-- RECOVERY_FLASH_RETRY: every 60 s with BOOTSEL = 0. -/
def execRecoveryFlashRetry (s : State) : Result :=
  match s.boot.phase with
  | .recovery =>
    if s.flag F.TOP_STRAPS_BOOTSEL then s.done
    else
      let s := s.reach (s.boot.retryAt + ticksOfS 60)
      ((s.modBoot fun b => { b with retryAt := s.now }).bootFlash).done
  | _ => s.done

/-! ### What the firmware does afterwards -/

/-- BOOT_FAILS_CLEAR (R486): 600 s after READY. -/
def execBootFailsClear (s : State) : Result :=
  match s.boot.readyAt with
  | some t => (((s.reach (t + ticksOfS 600)).set F.BOOT_FAILS_FAILS 0).modBoot fun b => { b with readyAt := none }).done
  | none => s.done

/-- EV_BOOT_SVN (R485): the running image stands in the active slot and asks for its SVN to be burned. -/
def execEvBootSvn (s : State) : Result :=
  let img := s.boot.running
  if s.running && s.flag F.BOOT_STAT_READY && s.boot.inSlot && bit (le img 3 1) 0 && decide (s.svnMin < le img 8 4) then
    ((s.set F.BOOT_SVN_SVN_MIN (le img 8 4)).ev0 Ev.BOOT_SVN).done
  else s.done

/-- EV_UPD_SLOT_WRITTEN (R488): the target that runs is written into the inactive slot, then the header. -/
def execEvUpdSlotWritten (s : State) : Result :=
  if s.running && s.get F.UPD_STAT_STATE == 3 then
    let n := 1 - s.boot.hdr.active
    let s := s.putItem n s.boot.running
    let s := s.modHdr fun h => { h with active := n, prevOk := true, stage := 2 }
    let s := ((s.set F.BOOT_STAT_SLOT n).set F.UPD_STAT_STATE 0).modBoot fun b => { b with inSlot := true }
    (s.ev0 Ev.UPD_SLOT_WRITTEN).done
  else s.done

/-! ### Staging (R488, R489) -/

/-- UPD_STAGE_BEGIN (0x88): body. -/
def stageBeginBody (p : List Byte) (s : State) : CmdRes :=
  let k := le p 8 1
  let n := le p 12 4
  let bad := if k < 2 then decide (n < 256) || decide (262144 < n) else decide (n < 64) || decide (2097152 < n)
  let st := s.get F.UPD_STAT_STATE
  checked [(decide (2 < k), St.badParam), (!zeroAt p 9 3, St.badParam), (bad, St.badLength),
      (st == 1 || st == 3 || s.boot.restart.isSome, St.busy)] s
    (let area := if k == 2 then (if s.boot.hdr.cfg == 0 then 4 else 3) else 2
     let t := (s.modHdr fun h => { h with stage := 0 }).putItem area []
     let t := t.modBoot fun b => { b with staging := some (k, n), staged := [] }
     ⟨St.ok, [], (((t.set F.UPD_STAT_STATE 1).set F.UPD_STAT_KIND k).set F.UPD_BYTES_N 0).set F.UPD_STAGEVER_VER 0⟩)

/-- UPD_STAGE_BEGIN. -/
def execUpdStageBegin (r : Fn) (s : State) : Result := (s.plain r 0x88 16 false (fun _ => true) stageBeginBody).done

/-- UPD_STAGE_DATA (0x89): checks. -/
def stageDataCheck (p : List Byte) (s : State) : Option Nat :=
  let o := le p 16 4
  let n := le p 20 4
  let len := ((s.boot.staging.map fun x => x.2).getD 0)
  let again := s.boot.staged.any fun b => decide (o ≤ b.1) && decide (b.1 < o + n)
  firstFail [(le p 8 8 % 8 != 0, St.badParam), (o % 256 != 0, St.badParam), (n == 0 || decide (65536 < n), St.badLength),
    (s.boot.staging.isNone, St.state), (decide (len < o + n), St.badLength), (again, St.badParam)]

/-- A step of UPD_STAGE_DATA: programs up to 256 bytes, read with the step; progress is the number of bytes programmed. -/
def stageDataStep (buf : HostRead) (p : List Byte) (prog : List Nat) (s : State) : StepRes :=
  let k := prog.headD 0
  let n := le p 20 4
  let m := min 256 (n - k)
  match hostStatus buf with
  | some st => .final st [] s
  | none =>
    if s.boot.staging.isNone then .final St.state [] s
    else
      let s := s.modBoot fun b => { b with staged := b.staged ++ [(le p 16 4 + k, padTo m (hostBytes buf))] }
      let s := s.add F.UPD_BYTES_N m
      if k + m < n then .more [k + m] s else .final St.ok [] s

/-- UPD_STAGE_DATA. -/
def execUpdStageData (r : Fn) (buf : HostRead) (s : State) : Result :=
  (s.stepped r 0x89 24 stageDataCheck (fun _ => [0]) (stageDataStep buf)).done

/-- The staged bytes in order. -/
def Boot.stagedBytes (b : Boot) (n : Nat) : List Byte :=
  (List.range (ceilDiv n 256)).flatMap fun i => (mget b.staged (256 * i)).getD []

/-- UPD_STAGE_END (0x8A): body. -/
def stageEndBody (p : List Byte) (s : State) : CmdRes :=
  let x := s.boot.staging.getD (0, 0)
  let b := s.boot.stagedBytes x.2
  checked [(!zeroAt p 8 8, St.badParam), (s.boot.staging.isNone || b.length != x.2, St.state)] s
    (let s := s.modBoot fun b => { b with staging := none, staged := [] }
     if !s.stagedOk x.1 b then ⟨St.verifyFail, [], s.set F.UPD_STAT_STATE 0⟩
     else
       let v := stagedVer x.1 b
       let s := (s.set F.UPD_STAT_STATE 2).set F.UPD_STAGEVER_VER v
       if x.1 == 2 then
         let c := if s.boot.hdr.cfg == 0 then 1 else 0
         ⟨St.ok, toLe 4 0, (s.putItem (3 + c) b).modHdr fun h => { h with cfg := c }⟩
       else
         ⟨St.ok, toLe 4 v, (((s.putItem 2 b).modHdr fun h => { h with stage := 1, kind := x.1, len := x.2 })).ev0 Ev.UPD_STAGED⟩)

/-- UPD_STAGE_END. -/
def execUpdStageEnd (r : Fn) (s : State) : Result := (s.plain r 0x8A 16 false (fun _ => true) stageEndBody).done

/-! ### Hitless restart (R490, R491, R415) -/

/-- Both rings pause, or run again; the cores are parked while they are restarted. -/
def State.pauseRings (s : State) (on : Bool) : State :=
  let halted (c : Nat) : Bool := ((mget s.dbg.cores c).map fun (x : DbgCore) => x.halted).getD false
  let s := (s.setB (ringFld .pf0 F.CMD_STAT_PAUSED) on).setB (ringFld .pf1 F.CMD_STAT_PAUSED) on
  let s := (s.park 0 (on || halted 0)).park 1 (on || halted 1)
  s.ev0 Ev.CMD_PAUSE

/-- Allocates n pages of the HANDOVER class; none if one cannot be had. -/
def State.handoverPages : Nat → State → Bool × State
  | 0, s => (true, s)
  | n + 1, s => match s.alloc 6 [] [.handover] with
    | (some _, t) => t.handoverPages n
    | (none, t) => (false, t)

/-- The pages of the handover block. -/
def State.handoverIds (s : State) : List Nat := (s.sett.pages.filter fun p => p.2.holders.contains .handover).map fun p => p.1

/-- Frees the handover block. -/
def State.freeHandover (s : State) : State := s.dropHolds .handover s.handoverIds

/-- RESTART_CONTROL MODE 0 and 1: acceptance, steps 1 to 3. How many pages the block takes is open. -/
def restartBody (mode : Nat) (p : List Byte) (s : State) : CmdRes ⊕ (List Nat × State) :=
  match firstFail (restartChecks mode p s) with
  | some st => .inl (CmdRes.fail st s)
  | none =>
    let r := (s.pauseRings true).fresh
    let h := r.2.handoverPages (1 + r.1 % 8192)
    if h.1 then
      .inr ([], ({ h.2 with cmd := { h.2.cmd with pauseAt := some s.now } } : State).modBoot fun b => { b with restart := some (mode, s.now), wdogAt := none })
    else .inl ⟨St.noResource, [], (h.2.freeHandover.drain).pauseRings false⟩

/-- Step 6, for whichever image runs: the rings run again, the replies that waited and the restart's own are written (R38), and only then do
halts act that were asked for meanwhile. -/
def State.restartEnd (s : State) (last ev st : Nat) (res : List Byte) : State :=
  let s := s.freeHandover
  let s := { s with
    cmd := { s.cmd with pauseAt := none }
    dbg := { s.dbg with cores := s.dbg.cores.map fun (p : Nat × DbgCore) => (p.1, { p.2 with points := [] }) } }
  let s := s.modBoot fun b => { b with restart := none, wdogAt := some s.now }
  let s := ((s.set F.UPD_STAT_LAST last).pauseRings false).ev0 ev
  (s.endWaiting 0x8B st res).haltWaiting.mcSync.mcAnswer

/-- Steps 4 to 6: the image is checked or built, takes the handover block over, and the command is answered. -/
def State.restartFinish (s : State) (mode : Nat) : State :=
  let old := s.boot.running
  let target := if mode == 0 then (if s.imageValid old then some old else none) else s.goodTarget old
  match target with
  | none =>
    let s := if mode == 1 then (s.modHdr fun h => { h with stage := 3 }).set F.UPD_STAT_STATE 4 else s
    s.restartEnd 3 Ev.UPD_VERIFY_FAIL St.verifyFail []
  | some img =>
    let v := le old 20 2
    if s.handoverIds.isEmpty || v < le img 22 2 || le img 20 2 < v then
      s.restartEnd 4 Ev.UPD_HANDOVER_FAIL St.verifyFail []
    else
      let s := (s.modBoot fun b => { b with running := img, inSlot := b.inSlot && mode == 0 }).set F.UPD_FWVER_VER (imageVer img)
      let s := if mode == 1 then s.set F.UPD_STAT_STATE 3 else s
      s.restartEnd (mode + 1) Ev.UPD_HANDOVER_DONE St.ok (toLe 4 (imageVer img))

/-- A row of RESTART_CONTROL: it accepts the command at the head, and while that restart is in progress it completes it
(notes/assumptions/84.md). The row of MODE 0 also answers a MODE out of range. -/
def State.restartRow (s : State) (r : Fn) (mode : Nat) : State :=
  match s.boot.restart with
  | some (m, _) => if m == mode then s.restartFinish m else s
  | none => s.waits r 0x8B 16 (fun p => le p 8 1 == mode || (mode == 0 && decide (2 < le p 8 1))) (restartBody mode)

/-- RESTART_HITLESS (R490). -/
def execRestartHitless (r : Fn) (s : State) : Result := (s.restartRow r 0).done

/-- RESTART_STAGED_UPDATE (R490). -/
def execRestartStagedUpdate (r : Fn) (s : State) : Result := (s.restartRow r 1).done

end Sys2Proof.Machine
end

