-- ==== Sys2Proof/Machine/CmdStep.lean ====
section
/-!
DEFINITION. Sys2Proof/Machine/CmdStep.lean: the command loop's part beside the start of a command: opcodes that no row defines, and the
next step of a stepped command (R412 to R417, R535).
-/
namespace Sys2Proof.Machine

/-- The opcodes of R419. -/
def definedOps : List Nat := [0x01, 0x02, 0x03, 0x04, 0x10, 0x11, 0x12, 0x13, 0x14, 0x20, 0x21, 0x28, 0x29, 0x30, 0x31, 0x38, 0x39, 0x40,
  0x41, 0x42, 0x43, 0x48, 0x49, 0x4A, 0x4B, 0x50, 0x51, 0x58, 0x59, 0x5A, 0x5B, 0x60, 0x61, 0x68, 0x69, 0x6A, 0x70, 0x71, 0x72, 0x73,
  0x74, 0x78, 0x79, 0x7A, 0x80, 0x81, 0x82, 0x88, 0x89, 0x8A, 0x8B, 0x90, 0x98, 0x99]

/-- The next step of a stepped command. -/
def State.nextStep (s : State) (b : List Byte) (buf : HostRead) (prog : List Nat) : StepRes :=
  match pkOp b with
  | 0x03 => commitStep prog s
  | 0x11 => streamDelStep b prog s
  | 0x28 => anglePairsStep buf b prog s
  | 0x30 => topoLoadStep buf b prog s
  | 0x80 => pageRetireStep b prog s
  | 0x82 => scrubFullStep b prog s
  | 0x89 => stageDataStep buf b prog s
  | _ => .final St.state [] s

/-- A stepped command in flight takes its next step, or ends where it has been aborted; one that goes on keeps its place in the order of
start. -/
def State.stepFly (s : State) (r : Fn) (f : Fly) (buf : HostRead) : State :=
  let i := s.cmd.fly.idxOf f
  let s := s.modCmd fun c => { c with fly := c.fly.erase f, todo := c.todo.erase (pkSeq f.bytes) }
  if f.abort then ((s.flyEnd f).reply r f.bytes St.aborted f.steps []).flySync
  else match s.nextStep f.bytes buf f.prog with
    | .final st res t => (t.reply r f.bytes st (stepsDone f.steps st) res).flySync
    | .more p t =>
      let t := t.reply r f.bytes St.stepping (f.steps + 1) []
      (t.modCmd fun c => { c with fly := c.fly.take i ++ { f with steps := f.steps + 1, prog := p } :: c.fly.drop i }).flySync

/-- The head of a ring has an opcode that R419 does not list: its reply. -/
def State.badHead (s : State) (r : Fn) : Option State :=
  match s.head r with
  | none => none
  | some b =>
    if definedOps.contains (pkOp b) then none
    else
      let st := if pkLen b < 2 || 16 < pkLen b then St.badLength else St.badOpcode
      some ((s.popHead r).reply r b st 0 [])

/-- The loop on ring r goes on in its pass, or begins one without a head to start. -/
def State.passNow (s : State) (r : Fn) : State := if s.turnOf r && !s.headReady r then s.beginPass r else s

/-- COMMAND_STEP (R412): the next step of the pass of the loop on ring r. -/
def execCommandStep (r : Fn) (buf : HostRead) (s : State) : Result :=
  match s.badHead r with
  | some t => t.done
  | none =>
    let t := s.passNow r
    match t.passLeft with
    | f :: _ => if f.fn = r then (t.stepFly r f buf).done else s.done
    | [] => s.done

end Sys2Proof.Machine
end

