-- ==== Sys2Proof/Machine/RegRead.lean ====
section
/-!
DEFINITION. Sys2Proof/Machine/RegRead.lean: registers as they read (R13 to R18, R402 to R404): the store, and the values that
the hardware shows from its own state; the latches of wide values.
-/
namespace Sys2Proof.Machine

/-- Is b a register of the family that starts at `base`: n of them, `stride` apart. -/
def inFam (base stride n b : Nat) : Bool := decide (base ≤ b) && (b - base) % stride == 0 && decide ((b - base) / stride < n)

/-- The number of a register in its family. -/
def famIdx (base stride b : Nat) : Nat := (b - base) / stride

/-- PF1's own copy of a selector, or PF0's (R404). -/
def State.selOf (s : State) (a : Agent) (f : Fld) : Nat := s.get (if a = .pf1 then { f with addr := f.addr + pf1Own } else f)

/-! ### Time (block 1) -/

/-- A dword of a time in the layout LO, MID, HI (R47). -/
def timeDword (t i : Nat) : Nat :=
  let ns := t / 2 ^ 40 % 1000000000
  let sec := t / 2 ^ 40 / 1000000000
  match i with
  | 0 => ns % 65536 * 65536 + t / 2 ^ 24 % 65536
  | 1 => sec % 65536 * 65536 + ns / 65536
  | _ => sec / 65536

/-- Registers of TIM that are not stored. -/
def State.timVal (s : State) (b : Nat) : Option Nat :=
  if b == R.TIM_NOW_LO then some (timeDword s.t40 0)
  else if b == R.TIM_NOW_MID then some (timeDword s.t40 1)
  else if b == R.TIM_NOW_HI then some (timeDword s.t40 2)
  else if b == R.TIM_SHORT then some (shortStamp s.taiNs)
  else if b == R.TIM_CNT_LO then some (s.now - s.tim.base)
  else if b == R.TIM_CNT_HI then some ((s.now - s.tim.base) / 2 ^ 32)
  else if b == R.TIM_TQ then some s.timTq
  else none

/-! ### Ingest and the Sett (blocks 3 and 4) -/

/-- ING_STAT. -/
def State.ingVal (s : State) (b : Nat) : Option Nat :=
  if b == R.ING_STAT then
    some (4 * b2n (s.tqCode == 0xF) + 2 * b2n (s.flag F.ING_CTRL_INJ_EN) + b2n (s.flag F.ING_CTRL_EN))
  else none

/-- All borrowed pages. -/
def State.borrowedAll (s : State) : Nat := ((List.range 7).map s.borrowed).foldl (· + ·) 0

/-- Registers of SET that are not stored. -/
def State.setVal (s : State) (b : Nat) : Option Nat :=
  if b == R.SET_STAT then
    some (2 ^ 31 * b2n (decide (s.spareFree ≤ 0)) + 65536 * s.sett.retired.length + s.freeCount)
  else if inFam R.SET_USE 4 8 b then
    let c := famIdx R.SET_USE 4 b
    some (65536 * s.get (F.SET_USE_PEAK.at (4 * c)) + (if c < 7 then s.used c else s.borrowedAll))
  else if b == R.SET_SCHED_STAT then
    some ((s.pendOf 0).length + 16 * (s.pendOf 1).length + 256 * (s.pendOf 2).length)
  else if inFam R.SET_HQ_STAT 0x80 16 b then
    let q := famIdx R.SET_HQ_STAT 0x80 b
    let h := s.hq q
    some (65536 * h.pageSet.length + 16 * b2n (s.flag (hqf F.SET_HQ_CFG_EN q)) + bits (s.rd b).toNat 3 1 * 2 + b2n h.pkts.isEmpty)
  else none

/-! ### The engines (blocks 6 to 8) -/

/-- ANG_STAT and the counts of rules; the inhibit input shows in ANG_STAT only in a twin role (R173). -/
def State.angVal (s : State) (b : Nat) : Option Nat :=
  if b == R.ANG_STAT then
    some (16 * s.netRes + 8 * b2n (s.ang.limits.isDirty || s.ang.pairs.isDirty) + 4 * b2n (s.twin && s.alm.inh) +
      2 * b2n (s.flag F.ANG_STAT_STALE) + b2n (s.flag F.ANG_CTRL_EN))
  else if b == R.ANG_ACTIVE then some (65536 * s.almCount 1 + s.almCount 0)
  else if b == R.ANG_NRULES then
    some (65536 * (s.ang.pairs.eff.filter fun p => p.2.enable).length + (s.ang.limits.eff.filter fun p => p.2.enable).length)
  else if b == R.ANG_ALMSTAT then some (65536 * b2n s.alm.inh + (s.rd b).toNat % 65536)
  else if inFam R.ANG_GRP 4 31 b then
    let n := famIdx R.ANG_GRP 4 b
    some ((s.alm.groups.filter fun g => g / 32 == n).foldl (fun x g => x + 2 ^ (g % 32)) 0)
  else none

/-- ISL_LABEL of a node. -/
def State.islLabel (s : State) (v : Nat) : Nat :=
  let used := ((mget s.isl.nodes.eff v).map fun n => n.kind != 0).getD false
  let x := mgetD s.isl.expect.eff 0 Expect.reset
  2 ^ 26 * b2n (smem s.isl.lost v) + 2 ^ 25 * b2n (smem s.isl.present v) + 2 ^ 24 * b2n used + 65536 * x.labelOf v +
    mgetD s.isl.part v 0

/-- ISL_EDGE_STAT of an edge. -/
def State.islEdgeStat (s : State) (e : Nat) : Nat :=
  match mget s.isl.est e with
  | none => 0
  | some x => 65536 * (x.adr % 65536) + 8 * b2n x.brk.isSome + 4 * b2n (x.brk == some true) + 2 * b2n x.unknown + b2n x.held

/-- Registers of ISL that are not stored. -/
def State.islVal (s : State) (a : Agent) (b : Nat) : Option Nat :=
  if b == R.ISL_STAT then
    let dirty := s.isl.nodes.isDirty || s.isl.edges.isDirty || s.isl.expect.isDirty ||
      s.cmd.rdirty.any fun r => r == R.ISL_PERSIST || r == R.ISL_DRIFT
    some (65536 * (islandIds s.isl.part).length + 8 * b2n dirty +
      4 * b2n ((s.isl.cand.map fun c => !(c == s.isl.part)).getD false) + 2 * b2n s.islDiffers + b2n (s.flag F.ISL_CTRL_EN))
  else if b == R.ISL_SIZE then
    some (65536 * (s.isl.edges.eff.filter fun p => p.2.enable).length + (s.isl.nodes.eff.filter fun p => p.2.kind != 0).length)
  else if b == R.ISL_LABEL then some (s.islLabel (s.selOf a F.ISL_LABEL_SEL_NODE))
  else if b == R.ISL_EDGE_STAT then some (s.islEdgeStat (s.selOf a F.ISL_EDGE_SEL_EDGE))
  else if b == R.ISL_EDGE_DF then some (((mget s.isl.est (s.selOf a F.ISL_EDGE_SEL_EDGE)).map fun x => x.df).getD 0)
  else none

/-- A frequency in 0.01 Hz, rounded to nearest. -/
def chzOf (x : Nat) : Nat := (fu x * 200 + 2 ^ 149) / 2 ^ 150

/-- Is any band of any enabled signal not ready (R211). -/
def State.oscWarm (s : State) : Bool :=
  s.oscEnabled.any fun p => !((mget s.osc.run p.1).map OscRun.allReady).getD false

/-- a[SIG, BAND] as read: a NaN where the band is not ready. -/
def State.oscBandAmp (s : State) (sig band : Nat) : Nat :=
  match mget s.osc.run sig with
  | some o => if o.ready band then o.amp band else f32NaN
  | none => f32NaN

/-- OSC_MODE_INFO and the values behind it, of a slot as the last run left it. -/
def State.oscModeReg (s : State) (slot i : Nat) : Nat :=
  match mget s.osc.shown slot with
  | none => 0
  | some m => match i with
    | 0 => 65536 * (m.id % 65536) + 2 ^ 15 + 2 ^ 14 * b2n m.fvalid + 2 ^ 13 * b2n m.zvalid + 1024 * (m.cls % 4) + m.source % 1024
    | 1 => m.freq
    | 2 => if m.zvalid then m.zeta else f32NaN
    | _ => m.amp

/-- Registers of OSC that are not stored. -/
def State.oscVal (s : State) (a : Agent) (b : Nat) : Option Nat :=
  if b == R.OSC_STAT then
    let dirty := s.osc.sigs.isDirty || s.osc.rules.isDirty || s.osc.place.isDirty || s.cmd.rdirty.any fun r => r / 0x10000 == 8
    some (2 ^ 24 * min s.oscActive.length 255 + 65536 * s.osc.slots.length + 8 * b2n dirty + 2 * b2n s.oscWarm +
      b2n (s.flag F.OSC_CTRL_EN))
  else if b == R.OSC_BANDCFG then
    some (65536 * chzOf s.oscPlace.hi + 16 * (chzOf s.oscPlace.lo % 4096) + s.oscPlace.mode)
  else if inFam R.OSC_MODE_INFO 4 4 b then some (s.oscModeReg (s.selOf a F.OSC_MODE_SEL_SLOT) (famIdx R.OSC_MODE_INFO 4 b))
  else if b == R.OSC_BAND_CTR then some (s.oscCentre (s.selOf a F.OSC_BAND_SEL_BAND))
  else if b == R.OSC_BAND_AMP then some (s.oscBandAmp (s.selOf a F.OSC_BAND_SEL_SIG) (s.selOf a F.OSC_BAND_SEL_BAND))
  else if b == R.OSC_BAND_NOM then some (s.oscPlace.nominal (s.selOf a F.OSC_BAND_SEL_BAND))
  else none

/-! ### Federation, the local inputs and the twin (blocks 9 to E) -/

/-- CAS_XTRIG's line levels; what other units drive is as last found (notes/assumptions/78.md). On tier 00 CAS_GROUPID and the
member registers read zero. CAS_STAT shows the unit's own DEPTH as it is now. -/
def State.casVal (s : State) (b : Nat) : Option Nat :=
  if b == R.CAS_STAT then some (setBits (s.rd b).toNat 11 8 (s.casDepth % 16))
  else if b == R.CAS_XTRIG then
    let x := bits (s.rd b).toNat 15 0
    some (2 ^ 17 * b2n s.cas.fireUntil.isNone + 65536 * b2n (!s.xarmHeld && !s.cas.armOther) + x)
  else if s.tier == 0 && (b == R.CAS_GROUPID || (decide (0x090920 ≤ b) && decide (b < 0x090B00))) then some 0
  else none

/-- Registers of FLT and PMU that are not stored. -/
def State.fltVal (s : State) (b : Nat) : Option Nat :=
  if b == R.FLT_STAT then some (Nat.lor (s.rd b).toNat (2 * b2n s.fltSettled))
  else if b == R.FLT_BANK then some (65536 * (s.fadeLeft % 65536) + (s.rd b).toNat % 65536)
  else if b == R.PMU_STAT then some s.pmuStatReg
  else if inFam R.PMU_BAYCFG 4 8 b then some (s.pmuBaycfg (famIdx R.PMU_BAYCFG 4 b))
  else if inFam R.PMU_BAYSTAT 4 8 b then some (s.pmuBaystat (famIdx R.PMU_BAYSTAT 4 b))
  else if inFam R.PMU_LAG 4 8 b then some (s.pmuLagReg (famIdx R.PMU_LAG 4 b))
  else none

/-- Registers of NRG and TRG that are not stored. -/
def State.nrgVal (s : State) (b : Nat) : Option Nat :=
  if b == R.NRG_STAT then some ((s.rd b).toNat / 2 * 2 + b2n (s.flag F.NRG_CTRL_EN && s.fltRuns))
  else if decide (R.NRG_VAL ≤ b) && decide (b < R.NRG_VAL + 0x2000) then
    let o := b - R.NRG_VAL
    some (s.nrgDword (nrgIdx (o / 0x400) (o % 0x400 / 0x100) (o % 0x100 / 0x10)) (o % 0x10 / 4))
  else if b == R.TRG_STAT then some s.trgStat
  else if decide (R.TRG_UARM ≤ b) && decide (b < R.TRG_UARM + 0x100) then
    let o := b - R.TRG_UARM
    some (s.trgReg (o / 0x20) (o % 0x20 / 4))
  else none

/-- TWN_PHB_AGE in µs. -/
def State.phbAge (s : State) : Nat :=
  match s.twn.phb with
  | none => 0xFFFFFFFF
  | some p => min 0xFFFFFFFF (s.nsSince p.2 / 1000)

/-- Registers of TWN: with the monitor off every one reads its reset value (chapter 15), ROLE the standalone code. -/
def State.twnVal (s : State) (b : Nat) : Option Nat :=
  if !s.twin then some (if b == R.TWN_STAT then 3 else if b == R.TWN_PHB_AGE then 0xFFFFFFFF else (mgetD resetRegs b 0).toNat)
  else if b == R.TWN_PHB_AGE then some s.phbAge
  else none

/-! ### Commands, keys, store integrity, debug (blocks 2, E, F, 12, 13, 14, 15) -/

/-- CMD_STAT of a ring. -/
def State.cmdStat (s : State) (r : Fn) : Nat :=
  let run := s.flag (ringFld r F.CMD_CTRL_EN) && !s.flag (ringFld r F.CMD_STAT_HALTED)
  (s.rd (ringReg r R.CMD_STAT)).toNat / 4 * 4 + 2 * b2n (s.cmd.fly.any fun f => decide (f.fn = r)) + b2n run

/-- Registers of CMD that are not stored. -/
def State.cmdVal (s : State) (a : Agent) (b : Nat) : Option Nat :=
  if b == R.CMD_STAT then some (s.cmdStat (agentFn a))
  else if b == R.CMD_EPOCH_PEND then some (if s.aln.bound.isSome then s.nextTag else 0)
  else if b == R.CMD_EPSTAT then
    some (65536 * min s.dirtyItems.length 65535 + 4 * b2n s.cmd.prep.isSome + 2 * b2n s.aln.bound.isSome + b2n s.shadowDirty)
  else if b == R.CMD_PF1_STAT then some (s.cmdStat .pf1 % 65536)
  else if b == R.CMD_PF1_CONS then some (s.rd (R.CMD_CONS + pf1Own)).toNat
  else if b == R.CMD_PF1_RPROD then some (s.rd (R.RPL_PROD + pf1Own)).toNat
  else none

/-- KEY_SLOT_INFO of a slot. -/
def State.keySlotInfo (s : State) (n : Nat) : Nat :=
  match mget s.keys.slots n with
  | none => 0
  | some k =>
    let st := match k.st with
      | .valid => 1
      | .pending => 2
      | .orphaned => 3
    2 ^ 30 * st + 2 ^ 28 * (k.type % 4) + 2 ^ 26 * (k.use % 4) + 65536 * (k.group % 256) + k.gen % 65536

/-- Registers of ECC and KEY that are not stored; the sources present at the tamper inputs are an open value
(notes/assumptions/27.md). -/
def State.keyVal (s : State) (a : Agent) (b : Nat) : Option Nat :=
  if b == R.ECC_STAT then some ((s.rd b).toNat / 2 * 2 + b2n (s.flag F.ECC_CTRL_EN))
  else if b == R.ECC_HARD then
    some (match mget s.ecc.hard (s.selOf a F.ECC_HARD_SEL_IDX) with
      | some p => 2 ^ 31 + p % 8192
      | none => 0)
  else if b == R.ECC_RETMAP then
    let w := s.selOf a F.ECC_RETMAP_SEL_WORD
    some ((s.sett.retired.filter fun p => p / 32 == w).foldl (fun x p => x + 2 ^ (p % 32)) 0)
  else if b == R.KEY_GEN then
    let g := s.selOf a F.KEY_GEN_SEL_GROUP
    some (65536 * b2n ((s.keys.upd.map fun u => u.target == 1 && u.group == g).getD false) + mgetD s.keys.gens g 0 % 65536)
  else if b == R.KEY_SLOT_INFO then some (s.keySlotInfo (s.selOf a F.KEY_SLOT_SEL_SLOT))
  else if b == R.KEY_SLOT_ID then
    some (((mget s.keys.slots (s.selOf a F.KEY_SLOT_SEL_SLOT)).map fun k => k.keyId).getD 0)
  else if b == R.KEY_TAMP_NOW then some (Config.op "tamper.now" [s.now, s.freeCtr] % 1024)
  else none

/-- STAT of the debug port (R502). -/
def State.dbgStat (s : State) : Nat :=
  512 * b2n (s.dbgCore 1).halted + 256 * b2n (s.dbgCore 0).halted + 16 * s.dbg.fails + 8 * b2n s.dbg.lockout +
    4 * b2n s.dbg.chal.isSome + s.dbg.level

/-- Registers of the other blocks that are not stored. -/
def State.restVal (s : State) (a : Agent) (b : Nat) : Option Nat :=
  if b == R.MAC_MDIO_CMD && mdioFw a then some (2 ^ 31 * b2n (s.mdioBusy true) + s.mac.fwMdioCmd % 2 ^ 29)
  else if b == R.MAC_MDIO_RDATA && mdioFw a then some s.mac.fwMdioData
  else if b == R.BOOT_SVN then some s.svnMin
  else if b == R.DBG_STAT then some s.dbgStat
  else if b == R.SET_HQ_PEND then some (Nat.land (s.get F.SET_HQ_PEND_PEND) (s.hqPendMask a))
  else none

/-- The value of the register at PF0 offset b that the hardware computes, if it is not stored. -/
def State.liveVal (s : State) (a : Agent) (b : Nat) : Option Nat :=
  match b / 0x10000 with
  | 0x01 => s.timVal b
  | 0x03 => s.ingVal b
  | 0x04 => if b == R.SET_HQ_PEND then s.restVal a b else s.setVal b
  | 0x06 => s.angVal b
  | 0x07 => s.islVal a b
  | 0x08 => s.oscVal a b
  | 0x09 => s.casVal b
  | 0x89 => s.casVal b
  | 0x0A => s.fltVal b
  | 0x0B => s.fltVal b
  | 0x0C => s.nrgVal b
  | 0x0D => s.nrgVal b
  | 0x0E => s.twnVal b
  | 0x0F => s.cmdVal a b
  | 0x12 => s.keyVal a b
  | 0x13 => s.keyVal a b
  | _ => s.restVal a b

/-- Bits of a row that read as written: not reserved and not WO (R15, R18). -/
def readMask (r : RegRow) (x : Nat) : Nat :=
  r.flds.foldl (fun v f => match f.ty with
    | .wo => v
    | _ => setBits v f.hi f.lo (bits x f.hi f.lo)) 0

/-- The present value of a register for an agent, SNAP fields live. -/
def State.regNow (s : State) (a : Agent) (b : Nat) (r : RegRow) : Dword :=
  match s.liveVal a b with
  | some x => BitVec.ofNat 32 x
  | none => BitVec.ofNat 32 (readMask r (s.rd (ownAddr a b r)).toNat)

/-- May the agent read the register: PF1 those headed for it, and queue registers of its own queues (R22, R117); in recovery only PF0's
BOOT registers answer. -/
def State.mayRead (s : State) (a : Agent) (b : Nat) (r : RegRow) : Bool :=
  s.serves a b && match a, r.view with
    | .pf1, .pf0 => false
    | .pf1, .queue => s.flag (F.SET_HQ_CFG_OWNER.at (0x80 * queueOf b))
    | _, _ => true

/-- The dwords behind an energy value's LO dword. -/
def nrgFollowers (b : Nat) : List Nat :=
  if decide (R.NRG_VAL ≤ b) && decide (b < R.NRG_VAL + 0x2000) && b % 16 == 0 then [b + 4, b + 8, b + 12] else []

/-- Is the dword read through the agent's latch. -/
def isLatched (b : Nat) (r : RegRow) : Bool :=
  r.snap || (decide (R.NRG_VAL ≤ b) && decide (b < R.NRG_VAL + 0x2000) && b % 16 != 0)

/-- The dword at PF0 offset b, live. -/
def State.dwordNow (s : State) (a : Agent) (b : Nat) : Dword :=
  match regRow? b with
  | some r => s.regNow a b r
  | none => 0

/-- What a read of the register at b answers, and the state it leaves: latched dwords from the agent's latch, zero where it has not read
LO; any other live, latching the dwords that follow it (R15, R16). -/
def State.readDword (s : State) (a : Agent) (b : Nat) (r : RegRow) : Dword × State :=
  if isLatched b r then (mgetD s.latch (latchKey a b) 0, s)
  else
    let v := s.regNow a b r
    let l := (snapFollowers b ++ nrgFollowers b).foldl (fun m x => mput m (latchKey a x) (s.dwordNow a x)) s.latch
    (v, { s with latch := l })

/-- An agent's MSI-X table: where the store keeps it, its number of bytes, and where its PBA lies (R398). -/
def msixAt (a : Agent) (off : Nat) : Option (Fn × Nat) :=
  if a = .pf1 then if 0x3F000 ≤ off && off < 0x40000 then some (.pf1, off - 0x3F000) else none
  else if 0x160000 ≤ off && off < 0x162000 then some (.pf0, off - 0x160000) else none

/-- Where the PBA lies in a function's MSI-X range. -/
def pbaOfs : Fn → Nat
  | .pf0 => 0x1000
  | .pf1 => 0x800

/-- Where the store keeps a dword of a function's MSI-X table. -/
def msixKey (f : Fn) (o : Nat) : Nat :=
  match f with
  | .pf0 => 0x160000 + o
  | .pf1 => pf1Own + 0x160000 + o

/-- A dword of a function's MSI-X table or PBA (R430). -/
def State.msixRead (s : State) (f : Fn) (o : Nat) : Nat :=
  if o < 16 * vecCount f then
    if o % 16 == 12 then b2n ((!smem (s.pfn f).unmasked (o / 16))) else (s.rd (msixKey f o)).toNat
  else if o == pbaOfs f then ((s.pfn f).pba.filter fun v => v < 32).foldl (fun x v => x + 2 ^ v) 0
  else 0

/-- A read of a register at an aligned dword (R13): of a queue's data and last words also of 8 and 16 bytes, of any other only of 4. -/
def State.readRow (s : State) (a : Agent) (b len : Nat) (r : RegRow) : State :=
  if !s.mayRead a b r then s.zeroAnswer a len
  else if r.base == R.SET_HQ_DATA then s.hqPop a (queueOf b) ((b - R.SET_HQ_DATA) % 0x80) len ⟨[], []⟩
  else if r.base == R.SET_HQ_LAST then s.hqLast a (queueOf b) ((b - R.SET_HQ_LAST) % 0x80) len
  else if len != 4 then s.zeroAnswer a len
  else if inFam R.TIM_TSQ_E0_P 0x40 5 b then s.tsqRead a (famIdx R.TIM_TSQ_E0_P 0x40 b)
  else if r.base == R.SET_HQ_CONS && !s.hqMine (queueOf b) a then s.zeroAnswer a len
  else
    let x := s.readDword a b r
    x.2.emit (.answer a (toLe 4 x.1.toNat) false)

/-- A read of `len` bytes at an offset of the agent's window (R13): of the Sett window, of an MSI-X table or PBA (an aligned dword or
qword, R430), or of a register; any other reads zero and has no effect. -/
def State.readReg (s : State) (a : Agent) (off len : Nat) : State :=
  if off % 4 != 0 then s.zeroAnswer a len
  else if a != .pf1 && 0x200000 ≤ off && off < 0x400000 then s.windowRead a off len ⟨[], []⟩
  else match msixAt a off with
    | some (f, o) =>
      if s.serves a 0x160000 && off % len == 0 && (len == 4 || len == 8) then
        s.emit (.answer a ((List.range (len / 4)).flatMap fun i => toLe 4 (s.msixRead f (o + 4 * i))) false)
      else s.zeroAnswer a len
    | none => match regAt a off with
      | none => s.zeroAnswer a len
      | some (b, r) => s.readRow a b len r

/-- WIDE_VALUE_LO_READ (R16): a read by an agent; it stands for every register read (notes/assumptions/5.md). -/
def execWideValueLoRead (a : Agent) (off len : Nat) (s : State) : Result := (s.readReg a off len).done

end Sys2Proof.Machine
end

