-- ==== Sys2Proof/Machine/RegWrite.lean ====
section
/-!
DEFINITION. Sys2Proof/Machine/RegWrite.lean: register writes: the ranges the register tables of the spec give, fields written
under a condition (R533), what a write does beyond storing its fields, and wide values (R13 to R18, R402 to R405).
-/
namespace Sys2Proof.Machine

/-- What becomes of a write before it is stored: it goes on, it is dropped in silence, or it is dropped and logged. -/
inductive Verdict where
  | ok
  | silent
  | bad (code : Nat)

/-- The write goes on, or is dropped and logged. -/
def okIf (c : Bool) (code : Nat) : Verdict := if c then .ok else .bad code

/-- lo ≤ x ≤ hi. -/
def within (lo x hi : Nat) : Bool := decide (lo ≤ x) && decide (x ≤ hi)

/-- Is the signed dword at most m away from zero. -/
def absAtMost (v : Dword) (m : Nat) : Bool := decide ((sext 32 v.toNat).natAbs ≤ m)

/-! ### Ranges, block by block -/

/-- The port of a MAC register. -/
def macPort (b : Nat) : Nat := (b - 0x20000) / 0x2000

/-- Would the write change a field. -/
def State.changes (s : State) (f : Fld) (v : Dword) : Bool := fval f v != s.get f

/-- MAC registers of a port (R341, R342, R348, R355, R360, R361, R363). -/
def State.portVerdict (s : State) (b : Nat) (v : Dword) : Verdict :=
  let p := macPort b
  let o := (b - 0x20000) % 0x2000
  let f (x : Fld) : Fld := pfld x p
  let en := s.portEn p
  let bufK := bufSize p / 1024
  if o == 0 then
    let mode := fval F.MAC_CTRL_P_MODE v
    let speed := fval F.MAC_CTRL_P_SPEED v
    let lock := en && (s.changes (f F.MAC_CTRL_P_MODE) v || s.changes (f F.MAC_CTRL_P_SPEED) v ||
      s.changes (f F.MAC_CTRL_P_AN_EN) v || (p == 4 && s.changes F.MAC_CTRL_P4_DUPLEX v))
    okIf (!lock && (if p == 4 then mode ≤ 1 && speed ≤ 1 else speed ≤ 2)) Ev.MAC_CFG_RANGE
  else if o == 8 then
    let x := fval F.MAC_MAXLEN_P_LEN v
    okIf (within 1518 x 2048 && !(en && s.changes (f F.MAC_MAXLEN_P_LEN) v)) Ev.MAC_CFG_RANGE
  else if o == 0x44 then okIf (fval F.MAC_PAUSE_WD_P_DEFEAT_S v != 0) Ev.MAC_CFG_RANGE
  else if o == 0x48 then
    okIf (decide (fval F.MAC_PAUSE_THR_P_XON v < fval F.MAC_PAUSE_THR_P_XOFF v) &&
      decide (fval F.MAC_PAUSE_THR_P_XOFF v ≤ bufK)) Ev.MAC_CFG_RANGE
  else if within 0x50 o 0x6C then okIf (within 1 (fval F.MAC_TXLIM_P_KIB v) bufK) Ev.MAC_CFG_RANGE
  else if o == 0x70 then okIf (within 1 (fval F.MAC_HDX_ATTEMPTS v) 16) Ev.MAC_CFG_RANGE
  else if o == 0x80 then
    okIf (decide (fval F.MAC_GCL_CTRL_P_NENT0 v ≤ 64) && decide (fval F.MAC_GCL_CTRL_P_NENT1 v ≤ 64)) Ev.MAC_CFG_RANGE
  else if o == 0x84 then okIf (absAtMost v 100000000) Ev.MAC_CFG_RANGE
  else .ok

/-- MAC registers (R365, R368, R371). -/
def State.macVerdict (s : State) (b : Nat) (v : Dword) : Verdict :=
  if b < 0x2A000 then s.portVerdict b v
  else if b == R.MAC_PRP_CTRL then
    okIf (!(s.changes F.MAC_PRP_CTRL_EN v && (s.portEn 0 || s.portEn 1))) Ev.MAC_CFG_RANGE
  else if b == R.MAC_PRP_FORGET then okIf (fval F.MAC_PRP_FORGET_MS v != 0) Ev.MAC_CFG_RANGE
  else if b == R.MAC_MDIO_CFG then okIf (decide (24 ≤ fval F.MAC_MDIO_CFG_DIV v)) Ev.MAC_CFG_RANGE
  else .ok

/-- ING and SET registers (R96, R124). -/
def State.setVerdict (s : State) (b : Nat) (v : Dword) : Verdict :=
  if b == R.ING_INJ_SIZE then
    let x := fval F.ING_INJ_SIZE_SIZE v
    if !s.flag F.ING_CTRL_INJ_EN && (x == 0 || pow2Between x 16 4096) then .ok else .silent
  else if inFam R.SET_HQ_SIZE 0x80 16 b then
    if s.flag (hqf F.SET_HQ_CFG_EN (queueOf b)) then .silent
    else okIf (hqSizeOk (fval F.SET_HQ_SIZE_SIZE v)) Ev.SET_CFG_RANGE
  else .ok

/-- ALN registers. -/
def State.alnVerdict (s : State) (b : Nat) (v : Dword) : Verdict :=
  let e := Ev.ALN_CFG_RANGE
  if b == R.ALN_WAITMIN then okIf (within 100 (fval F.ALN_WAITMIN_US v) (s.get F.ALN_WAITMAX_US)) e
  else if b == R.ALN_WAITMAX then okIf (within (s.get F.ALN_WAITMIN_US) (fval F.ALN_WAITMAX_US v) 4000000) e
  else if b == R.ALN_LEARN then okIf (fval F.ALN_LEARN_Q v != 0 && fval F.ALN_LEARN_PERIOD v != 0) e
  else if b == R.ALN_DEMOTE then okIf (within 1 (fval F.ALN_DEMOTE_DEMOTE_N v) 64) e
  else if b == R.ALN_TOL then okIf (within 1 (fval F.ALN_TOL_US v) 1000) e
  else if b == R.ALN_EPOCH_LEAD then okIf (within 100 (fval F.ALN_EPOCH_LEAD_US v) 1000000) e
  else .ok

/-- ANG and ISL registers. -/
def angVerdict (b : Nat) (v : Dword) : Verdict :=
  if b == R.ANG_RECMAX then okIf (decide (fval F.ANG_RECMAX_MAX v ≤ 1008)) Ev.ANG_CFG_RANGE
  else if inFam R.ANG_ALMCFG 4 8 b then
    okIf (decide (fval F.ANG_ALMCFG_GBASE v + fval F.ANG_ALMCFG_GCNT v ≤ 992) &&
      !(fval F.ANG_ALMCFG_MODE v == 2 && fval F.ANG_ALMCFG_PULSE v == 0)) Ev.ANG_CFG_RANGE
  else if b == R.ISL_PERSIST then
    okIf (fval F.ISL_PERSIST_PERSIST v != 0 &&
      (fval F.ISL_PERSIST_MAXWAIT v == 0 || decide (fval F.ISL_PERSIST_PERSIST v ≤ fval F.ISL_PERSIST_MAXWAIT v))) Ev.ISL_CFG_RANGE
  else if b == R.ISL_DRIFT then okIf (within 1 (fval F.ISL_DRIFT_D v) 32) Ev.ISL_CFG_RANGE
  else if b == R.ISL_RECMAX then
    okIf (decide (fval F.ISL_RECMAX_MEMBERS v ≤ 8192) && decide (fval F.ISL_RECMAX_ISLANDS v ≤ 1024)) Ev.ISL_CFG_RANGE
  else if b == R.ISL_ALMGRP then okIf (grpOk (fval F.ISL_ALMGRP_MERGE_GRP v)) Ev.ISL_CFG_RANGE
  else .ok

/-- OSC registers. -/
def oscVerdict (b : Nat) (v : Dword) : Verdict :=
  let e := Ev.OSC_CFG_RANGE
  if b == R.OSC_BW then okIf (within 32 (fval F.OSC_BW_BW v) 256) e
  else if b == R.OSC_RECENTRE then
    okIf (decide (fval F.OSC_RECENTRE_LIMIT v ≤ 127) && fval F.OSC_RECENTRE_STEP v != 0 &&
      decide (16 ≤ fval F.OSC_RECENTRE_PEAKR v) && fval F.OSC_RECENTRE_PERIOD v != 0) e
  else if b == R.OSC_TRACK then
    okIf (fval F.OSC_TRACK_DROP v != 0 && within 2 (fval F.OSC_TRACK_MINPER v) (fval F.OSC_TRACK_NPER v) &&
      decide (8 ≤ fval F.OSC_TRACK_NPER v) && within 1 (fval F.OSC_TRACK_MODEMAX v) 16) e
  else if b == R.OSC_CLASS then okIf (fval F.OSC_CLASS_CLS_PER v != 0) e
  else if b == R.OSC_GAP then okIf (fval F.OSC_GAP_SIGGAP v != 0) e
  else if b == R.OSC_RECMAX then
    okIf (decide (fval F.OSC_RECMAX_ALMW v ≤ 1008) && decide (fval F.OSC_RECMAX_SHAPEW v ≤ 1024)) e
  else .ok

/-- CAS registers; on tier 00 CAS_GROUPID and the member registers drop writes (R245, R249, R251, R253). -/
def State.casVerdict (s : State) (b : Nat) (v : Dword) : Verdict :=
  let e := Ev.CAS_CFG_RANGE
  let member := decide (0x090920 ≤ b) && decide (b < 0x090B00)
  if s.tier == 0 && (b == R.CAS_GROUPID || member) then .silent
  else if b == R.CAS_CTRL then
    okIf (decide (fval F.CAS_CTRL_ISLMAX v ≤ 1024) && decide (fval F.CAS_CTRL_TC v ≤ 6) && decide (fval F.CAS_CTRL_PORT v ≤ 4)) e
  else if b == R.CAS_LOSS then okIf (fval F.CAS_LOSS_REASM v != 0) e
  else if b == R.CAS_XTRIG then okIf (fval F.CAS_XTRIG_WIDTH v != 0) e
  else if member && (b - 0x090920) % 0x20 == 0 then
    let n := fval F.CAS_MCFG_NITEMS v
    okIf (grpOk (fval F.CAS_MCFG_ANY_GRP v) && grpOk (fval F.CAS_MCFG_LOST_GRP v) && decide (n ≤ 256) &&
      decide ((s.rd (b + 4)).toNat + n ≤ 8184)) e
  else if member && (b - 0x090920) % 0x20 == 4 then
    okIf (decide (fval F.CAS_MBASE_SIDX_BASE v + bits (s.rd (b - 4)).toNat 8 0 ≤ 8184)) e
  else .ok

/-- FLT and PMU registers (R261, R272, R273). -/
def State.fltVerdict (s : State) (b : Nat) (v : Dword) : Verdict :=
  let e := Ev.FLT_CFG_RANGE
  let en := s.flag F.FLT_CTRL_EN
  if b == R.FLT_CTRL then okIf (!(en && s.changes F.FLT_CTRL_MOD_DIV v)) e
  else if inFam R.FLT_BAYCFG 4 8 b then
    let q := famIdx R.FLT_BAYCFG 4 b
    let ch (f : Fld) : Bool := s.changes (bayf f q) v
    okIf (within 9 (fval F.FLT_BAYCFG_CP_K v) 13 && decide (fval F.FLT_BAYCFG_TRIM v ≤ 80) &&
      !(en && (ch F.FLT_BAYCFG_TRIM || ch F.FLT_BAYCFG_MCLK_EN || ch F.FLT_BAYCFG_CH_EN))) e
  else if b == R.FLT_RNG then okIf (decide (fval F.FLT_RNG_DOWN v < fval F.FLT_RNG_UP v)) e
  else if b == R.FLT_RNGTIME then okIf (fval F.FLT_RNGTIME_DWELL v != 0 && decide (fval F.FLT_RNGTIME_SETTLE v ≤ 20)) e
  else if inFam R.FLT_RNGRATIO 4 8 b then okIf (within 0x10000 v.toNat 0x400000) e
  else if b == R.PMU_FMIN then okIf (within 1 (fval F.PMU_FMIN_PERMIL v) 1000) Ev.PMU_CFG_RANGE
  else .ok

/-- NRG and TRG registers (R311, R317, R336). -/
def State.nrgVerdict (s : State) (b : Nat) (v : Dword) : Verdict :=
  if b == R.NRG_SAVE then okIf (within 100 (fval F.NRG_SAVE_MS v) 60000) Ev.NRG_CFG_RANGE
  else if decide (R.NRG_SCALE_LO ≤ b) && decide (b < R.NRG_SCALE_LO + 64) then
    okIf (!s.flag F.NRG_CTRL_PRESET_LOCK) Ev.NRG_CFG_RANGE
  else if b == R.TRG_RRED then
    okIf (fval F.TRG_RRED_HI v != 0 && decide (fval F.TRG_RRED_LO v < fval F.TRG_RRED_HI v)) Ev.TRG_CFG_RANGE
  else .ok

/-- TWN registers. -/
def State.twnVerdict (s : State) (b : Nat) (v : Dword) : Verdict :=
  let e := Ev.TWN_CFG_RANGE
  if b == R.TWN_HB then
    okIf (!s.flag F.TWN_CTRL_EN && within 100 (fval F.TWN_HB_TOL_US v) 4000 && decide (2 ≤ fval F.TWN_HB_DOWN_N v) &&
      within 250 (fval F.TWN_HB_PERIOD_US v) 10000) e
  else if b == R.TWN_WIT then okIf (decide (5 ≤ fval F.TWN_WIT_MS v) && decide (fval F.TWN_WIT_PERIOD_MS v ≤ 10)) e
  else if b == R.TWN_SEQ then okIf (within 2 (fval F.TWN_SEQ_SHIFT v) 10) e
  else if b == R.TWN_SYNC then okIf (decide (5 ≤ fval F.TWN_SYNC_FALLBACK_MS v) && within 1 (fval F.TWN_SYNC_LINK_MS v) 50) e
  else .ok

/-- IRQ registers (R426, R431). -/
def irqVerdict (b : Nat) (v : Dword) : Verdict :=
  if inFam R.IRQ_ROUTE 4 128 b then
    okIf (fval F.IRQ_ROUTE_PF1_EN v == 0 ||
      ([7, 24, 25, 40, 41, 43, 44, 46, 47, 81, 84] : List Nat).contains (famIdx R.IRQ_ROUTE 4 b)) Ev.IRQ_CFG_RANGE
  else if inFam R.IRQ_COAL 4 128 b then
    okIf (decide (fval F.IRQ_COAL_COUNT v ≤ 1) || fval F.IRQ_COAL_TIME_US v != 0) Ev.IRQ_CFG_RANGE
  else .ok

/-- KEY registers (R474, R475). -/
def State.keyVerdict (s : State) (b : Nat) (v : Dword) : Verdict :=
  let tamp := b == R.KEY_TAMP_CFG || b == R.KEY_TAMP_PIN || b == R.KEY_MESH
  if tamp && s.flag F.KEY_TAMP_CFG_LOCK then .silent
  else if b == R.KEY_TAMP_PIN then
    okIf ((List.range 4).all fun n => bits v.toNat (4 * n + 7) (4 * n + 4) != 0) Ev.KEY_CFG_RANGE
  else if b == R.KEY_MESH then okIf (fval F.KEY_MESH_MISS v != 0) Ev.KEY_CFG_RANGE
  else .ok

/-- BOOT and PWR registers (R483, R486, R492). -/
def pwrVerdict (b : Nat) (v : Dword) : Verdict :=
  let e := Ev.PWR_CFG_RANGE
  if b == R.BOOT_FAILS then okIf (within 1 (fval F.BOOT_FAILS_LIMIT v) 7) e
  else if b == R.BOOT_WDOG then okIf (within 100 (fval F.BOOT_WDOG_TMO_MS v) 60000) e
  else if b == R.BOOT_RECOV_LEN then
    okIf (fval F.BOOT_RECOV_LEN_LEN v == 0 || within 256 (fval F.BOOT_RECOV_LEN_LEN v) 262144) e
  else .ok

/-- What becomes of a plain write at PF0 offset b. -/
def State.verdict (s : State) (b : Nat) (v : Dword) : Verdict :=
  match b / 0x10000 with
  | 0x02 => s.macVerdict b v
  | 0x03 => s.setVerdict b v
  | 0x04 => s.setVerdict b v
  | 0x05 => s.alnVerdict b v
  | 0x06 => angVerdict b v
  | 0x07 => angVerdict b v
  | 0x08 => oscVerdict b v
  | 0x09 => s.casVerdict b v
  | 0x89 => s.casVerdict b v
  | 0x0A => s.fltVerdict b v
  | 0x0B => s.fltVerdict b v
  | 0x0C => s.nrgVerdict b v
  | 0x0D => s.nrgVerdict b v
  | 0x0E => s.twnVerdict b v
  | 0x10 => irqVerdict b v
  | 0x13 => s.keyVerdict b v
  | 0x14 => pwrVerdict b v
  | _ => .ok

/-! ### Fields written under a condition (R533) -/

/-- The written dword with a field put back to its present value. -/
def State.keep (s : State) (f : Fld) (v : Dword) : Dword := BitVec.ofNat 32 (setBits v.toNat f.hi f.lo (s.get f))

/-- Fields of which the host may only write 0, with their block's event. -/
def zeroOnly (b : Nat) : Option (Fld × Nat) :=
  if inFam R.SET_USE 4 8 b then some (F.SET_USE_PEAK.at (b - R.SET_USE), Ev.SET_CFG_RANGE)
  else if b == R.ALN_RELMAX then some (F.ALN_RELMAX_CLK, Ev.ALN_CFG_RANGE)
  else if b == R.ANG_RUNMAX then some (F.ANG_RUNMAX_CLK, Ev.ANG_CFG_RANGE)
  else if b == R.ISL_RUNMAX then some (F.ISL_RUNMAX_CLK, Ev.ISL_CFG_RANGE)
  else if b == R.ISL_ROUNDMAX then some (F.ISL_ROUNDMAX_ROUNDS, Ev.ISL_CFG_RANGE)
  else if b == R.OSC_RUNMAX then some (F.OSC_RUNMAX_CLK, Ev.OSC_CFG_RANGE)
  else if b == R.ECC_LAPMAX then some (F.ECC_LAPMAX_MS, Ev.ECC_CFG_RANGE)
  else none

/-- A field that cannot be set while a condition holds keeps its present value; where EN only falls, it may fall. -/
def State.noRise (s : State) (f : Fld) (stop : Bool) (v : Dword) : Dword := if fval f v == 1 && stop then s.keep f v else v

/-- The dword that is stored, conditional fields judged on the values that the write leaves. -/
def State.condition (s : State) (b : Nat) (v : Dword) : Dword :=
  if b == R.ING_CTRL then s.noRise F.ING_CTRL_INJ_EN (s.get F.ING_INJ_SIZE_SIZE == 0) v
  else if b == R.ANG_NET_CFG then
    s.noRise F.ANG_NET_CFG_EN (fval F.ANG_NET_CFG_UDP_PORT v == 0 || fval F.ANG_NET_CFG_PORTS v == 0) v
  else if b < 0x2A000 && b / 0x10000 == 2 && (b - 0x20000) % 0x2000 == 0x40 then
    s.noRise (pfld F.MAC_PAUSE_P_TX_EN (macPort b)) (fval F.MAC_PAUSE_P_PTIME v == 0) v
  else if b < 0x2A000 && b / 0x10000 == 2 && (b - 0x20000) % 0x2000 == 0x80 then
    let p := macPort b
    let nent := if s.gclOper p == 0 then fval F.MAC_GCL_CTRL_P_NENT0 v else fval F.MAC_GCL_CTRL_P_NENT1 v
    let noCycle := fval F.MAC_GCL_CTRL_P_LOCK v == 0 && s.get (pfld F.MAC_GCL_CYCLE_P_NS p) == 0
    s.noRise (pfld F.MAC_GCL_CTRL_P_GCL_EN p) (nent == 0 || noCycle) v
  else if b == R.NRG_CTRL then if s.flag F.NRG_CTRL_PRESET_LOCK then s.keep F.NRG_CTRL_PRESET_LOCK v else v
  else if b == R.KEY_CTRL then if s.flag F.KEY_CTRL_IMPORT_LOCK then s.keep F.KEY_CTRL_IMPORT_LOCK v else v
  else if inFam R.IRQ_ROUTE 4 128 b then
    let n := famIdx R.IRQ_ROUTE 4 b
    let v := if 6 ≤ fval F.IRQ_ROUTE_TARGET v then s.keep (rtf F.IRQ_ROUTE_TARGET n) v else v
    if 6 ≤ fval F.IRQ_ROUTE_FALLBACK v then s.keep (rtf F.IRQ_ROUTE_FALLBACK n) v else v
  else match zeroOnly b with
    | some (f, _) => if fval f v != 0 then s.keep f v else v
    | none => v

/-- Was a field of the write dropped with an event. -/
def fieldEvent (b : Nat) (v : Dword) : Option Nat :=
  if inFam R.IRQ_ROUTE 4 128 b then
    if 6 ≤ fval F.IRQ_ROUTE_TARGET v || 6 ≤ fval F.IRQ_ROUTE_FALLBACK v then some Ev.IRQ_CFG_RANGE else none
  else match zeroOnly b with
    | some (f, e) => if fval f v != 0 then some e else none
    | none => none

/-! ### What follows a write -/

/-- The generator's seed when EN rises (R363): the low 32 bits of the port address XOR TIM_CNT[31:0], a zero replaced by 1. -/
def State.lfsrSeed (s : State) (p : Nat) : Nat :=
  let x := Nat.xor (s.portMac p % 2 ^ 32) ((s.now - s.tim.base) % 2 ^ 32)
  if x == 0 then 1 else x

/-- MAC_CTRL_Pp has been written; s is the state before. EN falling discards the queued frames; EN rising seeds the generator. On P4 the
speed and duplex in effect are those set; on a SerDes port a change of MODE, SPEED or AN_EN starts the link anew (R341, R342, R363,
notes/assumptions/66.md). -/
def State.afterMacCtrl (s t : State) (p : Nat) : State :=
  let was := s.portEn p
  let now := t.portEn p
  let setUp (u : State) : Nat × Nat × Nat :=
    (u.get (pfld F.MAC_CTRL_P_MODE p), u.get (pfld F.MAC_CTRL_P_SPEED p), u.get (pfld F.MAC_CTRL_P_AN_EN p))
  let t := if was && !now then t.modPort p fun x => { x with txq := [] }
    else if !was && now then t.modPort p fun x => { x with lfsr := t.lfsrSeed p }
    else t
  if p == 4 then
    (t.set (pfld F.MAC_STAT_P_SPEED_ACT 4) (t.get F.MAC_CTRL_P4_SPEED)).setB (pfld F.MAC_STAT_P_DUPLEX_ACT 4) (t.flag F.MAC_CTRL_P4_DUPLEX)
  else if setUp s == setUp t then t
  else (t.linkDown p).modPort p fun x => { x with goodFrom := t.now }

/-- What a stored write of a register of block 2 does. -/
def State.afterMac (s t : State) (b : Nat) : State :=
  let p := macPort b
  let o := (b - 0x20000) % 0x2000
  if b == R.MAC_PRP_CTRL then
    if !s.flag F.MAC_PRP_CTRL_EN && t.flag F.MAC_PRP_CTRL_EN then t.modMac fun m => { m with supAt := t.now } else t
  else if 0x2A000 ≤ b then t
  else if o == 0 then s.afterMacCtrl t p
  else if o == 0x80 && s.flag (pfld F.MAC_GCL_CTRL_P_GCL_EN p) && !t.flag (pfld F.MAC_GCL_CTRL_P_GCL_EN p) then
    t.modPort p fun x => { x with gateStart := none }
  else t

/-- FLT_CTRL has been written: EN acts by R262. -/
def State.afterFltCtrl (s t : State) : State :=
  let was := s.flag F.FLT_CTRL_EN
  let now := t.flag F.FLT_CTRL_EN
  let t := t.setB F.FLT_CTRL_EN was
  if !was && now then t.frontStart else if was && !now then t.frontStop else t

/-- A firmware core changes TIM_UTCOFF.OFFSET: logged (R70). TIM_SRC names the primary source: it becomes the active one. -/
def State.afterTim (s t : State) (a : Agent) (b : Nat) : State :=
  if b == R.TIM_UTCOFF && mdioFw a && s.get F.TIM_UTCOFF_OFFSET != t.get F.TIM_UTCOFF_OFFSET then t.ev0 Ev.TIM_LEAP
  else if b == R.TIM_PPSOUT then t.ppsCut
  else if b == R.TIM_SRC then
    let t := t.set F.TIM_SRC_ACT (s.get F.TIM_SRC_ACT)
    t.setAct (t.get F.TIM_SRC_PRI)
  else t

/-- A mesh that a write enables is checked from now on (R475). -/
def State.meshNote (s t : State) : State :=
  [0, 1].foldl (fun (t : State) k =>
    if bit (t.get F.KEY_MESH_EN) k && !bit (s.get F.KEY_MESH_EN) k then t.modKeys fun x => { x with meshOn := mput x.meshOn k t.now }
    else t) t

/-- A changed TARGET takes what is due of its source along, as due for the new target from now (R433). -/
def State.aimNote (s t : State) (b : Nat) : State :=
  let n := famIdx R.IRQ_ROUTE 4 b
  if inFam R.IRQ_ROUTE 4 128 b && s.get (rtf F.IRQ_ROUTE_TARGET n) != t.get (rtf F.IRQ_ROUTE_TARGET n) then
    t.modIrq fun i => { i with moved := sdel i.moved n, aimed := mput i.aimed n t.now }
  else t

/-- What a stored write does beyond storing: s is the state before it, t the state after. -/
def State.after (s t : State) (a : Agent) (b : Nat) : State :=
  match b / 0x10000 with
  | 0x01 => s.afterTim t a b
  | 0x02 => s.afterMac t b
  | 0x06 =>
    if inFam R.ANG_ALMCFG 4 8 b then { t with alm := { t.alm with cfgd := sadd t.alm.cfgd (famIdx R.ANG_ALMCFG 4 b) } }
    else if b == R.ANG_STALE then t.staleSync
    else t
  | 0x07 =>
    if b == R.ISL_ALMGRP && (mget t.alm.act mergeKey).isSome then t.almSet mergeKey (t.get F.ISL_ALMGRP_MERGE_GRP) else t
  | 0x89 => if t.flag F.CAS_XTRIG_EN then t else t.modCas fun c => { c with fireUntil := none }
  | 0x0A =>
    if b == R.FLT_CTRL then s.afterFltCtrl t
    else if inFam R.FLT_BAYCFG 4 8 b then (t.rngSync (famIdx R.FLT_BAYCFG 4 b)).cpNote (famIdx R.FLT_BAYCFG 4 b)
    else if inFam R.FLT_RNGRATIO 4 8 b && t.fltRuns then
      let q := famIdx R.FLT_RNGRATIO 4 b
      t.rngNote q (t.fltBay q).high none
    else t
  | 0x0B => if b == R.PMU_CTRL && !s.flag F.PMU_CTRL_EN && t.flag F.PMU_CTRL_EN then t.pmuEnable else t
  | 0x0D => if b == R.TRG_TRIGIO then s.trigiSync t else t
  | 0x0C => if b == R.NRG_CTRL && !s.flag F.NRG_CTRL_EN && t.flag F.NRG_CTRL_EN then t.nrgEnable else t
  | 0x10 => (s.aimNote t b).pinSync
  | 0x13 =>
    if b == R.KEY_CTRL then t.setB F.KEY_STAT_RUN (t.flag F.KEY_CTRL_EN)
    else if b == R.KEY_MESH then s.meshNote t
    else t
  | _ => t

/-- Marks an epoch register as written since the last accepted commit (R417). -/
def State.markEpoch (s : State) (b : Nat) : State :=
  if isEpochReg b then s.modCmd fun c => { c with rdirty := sadd c.rdirty b } else s

/-- A write at PF0 offset b that has no operation of its own: judged, stored, and followed. -/
def State.plainWrite (s : State) (a : Agent) (b : Nat) (v : Dword) : State :=
  match s.verdict b v with
  | .silent => s
  | .bad e => s.ev0 e
  | .ok =>
    let t := (s.store b (s.condition b v)).markEpoch b
    let t := s.after t a b
    match fieldEvent b v with
    | some e => t.ev0 e
    | none => t

/-! ### The debug port's lock (R504) -/

/-- LEVEL becomes 0; its return to 0 is logged. -/
def State.dbgLock (s : State) : State :=
  if s.dbg.level == 0 then s else (s.modDbg fun d => { d with level := 0 }).ev0 Ev.DBG_LOCK

/-! ### Writes that have an operation of their own -/

/-- A write of a register of blocks 1 to 6 with a row of its own. -/
def State.ownWriteA (s : State) (a : Agent) (b : Nat) (v : Dword) : Option State :=
  if b == R.TIM_CTRL then some (s.timCtrlWrite v)
  else if b == R.TIM_SERVO then some (s.servoWrite v)
  else if b == R.MAC_MDIO_CMD then some (s.mdioWrite (mdioFw a) v)
  else if b == R.ING_HIST then some (s.histWrite v)
  else if b == R.ING_INJ_PROD then some (s.injDoorbell v)
  else if b == R.SET_CTRL then some (s.setCtrlWrite v)
  else if inFam R.SET_QUOTA_ALIGN 4 7 b then some (s.quotaWrite (famIdx R.SET_QUOTA_ALIGN 4 b) v)
  else if b == R.SET_HQ_PEND then some (s.hqPendWrite a v)
  else if inFam R.SET_HQ_CFG 0x80 16 b then some (s.hqCfgWrite (queueOf b) v)
  else if inFam R.SET_HQ_CONS 0x80 16 b then some (if s.hqMine (queueOf b) a then s.consWrite (queueOf b) v else s)
  else if b == R.ALN_CTRL then some (s.alnCtrlWrite v)
  else if b == R.ANG_ALMCLR then some (s.almClrWrite v.toNat)
  else none

/-- A write of a register of the later blocks with a row of its own. -/
def State.ownWriteB (s : State) (a : Agent) (b : Nat) (v : Dword) : Option State :=
  let r := agentFn a
  if b == R.TRG_CTRL then some (s.trgCtrlWrite v)
  else if b == R.TWN_CTRL then some (s.twnCtrlWrite v)
  else if b == R.CMD_CTRL then some (s.cmdCtrlWrite r v)
  else if b == R.CMD_DB then some (s.doorbell r v)
  else if b == R.CMD_SIZE then some (s.ringSizeWrite r F.CMD_SIZE_SIZE v)
  else if b == R.RPL_SIZE then some (s.ringSizeWrite r F.RPL_SIZE_SIZE v)
  else if b == R.RPL_CONS then some (s.rplConsWrite r v)
  else if inFam R.IRQ_PEND 4 4 b then some (s.pendWrite (famIdx R.IRQ_PEND 4 b) v)
  else if b == R.EVR_CTRL then some (s.evrCtrlWrite v)
  else if b == R.EVR_RATE then some (s.evrRateWrite v)
  else if b == R.BOOT_RECOV_CTRL then some (s.recoveryGo v .timeout)
  else if b == R.DBG_CTRL then some (if bit v.toNat 0 then s.dbgLock else s)
  else none

/-! ### Wide values (R17, R405) -/

/-- What becomes of a whole wide value when its last dword is written; `base` is its LO dword at PF0's offset, o the same in the
agent's own copy. -/
def State.pairVerdict (s : State) (base : Nat) (r : Fn) (lo : Dword) : Verdict :=
  if base == R.ING_INJ_BASE_LO then if s.flag F.ING_CTRL_INJ_EN then .silent else .ok
  else if inFam R.SET_HQ_BASE_LO 0x80 16 base then
    if s.flag (hqf F.SET_HQ_CFG_EN (queueOf base)) then .silent else .ok
  else if base == R.CMD_BASE_LO || base == R.RPL_BASE_LO || base == R.RPL_PRODADDR_LO then
    okIf (!s.flag (ringFld r F.CMD_CTRL_EN)) Ev.CMD_CFG_RANGE
  else if base < 0x2A000 && decide (0x21000 ≤ base) && decide (0x1000 ≤ (base - 0x20000) % 0x2000) then
    let p := macPort base
    let l := (base - 0x20000) % 0x2000 % 0x1000 / 0x200
    if l == s.gclOper p || s.flag (pfld F.MAC_GCL_CTRL_P_SWAP p) then .bad Ev.MAC_GCL_RANGE
    else okIf (lo != 0) Ev.MAC_CFG_RANGE
  else match base / 0x10000 with
    | 0x09 => s.casVerdict base lo
    | 0x0C => s.nrgVerdict base lo
    | _ => .ok

/-- Stores the dwords of a wide value from the i-th on. -/
def State.storeDwords (s : State) (o : Nat) : List Dword → State
  | [] => s
  | v :: vs => ((s.store o v).markEpoch o).storeDwords (o + 4) vs

/-- The HI write of a wide value of n dwords: the agent's held dwords, or the present ones, with v. -/
def State.pairWrite (s : State) (a : Agent) (base n : Nat) (own : Nat) (v : Dword) : State :=
  let vs := (List.range (n - 1)).map (fun i => s.heldDword a base (base + 4 * i) (s.rd (own + 4 * i))) ++ [v]
  let t := s.dropHeld a base
  match s.pairVerdict base (agentFn a) (vs.headD 0) with
  | .silent => t
  | .bad e => t.ev0 e
  | .ok =>
    let t := t.storeDwords own vs
    if base == R.ANG_NET_DST then { t with alm := { t.alm with macs := [] } } else t

/-- A write of the last dword of a wide value. -/
def State.hiWrite (s : State) (a : Agent) (base n own : Nat) (v : Dword) : State :=
  if base == R.TIM_INCR_LO then s.timIncr a v
  else if base == R.TIM_STEP_LO then s.timStep a v
  else s.pairWrite a base n own v

/-! ### Register writes -/

/-- A write of the register at PF0 offset b by an agent that may write it. -/
def State.regWrite (s : State) (a : Agent) (b : Nat) (r : RegRow) (v : Dword) : State :=
  match pairOf b with
  | some (base, i, n) =>
    if i + 1 < n then s.hold a base b v else s.hiWrite a base n (ownAddr a base r) v
  | none =>
    match (s.ownWriteA a b v).orElse fun _ => s.ownWriteB a b v with
    | some t => t
    | none => s.plainWrite a (ownAddr a b r) v

/-- A write of a dword of a function's MSI-X table; the PBA is read-only (R430). -/
def State.msixWrite (s : State) (f : Fn) (o : Nat) (v : Dword) : State :=
  if 16 * vecCount f ≤ o then s
  else if o % 16 == 12 then s.vecMask f (o / 16) (bit v.toNat 0)
  else s.wr (msixKey f o) v

/-- A write of one dword at an offset of the agent's window (R402, R403); accesses of another width or alignment have no effect
(R13). -/
def State.writeReg (s : State) (a : Agent) (off len : Nat) (v : Dword) : State :=
  if len != 4 || off % 4 != 0 then s
  else match msixAt a off with
    | some (f, o) => if s.serves a 0x160000 then s.msixWrite f o v else s
    | none =>
      if a != .pf1 && decide (0x200000 ≤ off) && decide (off < 0x400000) then
        if s.serves a off then s.ev0 Ev.SET_WIN_WRITE else s
      else match regAt a off with
        | none => s
        | some (b, r) => s.gate a b fun s => s.regWrite a b r v

/-- REGISTER_WRITE (R13). -/
def execRegisterWrite (a : Agent) (off len : Nat) (v : Dword) (s : State) : Result := (s.writeReg a off len v).done

/-- WIDE_VALUE_HELD_WRITE (R405): a dword of a wide value below its last. -/
def State.heldWrite (s : State) (a : Agent) (off : Nat) (v : Dword) : State :=
  match regAt a off with
  | none => s
  | some (b, _) => match pairOf b with
    | some (base, i, n) => if i + 1 < n then s.gate a b fun s => s.hold a base b v else s
    | none => s

/-- WIDE_VALUE_HELD_WRITE. -/
def execWideValueHeldWrite (a : Agent) (off : Nat) (v : Dword) (s : State) : Result := (s.heldWrite a off v).done

/-- WIDE_VALUE_HI_WRITE (R17): the last dword of a wide value. -/
def State.lastWrite (s : State) (a : Agent) (off : Nat) (v : Dword) : State :=
  match regAt a off with
  | none => s
  | some (b, r) => match pairOf b with
    | some (base, i, n) => if i + 1 == n then s.gate a b fun s => s.hiWrite a base n (ownAddr a base r) v else s
    | none => s

/-- WIDE_VALUE_HI_WRITE. -/
def execWideValueHiWrite (a : Agent) (off : Nat) (v : Dword) (s : State) : Result := (s.lastWrite a off v).done

/-- EV_PAIR_TIMEOUT (R17): 1 ms after the first held write the agent's held writes of the value at `base` are discarded. -/
def execEvPairTimeout (a : Agent) (base : Nat) (s : State) : Result :=
  match s.heldOf a base with
  | none => s.done
  | some h =>
    let s := (s.reach (h.since + ticksOfMs 1)).dropHeld a base
    ((s.inc F.CMD_PAIRTMO_COUNT).ev0 Ev.PAIR_TIMEOUT).done

end Sys2Proof.Machine
end

