-- ==== Sys2Proof/Machine/Dbg.lean ====
section
/-!
DEFINITION. Sys2Proof/Machine/Dbg.lean: the debug port (R499 to R508): frames, the unlock challenge, the debug address space, the cores.
-/
namespace Sys2Proof.Machine

/-! ### Frames (R499 to R502) -/

/-- Status codes of a frame: OK. -/
def dbgOk : Nat := 0
/-- BUSY. -/
def dbgBusy : Nat := 1
/-- ERR. -/
def dbgErr : Nat := 2
/-- LOCKED. -/
def dbgLocked : Nat := 3

/-- What a frame's access answers: status, data, and the state it leaves. -/
structure DbgRes where
  st : Nat
  data : Dword
  s : State

/-- A frame's header of 8 bits: SYNC 10, RNW, REG, TOGGLE, and odd parity over the seven (R500). -/
def dbgHead (rnw : Bool) (reg : Nat) (toggle : Bool) : Nat :=
  let x := 0x80 + 32 * b2n rnw + 4 * reg + 2 * b2n toggle
  x + b2n (!parity 8 x)

/-- The CRC x^4 + x + 1 from 0 over a frame's header, most significant bit first, and its data, least significant bit first (R500). -/
def dbgCrc (h : Nat) (v : Dword) : Nat :=
  (((List.range 8).map fun i => bit h (7 - i)) ++ (List.range 32).map fun i => bit v.toNat i).foldl
    (fun c b => Nat.xor (2 * c % 16) (if xor (bit c 3) b then 3 else 0)) 0

/-- A frame with the header h that accesses register REG, read or written. A header with a bad SYNC or parity gets no status (R500). At
LEVEL 0 only the registers said to be `open_` answer; a write with a bad CRC is answered ERR; a frame whose TOGGLE equals that of the
last frame answered OK is a repeat; an OK answer is remembered (R501, R502). -/
def State.dbgFrame (s : State) (rnw : Bool) (reg : Nat) (open_ : Bool) (h : Nat) (crcOk : Bool) (act : State → DbgRes) : State :=
  let toggle := bit h 1
  if !s.railsUp || h != dbgHead rnw reg toggle then s
  else if s.dbg.level == 0 && !open_ then s.emit (.dbg dbgLocked 0)
  else if !crcOk then s.emit (.dbg dbgErr 0)
  else if s.dbg.toggle == some toggle then s.emit (.dbg dbgOk s.dbg.data)
  else
    let r := act s
    let t := if r.st == dbgOk then r.s.modDbg fun d => { d with toggle := some toggle, data := r.data } else r.s
    t.emit (.dbg r.st r.data)

/-- DEBUG_LINE_RESET (R499): the TOGGLE history is cleared. -/
def execDebugLineReset (s : State) : Result := (s.modDbg fun d => { d with toggle := none }).done

/-- DBG_ADDR_WRITE (R502). -/
def execDbgAddrWrite (h crc : Nat) (v : Dword) (s : State) : Result :=
  (s.dbgFrame false 2 false h (crc == dbgCrc h v) fun s => ⟨dbgOk, 0, s.modDbg fun d => { d with addr := v }⟩).done

/-! ### The debug address space (R506, R507) -/

/-- What an address reaches: a device register, dword i of a Sett word or of a control RAM word, an offset of a core's registers, or
nothing. -/
inductive DbgAddr where
  | reg (off : Nat)
  | sett (word i : Nat)
  | cram (word i : Nat)
  | core (c off : Nat)
  | none
  deriving DecidableEq, Repr

/-- The region of an address; its bits [1:0] are ignored. -/
def dbgRegion (addr : Nat) : DbgAddr :=
  let a := addr / 4 * 4
  if a < 0x160000 then .reg a
  else if 0x10000000 ≤ a && a < 0x18000000 then .sett ((a - 0x10000000) / 16) (a / 4 % 4)
  else if 0x20000000 ≤ a && a < 0x20400000 then .cram ((a - 0x20000000) / 16) (a / 4 % 4)
  else if 0x30000000 ≤ a && a < 0x30002000 then .core ((a - 0x30000000) / 0x1000) (a % 0x1000)
  else .none

/-- A read answered OK. -/
def dbgVal (x : Nat) (s : State) : DbgRes := ⟨dbgOk, BitVec.ofNat 32 x, s⟩

/-- An access answered ERR; the data of a read is open. -/
def dbgRefuse (s : State) : DbgRes := let r := s.fresh; ⟨dbgErr, BitVec.ofNat 32 r.1, r.2⟩

/-- Is the offset in the KEY block. -/
def inKeyBlock (off : Nat) : Bool := decide (off / 0x10000 = 0x13)

/-- A register read as PF0 makes it; the KEY block reads zero. The answer the read sends is the frame's data. -/
def State.dbgRegRead (s : State) (off : Nat) : DbgRes :=
  if inKeyBlock off then dbgVal 0 s
  else
    let t := s.readReg .probe off 4
    match t.out.getLast? with
    | some (.answer _ b _) => dbgVal (leVal b) { t with out := t.out.dropLast }
    | _ => dbgVal 0 t

/-- Dword i of Sett word `addr`: data, then the flag byte in [15:8]. The read goes through parity, where `err` is found; it takes no hold;
a free or retired page reads zero. -/
def State.dbgSettRead (s : State) (addr i : Nat) (err : ReadErr) : DbgRes :=
  let r := s.eccRead false addr err
  let s := r.1
  match s.settWord addr with
  | none => dbgVal 0 s
  | some w =>
    let fl := flagByte w.eop w.poison r.2 false
    let v := w.v.toNat
    dbgVal (if i == 0 then bits v 31 0 else if i == 1 then bits v 63 32 else if i == 2 then bits v 71 64 + 256 * fl else 0) s

/-- Dword i of control RAM word w: open data (notes/assumptions/42.md), then the flag byte. -/
def State.cramWord (s : State) (w i : Nat) (err : ReadErr) : DbgRes :=
  let c := s.eccRead true w err
  let s := c.1
  if i < 2 then
    let r := s.fresh
    dbgVal r.1 r.2
  else if i == 2 then dbgVal (256 * flagByte false (smem s.ecc.cramPoison w) c.2 false) s
  else dbgVal 0 s

/-- A word of the control RAM is written: it carries no POISON (R450). -/
def State.cramWrite (s : State) (w : Nat) : State := s.modEcc fun e => { e with cramPoison := sdel e.cramPoison w }

/-- A core's debug register as read; REGDATA only while the core is halted. -/
def State.dbgCoreRead (s : State) (c off : Nat) : DbgRes :=
  let x := s.dbgCore c
  if off == 0x00 then dbgVal (8 * b2n x.xhalt) s
  else if off == 0x04 then dbgVal (16 * x.cause + b2n x.halted) s
  else if off == 0x08 then
    if x.halted then dbgVal x.pc.toNat s else let r := s.fresh; dbgVal r.1 r.2
  else if off == 0x0C then dbgVal x.regsel s
  else if off == 0x10 then if x.halted then dbgVal (mgetD x.gpr x.regsel 0).toNat s else dbgRefuse s
  else dbgVal (mgetD x.points off 0).toNat s

/-- Bits of a breakpoint or watchpoint register that are stored. -/
def pointMask (off : Nat) (v : Dword) : Option Dword :=
  if 0x20 ≤ off && off < 0x30 then some v
  else if off == 0x40 || off == 0x48 then some v
  else if off == 0x44 || off == 0x4C then some (v &&& 0xFFFFFF07)
  else none

/-- A write of CTL: XHALT, then HALT, STEP and RESUME where set. -/
def State.coreCtl (s : State) (c : Nat) (v : Dword) : State :=
  let n := v.toNat
  let s := s.modCore c fun x => { x with xhalt := bit n 3 }
  let s := if bit n 0 then s.haltRequest c else s
  let s := if bit n 2 then s.stepCore c 0 else s
  if bit n 1 then s.resumeCore c else s

/-- A write of a core's debug register; PC and REGDATA only while the core is halted. -/
def State.dbgCoreWrite (s : State) (c off : Nat) (v : Dword) : DbgRes :=
  let x := s.dbgCore c
  let ok (t : State) : DbgRes := ⟨dbgOk, 0, t⟩
  if off == 0x00 then ok (s.coreCtl c v)
  else if off == 0x08 then if x.halted then ok (s.modCore c fun x => { x with pc := v }) else ⟨dbgErr, 0, s⟩
  else if off == 0x0C then ok (s.modCore c fun x => { x with regsel := v.toNat % 32 })
  else if off == 0x10 then
    if x.halted then ok (s.modCore c fun x => { x with gpr := mput x.gpr x.regsel v }) else ⟨dbgErr, 0, s⟩
  else match pointMask off v with
    | some w => ok (s.modCore c fun x => { x with points := mput x.points off w })
    | none => ok s

/-- A read of DATA. -/
def State.dbgRead (s : State) (addr : Nat) (err : ReadErr) : DbgRes :=
  match dbgRegion addr with
  | .reg off => s.dbgRegRead off
  | .sett w i => s.dbgSettRead w i err
  | .cram w i => s.cramWord w i err
  | .core c off => s.dbgCoreRead c off
  | .none => dbgRefuse s

/-- A write of DATA at LEVEL 2. -/
def State.dbgWrite (s : State) (addr : Nat) (v : Dword) : DbgRes :=
  match dbgRegion addr with
  | .reg off => if inKeyBlock off then ⟨dbgErr, 0, s⟩ else ⟨dbgOk, 0, s.writeReg .probe off 4 v⟩
  | .sett _ _ => ⟨dbgErr, 0, s⟩
  | .cram w i => if i < 2 then ⟨dbgOk, 0, s.cramWrite w⟩ else ⟨dbgErr, 0, s⟩
  | .core c off => s.dbgCoreWrite c off v
  | .none => ⟨dbgErr, 0, s⟩

/-- An OK access adds 4 to ADDR (R502). -/
def DbgRes.advance (r : DbgRes) : DbgRes :=
  if r.st == dbgOk then { r with s := r.s.modDbg fun d => { d with addr := d.addr + 4 } } else r

/-- DBG_DATA_READ (R506), with what the parity check of a memory word finds. -/
def execDbgDataRead (h : Nat) (err : ReadErr) (s : State) : Result :=
  (s.dbgFrame true 3 false h true fun s => (s.dbgRead s.dbg.addr.toNat err).advance).done

/-- DBG_DATA_WRITE (R506): LEVEL 1 writes nothing. -/
def execDbgDataWrite (h crc : Nat) (v : Dword) (s : State) : Result :=
  (s.dbgFrame false 3 false h (crc == dbgCrc h v) fun s =>
    if s.dbg.level == 2 then (s.dbgWrite s.dbg.addr.toNat v).advance else ⟨dbgErr, 0, s⟩).done

/-- DBG_PORT_LOCK (R504): a frame that writes CTRL. -/
def execDbgPortLock (h crc : Nat) (v : Dword) (s : State) : Result :=
  (s.dbgFrame false 4 false h (crc == dbgCrc h v) fun s => ⟨dbgOk, 0, if bit v.toNat 0 then s.dbgLock else s⟩).done

/-- DBG_CTRL_LOCK (R504): a write of DBG_CTRL. -/
def execDbgCtrlLock (a : Agent) (v : Dword) (s : State) : Result :=
  (s.gate a R.DBG_CTRL fun s => if bit v.toNat 0 then s.dbgLock else s).done

/-! ### Unlock (R503 to R505) -/

/-- Opens a challenge: UID, the level asked for, BOOT_CNT, a nonce of 16 open bytes, four zero bytes. -/
def State.openChal (s : State) (level : Nat) : State :=
  let r := s.fresh
  let b := toLe 7 Config.uid ++ toLe 1 level ++ toLe 4 (s.get F.BOOT_CNT_STARTS) ++ toLe 16 r.1 ++ zeros 4
  r.2.modDbg fun d => { d with chal := some ⟨b, level, s.now⟩, chalIdx := 0, resp := [], checkAt := none }

/-- The open challenge closes. -/
def State.closeChal (s : State) : State :=
  s.modDbg fun d => { d with chal := none, chalIdx := 0, resp := [], checkAt := none }

/-- Does a signature verify over a challenge under the debug key of the boot ROM: an open function of both. -/
def chalVerifies (chal sig : List Byte) : Bool := Config.op "dbg.verify" [leVal chal, leVal sig] % 2 == 1

/-- The open challenge is answered with a 64-byte signature: whether it verified (R504). -/
def State.answerChal (s : State) (c : DbgChal) (sig : List Byte) : Bool × State :=
  let t := s.closeChal
  if chalVerifies c.bytes sig then (true, (t.modDbg fun d => { d with level := c.level }).ev0 Ev.DBG_UNLOCK)
  else
    let n := min 3 (t.dbg.fails + 1)
    let t := (t.modDbg fun d => { d with fails := n }).ev0 Ev.DBG_FAIL
    (false, if n == 3 then (t.modDbg fun d => { d with lockout := true }).ev0 Ev.DBG_LOCKOUT else t)

/-- DBG_CHAL_READ (R502, R503): words 0 to 7 in turn, first byte in [7:0]. -/
def execDbgChalRead (h : Nat) (s : State) : Result :=
  (s.dbgFrame true 5 true h true fun s => match s.dbg.chal with
    | none => dbgVal 0 s
    | some c => dbgVal (le c.bytes (4 * s.dbg.chalIdx) 4) (s.modDbg fun d => { d with chalIdx := (d.chalIdx + 1) % 8 })).done

/-- A write of RESP: refused under LOCKOUT; opens a challenge where none is open; else the next response word, the 17th of which starts
the check. -/
def State.respWrite (s : State) (v : Dword) : DbgRes :=
  if s.dbg.lockout then ⟨dbgErr, 0, s⟩
  else if s.dbg.checkAt.isSome then ⟨dbgBusy, 0, s⟩
  else match s.dbg.chal with
    | none => ⟨dbgOk, 0, if v == 1 || v == 2 then s.openChal v.toNat else s⟩
    | some _ => ⟨dbgOk, 0, s.modDbg fun d =>
        let l := d.resp ++ [v]
        { d with resp := l, checkAt := if l.length == 17 then some s.now else none }⟩

/-- DBG_RESP_WRITE (R503, R505). -/
def execDbgRespWrite (h crc : Nat) (v : Dword) (s : State) : Result :=
  (s.dbgFrame false 6 true h (crc == dbgCrc h v) fun s => s.respWrite v).done

/-- DBG_RESPONSE_VERIFY (R504, R505): the check of the response in the port completes. -/
def execDbgResponseVerify (s : State) : Result :=
  match s.dbg.checkAt, s.dbg.chal with
  | some _, some c => (s.answerChal c ((s.dbg.resp.drop 1).flatMap fun w => toLe 4 w.toNat)).2.done
  | _, _ => s.done

/-- DBG_CHALLENGE_EXPIRY (R503): 60 s after the challenge was opened. -/
def execDbgChallengeExpiry (s : State) : Result :=
  match s.dbg.chal with
  | some c => ((s.reach (c.at_ + ticksOfS 60)).closeChal).done
  | none => s.done

/-- DBG_CHALLENGE (0x98): body. -/
def dbgChallengeBody (r : Fn) (issued : Bool) (p : List Byte) (s : State) : CmdRes :=
  checked [(le p 8 8 % 8 != 0, St.badParam), (le p 16 1 != 1 && le p 16 1 != 2, St.badParam), (!zeroAt p 17 7, St.badParam),
      (s.dbg.lockout, St.denied)] s
    (let t := s.openChal (le p 16 1)
     withWrite issued r s ⟨St.ok, [], t.dma r (le p 8 8) ((t.dbg.chal.map fun c => c.bytes).getD [])⟩)

/-- DBG_CHALLENGE. -/
def execDbgChallenge (r : Fn) (issued : Bool) (s : State) : Result :=
  (s.plain r 0x98 24 false (fun _ => true) (dbgChallengeBody r issued)).done

/-- DBG_RESPONSE (0x99): body. -/
def dbgResponseBody (buf : HostRead) (p : List Byte) (s : State) : CmdRes :=
  checked [(le p 8 8 % 8 != 0, St.badParam), (le p 16 1 != 0, St.badParam), (!zeroAt p 17 7, St.badParam),
      (s.dbg.lockout, St.denied), (s.dbg.chal.isNone, St.state)] s
    (withBuf buf s fun b => match s.dbg.chal with
      | none => CmdRes.fail St.state s
      | some c =>
        let x := s.answerChal c (padTo 64 b)
        ⟨if x.1 then St.ok else St.verifyFail, [], x.2⟩)

/-- DBG_RESPONSE. -/
def execDbgResponse (r : Fn) (buf : HostRead) (s : State) : Result :=
  (s.plain r 0x99 24 false (fun _ => true) (dbgResponseBody buf)).done

/-! ### The cores (R507, R508): writes of CTL at LEVEL 2 -/

/-- Does the probe's LEVEL let it write. -/
def State.dbgFull (s : State) : Bool := s.railsUp && s.dbg.level == 2

/-- CORE_HALT. -/
def execCoreHalt (c : Fin 2) (s : State) : Result := (if s.dbgFull then s.haltRequest c else s).done

/-- CORE_RESUME. -/
def execCoreResume (c : Fin 2) (s : State) : Result := (if s.dbgFull then s.resumeCore c else s).done

/-- The causes of an instruction that matches a breakpoint or a watchpoint, of those that are enabled, ORed (R507). -/
def DbgCore.hits (x : DbgCore) (brk watch : Bool) : Nat := 2 * b2n (brk && x.armed false) + 4 * b2n (watch && x.armed true)

/-- CORE_STEP: the one instruction may match a breakpoint or a watchpoint. -/
def execCoreStep (c : Fin 2) (brk watch : Bool) (s : State) : Result :=
  (if s.dbgFull then s.stepCore c ((s.dbgCore c).hits brk watch) else s).done

/-- CORE_BREAKPOINT_HIT: an instruction of a running core matches an enabled breakpoint, an enabled watchpoint, or both. -/
def execCoreBreakpointHit (c : Fin 2) (brk watch : Bool) (s : State) : Result :=
  (if s.coresUp && (s.dbgCore c).hits brk watch != 0 then s.haltCore c ((s.dbgCore c).hits brk watch) else s).done

end Sys2Proof.Machine
end

