-- ==== Sys2Proof/Machine/Release.lean ====
section
/-!
DEFINITION. Sys2Proof/Machine/Release.lean: releasing a set: placeholders and header, horizon and counters, demotion and promotion,
offers to queues, output groups, cascade builder and engines (R125, R138 to R150).
-/
namespace Sys2Proof.Machine

/-- Stores a record in an instant's pages; where no page can be had it stays out (notes/assumptions/79.md). -/
def State.instAdd (s : State) (t : Nat × Nat) (sidx : Nat) (ws : List SWord) : State :=
  let r := s.instPage t ws.length
  match r.1 with
  | none => r.2
  | some id => r.2.instStore t sidx ws id

/-- A placeholder record (R140). -/
def State.placeholder (s : State) (i : Inst) (sidx : Nat) : List SWord :=
  let ty := if 8184 ≤ sidx then 2 else if (s.casBoundAt i.epoch sidx).isSome then 3 else 1
  [sword (h0 ty sidx 0 0xC000 0 0), sword (h1 i.soc i.ns 0x0F)]

/-- CAUSE of a set header. -/
def causeCode : Option Cause → Nat
  | some .deadline => 1
  | some .forced => 2
  | _ => 0

/-- S0 of the set header (R145). -/
def setS0 (i : Inst) : Nat :=
  i.expected.length * 2 ^ 58 + (i.expected.filter fun x => i.arrived.contains x).length * 2 ^ 44 +
    (i.member.filter fun x => !i.expected.contains x).length * 2 ^ 30 + causeCode i.cause * 2 ^ 28 + i.rate * 2 ^ 24 + i.gap * 2 ^ 8 + i.flags

/-- S1 of the set header (R145). -/
def setS1 (i : Inst) : Nat := i.epoch % 2 ^ 32 * 2 ^ 40 + i.waitEff % 2 ^ 32 * 2 ^ 8

/-- The set-header record (R145). -/
def State.setHeader (s : State) (i : Inst) : List SWord :=
  ([h0 7 0 2 0 (shortStamp s.taiNs) 0, h1 i.soc i.ns s.tqByte, setS0 i, setS1 i]).map sword

/-- Key under which a set header's reference stands among an instant's records: no stream has it. -/
def hdrKey : Nat := 8192

/-- Puts a reference before the first one of a larger stream index. -/
def insRef (r : Ref) : List Ref → List Ref
  | [] => [r]
  | x :: t => if r.sidx < x.sidx then r :: x :: t else x :: insRef r t

/-- Sorts references by stream. -/
def sortRefs (l : List Ref) : List Ref := l.foldl (fun a r => insRef r a) []

/-- Placeholders and header are written into the instant's pages (R140, R145). -/
def State.closeSet (s : State) (i : Inst) : State :=
  let t := (i.soc, i.ns)
  let absent := i.expected.filter fun x => !i.arrived.contains x
  let s := absent.foldl (fun s x => s.instAdd t x (s.placeholder i x)) s
  s.instAdd t hdrKey (s.setHeader i)

/-- END on the last word of a packet (R119). -/
def State.endOn (s : State) (parts : List Ref) : State :=
  match parts.getLast? with
  | none => s
  | some r => s.putWords r (markEnd (s.refWords r))

/-- Counters of a released stream's record or placeholder (R157). -/
def State.countPlaced (s : State) (i : Inst) : State :=
  i.expected.foldl (fun s x =>
    if i.arrived.contains x then s.modStat x fun st => { st with placed := (st.placed + 1) % 2 ^ 32 }
    else s.modStat x fun st => { st with placeholder := (st.placeholder + 1) % 2 ^ 32 }) s

/-- The miss map takes one bit of an expected stream, and the stream may be demoted (R149). -/
def State.missOne (s : State) (i : Inst) (x : Nat) : State :=
  let s := s.modStat x fun st => { st with miss := (st.miss * 2 + b2n (!i.arrived.contains x)) % 2 ^ 64 }
  if s.flag F.ALN_CTRL_DEMOTE_EN && !(s.policyOf x).nodemote && !(s.stat x).demoted &&
      decide (s.get F.ALN_DEMOTE_DEMOTE_N ≤ popcount (s.stat x).miss 64) then s.demote x
  else s

/-- Miss maps of the streams expected; nothing is entered for a forced instant (R149). -/
def State.missMaps (s : State) (i : Inst) : State :=
  if i.cause = some .forced then s else i.expected.foldl (fun s x => s.missOne i x) s

/-- One demoted member's streak, and its promotion (R150). -/
def State.streakOne (s : State) (i : Inst) (x : Nat) : State :=
  let ok := i.arrived.contains x || i.demArr.contains x
  let s := s.modStat x fun st => { st with streak := if ok then satInc st.streak 255 else 0 }
  let n := s.get F.ALN_DEMOTE_PROMOTE_N
  if n != 0 && decide (n ≤ (s.stat x).streak) then s.promote x else s

/-- Streaks of the members demoted before this release. -/
def State.streaks (s : State) (i : Inst) : State :=
  (i.member.filter fun x => (s.stat x).demoted).foldl (fun s x => s.streakOne i x) s

/-- The release's counters, its longest interval and the horizon (R138, R143). -/
def State.relCount (s : State) (i : Inst) (rest : List Inst) : State :=
  let s := s.inc64 R.ALN_SETS_LO R.ALN_SETS_HI
  let s := match i.cause with
    | some .deadline => s.inc F.ALN_CNT_DL_COUNT
    | some .forced => s.inc F.ALN_CNT_FORCED_COUNT
    | _ => s
  let c := min ((s.now - max i.readyAt s.aln.relTick) * 5 / 4) 65535
  let s := if s.get F.ALN_RELMAX_CLK < c then s.set F.ALN_RELMAX_CLK c else s
  let h := match rest with
    | n :: _ => n.pred
    | [] => s.aln.last
  match h with
  | some t => s.setHoriz t
  | none => s

/-- Does queue q take the set (R119). -/
def State.decimTakes (s : State) (i : Inst) (q : Nat) : Bool :=
  let n := s.get (F.SET_HQ_CFG_DECIM.at (0x80 * q))
  decide (n ≤ 1) || slotOf (rateOf i.rate) i.soc i.ns % n == 0

/-- The EN field of an engine. -/
def engineEn (e : Nat) : Fld := if e == 0 then F.ANG_CTRL_EN else if e == 1 then F.ISL_CTRL_EN else F.OSC_CTRL_EN

/-- The set goes on an engine's pending list, if the engine is enabled and the scheduler runs (R125); SCHED_EN = 0 stops no other offer
(notes/assumptions/104.md). -/
def State.engineOffer (s : State) (d : SetDesc) (e : Nat) : State :=
  if s.flag F.SET_CTRL_SCHED_EN && s.flag (engineEn e) then s.enginePut e d else s.feedMark d e false []

/-- The cascade builder takes the set (R125, R248); a set a joined unit releases while the link does not run is not digested, which the
next digest tells (R247). -/
def State.cascOffer (s : State) (d : SetDesc) : State :=
  match s.flag F.CAS_STAT_JOINED, s.cas.join with
  | true, some j =>
    if s.flag F.CAS_CTRL_EN then
      let s := d.pages.foldl (fun s p => s.holdPage p .cascade) s
      { s with sched := { s.sched with casc := s.sched.casc ++ [(j, d)] } }
    else { s with cas := { s.cas with gap := s.cas.gap + 1 } }
  | _, _ => s

/-- What the learning update counts (R146). -/
def State.learnTick (s : State) : State :=
  if s.learns then
    let n := s.aln.learnCnt + 1
    if s.get F.ALN_LEARN_PERIOD ≤ n then { s with aln := { s.aln with learnCnt := 0, learnDue := true } }
    else { s with aln := { s.aln with learnCnt := n } }
  else s

/-- The descriptor of a closed set: the records and placeholders of the streams expected (R140). A record stored for a stream that is not
expected is no part of the set. -/
def State.descOf (s : State) (i : Inst) : SetDesc :=
  { soc := i.soc, k := i.k, ns := i.ns, rate := i.rate, epoch := i.epoch, flags := i.flags, cause := i.cause.getD .all, gap := i.gap, lead := 0,
    releasedAt := s.now, tq := s.tqByte, nexp := i.expected.length,
    narr := (i.expected.filter fun x => i.arrived.contains x).length,
    recs := sortRefs (i.recs.filter fun r => i.expected.contains r.sidx), shapes := i.shapes, pages := i.pages }

/-- The offers of a released set, in the order host queues, output groups, cascade builder, engines (R31, R125). -/
def State.offerSet (s : State) (i : Inst) (parts : List Ref) (d : SetDesc) : State :=
  let s := if parts.isEmpty then s else s.offerRefs ⟨0, parts, i.pages, none⟩ true fun s q => s.decimTakes i q
  let s := (s.outSet d).cascOffer d
  let s := [0, 1, 2].foldl (fun s e => s.engineOffer d e) s
  s.dropHolds .inst i.pages

/-- Releases the oldest instant in flight (R141, R143). -/
def State.release (s : State) (i : Inst) (rest : List Inst) : State :=
  let t := (i.soc, i.ns)
  let s := s.closeSet i
  let i := (s.inst? t).getD i
  let d := s.descOf i
  let parts := (i.recs.filter fun r => r.sidx == hdrKey) ++ d.recs
  let s := s.endOn parts
  let s := { s with aln := { s.aln with insts := rest } }
  let s := (s.relCount i rest).countPlaced i
  let s := { s with aln := { s.aln with relTick := s.now } }
  let s := (s.staleSync.streaks i).missMaps i
  let s := s.offerSet i parts d
  let s := s.raise 32
  let s := if i.cause = some .all then s else s.raise 33
  s.learnTick.inflightSync

/-- SET_RELEASE (R143): the oldest instant in flight is released once it is READY. -/
def execSetRelease (s : State) : Result :=
  match s.aln.insts with
  | [] => s.done
  | i :: rest => if i.cause.isSome then (s.release i rest).done else s.done

end Sys2Proof.Machine
end

