-- ==== Sys2Proof/Machine/Dispatch.lean ====
section
/-!
DEFINITION. Sys2Proof/Machine/Dispatch.lean: which meaning each command has.
-/
namespace Sys2Proof.Machine

def exec (i : Instr) (s : State) : Host.Outcome State Fault Refusal :=
  match i with
  | .registerWrite a off len v => Sys2Proof.Machine.execRegisterWrite a off len v s
  | .wideValueLoRead a off len => Sys2Proof.Machine.execWideValueLoRead a off len s
  | .wideValueHeldWrite a off v => Sys2Proof.Machine.execWideValueHeldWrite a off v s
  | .wideValueHiWrite a off v => Sys2Proof.Machine.execWideValueHiWrite a off v s
  | .evPairTimeout a base => Sys2Proof.Machine.execEvPairTimeout a base s
  | .refDetectRetry count => Sys2Proof.Machine.execRefDetectRetry count s
  | .evTimRefLost => Sys2Proof.Machine.execEvTimRefLost s
  | .evTimRefRestored => Sys2Proof.Machine.execEvTimRefRestored s
  | .timIncrWrite a v => Sys2Proof.Machine.execTimIncrWrite a v s
  | .timStepRequest a v => Sys2Proof.Machine.execTimStepRequest a v s
  | .timeStepForce r => Sys2Proof.Machine.execTimeStepForce r s
  | .ptpCfg r => Sys2Proof.Machine.execPtpCfg r s
  | .timeSourceLost backupGood => Sys2Proof.Machine.execTimeSourceLost backupGood s
  | .pdelayReqTx p seq => Sys2Proof.Machine.execPdelayReqTx p seq s
  | .pdelayRespTx p seq => Sys2Proof.Machine.execPdelayRespTx p seq s
  | .pdelayRespFollowUpTx p seq => Sys2Proof.Machine.execPdelayRespFollowUpTx p seq s
  | .tsqEntryRead a p => Sys2Proof.Machine.execTsqEntryRead a p s
  | .ppsInEdge rising widthNs => Sys2Proof.Machine.execPpsInEdge rising widthNs s
  | .evTimPpsinMissing => Sys2Proof.Machine.execEvTimPpsinMissing s
  | .irigFrameRx widthsUs ago newOfs => Sys2Proof.Machine.execIrigFrameRx widthsUs ago newOfs s
  | .irigValidExpiry newOfs => Sys2Proof.Machine.execIrigValidExpiry newOfs s
  | .ppsOutRise => Sys2Proof.Machine.execPpsOutRise s
  | .ppsOutFall => Sys2Proof.Machine.execPpsOutFall s
  | .timServoWrite a v => Sys2Proof.Machine.execTimServoWrite a v s
  | .servoTimeout => Sys2Proof.Machine.execServoTimeout s
  | .holdWrite a v => Sys2Proof.Machine.execHoldWrite a v s
  | .holdoverUncUpdate => Sys2Proof.Machine.execHoldoverUncUpdate s
  | .dataFrameIngest => Sys2Proof.Machine.execDataFrameIngest s
  | .injDoorbell a v => Sys2Proof.Machine.execInjDoorbell a v s
  | .injEntryFetch entry frame => Sys2Proof.Machine.execInjEntryFetch entry frame s
  | .injFetchTimeout entry => Sys2Proof.Machine.execInjFetchTimeout entry s
  | .cfgFrameRx => Sys2Proof.Machine.execCfgFrameRx s
  | .sendCfg2Request sidx => Sys2Proof.Machine.execSendCfg2Request sidx s
  | .ingHistWrite a v => Sys2Proof.Machine.execIngHistWrite a v s
  | .oldEntryExpiry sidx => Sys2Proof.Machine.execOldEntryExpiry sidx s
  | .streamAdd r buf => Sys2Proof.Machine.execStreamAdd r buf s
  | .streamDel r => Sys2Proof.Machine.execStreamDel r s
  | .streamMod r => Sys2Proof.Machine.execStreamMod r s
  | .streamCfgLoad r buf => Sys2Proof.Machine.execStreamCfgLoad r buf s
  | .streamStats r issued => Sys2Proof.Machine.execStreamStats r issued s
  | .pageChargeMove page => Sys2Proof.Machine.execPageChargeMove page s
  | .leaseExpiry h => Sys2Proof.Machine.execLeaseExpiry h s
  | .settWindowRead a off len err => Sys2Proof.Machine.execSettWindowRead a off len err s
  | .evSetWinWrite a off v => Sys2Proof.Machine.execEvSetWinWrite a off v s
  | .hostqDmaBlockWrite q err => Sys2Proof.Machine.execHostqDmaBlockWrite q err s
  | .hostqConsWrite a q v => Sys2Proof.Machine.execHostqConsWrite a q v s
  | .hostqDataPop a q byte len err => Sys2Proof.Machine.execHostqDataPop a q byte len err s
  | .hostqCfgWrite a q v => Sys2Proof.Machine.execHostqCfgWrite a q v s
  | .hqPendClear a v => Sys2Proof.Machine.execHqPendClear a v s
  | .quotaWrite a c v => Sys2Proof.Machine.execQuotaWrite a c v s
  | .peakClr a v => Sys2Proof.Machine.execPeakClr a v s
  | .instantOpen => Sys2Proof.Machine.execInstantOpen s
  | .instantDeadline => Sys2Proof.Machine.execInstantDeadline s
  | .setRelease => Sys2Proof.Machine.execSetRelease s
  | .waitLearnUpdate => Sys2Proof.Machine.execWaitLearnUpdate s
  | .alnCtrlWrite a v => Sys2Proof.Machine.execAlnCtrlWrite a v s
  | .cadenceSet r => Sys2Proof.Machine.execCadenceSet r s
  | .waitPolicy r => Sys2Proof.Machine.execWaitPolicy r s
  | .angEngineRun => Sys2Proof.Machine.execAngEngineRun s
  | .alarmFrameRepeat => Sys2Proof.Machine.execAlarmFrameRepeat s
  | .alarmDestResolve p mac => Sys2Proof.Machine.execAlarmDestResolve p mac s
  | .almPulseEnd n => Sys2Proof.Machine.execAlmPulseEnd n s
  | .almLatchClear a v => Sys2Proof.Machine.execAlmLatchClear a v s
  | .alminhInChange level => Sys2Proof.Machine.execAlminhInChange level s
  | .evAngStale => Sys2Proof.Machine.execEvAngStale s
  | .limitsLoad r buf => Sys2Proof.Machine.execLimitsLoad r buf s
  | .anglePairsLoad r buf => Sys2Proof.Machine.execAnglePairsLoad r buf s
  | .islEngineRun => Sys2Proof.Machine.execIslEngineRun s
  | .evIslNodeLost node => Sys2Proof.Machine.execEvIslNodeLost node s
  | .topoLoad r buf => Sys2Proof.Machine.execTopoLoad r buf s
  | .partitionExpect r buf => Sys2Proof.Machine.execPartitionExpect r buf s
  | .oscEngineRun => Sys2Proof.Machine.execOscEngineRun s
  | .oscSignalRestart sig => Sys2Proof.Machine.execOscSignalRestart sig s
  | .bandRecentrePass => Sys2Proof.Machine.execBandRecentrePass s
  | .evOscModeNew => Sys2Proof.Machine.execEvOscModeNew s
  | .evOscModeLost slot => Sys2Proof.Machine.execEvOscModeLost slot s
  | .evOscClass slot => Sys2Proof.Machine.execEvOscClass slot s
  | .oscSignals r buf => Sys2Proof.Machine.execOscSignals r buf s
  | .oscBands r buf => Sys2Proof.Machine.execOscBands r buf s
  | .outCmdFrameRx => Sys2Proof.Machine.execOutCmdFrameRx s
  | .outDestResolve d mac => Sys2Proof.Machine.execOutDestResolve d mac s
  | .outCfgchgExpiry g => Sys2Proof.Machine.execOutCfgchgExpiry g s
  | .outGroupDef r buf => Sys2Proof.Machine.execOutGroupDef r buf s
  | .outDest r => Sys2Proof.Machine.execOutDest r s
  | .cascadeDigestBuild => Sys2Proof.Machine.execCascadeDigestBuild s
  | .cascadeDigestRx => Sys2Proof.Machine.execCascadeDigestRx s
  | .digestReassemblyTimeout w => Sys2Proof.Machine.execDigestReassemblyTimeout w s
  | .evCasMemberLost w => Sys2Proof.Machine.execEvCasMemberLost w s
  | .casJoin r buf => Sys2Proof.Machine.execCasJoin r buf s
  | .joinRetry => Sys2Proof.Machine.execJoinRetry s
  | .joinTimeout => Sys2Proof.Machine.execJoinTimeout s
  | .joinRx => Sys2Proof.Machine.execJoinRx s
  | .joinAnswerRx => Sys2Proof.Machine.execJoinAnswerRx s
  | .casLeave r => Sys2Proof.Machine.execCasLeave r s
  | .leaveRx => Sys2Proof.Machine.execLeaveRx s
  | .xfireFall => Sys2Proof.Machine.execXfireFall s
  | .xfirePulseEnd => Sys2Proof.Machine.execXfirePulseEnd s
  | .frontEndStart => Sys2Proof.Machine.execFrontEndStart s
  | .frontEndStop => Sys2Proof.Machine.execFrontEndStop s
  | .tapSample ch tap bits => Sys2Proof.Machine.execTapSample ch tap bits s
  | .overloadEpisodeEnd ch => Sys2Proof.Machine.execOverloadEpisodeEnd ch s
  | .evFltModFault ch => Sys2Proof.Machine.execEvFltModFault ch s
  | .evFltModRestored ch => Sys2Proof.Machine.execEvFltModRestored ch s
  | .rangeToLowGain b x => Sys2Proof.Machine.execRangeToLowGain b x s
  | .rangeToHighGain b pa pb pc => Sys2Proof.Machine.execRangeToHighGain b pa pb pc s
  | .blankingEnd b => Sys2Proof.Machine.execBlankingEnd b s
  | .cpConfigChange b => Sys2Proof.Machine.execCpConfigChange b s
  | .coefLoad r buf => Sys2Proof.Machine.execCoefLoad r buf s
  | .bankSwap r => Sys2Proof.Machine.execBankSwap r s
  | .evFltFadeStart => Sys2Proof.Machine.execEvFltFadeStart s
  | .evFltFadeDone => Sys2Proof.Machine.execEvFltFadeDone s
  | .pmuEstimateReady b m bad => Sys2Proof.Machine.execPmuEstimateReady b m bad s
  | .pmuDetectorEval b bad => Sys2Proof.Machine.execPmuDetectorEval b bad s
  | .pmuReturnToM b => Sys2Proof.Machine.execPmuReturnToM b s
  | .pmuCfg r => Sys2Proof.Machine.execPmuCfg r s
  | .calLoad r buf => Sys2Proof.Machine.execCalLoad r buf s
  | .energyTick => Sys2Proof.Machine.execEnergyTick s
  | .energyCycleEnd b => Sys2Proof.Machine.execEnergyCycleEnd b s
  | .energyPeriodicSave readBackOk => Sys2Proof.Machine.execEnergyPeriodicSave readBackOk s
  | .energyFlashCopy => Sys2Proof.Machine.execEnergyFlashCopy s
  | .nrgSnapshot r issued => Sys2Proof.Machine.execNrgSnapshot r issued s
  | .evNrgSnapshot => Sys2Proof.Machine.execEvNrgSnapshot s
  | .nrgPreset r buf => Sys2Proof.Machine.execNrgPreset r buf s
  | .captureInstantEval b => Sys2Proof.Machine.execCaptureInstantEval b s
  | .evTrgDone b => Sys2Proof.Machine.execEvTrgDone b s
  | .captureHeldResume b => Sys2Proof.Machine.execCaptureHeldResume b s
  | .captureReoffer => Sys2Proof.Machine.execCaptureReoffer s
  | .trigiInput level => Sys2Proof.Machine.execTrigiInput level s
  | .trigoPulseEnd => Sys2Proof.Machine.execTrigoPulseEnd s
  | .trgArm r buf => Sys2Proof.Machine.execTrgArm r buf s
  | .trgDisarm r => Sys2Proof.Machine.execTrgDisarm r s
  | .trgForce r => Sys2Proof.Machine.execTrgForce r s
  | .captRelease r => Sys2Proof.Machine.execCaptRelease r s
  | .trgDisable a v => Sys2Proof.Machine.execTrgDisable a v s
  | .portFrameRx p frame fcsOk ago => Sys2Proof.Machine.execPortFrameRx p frame fcsOk ago s
  | .pauseTimeEnd p => Sys2Proof.Machine.execPauseTimeEnd p s
  | .evMacPauseWdog p => Sys2Proof.Machine.execEvMacPauseWdog p s
  | .evMacPauseRestore p => Sys2Proof.Machine.execEvMacPauseRestore p s
  | .pauseFrameTx p => Sys2Proof.Machine.execPauseFrameTx p s
  | .pauseFrameRepeat p => Sys2Proof.Machine.execPauseFrameRepeat p s
  | .txFrameEnqueue p cls frame => Sys2Proof.Machine.execTxFrameEnqueue p cls frame s
  | .txFrameStart p carrier => Sys2Proof.Machine.execTxFrameStart p carrier s
  | .txFrameEnd p => Sys2Proof.Machine.execTxFrameEnd p s
  | .hdxCollision bits => Sys2Proof.Machine.execHdxCollision bits s
  | .hdxBackoffEnd => Sys2Proof.Machine.execHdxBackoffEnd s
  | .evMacLinkDown p => Sys2Proof.Machine.execEvMacLinkDown p s
  | .evMacLinkUp p phySpeed => Sys2Proof.Machine.execEvMacLinkUp p phySpeed s
  | .p4PhyPoll link => Sys2Proof.Machine.execP4PhyPoll link s
  | .gateCycleStart p => Sys2Proof.Machine.execGateCycleStart p s
  | .gateEntryEnd p => Sys2Proof.Machine.execGateEntryEnd p s
  | .prpSupervisionTx => Sys2Proof.Machine.execPrpSupervisionTx s
  | .mdioCommandStart a v => Sys2Proof.Machine.execMdioCommandStart a v s
  | .mdioCommandDone ack data => Sys2Proof.Machine.execMdioCommandDone ack data s
  | .heartbeatInstant => Sys2Proof.Machine.execHeartbeatInstant s
  | .heartbeatWordRx pathL word => Sys2Proof.Machine.execHeartbeatWordRx pathL word s
  | .evTwnPathDown pathL => Sys2Proof.Machine.execEvTwnPathDown pathL s
  | .witnessTx => Sys2Proof.Machine.execWitnessTx s
  | .evTwnWitnessLost => Sys2Proof.Machine.execEvTwnWitnessLost s
  | .alWitnessWaitEnd => Sys2Proof.Machine.execAlWitnessWaitEnd s
  | .relinquishComplete => Sys2Proof.Machine.execRelinquishComplete s
  | .evTwnHandoverFail => Sys2Proof.Machine.execEvTwnHandoverFail s
  | .twinRevert => Sys2Proof.Machine.execTwinRevert s
  | .evTwnFault => Sys2Proof.Machine.execEvTwnFault s
  | .twinSyncTx => Sys2Proof.Machine.execTwinSyncTx s
  | .twinEnWrite a v => Sys2Proof.Machine.execTwinEnWrite a v s
  | .twinCfg r => Sys2Proof.Machine.execTwinCfg r s
  | .twinHandover r => Sys2Proof.Machine.execTwinHandover r s
  | .twinForceRole r => Sys2Proof.Machine.execTwinForceRole r s
  | .cmdDoorbell a v => Sys2Proof.Machine.execCmdDoorbell a v s
  | .cmdEntryFetch r entry => Sys2Proof.Machine.execCmdEntryFetch r entry s
  | .cmdFetchTimeout r poisoned => Sys2Proof.Machine.execCmdFetchTimeout r poisoned s
  | .commandStep r buf => Sys2Proof.Machine.execCommandStep r buf s
  | .cmdRingReset a v => Sys2Proof.Machine.execCmdRingReset a v s
  | .pcieFunctionReset f => Sys2Proof.Machine.execPcieFunctionReset f s
  | .nop r => Sys2Proof.Machine.execNop r s
  | .getInfo r => Sys2Proof.Machine.execGetInfo r s
  | .commitEpoch r => Sys2Proof.Machine.execCommitEpoch r s
  | .abortStepped r => Sys2Proof.Machine.execAbortStepped r s
  | .irqDeliveryCommit t => Sys2Proof.Machine.execIrqDeliveryCommit t s
  | .irqCoalTimeout pf1 n => Sys2Proof.Machine.execIrqCoalTimeout pf1 n s
  | .evIrqFallback n => Sys2Proof.Machine.execEvIrqFallback n s
  | .irqPendWrite a w v => Sys2Proof.Machine.execIrqPendWrite a w v s
  | .irqMaskWrite a w v => Sys2Proof.Machine.execIrqMaskWrite a w v s
  | .msixVectorUnmask f vec => Sys2Proof.Machine.execMsixVectorUnmask f vec s
  | .heldDeliveryRelease f => Sys2Proof.Machine.execHeldDeliveryRelease f s
  | .evrBucketRefill code => Sys2Proof.Machine.execEvrBucketRefill code s
  | .evrRateWrite a v => Sys2Proof.Machine.execEvrRateWrite a v s
  | .evrRingStart a v => Sys2Proof.Machine.execEvrRingStart a v s
  | .evrRingStop a v => Sys2Proof.Machine.execEvrRingStop a v s
  | .evEvrThawTimeout => Sys2Proof.Machine.execEvEvrThawTimeout s
  | .evrRead r issued => Sys2Proof.Machine.execEvrRead r issued s
  | .evrFreeze r => Sys2Proof.Machine.execEvrFreeze r s
  | .evrThaw r => Sys2Proof.Machine.execEvrThaw r s
  | .badgerTagWriteback err => Sys2Proof.Machine.execBadgerTagWriteback err s
  | .badgerBlockVisit err => Sys2Proof.Machine.execBadgerBlockVisit err s
  | .evEccLapLate => Sys2Proof.Machine.execEvEccLapLate s
  | .pageRetire r => Sys2Proof.Machine.execPageRetire r s
  | .scrubCfg r => Sys2Proof.Machine.execScrubCfg r s
  | .scrubFull r => Sys2Proof.Machine.execScrubFull r s
  | .retmapFlashSave => Sys2Proof.Machine.execRetmapFlashSave s
  | .keyLoadBlob r buf issued => Sys2Proof.Machine.execKeyLoadBlob r buf issued s
  | .keyEvict r => Sys2Proof.Machine.execKeyEvict r s
  | .keyInvalidateParent r => Sys2Proof.Machine.execKeyInvalidateParent r s
  | .keyWrapNew r issued => Sys2Proof.Machine.execKeyWrapNew r issued s
  | .keyUpdateBegin r => Sys2Proof.Machine.execKeyUpdateBegin r s
  | .keyUpdateRewrap r buf issued => Sys2Proof.Machine.execKeyUpdateRewrap r buf issued s
  | .keyUpdateCommit r => Sys2Proof.Machine.execKeyUpdateCommit r s
  | .keyUpdateAbort r => Sys2Proof.Machine.execKeyUpdateAbort r s
  | .keyLeaseExpiry slot => Sys2Proof.Machine.execKeyLeaseExpiry slot s
  | .tamperDetect src levels => Sys2Proof.Machine.execTamperDetect src levels s
  | .porReset => Sys2Proof.Machine.execPorReset s
  | .sysReset => Sys2Proof.Machine.execSysReset s
  | .bootSequence straps refCount => Sys2Proof.Machine.execBootSequence straps refCount s
  | .recoveryGo a v buf => Sys2Proof.Machine.execRecoveryGo a v buf s
  | .recoveryFlashRetry => Sys2Proof.Machine.execRecoveryFlashRetry s
  | .evBootWatchdog => Sys2Proof.Machine.execEvBootWatchdog s
  | .watchdogRestart => Sys2Proof.Machine.execWatchdogRestart s
  | .bootFailsClear => Sys2Proof.Machine.execBootFailsClear s
  | .evBootSvn => Sys2Proof.Machine.execEvBootSvn s
  | .updStageBegin r => Sys2Proof.Machine.execUpdStageBegin r s
  | .updStageData r buf => Sys2Proof.Machine.execUpdStageData r buf s
  | .updStageEnd r => Sys2Proof.Machine.execUpdStageEnd r s
  | .restartHitless r => Sys2Proof.Machine.execRestartHitless r s
  | .restartStagedUpdate r => Sys2Proof.Machine.execRestartStagedUpdate r s
  | .restartSys r => Sys2Proof.Machine.execRestartSys r s
  | .evUpdSlotWritten => Sys2Proof.Machine.execEvUpdSlotWritten s
  | .pfwnAccept => Sys2Proof.Machine.execPfwnAccept s
  | .pfwnReturn => Sys2Proof.Machine.execPfwnReturn s
  | .pwrQuiesce r => Sys2Proof.Machine.execPwrQuiesce r s
  | .pwrRun r => Sys2Proof.Machine.execPwrRun r s
  | .quiesceTimeout => Sys2Proof.Machine.execQuiesceTimeout s
  | .coreRailsDown vbatHolds => Sys2Proof.Machine.execCoreRailsDown vbatHolds s
  | .debugLineReset => Sys2Proof.Machine.execDebugLineReset s
  | .dbgAddrWrite h crc v => Sys2Proof.Machine.execDbgAddrWrite h crc v s
  | .dbgDataWrite h crc v => Sys2Proof.Machine.execDbgDataWrite h crc v s
  | .dbgDataRead h err => Sys2Proof.Machine.execDbgDataRead h err s
  | .dbgChalRead h => Sys2Proof.Machine.execDbgChalRead h s
  | .dbgRespWrite h crc v => Sys2Proof.Machine.execDbgRespWrite h crc v s
  | .dbgPortLock h crc v => Sys2Proof.Machine.execDbgPortLock h crc v s
  | .dbgResponseVerify => Sys2Proof.Machine.execDbgResponseVerify s
  | .dbgChallengeExpiry => Sys2Proof.Machine.execDbgChallengeExpiry s
  | .dbgChallenge r issued => Sys2Proof.Machine.execDbgChallenge r issued s
  | .dbgResponse r buf => Sys2Proof.Machine.execDbgResponse r buf s
  | .dbgCtrlLock a v => Sys2Proof.Machine.execDbgCtrlLock a v s
  | .coreHalt c => Sys2Proof.Machine.execCoreHalt c s
  | .coreResume c => Sys2Proof.Machine.execCoreResume c s
  | .coreStep c brk watch => Sys2Proof.Machine.execCoreStep c brk watch s
  | .coreBreakpointHit c brk watch => Sys2Proof.Machine.execCoreBreakpointHit c brk watch s
  | .vbatLoss => Sys2Proof.Machine.execVbatLoss s
  | .pcieConfigWrite f bme msixEn fmask d3 pmeEn pmeClear l2 => Sys2Proof.Machine.execPcieConfigWrite f bme msixEn fmask d3 pmeEn pmeClear l2 s
  | .arpNdRequestRx => Sys2Proof.Machine.execArpNdRequestRx s

end Sys2Proof.Machine
end

