-- ==== Sys2Proof/Machine/Step.lean ====
section
/-!
DEFINITION. Sys2Proof/Machine/Step.lean: one step: the command at the front of the queue is executed; with an empty
queue a tick of the TIME counter passes, and LEAVE frames that are due go out.
-/
namespace Sys2Proof.Machine

/-- One step (notes/assumptions/2.md for the empty queue). -/
def step (s : State) : Host.Outcome State Fault Refusal :=
  match s.pending with
  | [] => .next s.tick.leaveDue
  | c :: rest => exec c { s with pending := rest }

/-- s with the command a word spells at the front of its queue; the table gives no row bits, so no word spells one. -/
def State.withFetchWord (s : State) (nbits w : Nat) : State :=
  match decodeTableWord nbits w with
  | none => s
  | some c => { s with pending := c :: s.pending }

end Sys2Proof.Machine
end

