-- ==== Sys2Proof/Safety.lean ====
section
/-!
DEFINITION. Sys2Proof/Safety.lean: what counts as a safe run, what a command leaves as it was, and the invariants of the block.
-/
namespace Sys2Proof.Machine

/-! ### Runs -/

/-- A run of n steps ends in a next state. -/
def Safe (n : Nat) (s : State) : Prop := ∃ t, Sys2Proof.core.run n s = .next t

/-! ### Frames: what stays -/

/-- The parts of a state beside the queue of commands, the register store and the count of free values. -/
inductive Part where
  | latch | held | out | tim | sett | ing | aln | sched | cmd | irq | evr | mac | pmu | keys | ecc | alm | ang | isl | osc | outp | cas | twn | flt | nrg | trg | boot | dbg
  deriving DecidableEq, Repr

/-! Raising an interrupt and logging an event (R424, R438 to R443) follow every command: the record goes to the event ring and to host
queues, pages may be taken, and the alarm pins follow their causes (R172). The masks leave out of a part what these change. -/

/-- The part without what logging changes. -/
def Sett.quiet (x : Sett) : Sett :=
  { x with pages := [], nextId := 0, lastPhys := none, quotaLog := [], queues := [] }

/-- The part without what logging changes. -/
def Irq.quiet (x : Irq) : Irq :=
  { x with main := [], pf1 := [] }

/-- The part without what logging changes. -/
def Evr.quiet (x : Evr) : Evr :=
  { x with early := [], backlog := [], buckets := [], supp := [], recs := [], pages := [], frozenLost := (0, 0, 0), mirror := [] }

/-- The part without what logging changes. -/
def Alm.quiet (x : Alm) : Alm :=
  { x with word0 := 0, groups := [], raw := [], pulse := [] }

/-- The part without what logging changes. -/
def Twn.quiet (x : Twn) : Twn :=
  { x with uncorrAt := none }

/-- Is a part the same in two states, up to what logging changes. -/
def Part.same (p : Part) (s t : State) : Prop :=
  match p with
  | .latch => t.latch = s.latch
  | .held => t.held = s.held
  | .out => t.out = s.out
  | .tim => t.tim = s.tim
  | .sett => t.sett.quiet = s.sett.quiet
  | .ing => t.ing = s.ing
  | .aln => t.aln = s.aln
  | .sched => t.sched = s.sched
  | .cmd => t.cmd = s.cmd
  | .irq => t.irq.quiet = s.irq.quiet
  | .evr => t.evr.quiet = s.evr.quiet
  | .mac => t.mac = s.mac
  | .pmu => t.pmu = s.pmu
  | .keys => t.keys = s.keys
  | .ecc => t.ecc = s.ecc
  | .alm => t.alm.quiet = s.alm.quiet
  | .ang => t.ang = s.ang
  | .isl => t.isl = s.isl
  | .osc => t.osc = s.osc
  | .outp => t.outp = s.outp
  | .cas => t.cas = s.cas
  | .twn => t.twn.quiet = s.twn.quiet
  | .flt => t.flt = s.flt
  | .nrg => t.nrg = s.nrg
  | .trg => t.trg = s.trg
  | .boot => t.boot = s.boot
  | .dbg => t.dbg = s.dbg

/-- May logging change the register at an offset: PEND, DUE and OCC (R424), the event recorder's own (R438 to R443), page counts and host
queues (R107, R118), the alarm port's (R170, R172), FAULT and HEALTHY (R383). -/
def logReg (a : Nat) : Bool :=
  (decide (0x100010 ≤ a) && decide (a < 0x100020)) || (decide (0x100030 ≤ a) && decide (a < 0x100040)) ||
    (decide (0x100500 ≤ a) && decide (a < 0x100600)) ||
    a == R.EVR_STAT || a == R.EVR_SEQ || a == R.EVR_OLDEST || (decide (0x110018 ≤ a) && decide (a < 0x11002C)) ||
    (decide (0x40060 ≤ a) && decide (a < 0x400A0)) || a == R.SET_HQ_PEND ||
    (decide (0x41000 ≤ a) && decide (a < 0x41800) && (a % 0x80 == 0x0C || a % 0x80 == 0x24 || a % 0x80 == 0x2C)) ||
    a == R.ANG_ALMSTAT || a == R.ANG_ASPCNT || a == R.ANG_ASPSUM || a == R.TWN_FAULT || a == R.TWN_STAT

/-- t is s but for the parts in `ps`, the registers that `rs` names, and what logging changes. -/
structure Frame (ps : List Part) (rs : Nat → Bool) (s t : State) : Prop where
  pending : t.pending = s.pending
  parts : ∀ p, p ∉ ps → p.same s t
  regs : ∀ a, rs a = false → logReg a = false → t.rd a = s.rd a

/-- No register. -/
def noRegs : Nat → Bool := fun _ => false

/-- The registers of a list. -/
def regsIn (l : List Nat) : Nat → Bool := fun a => l.contains a

/-- The registers that multicast joins change (R344, R348, R366): the ports' multicast filters, their refusal counters, and the PRP sequence
number of the reports sent. -/
def mcReg (a : Nat) : Bool :=
  (decide (0x20000 ≤ a) && decide (a < 0x2A000) && decide (0x800 ≤ a % 0x2000) && decide (a % 0x2000 < 0xA00)) || a == R.MAC_PRP_SEQ ||
    (List.range 5).any fun p => a == (macCnt p 15).addr

/-! ### What a command does -/

/-- Command c completes in state s, with a next state of which P holds, and which is s but for the parts in `ps`, the registers that
`rs` names, and what logging changes. -/
def Does (c : Instr) (s : State) (ps : List Part) (rs : Nat → Bool) (P : State → Prop) : Prop :=
  ∃ t, exec c s = .next t ∧ P t ∧ Frame ps rs s t

/-- Command c completes in state s, and P holds before its events are logged (`State.drain`, which changes only what the frame's masks name);
all else is as it was but for the parts in `ps` and the registers that `rs` names. -/
def Leads (c : Instr) (s : State) (ps : List Part) (rs : Nat → Bool) (P : State → Prop) : Prop :=
  ∃ u, exec c s = .next u.drain ∧ P u ∧ Frame ps rs s u

/-- Interrupt source n is pending (R424). -/
def State.pends (t : State) (n : Nat) : Prop := t.flag (bitFld R.IRQ_PEND n) = true

/-- Agent a may write the register at offset b: the unit serves the access, and PF1 has the right to (R22, R404, R483). -/
def State.mayWrite (s : State) (a : Agent) (b : Nat) : Prop :=
  s.serves a b = true ∧ (a = .pf1 → ∃ r, regRow? b = some r ∧ s.pf1May b r = true)

/-- The replies that wait are all of functions that get no DMA (R400); the others have been written. -/
def State.NoneLate (s : State) : Prop := ∀ l ∈ s.cmd.late, (s.pfn l.fn).bme = false

/-- Ring r may start the packet b, of opcode `op`, and stages 1 to 5 of R535 pass it: its parameter area ends at byte `plen`, and
PF1 may issue it only where `pf1Ok`. -/
structure Starts (s : State) (r : Fn) (op plen : Nat) (pf1Ok : Bool) (b : List Byte) : Prop where
  head : s.head r = some b
  op : pkOp b = op
  valid : stages15 r b plen pf1Ok = none
  late : s.NoneLate

/-- Between s and t ring r has answered b: one reply in the host's ring, RPL_PROD one further (R410, R411); or, where the function gets no
DMA, the reply waits, last in its queue (R400). -/
def Answered (r : Fn) (b : List Byte) (st steps : Nat) (res : List Byte) (s t : State) : Prop :=
  if (s.pfn r).bme = true then
    Out.dma r (s.replyAddr r) (s.replyBytes r b st steps res) ∈ t.out.drop s.out.length ∧
      t.get (ringFld r F.RPL_PROD_PROD) = (s.get (ringFld r F.RPL_PROD_PROD) + 1) % 2 ^ 32 ∧ t.cmd.late = s.cmd.late
  else
    t.cmd.late = s.cmd.late ++ [⟨r, b, st, steps, res⟩] ∧ t.get (ringFld r F.RPL_PROD_PROD) = s.get (ringFld r F.RPL_PROD_PROD)

/-- Between s and t a heartbeat word of which P holds has gone out on the pins (R375). -/
def Beats (s t : State) (P : Nat → Bool) : Prop :=
  ((t.out.drop s.out.length).any fun o => match o with
    | .heartbeat w => P w
    | _ => false) = true

/-- Host command c, for packet b at the head of ring r, completes with the final status st and the result bytes: it is answered and
leaves the ring, P holds of the next state, and all else is as it was but for the parts and registers given, the outputs and logging. -/
def Answers (c : Instr) (s : State) (r : Fn) (b : List Byte) (st : Nat) (res : List Byte) (ps : List Part) (rs : List Nat)
    (P : State → Prop) : Prop :=
  ∃ t, exec c s = .next t ∧ Answered r b st 0 res s t ∧ t.cmd = { (s.popHead r).cmd with late := t.cmd.late } ∧ P t ∧
    Frame (.cmd :: .out :: ps) (regsIn (ringReg r R.RPL_PROD :: rs)) s t

/-! ### Commits and steps (R410, R412, R417) -/

/-- Table y is x with its dirty items copied into the pending copy, and none dirty any more; what is in effect stays. -/
def Tbl.Copied {α : Type} (x y : Tbl α) : Prop :=
  y.eff = x.eff ∧ y.due = x.due ∧ y.dirty = [] ∧ y.shadow.map Prod.fst = x.shadow.map Prod.fst ∧
    ∀ i ∈ x.dirty, mget y.pend i = some (mget x.shadow i)

/-- Table y is x with nothing pending. -/
def Tbl.Dropped {α : Type} (x y : Tbl α) : Prop := y = { x with pend := [] }

/-- What a step answers a command of which n steps are complete: status, STEPS and RESULT. -/
def StepRes.answer (n : Nat) : StepRes → Nat × Nat × List Byte
  | .final st res _ => (st, stepsDone n st, res)
  | .more _ _ => (St.stepping, n + 1, [])

/-- The state a step leaves. -/
def StepRes.after : StepRes → State
  | .final _ _ s => s
  | .more _ s => s

/-- The progress of a command that goes on. -/
def StepRes.goesOn : StepRes → Option (List Nat)
  | .final _ _ _ => none
  | .more p _ => some p

/-- The command of ring r whose step COMMAND_STEP takes: the next of the pass, where no head with an undefined opcode comes first. -/
def State.due (s : State) (r : Fn) : Option Fly :=
  if (s.badHead r).isSome then none else ((s.passNow r).passLeft.head?).filter fun f => decide (f.fn = r)

/-- The state in which the command f takes its step: it is out of the list of those in flight, and of the pass. -/
def State.stepOf (s : State) (r : Fn) (f : Fly) : State :=
  let p := s.passNow r
  { p with cmd := { p.cmd with fly := p.cmd.fly.erase f, todo := p.cmd.todo.erase (pkSeq f.bytes) } }

/-! ### Resets (R19, R457, R479, R496) -/

/-- t is what a SYS reset, or a POR, leaves of s, but for the boot state and the registers `ex`: every part is as after reset but for what
stays (the always-on domain, battery-backed memory, flash, pin levels; over a SYS reset the POR domain), each register that the reset
reaches has its reset value, and each other is as it was. -/
def ResetOf (por : Bool) (ex : List Nat) (s t : State) : Prop :=
  let z := State.reset
  let n := s.tim.now
  t.latch = z.latch ∧ t.held = z.held ∧ t.out = s.out ∧ t.sett = z.sett ∧ t.ing = z.ing ∧ t.aln = z.aln ∧ t.sched = z.sched ∧ t.cmd = z.cmd ∧
  t.mac = { z.mac with supAt := n, pollAt := n } ∧ t.pmu = z.pmu ∧ t.ang = z.ang ∧ t.isl = z.isl ∧ t.osc = z.osc ∧ t.outp = z.outp ∧
  t.dbg = z.dbg ∧ t.irq.quiet = z.irq.quiet ∧ t.alm = { z.alm with inh := s.alm.inh } ∧
  t.tim = { z.tim with
    now := n, base := n, servoFrom := n, holdAt := n, uncAt := n, rtcBase := s.tim.rtcBase, rtcFrom := s.tim.rtcFrom } ∧
  t.evr = { z.evr with mirror := s.evr.mirror, backlog := t.evr.backlog } ∧
  t.keys = { s.keys with slots := [], kprv := if por then none else s.keys.kprv, missLog := [] } ∧
  t.ecc = { z.ecc with flashMap := s.ecc.flashMap, lapStart := n, visitAt := n } ∧
  t.cas = { z.cas with fireHighAt := s.cas.fireHighAt, armOther := s.cas.armOther } ∧
  t.twn = { z.twn with hbNext := n + 491520, witAt := n, syncAt := n } ∧ t.flt = { z.flt with lastSettle := n } ∧
  t.nrg = { z.nrg with slots := s.nrg.slots, flash := s.nrg.flash, flashAt := s.nrg.flashAt } ∧ t.trg = { z.trg with trigi := s.trg.trigi } ∧
  t.get F.PWR_STAT_PFW = 0 ∧ t.get F.PWR_STAT_QUIESCE = 0 ∧ t.get F.PWR_STAT_HOLD_EXIT = 0 ∧
  t.flag F.PWR_STAT_PFWN_LVL = (por || s.flag F.PWR_STAT_PFWN_LVL) ∧
  t.flag F.TIM_STAT_REF_LOST = (!por && s.flag F.TIM_PLL_STAT_REF_LOST) ∧ t.get F.EVR_MIRROR_VALID = s.evr.mirror.length % 128 ∧
  ∀ a, logReg a = false → a ∉ R.PWR_STAT :: R.KEY_STAT :: R.EVR_MIRROR :: R.TIM_STAT :: ex →
    (keptReg por a = false → t.rd a = z.rd a) ∧ (keptReg por a = true → mcanon 0 s.regs = true → t.rd a = s.rd a)

/-- The boot state that a SYS reset of cause bits b leaves: causes gather from a reset that has not been followed by a start yet. -/
def State.bootAfter (s : State) (b : Nat) : Boot :=
  let pfw := if s.flag F.PWR_STAT_PFW then 64 else 0
  let x : Boot := { s.boot.wiped s.boot.por with retain := none, holdIrq := [] }
  if s.boot.phase = .reset then { x with came := s.boot.came, cause := Nat.lor s.boot.cause (Nat.lor b pfw) }
  else { x with came := 0, cause := Nat.lor b pfw }

/-! ### Invariants -/

/-- The alarm port, the pins and the unit's health follow their causes (R170 to R173, R383). -/
structure PinsFollow (t : State) : Prop where
  word0 : t.alm.word0 = t.aspWord0
  groups : t.alm.groups = t.almGroups
  raw : t.alm.raw = (List.range 8).filter t.almRaw
  pins : ∀ n, n < 8 → bit (t.get F.ANG_ALMSTAT_OUT) n = (t.almActive n && !t.pinsHeld)
  faults : t.twin = true → t.get F.TWN_FAULT_FAULT = t.twnFaults
  healthy : t.twin = true → t.flag F.TWN_STAT_HEALTHY = (Nat.land t.twnFaults (t.get F.TWN_FAULTMASK_MASK) == 0)

/-- The register store is in its canonical form: offsets strictly rising, none listed with the value that an unlisted one reads as. -/
def RegsCanon (s : State) : Prop := mcanon 0 s.regs = true

/-- The debug port's unlock state is a legal one (R502 to R504): LEVEL 0 to 2, also of an open challenge, FAILS at most 3, LOCKOUT exactly
after the third failure. -/
def DbgLegal (s : State) : Prop :=
  s.dbg.level ≤ 2 ∧ (∀ c, s.dbg.chal = some c → c.level ≤ 2) ∧ s.dbg.fails ≤ 3 ∧ (s.dbg.lockout = true ↔ s.dbg.fails = 3)

end Sys2Proof.Machine
end

