-- ==== Sys2Proof/Certificates/Slice0/Obligations.lean ====
section
/-!
DEFINITION. Sys2Proof/Certificates/Slice0/Obligations.lean: the statements for the provers, chapter by chapter of the spec.
-/
section
open Sys2Proof Sys2Proof.Machine

/-- EV_TIM_REF_LOST after lock sets REF_LOST in TIM_STAT and TIM_PLL_STAT, clears LOCK, advances UNLOCK_CNT unless it is full, sets HOLD (with
HOLD_HW where HOLD was 0) and raises source 15. EV_TIM_REF_RESTORED clears REF_LOST in both and sets LOCK, and TIM_CTRL stays. Nothing else
changes but what logging changes. TIM_SERVO_WRITE stores the value, arms the timeout and restarts its count. SERVO_TIMEOUT, armed with a
source active, TMO not 0 and HOLD 0, sets HOLD and HOLD_HW no earlier than TMO ms after the last write. HOLD_WRITE of 1 sets HOLD; of 0 with
a reference clears HOLD, HOLD_HW and EXPIRED, and with REF_LOST it stays. TIME_SOURCE_LOST with no good backup (none good, no code 1 to 3,
or the lost one itself) sets HOLD; with one it makes it the active source, of the time base only the PPS_OUT level can follow. In holdover U
is recomputed each millisecond. (R46, R58, R66, R67, R69) -/
def Obligations.HoldoverFollowsTheReferenceHoldAndTheServo : Prop :=
  (∀ s : State, s.flag F.TIM_PLL_STAT_LOCK = true → s.flag F.TIM_STAT_REF_LOST = false →
    Does .evTimRefLost s [.tim] (regsIn [R.TIM_STAT, R.TIM_PLL_STAT, R.TIM_CTRL, R.TIM_UNC]) fun t =>
      t.flag F.TIM_STAT_REF_LOST = true ∧ t.flag F.TIM_PLL_STAT_REF_LOST = true ∧ t.flag F.TIM_PLL_STAT_LOCK = false ∧
        t.get F.TIM_PLL_STAT_UNLOCK_CNT = satInc (s.get F.TIM_PLL_STAT_UNLOCK_CNT) 65535 ∧ t.flag F.TIM_CTRL_HOLD = true ∧
        (s.flag F.TIM_CTRL_HOLD = false → t.flag F.TIM_STAT_HOLD_HW = true ∧ t.pends 9) ∧ t.pends 15) ∧
  (∀ s : State, s.flag F.TIM_STAT_REF_LOST = true →
    Does .evTimRefRestored s [] (regsIn [R.TIM_STAT, R.TIM_PLL_STAT]) fun t =>
      t.flag F.TIM_STAT_REF_LOST = false ∧ t.flag F.TIM_PLL_STAT_REF_LOST = false ∧ t.flag F.TIM_PLL_STAT_LOCK = true ∧ t.pends 15) ∧
  (∀ (s : State) (a : Agent) (v : Dword), s.mayWrite a R.TIM_SERVO →
    Does (.timServoWrite a v) s [.tim] (regsIn [R.TIM_SERVO, R.TIM_STAT, R.TIM_UNC]) fun t =>
      t.tim.servoAt = some s.tim.now ∧ t.tim.servoFrom = s.tim.now ∧ t.get F.TIM_SERVO_UNC = fval F.TIM_SERVO_UNC v ∧
        t.flag F.TIM_STAT_LOCKED = (t.flag F.TIM_SERVO_LOCK && !s.flag F.TIM_CTRL_HOLD)) ∧
  (∀ s : State, s.tim.servoAt.isSome = true → s.actSrc ≠ 0 → s.get F.TIM_SERVO_TMO_TMO ≠ 0 → s.flag F.TIM_CTRL_HOLD = false →
    Does .servoTimeout s [.tim] (regsIn [R.TIM_STAT, R.TIM_CTRL, R.TIM_UNC]) fun t =>
      t.flag F.TIM_CTRL_HOLD = true ∧ t.flag F.TIM_STAT_HOLD_HW = true ∧
        t.tim.now = max s.tim.now (s.tim.servoFrom + ticksOfMs (s.get F.TIM_SERVO_TMO_TMO)) ∧ t.pends 9) ∧
  (∀ (s : State) (a : Agent) (v : Dword), s.mayWrite a R.TIM_CTRL →
    (bit v.toNat 0 = true → Does (.holdWrite a v) s [.tim] (regsIn [R.TIM_STAT, R.TIM_CTRL, R.TIM_UNC]) fun t =>
      t.flag F.TIM_CTRL_HOLD = true) ∧
    (bit v.toNat 0 = false → s.flag F.TIM_CTRL_HOLD = true → s.flag F.TIM_STAT_REF_LOST = false →
      Does (.holdWrite a v) s [.tim] (regsIn [R.TIM_STAT, R.TIM_CTRL, R.TIM_UNC]) fun t =>
        t.flag F.TIM_CTRL_HOLD = false ∧ t.flag F.TIM_STAT_HOLD_HW = false ∧ t.flag F.TIM_STAT_EXPIRED = false ∧ t.pends 9) ∧
    (bit v.toNat 0 = false → s.flag F.TIM_CTRL_HOLD = true → s.flag F.TIM_STAT_REF_LOST = true →
      Does (.holdWrite a v) s [] (regsIn [R.TIM_CTRL]) fun t => t.flag F.TIM_CTRL_HOLD = true)) ∧
  (∀ (s : State) (good : Bool), s.actSrc ≠ 0 →
    (good = false ∨ s.get F.TIM_SRC_BAK = 0 ∨ 4 ≤ s.get F.TIM_SRC_BAK ∨ s.get F.TIM_SRC_ACT = s.get F.TIM_SRC_BAK →
      Does (.timeSourceLost good) s [.tim] (regsIn [R.TIM_STAT, R.TIM_CTRL, R.TIM_UNC]) fun t => t.flag F.TIM_CTRL_HOLD = true) ∧
    (good = true → 0 < s.get F.TIM_SRC_BAK → s.get F.TIM_SRC_BAK < 4 → s.get F.TIM_SRC_ACT ≠ s.get F.TIM_SRC_BAK →
      Does (.timeSourceLost good) s [.tim] (regsIn [R.TIM_SRC]) fun t => t.get F.TIM_SRC_ACT = s.get F.TIM_SRC_BAK ∧
        t.tim = { s.tim with ppsHigh := t.tim.ppsHigh })) ∧
  (∀ s : State, s.flag F.TIM_CTRL_HOLD = true → s.tim.servoAt.isSome = true → s.tim.uncAt = s.tim.holdAt →
    s.tim.now < s.tim.holdAt + ticksOfMs 1 →
    Does .holdoverUncUpdate s [.tim] (regsIn [R.TIM_STAT, R.TIM_UNC]) fun t =>
      t.tim.now = s.tim.holdAt + ticksOfMs 1 ∧ t.tim.uncAt = s.tim.holdAt + ticksOfMs 1 ∧ t.get F.TIM_UNC_U = t.uncNow)

/-- TIM_STEP_REQUEST within TIM_STEPLIM adds the signed step in units of 2^-16 ns to local time at the next tick and clears STEP_HELD and
TIM_STEPREQ; a larger one is held in TIM_STEPREQ with STEP_HELD set. Each raises source 8. TIME_STEP_FORCE with MODE 0 applies the step held
in TIM_STEPREQ, with MODE 1 the STEP of its packet; the signed step in units of 2^-16 ns is added to local time at the next tick, STEP_HELD
and TIM_STEPREQ are cleared, and RESULT carries the step. With MODE 0 and none held it ends with ST_STATE and changes nothing. (R50, R51,
R52) -/
def Obligations.StepsTakeEffectAtTheNextTick : Prop :=
  (∀ (s : State) (a : Agent) (v : Dword), s.mayWrite a R.TIM_STEP_HI →
    let x := s.pair a R.TIM_STEP_LO v
    ((sext 64 x).natAbs ≤ s.get F.TIM_STEPLIM_LIMIT * 65536 →
      Does (.timStepRequest a v) s [.tim, .held] (regsIn [R.TIM_STAT, R.TIM_STEPREQ_LO, R.TIM_STEPREQ_HI]) fun t =>
        t.tim.now = s.tim.now + 1 ∧ t.tim.anchor = (s.tim.anchor.map fun p => (wrapInt 128 ((p.1 : Int) + sext 64 x * 2 ^ 24), p.2)) ∧
          t.flag F.TIM_STAT_STEP_HELD = false ∧ t.get64 R.TIM_STEPREQ_LO R.TIM_STEPREQ_HI = 0 ∧ t.pends 8) ∧
    (s.get F.TIM_STEPLIM_LIMIT * 65536 < (sext 64 x).natAbs →
      Does (.timStepRequest a v) s [.held] (regsIn [R.TIM_STAT, R.TIM_STEPREQ_LO, R.TIM_STEPREQ_HI]) fun t =>
        t.get64 R.TIM_STEPREQ_LO R.TIM_STEPREQ_HI = x ∧ t.flag F.TIM_STAT_STEP_HELD = true ∧ t.pends 8)) ∧
  (∀ (s : State) (r : Fn) (b : List Byte), Starts s r 0x60 24 false b → zeroAt b 9 7 = true →
     (∀ x, (le b 8 1 = 0 ∧ s.flag F.TIM_STAT_STEP_HELD = true ∧ x = s.get64 R.TIM_STEPREQ_LO R.TIM_STEPREQ_HI) ∨
         (le b 8 1 = 1 ∧ le b 16 8 ≠ 0 ∧ x = le b 16 8) →
       Answers (.timeStepForce r) s r b St.ok (toLe 8 x) [.tim] [R.TIM_STAT, R.TIM_STEPREQ_LO, R.TIM_STEPREQ_HI] fun t =>
         t.tim.now = s.tim.now + 1 ∧ t.tim.anchor = (s.tim.anchor.map fun p => (wrapInt 128 ((p.1 : Int) + sext 64 x * 2 ^ 24), p.2)) ∧
           t.flag F.TIM_STAT_STEP_HELD = false ∧ t.get64 R.TIM_STEPREQ_LO R.TIM_STEPREQ_HI = 0 ∧ t.pends 8) ∧
     (le b 8 1 = 0 → s.flag F.TIM_STAT_STEP_HELD = false → Answers (.timeStepForce r) s r b St.state [] [] [] fun _ => True))

/-- TSQ_ENTRY_READ by a control core answers the head's E0, removes the head, and latches the other three dwords of the entry for that core;
COUNT follows. PF0's answers the head's E0, latches the other three for PF0 and leaves the queue. Of an empty queue all four dwords, VALID
among them, read zero. PF1, which the registers are not shown to, reads zero. No other latch changes. (R65) -/
def Obligations.TimestampQueueReadPopsForACoreAndPeeksForPF0 : Prop :=
  ∀ (s : State) (a : Agent) (p : Fin 5),
    let E (n : Nat) : Nat := latchKey a (R.TIM_TSQ_E0_P + 0x40 * p + 4 * n)
    let rest (t : State) : Prop := ∀ k, k ≠ E 1 → k ≠ E 2 → k ≠ E 3 → mget t.latch k = mget s.latch k
    (∀ (e : TsqEntry) (l : List TsqEntry), s.tsq p = e :: l → a = .c0 ∨ a = .c1 →
      Does (.tsqEntryRead a p) s [.out, .tim, .latch] (regsIn [R.TIM_TSQ_STAT_P + 0x40 * p]) fun t =>
        t.out = s.out ++ [Out.answer a (toLe 4 (e.time / 2 ^ 40 % 1000000000)) false] ∧ t.tsq p = l ∧ (∀ q, q ≠ p.val → t.tsq q = s.tsq q) ∧
          t.get (F.TIM_TSQ_STAT_P_COUNT.at (0x40 * p)) = l.length % 128 ∧ rest t ∧
          mget t.latch (E 1) = some (BitVec.ofNat 32 (e.time / 2 ^ 40 / 1000000000)) ∧
          mget t.latch (E 2) = some (BitVec.ofNat 32 (e.time / 2 ^ 24 % 65536 * 65536 + e.time / 2 ^ 40 / 1000000000 / 2 ^ 32 % 65536)) ∧
          mget t.latch (E 3) = some (BitVec.ofNat 32 (2 ^ 31 + b2n e.tx * 2 ^ 30 + e.msgType % 16 * 2 ^ 24 + e.domain % 256 * 2 ^ 16 +
            e.seqId % 65536))) ∧
    (∀ (e : TsqEntry) (l : List TsqEntry), s.tsq p = e :: l → a = .pf0 → Does (.tsqEntryRead a p) s [.out, .latch] noRegs fun t =>
      t.out = s.out ++ [Out.answer a (toLe 4 (e.time / 2 ^ 40 % 1000000000)) false] ∧ rest t ∧
        mget t.latch (E 1) = some (BitVec.ofNat 32 (e.time / 2 ^ 40 / 1000000000)) ∧
        mget t.latch (E 2) = some (BitVec.ofNat 32 (e.time / 2 ^ 24 % 65536 * 65536 + e.time / 2 ^ 40 / 1000000000 / 2 ^ 32 % 65536)) ∧
        mget t.latch (E 3) = some (BitVec.ofNat 32 (2 ^ 31 + b2n e.tx * 2 ^ 30 + e.msgType % 16 * 2 ^ 24 + e.domain % 256 * 2 ^ 16 +
          e.seqId % 65536))) ∧
    (s.tsq p = [] → a = .c0 ∨ a = .c1 ∨ a = .pf0 →
      Does (.tsqEntryRead a p) s [.out, .tim, .latch] (regsIn [R.TIM_TSQ_STAT_P + 0x40 * p]) fun t =>
        t.out = s.out ++ [Out.answer a (zeros 4) false] ∧ (∀ q, t.tsq q = s.tsq q) ∧ rest t ∧
          ∀ n, 1 ≤ n → n ≤ 3 → mget t.latch (E n) = some 0) ∧
    (a = .pf1 → Does (.tsqEntryRead a p) s [.out] noRegs fun t => t.out = s.out ++ [Out.answer a (zeros 4) false])

/-- After reset TIM_INCR is 0x208_D555_5555. TIM_INCR_WRITE, the HI dword with the LO dword the agent holds, makes a value in the range the
increment, in effect from the next tick on, local time re-anchored there with the old one; any other value changes nothing but logs
EV_TIM_INCR_RANGE. The agent's held dword is used up in both cases. (R48) -/
def Obligations.TheIncrementIsAcceptedOnlyInItsRange : Prop :=
  State.reset.incr = 2236962133333 ∧
  ∀ (s : State) (a : Agent) (v : Dword), s.mayWrite a R.TIM_INCR_HI →
    let x := s.pair a R.TIM_INCR_LO (BitVec.ofNat 32 (bits v.toNat 11 0))
    (2235843652266 ≤ x → x ≤ 2238080614400 →
      Does (.timIncrWrite a v) s [.tim, .held] (regsIn [R.TIM_INCR_LO, R.TIM_INCR_HI]) fun t =>
        t.incr = x ∧ t.tim.now = s.tim.now + 1 ∧ t.tim.anchor = (s.tim.anchor.map fun _ => (s.t40At (s.tim.now + 1), s.tim.now + 1)) ∧
          t.heldOf a R.TIM_INCR_LO = none) ∧
    (x < 2235843652266 ∨ 2238080614400 < x → Leads (.timIncrWrite a v) s [.held] noRegs fun u =>
      u.incr = s.incr ∧ u.evr.backlog = s.evr.backlog ++ [⟨Ev.TIM_INCR_RANGE, 0, []⟩] ∧ u.heldOf a R.TIM_INCR_LO = none)

/-- A PPS_IN edge of the selected direction and of at least 100 ns puts local time into TIM_PPSIN_TS, counts, clears PPSIN_MISSING and raises
source 11; 1.1 s after the last one PPSIN_MISSING is set. A good IRIG-B frame counts in GOOD, sets IRIG_VALID and raises source 12, its 89
data elements going to TIM_IRIG_DATA and its on-time edge to TIM_IRIG_TS: under source code 2 the PPS_IN capture within 1 ms of the edge,
else local time at the edge (with code 2 and no such capture the time is open); a bad one counts in ERR; 1.1 s after the last good one
IRIG_VALID is cleared. The offset the firmware reads from the source goes to TIM_UTCOFF. PPS_OUT_RISE, with local time seeded and WIDTH not
0, comes when local time reaches a coming second boundary less OFS, at once or later, and makes the output high, with its fall WIDTH
microseconds later, unless SQUELCH is set and the time-quality code is F; PPS_OUT_FALL makes it low at that time. (R60, R61, R62) -/
def Obligations.PulsesAndIrigFrames : Prop :=
  let time (t : State) (a x : Nat) : Prop :=
    t.rd a = BitVec.ofNat 32 (x / 2 ^ 40 % 1000000000 % 65536 * 65536 + x / 2 ^ 24 % 65536) ∧
    t.rd (a + 4) = BitVec.ofNat 32 (x / 2 ^ 40 / 1000000000 % 65536 * 65536 + x / 2 ^ 40 % 1000000000 / 65536) ∧
    t.rd (a + 8) = BitVec.ofNat 32 (x / 2 ^ 40 / 1000000000 / 65536)
  (∀ (s : State) (rising : Bool) (w : Nat), s.flag F.TIM_CTRL_PPSIN_EN = true → s.flag F.TIM_CTRL_PPSIN_EDGE = !rising → 100 ≤ w →
    Does (.ppsInEdge rising w) s [.tim] (regsIn [R.TIM_PPSIN_TS_LO, R.TIM_PPSIN_TS_LO + 4, R.TIM_PPSIN_TS_LO + 8, R.TIM_PPSIN_CNT, R.TIM_STAT])
      fun t => t.get F.TIM_PPSIN_CNT_EDGES = (s.get F.TIM_PPSIN_CNT_EDGES + 1) % 2 ^ 32 ∧ t.flag F.TIM_STAT_PPSIN_MISSING = false ∧
        t.tim = { s.tim with ppsHist := ((s.tim.now, s.t40) :: s.tim.ppsHist).take 2 } ∧ time t R.TIM_PPSIN_TS_LO s.t40 ∧ t.pends 11) ∧
  (∀ (s : State) (e : Nat × Nat) (l : List (Nat × Nat)), s.tim.ppsHist = e :: l → s.flag F.TIM_CTRL_PPSIN_EN = true →
    s.flag F.TIM_STAT_PPSIN_MISSING = false → Does .evTimPpsinMissing s [.tim] (regsIn [R.TIM_STAT]) fun t =>
      t.tim = { s.tim with now := max s.tim.now (e.1 + ticksOfMs 1100) } ∧ t.flag F.TIM_STAT_PPSIN_MISSING = true ∧ t.pends 11) ∧
  (∀ (s : State) (us : List Nat) (ago : Nat) (ofs : Option Nat), s.flag F.TIM_CTRL_IRIG_EN = true →
    (irigGood us = true → Does (.irigFrameRx us ago ofs) s [.tim] (regsIn [R.TIM_IRIG_DATA_LO, R.TIM_IRIG_DATA_MID, R.TIM_IRIG_DATA_HI,
        R.TIM_IRIG_TS_LO, R.TIM_IRIG_TS_LO + 4, R.TIM_IRIG_TS_LO + 8, R.TIM_IRIG_STAT, R.TIM_STAT, R.TIM_UTCOFF]) fun t =>
      t.get F.TIM_IRIG_STAT_GOOD = (s.get F.TIM_IRIG_STAT_GOOD + 1) % 65536 ∧ t.flag F.TIM_STAT_IRIG_VALID = true ∧
        t.tim = { s.tim with irigAt := some s.tim.now } ∧ t.pends 12 ∧
        t.rd R.TIM_IRIG_DATA_LO = BitVec.ofNat 32 (irigData us) ∧ t.rd R.TIM_IRIG_DATA_MID = BitVec.ofNat 32 (irigData us / 2 ^ 32) ∧
        t.rd R.TIM_IRIG_DATA_HI = BitVec.ofNat 32 (irigData us / 2 ^ 64) ∧
        t.get F.TIM_UTCOFF_OFFSET = (ofs.map fun x => x % 65536).getD (s.get F.TIM_UTCOFF_OFFSET) ∧
        (s.actSrc ≠ 2 → time t R.TIM_IRIG_TS_LO (s.t40At (s.now - ago))) ∧
        (∀ x, s.actSrc = 2 → (s.tim.ppsHist.find? fun x => decide (x.1 ≤ s.now - ago + ticksOfMs 1) &&
          decide (s.now - ago ≤ x.1 + ticksOfMs 1)) = some x → time t R.TIM_IRIG_TS_LO x.2)) ∧
    (irigGood us = false → Does (.irigFrameRx us ago ofs) s [] (regsIn [R.TIM_IRIG_STAT]) fun t =>
      t.get F.TIM_IRIG_STAT_ERR = (s.get F.TIM_IRIG_STAT_ERR + 1) % 65536 ∧ t.pends 12)) ∧
  (∀ (s : State) (n : Nat) (ofs : Option Nat), s.tim.irigAt = some n → s.flag F.TIM_STAT_IRIG_VALID = true →
    Does (.irigValidExpiry ofs) s [.tim] (regsIn [R.TIM_STAT, R.TIM_UTCOFF]) fun t =>
      t.tim = { s.tim with now := max s.tim.now (n + ticksOfMs 1100) } ∧ t.flag F.TIM_STAT_IRIG_VALID = false ∧
        t.get F.TIM_UTCOFF_OFFSET = (ofs.map fun x => x % 65536).getD (s.get F.TIM_UTCOFF_OFFSET)) ∧
  (∀ s : State, s.tim.anchor.isSome = true → s.get F.TIM_PPSOUT_WIDTH ≠ 0 →
    Does .ppsOutRise s [.tim] noRegs fun t =>
      t.tim.anchor = s.tim.anchor ∧
      (∃ sec, t.tim.ppsNext = sec + 1 ∧ (s.taiNs : Int) + s.ppsOfs ≤ (sec : Int) * 1000000000 ∧
        t.tim.now = s.tickAtTai ((sec : Int) * 1000000000 - s.ppsOfs).toNat) ∧
      (t.tim.ppsHigh = if s.flag F.TIM_PPSOUT_SQUELCH && t.tqCode == 0xF then s.tim.ppsHigh else true) ∧
      ((s.flag F.TIM_PPSOUT_SQUELCH && t.tqCode == 0xF) = false →
        t.tim.ppsFallAt = t.tim.now + ticksOfUs (s.get F.TIM_PPSOUT_WIDTH))) ∧
  (∀ s : State, s.tim.ppsHigh = true → Does .ppsOutFall s [.tim] noRegs fun t =>
      t.tim = { s.tim with ppsHigh := false, now := max s.tim.now s.tim.ppsFallAt })

/-- PTP_CFG with values in range waits as the next settings and is answered ST_OK, and the firmware's multicast filters follow (log entry 25);
with a value out of range it is answered ST_BAD_PARAM and changes nothing. A Pdelay_Req leaves from a port with PTP on under the latest
settings as one frame of class 7, counted, and its egress stamp joins the port's timestamp queue; of a full queue the stamp is dropped and
counted. A Pdelay_Resp answers the Pdelay_Req of its number that waits in the firmware queue, taken with a VLAN tag only where FLAGS[0] says
so, and takes it off: in two-step mode its frame bears the request's ingress stamp and its own egress stamp joins the queue, in one-step
mode correctionField bears the turnaround and nothing is queued. A Pdelay_Resp_Follow_Up takes the response's stamp, and those before it,
off the queue and bears it. A message the port refuses is counted there and is not sent. That a message leaves in the same step, and its
layout, are the model's choices (log entries 17, 18). (R59, R63, R64) -/
def Obligations.PeerDelayMessagesLeaveWithTheirStamps : Prop :=
  let sent (t s : State) (p : Nat) (f : TxFrame) : Prop := t.out = s.out ++ [Out.frame p 7 f.bytes] ∧
    t.get (macCnt p 14) = (s.get (macCnt p 14) + 1) % 2 ^ 32
  let refused (t s : State) (p : Nat) : Prop := t.out = s.out ∧ t.get (macCnt p 15) = (s.get (macCnt p 15) + 1) % 2 ^ 32 ∧ t.tsq p = s.tsq p
  let stamp (t s u : State) (p : Nat) (ty q : Nat) : Prop :=
    ((s.tsq p).length < 64 → t.tsq p = s.tsq p ++ [⟨u.egressStamp p (s.tim.now + u.bitTicks p 64), true, ty, (u.tim.ptp.map fun c => c.domain).getD 0, q⟩] ∧
      t.get (F.TIM_TSQ_STAT_P_COUNT.at (0x40 * p)) = (s.tsq p).length + 1) ∧
    (64 ≤ (s.tsq p).length → t.tsq p = s.tsq p ∧ t.flag F.TIM_STAT_TSQ_OVF = true ∧
      t.get (F.TIM_TSQ_STAT_P_OVF_CNT.at (0x40 * p)) = satInc (s.get (F.TIM_TSQ_STAT_P_OVF_CNT.at (0x40 * p))) 65535)
  let regs (p : Nat) : Nat → Bool := regsIn [0x20130 + 0x2000 * p, 0x20134 + 0x2000 * p, 0x20138 + 0x2000 * p, 0x2013C + 0x2000 * p,
    R.TIM_TSQ_STAT_P + 0x40 * p, R.MAC_PRP_SEQ, R.TIM_STAT]
  (∀ (s : State) (r : Fn) (b : List Byte), Starts s r 0x61 16 false b →
    let ok : Prop := le b 8 1 ≤ 31 ∧ (∀ p, p < 5 → bit (le b 8 1) p = true → s.get (pfld F.MAC_CTRL_P_MODE p) ≠ 0) ∧ le b 9 1 ≤ 127 ∧
      le b 10 1 ≤ 31 ∧ -7 ≤ sext 8 (le b 11 1) ∧ sext 8 (le b 11 1) ≤ 4 ∧ le b 12 1 ≠ 0 ∧ le b 13 1 ≤ 1 ∧ bit (le b 14 2) 12 = false
    (ok → ∃ t, exec (.ptpCfg r) s = .next t ∧ Answered r b St.ok 0 [] s t ∧ t.cmd = { (s.popHead r).cmd with late := t.cmd.late } ∧
      t.tim = { s.tim with ptpNext := some ⟨le b 8 1, le b 9 1, le b 10 1, sext 8 (le b 11 1), le b 12 1, le b 13 1, le b 14 2⟩ } ∧
      (s.fwRuns = true → ∀ p, p < 5 → mgetD t.mac.mcf p [] = t.mcMacs p) ∧
      Frame [.cmd, .out, .tim, .mac] (fun a => a == ringReg r R.RPL_PROD || decide (0x20000 ≤ a ∧ a < 0x2A800) || a == R.MAC_PRP_SEQ) s t) ∧
    (¬ ok → Answers (.ptpCfg r) s r b St.badParam [] [] [] fun _ => True)) ∧
  (∀ (s u : State) (p : Fin 5) (seq : Nat) (f : TxFrame), u = s.ptpTake → u.ptpOn p = true → u.fwRuns = true →
    f = u.ptpFrame p 2 (seq % 65536) true (u.ptpMessage p 2 (seq % 65536) 0 0 (zeros 10)) →
    Does (.pdelayReqTx p seq) s [.tim, .out] (regs p) fun t => t.tim.ptp = u.tim.ptp ∧ t.tim.ptpNext = none ∧
      (u.txRefused p f = false → sent t s p f ∧ stamp t s u p 2 (seq % 65536)) ∧ (u.txRefused p f = true → refused t s p)) ∧
  (∀ (s u : State) (p : Fin 5) (seq : Nat) (g : FwFrame) (two : Bool) (f : TxFrame), u = s.ptpTake → u.ptpOn p = true → u.fwRuns = true →
    (s.ing.fwq.find? fun f => f.isPtp u.ptpTags p 2 (seq % 65536)) = some g → two = (u.tim.ptp.map fun c => bit c.twoStep p).getD false →
    f = u.ptpFrame p 3 (seq % 65536) two (u.ptpMessage p 3 (seq % 65536)
      (if two then 0 else (u.egressStamp p (s.now + u.bitTicks p 64) - g.arrival) / 2 ^ 24) (if two then g.arrival else 0)
      (bytesAt g.bytes 34 10)) →
    Does (.pdelayRespTx p seq) s [.tim, .out, .ing] (regs p) fun t => t.tim.ptp = u.tim.ptp ∧ t.tim.ptpNext = none ∧
      t.ing = { s.ing with fwq := s.ing.fwq.erase g } ∧
      (u.txRefused p f = false → sent t s p f ∧ (two = true → stamp t s u p 3 (seq % 65536)) ∧ (two = false → t.tsq p = s.tsq p)) ∧
      (u.txRefused p f = true → refused t s p)) ∧
  (∀ (s : State) (p : Fin 5) (seq : Nat) (e : TsqEntry) (l rest : List TsqEntry) (f : TxFrame), s.ptpOn p = true → s.fwRuns = true →
    s.tsq p = l ++ e :: rest → (∀ x ∈ l, (x.tx && x.msgType == 3 && x.seqId == seq % 65536) = false) →
    (e.tx && e.msgType == 3 && e.seqId == seq % 65536) = true →
    f = s.ptpFrame p 10 (seq % 65536) false (s.ptpMessage p 10 (seq % 65536) 0 e.time
      (toBe 10 (mgetD s.tim.reqId (65536 * p + seq % 65536) 0))) →
    Does (.pdelayRespFollowUpTx p seq) s [.tim, .out] (regs p) fun t =>
      t.tim.ptp = s.tim.ptp ∧ t.tsq p = rest ∧ t.get (F.TIM_TSQ_STAT_P_COUNT.at (0x40 * p)) = rest.length % 128 ∧
      (s.txRefused p f = false → sent t s p f) ∧
      (s.txRefused p f = true → t.out = s.out ∧ t.get (macCnt p 15) = (s.get (macCnt p 15) + 1) % 2 ^ 32))

/-- DATA_FRAME_INGEST takes the oldest datagram. With ingest disabled it counts in DISABLED, with a bad IP or UDP header in IPHDR, with a bad
session in SESSION, with a bad C37.118 header in MALFORMED, with a bad CHK in CRC (the last three for every entry its key matches at its
arrival too); a frame of another type goes to the firmware's queue and counts in TOFW; one that no entry matches counts in UNKNOWN. Of a
frame of a listed UDP port without a session that one entry matches, a poisoned entry counts it in POISON, one disabled or added later in
DISABLED, a failed authentication in AUTH or REPLAY, a fraction at or past the time base in MALFORMED, another length, or a LEARN entry
without a format, in FORMAT, a tag past the horizon in FUTURE, the slot window in STALE or DUP, want of a page in NOSPACE: that counter and
the stream's own move and no other stream's state. One that passes every step counts in ACCEPT, and where its record belongs to an open
instant with room it is put there and moves the stream's window. (R80, R81, R82, R83, R84, R85, R87, R92, R97, R133) -/
def Obligations.DataFrameStepsDiscardOrCommit : Prop :=
  let one (s : State) (w : Why) (t : State) : Prop := t.get w.cnt = (s.get w.cnt + 1) % 2 ^ 32
  let each (s : State) (w : Why) (l : List Nat) (t : State) : Prop := ∀ j, (j ∈ l → ∀ i, w.idx = some i →
      (t.stat j).cnt = (s.stat j).cnt.set i (((s.stat j).cnt[i]?).getD 0 + 1)) ∧ (j ∉ l → t.stat j = s.stat j)
  (∀ (s : State) (d : RxDatagram) (rest : List RxDatagram), s.ing.rxq = d :: rest →
    (s.flag F.ING_CTRL_EN = false → Does .dataFrameIngest s [.ing] (regsIn [R.ING_CNT_DISABLED]) fun t =>
      t.ing = { s.ing with rxq := rest } ∧ one s .disabled t) ∧
    (s.flag F.ING_CTRL_EN = true → ipOk d.packet = false → Does .dataFrameIngest s [.ing] (regsIn [R.ING_CNT_IPHDR]) fun t =>
      t.ing = { s.ing with rxq := rest } ∧ one s .iphdr t) ∧
    (s.flag F.ING_CTRL_EN = true → ipOk d.packet = true → s.udpListed (udpDport d.packet) = some true →
      sessOk (udpData d.packet) = false ∨ (s.sessAuth (udpData d.packet) (((s.lookupNow (d.arrival / 2 ^ 40) (ipSrc d.packet)
        (udpDport d.packet) (be (udpData d.packet) 4 2)).head?).getD 0)).1 = none →
      Does .dataFrameIngest s [.ing] (regsIn [R.ING_CNT_SESSION]) fun t => t.ing.rxq = rest ∧ t.ing.streams = s.ing.streams ∧ one s .session t ∧
        each s .session (s.lookupNow (d.arrival / 2 ^ 40) (ipSrc d.packet) (udpDport d.packet) (be (udpData d.packet) 4 2)) t)) ∧
  (∀ (s u : State) (d : RxDatagram) (rest : List RxDatagram) (f : List Byte), s.ing.rxq = d :: rest →
    u = { s with ing := { s.ing with rxq := rest } } → f = udpData d.packet → s.flag F.ING_CTRL_EN = true → ipOk d.packet = true →
    s.udpListed (udpDport d.packet) ≠ some true →
    let ms := s.lookupNow (d.arrival / 2 ^ 40) (ipSrc d.packet) (udpDport d.packet) (be f 4 2)
    let m := u.lookup (ipSrc d.packet) (udpDport d.packet) (be f 4 2) (be f 6 4) (be f 11 3)
    (c37Ok f = false → Does .dataFrameIngest s [.ing] (regsIn [R.ING_CNT_MALFORMED]) fun t =>
      t.ing.rxq = rest ∧ t.ing.streams = s.ing.streams ∧ one s .malformed t ∧ each s .malformed ms t) ∧
    (c37Ok f = true → c37Crc f = false → Does .dataFrameIngest s [.ing] (regsIn [R.ING_CNT_CRC]) fun t =>
      t.ing.rxq = rest ∧ t.ing.streams = s.ing.streams ∧ one s .crc t ∧ each s .crc ms t) ∧
    (c37Ok f = true → c37Crc f = true → c37Type f ≠ 0 → (s.ing.fwq.filter fun y => y.port == d.port).length < 64 →
      Does .dataFrameIngest s [.ing] (regsIn [R.ING_CNT_TOFW]) fun t =>
        t.ing = { s.ing with rxq := rest, fwq := s.ing.fwq ++ [⟨d.port, 3, d.arrival, false, sessPacket d.packet f⟩] } ∧
          t.get F.ING_CNT_TOFW_COUNT = (s.get F.ING_CNT_TOFW_COUNT + 1) % 2 ^ 32) ∧
    (c37Ok f = true → c37Crc f = true → c37Type f = 0 → m = [] → Does .dataFrameIngest s [.ing]
      (regsIn [R.ING_CNT_UNKNOWN, R.ING_UNK_A0, R.ING_UNK_A1, R.ING_UNK_A2, R.ING_UNK_A3, R.ING_UNK_KEY]) fun t =>
        t.ing = { s.ing with rxq := rest } ∧ one s .unknown t ∧ (s.flag F.ING_CTRL_UNK_CAP = true →
          t.get F.ING_UNK_KEY_IDCODE = be f 4 2 ∧ t.get F.ING_UNK_KEY_PORT = udpDport d.packet)) ∧
    (∀ (k : Nat) (e : Stream) (sd : Side) (sp : Span), c37Ok f = true → c37Crc f = true → c37Type f = 0 → m = [(k, e, sd, sp)] →
      let pd := decide (sd = .pending)
      let bad (w : Why) : Prop := Does .dataFrameIngest s [.ing] (regsIn [w.cnt.addr]) fun t =>
        t.ing.rxq = rest ∧ t.ing.streams = s.ing.streams ∧ one s w t ∧ (∀ j, j ≠ k → t.stat j = s.stat j) ∧
        ∀ i, w.idx = some i → (t.statIn pd k).cnt = (s.statIn pd k).cnt.set i (((s.statIn pd k).cnt[i]?).getD 0 + 1)
      (s.cramPoisoned 0 k = true → bad .poison) ∧
      (s.cramPoisoned 0 k = false → bit e.flags 0 = false ∨ sd = .early → bad .disabled) ∧
      (∀ (y : Bool ⊕ Why) (x : Nat), s.cramPoisoned 0 k = false → bit e.flags 0 = true → sd ≠ .early →
        authPolicy e (s.statIn pd k) .plain = (y, x) →
        (∀ w, y = .inr w → bad w) ∧
        (∀ (ua : Bool) (v : State) (ns : Nat) (c : Cls), y = .inl ua → v = u.setAuth pd k x → ns = nsOf (be f 11 3) e.timeBase →
          c = v.classify k e.rate sp (be f 6 4, ns) →
          let wait := bit e.flags 2 && !e.learned
          let future := s.get F.ING_CTRL_HORIZON ≠ 0 ∧ s.tqCode ≠ 0xF ∧
            d.arrival / 2 ^ 40 + s.get F.ING_CTRL_HORIZON * 1000000 < s.taiOf (be f 6 4) ns
          let wds := makeRecord e k f (d.arrival / 2 ^ 40) (be f 6 4) ns (le f 10 1) ua
          (wait = false → e.timeBase ≤ be f 11 3 → bad .malformed) ∧
          (wait = true → bad .format) ∧
          (wait = false → be f 11 3 < e.timeBase → f.length ≠ e.frameSize → bad .format) ∧
          (wait = false → be f 11 3 < e.timeBase → f.length = e.frameSize → future → bad .future) ∧
          (wait = false → be f 11 3 < e.timeBase → f.length = e.frameSize → ¬ future → sd = .stale → bad .stale) ∧
          (wait = false → be f 11 3 < e.timeBase → f.length = e.frameSize → ¬ future → sd ≠ .stale →
            (∀ w, (v.statIn pd k).window (slotOf (rateOf e.rate) (be f 6 4) ns) = .fail w → bad w) ∧
            (∀ (newest map : Nat) (re : Bool),
              (v.statIn pd k).window (slotOf (rateOf e.rate) (be f 6 4) ns) = .accept newest map re →
              let placed := (v.place c pd k e.rate (e.phnmr, e.annmr, e.dgnmr) (d.arrival / 2 ^ 40) wds).1
              (placed = false → ∃ t, exec .dataFrameIngest s = .next t ∧ t.ing.rxq = rest ∧ one s .nospace t) ∧
              (placed = true → ∃ t, exec .dataFrameIngest s = .next t ∧ t.ing.rxq = rest ∧
                t.get64 R.ING_CNT_ACCEPT_LO R.ING_CNT_ACCEPT_HI = (s.get64 R.ING_CNT_ACCEPT_LO R.ING_CNT_ACCEPT_HI + 1) % 2 ^ 64) ∧
              (∀ (j : Nat × Nat) (i : Inst) (id : Nat), c = .placed j → v.inst? (v.instTag j) = some i →
                (∀ n, v.aln.next = some n → ukey (v.instTag j) < ukey (v.instTag n)) → i.pages.getLast? = some id →
                mget i.mean k = none → v.fits id wds.length = true →
                Does .dataFrameIngest s [.ing, .aln] (regsIn [R.ING_CNT_ACCEPT_LO, R.ING_CNT_ACCEPT_HI]) fun t =>
                  t.get64 R.ING_CNT_ACCEPT_LO R.ING_CNT_ACCEPT_HI = (s.get64 R.ING_CNT_ACCEPT_LO R.ING_CNT_ACCEPT_HI + 1) % 2 ^ 64 ∧
                  (t.statIn pd k).newest = some newest ∧ (t.statIn pd k).map = map ∧
                  (t.statIn pd k).accepted = (s.statIn pd k).accepted + 1 ∧
                  ∃ y, t.inst? (v.instTag j) = some y ∧ k ∈ y.arrived ∧ y.recs.length = i.recs.length + 1)))))))

/-- INJ_DOORBELL sets PROD where it passes CONS by at most SIZE and is ignored otherwise, with source 23. INJ_ENTRY_FETCH of a ready entry moves
CONS on by one, with source 22 where it was IRQIDX; an entry that is bad or does not come, or whose frame does not come, counts in INJBAD
with source 23; the frame of a good one goes through steps 3 to 13 of a data frame: with ingest disabled it counts in DISABLED, with a bad
header in MALFORMED, with a bad CHK in CRC, one of another type goes to the firmware's queue, and a data frame for whose tag the SIDX has no
entry counts in UNKNOWN, one whose entry takes no injected frames skips the ring's entry as INJBAD, and any other is taken as the matched
block of a data frame is. INJ_FETCH_TIMEOUT counts the entry in INJBAD 1 ms later, at once where the read was poisoned. (R75, R81, R87, R96,
R97) -/
def Obligations.InjectionRingIsConsumedEntryByEntry : Prop :=
  let moves (s t : State) : Prop := t.get F.ING_INJ_CONS_CONS = (s.get F.ING_INJ_CONS_CONS + 1) % 65536 ∧
    (s.get F.ING_INJ_CONS_CONS = s.get F.ING_INJ_IRQIDX_IDX → t.pends 22)
  let bad (s t : State) : Prop := moves s t ∧ t.get F.ING_CNT_INJBAD_COUNT = (s.get F.ING_CNT_INJBAD_COUNT + 1) % 2 ^ 32 ∧ t.pends 23
  (∀ (s : State) (a : Agent) (v : Dword), s.mayWrite a R.ING_INJ_PROD →
    let p := fval F.ING_INJ_PROD_PROD v
    (subMod 16 p (s.get F.ING_INJ_CONS_CONS) ≤ s.get F.ING_INJ_SIZE_SIZE →
      Does (.injDoorbell a v) s [] (regsIn [R.ING_INJ_PROD]) fun t => t.get F.ING_INJ_PROD_PROD = p) ∧
    (s.get F.ING_INJ_SIZE_SIZE < subMod 16 p (s.get F.ING_INJ_CONS_CONS) →
      Does (.injDoorbell a v) s [] noRegs fun t => t.pends 23)) ∧
  (∀ (s : State) (entry frame : HostRead), s.injReady = true →
    (∀ b, entry = .data b → s.injEntryOk b = true → ∀ f, frame ≠ .data f) →
    Does (.injEntryFetch entry frame) s [] (regsIn [R.ING_INJ_CONS, R.ING_CNT_INJBAD]) fun t => bad s t) ∧
  (∀ (s : State) (b g f : List Byte) (at_ : Nat), s.injReady = true → s.injEntryOk b = true → f = padTo (le b 8 2) g →
    at_ = (if bit (le b 10 2) 0 then le b 16 8 else s.taiNs) →
    let mine := if ((s.entryArrived at_ (le b 12 2)).map fun e => bit e.flags 1).getD false then [le b 12 2] else []
    let each (w : Why) (t : State) : Prop := ∀ j, (j ∈ mine → ∀ i, w.idx = some i →
      (t.stat j).cnt = (s.stat j).cnt.set i (((s.stat j).cnt[i]?).getD 0 + 1)) ∧ (j ∉ mine → t.stat j = s.stat j)
    (s.flag F.ING_CTRL_EN = false → Does (.injEntryFetch (.data b) (.data g)) s [] (regsIn [R.ING_INJ_CONS, R.ING_CNT_DISABLED]) fun t =>
      moves s t ∧ t.get F.ING_CNT_DISABLED_COUNT = (s.get F.ING_CNT_DISABLED_COUNT + 1) % 2 ^ 32) ∧
    (s.flag F.ING_CTRL_EN = true → c37Ok f = false →
      Does (.injEntryFetch (.data b) (.data g)) s [.ing] (regsIn [R.ING_INJ_CONS, R.ING_CNT_MALFORMED]) fun t =>
        moves s t ∧ t.get F.ING_CNT_MALFORMED_COUNT = (s.get F.ING_CNT_MALFORMED_COUNT + 1) % 2 ^ 32 ∧ each .malformed t) ∧
    (s.flag F.ING_CTRL_EN = true → c37Ok f = true → c37Crc f = false →
      Does (.injEntryFetch (.data b) (.data g)) s [.ing] (regsIn [R.ING_INJ_CONS, R.ING_CNT_CRC]) fun t =>
        moves s t ∧ t.get F.ING_CNT_CRC_COUNT = (s.get F.ING_CNT_CRC_COUNT + 1) % 2 ^ 32 ∧ each .crc t) ∧
    (s.flag F.ING_CTRL_EN = true → c37Ok f = true → c37Crc f = true → c37Type f ≠ 0 →
      Does (.injEntryFetch (.data b) (.data g)) s [.ing] (regsIn [R.ING_INJ_CONS, R.ING_CNT_TOFW]) fun t =>
        moves s t ∧ t.get F.ING_CNT_TOFW_COUNT = (s.get F.ING_CNT_TOFW_COUNT + 1) % 2 ^ 32 ∧
        t.ing = { s.ing with fwq := if (s.ing.fwq.filter fun y => y.port == 5).length < 64 then
          s.ing.fwq ++ [⟨5, 4, at_ * 2 ^ 40, false, toLe 2 (le b 12 2) ++ f⟩] else s.ing.fwq }) ∧
    (s.flag F.ING_CTRL_EN = true → c37Ok f = true → c37Crc f = true → c37Type f = 0 →
      (s.entryFor Stream.timeBase (le b 12 2) (be f 6 4) (be f 11 3) = none → Does (.injEntryFetch (.data b) (.data g)) s []
        (regsIn [R.ING_INJ_CONS, R.ING_CNT_UNKNOWN, R.ING_UNK_A0, R.ING_UNK_A1, R.ING_UNK_A2, R.ING_UNK_A3, R.ING_UNK_KEY]) fun t =>
          moves s t ∧ t.get F.ING_CNT_UNKNOWN_COUNT = (s.get F.ING_CNT_UNKNOWN_COUNT + 1) % 2 ^ 32) ∧
      (∀ m, s.entryFor Stream.timeBase (le b 12 2) (be f 6 4) (be f 11 3) = some m → bit m.1.flags 1 = false →
        Does (.injEntryFetch (.data b) (.data g)) s [] (regsIn [R.ING_INJ_CONS, R.ING_CNT_INJBAD]) fun t => bad s t) ∧
      (∀ m, s.entryFor Stream.timeBase (le b 12 2) (be f 6 4) (be f 11 3) = some m → bit m.1.flags 1 = true →
        ∃ t, exec (.injEntryFetch (.data b) (.data g)) s = .next t ∧ t = (s.ingestBlock f at_ .plain (le b 12 2, m)).injDone.drain ∧
          t.get F.ING_INJ_CONS_CONS = (s.get F.ING_INJ_CONS_CONS + 1) % 65536))) ∧
  (∀ (s : State) (r : HostRead), s.injReady = true →
    (r ≠ .poison → Does (.injFetchTimeout r) s [.tim] (regsIn [R.ING_INJ_CONS, R.ING_CNT_INJBAD]) fun t =>
      t.tim = { s.tim with now := s.tim.now + ticksOfMs 1 } ∧ bad s t) ∧
    (r = .poison → Does (.injFetchTimeout r) s [] (regsIn [R.ING_INJ_CONS, R.ING_CNT_INJBAD]) fun t => bad s t))

/-- CFG_FRAME_RX takes the oldest configuration frame, of the network or injected, from the firmware's queue; a CFG-2 or CFG-3 frame gives the
LEARN entry it matches a format for the next instant boundary, unless the format is unusable or the host has written that entry since the
last commit; nothing in effect changes. SEND_CFG2_REQUEST for an entry that is due goes not before one second after the last one for it, and
the entry is no longer due: one with a command port and addresses from the network is sent one command frame 5 (from which port and
addresses is open), any other none. ING_HIST_WRITE stores its fields and clears every histogram with its extremes. OLD_ENTRY_EXPIRY removes
the old entry of the SIDX that expires first, not before its time. (R87, R93, R94, R95) -/
def Obligations.FirmwareLearnsFormatsAndOldEntriesExpire : Prop :=
  (∀ (s : State) (x : FwFrame), (s.ing.fwq.find? fun x => (x.kind == 3 && c37Type (udpData x.bytes) != 4) || (x.kind == 4)) = some x →
    s.fwRuns = true →
    let f := if x.kind == 4 then x.bytes.drop 2 else udpData x.bytes
    let ks := if x.kind == 4 then [le x.bytes 0 2] else s.lookupEff (ipSrc x.bytes) (udpDport x.bytes) (be f 4 2)
    Does .cfgFrameRx s [.ing] noRegs fun t => t.ing.fwq = s.ing.fwq.erase x ∧ t.ing.streams = s.ing.streams ∧ t.ing.stat = s.ing.stat ∧
      (∀ k, k ∉ ks → mget t.ing.learnNext k = mget s.ing.learnNext k) ∧
      (∀ (k : Nat) (e y : Stream), ks = [k] → mget s.ing.streams.eff k = some e →
        (c37Type f = 3 ∧ y = learnCfg2 e f) ∨ (c37Type f = 5 ∧ y = learnCfg3 e f) →
        mget t.ing.learnNext k = if bit e.flags 2 && !s.ing.streams.dirty.contains k && y.shapeOk then some y
          else mget s.ing.learnNext k)) ∧
  (∀ (s u : State) (k : Nat) (e : Stream), k ∈ s.ing.cfgDue → s.fwRuns = true → mget s.ing.streams.eff k = some e →
    u = (match mget s.ing.cfgSent k with | some n => s.reach (n + ticksOfS 1) | none => s) →
    let i := { s.ing with cfgDue := sdel s.ing.cfgDue k, cfgSent := mput s.ing.cfgSent k u.tim.now }
    (e.cmdPort ≠ 0 → bit e.flags 1 = false →
      Does (.sendCfg2Request k) s [.ing, .mac, .tim] (fun a => (List.range 5).any (fun p => a == 0x2013C + 0x2000 * p) || a == R.MAC_PRP_SEQ) fun t =>
        t.ing = i ∧ t.tim = u.tim ∧
        let pk := udpPacket (Config.op "cmd.src" [k] % 2 ^ 128) e.addr (Config.op "cmd.sport" [k] % 65536) e.cmdPort (u.cmdFrame e.idcode 5)
        t.mac = (u.send (u.fresh.1 % 5) 0 .port .plain none (Config.op "cmd.mac" [k] % 2 ^ 48) pk.1 pk.2).1.mac) ∧
    (e.cmdPort = 0 ∨ bit e.flags 1 = true → Does (.sendCfg2Request k) s [.ing, .tim] noRegs fun t => t.ing = i ∧ t.tim = u.tim)) ∧
  (∀ (s : State) (a : Agent) (v : Dword), s.mayWrite a R.ING_HIST → Does (.ingHistWrite a v) s [.ing] (regsIn [R.ING_HIST]) fun t =>
      t.get F.ING_HIST_UNIT = fval F.ING_HIST_UNIT v ∧ t.get F.ING_HIST_WINDOW = fval F.ING_HIST_WINDOW v ∧
        t.ing = { s.ing with stat := t.ing.stat } ∧ ∀ k, (mget t.ing.stat k) = (mget s.ing.stat k).map fun x =>
          { x with hist := List.replicate 32 0, latMin := 0x7FFFFFFF, latMax := -0x80000000 }) ∧
  (∀ (s : State) (k : Nat) (o : OldEntry), firstOld (mgetD s.ing.old k []) = some o →
    Does (.oldEntryExpiry k) s [.tim, .ing] noRegs fun t =>
      t.tim = { s.tim with now := max s.tim.now o.untilTick } ∧ mgetD t.ing.old k [] = (mgetD s.ing.old k []).erase o ∧
        (∀ j, j ≠ k → mgetD t.ing.old j [] = mgetD s.ing.old j []) ∧ t.ing = { s.ing with old := t.ing.old })

/-- STREAM_ADD of a good descriptor for an unused index is answered ST_OK and puts it into the shadow; STREAM_MOD changes the masked fields of a
used one; STREAM_CFG_LOAD puts every descriptor of its image in; STREAM_DEL removes the used entries of its range, at most 512 a step, and
is answered ST_STEPPING while more are left. A descriptor field out of range, a used index (ST_STATE), a conflict of keys, a sum of rates
past the budget (ST_NO_RESOURCE), wrong parameters, a commit that prepares (ST_BUSY), and a poisoned or late host read end each with the
status of the first check that fails, STREAM_CFG_LOAD with the index of the descriptor; then nothing changes. A second STREAM_DEL in flight
is answered ST_BUSY. The entries in effect stay. STREAM_STATS writes the 256-byte block to host memory, and with CLEAR zeroes the counters
after; where the block could not be issued, or the function gets no DMA, it is answered ST_TIMEOUT and clears nothing. (R76, R78, R79, R157,
R412, R414, R416, R417, R536) -/
def Obligations.StreamTableCommandsChangeTheShadowOnly : Prop :=
  let fails (c : Instr) (s : State) (r : Fn) (b : List Byte) (st : Nat) (res : List Byte) : Prop := Answers c s r b st res [] [] fun _ => True
  (∀ (s : State) (r : Fn) (b : List Byte) (h : HostRead), Starts s r 0x10 24 false b →
    let tab := s.ing.streams.shadow
    let bad := firstFail [(le b 8 8 % 8 != 0, St.badParam), (le b 16 2 == 0, St.badLength), (!zeroAt b 18 6, St.badParam), (s.cmd.prep.isSome, St.busy)]
    (∀ st, bad = some st → fails (.streamAdd r h) s r b st []) ∧
    (bad = none → fails (.streamAdd r .poison) s r b St.poison [] ∧ fails (.streamAdd r .timeout) s r b St.timeout [] ∧ ∀ buf : List Byte,
      (∀ st, s.descChecks buf (some (le b 16 2)) = some st → fails (.streamAdd r (.data buf)) s r b st []) ∧
      (s.descChecks buf (some (le b 16 2)) = none → (mget tab (le buf 0 2)).isSome = true → fails (.streamAdd r (.data buf)) s r b St.state []) ∧
      (s.descChecks buf (some (le b 16 2)) = none → mget tab (le buf 0 2) = none →
        (∀ c, conflict tab (le buf 0 2) (descOf buf) = some c → fails (.streamAdd r (.data buf)) s r b St.badParam (toLe 2 c)) ∧
        (conflict tab (le buf 0 2) (descOf buf) = none → rateBudget < s.rateSum (mput tab (le buf 0 2) (descOf buf)) →
          fails (.streamAdd r (.data buf)) s r b St.noResource []) ∧
        (conflict tab (le buf 0 2) (descOf buf) = none → s.rateSum (mput tab (le buf 0 2) (descOf buf)) ≤ rateBudget →
          Answers (.streamAdd r (.data buf)) s r b St.ok [] [.ing, .aln, .ecc] [] fun t =>
            t.ing = { s.ing with streams := s.ing.streams.put (le buf 0 2) (descOf buf) } ∧
              t.aln = { s.aln with policy := t.aln.policy } ∧ t.aln.policy.eff = s.aln.policy.eff)))) ∧
  (∀ (s : State) (r : Fn) (b : List Byte), Starts s r 0x12 40 false b →
    let k := le b 8 2
    let m := le b 10 2
    let tab := s.ing.streams.shadow
    let inj := ((mget tab k).map fun e => bit e.flags 1).getD false
    let bad := firstFail [(decide (8183 < k), St.badParam), (m == 0 || decide (31 < m), St.badParam), (bit m 0 && decide (63 < le b 12 1), St.badParam),
      (!zeroAt b 13 1, St.badParam), (bit m 1 && !inj && (s.udpListed (le b 14 2)).isNone, St.badParam), (!zeroAt b 20 4, St.badParam),
      (s.cmd.prep.isSome, St.busy), ((mget tab k).isNone, St.state)]
    (∀ st, bad = some st → fails (.streamMod r) s r b st []) ∧
    (∀ o, mget tab k = some o → bad = none →
      let e := modEntry o b
      let wrong := bits e.flags 2 1 != bits o.flags 2 1 || (conflict tab k e).isSome
      let past := bit e.flags 0 && !bit o.flags 0 && decide (rateBudget < s.rateSum (mput tab k e))
      (wrong = true → fails (.streamMod r) s r b St.badParam []) ∧ (wrong = false → past = true → fails (.streamMod r) s r b St.noResource []) ∧
      (wrong = false → past = false → Answers (.streamMod r) s r b St.ok [] [.ing, .ecc] [] fun t =>
        t.ing = { s.ing with streams := s.ing.streams.put k e }))) ∧
  (∀ (s : State) (r : Fn) (b : List Byte) (h : HostRead), Starts s r 0x13 24 false b →
    let bad := firstFail [(le b 16 4 == 0, St.badLength), (le b 20 2 == 0, St.badLength), (decide (256 < le b 20 2), St.badParam),
      (decide (1 < le b 22 1), St.badParam), (!zeroAt b 23 1, St.badParam), (s.cmd.prep.isSome, St.busy)]
    (∀ st, bad = some st → fails (.streamCfgLoad r h) s r b st []) ∧
    (bad = none → fails (.streamCfgLoad r .poison) s r b St.poison [] ∧ fails (.streamCfgLoad r .timeout) s r b St.timeout [] ∧ ∀ buf : List Byte,
      let parts := imageParts buf (le b 20 2) 0
      let ds := parts.1.map fun o => buf.drop o
      let wrong := ds.zipIdx.findSome? fun x => (s.descChecks x.1 none).map fun st => (x.2, st)
      let good := loadEntries (bit (le b 22 1) 0) s.ing.streams.shadow ds
      (parts.2 ≠ le b 16 4 → fails (.streamCfgLoad r (.data buf)) s r b St.badLength []) ∧
      (∀ f, wrong = some f → parts.2 = le b 16 4 → fails (.streamCfgLoad r (.data buf)) s r b f.2 (toLe 2 f.1)) ∧
      (∀ f, good = .inl f → wrong = none → parts.2 = le b 16 4 → fails (.streamCfgLoad r (.data buf)) s r b f.2 (toLe 2 f.1)) ∧
      (∀ tab, good = .inr tab → wrong = none → parts.2 = le b 16 4 →
        (∀ x, (ds.zipIdx.find? fun x => decide (rateBudget < s.rateSum
            ((ds.take (x.2 + 1)).foldl (fun t d => mput t (le d 0 2) (descOf d)) s.ing.streams.shadow))) = some x → rateBudget < s.rateSum tab →
          fails (.streamCfgLoad r (.data buf)) s r b St.noResource (toLe 2 x.2)) ∧
        (s.rateSum tab ≤ rateBudget → Answers (.streamCfgLoad r (.data buf)) s r b St.ok [] [.ing, .aln, .ecc] [] fun t =>
          t.ing = { s.ing with streams := { s.ing.streams with shadow := tab, dirty := t.ing.streams.dirty } } ∧
            (∀ d, d ∈ ds → le d 0 2 ∈ t.ing.streams.dirty) ∧ t.aln = { s.aln with policy := t.aln.policy } ∧
            t.aln.policy.eff = s.aln.policy.eff)))) ∧
  (∀ (s : State) (r : Fn) (b : List Byte), Starts s r 0x11 12 false b →
    let from0 := le b 8 2
    let used := (s.ing.streams.shadow.map fun x => x.1).filter fun k => decide (from0 ≤ k) && decide (k < from0 + le b 10 2)
    let bad := firstFail [(le b 10 2 == 0, St.badLength), (decide (8184 < from0 + le b 10 2), St.badParam), (s.cmd.prep.isSome, St.busy),
      (s.cmd.fly.any (fun f => pkOp f.bytes == 0x11), St.busy)]
    let done (t : State) : Prop := t.ing = { s.ing with streams := { s.ing.streams with shadow := t.ing.streams.shadow, dirty := t.ing.streams.dirty } } ∧
      (∀ k, mget t.ing.streams.shadow k = if (used.take 512).contains k then none else mget s.ing.streams.shadow k) ∧
      (∀ k, k ∈ used.take 512 → k ∈ t.ing.streams.dirty) ∧
      Frame [.cmd, .out, .ing, .ecc] (regsIn [ringReg r R.RPL_PROD, R.CMD_INFLIGHT, ringReg .pf1 R.CMD_INFLIGHT]) s t
    (∀ st, bad = some st → fails (.streamDel r) s r b st []) ∧
    (bad = none → used.length ≤ 512 → ∃ t, exec (.streamDel r) s = .next t ∧ Answered r b St.ok 1 [] s t ∧ done t ∧
      t.cmd = { (s.popHead r).cmd with late := t.cmd.late }) ∧
    (bad = none → 512 < used.length → ∃ t, exec (.streamDel r) s = .next t ∧ Answered r b St.stepping 1 [] s t ∧ done t ∧
      t.cmd = { (s.popHead r).cmd with fly := s.cmd.fly ++ [⟨r, b, 1, false, false, (used[512]?).toList, none⟩], late := t.cmd.late })) ∧
  (∀ (s : State) (r : Fn) (b : List Byte) (issued : Bool), Starts s r 0x14 26 true b →
    let bad := firstFail [(decide (8191 < le b 8 2), St.badParam), (decide (1 < le b 10 1), St.badParam), (r == .pf1 && bit (le b 10 1) 0, St.denied),
      (!zeroAt b 11 5, St.badParam), (le b 16 8 % 8 != 0, St.badParam), (decide (le b 24 2 < 256), St.badLength),
      (!issued || !(s.pfn r).bme, St.timeout)]
    (∀ st, bad = some st → fails (.streamStats r issued) s r b st []) ∧
    (bad = none → Answers (.streamStats r issued) s r b St.ok [] [.ing] [] fun t =>
      Out.dma r (le b 16 8) (s.statsBlock (le b 8 2)) ∈ t.out.drop s.out.length ∧ t.ing = { s.ing with stat := t.ing.stat } ∧
        (∀ k, k ≠ le b 8 2 → t.stat k = s.stat k) ∧ t.stat (le b 8 2) =
          if le b 10 1 = 1 ∧ (mget s.ing.stat (le b 8 2)).isSome = true then (s.stat (le b 8 2)).cleared else s.stat (le b 8 2)))

/-- Whatever the state, logging the events of a command, keeping the alarm port and the pins, and keeping the health bits change only the parts
and registers that the frame's masks name; a pending interrupt source stays pending, no output already made is lost, and time does not move.
(R172, R383, R438, R439, R440, R442, R443) -/
def Obligations.LoggingChangesOnlyItsOwn : Prop :=
  ∀ s : State, Frame [] noRegs s s.drain ∧ (∀ n, n < 128 → s.pends n → s.drain.pends n) ∧ s.drain.out = s.out ∧ s.drain.tim = s.tim ∧
    s.freeCtr ≤ s.drain.freeCtr ∧ (RegsCanon s → RegsCanon s.drain)

/-- In DMA mode with EN, bus mastering and a ring that has room, HOSTQ_DMA_BLOCK_WRITE writes the next packed block of the head packet to BASE +
80 × (k mod SIZE) with PHASE = (k / SIZE) mod 2, its words as the check of the first one's block leaves them. Before the packet's last block
PROD stays; with it PROD passes all its blocks, the packet leaves the queue and the queue's pending bit is set. With no room, no packet, no
bus mastering, EN = 0 or MODE 1 nothing is written. SET_HQ_CONS_q written by the owner takes the value, and in DMA mode an advance restarts
the lease, unless the value would pass PROD, which logs EV_SET_CFG_RANGE (source 31); another agent's write is dropped. In MMIO mode a read
of byte 0 by the owner answers the head word with its flags, the word is gone, the lease restarts, and after a packet's last word the packet
leaves; from an empty queue it answers NOWORD, counts in UNDER_CNT, sets UNDERRUN and raises source 27; a read of later bytes answers those
of the word last read. In DMA mode, by another agent, and of another width it answers zero and changes nothing. A write of SET_HQ_PEND
clears the bits written as 1, for PF1 only those of its own queues. No other queue changes. (R111, R115, R116, R117, R120, R121, R123) -/
def Obligations.HostQueuesDeliverInBothModes : Prop :=
  let ecc : List Nat := [R.ECC_STAT, R.ECC_CNT_CORR, R.ECC_CNT_UNCORR, R.ECC_CNT_HARD, R.ECC_CNT_TAGOVF, R.ECC_LAST_LO, R.ECC_LAST_HI]
  let others (q : Nat) (s u : State) : Prop := ∀ j, j ≠ q → u.hq j = s.hq j
  (∀ (s : State) (q : Fin 16) (err : ReadErr) (h : HostQ), s.hq q = h →
     let run := s.flag (hqf F.SET_HQ_CFG_EN q) && !s.flag (hqf F.SET_HQ_CFG_MODE q) && (s.pfn (s.hqOwner q)).bme
     let k := s.get (hqf F.SET_HQ_PROD_PROD q) + h.sent / 8
     let size := s.get (hqf F.SET_HQ_SIZE_SIZE q)
     let room := decide (subMod 32 k (s.get (hqf F.SET_HQ_CONS_CONS q)) < size)
     let base := s.get64 (R.SET_HQ_BASE_LO + 0x80 * q) (R.SET_HQ_BASE_HI + 0x80 * q) / 64 * 64
     (∀ (p : Pkt) (rest : List Pkt) (r : State × Bool) (ws : List (Nat × Nat)), h.pkts = p :: rest → run = true → room = true →
       r = s.eccRead false ((((s.pktCells p).drop h.sent).head?.map fun c => c.1).getD 0) err →
       ws = (((r.1.pktCells p).drop h.sent).take 8).zipIdx.map (fun x =>
         (x.1.2.v.toNat, flagByte x.1.2.eop x.1.2.poison (x.2 == 0 && r.2) false)) →
       (h.sent + 8 < (s.pktCells p).length → Leads (.hostqDmaBlockWrite q err) s [.out, .ecc] (regsIn ecc) fun u =>
         u.out = s.out ++ [Out.dma (s.hqOwner q) (base + 80 * (k % size)) (packedBlock ws (k / size % 2 == 1))] ∧
           u.hq q = { h with sent := h.sent + 8 } ∧ others q s u) ∧
       ((s.pktCells p).length ≤ h.sent + 8 →
         Leads (.hostqDmaBlockWrite q err) s [.out, .ecc] (regsIn ((R.SET_HQ_PROD + 0x80 * q.val) :: (R.SET_HQ_PKTOUT + 0x80 * q.val) :: ecc)) fun u =>
           u.out = s.out ++ [Out.dma (s.hqOwner q) (base + 80 * (k % size)) (packedBlock ws (k / size % 2 == 1))] ∧
             u.get (hqf F.SET_HQ_PROD_PROD q) = (k + 1) % 2 ^ 32 ∧ u.hq q = { h with pkts := rest, sent := 0 } ∧ others q s u ∧
             u.get (hqf F.SET_HQ_PKTOUT_PKTOUT q) = (s.get (hqf F.SET_HQ_PKTOUT_PKTOUT q) + 1) % 2 ^ 32 ∧
             u.flag ⟨R.SET_HQ_PEND, q, q⟩ = true)) ∧
     (h.pkts = [] ∨ run = false ∨ room = false → Leads (.hostqDmaBlockWrite q err) s [] noRegs fun u => u = s)) ∧
  (∀ (s : State) (a : Agent) (q : Fin 16) (v : Dword), s.mayWrite a (R.SET_HQ_CONS + 0x80 * q) →
    let d := subMod 32 v.toNat (s.get (hqf F.SET_HQ_PROD_PROD q))
    let up := subMod 32 v.toNat (s.get (hqf F.SET_HQ_CONS_CONS q))
    (s.hqMine q a = true → ¬ (0 < d ∧ d < 2 ^ 31) → Leads (.hostqConsWrite a q v) s [] (regsIn [R.SET_HQ_CONS + 0x80 * q]) fun u =>
      u.get (hqf F.SET_HQ_CONS_CONS q) = v.toNat ∧ others q s u ∧
        u.hq q = if !s.flag (hqf F.SET_HQ_CFG_MODE q) && decide (0 < up) && decide (up < 2 ^ 31) then { s.hq q with leaseAt := s.tim.now }
          else s.hq q) ∧
    (s.hqMine q a = true → 0 < d ∧ d < 2 ^ 31 → Does (.hostqConsWrite a q v) s [] noRegs fun t => t.pends 31) ∧
    (s.hqMine q a = false → Leads (.hostqConsWrite a q v) s [] noRegs fun u => u = s)) ∧
  (∀ (s : State) (a : Agent) (q : Fin 16) (byte len : Nat) (err : ReadErr) (h : HostQ), s.hq q = h →
    let own := s.hqMine q a && s.flag (hqf F.SET_HQ_CFG_MODE q) && paddedOk byte len
    (own = false → Does (.hostqDataPop a q byte len err) s [.out] noRegs fun t => t.out = s.out ++ [Out.answer a (zeros len) false]) ∧
    (own = true → byte ≠ 0 → Does (.hostqDataPop a q byte len err) s [.out] noRegs fun t =>
      ∀ l, l = mgetD s.sett.hqLatch (agentNum a * 16 + q) (0, 0) →
        t.out = s.out ++ [Out.answer a (bytesAt (padded l.1 l.2) byte len) (flagPoison l)]) ∧
    (own = true → byte = 0 → h.pkts = [] →
      Leads (.hostqDataPop a q byte len err) s [.out, .sett] (regsIn [R.SET_HQ_UNDER + 0x80 * q]) fun u =>
        u.out = s.out ++ [Out.answer a (bytesAt (padded 0 8) 0 len) false] ∧
          u.get (hqf F.SET_HQ_UNDER_UNDER_CNT q) = (s.get (hqf F.SET_HQ_UNDER_UNDER_CNT q) + 1) % 2 ^ 32 ∧
          u.flag (hqf F.SET_HQ_STAT_UNDERRUN q) = true ∧ u.pends 27 ∧ u.hq q = h ∧ others q s u ∧
          mgetD u.sett.hqLatch (agentNum a * 16 + q) (0, 0) = (0, 8)) ∧
    (∀ (p : Pkt) (rest : List Pkt) (n : Nat) (w : SWord) (r : State × Bool) (bad : Bool), own = true → byte = 0 → h.pkts = p :: rest →
      (s.pktCells p)[h.sent]? = some (n, w) → r = s.eccRead false n err →
      bad = ((((r.1.pktCells p)[h.sent]?).getD (n, w)).2).poison →
      Leads (.hostqDataPop a q byte len err) s [.out, .sett, .ecc] (regsIn ((R.SET_HQ_PKTOUT + 0x80 * q.val) :: ecc)) fun u =>
        u.out = s.out ++ [Out.answer a (bytesAt (padded w.v.toNat (flagByte w.eop bad r.2 false)) 0 len) bad] ∧ others q s u ∧
          mgetD u.sett.hqLatch (agentNum a * 16 + q) (0, 0) = (w.v.toNat, flagByte w.eop bad r.2 false) ∧
          (h.sent + 1 < (s.pktCells p).length → u.hq q =
            { h with sent := h.sent + 1, leaseAt := s.tim.now, last := (w.v.toNat, flagByte w.eop bad r.2 false) }) ∧
          ((s.pktCells p).length = h.sent + 1 → u.hq q =
            { h with pkts := rest, sent := 0, leaseAt := s.tim.now, last := (w.v.toNat, flagByte w.eop bad r.2 false) } ∧
            u.get (hqf F.SET_HQ_PKTOUT_PKTOUT q) = (s.get (hqf F.SET_HQ_PKTOUT_PKTOUT q) + 1) % 2 ^ 32))) ∧
  (∀ (s : State) (a : Agent) (v : Dword), s.mayWrite a R.SET_HQ_PEND → Leads (.hqPendClear a v) s [] noRegs fun u =>
      ∀ q, q < 16 → u.flag ⟨R.SET_HQ_PEND, q, q⟩ = (s.flag ⟨R.SET_HQ_PEND, q, q⟩ &&
        !(bit v.toNat q && (decide (a ≠ .pf1) || s.flag (hqf F.SET_HQ_CFG_OWNER q)))))

/-- A write of SET_HQ_CFG_q with MAXPG 0 is dropped and raises source 31. Any other takes MAXPG. While EN = 1 MODE and OWNER keep their values,
while EN = 0 they follow the write; EN follows the write but does not rise in DMA mode with SIZE 0; clearing EN drops every packet and
raises source 28; no other queue changes. A write into the Sett window changes nothing but raises source 31. A read of the window at byte 0,
of an allowed width, answers the word as the check of its block leaves it, with its flags and its poison as EP, and latches it for the
agent; of a free or retired page it answers zero. A read at a later byte answers that part of the word that the agent has latched, zero if
it is another word. A read of another width or place, by PF1, or not served answers zero and changes nothing. (R13, R113, R114, R115, R122,
R124) -/
def Obligations.HostQueueSettingsAndWindowAreGuarded : Prop :=
  (∀ (s : State) (a : Agent) (q : Fin 16) (v : Dword), s.mayWrite a (R.SET_HQ_CFG + 0x80 * q) →
    let f (x : Fld) : Fld := hqf x q
    let on := fval (f F.SET_HQ_CFG_EN) v == 1
    let mode := fval (f F.SET_HQ_CFG_MODE) v == 1
    (fval (f F.SET_HQ_CFG_MAXPG) v = 0 → Does (.hostqCfgWrite a q v) s [] noRegs fun t => t.pends 31) ∧
    (fval (f F.SET_HQ_CFG_MAXPG) v ≠ 0 → Leads (.hostqCfgWrite a q v) s [] (regsIn [R.SET_HQ_CFG + 0x80 * q]) fun u =>
      u.get (f F.SET_HQ_CFG_MAXPG) = fval (f F.SET_HQ_CFG_MAXPG) v ∧ (∀ j, j ≠ q.val → u.hq j = s.hq j) ∧
        (s.flag (f F.SET_HQ_CFG_EN) = true → u.flag (f F.SET_HQ_CFG_MODE) = s.flag (f F.SET_HQ_CFG_MODE) ∧
          u.flag (f F.SET_HQ_CFG_OWNER) = s.flag (f F.SET_HQ_CFG_OWNER) ∧ u.flag (f F.SET_HQ_CFG_EN) = on ∧
          (on = true → u.hq q = s.hq q) ∧ (on = false → (u.hq q).pkts = [] ∧ (u.hq q).sent = 0 ∧ u.pends 28)) ∧
        (s.flag (f F.SET_HQ_CFG_EN) = false → u.flag (f F.SET_HQ_CFG_MODE) = mode ∧
          u.flag (f F.SET_HQ_CFG_OWNER) = (fval (f F.SET_HQ_CFG_OWNER) v == 1) ∧ u.hq q = s.hq q ∧
          u.flag (f F.SET_HQ_CFG_EN) = (on && (mode || s.get (f F.SET_HQ_SIZE_SIZE) != 0))))) ∧
  (∀ (s : State) (a : Agent) (off : Nat) (v : Dword), 
    let lies := a != .pf1 && decide (0x200000 ≤ off) && decide (off < 0x400000) && s.serves a off
    (lies = false → Leads (.evSetWinWrite a off v) s [] noRegs fun u => u = s) ∧
    (lies = true → Does (.evSetWinWrite a off v) s [] noRegs fun t => t.pends 31)) ∧
  (∀ (s : State) (a : Agent) (off len addr : Nat) (err : ReadErr), addr = s.get F.SET_WINSEL_WIN * 131072 + (off - 0x200000) / 16 →
    let ok := a ≠ .pf1 ∧ s.serves a off = true ∧ 0x200000 ≤ off ∧ off < 0x400000 ∧ paddedOk (off % 16) len = true
    let latched (t : State) (l : Nat × Nat) : Prop := mget t.sett.winLatch (agentNum a) = some (addr, l.1 + l.2 * 2 ^ 72) ∧
      ∀ b, b ≠ agentNum a → mget t.sett.winLatch b = mget s.sett.winLatch b
    (¬ ok → Does (.settWindowRead a off len err) s [.out] noRegs fun t => t.out = s.out ++ [Out.answer a (zeros len) false]) ∧
    (ok → off % 16 ≠ 0 → Does (.settWindowRead a off len err) s [.out] noRegs fun t =>
      ∀ l, l = s.winLatched a addr → t.out = s.out ++ [Out.answer a (bytesAt (padded l.1 l.2) (off % 16) len) (flagPoison l)]) ∧
    (ok → off % 16 = 0 → s.settWord addr = none → Does (.settWindowRead a off len err) s [.out, .sett] noRegs fun t =>
      t.out = s.out ++ [Out.answer a (bytesAt (padded 0 0) 0 len) false] ∧ latched t (0, 0)) ∧
    (∀ (w : SWord) (r : State × Bool) (bad : Bool), ok → off % 16 = 0 → s.settWord addr = some w → r = s.eccRead false addr err →
      bad = ((r.1.settWord addr).map fun x => x.poison).getD false →
      Does (.settWindowRead a off len err) s [.out, .sett, .ecc]
        (regsIn [R.ECC_STAT, R.ECC_CNT_CORR, R.ECC_CNT_UNCORR, R.ECC_CNT_HARD, R.ECC_CNT_TAGOVF, R.ECC_LAST_LO, R.ECC_LAST_HI]) fun t =>
        t.out = s.out ++ [Out.answer a (bytesAt (padded w.v.toNat (flagByte w.eop bad r.2 false)) 0 len) bad] ∧
          latched t (w.v.toNat, flagByte w.eop bad r.2 false)))

/-- QUOTA_WRITE of a value in its class's range that fits with the other quotas stores it and sets SPARE to what is left of the pages not
retired; any other value is dropped and raises source 31. PEAK_CLR sets each class's PEAK to its USED. An ALIGN or LATE page that only host
queues hold moves its charge to HOSTQ. LEASE_EXPIRY with LEASE not 0 happens no earlier than LEASE ms after the holder's lease began, and
raises source 28. A queue that holds packets is flushed and its EXPIRED set; a capture is no longer among the complete ones; a digest that
is being put together is dropped; the pages that a hand-over still holds lose that holder. (R106, R107, R108, R110, R111, R112, R122) -/
def Obligations.QuotasChargesAndLeases : Prop :=
  (∀ (s : State) (a : Agent) (c : Fin 7) (v : Dword), s.mayWrite a (R.SET_QUOTA_ALIGN + 4 * c) →
    let n := fval (F.SET_QUOTA_ALIGN_QUOTA.at (4 * c)) v
    let others := (((List.range 7).filter fun i => i != c.val).map s.quota).foldl (· + ·) 0
    let cap := 8192 - s.sett.retired.length
    ((quotaRange c).1 ≤ n → n ≤ (quotaRange c).2 → others + n ≤ cap →
      Does (.quotaWrite a c v) s [] (regsIn [R.SET_QUOTA_ALIGN + 4 * c, R.SET_QUOTA_SPARE]) fun t =>
        t.quota c = n ∧ t.get F.SET_QUOTA_SPARE_QUOTA = cap - (others + n)) ∧
    (n < (quotaRange c).1 ∨ (quotaRange c).2 < n ∨ cap < others + n → Does (.quotaWrite a c v) s [] noRegs fun t => t.pends 31)) ∧
  (∀ (s : State) (a : Agent) (v : Dword), s.mayWrite a R.SET_CTRL → bit v.toNat 2 = true →
    Leads (.peakClr a v) s [] (regsIn [R.SET_CTRL]) fun u => u.flag F.SET_CTRL_EN = bit v.toNat 0 ∧
      ∀ c, c < 7 → u.get (F.SET_USE_PEAK.at (4 * c)) = s.used c % 2 ^ 14) ∧
  (∀ (s : State) (page id : Nat) (p : Page), (s.sett.pages.find? fun x => x.2.phys == page) = some (id, p) → mget s.sett.pages id = some p →
    p.cls ≤ 1 → p.onlyQueues = true → Leads (.pageChargeMove page) s [] noRegs fun u =>
      u.sett = { s.sett with pages := mput s.sett.pages id { p with cls := 2, reserved := false } }) ∧
  (∀ (s : State) (q : Fin 16), s.get (hqf F.SET_HQ_LEASE_MS q) ≠ 0 → (s.hq q).pkts ≠ [] →
    Leads (.leaseExpiry (.queue q)) s [.tim] noRegs fun u =>
      u.tim.now = max s.tim.now ((s.hq q).leaseAt + ticksOfMs (s.get (hqf F.SET_HQ_LEASE_MS q))) ∧ (u.hq q).pkts = [] ∧
        u.flag (hqf F.SET_HQ_STAT_EXPIRED q) = true ∧ u.pends 28) ∧
  (∀ (s : State) (n : Nat) (d : TrgDone), s.get F.SET_LEASE_CAPT_MS ≠ 0 → mget s.trg.done n = some d →
    Leads (.leaseExpiry (.capture n)) s [.tim, .trg] noRegs fun u =>
      u.tim.now = max s.tim.now (d.doneAt + ticksOfMs (s.get F.SET_LEASE_CAPT_MS)) ∧
        u.trg = { s.trg with done := merase s.trg.done n } ∧ u.pends 28) ∧
  (∀ (s : State) (n : Nat) (x : CasReasm), s.get F.SET_LEASE_CASC_MS ≠ 0 → (s.cas.reasm.find? fun x => x.id == n) = some x →
    Leads (.leaseExpiry (.digest n)) s [.tim, .cas] noRegs fun u =>
      u.tim.now = max s.tim.now (x.first + ticksOfMs (s.get F.SET_LEASE_CASC_MS)) ∧
        u.cas = { s.cas with reasm := s.cas.reasm.filter fun y => y.id != n } ∧ u.pends 28) ∧
  (∀ (s : State) (n : Nat), s.get F.SET_LEASE_HANDOVER_MS ≠ 0 → s.cmd.pauseAt = some n →
    (s.sett.pages.any fun p => p.2.holders.contains .handover) = true →
    Leads (.leaseExpiry .handover) s [.tim] noRegs fun u =>
      u.tim.now = max s.tim.now (n + ticksOfMs (s.get F.SET_LEASE_HANDOVER_MS)) ∧ u.pends 28 ∧
        ∀ (id : Nat) (p g : Page), mget s.sett.pages id = some p → p.holders.contains .handover = true → mget u.sett.pages id = some g →
          g.holders.count .handover < p.holders.count .handover)

/-- INSTANT_OPEN with EN set comes when local time reaches the next instant, at once or later. Where that is not more than WAIT_MAX ago and the
table has room, and no boundary, cadence change or learned format is waiting, it adds one entry at the end of the table: MEMBER is the
enabled streams whose grid has an instant within ALN_TOL, EXPECTED those of them not demoted, ARRIVED is empty, the largest wait of the
expected streams is its wait, its deadline is that long after its tag and not before the one opened before it, and it is READY with cause
ALL exactly if EXPECTED is empty. A boundary waiting at or before the instant takes effect first: CMD_EPOCH is the next tag, which the
instant carries with flag bit 0, ALN_BOUND is the instant, and nothing is pending. With 256 in flight and the oldest OPEN, the oldest
becomes READY with cause FORCED, its records as they are, and source 36 is raised; with the oldest READY the instant waits. (R134, R135,
R139, R141, R147, R154, R155) -/
def Obligations.InstantsOpenInLatticeOrder : Prop :=
  ∀ (s u : State) (i : Nat × Nat), s.aln.next = some i → s.flag F.ALN_CTRL_EN = true → s.tim.anchor.isSome = true →
    u = s.reach (s.tickAtTai (s.cadTai i)) → s.cadTai i ≤ u.taiNs → u.taiNs - s.waitBounds.2 * 1000 ≤ s.cadTai i →
    (s.aln.insts.length < 256 → s.aln.bound = none → s.aln.cadDue = none → s.ing.learnNext = [] →
      Does .instantOpen s [.tim, .aln, .ing, .outp] (regsIn [R.ALN_STAT, R.ALN_WAIT_EFF]) fun t =>
        t.tim = u.tim ∧ t.tim.now = max s.tim.now (s.tickAtTai (s.cadTai i)) ∧ t.aln.next = some (nextInst (rateOf s.aln.cad) i) ∧
          ∃ x : Inst, t.aln.insts = s.aln.insts ++ [x] ∧ (x.soc, x.k, x.ns) = (i.1, i.2, instNs (rateOf s.aln.cad) i.2) ∧
            x.member = ((s.enabledStreams.filter fun p => onLattice p.2 (s.tolNs (s.get F.CMD_EPOCH_EPOCH)) (x.soc, x.ns)).map fun p => p.1) ∧
            x.expected = (x.member.filter fun y => !(s.stat y).demoted) ∧ x.arrived = [] ∧ x.epoch = s.get F.CMD_EPOCH_EPOCH ∧
            x.waitEff = u.waitEffOf x.mean x.expected ∧ x.deadline = u.deadlineOf (x.soc, x.ns) x.waitEff ∧ s.aln.lastDl ≤ x.deadline ∧
            t.aln.lastDl = x.deadline ∧ x.cause = (if x.expected = [] then some Cause.all else none) ∧
            t.get F.ALN_WAIT_EFF_US = x.waitEff % 2 ^ 24) ∧
    (∀ b, s.aln.bound = some b → ukey b ≤ ukey (s.instTag i) → s.aln.insts.length < 256 →
      ∃ t, exec .instantOpen s = .next t ∧ t.tim.now = u.tim.now ∧ t.get F.CMD_EPOCH_EPOCH = s.nextTag % 2 ^ 32 ∧ t.aln.bound = none ∧
        t.cmd.pregs = none ∧ t.flag F.ALN_STAT_BOUND_PEND = false ∧ t.rd R.ALN_BOUND_LO = BitVec.ofNat 32 (s.instTag i).2 ∧
        t.rd R.ALN_BOUND_HI = BitVec.ofNat 32 (s.instTag i).1 ∧
        ∃ x : Inst, t.aln.insts = s.aln.insts ++ [x] ∧ x.epoch = t.get F.CMD_EPOCH_EPOCH ∧ bit x.flags 0 = true) ∧
    (∀ (x : Inst) (rest : List Inst), s.aln.insts = x :: rest → 256 ≤ s.aln.insts.length →
      (x.cause = none → Does .instantOpen s [.tim, .aln, .ing] noRegs fun t => t.tim = u.tim ∧ t.pends 36 ∧ t.aln.next = some i ∧
        t.aln.insts.length = s.aln.insts.length ∧
        ∃ y, t.aln.insts.head? = some y ∧ y.cause = some .forced ∧ y.recs = x.recs ∧ y.expected = x.expected) ∧
      (x.cause.isSome = true → Does .instantOpen s [.tim] noRegs fun t => t.tim = u.tim))

/-- INSTANT_DEADLINE, with open instants in the table and no two of the same tag, brings the TIME count to the first one's deadline if it has
not passed; afterwards no instant is OPEN whose deadline has come, and each instant that was open and due has cause DEADLINE with the same
records and the same EXPECTED. Instants that were READY stay as they were. SET_RELEASE with the oldest instant READY takes it off the table
and leaves the others as they are, adds 1 to ALN_SETS, to DL or FORCED by its cause and to neither for ALL, and raises source 32; source 33
too unless the cause is ALL. ALN_HORIZ takes the tag before the next instant in flight, or the newest opened one where none is. With the
outputs off nothing else changes but stream state and what the engines and the cascade builder have pending. With the oldest instant OPEN,
or none in flight, nothing happens. (R138, R141, R142, R143, R144, R149) -/
def Obligations.InstantsCloseAndAreReleasedInOrder : Prop :=
  (∀ (s : State) (x : Inst), (s.aln.insts.find? fun i => i.cause.isNone) = some x → (s.aln.insts.map fun i => (i.soc, i.ns)).Nodup →
     Does .instantDeadline s [.tim, .aln, .ing] noRegs fun t =>
       t.tim.now = max s.tim.now x.deadline ∧ t.aln.insts.length = s.aln.insts.length ∧
         ∀ i ∈ s.aln.insts, ∃ y ∈ t.aln.insts, y.soc = i.soc ∧ y.ns = i.ns ∧ y.recs = i.recs ∧ y.expected = i.expected ∧
           (i.cause.isSome = true → y = i) ∧ (i.cause = none → i.deadline ≤ t.tim.now → y.cause = some .deadline) ∧
           (i.cause = none → t.tim.now < i.deadline → y = i)) ∧
  (∀ (s : State) (i : Inst) (rest : List Inst) (c : Cause), s.aln.insts = i :: rest → i.cause = some c →
    ∃ u, exec .setRelease s = .next u.drain ∧ u.pending = s.pending ∧ u.tim.now = s.tim.now ∧
      (s.flag F.OUT_CTRL_EN = false → Frame [.aln, .ing, .sched, .isl, .cas] (fun a => (decide (0x50040 ≤ a) && decide (a < 0x50064)) ||
        a == R.ALN_STAT || a == R.ALN_NDEMOTED || a == R.ANG_STAT || (decide (0x400D0 ≤ a) && decide (a < 0x400E0))) s u) ∧
      u.aln.insts = rest ∧
        u.get64 R.ALN_SETS_LO R.ALN_SETS_HI = (s.get64 R.ALN_SETS_LO R.ALN_SETS_HI + 1) % 2 ^ 64 ∧
        u.get F.ALN_CNT_DL_COUNT = (s.get F.ALN_CNT_DL_COUNT + b2n (decide (c = .deadline))) % 2 ^ 32 ∧
        u.get F.ALN_CNT_FORCED_COUNT = (s.get F.ALN_CNT_FORCED_COUNT + b2n (decide (c = .forced))) % 2 ^ 32 ∧
        u.get F.ALN_STAT_INFLIGHT = rest.length % 512 ∧ u.pends 32 ∧ (c ≠ .all → u.pends 33) ∧
        (∀ h : Nat × Nat, (match rest with | n :: _ => n.pred | [] => s.aln.last) = some h →
          u.rd R.ALN_HORIZ_LO = BitVec.ofNat 32 h.2 ∧ u.rd R.ALN_HORIZ_HI = BitVec.ofNat 32 h.1)) ∧
  (∀ s : State, (∀ i ∈ s.aln.insts.head?, i.cause = none) → Leads .setRelease s [] noRegs fun u => u = s)

/-- WAIT_LEARN_UPDATE, when due with learning on and the time quality not 0xF, gives every stream that has an entry, whose wait is not fixed and
whose histogram has enough samples the wait of the rule's program: the quantile bin's upper edge plus MARGIN, WAIT_MAX for the last bin,
inside the bounds, at once when it rises and by at most DECAY when it falls. Other waits stay. A change raises source 34. With learning off
or paused the update is over and no wait changes. ALN_CTRL_WRITE stores EN, LEARN_EN, DEMOTE_EN and BETWEEN_SUPP. When EN rises, a cadence
whose second has come takes effect, and the next instant to open is the first after the local time of the write, or the one already next if
that is later. When EN falls, every instant in flight that was OPEN becomes READY with cause FORCED, and the READY ones keep their cause. A
write that leaves EN as it was changes no instant. (R93, R134, R141, R146, R148, R156) -/
def Obligations.AlignmentRunsAndLearnsWaits : Prop :=
  (∀ s : State, s.aln.learnDue = true → mrising s.ing.stat = true →
     Does .waitLearnUpdate s [.aln, .ing] noRegs fun t =>
       t.aln = { s.aln with learnDue := false } ∧ (s.learns = false → t.ing = s.ing) ∧
         ∀ (k : Nat) (x : SStat) (total bin goal : Nat), mget s.ing.stat k = some x → total = x.hist.foldl (· + ·) 0 →
           bin = quantBin ((total * s.get F.ALN_LEARN_Q + 255) / 256) x.hist 0 0 →
           goal = s.clampWait (if bin = 31 then s.waitBounds.2 else upperUs (max (s.get F.ING_HIST_UNIT) 1) bin + s.get F.ALN_MARGIN_MARGIN) →
           (s.learns = true → (s.streamRate? k).isSome = true → total ≠ 0 → s.get F.ALN_LEARN_MINSAMP ≤ total → (s.policyOf k).fixed = none →
             (t.stat k).wait = (if x.wait ≤ goal then goal else max goal (x.wait - s.get F.ALN_MARGIN_DECAY)) ∧
               ((t.stat k).wait ≠ x.wait → t.pends 34)) ∧
           ((s.streamRate? k) = none ∨ total = 0 ∨ total < s.get F.ALN_LEARN_MINSAMP ∨ (s.policyOf k).fixed ≠ none → t.stat k = x)) ∧
  (∀ (s v : State) (a : Agent) (w : Dword), s.mayWrite a R.ALN_CTRL → v = s.switchBy (s.utcOf s.taiNs).1 →
     Does (.alnCtrlWrite a w) s [.aln, .ing] (regsIn [R.ALN_CTRL, R.ALN_STAT]) fun t =>
       t.flag F.ALN_CTRL_EN = bit w.toNat 0 ∧ t.flag F.ALN_CTRL_LEARN_EN = bit w.toNat 1 ∧ t.flag F.ALN_CTRL_DEMOTE_EN = bit w.toNat 2 ∧
         t.flag F.ALN_CTRL_BETWEEN_SUPP = bit w.toNat 3 ∧
         (s.flag F.ALN_CTRL_EN = false → bit w.toNat 0 = true → ∀ i, i = v.firstInstAfter (rateOf (v.cadAt (s.utcOf s.taiNs).1)) s.taiNs →
           t.aln = { v.aln with next := some (match s.aln.next with
             | some n => if ukey (v.instTag n) ≤ ukey (v.instTag i) then i else n
             | none => i) } ∧ t.aln.insts = s.aln.insts) ∧
         (s.flag F.ALN_CTRL_EN = true → bit w.toNat 0 = false → (s.aln.insts.map fun i => (i.soc, i.ns)).Nodup →
           t.aln.insts.length = s.aln.insts.length ∧ t.aln.next = s.aln.next ∧
             ∀ i ∈ s.aln.insts, ∃ y ∈ t.aln.insts, y.soc = i.soc ∧ y.ns = i.ns ∧
               y.cause = (if i.cause.isSome then i.cause else some .forced)) ∧
         (s.flag F.ALN_CTRL_EN = bit w.toNat 0 → t.aln = s.aln ∧ t.ing = s.ing))

/-- CADENCE_SET with RATE 0 to 11 is answered ST_OK and puts the rate in the shadow cadence; the cadence in effect stays. WAIT_POLICY for a
range within the 8192 indices, with flags and a wait in range and no used entry asked for a mean that its rate does not give, changes the
masked parts of the shadow policy of each used entry and skips the unused ones; no policy in effect and no wait changes. COUNT 0 is answered
ST_BAD_LENGTH, anything else out of range ST_BAD_PARAM, and while a commit prepares ST_BUSY; those change nothing. (R148, R151, R153, R156) -/
def Obligations.CadenceAndWaitPolicyGoToTheShadow : Prop :=
  (∀ (s : State) (r : Fn) (b : List Byte), Starts s r 0x20 16 false b →
    (le b 8 1 ≤ 11 → zeroAt b 9 7 = true → s.cmd.prep = none → Answers (.cadenceSet r) s r b St.ok [] [.aln, .ecc] [] fun t =>
      t.aln = { s.aln with cadShadow := le b 8 1, cadDirty := true }) ∧
    (11 < le b 8 1 ∨ zeroAt b 9 7 = false → Answers (.cadenceSet r) s r b St.badParam [] [] [] fun _ => True) ∧
    (le b 8 1 ≤ 11 → zeroAt b 9 7 = true → s.cmd.prep.isSome = true → Answers (.cadenceSet r) s r b St.busy [] [] [] fun _ => True)) ∧
  (∀ (s : State) (r : Fn) (b : List Byte), Starts s r 0x21 24 false b →
    let first := le b 8 2
    let count := le b 10 2
    let mask := le b 12 1
    let flags := le b 13 1
    let ok : Prop := first + count ≤ 8192 ∧ mask ≠ 0 ∧ mask ≤ 15 ∧ flags ≤ 7 ∧ zeroAt b 14 2 = true ∧ zeroAt b 20 4 = true ∧
      (bit mask 1 = true → bit flags 1 = true → ∀ x, x < count → ∀ rate, s.shadowRate? (first + x) = some rate →
        (meanN (rateOf rate) (rateOf s.aln.cadShadow)).isSome = true) ∧
      (bit mask 0 = true → bit flags 0 = true → s.get F.ALN_WAITMIN_US ≤ le b 16 4 ∧ le b 16 4 ≤ s.get F.ALN_WAITMAX_US)
    (count = 0 → Answers (.waitPolicy r) s r b St.badLength [] [] [] fun _ => True) ∧
    (count ≠ 0 → ¬ ok → Answers (.waitPolicy r) s r b St.badParam [] [] [] fun _ => True) ∧
    (count ≠ 0 → ok → s.cmd.prep.isSome = true → Answers (.waitPolicy r) s r b St.busy [] [] [] fun _ => True) ∧
    (count ≠ 0 → ok → s.cmd.prep = none →
      Answers (.waitPolicy r) s r b St.ok [] [.aln, .ecc] [] fun t =>
        t.aln = { s.aln with policy := t.aln.policy } ∧ t.aln.policy.eff = s.aln.policy.eff ∧
          ∀ x, (first ≤ x → x < first + count → (s.shadowRate? x).isSome = true →
              mget t.aln.policy.shadow x =
                some (policyMask (mgetD s.aln.policy.shadow x Policy.default) mask flags (le b 16 4))) ∧
            (x < first ∨ first + count ≤ x ∨ s.shadowRate? x = none → mget t.aln.policy.shadow x = mget s.aln.policy.shadow x)))

/-- ANG_ENGINE_RUN skips the sets too old and takes the next. Tables due for that set's epoch take effect; an entry written for it starts with
count 0 and no alarm (CLEAR counts one that was active), and so does one whose own state was lost. Then, for each enabled rule of a used
kind while LIM_EN is set, and each enabled pair while PAIR_EN is set: a missing value (R162, or a poisoned entry) changes neither count nor
alarm and counts in MISS; with no alarm, a value outside the limits adds 1 to the count and at PERSIST raises the alarm with the entry's
group and count 0 (RAISE counts, source 41); with the alarm active, a value inside by HYST adds 1 and at PERSIST clears it with count 0
(CLEAR counts, source 41); any other value sets the count to 0. All other alarms and counts stay. Source 40 is raised, the sets leave the
pending list and RUNMAX takes a longer interval. With no alarm frames on, nothing else but the skips and what the cascade builder is told
changes; with them on, frames may be sent too. With no set that is in time the engine only skips. (R127, R160, R161, R162, R163, R164, R166) -/
def Obligations.LimitRulesRaiseAndClearByPersistence : Prop :=
  (∀ (s v : State) (d : SetDesc) (old rest : List SetDesc), s.pendOf 0 = old ++ d :: rest → (∀ o ∈ old, s.tooOld 0 o = true) →
    s.tooOld 0 d = false → v = (old.foldl (fun s o => s.skipSet 0 false o) s).setPend 0 rest →
    let rules := (s.ang.limits.takeThrough d.epoch).eff
    let pairs := (s.ang.pairs.takeThrough d.epoch).eff
    let newR := s.ang.limits.dueKeys d.epoch
    let newP := s.ang.pairs.dueKeys d.epoch
    let fresh0 (i : Nat) : Bool := newR.contains i || s.cramPoisoned 32 i
    let fresh1 (i : Nat) : Bool := newP.contains i || s.cramPoisoned 33 i
    let was0 (i : Nat) : Option Nat := if fresh0 i then none else mget s.alm.act (almKey 0 i)
    let was1 (i : Nat) : Option Nat := if fresh1 i then none else mget s.alm.act (almKey 1 i)
    let cnt0 (i : Nat) : Nat := if fresh0 i then 0 else s.angCnt (almKey 0 i)
    let cnt1 (i : Nat) : Nat := if fresh1 i then 0 else s.angCnt (almKey 1 i)
    let val0 (i : Nat) (e : Limit) : Option (Bool × Bool) :=
      if s.cramPoisoned 1 i && !newR.contains i then none
      else (v.limitVal d e).map fun x => (f32Lt e.hi x.1 || f32Lt x.1 e.lo,
        (f32IsNaN e.hi || f32Le x.1 (f32AddSub true e.hi e.hyst)) && (f32IsNaN e.lo || f32Le (f32AddSub false e.lo e.hyst) x.1))
    let val1 (i : Nat) (e : Pair) : Option (Bool × Bool) :=
      if s.cramPoisoned 2 i && !newP.contains i then none
      else (v.setPhasor d e.sidxA e.phA).bind fun p => (v.setPhasor d e.sidxB e.phB).bind fun q =>
        if f32Lt (mag p.1 p.2.1) e.minmag || f32Lt (mag q.1 q.2.1) e.minmag then none
        else let th := sext 16 (subMod 16 (bangle p.1 p.2.1) (bangle q.1 q.2.1))
          some (decide (e.hi < th) || decide (th < e.lo), decide (th ≤ e.hi - (e.hyst : Int)) && decide (e.lo + (e.hyst : Int) ≤ th))
    let on0 (e : Limit) : Bool := s.flag F.ANG_CTRL_LIM_EN && e.enable && e.kind != 0
    let on1 (e : Pair) : Bool := s.flag F.ANG_CTRL_PAIR_EN && e.enable
    let law (t : State) (key grp per : Nat) (was : Option Nat) (cnt : Nat) (on : Bool) (val : Option (Bool × Bool)) : Prop :=
      (on = false ∨ val = none → t.angCnt key = cnt ∧ mget t.alm.act key = was) ∧
        (∀ o i, on = true → val = some (o, i) → per ≠ 0 →
          (was = none → o = false → t.angCnt key = 0 ∧ mget t.alm.act key = none) ∧
          (was = none → o = true → cnt + 1 < per → t.angCnt key = cnt + 1 ∧ mget t.alm.act key = none) ∧
          (was = none → o = true → per ≤ cnt + 1 → t.angCnt key = 0 ∧ mget t.alm.act key = some grp ∧ t.pends 41) ∧
          (∀ g, was = some g → i = false → t.angCnt key = 0 ∧ mget t.alm.act key = some g) ∧
          (∀ g, was = some g → i = true → cnt + 1 < per → t.angCnt key = cnt + 1 ∧ mget t.alm.act key = some g) ∧
          (∀ g, was = some g → i = true → per ≤ cnt + 1 → t.angCnt key = 0 ∧ mget t.alm.act key = none ∧ t.pends 41))
    let post (t : State) : Prop :=
      t.pends 40 ∧ t.pendOf 0 = rest ∧ t.ang = { s.ang with limits := s.ang.limits.takeThrough d.epoch, pairs := s.ang.pairs.takeThrough d.epoch, cnt := t.ang.cnt } ∧
      (∀ p ∈ rules, law t (almKey 0 p.1) p.2.grp p.2.persist (was0 p.1) (cnt0 p.1) (on0 p.2) (val0 p.1 p.2)) ∧
      (∀ p ∈ pairs, law t (almKey 1 p.1) p.2.grp p.2.persist (was1 p.1) (cnt1 p.1) (on1 p.2) (val1 p.1 p.2)) ∧
      (∀ i ∈ newR, (∀ p ∈ rules, p.1 ≠ i) → t.angCnt (almKey 0 i) = 0 ∧ mget t.alm.act (almKey 0 i) = none) ∧
      (∀ i ∈ newP, (∀ p ∈ pairs, p.1 ≠ i) → t.angCnt (almKey 1 i) = 0 ∧ mget t.alm.act (almKey 1 i) = none) ∧
      (∀ k, (∀ p ∈ rules, k ≠ almKey 0 p.1) → (∀ p ∈ pairs, k ≠ almKey 1 p.1) → (∀ i ∈ newR, k ≠ almKey 0 i) → (∀ i ∈ newP, k ≠ almKey 1 i) →
        t.angCnt k = s.angCnt k ∧ mget t.alm.act k = mget s.alm.act k) ∧
      t.get F.ANG_CNT_MISS_COUNT = (s.get F.ANG_CNT_MISS_COUNT + (rules.filter fun p => on0 p.2 && (val0 p.1 p.2).isNone).length +
        (pairs.filter fun p => on1 p.2 && (val1 p.1 p.2).isNone).length) % 2 ^ 32 ∧
      t.get F.ANG_CNT_RAISE_COUNT = (s.get F.ANG_CNT_RAISE_COUNT +
        (rules.filter fun p => (was0 p.1).isNone && (mget t.alm.act (almKey 0 p.1)).isSome).length +
        (pairs.filter fun p => (was1 p.1).isNone && (mget t.alm.act (almKey 1 p.1)).isSome).length) % 2 ^ 32 ∧
      t.get F.ANG_CNT_CLEAR_COUNT = (s.get F.ANG_CNT_CLEAR_COUNT + (newR.filter fun i => (mget s.alm.act (almKey 0 i)).isSome).length +
        (newP.filter fun i => (mget s.alm.act (almKey 1 i)).isSome).length +
        (rules.filter fun p => (was0 p.1).isSome && (mget t.alm.act (almKey 0 p.1)).isNone).length +
        (pairs.filter fun p => (was1 p.1).isSome && (mget t.alm.act (almKey 1 p.1)).isNone).length) % 2 ^ 32 ∧
      t.get F.ANG_RUNMAX_CLK = max (s.get F.ANG_RUNMAX_CLK) (min ((s.tim.now - d.releasedAt) * 5 / 3) 16777215) ∧
      t.get F.SET_SKIP_COUNT = (s.get F.SET_SKIP_COUNT + old.length) % 2 ^ 32
    (rules.map fun p => p.1).Nodup → (pairs.map fun p => p.1).Nodup → (∀ p ∈ rules, p.1 < 2 ^ 20 ∧ p.2.persist ≠ 0) → (∀ p ∈ pairs, p.2.persist ≠ 0) →
    (∀ i ∈ newR, i < 2 ^ 20) →
    ∃ t, exec .angEngineRun s = .next t ∧ post t ∧ t.pending = s.pending ∧ t.tim = s.tim ∧ t.aln = s.aln ∧ t.ing = s.ing ∧ t.isl = s.isl ∧ t.osc = s.osc ∧
      t.cmd = s.cmd ∧
      t.sched = { s.sched with pend := t.sched.pend, skipped := t.sched.skipped, skipAt := t.sched.skipAt, feed := t.sched.feed } ∧
      t.pendOf 1 = s.pendOf 1 ∧ t.pendOf 2 = s.pendOf 2 ∧ (s.flag F.ANG_NET_CFG_EN = false →
        Frame [.sched, .ang, .alm, .ecc] (regsIn [R.ANG_CNT_RAISE, R.ANG_CNT_CLEAR, R.ANG_CNT_MISS, R.ANG_CNT_TRUNC, R.ANG_RUNMAX, R.SET_SKIP]) s t ∧
          t.alm.quiet = { s.alm.quiet with act := t.alm.act })) ∧
  (∀ s : State, (∀ o ∈ s.pendOf 0, s.tooOld 0 o = true) → Leads .angEngineRun s [.sched] (regsIn [R.SET_SKIP]) fun u =>
    u.pendOf 0 = [] ∧ u.get F.SET_SKIP_COUNT = (s.get F.SET_SKIP_COUNT + (s.pendOf 0).length) % 2 ^ 32)

/-- LIMITS_LOAD and OSC_SIGNALS with valid parameters and every entry in range are answered ST_OK and write each entry to the shadow table
(OSC_SIGNALS' signals only if at most 64 end up tracked, else ST_NO_RESOURCE). ANGLE_PAIRS_LOAD and TOPO_LOAD, while fewer than four
commands are in flight and none of their kind is, write up to 1024 entries in their first step, then end, or are answered ST_STEPPING and go
on at the entry reached. With an entry out of range each is answered ST_BAD_PARAM with its index, with a poisoned or late host read
ST_POISON or ST_TIMEOUT, with wrong parameters the status of the first check that fails; then nothing changes. PARTITION_EXPECT with MODE 0
takes the host's image if it is in range, with MODE 1 the reported partition if it has at most 127 islands, else ST_NO_RESOURCE. OSC_BANDS
with MODE 0 or 1 puts its range into the shadow, with MODE 2 the host's centres if each is in range and they rise. The tables in effect
stay. EV_ISL_NODE_LOST reports a node absent for ISL_LOST.N runs once, with source 45; otherwise nothing happens. (R166, R195, R197, R202,
R209, R214, R229, R412, R416, R417) -/
def Obligations.TablesAreLoadedWhole : Prop :=
  let fails (c : Instr) (s : State) (r : Fn) (b : List Byte) (st : Nat) (res : List Byte) : Prop := Answers c s r b st res [] [] fun _ => True
  let steps (c : Instr) (s : State) (r : Fn) (b : List Byte) (op n : Nat) (ps : List Part) (P : State → Prop) : Prop :=
    ∃ t, exec c s = .next t ∧ P t ∧
      (n ≤ 1024 → Answered r b St.ok 1 [] s t ∧ t.cmd = { (s.popHead r).cmd with late := t.cmd.late }) ∧
      (1024 < n → Answered r b St.stepping 1 [] s t ∧ pkOp b = op ∧
        t.cmd = { (s.popHead r).cmd with fly := s.cmd.fly ++ [⟨r, b, 1, false, false, [1024], none⟩], late := t.cmd.late }) ∧
      Frame ([.cmd, .out, .ecc] ++ ps) (regsIn [ringReg r R.RPL_PROD, R.CMD_INFLIGHT, ringReg .pf1 R.CMD_INFLIGHT]) s t
  (∀ (s : State) (r : Fn) (b : List Byte) (h : HostRead), Starts s r 0x29 24 false b →
    let bad := firstFail (loadParams b 1024 32768 ++ [(s.cmd.prep.isSome, St.busy)])
    (∀ st, bad = some st → fails (.limitsLoad r h) s r b st []) ∧
    (bad = none → fails (.limitsLoad r .poison) s r b St.poison [] ∧ fails (.limitsLoad r .timeout) s r b St.timeout [] ∧
      ∀ buf, (∀ i, firstBad limitOk (entriesOf 32 (le b 18 2) buf) = some i → fails (.limitsLoad r (.data buf)) s r b St.badParam (toLe 2 (le b 16 2 + i))) ∧
        (firstBad limitOk (entriesOf 32 (le b 18 2) buf) = none →
          Answers (.limitsLoad r (.data buf)) s r b St.ok [] [.ang, .ecc] [] fun t => t.ang = { s.ang with limits := t.ang.limits } ∧
            t.ang.limits.eff = s.ang.limits.eff ∧ t.ang.limits.due = s.ang.limits.due ∧
            (∀ i, i < le b 18 2 → mget t.ang.limits.shadow (le b 16 2 + i) = some (limitOf (bytesAt buf (32 * i) 32))) ∧
            (∀ k, k < le b 16 2 ∨ le b 16 2 + le b 18 2 ≤ k → mget t.ang.limits.shadow k = mget s.ang.limits.shadow k)))) ∧
  (∀ (s : State) (r : Fn) (b : List Byte) (h : HostRead), Starts s r 0x28 24 false b → s.cmd.fly.length < 4 →
    let bad := firstFail (loadParams b 16384 16384 ++ [(s.cmd.prep.isSome, St.busy), (s.cmd.fly.any fun f => pkOp f.bytes == 0x28, St.busy)])
    let n := min 1024 (le b 18 2)
    (∀ st, bad = some st → fails (.anglePairsLoad r h) s r b st []) ∧
    (bad = none → fails (.anglePairsLoad r .poison) s r b St.poison [] ∧ fails (.anglePairsLoad r .timeout) s r b St.timeout [] ∧
      ∀ buf, (∀ i, firstBad pairOk (entriesOf 32 n buf) = some i → fails (.anglePairsLoad r (.data buf)) s r b St.badParam (toLe 2 (le b 16 2 + i))) ∧
        (firstBad pairOk (entriesOf 32 n buf) = none → steps (.anglePairsLoad r (.data buf)) s r b 0x28 (le b 18 2) [.ang] fun t =>
          t.ang = { s.ang with pairs := t.ang.pairs } ∧ t.ang.pairs.eff = s.ang.pairs.eff ∧ t.ang.pairs.due = s.ang.pairs.due ∧
            (∀ i, i < n → mget t.ang.pairs.shadow (le b 16 2 + i) = some (pairOfBytes (bytesAt buf (32 * i) 32))) ∧
            (∀ k, k < le b 16 2 ∨ le b 16 2 + n ≤ k → mget t.ang.pairs.shadow k = mget s.ang.pairs.shadow k)))) ∧
  (∀ (s : State) (r : Fn) (b : List Byte) (h : HostRead), Starts s r 0x30 24 false b → s.cmd.fly.length < 4 →
    let bad := (topoLoadCheck b s).or (if s.cmd.fly.any fun f => pkOp f.bytes == 0x30 then some St.busy else none)
    let n := min 1024 (le b 18 2)
    (∀ st, bad = some st → fails (.topoLoad r h) s r b st []) ∧
    (bad = none → fails (.topoLoad r .poison) s r b St.poison [] ∧ fails (.topoLoad r .timeout) s r b St.timeout [] ∧
      ∀ buf, (le b 20 1 = 0 →
          (∀ i, firstBad nodeOk (entriesOf 8 n buf) = some i → fails (.topoLoad r (.data buf)) s r b St.badParam (toLe 2 (le b 16 2 + i))) ∧
          (firstBad nodeOk (entriesOf 8 n buf) = none → steps (.topoLoad r (.data buf)) s r b 0x30 (le b 18 2) [.isl] fun t =>
            t.isl = { s.isl with nodes := t.isl.nodes } ∧ t.isl.nodes.eff = s.isl.nodes.eff ∧ t.isl.nodes.due = s.isl.nodes.due ∧
              (∀ i, i < n → mget t.isl.nodes.shadow (le b 16 2 + i) = some (nodeOf (bytesAt buf (8 * i) 8))) ∧
              (∀ k, k < le b 16 2 ∨ le b 16 2 + n ≤ k → mget t.isl.nodes.shadow k = mget s.isl.nodes.shadow k))) ∧
        (le b 20 1 = 1 →
          (∀ i, firstBad edgeOk (entriesOf 24 n buf) = some i → fails (.topoLoad r (.data buf)) s r b St.badParam (toLe 2 (le b 16 2 + i))) ∧
          (firstBad edgeOk (entriesOf 24 n buf) = none → steps (.topoLoad r (.data buf)) s r b 0x30 (le b 18 2) [.isl] fun t =>
            t.isl = { s.isl with edges := t.isl.edges } ∧ t.isl.edges.eff = s.isl.edges.eff ∧ t.isl.edges.due = s.isl.edges.due ∧
              (∀ i, i < n → mget t.isl.edges.shadow (le b 16 2 + i) = some (edgeOf (bytesAt buf (24 * i) 24))) ∧
              (∀ k, k < le b 16 2 ∨ le b 16 2 + n ≤ k → mget t.isl.edges.shadow k = mget s.isl.edges.shadow k))))) ∧
  (∀ (s : State) (r : Fn) (b : List Byte) (h : HostRead), Starts s r 0x31 24 false b →
    let bad := firstFail [(decide (1 < le b 16 1), St.badParam), (le b 16 1 == 0 && le b 8 8 % 8 != 0, St.badParam),
      (le b 16 1 == 1 && le b 8 8 != 0, St.badParam), (!zeroAt b 17 7, St.badParam), (le b 16 1 == 1 && !s.flag F.ISL_CTRL_EN, St.state),
      (s.cmd.prep.isSome, St.busy), (le b 16 1 == 1 && decide (127 < (islandIds s.isl.part).length), St.noResource)]
    (∀ st, bad = some st → fails (.partitionExpect r h) s r b st []) ∧
    (bad = none → le b 16 1 = 0 → fails (.partitionExpect r .poison) s r b St.poison [] ∧ fails (.partitionExpect r .timeout) s r b St.timeout [] ∧
      ∀ buf, (expectOk buf = false → fails (.partitionExpect r (.data buf)) s r b St.badParam []) ∧
        (expectOk buf = true → Answers (.partitionExpect r (.data buf)) s r b St.ok [] [.isl, .ecc] [] fun t =>
          t.isl = { s.isl with expect := s.isl.expect.put 0 (expectOf buf) })) ∧
    (bad = none → le b 16 1 = 1 → Answers (.partitionExpect r h) s r b St.ok [] [.isl, .ecc] [] fun t =>
      t.isl = { s.isl with expect := s.isl.expect.put 0 (expectFrom (mgetD s.isl.expect.shadow 0 Expect.reset) s.isl.part) })) ∧
  (∀ (s : State) (v : Nat),
    let due := s.get F.ISL_LOST_N != 0 && decide (s.get F.ISL_LOST_N ≤ mgetD s.isl.absent v 0) && !smem s.isl.lost v
    (due = true → Does (.evIslNodeLost v) s [.isl] noRegs fun t => t.isl = { s.isl with lost := sadd s.isl.lost v } ∧ t.pends 45) ∧
    (due = false → Leads (.evIslNodeLost v) s [] noRegs fun u => u = s)) ∧
  (∀ (s : State) (r : Fn) (b : List Byte) (h : HostRead), Starts s r 0x38 24 false b →
    let n := if le b 20 1 = 1 then 256 else 1024
    let bad := firstFail [(le b 8 8 % 8 != 0, St.badParam), (le b 18 2 == 0, St.badLength), (decide (1 < le b 20 1), St.badParam),
      (decide (n < le b 18 2) || decide (n < le b 16 2 + le b 18 2), St.badParam), (!zeroAt b 21 3, St.badParam), (s.cmd.prep.isSome, St.busy)]
    (∀ st, bad = some st → fails (.oscSignals r h) s r b st []) ∧
    (bad = none → fails (.oscSignals r .poison) s r b St.poison [] ∧ fails (.oscSignals r .timeout) s r b St.timeout [] ∧
      ∀ buf, (le b 20 1 = 0 →
          let sigs := (entriesOf 16 (le b 18 2) buf).zipIdx.foldl (fun (t : Tbl OscSig) e => t.put (le b 16 2 + e.2) (oscSigOf e.1)) s.osc.sigs
          (∀ i, firstBad oscSigOk (entriesOf 16 (le b 18 2) buf) = some i → fails (.oscSignals r (.data buf)) s r b St.badParam (toLe 2 (le b 16 2 + i))) ∧
          (firstBad oscSigOk (entriesOf 16 (le b 18 2) buf) = none → 64 < (sigs.shadow.filter fun q => q.2.track).length →
            fails (.oscSignals r (.data buf)) s r b St.noResource []) ∧
          (firstBad oscSigOk (entriesOf 16 (le b 18 2) buf) = none → (sigs.shadow.filter fun q => q.2.track).length ≤ 64 →
            Answers (.oscSignals r (.data buf)) s r b St.ok [] [.osc, .ecc] [] fun t => t.osc = { s.osc with sigs := t.osc.sigs } ∧
              t.osc.sigs.eff = s.osc.sigs.eff ∧ t.osc.sigs.due = s.osc.sigs.due ∧
              (∀ i, i < le b 18 2 → mget t.osc.sigs.shadow (le b 16 2 + i) = some (oscSigOf (bytesAt buf (16 * i) 16))) ∧
              ∀ k, k < le b 16 2 ∨ le b 16 2 + le b 18 2 ≤ k → mget t.osc.sigs.shadow k = mget s.osc.sigs.shadow k)) ∧
        (le b 20 1 = 1 →
          (∀ i, firstBad oscRuleOk (entriesOf 32 (le b 18 2) buf) = some i → fails (.oscSignals r (.data buf)) s r b St.badParam (toLe 2 (le b 16 2 + i))) ∧
          (firstBad oscRuleOk (entriesOf 32 (le b 18 2) buf) = none →
            Answers (.oscSignals r (.data buf)) s r b St.ok [] [.osc, .ecc] [] fun t => t.osc = { s.osc with rules := t.osc.rules } ∧
              t.osc.rules.eff = s.osc.rules.eff ∧ t.osc.rules.due = s.osc.rules.due ∧
              (∀ i, i < le b 18 2 → mget t.osc.rules.shadow (le b 16 2 + i) = some (oscRuleOf (bytesAt buf (32 * i) 32))) ∧
              ∀ k, k < le b 16 2 ∨ le b 16 2 + le b 18 2 ≤ k → mget t.osc.rules.shadow k = mget s.osc.rules.shadow k)))) ∧
  (∀ (s : State) (r : Fn) (b : List Byte) (h : HostRead), Starts s r 0x39 32 false b →
    let mode := le b 8 1
    let top := f32Round (rateOf s.aln.cadShadow) 4
    let bad := firstFail [(decide (2 < mode), St.badParam), (decide (1 < le b 9 1), St.badParam), (!zeroAt b 10 2, St.badParam),
      (if mode == 2 then le b 12 4 != 0 else !f32Le f32Cent (le b 12 4) || decide (fu (le b 16 4) < 2 * fu (le b 12 4)), St.badParam),
      (if mode == 2 then le b 16 4 != 0 else !f32Le (le b 16 4) top || !f32Le 0 (le b 16 4), St.badParam), (!zeroAt b 20 4, St.badParam),
      (if mode == 2 then le b 24 8 % 8 != 0 else le b 24 8 != 0, St.badParam), (s.cmd.prep.isSome, St.busy)]
    let put (x : OscPlace) (t : State) : Prop := t.osc = { s.osc with place := s.osc.place.put 0 x }
    (∀ st, bad = some st → fails (.oscBands r h) s r b st []) ∧
    (bad = none → mode ≠ 2 → Answers (.oscBands r h) s r b St.ok [] [.osc, .ecc] [] (put ⟨mode, bit (le b 9 1) 0, le b 12 4, le b 16 4, []⟩)) ∧
    (bad = none → mode = 2 → fails (.oscBands r .poison) s r b St.poison [] ∧ fails (.oscBands r .timeout) s r b St.timeout [] ∧
      ∀ buf, let es := entriesOf 8 64 buf
        let cs := es.map fun e => (le e 0 4, le e 4 1 == 1)
        let ok := es.all (fun e => f32Le f32Cent (le e 0 4) && f32Le (le e 0 4) top && decide (le e 4 1 ≤ 1) && zeroAt e 5 3) && risingF (cs.map Prod.fst)
        (ok = false → fails (.oscBands r (.data buf)) s r b St.badParam []) ∧
        (ok = true → Answers (.oscBands r (.data buf)) s r b St.ok [] [.osc, .ecc] [] (put ⟨2, bit (le b 9 1) 0, 0, 0, cs⟩))))

/-- ALARM_FRAME_REPEAT takes the copy due first at its time, and while copies remain the next is due 1 ms later. While frames are off or
inhibited nothing is sent; else from each of its ports that is resolved (a PRP pair once) the same datagram with its COPY number joins class
7, or is refused there and counted. With no copy due nothing happens. ALARM_DEST_RESOLVE stores the address of a unicast destination on a
selected port; where the firmware found none, or the port, the mode or the destination calls for none, what is held stays. ALM_PULSE_END
ends the pulse at its time. ALM_LATCH_CLEAR clears the latches written as 1 whose groups are all clear. EV_ANG_STALE sets STALE when no set
has been released for more than ANG_STALE ms and raises source 42; with the threshold 0, or STALE set, nothing happens. ALMINH_IN is taken
as it is; in a twin its change ends the alarm class that R381 no longer gives, its rise completes a relinquish under way and makes every pin
inactive. (R170, R172, R173, R178, R179, R381, R385) -/
def Obligations.AlarmCopiesDestinationsAndPins : Prop :=
  (∀ (s : State) (r : AlmRepeat), firstDue s.alm.repeats = some r →
    let reps := s.alm.repeats.erase r ++ (if r.copy < r.last then [{ r with due := r.due + ticksOfMs 1, copy := r.copy + 1 }] else [])
    let v := s.reach r.due
    let later : State := { v with alm := { v.alm with repeats := reps } }
    (s.flag F.ANG_NET_CFG_EN = false ∨ s.inhibited = true → Leads .alarmFrameRepeat s [.tim, .alm] noRegs fun u =>
      u = later ∧ u.tim.now = max s.tim.now r.due) ∧
    (s.flag F.ANG_NET_CFG_EN = true → s.inhibited = false →
      (∀ p mac, r.ports = [p] → s.almMac p = some mac →
        ∀ k f, k = udpPacket (portIp p (isV4 s.almDst)) s.almDst (s.get F.ANG_NET_CFG_UDP_PORT) (s.get F.ANG_NET_CFG_UDP_PORT) (s.almPayload r.copy r.seq r.words) →
          f = s.txBuild p 7 .port .plain none mac k.1 k.2 → s.prpOn p = false →
          (s.txRefused p f = false → Leads .alarmFrameRepeat s [.tim, .alm, .mac] noRegs fun u => u.tim.now = max s.tim.now r.due ∧ u.alm = later.alm ∧
            u.mac = { s.mac with ports := mput s.mac.ports p { s.port p with txq := (s.port p).txq ++ [f] } }) ∧
          (s.txRefused p f = true → Leads .alarmFrameRepeat s [.tim, .alm] (regsIn [0x2013C + 0x2000 * p]) fun u =>
            u.tim.now = max s.tim.now r.due ∧ u.alm = later.alm ∧ u.get (macCnt p 15) = (s.get (macCnt p 15) + 1) % 2 ^ 32)) ∧
      Leads .alarmFrameRepeat s [.tim, .alm, .mac] (regsIn (R.MAC_PRP_SEQ :: (List.range 5).map fun p => 0x2013C + 0x2000 * p)) fun u =>
        u.tim.now = max s.tim.now r.due ∧ u.alm = later.alm ∧
          u = (s.portsOnce r.ports).foldl (fun s p => match s.almMac p with
            | none => s
            | some mac =>
              let k := udpPacket (portIp p (isV4 s.almDst)) s.almDst (s.get F.ANG_NET_CFG_UDP_PORT) (s.get F.ANG_NET_CFG_UDP_PORT) (s.almPayload r.copy r.seq r.words)
              (s.send p 7 .port .plain none mac k.1 k.2).1) later)) ∧
  (∀ s : State, s.alm.repeats = [] → Leads .alarmFrameRepeat s [] noRegs fun u => u = s) ∧
  (∀ (s : State) (p : Fin 5) (mac : Option Nat),
    let mine := s.flag F.ANG_NET_CFG_EN && s.fwRuns && !s.flag F.ANG_NET_CFG_FIXED_MAC && !isMcast s.almDst && bit (s.get F.ANG_NET_CFG_PORTS) p
    (∀ m, mine = true → mac = some m → Leads (.alarmDestResolve p mac) s [.alm] noRegs fun u =>
      u.almMac p = some (m % 2 ^ 48) ∧ u.alm = { s.alm with macs := mput s.alm.macs p (m % 2 ^ 48) }) ∧
    (mine = false ∨ mac = none → Leads (.alarmDestResolve p mac) s [] noRegs fun u => u = s)) ∧
  (∀ (s : State) (n : Fin 8),
    (∀ at_, mget s.alm.pulse n = some at_ → Leads (.almPulseEnd n) s [.tim, .alm] noRegs fun u =>
      u.tim.now = max s.tim.now at_ ∧ u.alm = { (s.reach at_).alm with pulse := merase (s.reach at_).alm.pulse n } ∧ mget u.alm.pulse n = none) ∧
    (mget s.alm.pulse n = none → Leads (.almPulseEnd n) s [] noRegs fun u => u = s)) ∧
  (∀ (s : State) (a : Agent) (v : Dword), s.mayWrite a R.ANG_ALMCLR → Leads (.almLatchClear a v) s [.alm] (regsIn [R.ANG_ALMSTAT]) fun u =>
      u.alm = { s.alm with clrSince := Nat.lor s.alm.clrSince (bits v.toNat 7 0) } ∧
        (∀ n, n < 8 → u.flag ⟨R.ANG_ALMSTAT, 8 + n, 8 + n⟩ = (s.flag ⟨R.ANG_ALMSTAT, 8 + n, 8 + n⟩ && !(bit v.toNat n && !s.almRaw n))) ∧
        ∀ n, n < 32 → (n < 8 ∨ 16 ≤ n) → u.flag ⟨R.ANG_ALMSTAT, n, n⟩ = s.flag ⟨R.ANG_ALMSTAT, n, n⟩) ∧
  (∀ s : State,
    (s.get F.ANG_STALE_MS ≠ 0 → s.flag F.ANG_STAT_STALE = false → Does .evAngStale s [.tim] (regsIn [R.ANG_STAT]) fun t =>
      t.tim.now = max s.tim.now (s.aln.relTick + ticksOfMs (s.get F.ANG_STALE_MS) + 1) ∧ t.flag F.ANG_STAT_STALE = true ∧ t.pends 42) ∧
    (s.get F.ANG_STALE_MS = 0 ∨ s.flag F.ANG_STAT_STALE = true → Leads .evAngStale s [] noRegs fun u => u = s)) ∧
  (∀ (s : State) (level : Bool),
    (s.twin = false ∨ level = s.alm.inh → Leads (.alminhInChange level) s [.alm] noRegs fun u => u.alm = { s.alm with inh := level }) ∧
    (s.twin = true → level ≠ s.alm.inh → s.twn.relinq = none ∨ level = false → Leads (.alminhInChange level) s [.alm] (regsIn [R.TWN_STAT]) fun u =>
      u.alm = { s.alm with inh := level } ∧ u.get F.TWN_STAT_ROLE = s.get F.TWN_STAT_ROLE ∧
        u.flag F.TWN_STAT_AL = (s.flag F.TWN_STAT_AL && ({ s with alm := { s.alm with inh := level } } : State).alWanted)) ∧
    (s.twin = true → s.alm.inh = false → level = true → s.twn.relinq.isSome = true → ∃ u : State, exec (.alminhInChange level) s = .next u.drain ∧
      u.alm = { s.alm with inh := true } ∧ u.twn.relinq = none ∧ u.flag F.TWN_STAT_AL = false ∧ u.get F.TWN_STAT_ROLE = s.relinquishTo) ∧
    (level = true → s.twin = true → ∃ t : State, exec (.alminhInChange level) s = .next t ∧ ∀ n, n < 8 → bit (t.get F.ANG_ALMSTAT_OUT) n = false))

/-- ISL_ENGINE_RUN skips the sets too old and takes the next, after the tables due for its epoch. The nodes' values enter the histories behind
the positions of skipped sets. Each enabled edge is HELD or BROKEN by the first row of R187 that applies, from its former state, its breaker
and the coherency test; a poisoned entry's stays; unknown evaluations count in UNKNOWN. The components of the held edges are the candidate.
If a shadowed item was written for the epoch the candidate is adopted without an event. Else, if it equals the reported partition, the
pending count is cleared; if it differs for PERSIST equal runs in a row it is adopted, EVNO counts and source 44 is raised; if it has
differed for MAXWAIT runs it is adopted too, counted in UNSETTLED with source 45; otherwise the reported partition and EVNO stay. PCNT
counts the equal runs to 63. RUNS counts, RUNMAX takes a longer interval, source 43 is raised and the sets leave the pending list. With no
alarm frames on, nothing else changes but island alarms, ISL_ROUNDMAX and what the cascade builder is told; with them on, frames may be sent
too. With no set in time the engine only skips. (R185, R186, R187, R189, R191, R192, R193, R194, R202) -/
def Obligations.IslandRunAdoptsAPersistentPartition : Prop :=
  (∀ (s v w u : State) (d : SetDesc) (old rest : List SetDesc) (D pend diff per maxw : Nat) (used : List (Nat × Node))
    (vals : List (Nat × Option NodeVal)) (edges : List (Nat × Edge)) (c : List (Nat × Nat)) (reconf : Bool),
    s.pendOf 1 = old ++ d :: rest → (∀ o ∈ old, s.tooOld 1 o = true) → s.tooOld 1 d = false →
    v = (old.foldl (fun s o => s.skipSet 1 false o) s).setPend 1 rest → w = (v.islBoundary d.epoch).1.islLost.1 → reconf = (v.islBoundary d.epoch).2 →
    (w.isl.edges.eff.map fun p => p.1).Nodup → used = (w.isl.nodes.eff.filter fun p => p.2.kind != 0) →
    vals = ((used.filter fun p => p.2.kind == 1).map fun p => (p.1, w.nodeVal d p.1 p.2)) →
    u = w.histPush (v.isl.gapN + d.lead + d.gap) vals → D = s.egetAt d.epoch F.ISL_DRIFT_D → edges = (w.isl.edges.eff.filter fun p => p.2.enable) →
    let was (k : Nat) : Bool := (mgetD w.isl.est k EdgeSt.start).held
    let kind (n : Nat) : Nat := ((mget w.isl.nodes.eff n).map fun x => x.kind).getD 0
    let brk (e : Edge) : Option Bool := (w.breaker d e).map Prod.fst
    let row (k : Nat) (e : Edge) : Bool :=
      if w.cramPoisoned 4 k then was k
      else if e.gate && brk e == some true then false
      else if kind e.a != 1 || kind e.b != 1 then (if !e.brk then true else ((brk e).map fun x => !x).getD (was k))
      else match u.coherency vals D e with
        | none => was k
        | some t => if was k then t.1 else t.2.1
    c = (components ((edges.filter fun p => row p.1 p.2).map fun p => (p.2.a, p.2.b)) (used.length + 2) 0 (used.map fun p => (p.1, p.1))).1 →
    pend = (if s.isl.cand = some c then s.isl.pend + 1 else 1) → diff = s.isl.diff + 1 → per = s.egetAt d.epoch F.ISL_PERSIST_PERSIST →
    maxw = s.egetAt d.epoch F.ISL_PERSIST_MAXWAIT →
    let evno (t : State) (n : Nat) : Prop := t.get F.ISL_EVNO_COUNT = (s.get F.ISL_EVNO_COUNT + n) % 2 ^ 32
    let uns (t : State) (n : Nat) : Prop := t.get F.ISL_CNT_UNSETTLED_COUNT = (s.get F.ISL_CNT_UNSETTLED_COUNT + n) % 2 ^ 32
    ∃ t, exec .islEngineRun s = .next t ∧ t.pends 43 ∧ t.pendOf 1 = rest ∧ t.pendOf 0 = s.pendOf 0 ∧ t.pendOf 2 = s.pendOf 2 ∧ t.isl.cand = some c ∧
      t.get F.ISL_RUNS_COUNT = (s.get F.ISL_RUNS_COUNT + 1) % 2 ^ 32 ∧
      t.get F.ISL_RUNMAX_CLK = max (s.get F.ISL_RUNMAX_CLK) (min ((s.tim.now - d.releasedAt) * 5 / 3) 16777215) ∧
      t.get (F.SET_SKIP_COUNT.at 4) = (s.get (F.SET_SKIP_COUNT.at 4) + old.length) % 2 ^ 32 ∧
      t.get F.ISL_CNT_UNKNOWN_COUNT = (s.get F.ISL_CNT_UNKNOWN_COUNT + (edges.filter fun p => (u.edgeStep d vals D p.1 p.2).2.1).length) % 2 ^ 32 ∧
      (∀ p ∈ edges, mget t.isl.est p.1 = some (u.edgeStep d vals D p.1 p.2).1 ∧ (u.edgeStep d vals D p.1 p.2).1.held = row p.1 p.2) ∧
      t.isl.nodes = w.isl.nodes ∧ t.isl.edges = w.isl.edges ∧ t.isl.expect = w.isl.expect ∧ t.isl.epoch = d.epoch ∧ t.isl.hist = u.isl.hist ∧
      t.isl.absent = u.isl.absent ∧ t.isl.gapN = 0 ∧ t.isl.pcnt = (if s.isl.cand = some c then min (s.isl.pcnt + 1) 63 else 1) ∧
      (reconf = true → t.isl.part = c ∧ t.isl.pend = 0 ∧ t.isl.diff = 0 ∧ evno t 0 ∧ uns t 0) ∧
      (reconf = false → c = s.isl.part → t.isl.part = c ∧ t.isl.pend = 0 ∧ t.isl.diff = 0 ∧ evno t 0 ∧ uns t 0) ∧
      (reconf = false → c ≠ s.isl.part → per ≤ pend → t.isl.part = c ∧ t.isl.pend = 0 ∧ t.isl.diff = 0 ∧ t.pends 44 ∧ evno t 1 ∧ uns t 0) ∧
      (reconf = false → c ≠ s.isl.part → pend < per → maxw ≠ 0 → maxw ≤ diff → t.isl.part = c ∧ t.isl.pend = 0 ∧ t.isl.diff = 0 ∧ t.pends 44 ∧ t.pends 45 ∧
        evno t 1 ∧ uns t 1) ∧
      (reconf = false → c ≠ s.isl.part → pend < per → (maxw = 0 ∨ diff < maxw) → t.isl.part = s.isl.part ∧ t.isl.pend = pend ∧ t.isl.diff = diff ∧
        evno t 0 ∧ uns t 0) ∧
      t.pending = s.pending ∧ t.tim = s.tim ∧ t.aln = s.aln ∧ t.ing = s.ing ∧ t.ang = s.ang ∧ t.osc = s.osc ∧ t.cmd = s.cmd ∧
      t.sched = { s.sched with pend := t.sched.pend, skipped := t.sched.skipped, skipAt := t.sched.skipAt, feed := t.sched.feed } ∧
      (s.flag F.ANG_NET_CFG_EN = false → Frame [.sched, .isl, .alm, .ecc] (regsIn [R.ISL_EVNO, R.ISL_CNT_UNKNOWN, R.ISL_CNT_UNSETTLED, R.ISL_ROUNDMAX,
          R.ISL_RUNS, R.ISL_RUNMAX, R.SET_SKIP + 4]) s t ∧ t.alm.quiet = { s.alm.quiet with act := t.alm.act } ∧
        ∀ k, k / 2 ^ 20 ≠ 2 → mget t.alm.act k = mget s.alm.act k)) ∧
  (∀ s : State, (∀ o ∈ s.pendOf 1, s.tooOld 1 o = true) → Leads .islEngineRun s [.sched, .isl] (regsIn [R.SET_SKIP + 4]) fun u =>
    u.pendOf 1 = [] ∧ u.get (F.SET_SKIP_COUNT.at 4) = (s.get (F.SET_SKIP_COUNT.at 4) + (s.pendOf 1).length) % 2 ^ 32 ∧
      u.isl = { s.isl with gapN := s.isl.gapN + ((s.pendOf 1).map fun o => o.lead + o.gap + 1).sum })

/-- OSC_ENGINE_RUN skips the sets too old and takes the next. Signals and slots whose own state was lost start anew, and the configuration due
for the set's epoch is taken up. At a new cadence, or after a gap of more than FILLMAX instants, every signal restarts; a shorter gap is
filled in each started signal by its last value. Then each enabled signal that has a sample enters it; a started one that has none holds its
last value, counted in FILL; one that has neither starts nothing. With nothing due, nothing lost, the cadence the same and no gap, signals,
rules, centres and placement are as before. RUNS counts, the set's instant is kept, the runs towards a re-centring pass count, RUNMAX takes
a longer interval, source 46 is raised and the sets leave the pending list. With no alarm frames on, nothing else changes but the engine's
own state and alarms and what the cascade builder is told; with them on, frames may be sent too. With no set in time the engine only skips.
(R206, R207, R208, R222, R223, R224, R229) -/
def Obligations.OscillationRunSamplesEverySignal : Prop :=
  (∀ (s u w x : State) (d : SetDesc) (old rest : List SetDesc) (g fc : Nat) (b : OscAlarms × Bool × Bool) (first big : Bool) (v : OscEnv),
    s.pendOf 2 = old ++ d :: rest → (∀ o ∈ old, s.tooOld 2 o = true) → s.tooOld 2 d = false →
    u = (old.foldl (fun s o => s.skipSet 2 false o) s).setPend 2 rest → fc = rateOf d.rate →
    first = (((s.osc.last.map fun l => l.2.2).getD Aln.reset.cad) != d.rate) →
    g = ((s.osc.last.map fun l => (d.soc * fc + d.k) - ((nearest fc l.1 l.2.1).1 * fc + (nearest fc l.1 l.2.1).2.1) - 1).getD 0) →
    big = (!first && decide (s.get F.OSC_GAP_FILLMAX < g)) →
    w = ((u.modOsc fun x => { x with last := some (d.soc, d.ns, d.rate) }).inc F.OSC_RUNS_COUNT).oscLost.1 →
    b = OscAlarms.boundary ⟨w, []⟩ d.epoch (s.transFlags d.tq) →
    x = (let y := if first then (b.1.restart 3 (s.transFlags d.tq)).s.oscFallback fc else if big then (b.1.restart 4 (s.transFlags d.tq)).s else b.1.s
      if y.osc.centres.isEmpty then y.modOsc fun o => { o with centres := (List.range 64).map y.oscPlace.nominal } else y) →
    (x.osc.sigs.eff.map fun p => p.1).Nodup → v = x.oscEnv d.epoch fc →
    let was (i : Nat) : Option OscRun := (mget x.osc.run i).map (v.gap (if first || big then 0 else g))
    ∃ t, exec .oscEngineRun s = .next t ∧ t.pends 46 ∧ t.pendOf 2 = rest ∧ t.pendOf 0 = s.pendOf 0 ∧ t.pendOf 1 = s.pendOf 1 ∧
      t.get F.OSC_RUNS_COUNT = (s.get F.OSC_RUNS_COUNT + 1) % 2 ^ 32 ∧ t.osc.last = some (d.soc, d.ns, d.rate) ∧ t.osc.epoch = d.epoch ∧
      t.osc.passRuns = x.osc.passRuns + 1 ∧ t.osc.sigs = x.osc.sigs ∧ t.osc.rules = x.osc.rules ∧ t.osc.place = x.osc.place ∧ t.osc.centres = x.osc.centres ∧
      t.get F.OSC_RUNMAX_CLK = max (s.get F.OSC_RUNMAX_CLK) (min ((s.tim.now - d.releasedAt) * 5 / 3) 16777215) ∧
      t.get (F.SET_SKIP_COUNT.at 8) = (s.get (F.SET_SKIP_COUNT.at 8) + old.length) % 2 ^ 32 ∧
      t.get F.OSC_CNT_FILL_COUNT = (s.get F.OSC_CNT_FILL_COUNT + (x.oscEnabled.filter fun p =>
        (x.oscSample d p.1 p.2).isNone && (mget x.osc.run p.1).isSome).length) % 2 ^ 32 ∧
      (∀ p ∈ x.oscEnabled,
        (∀ a, x.oscSample d p.1 p.2 = some a → mget t.osc.run p.1 = some (v.enter p.2.kind a (was p.1))) ∧
        (∀ o, x.oscSample d p.1 p.2 = none → was p.1 = some o → mget t.osc.run p.1 = some (v.heldStep o)) ∧
        (x.oscSample d p.1 p.2 = none → was p.1 = none → mget t.osc.run p.1 = none)) ∧
      (first = true ∨ big = true → x.osc.run = [] ∧ t.pends 47) ∧
      (first = false → big = false → s.osc.sigs.due = [] → s.osc.rules.due = [] → s.osc.place.due = [] → s.osc.epoch = d.epoch → s.ecc.cramPoison = [] →
        s.osc.centres ≠ [] → x.osc.run = s.osc.run ∧ x.osc.sigs = s.osc.sigs ∧ x.osc.rules = s.osc.rules ∧ x.osc.place = s.osc.place ∧
          x.osc.centres = s.osc.centres ∧ x.osc.passRuns = s.osc.passRuns) ∧
      t.pending = s.pending ∧ t.tim = s.tim ∧ t.aln = s.aln ∧ t.ing = s.ing ∧ t.ang = s.ang ∧ t.isl = s.isl ∧ t.cmd = s.cmd ∧
      t.sched = { s.sched with pend := t.sched.pend, skipped := t.sched.skipped, skipAt := t.sched.skipAt, feed := t.sched.feed } ∧
      (s.flag F.ANG_NET_CFG_EN = false → Frame [.sched, .osc, .alm, .ecc] (regsIn [R.OSC_RUNS, R.OSC_CNT_FILL, R.OSC_CNT_RAISE, R.OSC_CNT_CLEAR,
          R.OSC_CNT_TRUNC, R.OSC_CNT_RESTART, R.OSC_RUNMAX, R.SET_SKIP + 8]) s t ∧ t.alm.quiet = { s.alm.quiet with act := t.alm.act } ∧
        ∀ k, k / 2 ^ 20 ≠ 3 → mget t.alm.act k = mget s.alm.act k)) ∧
  (∀ s : State, (∀ o ∈ s.pendOf 2, s.tooOld 2 o = true) → Leads .oscEngineRun s [.sched] (regsIn [R.SET_SKIP + 8]) fun u =>
    u.pendOf 2 = [] ∧ u.get (F.SET_SKIP_COUNT.at 8) = (s.get (F.SET_SKIP_COUNT.at 8) + (s.pendOf 2).length) % 2 ^ 32)

/-- BAND_RECENTRE_PASS, due after PERIOD runs with RECENTRE_EN, restarts the count of runs and moves each band: a fixed one not at all, with
LIMIT 0 to its nominal centre, else not at all or by at most STEP / 256 of its spacing, staying within LIMIT / 256 of the nominal centre; no
signal's state changes. OSC_SIGNAL_RESTART clears a signal missing for SIGGAP runs and counts in RESTART. EV_OSC_MODE_NEW, with tracking on,
puts the highest seedable peak into the lowest free slot below MODEMAX with the next mode ID, at the band's centre, with neither estimate
valid. EV_OSC_MODE_LOST frees a slot without a peak for DROP periods, one nearer to an older slot than half its band's spacing, or one while
tracking is off; its class is kept for the clears of its alarms. EV_OSC_CLASS gives a slot the class whose condition has lasted CLS_PER
periods. Each but the pass raises source 47. Where its cause does not hold, each leaves all as it is. What a fit estimates is a free value
(log entry 50). (R206, R212, R213, R215, R217) -/
def Obligations.ModesAreSeededTrackedAndReleased : Prop :=
  (∀ s : State,
    let due := s.flag F.OSC_CTRL_RECENTRE_EN && decide (s.egetAt s.osc.epoch F.OSC_RECENTRE_PERIOD ≤ s.osc.passRuns) && s.osc.passRuns != 0
    let lim := s.egetAt s.osc.epoch F.OSC_RECENTRE_LIMIT
    (due = true → Does .bandRecentrePass s [.osc] noRegs fun t => t.osc = { s.osc with
        centres := t.osc.centres, passRuns := 0
        moved := s.osc.moved || (List.range 64).any fun b => t.osc.centres[b]? != some (s.oscCentre b) } ∧
      t.osc.centres.length = 64 ∧ ∀ b, b < 64 → ∃ x, t.osc.centres[b]? = some x ∧
        (s.oscPlace.fix b = true → x = s.oscCentre b) ∧ (s.oscPlace.fix b = false → lim = 0 → x = s.oscPlace.nominal b) ∧
        (s.oscPlace.fix b = false → lim ≠ 0 → x = s.oscCentre b ∨
          s.oscPlace.within b x (s.oscCentre b) 256 (s.egetAt s.osc.epoch F.OSC_RECENTRE_STEP) true = true ∧
            s.oscPlace.within b x (s.oscPlace.nominal b) 256 lim true = true)) ∧
    (due = false → Leads .bandRecentrePass s [] noRegs fun u => u = s)) ∧
  (∀ (s : State) (i : Nat),
    let due := ((mget s.osc.run i).map fun o => o.miss != 0 && decide (s.get F.OSC_GAP_SIGGAP ≤ o.miss)).getD false
    (due = true → Does (.oscSignalRestart i) s [.osc] (regsIn [R.OSC_CNT_RESTART]) fun t =>
      t.osc = { s.osc with run := merase s.osc.run i } ∧ t.pends 47 ∧
        t.get F.OSC_CNT_RESTART_COUNT = (s.get F.OSC_CNT_RESTART_COUNT + 1) % 2 ^ 32) ∧
    (due = false → Leads (.oscSignalRestart i) s [] noRegs fun u => u = s)) ∧
  (∀ (s : State),
    let slot := (List.range (s.egetAt s.osc.epoch F.OSC_TRACK_MODEMAX)).find? fun i => (mget s.osc.slots i).isNone
    (∀ i b, s.flag F.OSC_CTRL_TRACK_EN = true → slot = some i → s.oscHighest s.oscSeedable = some b →
      Does .evOscModeNew s [.osc] noRegs fun t => t.pends 47 ∧ ∃ m, mget t.osc.slots i = some m ∧
        t.osc = { s.osc with modeId := (if s.osc.modeId = 65535 then 1 else s.osc.modeId + 1), seeds := s.osc.seeds + 1, slots := mput s.osc.slots i m } ∧
        m.id = t.osc.modeId ∧ m.freq = s.oscCentre b ∧ m.age = 0 ∧ m.cls = 0 ∧ m.noPeak = 0 ∧ m.seeded = true ∧ m.fvalid = false ∧ m.zvalid = false) ∧
    (s.flag F.OSC_CTRL_TRACK_EN = false ∨ slot = none ∨ s.oscHighest s.oscSeedable = none → Leads .evOscModeNew s [] noRegs fun u => u = s)) ∧
  (∀ (s : State) (i : Nat),
    (∀ m, mget s.osc.slots i = some m →
      let gone := periodsPassed (s.egetAt s.osc.epoch F.OSC_TRACK_DROP) s.oscFc m.freq m.noPeak || !s.flag F.OSC_CTRL_TRACK_EN ||
        s.osc.slots.any fun o => decide (o.2.order < m.order) && s.oscPlace.within (s.oscBandOf m.freq) m.freq o.2.freq 2 1 true
      let cls := if m.cntForced ≠ 0 ∧ periodsPassed (s.egetAt s.osc.epoch F.OSC_CLASS_CLS_PER) s.oscFc m.freq m.cntForced = true then 2
        else if m.cntNatural ≠ 0 ∧ periodsPassed (s.egetAt s.osc.epoch F.OSC_CLASS_CLS_PER) s.oscFc m.freq m.cntNatural = true then 1 else m.cls
      (gone = true → Does (.evOscModeLost i) s [.osc] noRegs fun t => t.pends 47 ∧
        t.osc = { s.osc with slots := merase s.osc.slots i, lostCls := mput s.osc.lostCls i m.cls }) ∧
      (gone = false → Leads (.evOscModeLost i) s [] noRegs fun u => u = s) ∧
      (cls ≠ m.cls → Does (.evOscClass i) s [.osc] noRegs fun t => t.pends 47 ∧
        t.osc = { s.osc with slots := mput s.osc.slots i { m with cls := cls, classed := true } }) ∧
      (cls = m.cls → Leads (.evOscClass i) s [] noRegs fun u => u = s)) ∧
    (mget s.osc.slots i = none → Leads (.evOscModeLost i) s [] noRegs (fun u => u = s) ∧ Leads (.evOscClass i) s [] noRegs (fun u => u = s)))

/-- OUT_GROUP_DEF with every parameter in range, a list without a repeated or wrong entry and a frame of at most 65 507 bytes is answered ST_OK
and puts the group in the shadow; with FLAGS bit 0 clear it removes it. A wrong entry is answered ST_BAD_PARAM with its index, a frame that
is too long ST_NO_RESOURCE, a poisoned or late host read ST_POISON or ST_TIMEOUT. OUT_DEST with every parameter in range to a group of the
shadow is answered ST_OK and puts the destination in the shadow; with GROUP 0xFF it removes it. A parameter out of range, a group the shadow
does not have (ST_STATE), a commit that prepares (ST_BUSY) and an IPv6 datagram longer than a packet (ST_BAD_LENGTH) end either with the
status of the first check that fails. Then nothing changes. Epochs in effect, destinations transmitting and addresses stay. (R232, R233,
R237, R238, R416) -/
def Obligations.OutputDefinitionsGoToTheShadow : Prop :=
  let fails (c : Instr) (s : State) (r : Fn) (b : List Byte) (st : Nat) (res : List Byte) : Prop := Answers c s r b st res [] [] fun _ => True
  (∀ (s : State) (r : Fn) (b : List Byte) (h : HostRead), Starts s r 0x40 42 false b →
    let en := bit (le b 9 1) 0
    let rate := rateOf (le b 10 1)
    let cad := rateOf s.aln.cadShadow
    let bad := firstFail [(decide (15 < le b 8 1), St.badParam), (decide (3 < le b 9 1), St.badParam),
      (en && (decide (11 < le b 10 1) || decide (cad < rate) || cad % max rate 1 != 0), St.badParam), (!zeroAt b 11 1, St.badParam),
      (en && (le b 12 2 == 0 || decide (65534 < le b 12 2)), St.badParam), (en && le b 14 2 == 0, St.badLength),
      (if en then decide (1024 < le b 14 2) else le b 14 2 != 0, St.badParam), (en && (le b 16 4 == 0 || decide (16777215 < le b 16 4)), St.badParam),
      (!zeroAt b 20 4, St.badParam), (if en then le b 24 8 % 8 != 0 else le b 24 8 != 0, St.badParam), (!en && le b 32 8 != 0, St.badParam),
      (decide (1024 < le b 40 2), St.badLength), (s.cmd.prep.isSome, St.busy)]
    (∀ st, bad = some st → fails (.outGroupDef r h) s r b st []) ∧
    (bad = none → en = false → Answers (.outGroupDef r h) s r b St.ok [] [.outp, .ecc] [] fun t =>
      t.outp = { s.outp with groups := s.outp.groups.del (le b 8 1) }) ∧
    (bad = none → en = true → fails (.outGroupDef r .poison) s r b St.poison [] ∧ fails (.outGroupDef r .timeout) s r b St.timeout [] ∧
      ∀ (buf : List Byte) (x : OutGroup), x = ⟨bit (le b 9 1) 1, le b 10 1, le b 12 2, le b 16 4, outItems (le b 14 2) buf,
          bytesAt buf (32 * le b 14 2) (if le b 32 8 = 0 then 0 else le b 40 2)⟩ →
        (∀ i, outBadItem (le b 14 2) buf = some i → fails (.outGroupDef r (.data buf)) s r b St.badParam (toLe 2 i)) ∧
        (outBadItem (le b 14 2) buf = none → 65507 < s.outShadowSize x → fails (.outGroupDef r (.data buf)) s r b St.noResource []) ∧
        (outBadItem (le b 14 2) buf = none → s.outShadowSize x ≤ 65507 → Answers (.outGroupDef r (.data buf)) s r b St.ok [] [.outp, .ecc] [] fun t =>
          t.outp = { s.outp with groups := s.outp.groups.put (le b 8 1) x }))) ∧
  (∀ (s : State) (r : Fn) (b : List Byte) (x : OutDest), Starts s r 0x41 48 false b → x = outDestOf b →
    let off := le b 9 1 == 0xFF
    let size := ((mget s.outp.groups.shadow x.group).map s.outShadowSize).getD 0
    let bad := firstFail [(decide (15 < le b 8 1), St.badParam), (!off && decide (15 < x.group), St.badParam),
      (decide (31 < x.ports) || (!off && x.ports == 0), St.badParam), (decide (7 < le b 11 1), St.badParam), (!off && x.dport == 0, St.badParam),
      (!off && x.sport == 0, St.badParam), (bit (le b 38 2) 12, St.badParam), (!off && decide (6 < x.tc), St.badParam), (decide (63 < x.dscp), St.badParam),
      (!off && x.ttl == 0, St.badParam), (!zeroAt b 43 5, St.badParam), (!off && (mget s.outp.groups.shadow x.group).isNone, St.state),
      (s.cmd.prep.isSome, St.busy), (!off && !isV4 x.addr && decide (s.outL x.ports x.vlan < 48 + size), St.badLength)]
    (∀ st, bad = some st → fails (.outDest r) s r b st []) ∧
    (bad = none → Answers (.outDest r) s r b St.ok [] [.outp, .ecc] [] fun t =>
      t.outp = { s.outp with dests := if off then s.outp.dests.del (le b 8 1) else s.outp.dests.put (le b 8 1) x }))

/-- OUT_CMD_FRAME_RX, while the firmware runs, takes the oldest command frame from its queue. A frame that fails its checks, or that no
destination matches, changes nothing else. A good command 1 or 2 turns the transmission of each destination that it matches off or on and
raises source 68; commands 3 to 6 send each of them the header or configuration frames of its group and raise source 68; any other command
is ignored and counted. OUT_DEST_RESOLVE, for a unicast destination in effect without a fixed address, keeps a resolved address and sets
RESOLVED, or forgets a lost one, clears RESOLVED and raises source 68. OUT_CFGCHG_EXPIRY at its time ends the mark of a changed
configuration. Where the cause does not hold, nothing changes. (R236, R241, R242) -/
def Obligations.OutputsFollowCommandFramesAndResolution : Prop :=
  let dst (a : Nat) : Bool := decide (0x90004 ≤ a) && decide (a < 0x90400)
  (∀ s : State,
    let q := s.ing.fwq.find? fun x => x.kind == 0 || (x.kind == 3 && c37Type (udpData x.bytes) == 4)
    (q = none ∨ s.fwRuns = false → Leads .outCmdFrameRx s [] noRegs fun u => u = s) ∧
    (∀ (x : FwFrame) (f : List Byte) (hits : List (Nat × OutDest)), q = some x → s.fwRuns = true → f = udpData x.bytes →
      hits = (s.outNow.dests.filter fun p => udpDport x.bytes == p.2.sport && ipSrc x.bytes == p.2.addr &&
        ((mget s.outNow.groups p.2.group).map fun g => g.1.idcode == be f 4 2).getD false) →
      let good := ipOk x.bytes && c37Ok f && c37Type f == 4 && c37Crc f
      let taken (t : State) : Prop := t.ing = { s.ing with fwq := s.ing.fwq.erase x }
      (good = false ∨ hits = [] → Does .outCmdFrameRx s [.ing] noRegs fun t => taken t) ∧
      (good = true → hits ≠ [] → be f 14 2 = 1 ∨ be f 14 2 = 2 → Does .outCmdFrameRx s [.ing, .outp] dst fun t => taken t ∧ t.pends 68 ∧
        t.outp = { s.outp with txOn := t.outp.txOn } ∧ (∀ p ∈ hits, smem t.outp.txOn p.1 = (be f 14 2 == 2)) ∧
        ∀ d, (∀ p ∈ hits, p.1 ≠ d) → smem t.outp.txOn d = smem s.outp.txOn d) ∧
      (good = true → hits ≠ [] → 3 ≤ be f 14 2 → be f 14 2 ≤ 6 → ∃ u, exec .outCmdFrameRx s = .next u.drain ∧ taken u ∧ u.pends 68 ∧
        u.outp = { s.outp with ipIds := u.outp.ipIds } ∧ u.pending = s.pending ∧ u.tim = s.tim ∧ u.sett = s.sett ∧
        ∀ p g, hits = [p] → mget s.outNow.groups p.2.group = some g →
          u.mac = ((((s.outAnswer p.2.group g.1 g.2 (if isV4 p.2.addr then 65507 else s.outL p.2.ports p.2.vlan - 48) (be f 14 2)).getD []).foldl
            (fun (r : OutRun) f => r.datagram p.1 p.2 (r.s.outMac p.1 p.2) 0 none f) ⟨s, 0, false⟩).s).mac) ∧
      (good = true → be f 14 2 = 0 ∨ 6 < be f 14 2 → Does .outCmdFrameRx s [.ing, .outp] noRegs fun t => taken t ∧
        t.outp = { s.outp with ignored := s.outp.ignored + hits.length }))) ∧
  (∀ (s : State) (d : Fin 16),
    (∀ x, mget s.outNow.dests d = some x → s.fwRuns = true → x.fixedMac = none → isMcast x.addr = false →
      (∀ m, Does (.outDestResolve d (some m)) s [.outp] dst fun t =>
        t.outp = { s.outp with macs := mput s.outp.macs d (m % 2 ^ 48) } ∧ t.flag (ogf F.OUT_DSTAT_RESOLVED d) = true) ∧
      Does (.outDestResolve d none) s [.outp] dst (fun t =>
        t.outp = { s.outp with macs := merase s.outp.macs d } ∧ t.flag (ogf F.OUT_DSTAT_RESOLVED d) = false ∧ t.pends 68)) ∧
    (∀ mac, (mget s.outNow.dests d = none ∨ s.fwRuns = false ∨ ∀ x, mget s.outNow.dests d = some x → x.fixedMac.isSome = true ∨ isMcast x.addr = true) →
      Leads (.outDestResolve d mac) s [] noRegs fun u => u = s)) ∧
  (∀ (s : State) (g : Fin 16),
    (∀ at_, mget s.outp.chg g = some at_ → Does (.outCfgchgExpiry g) s [.tim, .outp] noRegs fun t =>
      t.tim.now = max s.tim.now at_ ∧ t.outp = { s.outp with chg := merase s.outp.chg g }) ∧
    (mget s.outp.chg g = none → Leads (.outCfgchgExpiry g) s [] noRegs fun u => u = s))

/-- CAS_JOIN outside the top tier and without another join is answered ST_PENDING, sets JOIN_PEND and sends JOIN; the first check that fails
gives its status, a missing key ST_KEY_MISSING, and nothing changes. JOIN_RETRY sends JOIN again 100 ms after the last, within 2 s. A good
ACCEPT from the manager sets JOINED and MEMBER, a REJECT clears the join with its REASON, 2 s of silence with REASON 15; each raises source
70. CAS_LEAVE clears the join; where the unit had joined it sends LEAVE, queues two more at 1 ms intervals and raises source 70. A manager
that takes a good JOIN answers ACCEPT and marks the member joined, or REJECT with the reason and changes no member; a good LEAVE marks the
member neither joined nor up and raises source 70. A malformed message, one of no such member, or one in tier 0 is taken and changes nothing
else. Without a frame, or while the firmware does not run, nothing happens. (R243, R244, R246, R252) -/
def Obligations.CascadeMembersJoinAndLeave : Prop :=
  let port (s : State) : Nat := s.get F.CAS_CTRL_PORT
  let mregs (p : Nat) : List Nat := [R.MAC_PRP_SEQ, (macCnt p 15).addr, (macCnt 0 15).addr, (macCnt 1 15).addr]
  let msts (a : Nat) : Bool := decide (0x90800 ≤ a) && decide (a < 0x90B00) || a == R.CAS_STAT || a == R.CAS_UP_MAC_LO || a == R.CAS_UP_MAC_HI
  (∀ (s : State) (r : Fn) (b : List Byte) (h : HostRead), Starts s r 0x42 36 false b →
    let n := le b 20 2
    let auth := bit (le b 15 1) 0
    let fails (st : Nat) (h : HostRead) : Prop := Answers (.casJoin r h) s r b st [] [] [] fun _ => True
    let joins (h : HostRead) (fwd : List Nat) : Prop := Answers (.casJoin r h) s r b St.pending [] [.cas, .mac] (R.CAS_STAT :: mregs (port s)) fun t =>
      t.flag F.CAS_STAT_JOIN_PEND = true ∧ t.mac = (s.casSend (port s) (be b 8 6) (s.casMsg 1 (le b 16 4) (le b 14 1) 0)).mac ∧
        t.cas = { s.cas with join := some ⟨be b 8 6, le b 14 1, if auth then some (le b 32 4) else none, le b 16 4, fwd⟩, joinAt := s.tim.now, joinSent := s.tim.now }
    let bad := firstFail [(le b 14 1 == 0 || decide (15 < le b 14 1), St.badParam), (decide (1 < le b 15 1), St.badParam), (decide (256 < n), St.badParam),
      (!zeroAt b 22 2, St.badParam), (n == 0 && le b 24 8 != 0, St.badParam),
      (s.tier == 2 || s.flag F.CAS_STAT_JOINED || s.flag F.CAS_STAT_JOIN_PEND, St.state)]
    let keyless := auth && (s.keyFind (le b 32 4)).isNone
    (∀ st, bad = some st → fails st h) ∧
    (bad = none → n = 0 → (keyless = true → fails St.keyMissing h) ∧ (keyless = false → joins h [])) ∧
    (bad = none → n ≠ 0 → fails St.poison .poison ∧ fails St.timeout .timeout ∧ ∀ buf, let fwd := (List.range n).map fun i => le buf (2 * i) 2
      ((fwd.all fun x => decide (x ≤ 8191)) = false → fails St.badParam (.data buf)) ∧
      ((fwd.all fun x => decide (x ≤ 8191)) = true → (keyless = true → fails St.keyMissing (.data buf)) ∧ (keyless = false → joins (.data buf) fwd)))) ∧
  (∀ (s : State) (j : CasJoin), s.cas.join = some j →
    let on := s.flag F.CAS_STAT_JOIN_PEND && s.fwRuns
    (on = true → s.cas.joinSent + ticksOfMs 100 < s.cas.joinAt + ticksOfS 2 → Does .joinRetry s [.tim, .cas, .mac] (regsIn (mregs (port s))) fun t =>
      t.tim.now = max s.tim.now (s.cas.joinSent + ticksOfMs 100) ∧ t.cas = { s.cas with joinSent := t.tim.now } ∧
        t.mac = (s.casSend (port s) j.mac (s.casMsg 1 j.group j.member 0)).mac) ∧
    (on = false ∨ s.cas.joinAt + ticksOfS 2 ≤ s.cas.joinSent + ticksOfMs 100 → Leads .joinRetry s [] noRegs fun u => u = s) ∧
    (on = true → Does .joinTimeout s [.tim, .cas] (regsIn [R.CAS_STAT]) fun t => t.tim.now = max s.tim.now (s.cas.joinAt + ticksOfS 2) ∧
      t.flag F.CAS_STAT_JOIN_PEND = false ∧ t.get F.CAS_STAT_REASON = 15 ∧ t.cas = { s.cas with join := none } ∧ t.pends 70) ∧
    (on = false → Leads .joinTimeout s [] noRegs fun u => u = s)) ∧
  (∀ s : State,
    let q := s.cas.rxq.find? fun f => be f.2.2.2 3 1 == 2 || be f.2.2.2 3 1 == 3
    (s.fwRuns = false ∨ q = none → Leads .joinAnswerRx s [] noRegs fun u => u = s) ∧
    (∀ f, q = some f → s.fwRuns = true →
      let h := casHdrOf f.2.2.2
      let mine (j : CasJoin) : Bool := casMsgOk f.2.2.2 && s.flag F.CAS_STAT_JOIN_PEND && f.2.2.1 == j.mac && h.group == j.group && h.member == j.member
      (s.cas.join.all (fun j => !mine j) = true → Leads .joinAnswerRx s [.cas] noRegs fun u => u.cas = { s.cas with rxq := s.cas.rxq.erase f }) ∧
      (∀ j, s.cas.join = some j → mine j = true →
        (h.msg = 2 → Does .joinAnswerRx s [.cas] (regsIn [R.CAS_STAT, R.CAS_UP_MAC_LO, R.CAS_UP_MAC_HI]) fun t =>
          t.flag F.CAS_STAT_JOINED = true ∧ t.flag F.CAS_STAT_JOIN_PEND = false ∧ t.get F.CAS_STAT_MEMBER = j.member % 16 ∧ t.pends 70 ∧
            t.cas = { s.cas with rxq := s.cas.rxq.erase f, fresh := true, gap := 0 }) ∧
        (h.msg = 3 → Does .joinAnswerRx s [.cas] (regsIn [R.CAS_STAT]) fun t =>
          t.flag F.CAS_STAT_JOIN_PEND = false ∧ t.get F.CAS_STAT_REASON = h.reason % 16 ∧ t.pends 70 ∧
            t.cas = { s.cas with rxq := s.cas.rxq.erase f, join := none })))) ∧
  (∀ (s : State) (r : Fn) (b : List Byte), Starts s r 0x43 16 false b →
    let on := s.flag F.CAS_STAT_JOINED || s.flag F.CAS_STAT_JOIN_PEND
    let fails (st : Nat) : Prop := Answers (.casLeave r) s r b st [] [] [] fun _ => True
    (zeroAt b 8 8 = false → fails St.badParam) ∧ (zeroAt b 8 8 = true → on = false ∨ s.cas.join = none → fails St.state) ∧
    (∀ j, zeroAt b 8 8 = true → on = true → s.cas.join = some j →
      let msg := s.casMsg 4 j.group j.member 0
      Answers (.casLeave r) s r b St.ok [] [.cas, .mac] (R.CAS_STAT :: mregs (port s)) fun t =>
        t.flag F.CAS_STAT_JOINED = false ∧ t.flag F.CAS_STAT_JOIN_PEND = false ∧ t.get F.CAS_STAT_MEMBER = 0 ∧
          (s.flag F.CAS_STAT_JOINED = true → t.pends 70 ∧ t.mac = (s.casSend (port s) j.mac msg).mac ∧ t.cas = { s.cas with
            join := none, leave := s.cas.leave ++ [(s.tim.now + ticksOfMs 1, (j.mac, msg)), (s.tim.now + ticksOfMs 2, (j.mac, msg))] }) ∧
          (s.flag F.CAS_STAT_JOINED = false → t.mac = s.mac ∧ t.cas = { s.cas with join := none }))) ∧
  (∀ s : State,
    (∀ n, n = 1 ∨ n = 4 → (s.cas.rxq.find? fun f => be f.2.2.2 3 1 == n) = none ∨ s.fwRuns = false →
      Leads (if n = 1 then .joinRx else .leaveRx) s [] noRegs fun u => u = s) ∧
    (∀ f, (s.cas.rxq.find? fun f => be f.2.2.2 3 1 == 1) = some f → s.fwRuns = true → f.1 < 5 →
      let h := casHdrOf f.2.2.2
      let why := s.joinReason f.2.2.1 f.2.2.2
      (s.tier = 0 ∨ casMsgOk f.2.2.2 = false → Leads .joinRx s [.cas] noRegs fun u => u.cas = { s.cas with rxq := s.cas.rxq.erase f }) ∧
      (s.tier ≠ 0 → casMsgOk f.2.2.2 = true → Does .joinRx s [.cas, .mac] (fun a => msts a || (mregs f.1).contains a) fun t =>
          t.mac = (s.casSend f.1 f.2.2.1 (s.casMsg (if why = 0 then 2 else 3) h.group h.member why)).mac ∧
            t.cas = { s.cas with rxq := s.cas.rxq.erase f, members := t.cas.members } ∧ (why ≠ 0 → t.cas.members = s.cas.members) ∧
            (why = 0 → t.cas.members = mput s.cas.members h.member { s.casMember h.member with joined := true, announce := true, depth := h.depth } ∧
              t.flag (mbr F.CAS_MSTAT_JOINED h.member) = true)))  ∧
    (∀ f, (s.cas.rxq.find? fun f => be f.2.2.2 3 1 == 4) = some f → s.fwRuns = true →
        let h := casHdrOf f.2.2.2
        let why := s.joinReason f.2.2.1 f.2.2.2
        let ours := decide (s.tier ≠ 0) && casMsgOk f.2.2.2 && (why == 0 || decide (4 ≤ why))
        (ours = false → Leads .leaveRx s [.cas] noRegs fun u => u.cas = { s.cas with rxq := s.cas.rxq.erase f }) ∧
        (ours = true → Does .leaveRx s [.cas] msts fun t => t.pends 70 ∧
          t.cas = { s.cas with rxq := s.cas.rxq.erase f, members := mput s.cas.members h.member { s.casMember h.member with joined := false, up := false, since := none } })))

/-- CASCADE_DIGEST_BUILD, once every engine of FEED has finished or skipped the oldest set the builder holds, sends its digest with the next
DSEQ and counts in SENT, or, where digests are not sent now or no page can be had, adds to the gap the next one tells; the set leaves the
builder. Before that, or with no set, nothing happens. CASCADE_DIGEST_RX takes the oldest frame that is no handshake message: it counts in
TIER0 on a worker, in DISC_FMT where malformed or not from its member, in DISC_DEPTH where too deep, in DISC_AUTH where authentication is
required and fails; with EN clear nothing else. A repeated fragment changes nothing, one that does not complete its digest is kept, one
without a page counts in INCOMPLETE, and one that completes it counts in RECV, raises source 69 and its member is up. A digest left
incomplete for REASM ms counts in INCOMPLETE; an enabled member silent for MS ms is lost and its alarm active. (R102, R245, R246, R248,
R251) -/
def Obligations.DigestsAreBuiltAndTakenInOrder : Prop :=
  (∀ s : State,
    (s.sched.casc = [] → Leads .cascadeDigestBuild s [] noRegs fun u => u = s) ∧
    (∀ (j : CasJoin) (d : SetDesc) (rest : List (CasJoin × SetDesc)), s.sched.casc = (j, d) :: rest →
      let done := (List.range 3).all fun e => !bit (s.get F.CAS_CTRL_FEED) e || (mgetD s.sched.feed (ukey (d.soc, d.ns)) []).any fun r => r.engine == e
      let lens := j.fwd.filterMap fun i => (d.recs.find? fun r => r.sidx == i).map fun r => r.n
      let ws := s.digestWords d j.fwd
      let key := j.key.bind s.casKey
      let off (t : State) : Prop := t.sched = { s.sched with casc := rest, feed := merase s.sched.feed (ukey (d.soc, d.ns)) }
      let now := s.flag F.CAS_CTRL_EN && s.casActive
      (done = false → Leads .cascadeDigestBuild s [] noRegs fun u => u = s) ∧
      (done = true → now = false ∨ (j.key = none ∨ key.isSome = true) ∧ s.canAlloc 5 = false →
        Does .cascadeDigestBuild s [.sched, .cas] noRegs fun t => off t ∧ t.cas = { s.cas with gap := s.cas.gap + 1 }) ∧
      (done = true → now = true → j.key.isSome = true → key = none →
        Does .cascadeDigestBuild s [.sched, .cas, .keys] (regsIn [R.KEY_CNT_MISS]) fun t => off t ∧ t.cas = { s.cas with gap := s.cas.gap + 1 }) ∧
      (done = true → now = true → j.key = none ∨ key.isSome = true → s.canAlloc 5 = true → (digestPages lens ws).length = 1 →
        Does .cascadeDigestBuild s [.sched, .cas, .mac, .keys] (regsIn [R.CAS_CNT_SENT, R.MAC_PRP_SEQ, (macCnt (s.get F.CAS_CTRL_PORT) 15).addr,
          (macCnt 0 15).addr, (macCnt 1 15).addr]) fun t => off t ∧ (j.key = none → t.keys = s.keys) ∧
          t.cas = { s.cas with dseq := (s.cas.dseq + 1) % 2 ^ 32, gap := 0, fresh := false, nextId := s.cas.nextId + 1 } ∧
          t.mac = ((s.digestFrames j d (key.map Prod.snd) ws).foldl (fun s f => s.casSend (s.get F.CAS_CTRL_PORT) j.mac f) s).mac ∧
          t.get F.CAS_CNT_SENT_COUNT = (s.get F.CAS_CNT_SENT_COUNT + 1) % 2 ^ 32))) ∧
  (∀ s : State,
    let q := s.cas.rxq.find? fun f => !(1 ≤ be f.2.2.2 3 1 && be f.2.2.2 3 1 ≤ 4)
    (q = none → Leads .cascadeDigestRx s [] noRegs fun u => u = s) ∧
    (∀ f, q = some f →
      let b := f.2.2.2
      let h := casHdrOf b
      let why := s.joinReason f.2.2.1 b
      let key := if h.auth then s.casKey h.keyId else none
      let ver := (key.map fun k => gmac k.2.type k.2.key (b.take (32 + 10 * be b 24 2)) == bytesAt b (32 + 10 * be b 24 2) 16).getD false
      let wellF := casOk b && (why == 0 || decide (4 ≤ why))
      let needs := s.eget (mbr F.CAS_MCFG_AUTH_REQ h.member) == 1
      let old := s.cas.reasm.find? fun x => x.member == h.member && x.dseq == h.dseq && x.nfrag == h.nfrag
      let taken (t : State) : Prop := t.cas = { s.cas with rxq := s.cas.rxq.erase f }
      let one (t : State) (c : Fld) : Prop := t.get c = (s.get c + 1) % 2 ^ 32
      let keyRegs := if h.auth then [R.KEY_CNT_MISS] else []
      let keyPart := if h.auth then [Part.keys] else []
      (s.tier = 0 → Does .cascadeDigestRx s [.cas] (regsIn [R.CAS_CNT_TIER0]) fun t => taken t ∧ one t F.CAS_CNT_TIER0_COUNT) ∧
      (s.tier ≠ 0 → s.flag F.CAS_CTRL_EN = false → Leads .cascadeDigestRx s [.cas] noRegs fun u => taken u) ∧
      (s.tier ≠ 0 → s.flag F.CAS_CTRL_EN = true →
        (wellF = false → Does .cascadeDigestRx s [.cas] (regsIn [R.CAS_CNT_DISC_FMT]) fun t => taken t ∧ t.pends 70 ∧ one t F.CAS_CNT_DISC_FMT_COUNT) ∧
        (wellF = true → s.tier < h.depth → Does .cascadeDigestRx s [.cas] (regsIn [R.CAS_CNT_DISC_DEPTH]) fun t => taken t ∧ t.pends 70 ∧
          one t F.CAS_CNT_DISC_DEPTH_COUNT) ∧
        (wellF = true → h.depth ≤ s.tier →
          (needs = true → ver = false → Does .cascadeDigestRx s ([.cas] ++ keyPart) (regsIn (R.CAS_CNT_DISC_AUTH :: keyRegs)) fun t => taken t ∧ t.pends 70 ∧
            one t F.CAS_CNT_DISC_AUTH_COUNT) ∧
          (needs = false ∨ ver = true →
            (∀ x, old = some x → (mget x.frags h.frag).isSome = true → Does .cascadeDigestRx s ([.cas] ++ keyPart) (regsIn keyRegs) fun t => taken t) ∧
            (old = none → s.cas.reasm.length < 32 → s.canAlloc 5 = false → Does .cascadeDigestRx s ([.cas] ++ keyPart) (regsIn (R.CAS_CNT_INCOMPLETE :: keyRegs))
              fun t => taken t ∧ t.pends 70 ∧ one t F.CAS_CNT_INCOMPLETE_COUNT) ∧
            (old = none → s.cas.reasm.length < 32 → s.canAlloc 5 = true → h.nfrag ≠ 1 →
              Does .cascadeDigestRx s ([.cas] ++ keyPart) (regsIn keyRegs) fun t => ∃ y, t.cas.reasm.getLast? = some y ∧
                t.cas = { s.cas with rxq := s.cas.rxq.erase f, nextId := s.cas.nextId + 1, reasm := s.cas.reasm ++ [y] } ∧
                y.member = h.member ∧ y.dseq = h.dseq ∧ y.nfrag = h.nfrag ∧ y.first = s.tim.now ∧ y.verified = ver ∧ y.frags.map Prod.fst = [h.frag]) ∧
            (∀ rest, old = none → s.cas.reasm.length < 32 → s.canAlloc 5 = true → h.nfrag = 1 → (∀ y ∈ s.cas.reasm, y.id ≠ s.cas.nextId) →
              rest = bits ((((casWords (b.take (32 + 10 * be b 24 2)))[0]?).map fun w => w.v.toNat).getD 0) 71 63 →
              ∃ t, exec .cascadeDigestRx s = .next t ∧ t.cas.reasm = s.cas.reasm ∧ t.cas.rxq = s.cas.rxq.erase f ∧ one t F.CAS_CNT_RECV_COUNT ∧ t.pends 69 ∧
                (t.casMember h.member).up = true ∧ (t.casMember h.member).lost = false ∧ (t.casMember h.member).dseq = h.dseq ∧
                (t.casMember h.member).depth = h.depth ∧ (t.casMember h.member).since = some s.tim.now ∧
                (rest = 0 → s.flag F.ANG_NET_CFG_EN = false → Frame ([.cas, .alm] ++ keyPart) (fun a => decide (0x90800 ≤ a) && decide (a < 0x90B00) ||
                  a == R.CAS_STAT || a == R.CAS_UP_MAC_LO || a == R.CAS_UP_MAC_HI || a == R.CAS_CNT_RECV || keyRegs.contains a) s t))))))) ∧
  (∀ (s : State) (w : Nat),
    (∀ x, (s.cas.reasm.find? fun x => x.member == w) = some x →
      Does (.digestReassemblyTimeout w) s [.tim, .cas] (regsIn [R.CAS_CNT_INCOMPLETE]) fun t =>
        t.tim.now = max s.tim.now (x.first + ticksOfMs (s.get F.CAS_LOSS_REASM)) ∧ t.pends 70 ∧
          t.cas = { s.cas with reasm := s.cas.reasm.filter fun y => y.id != x.id } ∧
          t.get F.CAS_CNT_INCOMPLETE_COUNT = (s.get F.CAS_CNT_INCOMPLETE_COUNT + 1) % 2 ^ 32) ∧
    ((s.cas.reasm.find? fun x => x.member == w) = none → Leads (.digestReassemblyTimeout w) s [] noRegs fun u => u = s)) ∧
  (∀ (s : State) (w : Nat), 1 ≤ w → w ≤ 15 →
    let live := decide (s.get F.CAS_LOSS_MS ≠ 0) && !(s.casMember w).lost && s.casEnabled w
    (∀ since, (s.casMember w).since = some since → live = true →
      ∃ t, exec (.evCasMemberLost w) s = .next t ∧ t.tim.now = max s.tim.now (since + ticksOfMs (s.get F.CAS_LOSS_MS)) ∧ t.pends 70 ∧
        t.cas = { s.cas with members := mput s.cas.members w { s.casMember w with up := false, lost := true, announce := true } } ∧
        t.flag ⟨R.CAS_MEMBERS, w, w⟩ = false ∧ t.flag ⟨R.CAS_MEMBERS, 16 + w, 16 + w⟩ = true ∧ (mget t.alm.act (lostKey w)).isSome = true ∧
        (s.flag F.ANG_NET_CFG_EN = false → Frame [.tim, .cas, .alm] (fun a => decide (0x90800 ≤ a) && decide (a < 0x90B00)) s t)) ∧
    (live = false ∨ (s.casMember w).since = none → Leads (.evCasMemberLost w) s [] noRegs fun u => u = s))

/-- With EN = 0, FRONT_END_START sets EN and RUN, takes an edge within the next 24 TIME ticks as T0, drops every history and gives each bay its
configured CP tap and low gain, or fixed high gain where RNGMODE is 2 and no current channel is in FAULT; which edge is open (log entry 1).
With EN = 1, FRONT_END_STOP clears EN, RUN, the range and fault bits, ends every arming, and drops histories, fades and pending swaps.
CP_CONFIG_CHANGE with a new CP_K or CP_FAST brings time to the frame boundary, ends the bay's arming, and puts the new tap into effect with
its history empty. COEF_LOAD of a good symmetric filter into the inactive bank, no swap in progress, is answered ST_OK and sets its
coefficients and length; a wrong parameter or entry, a poisoned or late host read, or the active bank or a swap in progress (ST_STATE) ends
it. BANK_SWAP with EN and no swap in progress is answered ST_OK and the tick F_b, the first frame boundary 50 microseconds on, and sets
BUSY; during a swap ST_PENDING, and its FADE replaces what was pending; a cancel takes the pending one off; a wrong parameter, or no pending
one to cancel, ends it. EV_FLT_FADE_START at F_b changes ACTIVE and the delay registers. EV_FLT_FADE_DONE ends the swap, or starts the
pending one at that boundary. Both raise source 50. Where the cause of one of these events does not hold, nothing changes. (R257, R262,
R264, R268, R269, R275, R276, R277, R320) -/
def Obligations.FrontEndAndCoefficientBanks : Prop :=
  let bst : List Nat := (List.range 8).map fun b => R.FLT_BAYSTAT + 4 * b
  let gd : List Nat := [R.FLT_GD_PH, R.FLT_GD_EN, R.FLT_GD_CP]
  (∀ s : State,
    (s.flag F.FLT_CTRL_EN = true → Leads .frontEndStart s [] noRegs fun u => u = s) ∧
    (s.flag F.FLT_CTRL_EN = false →
      Does .frontEndStart s [.tim, .flt, .nrg] (regsIn ([R.FLT_CTRL, R.FLT_STAT, R.FLT_T0_LO, R.FLT_T0_HI, R.FLT_RNGCNT] ++ gd ++ bst)) fun t =>
        t.flag F.FLT_CTRL_EN = true ∧ t.fltRuns = true ∧ s.tim.now < t.tim.now ∧ t.tim.now ≤ s.tim.now + 24 ∧
          t.tim = { s.tim with now := t.tim.now } ∧ t.get64 R.FLT_T0_LO R.FLT_T0_HI = (t.tim.now - s.tim.base) % 2 ^ 64 ∧
          t.flt = { s.flt with taps := [], chans := [], faults := [], ovl := [], bays := t.flt.bays, lastSettle := t.tim.now } ∧
          t.nrg = { s.nrg with next := 0, bays := [], normal := [] } ∧
          t.get F.FLT_GD_PH_TICKS = gTicks 11 (s.coefs s.bankActive 0).length s.fltD % 2 ^ 32 ∧
          t.get F.FLT_GD_EN_TICKS = gTicks 10 (s.coefs s.bankActive 1).length s.fltD % 2 ^ 32 ∧
          ∀ b, b < 8 → ((t.fltBay b).k, (t.fltBay b).fast) = s.cpReg b ∧ (t.fltBay b).due = none ∧
            (t.fltBay b).high = (s.get (bayf F.FLT_BAYCFG_RNGMODE b) == 2 && !s.curFault b))) ∧
  (∀ s : State,
    (s.flag F.FLT_CTRL_EN = true →
      Does .frontEndStop s [.flt, .trg] (regsIn ([R.FLT_CTRL, R.FLT_STAT, R.FLT_BANK, R.TRG_CNT_TRUNC, R.TRG_CNT_CAPT] ++ bst)) fun t =>
        t.flag F.FLT_CTRL_EN = false ∧ t.fltRuns = false ∧ t.get F.FLT_STAT_HIGH = 0 ∧ t.get F.FLT_STAT_FAULT = 0 ∧
          t.flt = { s.flt with taps := [], chans := [], faults := [], ovl := [], bays := [], swap := none, pendFade := none } ∧
          t.get F.FLT_BANK_BUSY = 0 ∧ t.get F.FLT_BANK_PEND = 0 ∧ ∀ b, b < 8 → (t.trgUnit b).cfg = none ∧ t.get (bayf F.FLT_BAYSTAT_FAULT b) = 0 ∧
            t.flag (bayf F.FLT_BAYSTAT_HIGH b) = false ∧ t.flag (bayf F.FLT_BAYSTAT_BLANK b) = false) ∧
    (s.flag F.FLT_CTRL_EN = false → Leads .frontEndStop s [] noRegs fun u => u = s)) ∧
  (∀ (s : State) (b : Fin 8),
    (s.fltRuns = false ∨ s.cpReg b.val = ((s.fltBay b.val).k, (s.fltBay b.val).fast) → Leads (.cpConfigChange b) s [] noRegs fun u => u = s) ∧
    (s.fltRuns = true → s.cpReg b.val ≠ ((s.fltBay b.val).k, (s.fltBay b.val).fast) →
      let f := (s.fltBay b.val).due.getD (s.frameFrom (s.tim.now + 1))
      Does (.cpConfigChange b) s [.tim, .flt, .trg] (regsIn ([R.TRG_CNT_TRUNC, R.TRG_CNT_CAPT] ++ gd)) fun t =>
        t.tim = { s.tim with now := max s.tim.now f } ∧ (t.trgUnit b.val).cfg = none ∧
          t.flt = { s.flt with bays := t.flt.bays, taps := t.flt.taps } ∧
          t.fltBay b.val = { s.fltBay b.val with k := (s.cpReg b.val).1, fast := (s.cpReg b.val).2, due := none } ∧
          (∀ c, c ≠ b.val → t.fltBay c = s.fltBay c) ∧
          (∀ q, q < 6 → t.tap (6 * b.val + q) 2 = ⟨(f - s.fltT0) / (24 * 2 ^ (s.cpReg b.val).1) - 1, [], []⟩) ∧
          (∀ ch tap, tap < 4 → (tap ≠ 2 ∨ ch / 6 ≠ b.val) → t.tap ch tap = s.tap ch tap))) ∧
  (∀ (s : State) (r : Fn) (b : List Byte) (h : HostRead), Starts s r 0x4A 24 false b →
    let l := le b 10 1
    let fails (c : Instr) (st : Nat) : Prop := Answers c s r b st [] [] [] fun _ => True
    let bad := firstFail [(decide (1 < le b 8 1), St.badParam), (decide (2 < le b 9 1), St.badParam), (l == 0, St.badLength), (decide (64 < l), St.badParam),
      (!zeroAt b 11 5, St.badParam), (le b 16 8 % 8 != 0, St.badParam), (le b 8 1 == s.bankActive || s.flt.swap.isSome, St.state)]
    (∀ st, bad = some st → fails (.coefLoad r h) st) ∧
    (bad = none → fails (.coefLoad r .poison) St.poison ∧ fails (.coefLoad r .timeout) St.timeout ∧ ∀ buf : List Byte,
      (coefEntries l buf = none → fails (.coefLoad r (.data buf)) St.badParam) ∧
      (∀ x : List Int, coefEntries l buf = some x → x = x.reverse ∧ x.length = l ∧
        Answers (.coefLoad r (.data buf)) s r b St.ok [] [.flt] [R.FLT_COEFLEN + 4 * le b 8 1] fun t =>
          t.flt = { s.flt with coefs := mput s.flt.coefs (4 * le b 8 1 + le b 9 1) x } ∧ t.get (coefLenFld (le b 8 1) (le b 9 1)) = l))) ∧
  (∀ (s : State) (r : Fn) (b : List Byte), Starts s r 0x4B 16 false b →
    let fd := le b 8 1
    let cancel := le b 9 1 == 1
    let fb := s.frameFrom (s.tim.now + ticksOfUs 50)
    let bad := firstFail [(decide (1 < le b 9 1) || (cancel && fd != 0) || (!cancel && fd != 0 && !s.sameLens), St.badParam), (!zeroAt b 10 6, St.badParam),
      (!s.flag F.FLT_CTRL_EN || (cancel && s.flt.pendFade.isNone), St.state)]
    (∀ st, bad = some st → Answers (.bankSwap r) s r b st [] [] [] fun _ => True) ∧
    (bad = none → cancel = true → Answers (.bankSwap r) s r b St.ok (zeros 8) [.flt] [R.FLT_BANK] fun t =>
      t.flt = { s.flt with pendFade := none } ∧ t.get F.FLT_BANK_PEND = 0) ∧
    (bad = none → cancel = false → s.flt.swap = none →
      Answers (.bankSwap r) s r b St.ok (toLe 8 (fb - s.tim.base)) [.flt] [R.FLT_BANK] fun t =>
        t.flt = { s.flt with swap := some ⟨fd, fb, false⟩ } ∧ t.get F.FLT_BANK_BUSY = 1) ∧
    (bad = none → cancel = false → s.flt.swap.isSome = true → Answers (.bankSwap r) s r b St.pending (zeros 8) [.flt] [R.FLT_BANK] fun t =>
      t.flt = { s.flt with pendFade := some fd } ∧ t.get F.FLT_BANK_PEND = 1 ∧ t.get F.FLT_BANK_PEND_FADE = fd ∧
        (s.flt.pendFade.isSome = true → t.pends 50))) ∧
  (∀ s : State, s.flt.swap = none → Leads .evFltFadeStart s [] noRegs (fun u => u = s) ∧ Leads .evFltFadeDone s [] noRegs fun u => u = s) ∧
  (∀ (s : State) (w : FltSwap), s.flt.swap = some w →
    (w.started = true → Leads .evFltFadeStart s [] noRegs fun u => u = s) ∧
    (w.started = false → Leads .evFltFadeDone s [] noRegs fun u => u = s) ∧
    (w.started = false → Does .evFltFadeStart s [.tim, .flt] (regsIn (R.FLT_BANK :: gd)) fun t =>
      t.pends 50 ∧ t.bankActive = 1 - s.bankActive ∧ t.tim = { s.tim with now := max s.tim.now w.fb } ∧
        t.flt = { s.flt with swap := some { w with started := true } } ∧
        t.get F.FLT_GD_PH_TICKS = gTicks 11 (s.coefs (1 - s.bankActive) 0).length s.fltD % 2 ^ 32 ∧
        t.get F.FLT_GD_EN_TICKS = gTicks 10 (s.coefs (1 - s.bankActive) 1).length s.fltD % 2 ^ 32) ∧
    (w.started = true → Does .evFltFadeDone s [.tim, .flt] (regsIn [R.FLT_BANK]) fun t =>
      t.pends 50 ∧ t.tim = { s.tim with now := max s.tim.now (w.fb + 24 * 8192 * w.fade) } ∧ t.get F.FLT_BANK_PEND = 0 ∧
        t.flt = { s.flt with swap := s.flt.pendFade.map fun fd => ⟨fd, w.fb + 24 * 8192 * w.fade, false⟩, pendFade := none } ∧
        (s.flt.pendFade = none → t.get F.FLT_BANK_BUSY = 0)))

/-- In automatic mode an S1 output at or above UP changes a bay in high gain to low gain; peaks that fit below DOWN (not 0) over DWELL change it
to high gain, at the end of DWELL. Outside blanking the change sets HIGH, BLANK and RNGCNT, raises source 49 and blanks as many S1 outputs
as SETTLE asks for; during blanking it waits for BLANKING_END, which clears BLANK and follows the range wanted or fixed, but none while a
current channel is in FAULT. EV_FLT_MOD_FAULT, 50 microseconds after the channel's last fault change at the earliest, and
EV_FLT_MOD_RESTORED, 20 ms after it, set and clear the channel's bit and raise source 48. OVERLOAD_EPISODE_END ends the episode 20 ms after
the last overload. TAP_SAMPLE adds the next sample of an enabled channel at t_dec with t_eff = t_dec - G: its value is the tap filter's
output outside a fade, or the fast-settle sum scaled, formed from the S1 outputs of the bits given, and its flags tell FAULT, overload, and
the range at t_eff. Where the cause does not hold, nothing changes. (R260, R264, R265, R267, R268, R270, R271, R272, R273, R274) -/
def Obligations.RangesFaultsAndTapSamples : Prop :=
  let same (x y : FltBay) : Prop := { x with quiet := 0 } = { y with quiet := 0 }
  let changed (s : State) (b : Nat) (h : Bool) (now : Nat) (t : State) : Prop := t.pends 49 ∧ t.flag (bayf F.FLT_BAYSTAT_HIGH b) = h ∧
    t.flag (bayf F.FLT_BAYSTAT_BLANK b) = true ∧ t.get F.FLT_RNGCNT_COUNT = (s.get F.FLT_RNGCNT_COUNT + 1) % 2 ^ 32 ∧
    t.fltBay b = { s.fltBay b with
      rng := (⟨now, h, s.get (bayf F.FLT_RNGRATIO_RATIO b), some (now + 768 * s.blankN)⟩ :: (s.fltBay b).rng).take 64
      blankTo := some (([3, 4, 5] : List Nat).foldl (fun e q => max e (s.s1After (6 * b + q) now s.blankN)) 0), want := none, quiet := now }
  let others (s : State) (b : Nat) (t : State) : Prop := t.flt = { s.flt with bays := t.flt.bays } ∧ ∀ c, c ≠ b → t.fltBay c = s.fltBay c
  (∀ (s : State) (b : Fin 8) (x : Int),
    let due := s.loud x && s.autoRange b.val && (s.fltBay b.val).high
    (due = false → Leads (.rangeToLowGain b x) s [] noRegs fun u => u = s) ∧
    (due = true → (s.fltBay b.val).blankTo = none →
      Does (.rangeToLowGain b x) s [.flt] (regsIn [R.FLT_BAYSTAT + 4 * b.val, R.FLT_STAT, R.FLT_RNGCNT]) fun t =>
        changed s b.val false s.tim.now t ∧ others s b.val t) ∧
    (due = true → (s.fltBay b.val).blankTo.isSome = true → Leads (.rangeToLowGain b x) s [.flt] noRegs fun u =>
      u.flt = { s.flt with bays := mput s.flt.bays b.val { s.fltBay b.val with want := some false } })) ∧
  (∀ (s : State) (b : Fin 8) (pa pb pc : Nat),
    let due := s.get F.FLT_RNG_DOWN != 0 && s.autoRange b.val && !(s.fltBay b.val).high && [pa, pb, pc].all fun v => s.quietS1 b.val v
    let now := max s.tim.now ((s.fltBay b.val).quiet + ticksOfMs (s.get F.FLT_RNGTIME_DWELL))
    (due = false → Leads (.rangeToHighGain b pa pb pc) s [] noRegs fun u => u = s) ∧
    (due = true → (s.fltBay b.val).blankTo = none →
      Does (.rangeToHighGain b pa pb pc) s [.tim, .flt] (regsIn [R.FLT_BAYSTAT + 4 * b.val, R.FLT_STAT, R.FLT_RNGCNT]) fun t =>
        t.tim = { s.tim with now := now } ∧ changed s b.val true now t ∧ others s b.val t) ∧
    (due = true → (s.fltBay b.val).blankTo.isSome = true → Does (.rangeToHighGain b pa pb pc) s [.tim, .flt] noRegs fun t =>
      t.tim = { s.tim with now := now } ∧ t.flt = { s.flt with bays := mput s.flt.bays b.val { s.fltBay b.val with want := some true } })) ∧
  (∀ (s : State) (b : Fin 8),
    let y := s.fltBay b.val
    let mode := s.get (bayf F.FLT_BAYCFG_RNGMODE b.val)
    let h := if !s.fltRuns || s.curFault b.val then y.high
      else if mode = 0 then (if s.autoRange b.val then y.want.getD y.high else y.high) else mode == 2
    (y.blankTo = none → Leads (.blankingEnd b) s [] noRegs fun u => u = s) ∧
    (∀ e, y.blankTo = some e →
      Does (.blankingEnd b) s [.tim, .flt] (regsIn [R.FLT_BAYSTAT + 4 * b.val, R.FLT_STAT, R.FLT_RNGCNT]) fun t =>
        t.tim = { s.tim with now := max s.tim.now e } ∧ others s b.val t ∧
          (h = y.high → t.flag (bayf F.FLT_BAYSTAT_BLANK b.val) = false ∧
            t.fltBay b.val = { y with blankTo := none, want := if s.fltRuns && !s.curFault b.val then none else y.want }) ∧
          (h ≠ y.high → changed s b.val h (max s.tim.now e) t))) ∧
  (∀ (s : State) (ch : Nat),
    let b := ch / 6
    let from0 := ((s.faultLog ch).head?.map fun p => p.1).getD s.fltT0
    let went (v : Bool) (now : Nat) (t : State) : Prop := t.pends 48 ∧ t.tim = { s.tim with now := now } ∧ t.chFault ch = v ∧
      (∀ c, c < 48 → c ≠ ch → t.chFault c = s.chFault c) ∧ bit (t.get F.FLT_STAT_FAULT) b = (t.get (bayf F.FLT_BAYSTAT_FAULT b) != 0) ∧
      t.flt = { s.flt with faults := mput s.flt.faults ch (((now, v) :: s.faultLog ch).take 8), bays := t.flt.bays }
    (s.bayClocked b = false ∨ s.chFault ch = true → Leads (.evFltModFault ch) s [] noRegs fun u => u = s) ∧
    (s.bayClocked b = false ∨ s.chFault ch = false → Leads (.evFltModRestored ch) s [] noRegs fun u => u = s) ∧
    (s.bayClocked b = true → s.chFault ch = false → Does (.evFltModFault ch) s [.tim, .flt] (regsIn [R.FLT_BAYSTAT + 4 * b, R.FLT_STAT]) fun t =>
      went true (max s.tim.now (from0 + ticksOfUs 50)) t ∧ t.flt.bays = s.flt.bays) ∧
    (s.bayClocked b = true → s.chFault ch = true →
      let free := [3, 4, 5].all (fun q => 6 * b + q == ch || !s.chFault (6 * b + q)) && (s.fltBay b).blankTo.isNone
      Does (.evFltModRestored ch) s [.tim, .flt] (regsIn [R.FLT_BAYSTAT + 4 * b, R.FLT_STAT, R.FLT_RNGCNT]) fun t =>
        went false (max s.tim.now (from0 + ticksOfMs 20)) t ∧ (free = false → t.flt.bays = s.flt.bays) ∧
          (free = true → s.get (bayf F.FLT_BAYCFG_RNGMODE b) ≠ 0 → (t.fltBay b).high = (s.get (bayf F.FLT_BAYCFG_RNGMODE b) == 2)))) ∧
  (∀ (s : State) (ch : Nat),
    ((mget s.flt.ovl ch).all (fun p => !p.2) = true → Leads (.overloadEpisodeEnd ch) s [] noRegs fun u => u = s) ∧
    (∀ last, mget s.flt.ovl ch = some (last, true) → Does (.overloadEpisodeEnd ch) s [.tim, .flt] noRegs fun t =>
      t.flt = { s.flt with ovl := mput s.flt.ovl ch (last, false) } ∧ t.tim = { s.tim with now := max s.tim.now (last + ticksOfMs 20) })) ∧
  (∀ (s : State) (ch tap w : Nat),
    (s.chOn ch = false ∨ 2 < tap → Leads (.tapSample ch tap w) s [] noRegs fun u => u = s) ∧
    (s.chOn ch = true → tap ≤ 2 →
      let bay := s.fltBay (ch / 6)
      let fast := tap == 2 && bay.fast
      let k := s.tapK ch tap
      let m := (s.tap ch tap).next
      let n := 2 ^ k / 32 * (m + 1)
      let tDec := s.tapTick ch k m
      let a := (s.s1Feeds ch w (n - (s.chan ch).n) (s.chan ch) []).1
      let win := a.win.drop (a.n - n)
      let cur := decide (3 ≤ ch % 6)
      Does (.tapSample ch tap w) s [.tim, .flt] (regsIn [R.FLT_BAYSTAT + 4 * (ch / 6), R.FLT_OVLCNT]) fun t =>
        t.tim = { s.tim with now := max s.tim.now tDec } ∧ (t.tap ch tap).next = m + 1 ∧ (t.chan ch).n = a.n ∧
          (∀ c y, y < 4 → (c ≠ ch ∨ y ≠ tap) → t.tap c y = s.tap c y) ∧ (∀ b, same (t.fltBay b) (s.fltBay b)) ∧
          ∃ x, (t.tap ch tap).out.head? = some x ∧ x.m = m ∧ x.tDec = tDec ∧ bit x.flags 3 = s.chFaultAt ch tDec ∧
            bit x.flags 0 = (cur && (bay.rngAt x.tEff).high) ∧
            (s.flt.swap = none → fast = false → x.v = tapFir (s.coefs s.bankActive tap) ((chainOut k win :: (s.tap ch tap).hist).take 64) ∧
              x.tEff = (x.tDec : Int) - gTicks k (s.coefs s.bankActive tap).length s.fltD ∧
              bit x.flags 2 = (win.take (chainLen k + ((s.coefs s.bankActive tap).length - 1) * (2 ^ k / 32))).any fun i => i.ovl) ∧
            (fast = true → x.v = fastOut (cur && (bay.rngAt tDec).high) (bay.rngAt tDec).ratio s.fltD (mgetD a.sums m 0) ∧
              x.tEff = (x.tDec : Int) - gFast s.fltD)))

/-- PMU_ESTIMATE_READY for the next instant of a class, with its windows held whole, marks the instant done; AUTO in M holds the P record; a
record of the class that counts, later than the last one, is committed and its frequency becomes the next reference, with source 52 where
the frequency source changes; another class's is dropped. With samples gone it counts in SKIP if it was of the class that counts; with
samples to come, or no instant to come, nothing happens. The settings, the AUTO state and the reference of the instant are those that were
fixed for it. PMU_DETECTOR_EVAL, each ms, triggers where RES or ROCOF of the newest window exceeds its threshold: TRIG counts, source 51,
the capture unit is told, and AUTO in M enters P and lets the records held under it go. PMU_RETURN_TO_M comes after HOLD, and after the
windows that hold the trigger have passed. What the fit's significands lose is open (log entry 73). (R281, R284, R286, R289, R290, R291,
R294, R295, R296) -/
def Obligations.PhasorEstimatesAreCommittedHeldOrSkipped : Prop :=
  let bayOnly (s v : State) (b : Nat) (y : PmuBay) : Prop :=
    v.pmuBay b = y ∧ (∀ c, c ≠ b → v.pmuBay c = s.pmuBay c) ∧ v.pmu = { s.pmu with bays := v.pmu.bays }
  (∀ (s : State) (b : Fin 8) (m : Bool) (bad : Nat), (s.flag F.PMU_CTRL_EN = false ∨ s.fltRuns = false ∨ s.bayChs b.val = [] ∨
      s.tim.anchor = none ∨ s.pmuNext b.val m = none) → Leads (.pmuEstimateReady b m bad) s [] noRegs fun u => u = s) ∧
  (∀ (s : State) (b : Fin 8) (m : Bool) (bad : Nat) (c : PmuCfg) (t : Nat × Nat) (cals : List (Nat × PmuCal)),
    s.pmuNext b.val m = some (c, t, cals) → s.flag F.PMU_CTRL_EN = true → s.fltRuns = true → s.bayChs b.val ≠ [] → s.tim.anchor.isSome = true →
    let x := s.pmuBay b.val
    let st := s.pmuStartOf b.val c t
    let win := s.windows b.val (c.w m) fun ch l => centreOf (calIn cals ch) st.2.2 st.2.1 (s.pmuLag c m) l
    let stM := s.pmuStM b.val (ukey t)
    let mine := if m then c.cmode == 1 || (c.cmode == 2 && stM) else c.cmode == 0 || (c.cmode == 2 && !stM)
    (win = .notYet → Leads (.pmuEstimateReady b m bad) s [] noRegs fun u => u = s) ∧
    (win = .gone → Does (.pmuEstimateReady b m bad) s [.pmu] (regsIn [R.PMU_CNT_SKIP]) fun v =>
      bayOnly s v b.val (x.mark m (ukey t) st) ∧ (mine = true → v.pends 52) ∧
        v.get F.PMU_CNT_SKIP_COUNT = (s.get F.PMU_CNT_SKIP_COUNT + b2n mine) % 2 ^ 32) ∧
    (∀ w, win = .ok w →
      let r := s.pmuRecord b.val c t (estimate ⟨m, c.w m, st.1, ukey t % 100000000000, st.2.1, st.2.2⟩ c.hz false cals bad w)
      let y := { x.mark m (ukey t) st with held := if m && c.cmode == 2 && stM then x.held.filter fun p => decide (ukey t < p.1) else x.held }
      let later := (x.lastOut.map fun o => decide (o < ukey t)).getD true
      (mine = false → Leads (.pmuEstimateReady b m bad) s [.pmu] noRegs fun v =>
        bayOnly s v b.val { y with held := if c.cmode == 2 && !m then mput x.held (ukey t) r else x.held }) ∧
      (mine = true → later = false → Leads (.pmuEstimateReady b m bad) s [.pmu] noRegs fun v => bayOnly s v b.val y) ∧
      (mine = true → later = true →
        (∃ u, exec (.pmuEstimateReady b m bad) s = .next u ∧
          bayOnly s u b.val { y with lastOut := some (ukey t), fsrc := r.fsrc, fref := nextFref c.hz r.freq } ∧ (r.fsrc ≠ x.fsrc → u.pends 52)) ∧
        (s.classify (8184 + b.val) c.rate ((s.pmuSpan (ukey t)).1, (s.pmuSpan (ukey t)).2.1) t = .between → s.flag F.ALN_CTRL_BETWEEN_SUPP = false →
          Does (.pmuEstimateReady b m bad) s [.pmu, .ing] (regsIn [R.PMU_CNT_REC]) fun u =>
            u.get F.PMU_CNT_REC_COUNT = (s.get F.PMU_CNT_REC_COUNT + 1) % 2 ^ 32 ∧
              (u.stat (8184 + b.val)).accepted = (s.stat (8184 + b.val)).accepted + 1)))) ∧
  (∀ (s : State) (b : Fin 8) (bad : Nat), (s.pmuCfgOf b.val).all (fun c => c.cmode != 2) = true ∨ s.pmuOn b.val = false →
    Leads (.pmuDetectorEval b bad) s [] noRegs fun u => u = s) ∧
  (∀ (s : State) (b : Fin 8) (bad : Nat) (c : PmuCfg), s.pmuCfgOf b.val = some c → c.cmode = 2 → s.pmuOn b.val = true →
    let x := s.pmuBay b.val
    let now := max s.tim.now (x.detAt + ticksOfMs 1)
    let win := s.windows b.val (c.w false) fun _ l => (l.head?).bind fun t => if c.w false ≤ t.m then some (t.m - c.w false) else none
    let mine (u : Nat) : Bool := !(x.wasM.any fun p => decide (u < p.1))
    let went (why : Nat) (t : State) : Prop := t.pends 51 ∧ t.get F.PMU_CNT_TRIG_COUNT = (s.get F.PMU_CNT_TRIG_COUNT + 1) % 2 ^ 32 ∧
      (t.pmuBay b.val).trig = some (now, why) ∧ ∀ y, mget s.trg.units b.val = some y → mget t.trg.units b.val = some { y with pmu := true }
    (win = .notYet ∨ win = .gone → Does (.pmuDetectorEval b bad) s [.tim] noRegs fun t => t.tim = { s.tim with now := now }) ∧
    (∀ w, win = .ok w →
      let e := estimate ⟨false, c.w false, s.frefNow b.val c.hz, 0, (now * 65536 : Nat), s.incr⟩ c.hz true s.pmu.cal.eff bad w
      let byRes := s.get F.PMU_DET_RESTH != 0 && ((s.resSq e c.vnom).map fun r =>
        (Dy.ofInt ((s.get F.PMU_DET_RESTH * s.get F.PMU_DET_RESTH : Nat) : Int)).lt (r.mul (Dy.ofInt 1000000))).getD false
      let byRf := s.get F.PMU_DET_RFTH != 0 && ((e.source (s.freqSrc e c.vnom)).map fun f =>
        (Dy.ofInt (s.get F.PMU_DET_RFTH)).lt ((Dy.mk f.rocof.m.natAbs f.rocof.e).mul (Dy.ofInt 100))).getD false
      let why := if byRes then 8 else 5
      let enter := x.stM && s.flag F.PMU_CTRL_AUTO_EN
      ((byRes || byRf) = false → Does (.pmuDetectorEval b bad) s [.tim, .pmu] noRegs fun t =>
        t.tim = { s.tim with now := now } ∧ bayOnly s t b.val { x with detAt := now }) ∧
      ((byRes || byRf) = true → enter = false → Does (.pmuDetectorEval b bad) s [.tim, .pmu, .trg] (regsIn [R.PMU_CNT_TRIG]) fun t =>
        went why t ∧ bayOnly s t b.val { x with detAt := now, trig := some (now, why) }) ∧
      ((byRes || byRf) = true → enter = true → (x.held.filter fun p => mine p.1) = [] →
        Does (.pmuDetectorEval b bad) s [.tim, .pmu, .trg] (regsIn [R.PMU_CNT_TRIG, R.PMU_CNT_CLASS]) fun t => went why t ∧
          t.get F.PMU_CNT_CLASS_COUNT = (s.get F.PMU_CNT_CLASS_COUNT + 1) % 2 ^ 32 ∧
          bayOnly s t b.val { x with detAt := now, trig := some (now, why), stM := false, held := x.held.filter fun p => !mine p.1 }) ∧
      ((byRes || byRf) = true → enter = true → ∃ t, exec (.pmuDetectorEval b bad) s = .next t ∧ went why t ∧ (t.pmuBay b.val).stM = false ∧
        (t.pmuBay b.val).held = (x.held.filter fun p => !mine p.1) ∧
        ((x.held.filter fun p => mine p.1).all fun p => ((t.pmuBay b.val).lastOut.map fun o => decide (ukey (p.2.soc, p.2.ns) ≤ o)).getD false) = true))) ∧
  (∀ (s : State) (b : Fin 8),
    let x := s.pmuBay b.val
    let due := (s.pmuCfgOf b.val).any (fun c => c.cmode == 2) && x.trig.isSome && !x.stM && s.flag F.PMU_CTRL_AUTO_EN
    (due = false → Leads (.pmuReturnToM b) s [] noRegs fun u => u = s) ∧
    (∀ (c : PmuCfg) (g : Nat × Nat), s.pmuCfgOf b.val = some c → x.trig = some g → due = true →
      let d := max (ticksOfMs (s.get F.PMU_HOLD_MS)) (ticksOfUs (200 * c.w true) + s.get F.FLT_GD_PH_TICKS + ticksOfUs 350)
      Does (.pmuReturnToM b) s [.tim, .pmu] (regsIn [R.PMU_CNT_CLASS]) fun t =>
        t.pends 51 ∧ bayOnly s t b.val { x with stM := true } ∧ t.tim = { s.tim with now := max s.tim.now (g.1 + d) } ∧
          t.get F.PMU_CNT_CLASS_COUNT = (s.get F.PMU_CNT_CLASS_COUNT + 1) % 2 ^ 32))

/-- PMU_CFG with ENABLE = 1 and every field in range is answered ST_OK and puts the bay's settings in the shadow. With ENABLE = 0 the bay's
other settings stay as they are there, but TEST and DIGEN. CAL_LOAD of good entries is answered ST_OK and writes each channel's into the
shadow, the phasor calibration with TABLE 0, the energy correction with TABLE 1; with a bad entry its status and its channel. A field out of
range (ST_BAD_PARAM, a channel count of zero or past the last channel ST_BAD_LENGTH), TABLE 1 under PRESET_LOCK (ST_DENIED), a commit that
prepares (ST_BUSY), a sum of rates past the budget (ST_NO_RESOURCE), and a poisoned or late host read end either with the status of the
first check that fails; then nothing changes. What is in effect stays. (R288, R296, R306, R416, R417) -/
def Obligations.PhasorSettingsAndCalibrationAreLoaded : Prop :=
  (∀ (s : State) (r : Fn) (b : List Byte), Starts s r 0x48 24 false b →
    let c := pmuCfgOf b
    let shadow := mget s.pmu.cfg.shadow (le b 8 1)
    let others := s.rateSum s.ing.streams.shadow - (shadow.map fun o => if o.enable then rateOf o.rate else 0).getD 0
    let bad := firstFail [(decide (7 < le b 8 1), St.badParam), (decide (7 < le b 9 1), St.badParam), (c.enable && decide (11 < c.rate), St.badParam),
      (c.enable && decide (2 < c.cmode), St.badParam), (c.enable && decide (7 < c.ansel), St.badParam), (c.enable && decide (1 < c.fnom), St.badParam),
      (c.enable && !zeroAt b 15 1, St.badParam), (c.enable && (c.idcode == 0 || c.idcode == 65535), St.badParam), (c.enable && !zeroAt b 18 2, St.badParam),
      (c.enable && (!f32Finite c.vnom || !f32Lt 0 c.vnom), St.badParam), (s.cmd.prep.isSome, St.busy),
      (c.enable && decide (rateBudget < others + rateOf c.rate), St.noResource)]
    (∀ st, bad = some st → Answers (.pmuCfg r) s r b st [] [] [] fun _ => True) ∧
    (bad = none → Answers (.pmuCfg r) s r b St.ok [] [.pmu, .ecc] [] fun t => t.pmu = { s.pmu with cfg := t.pmu.cfg } ∧
      (c.enable = true → t.pmu.cfg = s.pmu.cfg.put (le b 8 1) c) ∧
      (∀ o, shadow = some o → c.enable = false →
        t.pmu.cfg = s.pmu.cfg.put (le b 8 1) { o with enable := false, test := c.test, digen := c.digen }) ∧
      (shadow = none → c.enable = false → t.pmu.cfg = s.pmu.cfg.put (le b 8 1)
        { c with rate := 0, cmode := 0, phsel := 0, ansel := 0, fnom := 0, idcode := 0, vnom := 0 }))) ∧
  (∀ (s : State) (r : Fn) (b : List Byte) (h : HostRead), Starts s r 0x49 24 false b →
    let first := le b 17 1
    let n := le b 18 1
    let fails (c : Instr) (st : Nat) (res : List Byte) : Prop := Answers c s r b st res [] [] fun _ => True
    let bad := firstFail [(le b 8 8 % 8 != 0, St.badParam), (decide (1 < le b 16 1), St.badParam), (decide (47 < first), St.badParam),
      (n == 0 || decide (48 < first + n), St.badLength), (!zeroAt b 19 5, St.badParam), (le b 16 1 == 1 && s.flag F.NRG_CTRL_PRESET_LOCK, St.denied),
      (s.cmd.prep.isSome, St.busy)]
    (∀ st, bad = some st → fails (.calLoad r h) st []) ∧
    (bad = none → fails (.calLoad r .poison) St.poison [] ∧ fails (.calLoad r .timeout) St.timeout [] ∧ ∀ buf : List Byte,
      (le b 16 1 = 0 →
        (∀ e, readEntries calEntry 32 first buf n = .inl e → fails (.calLoad r (.data buf)) e.2 (toLe 2 e.1)) ∧
        (∀ l, readEntries calEntry 32 first buf n = .inr l → Answers (.calLoad r (.data buf)) s r b St.ok [] [.pmu, .ecc] [] fun t =>
          t.pmu = { s.pmu with cal := { s.pmu.cal with shadow := t.pmu.cal.shadow, dirty := t.pmu.cal.dirty } } ∧ (∀ k, k < first ∨ first + n ≤ k →
            mget t.pmu.cal.shadow k = mget s.pmu.cal.shadow k) ∧
          ∀ i, i < n → ∃ v, calEntry (first + i) (bytesAt buf (32 * i) 32) = .inr v ∧ mget t.pmu.cal.shadow (first + i) = some v)) ∧
      (le b 16 1 = 1 →
        (∀ e, readEntries corrEntry 136 first buf n = .inl e → fails (.calLoad r (.data buf)) e.2 (toLe 2 e.1)) ∧
        (∀ l, readEntries corrEntry 136 first buf n = .inr l → Answers (.calLoad r (.data buf)) s r b St.ok [] [.nrg, .ecc] [] fun t =>
          t.nrg = { s.nrg with corr := { s.nrg.corr with shadow := t.nrg.corr.shadow, dirty := t.nrg.corr.dirty } } ∧ (∀ k, k < first ∨ first + n ≤ k →
            mget t.nrg.corr.shadow k = mget s.nrg.corr.shadow k) ∧
          ∀ i, i < n → ∃ v, corrEntry (first + i) (bytesAt buf (136 * i) 136) = .inr v ∧ mget t.nrg.corr.shadow (first + i) = some v))))

/-- ENERGY_TICK, when ready, brings TIME to the boundary, counts NRG_TICK, and, with no preset pending and no bay at its cycle's end, adds |v i|
SCALE / 2^24, rounded, to each good phase's register by the product's sign, and the sum of the products likewise to the bay's; once a cycle
has completed, each good phase also gets its V_rms I_rms, |P_f| by sign and |Q_f| by quadrant. A phase without a pair, or a disabled bay,
gets nothing. A due snapshot is taken at the boundary, and the periodic save falls due every 20 MS ticks. What an earlier boundary left due
is done first: a save, and each full bay's cycle end. When not ready nothing happens. ENERGY_CYCLE_END of a full bay takes the cycle's
values from its pairs and starts the next cycle; of another bay it does nothing. ENERGY_PERIODIC_SAVE writes the due image to the slot that
does not hold the newest valid one, and counts; a bad read-back leaves that slot invalid. ENERGY_FLASH_COPY copies the newest valid slot, if
there is one, every FLASH_MIN minutes while the firmware runs. (R300, R302, R303, R304, R307, R308, R309, R310, R311, R315, R316) -/
def Obligations.EnergyTicksAccumulateAndSave : Prop :=
  (∀ s : State, s.nrgReady = false → Leads .energyTick s [] noRegs fun u => u = s) ∧
  (∀ s : State, s.nrgReady = true →
    (∃ t, exec .energyTick s = .next t ∧ t.tim = { s.tim with now := max s.tim.now (s.nrgTickAt s.nrg.next) } ∧ t.nrg.next = s.nrg.next + 1 ∧
      t.get64 R.NRG_TICK_LO R.NRG_TICK_HI = s.nrg.next % 2 ^ 64 ∧ t.nrg.preset = [] ∧
      (∀ b, b < 8 → (t.nrgBay b).ticks = if (s.nrgBay b).full then 1 else (s.nrgBay b).ticks + 1) ∧
      (∀ d, s.nrg.saveDue = some d → s.nrg.preset = [] → t.nrg.slots = mput s.nrg.slots (match s.newestSlot with | some (0, _) => 1 | _ => 0)
        (s.slotImage 0 ((s.get F.NRG_SAVESEQ_SEQ + 1) % 2 ^ 32) d.1 d.2))) ∧
    (s.nrg.preset = [] → s.nrg.saveDue = none → mrising s.nrg.acc = true → (∀ b, b < 8 → (s.nrgBay b).full = false) →
      Does .energyTick s [.tim, .nrg] (regsIn [R.NRG_TICK_LO, R.NRG_TICK_HI, R.NRG_CNT_FAULTTICK]) fun t =>
        t.nrg = { s.nrg with next := s.nrg.next + 1, acc := t.nrg.acc, bays := t.nrg.bays, normal := t.nrg.normal, snapImg := t.nrg.snapImg, saveCnt := t.nrg.saveCnt, saveDue := t.nrg.saveDue } ∧
          (t.nrg.saveDue.isSome = (s.flag F.NRG_CTRL_SAVE_EN && decide (20 * s.get F.NRG_SAVE_MS ≤ s.nrg.saveCnt + 2))) ∧
          (t.nrg.saveCnt = if s.flag F.NRG_CTRL_SAVE_EN && decide (s.nrg.saveCnt + 2 < 20 * s.get F.NRG_SAVE_MS) then s.nrg.saveCnt + 1 else 0) ∧
          (t.nrg.snapImg.isSome = (s.nrg.snapImg.isSome || (s.nrg.snap.map fun d => decide (d.2 ≤ t.taiNs)).getD false)) ∧
          ∀ b, b < 8 →
            let ep := s.nrgEpoch b s.nrg.next
            let sc := s.nrgScale ep b
            let add (i inc : Nat) : Prop := t.nrgAcc i = (s.nrgAcc i + inc) % 2 ^ 120
            let same (i : Nat) : Prop := t.nrgAcc i = s.nrgAcc i
            (s.nrgReg ep (bayf F.NRG_CFG_EN b) = 0 → ∀ i, i / 36 = b → same i) ∧
            (s.nrgReg ep (bayf F.NRG_CFG_EN b) ≠ 0 →
              (∀ p v i rv ri, s.nrgPair ep b p s.nrg.next = .ok v i rv ri → p < 3 →
                add (nrgIdx b p (if 0 ≤ v * i then 0 else 1)) (nrgInc (v * i) sc) ∧ same (nrgIdx b p (if 0 ≤ v * i then 1 else 0)) ∧
                ((s.nrgBay b).cyc = none → ∀ q, 2 ≤ q → q < 9 → same (nrgIdx b p q)) ∧
                (∀ cs, (s.nrgBay b).cyc = some cs → let c := (cs[p]?).getD ⟨0, 0, 0⟩
                  add (nrgIdx b p 2) (nrgInc c.va sc) ∧ add (nrgIdx b p (if 0 ≤ c.pf then 3 else 4)) (nrgInc c.pf sc) ∧
                    add (nrgIdx b p (quadrant c.pf c.qf)) (nrgInc c.qf sc))) ∧
              (∀ p q, p < 3 → q < 9 → (match s.nrgPair ep b p s.nrg.next with | .ok _ _ _ _ => false | _ => true) = true → same (nrgIdx b p q)) ∧
              ∀ (x : Int) (prods : List Int), prods = (List.range 3).filterMap (fun p =>
                  match s.nrgPair ep b p s.nrg.next with
                  | .ok v i _ _ => some (v * i)
                  | _ => none) → x = prods.foldl (· + ·) 0 → prods ≠ [] → add (nrgIdx b 3 (if 0 ≤ x then 0 else 1)) (nrgInc x sc)))) ∧
  (∀ (s : State) (b : Fin 8),
    ((s.nrgBay b.val).full = false → Leads (.energyCycleEnd b) s [] noRegs fun u => u = s) ∧
    ((s.nrgBay b.val).full = true →
      let y := s.nrgBay b.val
      let f := s.nrgFref (s.nrgEpoch b.val s.nrg.next) b.val
      let cyc (p : Nat) : NrgCyc := cycOf y.fref ((y.pairs.filter fun x => x.1 == p).map fun x => x.2)
      let rms (q : Nat) : Nat × Nat := (q, rmsX ((y.raw.filter fun x => x.1 == q).map fun x => x.2))
      Leads (.energyCycleEnd b) s [.nrg] noRegs fun u => u.nrg = { s.nrg with bays := mput s.nrg.bays b.val ⟨(4000000 + f) / (2 * max f 1), f, 0, [], [], some [cyc 0, cyc 1, cyc 2], (List.range 6).map rms⟩ })) ∧
  (∀ (s : State) (ok : Bool), s.nrg.saveDue = none → Leads (.energyPeriodicSave ok) s [] noRegs fun u => u = s) ∧
  (∀ (s : State) (d : Nat × Nat), s.nrg.saveDue = some d →
    let n := match s.newestSlot with | some (0, _) => 1 | _ => 0
    let seq := (s.get F.NRG_SAVESEQ_SEQ + 1) % 2 ^ 32
    (Does (.energyPeriodicSave true) s [.nrg] (regsIn [R.NRG_SAVESEQ, R.NRG_CNT_SAVE]) fun t => t.pends 53 ∧
      t.nrg = { s.nrg with slots := mput s.nrg.slots n (s.slotImage 0 seq d.1 d.2), saveDue := none } ∧ t.get F.NRG_SAVESEQ_SEQ = seq ∧
      t.get F.NRG_CNT_SAVE_COUNT = (s.get F.NRG_CNT_SAVE_COUNT + 1) % 2 ^ 32) ∧
    (Does (.energyPeriodicSave false) s [.nrg] noRegs fun t => t.pends 54 ∧
      t.nrg = { s.nrg with slots := merase s.nrg.slots n, saveDue := none })) ∧
  (∀ s : State,
    let now := max s.tim.now (s.nrg.flashAt + ticksOfS (60 * s.get F.NRG_SAVE_FLASH_MIN))
    (s.get F.NRG_SAVE_FLASH_MIN = 0 ∨ s.fwRuns = false → Leads .energyFlashCopy s [] noRegs fun u => u = s) ∧
    (s.get F.NRG_SAVE_FLASH_MIN ≠ 0 → s.fwRuns = true → Does .energyFlashCopy s [.tim, .nrg] noRegs fun t => t.tim = { s.tim with now := now } ∧
      t.nrg = { s.nrg with flashAt := now, flash := match s.newestSlot with | some x => some x.2 | none => s.nrg.flash }))

/-- NRG_SNAPSHOT with MODE 0 completes the tick in progress and writes 4640 bytes with NRG_TICK and every register of that boundary; it waits
while the tick cannot complete, and is answered ST_TIMEOUT where accumulation does not run, or where the block could not be written. MODE 1
is answered ST_PENDING, or ST_BUSY with one pending; EV_NRG_SNAPSHOT writes the image taken, if one is, and raises source 55. NRG_PRESET
waits; the next tick sets the chosen registers to its values with residue 0 after the tick's own additions, and answers it; with PRESET_LOCK
it is answered ST_DENIED, during PFHOLD ST_ABORTED. A wrong parameter of either, and a poisoned or late host read, end it with the status of
the first check that fails; then nothing changes. (R303, R316, R317, R412, R416) -/
def Obligations.SnapshotsAndPresetsAtTickBoundaries : Prop :=
  (∀ (s : State) (r : Fn) (b : List Byte) (issued : Bool), Starts s r 0x50 32 false b →
    let m := le b 20 1
    let bad := firstFail [(le b 8 8 % 8 != 0, St.badParam), (decide (le b 16 4 < 4640), St.badLength), (decide (1 < m), St.badParam),
      (!zeroAt b 21 3, St.badParam), ((m == 0 && !zeroAt b 24 8) || (m == 1 && decide (s.taiNs + 3600000000000 < le b 24 8)), St.badParam),
      (!s.flag F.NRG_CTRL_EN, St.state), (m == 1 && s.nrg.snap.isSome, St.busy), (m == 0 && !s.nrgRuns, St.timeout)]
    let dest := fun (t : State) (img : List Byte) => Out.dma r (le b 8 8) img ∈ t.out.drop s.out.length ∧ img.length = 4640 ∧
      le img 8 8 = s.nrg.next % 2 ^ 64 ∧ ∀ i, i < 288 → le img (32 + 16 * i) 9 = t.nrgAcc i / 2 ^ 48 % 2 ^ 72
    let tickRegs := [R.NRG_TICK_LO, R.NRG_TICK_HI, R.NRG_CNT_FAULTTICK]
    (∀ st, bad = some st → Answers (.nrgSnapshot r issued) s r b st [] [] [] fun _ => True) ∧
    (bad = none → m = 1 → Answers (.nrgSnapshot r issued) s r b St.pending [] [.nrg] [R.NRG_STAT] fun t =>
      t.flag F.NRG_STAT_SNAP_PEND = true ∧ t.nrg = { s.nrg with snap := some (le b 8 8, le b 24 8), snapImg := none }) ∧
    (bad = none → m = 0 → s.nrgReady = false → Leads (.nrgSnapshot r issued) s [] noRegs fun u => u = s) ∧
    (bad = none → m = 0 → s.nrgReady = true → issued = true → (s.pfn r).bme = true →
      (∃ t, exec (.nrgSnapshot r issued) s = .next t ∧ t.nrg.next = s.nrg.next + 1 ∧ ∃ img, dest t img) ∧
      (s.nrg.preset = [] → s.nrg.saveDue = none → Answers (.nrgSnapshot r issued) s r b St.ok [] [.tim, .nrg] tickRegs fun t =>
        t.nrg.next = s.nrg.next + 1 ∧ ∃ img, dest t img)) ∧
    (bad = none → m = 0 → s.nrgReady = true → issued = false ∨ (s.pfn r).bme = false → s.nrg.preset = [] → s.nrg.saveDue = none →
      Answers (.nrgSnapshot r issued) s r b St.timeout [] [.tim, .nrg] tickRegs fun t => t.nrg.next = s.nrg.next + 1)) ∧
  (∀ s : State, s.nrg.snap = none ∨ s.nrg.snapImg = none → Leads .evNrgSnapshot s [] noRegs fun u => u = s) ∧
  (∀ (s : State) (d : Nat × Nat) (img : List Byte), s.nrg.snap = some d → s.nrg.snapImg = some img →
    Leads .evNrgSnapshot s [.nrg, .out] (regsIn [R.NRG_STAT]) fun u =>
      u.out = s.out ++ (if (s.pfn .pf0).bme then [Out.dma .pf0 d.1 img] else []) ∧ u.pends 55 ∧
        u.flag F.NRG_STAT_SNAP_PEND = false ∧ u.nrg = { s.nrg with snap := none, snapImg := none }) ∧
  (∀ (s : State) (r : Fn) (b : List Byte) (h : HostRead), Starts s r 0x51 24 false b →
    let q := le b 10 2
    let fails (c : Instr) (st : Nat) : Prop := Answers c s r b st [] [] [] fun _ => True
    let bad := firstFail [(decide (7 < le b 8 1), St.badParam), (decide (3 < le b 9 1), St.badParam), (q == 0 || decide (511 < q), St.badParam),
      (!zeroAt b 12 4, St.badParam), (le b 16 8 % 8 != 0, St.badParam), (s.flag F.NRG_CTRL_PRESET_LOCK, St.denied)]
    (∀ st, bad = some st → fails (.nrgPreset r h) st) ∧
    (bad = none → fails (.nrgPreset r .poison) St.poison ∧ fails (.nrgPreset r .timeout) St.timeout ∧ ∀ buf : List Byte,
      let wrong := (List.range 9).any fun i => bit q i && !zeroAt buf (16 * i + 9) 7
      (wrong = true → fails (.nrgPreset r (.data buf)) St.badParam) ∧
      (wrong = false → s.flag F.NRG_STAT_PFHOLD = true → fails (.nrgPreset r (.data buf)) St.aborted) ∧
      (wrong = false → s.flag F.NRG_STAT_PFHOLD = false →
        Does (.nrgPreset r (.data buf)) s [.cmd, .nrg] (regsIn [R.CMD_INFLIGHT, ringReg .pf1 R.CMD_INFLIGHT]) fun t =>
          t.cmd = { (s.popHead r).cmd with fly := s.cmd.fly ++ [Fly.mk r b 0 false true [] none] } ∧ t.out = s.out ∧
            t.nrg = { s.nrg with preset := s.nrg.preset ++ [(le b 8 1, le b 9 1, q, (List.range 9).map fun i => le buf (16 * i) 9)] }))) ∧
  (∀ (s : State) (b g q : Nat) (vs : List Nat), s.nrg.preset = [(b, g, q, vs)] → s.nrgReady = true → b < 8 → g < 4 → mrising s.nrg.acc = true →
    ∃ t, exec .energyTick s = .next t ∧ t.nrg.preset = [] ∧ t.nrg.next = s.nrg.next + 1 ∧
      (∀ i, i < 9 → bit q i = true → t.pends 54 ∧ t.nrgAcc (nrgIdx b g i) = (vs[i]?).getD 0 % 2 ^ 72 * 2 ^ 48) ∧
      (∀ f, f ∈ s.cmd.fly → s.fwRuns = true → f.waiting = true → pkOp f.bytes = 0x51 → f ∉ t.cmd.fly))

/-- CAPTURE_INSTANT_EVAL of an armed unit whose samples have come counts every condition on the event vector; a capture that has ended is
completed first. In FILL or ARMED a hit or a force triggers: TRIG, source 56, POST with the trigger sample, HITS and its lowest cause, the
other armed units told, TRIGO driven where it is selected; in POST a hit counts in INPOST, in HELD in MISS. The last sample of a group is
stored: its set goes behind the last of its segment, whose page gets its words. With samples to come, or no arming, nothing happens.
EV_TRG_DONE of an ended capture with segments holds it under the next handle, counts CAPT and CAPNO, raises source 57, and the unit becomes
IDLE after the last capture, HELD after a truncated one; one without segments delivers nothing. CAPTURE_HELD_RESUME starts a ring where it
can be had, else the unit stays HELD without segments. CAPTURE_REOFFER offers the capture that waited longest, 1 ms after its last offer.
Where the cause does not hold, nothing changes. (R129, R321, R322, R323, R325, R327, R329, R333, R334, R335, R336, R337) -/
def Obligations.CaptureInstantsTriggerStoreAndComplete : Prop :=
  (∀ (s : State) (b : Fin 8), (s.trgUnit b.val).cfg = none → Leads (.captureInstantEval b) s [] noRegs fun w => w = s) ∧
  (∀ (s : State) (b : Fin 8) (k : TrgCap), (s.trgUnit b.val).cap = some k → k.ended = true →
    exec (.captureInstantEval b) s = exec (.captureInstantEval b) (s.trgDone b.val)) ∧
  (∀ (s : State) (b : Fin 8) (c : TrgCfg), (s.trgUnit b.val).cfg = some c → ((s.trgUnit b.val).cap.map fun k => k.ended).getD false = false →
    let u := s.trgUnit b.val
    let m := u.next
    let v := s.reach (s.tapTick (6 * b.val + 5) (s.fltBay b.val).k m)
    let runs := (c.conds.zip u.runs).map fun p => p.1.count (v.eventVector b.val c u) p.2
    let hits := (c.conds.zip runs).zipIdx.foldl (fun a p => a + 2 ^ p.2 * b2n (p.1.1.hit p.1.2)) 0
    let toCome := (List.range 6).any fun q => s.chOn (6 * b.val + q) && (s.cpSample b.val q m).isNone
    let on (t : State) : Prop := t.tim = v.tim ∧ (t.trgUnit b.val).runs = runs ∧ (t.trgUnit b.val).next = m + 1 ∧ (t.trgUnit b.val).seen = u.seen + 1 ∧
      (t.trgUnit b.val).force = false ∧ (t.trgUnit b.val).pmu = false ∧ (t.trgUnit b.val).peer = false ∧ (t.trgUnit b.val).xfire = none ∧
      (t.trgUnit b.val).trigi = s.trigiCarry u.trigi ∧ t.trg.done = s.trg.done
    let others (t : State) : Prop := ∀ i, i ≠ b.val → t.trgUnit i = s.trgUnit i
    (toCome = true → Leads (.captureInstantEval b) s [] noRegs fun w => w = s) ∧
    (toCome = false → u.st = 1 ∨ u.st = 2 → hits = 0 → u.force = false →
      Does (.captureInstantEval b) s [.tim, .trg] noRegs fun t => on t ∧ others t ∧ (u.cap = none → (t.trgUnit b.val).cap = none) ∧
        ((t.trgUnit b.val).st = u.st ∨ (u.st = 1 ∧ (t.trgUnit b.val).st = 2 ∧ c.npre u.rlog ≤ (t.trgUnit b.val).gathered)) ∧
        (m % 2 ^ u.rlog + 1 ≠ 2 ^ u.rlog → (t.trgUnit b.val).segs = u.segs) ∧
        (∀ (g : TrgSeg) (l : List TrgSeg) (x : TrgSet), x = v.formSet b.val c u m → u.segs.getLast? = some g →
          putLast c.nset x u.segs = some l → m % 2 ^ u.rlog + 1 = 2 ^ u.rlog →
          (t.trgUnit b.val).segs = l ∧ (t.trgUnit b.val).gathered = u.gathered + 1 ∧ ∀ p, mget s.sett.pages g.page = some p → g.sets ≠ [] →
            (mget t.sett.pages g.page).map (fun p => p.words) = some (p.words ++ ringWords c b.val g.sets.length x))) ∧
    (toCome = false → u.st = 1 ∨ u.st = 2 → hits ≠ 0 ∨ u.force = true →
      Does (.captureInstantEval b) s [.tim, .trg, .cas] (regsIn [R.TRG_CNT_TRIG, R.TRG_CNT_TRUNC, R.CAS_XFIRE_CNT]) fun t =>
        on t ∧ t.pends 56 ∧ (u.st = 1 → t.pends 58) ∧ (t.trgUnit b.val).st = 3 ∧
          t.get F.TRG_CNT_TRIG_COUNT = (s.get F.TRG_CNT_TRIG_COUNT + 1) % 2 ^ 32 ∧
          (∀ i, i < 8 → i ≠ b.val → t.trgUnit i = if (s.trgUnit i).st = 0 then s.trgUnit i else { s.trgUnit i with peer := true }) ∧
          t.trg.trigoTo = (if bit (s.get F.TRG_TRIGIO_TRIGO_MASK) b.val && s.get F.TRG_TRIGIO_TRIGO_WIDTH != 0 then
            some (t.tim.now + ticksOfUs (s.get F.TRG_TRIGIO_TRIGO_WIDTH)) else s.trg.trigoTo) ∧
          ∃ k, (t.trgUnit b.val).cap = some k ∧ k.mt = m ∧ k.hits = hits ∧ k.cause = (lowBit? hits 16).getD 0 ∧ k.group = m / 2 ^ u.rlog ∧
            k.ttrig = s.tapTick (6 * b.val) (s.fltBay b.val).k m - s.tim.base ∧ k.delay = s.gCp b.val ∧ bit k.flags 1 = u.force ∧
            bit k.flags 2 = (u.st == 1) ∧ k.npost = c.npost u.rlog) ∧
    (toCome = false → u.st = 3 → Does (.captureInstantEval b) s [.tim, .trg] (regsIn [R.TRG_CNT_INPOST, R.TRG_CNT_TRUNC]) fun t =>
      on t ∧ others t ∧ (t.trgUnit b.val).st = 3 ∧
        t.get F.TRG_CNT_INPOST_COUNT = (s.get F.TRG_CNT_INPOST_COUNT + b2n (hits != 0)) % 2 ^ 32) ∧
    (toCome = false → u.st = 4 → Does (.captureInstantEval b) s [.tim, .trg] (regsIn [R.TRG_CNT_MISS]) fun t =>
      on t ∧ others t ∧ (t.trgUnit b.val).st = 4 ∧ (t.trgUnit b.val).segs = u.segs ∧
        t.get F.TRG_CNT_MISS_COUNT = (s.get F.TRG_CNT_MISS_COUNT + b2n (hits != 0)) % 2 ^ 32)) ∧
  (∀ (s : State) (b : Fin 8), (s.trgUnit b.val).cfg = none ∨ ((s.trgUnit b.val).cap.map fun k => k.ended).getD false = false →
    Leads (.evTrgDone b) s [] noRegs fun w => w = s) ∧
  (∀ (s : State) (b : Fin 8) (c : TrgCfg) (k : TrgCap), (s.trgUnit b.val).cfg = some c → (s.trgUnit b.val).cap = some k → k.ended = true →
    let u := s.trgUnit b.val
    Does (.evTrgDone b) s [.trg] (regsIn [R.TRG_CNT_CAPT, R.TRG_CNT_RATE]) fun t =>
      (t.trgUnit b.val).capno = (u.capno + 1) % 65536 ∧ (t.trgUnit b.val).cap = none ∧ (t.trgUnit b.val).segs = [] ∧
        (∀ i, i ≠ b.val → t.trgUnit i = s.trgUnit i) ∧
        (u.segs = [] → t.trg.done = s.trg.done ∧ t.get F.TRG_CNT_CAPT_COUNT = s.get F.TRG_CNT_CAPT_COUNT) ∧
        (u.segs ≠ [] → t.pends 57 ∧ t.get F.TRG_CNT_CAPT_COUNT = (s.get F.TRG_CNT_CAPT_COUNT + 1) % 2 ^ 32 ∧ t.trg.nextId = s.trg.nextId + 1 ∧
          ∃ d, mget t.trg.done s.trg.nextId = some d ∧ d.bay = b.val ∧ d.armno = u.armno ∧ d.capno = u.capno ∧ d.queue = c.queue ∧
            d.pkt.pages = u.segs.map fun g => g.page) ∧
        (c.captures ≠ 0 → u.left ≤ 1 → (t.trgUnit b.val).st = 0 ∧ (t.trgUnit b.val).cfg = none ∧ t.pends 59) ∧
        (c.captures = 0 ∨ 1 < u.left → bit k.flags 3 = true → (t.trgUnit b.val).st = 4 ∧ t.pends 58)) ∧
  (∀ (s : State) (b : Fin 8), (s.trgUnit b.val).st ≠ 4 ∨ (s.trgUnit b.val).cfg = none → Leads (.captureHeldResume b) s [] noRegs fun w => w = s) ∧
  (∀ (s : State) (b : Fin 8) (c : TrgCfg), (s.trgUnit b.val).cfg = some c → (s.trgUnit b.val).st = 4 →
    let u := s.trgUnit b.val
    ((s.rearm b.val c).1 = false → Does (.captureHeldResume b) s [.trg] noRegs fun t =>
      t.trgUnit b.val = { u with segs := [], spare := [] } ∧ (∀ i, i ≠ b.val → t.trgUnit i = s.trgUnit i) ∧ t.trg.done = s.trg.done) ∧
    ((s.rearm b.val c).1 = true → Does (.captureHeldResume b) s [.trg] (regsIn [R.TRG_CNT_RATE]) fun t =>
      (t.trgUnit b.val).rlog = s.nextRlog b.val c ∧ (t.trgUnit b.val).gathered = 0 ∧ (t.trgUnit b.val).cap = none ∧
        (t.trgUnit b.val).next = max u.next (s.cpAfter b.val) ∧ (t.trgUnit b.val).ring0 = max u.next (s.cpAfter b.val) ∧
        (t.trgUnit b.val).st = (if c.npre (s.nextRlog b.val c) = 0 then 2 else 1) ∧ (∀ i, i ≠ b.val → t.trgUnit i = s.trgUnit i) ∧
        (t.trgUnit b.val).spare.length = u.spare.length + c.ringSegs (s.nextRlog b.val c))) ∧
  (∀ s : State, (s.trg.done.all fun p => p.2.admitted) = true → Leads .captureReoffer s [] noRegs fun w => w = s) ∧
  (∀ (s : State) (id : Nat) (d : TrgDone), s.trg.done.find? (fun p => !p.2.admitted &&
      s.trg.done.all fun q => q.2.admitted || decide (p.2.offerAt < q.2.offerAt) || (p.2.offerAt == q.2.offerAt && decide (p.1 ≤ q.1))) = some (id, d) → mrising s.trg.done = true →
    Does .captureReoffer s [.tim, .trg] noRegs fun t => t.tim = { s.tim with now := max s.tim.now (d.offerAt + ticksOfMs 1) } ∧
      t.trg.units = s.trg.units ∧ (∀ i, i ≠ id → mget t.trg.done i = mget s.trg.done i) ∧
      ∃ a, mget t.trg.done id = some { d with admitted := a, offerAt := t.tim.now } ∧ (s.hqSelects d.queue (2 ^ 6) = false → a = false))

/-- TRG_ARM of an idle unit with every field in range is answered ST_OK and ARMNO where its ring is allocated, else ST_NO_RESOURCE with the unit
as it was; a field out of range, a unit that is not IDLE or a front end or capture that is off (ST_STATE), a second XUNIT (ST_BUSY), a wrong
condition, named by its index, a wrong block, and a poisoned or late host read end it with the status of the first check that fails.
TRG_DISARM and EN falling leave units IDLE. TRG_FORCE marks a unit in FILL or ARMED, else ST_STATE. CAPT_RELEASE by the function the capture
went to releases its hold, ST_DENIED for the other, ST_STATE for none. TRIGI rising to its active level, and a fall of XFIRE with XARM high,
give armed units their stamp; a fall before XFIRE has been high for 1 microsecond again only makes that later. TRIGO and XFIRE pulses end at
their time. Where the cause does not hold, nothing changes. (R253, R254, R320, R324, R330, R332, R333, R335, R337, R416) -/
def Obligations.CaptureCommandsArmAndEnd : Prop :=
  let fails (c : Instr) (s : State) (r : Fn) (b : List Byte) (st : Nat) (res : List Byte) : Prop := Answers c s r b st res [] [] fun _ => True
  (∀ (s : State) (r : Fn) (b : List Byte) (h : HostRead), Starts s r 0x58 32 false b →
    let n := le b 8 1
    let c := armCfg b
    let pm := c.pmax c.rlog0
    let bad := firstFail [(decide (7 < n), St.badParam), (decide (3 < le b 9 1), St.badParam), (decide (4 < c.rlog0), St.badParam),
      (decide (c.rlogMax < c.rlog0) || decide (4 < c.rlogMax), St.badParam), (c.chmask == 0, St.badLength), (decide (63 < c.chmask), St.badParam),
      (decide (15 < c.queue) || !bit (s.get (F.SET_HQ_SRC_SRC.at (0x80 * c.queue))) 6, St.badParam), (decide (16777215 < c.post), St.badParam),
      (c.segcount == 0, St.badLength), (decide (8192 < c.segcount), St.badParam), (decide (s.quota 3 < pm) || decide (c.segcount < pm), St.badLength),
      (le b 24 8 % 8 != 0, St.badParam), ((s.trgUnit n).st != 0 || !s.flag F.FLT_CTRL_EN || !s.flag F.TRG_CTRL_EN, St.state),
      (c.xunit && s.xUnit.isSome, St.busy)]
    (∀ st, bad = some st → fails (.trgArm r h) s r b st []) ∧
    (bad = none → fails (.trgArm r .poison) s r b St.poison [] ∧ fails (.trgArm r .timeout) s r b St.timeout [] ∧ ∀ buf : List Byte,
      let d := c.withBlock buf
      let block := d.hi.all q23Ok && d.lo.all q23Ok && (decide (d.almgrp ≤ 991) || d.almgrp == 0x3FF) && decide (d.fnom ≤ 1) && zeroAt buf 107 5
      let wrong := (List.range 16).find? fun i => !condOk buf (112 + 16 * i)
      let armno := (s.trgUnit n).armNext
      let v := s.modUnit n fun _ => { TrgUnit.idle with cfg := some d, armNext := (armno + 1) % 65536, armno := armno, left := c.captures, rlog := c.rlog0 }
      (block = false → fails (.trgArm r (.data buf)) s r b St.badParam []) ∧
      (∀ i, wrong = some i → block = true → fails (.trgArm r (.data buf)) s r b St.badParam (toLe 2 i)) ∧
      (wrong = none → block = true → (v.allocRing n c.segcount (c.ringSegs c.rlog0)).1 = true →
        Answers (.trgArm r (.data buf)) s r b St.ok (toLe 2 armno) [.trg] [] fun t => t.pends 59 ∧ (∀ i, i ≠ n → t.trgUnit i = s.trgUnit i) ∧
          t.trg.done = s.trg.done ∧ t.trgUnit n = { (v.trgUnit n) with st := if d.npre c.rlog0 = 0 then 2 else 1, next := s.cpAfter n, ring0 := s.cpAfter n, spare := (t.trgUnit n).spare, trigi := s.trigiCarry none } ∧
            (t.trgUnit n).spare.length = c.ringSegs c.rlog0) ∧
      (wrong = none → block = true → (v.allocRing n c.segcount (c.ringSegs c.rlog0)).1 = false →
        Answers (.trgArm r (.data buf)) s r b St.noResource [] [.trg] [] fun t => (∀ i, t.trgUnit i = s.trgUnit i) ∧ t.trg.done = s.trg.done))) ∧
  (∀ (s : State) (r : Fn) (b : List Byte), Starts s r 0x59 16 false b →
    let n := le b 8 1
    let bad := firstFail [(decide (7 < n), St.badParam), (decide (1 < le b 9 1), St.badParam), (!zeroAt b 10 6, St.badParam),
      ((s.trgUnit n).st == 0, St.state)]
    (∀ st, bad = some st → fails (.trgDisarm r) s r b st []) ∧
    (∀ c, (s.trgUnit n).cfg = some c → bad = none →
      Answers (.trgDisarm r) s r b St.ok [] [.trg] [R.TRG_CNT_TRUNC, R.TRG_CNT_CAPT] fun t => t.pends 59 ∧ (∀ i, i ≠ n → t.trgUnit i = s.trgUnit i) ∧
        (t.trgUnit n).st = 0 ∧ (t.trgUnit n).cfg = none ∧ (t.trgUnit n).segs = [] ∧ (t.trgUnit n).armNext = (s.trgUnit n).armNext ∧
        ((s.trgUnit n).cap = none ∨ le b 9 1 = 1 → t.trg.done = s.trg.done))) ∧
  (∀ (s : State) (a : Agent) (v : Dword), s.mayWrite a R.TRG_CTRL →
    Does (.trgDisable a v) s [.trg] (regsIn [R.TRG_CTRL, R.TRG_CNT_TRUNC, R.TRG_CNT_CAPT]) fun t =>
      t.get F.TRG_CTRL_EN = fval F.TRG_CTRL_EN v ∧ (s.flag F.TRG_CTRL_EN = true → fval F.TRG_CTRL_EN v = 0 →
        ∀ b, b < 8 → (t.trgUnit b).cfg = none) ∧ (s.flag F.TRG_CTRL_EN = false ∨ fval F.TRG_CTRL_EN v ≠ 0 → t.trg = s.trg)) ∧
  (∀ (s : State) (r : Fn) (b : List Byte), Starts s r 0x5A 16 false b →
    let n := le b 8 1
    let bad := firstFail [(decide (7 < n), St.badParam), (!zeroAt b 9 1, St.badParam), (!zeroAt b 10 6, St.badParam),
      ((s.trgUnit n).st == 0 || decide (2 < (s.trgUnit n).st), St.state)]
    (∀ st, bad = some st → fails (.trgForce r) s r b st []) ∧
    (bad = none → Answers (.trgForce r) s r b St.ok [] [.trg] [] fun t =>
      t.trg = { s.trg with units := mput s.trg.units n { s.trgUnit n with force := true } })) ∧
  (∀ (s : State) (r : Fn) (b : List Byte), Starts s r 0x5B 16 true b →
    let x := s.trg.done.find? fun x => x.2.bay == le b 8 1 && x.2.armno == le b 10 2 && x.2.capno == le b 12 2
    let bad := firstFail [(decide (7 < le b 8 1), St.badParam), (!zeroAt b 9 1, St.badParam), (!zeroAt b 14 2, St.badParam), (x.isNone, St.state),
      (x.any fun y => decide (y.2.fn ≠ r), St.denied)]
    (∀ st, bad = some st → fails (.captRelease r) s r b st []) ∧
    (∀ id d, x = some (id, d) → bad = none → mget s.trg.done id = some d →
      Answers (.captRelease r) s r b St.ok [] [.trg] [] fun t => t.trg = { s.trg with done := merase s.trg.done id })) ∧
  (∀ (s : State) (level : Bool),
    let rise := !s.trigiActive && (level ^^ s.flag F.TRG_TRIGIO_TRIGI_POL)
    Does (.trigiInput level) s [.trg] noRegs fun t => t.trg.trigi = level ∧ t.trg.done = s.trg.done ∧ t.trg.trigoTo = s.trg.trigoTo ∧
      t.trg.trigiAt = (if rise then some (shortStamp s.taiNs) else s.trg.trigiAt) ∧ ∀ b, t.trgUnit b =
        if rise && s.flag F.TRG_TRIGIO_TRIGI_EN && (s.trgUnit b).st != 0 && decide (b < 8) then { s.trgUnit b with trigi := some (shortStamp s.taiNs) }
        else s.trgUnit b) ∧
  (∀ s : State, (s.trg.trigoTo = none → Leads .trigoPulseEnd s [] noRegs fun w => w = s) ∧
    (∀ e, s.trg.trigoTo = some e → Does .trigoPulseEnd s [.tim, .trg] noRegs fun t =>
      t.trg = { s.trg with trigoTo := none } ∧ t.tim = { s.tim with now := max s.tim.now e }) ∧
    (s.cas.fireUntil = none → Leads .xfirePulseEnd s [] noRegs fun w => w = s) ∧
    (∀ e, s.cas.fireUntil = some e → Does .xfirePulseEnd s [.tim, .cas] noRegs fun t =>
      t.cas = { s.cas with fireUntil := none } ∧ t.tim = { s.tim with now := max s.tim.now e })) ∧
  (∀ s : State,
    let early := (s.cas.fireHighAt.map fun x => decide (s.tim.now < x)).getD false
    let high := max s.tim.now (s.cas.fireUntil.getD s.tim.now) + ticksOfUs 1
    (early = true → Leads .xfireFall s [.cas] noRegs fun w => w.cas = { s.cas with fireHighAt := some high }) ∧
    (early = false → s.flag F.CAS_XTRIG_EN = false ∨ s.xarmHeld = true → Leads .xfireFall s [] noRegs fun w => w = s) ∧
    (early = false → s.flag F.CAS_XTRIG_EN = true → s.xarmHeld = false → Does .xfireFall s [.cas, .trg]
        (regsIn [R.CAS_XFIRE_TS_LO, R.CAS_XFIRE_TS_MID, R.CAS_XFIRE_TS_HI, R.CAS_XFIRE_CNT]) fun t => t.pends 71 ∧
      t.get F.CAS_XFIRE_CNT_FIRES = (s.get F.CAS_XFIRE_CNT_FIRES + 1) % 2 ^ 16 ∧ t.cas = { s.cas with fireHighAt := some high } ∧
        t.rd R.CAS_XFIRE_TS_LO = BitVec.ofNat 32 (s.taiNs % 1000000000 * 65536 + s.t40 / 2 ^ 24 % 65536) ∧
        t.rd R.CAS_XFIRE_TS_MID = BitVec.ofNat 32 (s.taiNs / 1000000000 * 65536 + s.taiNs % 1000000000 / 65536) ∧
        t.rd R.CAS_XFIRE_TS_HI = BitVec.ofNat 32 (s.taiNs / 1000000000 / 65536) ∧ t.trg = { s.trg with units := t.trg.units } ∧
        ∀ b, t.trgUnit b = if s.flag F.CAS_XTRIG_FIRE_IN && (s.trgUnit b).st != 0 && decide (b < 8) then
          { s.trgUnit b with xfire := some (shortStamp s.taiNs) } else s.trgUnit b))

/-- PORT_FRAME_RX on a running port counts a frame shorter than 64 bytes, longer than MAXLEN, with a bad FCS, without room, of no address of the
port, of no VLAN of it, or a PRP duplicate, each in its counter, and drops it. One that passes goes, without tag and trailer, by its
EtherType: a UDP datagram of a listed port to ingest with its stamp; other IP, ARP and PTP frames to the firmware's queue, or counted in
FWDROP where that is full; membership queries do not stay there while the firmware runs; a cascade frame to the cascade logic; a pause
frame, unless on half duplex or defeated, holds the port for its quanta, and 0 ends the pause; all else is counted in UNKTYPE, supervision
under PRP in its own counter. The pause ends after its quanta, or by the watchdog once the port has been paused MS ms, which defeats pausing
for DEFEAT_S. The link of a SerDes port goes down, and up 10 ms after it began to be good, each with its event; P4's follows the PHY, read
every 100 ms. The firmware answers ARP and neighbour requests for the port's address, or the shared one, from class 0, and no other. Where
the cause does not hold, nothing changes. (R341, R342, R343, R344, R347, R352, R359, R360, R367, R368, R391, R82) -/
def Obligations.PortsReceiveByTheStatedChecks : Prop :=
  (∀ (s : State) (p : Fin 5) (fr : List Byte) (ok : Bool) (ago : Nat), s.portRuns p = false ∨ fr = [] →
    Leads (.portFrameRx p fr ok ago) s [] noRegs fun u => u = s) ∧
  (∀ (s : State) (p : Fin 5) (fr f : List Byte) (ok : Bool) (ago : Nat), f = fr.take (fr.length - 4) → s.portRuns p = true →
    let c := Instr.portFrameRx p fr ok ago
    let n := fr.length
    let up (t : State) (i : Nat) : Prop := t.get (macCnt p i) = (s.get (macCnt p i) + 1) % 2 ^ 32
    let bytes (t : State) : Prop := t.get64 (macCnt p 0).addr (macCnt p 1).addr = (s.get64 (macCnt p 0).addr (macCnt p 1).addr + n) % 2 ^ 64 ∧ up t 2
    let r (l : List Nat) : Nat → Bool := regsIn ((l ++ [0, 1, 2]).map fun i => (macCnt p i).addr)
    (0 < n → n < 64 → Does c s [] (regsIn [(macCnt p 3).addr]) fun t => up t 3) ∧
    (64 ≤ n → s.get (pfld F.MAC_MAXLEN_P_LEN p) < n → Does c s [] (regsIn [(macCnt p 4).addr]) fun t => up t 4) ∧
    (64 ≤ n → n ≤ s.get (pfld F.MAC_MAXLEN_P_LEN p) →
      (ok = false → Does c s [] (regsIn [(macCnt p 5).addr]) fun t => up t 5) ∧
      (ok = true → s.rxFull p n = true → Does c s [.mac] (regsIn [(macCnt p 6).addr]) fun t => up t 6 ∧ ((s.port p).rxOvfLog = none → t.pends 65)) ∧
      (ok = true → s.rxFull p n = false →
        (s.addrPass p (be f 0 6) = false → Does c s [] (r [7]) fun t => bytes t ∧ up t 7) ∧
        (s.addrPass p (be f 0 6) = true → s.vlanPass p f = false → Does c s [] (r [8]) fun t => bytes t ∧ up t 8) ∧
        (s.addrPass p (be f 0 6) = true → s.vlanPass p f = true →
          let tr := if s.prpOn p then prpRead f else none
          let g := untag (if tr.isSome then f.take (f.length - 6) else f)
          let b := g.drop 14
          let tw := be g 12 2 == 0x88B5 && be b 0 2 == 0x4457
          let at1 := s.ingressStamp p (s.tim.now - ago)
          let fw (k : Nat) : Prop := Does c s [.ing, .mac] (r [10, 24, 25, 26, 28]) fun t => bytes t ∧
            ((s.ing.fwq.filter fun y => y.port == p.val).length < 64 → t.ing = { s.ing with fwq := s.ing.fwq ++ [⟨p, k, at1, false, b⟩] }) ∧
            (64 ≤ (s.ing.fwq.filter fun y => y.port == p.val).length → t.ing = s.ing ∧ up t 10 ∧ t.pends 65)
          (∀ q : Nat × Nat, tr = some q → (s.prpDup p (be g 6 6) q.1).2 = false → tw = false →
            Does c s [.mac] (r [24, 25]) fun t => bytes t ∧ up t 24 ∧ (q.2 ≠ (if p.val = 0 then 0xA else 0xB) → up t 25) ∧ t.mac.prp = s.mac.prp) ∧
          (tw = false → (tr.map fun q => (s.prpDup p (be g 6 6) q.1).2).getD true = true →
            (∀ et, et = be g 12 2 → et = 0x0800 ∨ et = 0x86DD → ((dispatchPort et b).map fun d => (s.udpListed d).isSome).getD false = true →
              Does c s [.ing, .mac] (r [24, 25, 26, 28]) fun t => bytes t ∧ t.ing = { s.ing with rxq := rxInsert ⟨p, s.tim.now, at1, b⟩ s.ing.rxq }) ∧
            (∀ et, et = be g 12 2 → et = 0x0800 ∨ et = 0x86DD → ((dispatchPort et b).map fun d => (s.udpListed d).isSome).getD false = false →
              isMcQuery et b = false → (s.ing.fwq.all fun y => y.kind != 5) = true → fw (if isSolicit b then 1 else 0)) ∧
            (∀ et, et = be g 12 2 → et = 0x0800 ∨ et = 0x86DD → ((dispatchPort et b).map fun d => (s.udpListed d).isSome).getD false = false →
              Does c s [.ing, .mac] (fun a => mcReg a || r [10, 24, 25, 26, 28] a) fun t => bytes t ∧
                (s.fwRuns = true → (t.ing.fwq.any fun y => y.kind == 5) = false)) ∧
            (be g 12 2 = 0x0806 → fw 1) ∧
            (be g 12 2 = 0x88F7 → 4 ≤ le g 14 1 % 16 → s.fwRuns = false → Does c s [.ing, .mac] (r [10, 24, 25, 26, 28]) fun t => bytes t ∧
              ((s.ing.fwq.filter fun y => y.port == p.val).length < 64 →
                t.ing = { s.ing with fwq := s.ing.fwq ++ [⟨p, if be f 12 2 = 0x8100 then 3 else 2, at1, false, g⟩] })) ∧
            (be g 12 2 = 0x88F7 → le g 14 1 % 16 < 4 → (s.tsq p).length < 64 →
              Does c s [.ing, .tim, .mac] (regsIn (R.TIM_STAT :: (F.TIM_TSQ_STAT_P_COUNT.at (0x40 * p)).addr ::
                  [0, 1, 2, 10, 24, 25, 26, 28].map fun i => (macCnt p i).addr)) fun t =>
                bytes t ∧ t.tsq p = s.tsq p ++ [⟨at1, false, le g 14 1 % 16, le g 18 1, be g 44 2⟩]) ∧
            (be g 12 2 = 0x88B5 → be b 0 2 = 0x4344 → Does c s [.cas, .mac] (r [24, 25, 26, 28]) fun t => bytes t ∧
              t.cas = { s.cas with rxq := s.cas.rxq ++ [(p.val, (at1 / 2 ^ 40, (be g 6 6, b)))] }) ∧
            (be g 12 2 = 0x8808 → be b 0 2 = 1 →
              Does c s [.mac] (regsIn ((pfld F.MAC_STAT_P_PAUSED p).addr :: [0, 1, 2, 9, 16, 24, 25, 26, 28].map fun i => (macCnt p i).addr)) fun t =>
                bytes t ∧ up t 16 ∧
                (s.halfDuplex p = false → s.flag (pfld F.MAC_STAT_P_PAUSE_DEFEAT p) = false →
                  (be b 2 2 = 0 → (t.port p).pause = none ∧ t.flag (pfld F.MAC_STAT_P_PAUSED p) = false) ∧
                  (be b 2 2 ≠ 0 → t.flag (pfld F.MAC_STAT_P_PAUSED p) = true ∧
                    (t.port p).pause = some (s.tim.now, be b 2 2, s.tim.now + s.bitTicks p (512 * be b 2 2)))) ∧
                (s.halfDuplex p = true ∨ s.flag (pfld F.MAC_STAT_P_PAUSE_DEFEAT p) = true →
                  (t.port p).pause = (s.port p).pause.filter fun x => decide (s.tim.now < x.2.2))) ∧
            (be g 12 2 = 0x88FB → s.prpOn p = true → Does c s [.mac] (r [24, 25, 26, 27, 28]) fun t => bytes t ∧ up t 27) ∧
            ((be g 12 2 = 0x88FB ∧ s.prpOn p = false) ∨ (be g 12 2 = 0x8808 ∧ be b 0 2 ≠ 1) ∨
                (be g 12 2 = 0x88B5 ∧ be b 0 2 ≠ 0x4344) ∨ [0x0800, 0x86DD, 0x0806, 0x88F7, 0x88B5, 0x8808, 0x88FB].contains (be g 12 2) = false →
              Does c s [.mac] (r [11, 24, 25, 26, 28]) fun t => bytes t ∧ up t 11)))))) ∧
  (∀ (s : State) (p : Fin 5), (s.port p).pause = none → Leads (.pauseTimeEnd p) s [] noRegs fun u => u = s) ∧
  (∀ (s : State) (p : Fin 5) (x : Nat × Nat × Nat), (s.port p).pause = some x →
    Does (.pauseTimeEnd p) s [.tim, .mac] (regsIn [(macCnt p 9).addr, (pfld F.MAC_STAT_P_PAUSED p).addr]) fun t =>
      t.tim = { s.tim with now := max s.tim.now x.2.2 } ∧ t.flag (pfld F.MAC_STAT_P_PAUSED p) = false ∧
        t.port p = { s.port p with pause := none, pausedSince := none } ∧
        t.get (macCnt p 9) = (s.get (macCnt p 9) + min x.2.1 ((t.tim.now - x.1) / max (s.bitTicks p 512) 1)) % 2 ^ 32) ∧
  (∀ (s : State) (p : Fin 5), let ms := s.get (pfld F.MAC_PAUSE_WD_P_MS p)
    (((s.port p).pausedSince.map fun t0 => ms == 0 || ((s.port p).pause.map fun x => decide (x.2.2 < t0 + ticksOfMs ms)).getD true).getD true = true →
      Leads (.evMacPauseWdog p) s [] noRegs fun u => u = s) ∧
    (∀ t0, (s.port p).pausedSince = some t0 → ms ≠ 0 → ∀ x, (s.port p).pause = some x → t0 + ticksOfMs ms ≤ x.2.2 →
      Does (.evMacPauseWdog p) s [.tim, .mac] (regsIn [(macCnt p 9).addr, (pfld F.MAC_STAT_P_PAUSED p).addr]) fun t =>
        t.pends 66 ∧ t.flag (pfld F.MAC_STAT_P_PAUSED p) = false ∧ t.flag (pfld F.MAC_STAT_P_PAUSE_DEFEAT p) = true ∧
          t.tim = { s.tim with now := max s.tim.now (t0 + ticksOfMs ms) } ∧
          t.port p = { s.port p with pause := none, pausedSince := none, defeatEnd := some (t.tim.now + ticksOfS (s.get (pfld F.MAC_PAUSE_WD_P_DEFEAT_S p))) })) ∧
  (∀ (s : State) (p : Fin 5), (s.port p).defeatEnd = none → Leads (.evMacPauseRestore p) s [] noRegs fun u => u = s) ∧
  (∀ (s : State) (p : Fin 5) (e : Nat), (s.port p).defeatEnd = some e →
    Does (.evMacPauseRestore p) s [.tim, .mac] (regsIn [(pfld F.MAC_STAT_P_PAUSED p).addr]) fun t => t.pends 66 ∧
      t.flag (pfld F.MAC_STAT_P_PAUSE_DEFEAT p) = false ∧ t.port p = { s.port p with defeatEnd := none } ∧
        t.tim = { s.tim with now := max s.tim.now e }) ∧
  (∀ (s : State) (p : Fin 5), p.val = 4 ∨ s.portLink p = false → Leads (.evMacLinkDown p) s [] noRegs fun u => u = s) ∧
  (∀ (s : State) (p : Fin 5), p.val < 4 → s.portLink p = true →
    Does (.evMacLinkDown p) s [.mac] (fun a => mcReg a || a == (pfld F.MAC_STAT_P_LINK p).addr) fun t => t.pends 64 ∧ t.portLink p = false ∧
      t.flag (pfld F.MAC_STAT_P_AN_DONE p) = false ∧ (t.port p).goodFrom = s.tim.now) ∧
  (∀ (s : State) (p : Fin 5) (sp : Fin 3), p.val = 4 ∨ s.get (pfld F.MAC_CTRL_P_MODE p) = 0 ∨ s.portLink p = true →
    Leads (.evMacLinkUp p sp) s [] noRegs fun u => u = s) ∧
  (∀ (s : State) (p : Fin 5) (sp : Fin 3), p.val < 4 → s.get (pfld F.MAC_CTRL_P_MODE p) ≠ 0 → s.portLink p = false →
    Does (.evMacLinkUp p sp) s [.tim, .mac] (fun a => mcReg a || a == (pfld F.MAC_STAT_P_LINK p).addr) fun t => t.pends 64 ∧ t.portLink p = true ∧
      t.tim = { s.tim with now := max s.tim.now ((s.port p).goodFrom + ticksOfMs 10) } ∧
      t.flag (pfld F.MAC_STAT_P_AN_DONE p) = (s.flag (pfld F.MAC_CTRL_P_AN_EN p) && s.get (pfld F.MAC_CTRL_P_MODE p) != 1) ∧
      (s.get (pfld F.MAC_CTRL_P_MODE p) = 2 → t.get (pfld F.MAC_STAT_P_SPEED_ACT p) = 2) ∧
      (s.get (pfld F.MAC_CTRL_P_MODE p) = 3 → t.get (pfld F.MAC_STAT_P_SPEED_ACT p) =
        if s.flag (pfld F.MAC_CTRL_P_AN_EN p) then sp.val else s.get (pfld F.MAC_CTRL_P_SPEED p))) ∧
  (∀ (s : State) (link : Bool), s.fwRuns = false ∨ s.get F.MAC_CTRL_P4_MODE ≠ 1 → Leads (.p4PhyPoll link) s [] noRegs fun u => u = s) ∧
  (∀ (s : State) (link : Bool), s.fwRuns = true → s.get F.MAC_CTRL_P4_MODE = 1 →
    Does (.p4PhyPoll link) s [.tim, .mac] (fun a => mcReg a || a == (pfld F.MAC_STAT_P_LINK 4).addr) fun t => t.portLink 4 = link ∧
      (link ≠ s.portLink 4 → t.pends 64) ∧ t.get (pfld F.MAC_STAT_P_SPEED_ACT 4) = s.get F.MAC_CTRL_P4_SPEED ∧
        t.flag (pfld F.MAC_STAT_P_DUPLEX_ACT 4) = s.flag F.MAC_CTRL_P4_DUPLEX ∧ t.mac.pollAt = s.mac.pollAt + ticksOfMs 100 ∧
        t.tim = { s.tim with now := max s.tim.now (s.mac.pollAt + ticksOfMs 100) } ∧
        (link = s.portLink 4 → t.mac = { s.mac with pollAt := s.mac.pollAt + ticksOfMs 100 })) ∧
  (∀ s : State, s.fwRuns = false ∨ (s.ing.fwq.any fun x => x.kind == 1) = false → Leads .arpNdRequestRx s [] noRegs fun u => u = s) ∧
  (∀ (s : State) (x : FwFrame), (s.ing.fwq.find? fun x => x.kind == 1) = some x → s.fwRuns = true →
    let p := x.port
    let nd := isSolicit x.bytes
    let tg := if nd then be x.bytes 48 16 else 0xFFFF * 2 ^ 32 + be x.bytes 24 4
    let shared := s.outShared p && tg == s.outSrc p (!nd)
    let mine := (nd || be x.bytes 6 2 == 1) && (shared || tg == portIp p (!nd))
    let mac := if shared then s.get64 R.TWN_SHARED_MAC_LO R.TWN_SHARED_MAC_HI % 2 ^ 48 else s.portMac p
    let reply (q : Nat) (sq : Option Nat) : TxFrame :=
      let f := if nd then s.txBuild q 0 .port .plain sq (be x.bytes 66 6) 0x86DD (ndReply mac x.bytes)
        else s.txBuild q 0 .port .plain sq (be x.bytes 8 6) 0x0806 (arpReply mac tg x.bytes)
      if shared then s.outResrc q f else f
    let took (t : State) (q : Nat) (sq : Option Nat) : Prop :=
      (s.txRefused q (reply q sq) = false → (t.port q).txq = (s.port q).txq ++ [reply q sq]) ∧
        (s.txRefused q (reply q sq) = true → t.pends 66 ∧ (t.port q).txq = (s.port q).txq ∧ t.get (macCnt q 15) = (s.get (macCnt q 15) + 1) % 2 ^ 32)
    (mine = false → Does .arpNdRequestRx s [.ing] noRegs fun t => t.ing = { s.ing with fwq := s.ing.fwq.erase x }) ∧
    (mine = true → s.prpOn p = false → Does .arpNdRequestRx s [.ing, .mac] (regsIn [(macCnt p 15).addr]) fun t =>
      t.ing = { s.ing with fwq := s.ing.fwq.erase x } ∧ took t p none) ∧
    (mine = true → s.prpOn p = true → Does .arpNdRequestRx s [.ing, .mac] (regsIn [R.MAC_PRP_SEQ, (macCnt 0 15).addr, (macCnt 1 15).addr]) fun t =>
      t.ing = { s.ing with fwq := s.ing.fwq.erase x } ∧ t.get F.MAC_PRP_SEQ_SEQ = (s.get F.MAC_PRP_SEQ_SEQ + 1) % 2 ^ 16 ∧
        took t 0 (some (s.get F.MAC_PRP_SEQ_SEQ)) ∧ took t 1 (some (s.get F.MAC_PRP_SEQ_SEQ))))

/-- TX_FRAME_ENQUEUE queues a frame, on both ports of a PRP pair with one sequence number, or refuses it, counted in REFUSED with source 66.
TX_FRAME_START takes the head of the highest class that may start, counting those the guard rule holds; on half duplex carrier defers it
once. TX_FRAME_END counts it, puts it on the line and queues a PTP event's stamp, or drops it at a full queue. A collision on P4 counts, and
re-queues with the back-off that the port's generator draws, or gives up late or after ATTEMPTS. Gates: a cycle starts at its time with a
pending swap done; entries follow. Pause frames leave when the fill passes XOFF or XON and repeat. Supervision frames leave on both ports.
An MDIO command is queued unless the agent's own is busy; it ends with its data. Where the cause does not hold, nothing changes. (R348,
R350, R355, R356, R361, R362, R363, R364, R366, R369, R371, R63) -/
def Obligations.PortsTransmitByClassAndGate : Prop :=
  (∀ (s : State) (p : Fin 5) (c : Fin 8) (fr : List Byte) (f : TxFrame), s.prpOn p = false → f = s.rawBuild p c none fr →
    (s.txRefused p f = false → Does (.txFrameEnqueue p c fr) s [.mac] noRegs fun t => (t.port p).txq = (s.port p).txq ++ [f] ∧
      ∀ i, i ≠ p.val → t.port i = s.port i) ∧
    (s.txRefused p f = true → Does (.txFrameEnqueue p c fr) s [] (regsIn [(macCnt p 15).addr]) fun t => t.pends 66 ∧
      t.get (macCnt p 15) = (s.get (macCnt p 15) + 1) % 2 ^ 32)) ∧
  (∀ (s : State) (p : Fin 5) (c : Fin 8) (fr : List Byte), s.prpOn p = true →
    Does (.txFrameEnqueue p c fr) s [.mac] (regsIn [R.MAC_PRP_SEQ, (macCnt 0 15).addr, (macCnt 1 15).addr]) fun t =>
      t.get F.MAC_PRP_SEQ_SEQ = (s.get F.MAC_PRP_SEQ_SEQ + 1) % 2 ^ 16 ∧
        ∀ q f, q < 2 → f = s.rawBuild q c (some (s.get F.MAC_PRP_SEQ_SEQ)) fr →
          (s.txRefused q f = false → (t.port q).txq = (s.port q).txq ++ [f]) ∧
          (s.txRefused q f = true → t.pends 66 ∧ (t.port q).txq = (s.port q).txq ∧ t.get (macCnt q 15) = (s.get (macCnt q 15) + 1) % 2 ^ 32)) ∧
  (∀ (s : State) (p : Fin 5) (carrier : Bool),
    let v := s.pauseLapse p
    let head (k : Nat) : Option TxFrame := (v.port p).txq.find? fun f => f.tc == k
    let free (k : Nat) : Bool := ((head k).map fun f => decide (v.txHold p f = .free)).getD false
    let guarded (l : List Nat) : List TxFrame := (l.filterMap head).filter fun f => decide (v.txHold p f = .guard) && !f.guarded
    let marked (l : List Nat) : List TxFrame :=
      (guarded l).foldl (fun q f => modHead f.tc (fun g => { g with guarded := true }) q) (v.port p).txq
    let stop := !s.portRuns p || !s.portLink p || (s.port p).flight.isSome || (v.port p).pause.isSome
    let r := regsIn [(macCnt p 9).addr, (macCnt p 18).addr, (macCnt p 22).addr, (pfld F.MAC_STAT_P_PAUSED p).addr]
    let cnt (t : State) (l : List Nat) : Prop := t.get (macCnt p 22) = (s.get (macCnt p 22) + (guarded l).length) % 2 ^ 32
    (stop = true → Leads (.txFrameStart p carrier) s [.mac] r fun u => u = v) ∧
    (stop = false → ((List.range 8).any free) = false → Does (.txFrameStart p carrier) s [.mac] r fun t =>
      t.port p = { v.port p with txq := marked [7, 6, 5, 4, 3, 2, 1, 0] } ∧ cnt t [7, 6, 5, 4, 3, 2, 1, 0] ∧ t.get (macCnt p 18) = s.get (macCnt p 18)) ∧
    (stop = false → ∀ c f l, head c = some f → free c = true → c < 8 → l = (List.range 8).reverse.take (7 - c) → l.any free = false →
      ((s.halfDuplex p && carrier) = false → Does (.txFrameStart p carrier) s [.mac] r fun t => cnt t l ∧ t.get (macCnt p 18) = s.get (macCnt p 18) ∧
        t.port p = { v.port p with txq := dropHead c (marked l), flight := some ({ f with guarded := true, deferred := true, waitTo := none }, s.tim.now) }) ∧
      ((s.halfDuplex p && carrier) = true → Does (.txFrameStart p carrier) s [.mac] r fun t => cnt t l ∧
        t.port p = { v.port p with txq := modHead c (fun g => { g with deferred := true }) (marked l) } ∧
          t.get (macCnt p 18) = (s.get (macCnt p 18) + b2n (!f.deferred)) % 2 ^ 32))) ∧
  (∀ (s : State) (p : Fin 5), (s.port p).flight = none → Leads (.txFrameEnd p) s [] noRegs fun u => u = s) ∧
  (∀ (s : State) (p : Fin 5) (f : TxFrame) (t0 : Nat), (s.port p).flight = some (f, t0) →
    Does (.txFrameEnd p) s [.tim, .mac, .out] (regsIn [(macCnt p 12).addr, (macCnt p 13).addr, (macCnt p 14).addr, R.TIM_STAT,
        (F.TIM_TSQ_STAT_P_COUNT.at (0x40 * p)).addr]) fun t =>
      t.tim.now = max s.tim.now (t0 + s.bitTicks p ((8 + f.bytes.length + 4) * 8)) ∧ t.out = s.out ++ [Out.frame p f.tc f.bytes] ∧
        t.port p = { s.port p with flight := none } ∧ t.get (macCnt p 14) = (s.get (macCnt p 14) + 1) % 2 ^ 32 ∧
        t.get64 (macCnt p 12).addr (macCnt p 13).addr = (s.get64 (macCnt p 12).addr (macCnt p 13).addr + f.bytes.length + 4) % 2 ^ 64 ∧
        ((∀ ty dom sq, f.kind ≠ .ptp ty dom sq) → t.tim = { s.tim with now := t.tim.now }) ∧
        (∀ ty dom sq, f.kind = .ptp ty dom sq →
          ((s.tsq p).length < 64 → t.tsq p = s.tsq p ++ [⟨t.egressStamp p (t0 + s.bitTicks p 64), true, ty, dom, sq⟩]) ∧
          (64 ≤ (s.tsq p).length → t.tsq p = s.tsq p ∧ t.flag F.TIM_STAT_TSQ_OVF = true ∧ t.pends 14))) ∧
  (∀ (s : State) (bits : Nat), (s.halfDuplex 4 && ((s.port 4).flight.map fun x => decide (bits < (8 + x.1.bytes.length + 4) * 8)).getD false) = false →
    Leads (.hdxCollision bits) s [] noRegs fun u => u = s) ∧
  (∀ (s : State) (bits : Nat) (f : TxFrame) (t0 : Nat), (s.port 4).flight = some (f, t0) → s.halfDuplex 4 = true →
    bits < (8 + f.bytes.length + 4) * 8 →
    Does (.hdxCollision bits) s [.tim, .mac] (regsIn [(macCnt 4 19).addr, (macCnt 4 20).addr, (macCnt 4 21).addr]) fun t =>
      let n := f.colls + 1
      let l := lfsr32 (s.port 4).lfsr
      t.tim = { s.tim with now := max s.tim.now (t0 + s.bitTicks 4 bits) } ∧ t.get (macCnt 4 19) = (s.get (macCnt 4 19) + 1) % 2 ^ 32 ∧
        (512 ≤ bits → t.pends 66 ∧ t.get (macCnt 4 20) = (s.get (macCnt 4 20) + 1) % 2 ^ 32 ∧ t.port 4 = { s.port 4 with flight := none }) ∧
        (bits < 512 → s.get F.MAC_HDX_ATTEMPTS ≤ n → t.pends 66 ∧ t.port 4 = { s.port 4 with flight := none } ∧
          t.get (macCnt 4 21) = (s.get (macCnt 4 21) + 1) % 2 ^ 32) ∧
        (bits < 512 → n < s.get F.MAC_HDX_ATTEMPTS →
          t.port 4 = { s.port 4 with flight := none, lfsr := l, txq := { f with colls := n, waitTo := some (t.tim.now + s.bitTicks 4 (32 + 512 * (l % 2 ^ min n 10))) } :: (s.port 4).txq })) ∧
  (∀ s : State, ((s.port 4).txq.any fun f => f.waitTo.isSome) = false → Leads .hdxBackoffEnd s [] noRegs fun u => u = s) ∧
  (∀ (s : State) (e : Nat), ((s.port 4).txq.any fun f => f.waitTo == some e) = true → ((s.port 4).txq.all fun f => (f.waitTo.map fun x => decide (e ≤ x)).getD true) = true →
    Does .hdxBackoffEnd s [.tim, .mac] noRegs fun t => t.tim = { s.tim with now := max s.tim.now e } ∧
      t.port 4 = { s.port 4 with txq := (s.port 4).txq.map fun f => if f.waitTo = some e then { f with waitTo := none } else f }) ∧
  (∀ (s : State) (p : Fin 5), s.flag (pfld F.MAC_GCL_CTRL_P_GCL_EN p) = false ∨ s.tim.anchor = none → Leads (.gateCycleStart p) s [] noRegs fun u => u = s) ∧
  (∀ (s : State) (p : Fin 5), s.flag (pfld F.MAC_GCL_CTRL_P_GCL_EN p) = true → s.tim.anchor.isSome = true →
    Does (.gateCycleStart p) s [.tim, .mac] (regsIn [(pfld F.MAC_GCL_CTRL_P_OPER p).addr, (macCnt p 23).addr]) fun t =>
      let len := ((s.gateList p).map fun e => e.2).foldl (· + ·) 0
      let cut := ((s.port p).gateStart.map fun g => decide (t.nsSince g.1 < len)).getD false
      t.tim = { s.tim with now := max s.tim.now (s.tickAtTai (s.gateNext p)) } ∧
        (t.port p).gateStart = some (t.tim.now, s.gateNext p) ∧ (t.port p).gateIdx = 0 ∧ (t.port p).txq = (s.port p).txq ∧
        t.get (macCnt p 23) = (s.get (macCnt p 23) + b2n cut) % 2 ^ 32 ∧ (cut = true → (s.port p).cutLog = none → t.pends 67) ∧
        ((s.flag (pfld F.MAC_GCL_CTRL_P_SWAP p) && decide (0 < s.gclNent p (1 - s.gclOper p))) = true →
          t.pends 67 ∧ t.gclOper p = 1 - s.gclOper p ∧ t.flag (pfld F.MAC_GCL_CTRL_P_SWAP p) = false) ∧
        ((s.flag (pfld F.MAC_GCL_CTRL_P_SWAP p) && decide (0 < s.gclNent p (1 - s.gclOper p))) = false →
          t.gclOper p = s.gclOper p ∧ t.flag (pfld F.MAC_GCL_CTRL_P_SWAP p) = s.flag (pfld F.MAC_GCL_CTRL_P_SWAP p))) ∧
  (∀ (s : State) (p : Fin 5), ((s.port p).gateStart.isSome && s.flag (pfld F.MAC_GCL_CTRL_P_GCL_EN p) &&
      decide ((s.port p).gateIdx + 1 < (s.gateList p).length)) = false → Leads (.gateEntryEnd p) s [] noRegs fun u => u = s) ∧
  (∀ (s : State) (p : Fin 5) (g : Nat × Nat) (e : Nat), (s.port p).gateStart = some g → s.flag (pfld F.MAC_GCL_CTRL_P_GCL_EN p) = true →
    (s.port p).gateIdx + 1 < (s.gateList p).length →
    e = g.1 + ticksOfNs ((((s.gateList p).take ((s.port p).gateIdx + 1)).map fun x => x.2).foldl (· + ·) 0) → Does (.gateEntryEnd p) s [.tim, .mac] noRegs fun t =>
      t.tim = { s.tim with now := max s.tim.now e } ∧ t.port p = { s.port p with gateIdx := (s.port p).gateIdx + 1 }) ∧
  (∀ (s : State) (p : Fin 5),
    let q := s.get (pfld F.MAC_PAUSE_P_PTIME p)
    let fill := s.rxFill p
    let r := regsIn [(macCnt p 12).addr, (macCnt p 13).addr, (macCnt p 14).addr, (macCnt p 17).addr, R.TIM_STAT, (F.TIM_TSQ_STAT_P_COUNT.at (0x40 * p)).addr]
    let off := s.pauseMay p && !(s.port p).xoff && decide (s.pauseThr p true ≤ fill)
    let on := s.pauseMay p && (s.port p).xoff && decide (fill < s.pauseThr p false)
    let again := s.pauseMay p && (s.port p).xoff && decide (s.pauseThr p false ≤ fill)
    let sent (t u : State) (n : Nat) : Prop := t.out = u.out ++ [Out.frame p 8 (padMin 60 (mkFrame macPause (s.portMac p) 0x8808 (toBe 2 1 ++ toBe 2 n)))] ∧
      t.get (macCnt p 17) = (s.get (macCnt p 17) + 1) % 2 ^ 32
    (off = false → on = false → Leads (.pauseFrameTx p) s [] noRegs fun u => u = s) ∧
    (off = true → Does (.pauseFrameTx p) s [.tim, .mac, .out] r fun t => (t.port p).xoff = true ∧ (t.port p).xoffAt = t.tim.now ∧ sent t (s.flightEnd p) q) ∧
    (on = true → Does (.pauseFrameTx p) s [.tim, .mac, .out] r fun t => (t.port p).xoff = false ∧ sent t (s.flightEnd p) 0) ∧
    (again = false → Leads (.pauseFrameRepeat p) s [] noRegs fun u => u = s) ∧
    (again = true → Does (.pauseFrameRepeat p) s [.tim, .mac, .out] r fun t => (t.port p).xoffAt = (s.port p).xoffAt + s.bitTicks p (256 * q) ∧
      (t.port p).xoff = true ∧ sent t ((s.reach ((s.port p).xoffAt + s.bitTicks p (256 * q))).flightEnd p) q)) ∧
  (∀ s : State, s.flag F.MAC_PRP_CTRL_EN = false ∨ s.get F.MAC_PRP_LIFECHECK_MS = 0 → Leads .prpSupervisionTx s [] noRegs fun u => u = s) ∧
  (∀ s : State, s.flag F.MAC_PRP_CTRL_EN = true → s.get F.MAC_PRP_LIFECHECK_MS ≠ 0 →
    Does .prpSupervisionTx s [.tim, .mac] (regsIn [R.MAC_PRP_SEQ, (macCnt 0 15).addr, (macCnt 1 15).addr]) fun t =>
      t.mac.supSeq = (s.mac.supSeq + 1) % 65536 ∧ t.mac.supAt = s.mac.supAt + ticksOfMs (s.get F.MAC_PRP_LIFECHECK_MS) ∧
        t.tim = { s.tim with now := max s.tim.now t.mac.supAt } ∧ t.get F.MAC_PRP_SEQ_SEQ = (s.get F.MAC_PRP_SEQ_SEQ + 1) % 2 ^ 16 ∧
        ∀ q f, q < 2 → f = s.txBuild q 0 .port .plain (some (s.get F.MAC_PRP_SEQ_SEQ)) macSup 0x88FB s.supFrame →
          (s.txRefused q f = false → (t.port q).txq = (s.port q).txq ++ [f]) ∧
          (s.txRefused q f = true → t.pends 66 ∧ (t.port q).txq = (s.port q).txq ∧ t.get (macCnt q 15) = (s.get (macCnt q 15) + 1) % 2 ^ 32)) ∧
  (∀ (s : State) (a : Agent) (v : Dword), s.mayWrite a R.MAC_MDIO_CMD →
    (fval F.MAC_MDIO_CMD_START v = 1 → s.mdioBusy (mdioFw a) = true → Does (.mdioCommandStart a v) s [] noRegs fun t => t.pends 67) ∧
    (fval F.MAC_MDIO_CMD_START v = 1 → s.mdioBusy (mdioFw a) = false → Does (.mdioCommandStart a v) s [.mac] (regsIn [R.MAC_MDIO_CMD]) fun t =>
      t.mac.mdio = s.mac.mdio ++ [⟨mdioFw a, v.toNat % 2 ^ 29, s.tim.now⟩] ∧ (mdioFw a = false → t.flag F.MAC_MDIO_CMD_BUSY = true)) ∧
    (fval F.MAC_MDIO_CMD_START v = 0 → Does (.mdioCommandStart a v) s [.mac] (regsIn [R.MAC_MDIO_CMD]) fun t => t.mac.mdio = s.mac.mdio)) ∧
  (∀ (s : State) (ack : Bool) (data : Nat), s.mac.mdio = [] → Leads (.mdioCommandDone ack data) s [] noRegs fun u => u = s) ∧
  (∀ (s : State) (ack : Bool) (data : Nat) (j : MdioJob) (rest : List MdioJob), s.mac.mdio = j :: rest →
    Does (.mdioCommandDone ack data) s [.tim, .mac] (regsIn [R.MAC_MDIO_CMD, R.MAC_MDIO_RDATA]) fun t =>
      t.tim = { s.tim with now := max s.tim.now (j.start + 512 * (s.get F.MAC_MDIO_CFG_DIV + 1)) } ∧
        t.mac.mdio = (rest.map fun k => { k with start := t.tim.now }) ∧
        (j.fw = true → mdioRead j.cmd = true → t.mac.fwMdioData = if ack then data % 65536 else 0xFFFF) ∧
        (j.fw = false → t.pends 67 ∧ t.flag F.MAC_MDIO_CMD_BUSY = false) ∧
        (j.fw = false → mdioRead j.cmd = true → t.get F.MAC_MDIO_RDATA_DATA = (if ack then data % 65536 else 0xFFFF) ∧
          t.flag F.MAC_MDIO_CMD_NOACK = !ack))

/-- HEARTBEAT_INSTANT of a twin unit, at its time, gives a unit in START or STANDBY the role its rules give; force to STANDBY, or bad health
beside a fit partner, starts a relinquish in ACTIVE; an ACTIVE unit that sees an ACTIVE partner and must yield becomes STANDBY with SPLIT;
AL is what its rows give, ANG_NET_SEQ and DSEQ going on from the partner's; waiting force commands end, and a heartbeat with role, AL and
relinquish leaves. HEARTBEAT_WORD_RX counts a word with a bad CRC, and takes a good one as the newest, its path up, with gasp, partner
fault, strap conflict, split and the end of a relinquish following at once. A twin frame received on a port is a heartbeat, a witness or a
sync frame of the pair, else foreign. Paths, witness, and health at the end of a fault's second, follow at their times. AL follows its rows
at the first instant after the witness wait. Witness and sync frames leave at their periods; sync falls back to P0 and P1. In other states
these rows change nothing. (R374, R375, R377, R378, R379, R380, R381, R383, R386, R387, R393, R395) -/
def Obligations.TwinHeartbeatsWitnessesAndRoles : Prop :=
  let ends (t : State) : Prop := (t.cmd.fly.all fun f => !(f.waiting && pkOp f.bytes == 0x6A && f.final.isNone)) = true
  let yields (u : State) (w : Nat) (pref : Bool) : Bool :=
    (bit w 26 && u.get F.TWN_STAT_FORCE == 0) || (bit w 26 == (u.get F.TWN_STAT_FORCE != 0) && !pref)
  let sent (k : Nat) (s t : State) (p : Nat) : Prop :=
    (t.port p).txq.length = (s.port p).txq.length ∧ t.get (macCnt p 15) = (s.get (macCnt p 15) + 1) % 2 ^ 32 ∨
      (t.port p).txq.length = (s.port p).txq.length + 1 ∧
        ((t.port p).txq.getLast?.map fun f => be f.bytes 12 2 == 0x88B5 && be f.bytes 14 2 == 0x4457 && be f.bytes 17 1 == k) = some true
  (∀ s : State, s.twin = false → Leads .heartbeatInstant s [] noRegs fun u => u = s) ∧
  (∀ s : State, s.twin = true →
    let u := (s.reach s.twn.hbNext).twnTimes
    let r1 := if u.role = 2 then 2 else u.nextRole
    let unfit := !u.flag F.TWN_STAT_HEALTHY && u.heard && hbFit u.phb
    let rel := if u.role ≠ 2 then u.twn.relinq
      else if u.get F.TWN_STAT_FORCE = 1 then some (1, (u.twn.relinq.map fun x => x.2).getD u.tim.now)
      else if unfit then some (u.twn.relinq.getD (3, u.tim.now)) else u.twn.relinq
    let split := r1 == 2 && rel.isNone && u.seenIn 2 && yields u u.phb u.preferred
    Does .heartbeatInstant s [.tim, .twn, .cas, .mac, .out, .cmd] (regsIn [R.TWN_CNT_SWITCH, R.ANG_NET_SEQ, R.MAC_PRP_SEQ, (macCnt 0 15).addr,
        (macCnt 1 15).addr, (macCnt s.twn.lport 15).addr, R.RPL_PROD, ringReg .pf1 R.RPL_PROD, R.CMD_INFLIGHT, ringReg .pf1 R.CMD_INFLIGHT]) fun t =>
      t.tim = { s.tim with now := max s.tim.now s.twn.hbNext } ∧ t.twn.hbNext = s.twn.hbNext + ticksOfUs (s.get F.TWN_HB_PERIOD_US) ∧
        t.role = (if split then 1 else r1) ∧ (t.role ≠ u.role → t.pends 72) ∧ t.twn.relinq = rel ∧
        t.flag F.TWN_STAT_RELINQ = (u.flag F.TWN_STAT_RELINQ || (u.twn.relinq.isNone && rel.isSome)) ∧
        t.flag F.TWN_STAT_SPLIT = (u.flag F.TWN_STAT_SPLIT || split) ∧ (split = true → t.pends 76) ∧
        t.flag F.TWN_STAT_PREF = u.preferred ∧ t.flag F.TWN_STAT_AL = t.alWanted ∧ (t.flag F.TWN_STAT_AL ≠ u.flag F.TWN_STAT_AL → t.pends 72) ∧
        (u.role ≠ 2 → r1 = 2 → ∀ n, s.twn.heldDseq = some n → t.cas.dseq = (n + 256) % 2 ^ 32) ∧ (rel = none → ends t) ∧
        Beats s t fun w => hbRole w == t.role && hbAnn w == b2n rel.isSome && bit w 29 == t.flag F.TWN_STAT_AL) ∧
  (∀ (s : State) (l : Bool) (w : Nat), s.twin = false → Leads (.heartbeatWordRx l w) s [] noRegs fun u => u = s) ∧
  (∀ (s : State) (l : Bool) (w : Nat), s.twin = true → w < 2 ^ 32 →
    let path := if l then F.TWN_STAT_PATH_L else F.TWN_STAT_PATH_H
    let done := s.twn.relinq.isSome && hbRole w == 2
    let split := s.role == 2 && s.twn.relinq.isNone && hbRole w == 2
    let taken (t : State) : Prop :=
      t.twn.phb = some (w, s.tim.now) ∧ t.get F.TWN_PHB_WORD = w ∧ t.get F.TWN_STAT_PROLE = hbRole w ∧ t.get F.TWN_STAT_PFAULT = bits w 23 16 ∧
        t.flag F.TWN_STAT_PAL = bit w 29 ∧ t.flag F.TWN_STAT_PHEALTHY = bit w 27 ∧ t.flag F.TWN_STAT_PFORCED = bit w 26 ∧
        t.flag path = true ∧ (if l then t.twn.lastL else t.twn.lastH) = some s.tim.now ∧ (s.flag path = false → t.pends 73) ∧
        (hbAnn w = 2 → t.pends 75) ∧ (∀ o, s.twn.phb = some o → bit o.1 27 ≠ bit w 27 → t.pends 75) ∧ t.flag F.TWN_STAT_PREF = t.preferred ∧
        (bit w 28 = (s.get F.TOP_STRAPS_ROLE_EFF == 1) → t.flag F.TWN_STAT_STRAP_CONFLICT = true) ∧
        t.twn.fitAt = (if hbFit w && bit w 28 then some (s.twn.fitAt.getD s.tim.now) else none) ∧
        t.flag F.TWN_STAT_AL = (s.flag F.TWN_STAT_AL && t.alWanted)
    (hbCrc w ≠ w % 256 → Does (.heartbeatWordRx l w) s [] (regsIn [R.TWN_CNT_HB_BAD]) fun t =>
      t.get F.TWN_CNT_HB_BAD_COUNT = (s.get F.TWN_CNT_HB_BAD_COUNT + 1) % 2 ^ 32) ∧
    (hbCrc w = w % 256 → done = false →
      Does (.heartbeatWordRx l w) s [.twn] (regsIn [R.TWN_CNT_HB_RX_H, R.TWN_CNT_HB_RX_L, R.TWN_PHB, R.TWN_CNT_SWITCH]) fun t => taken t ∧
        t.twn.relinq = s.twn.relinq ∧ t.role = (if split && yields s w t.preferred then 1 else s.role) ∧
        ((split && yields s w t.preferred) = true → t.flag F.TWN_STAT_SPLIT = true ∧ t.pends 76 ∧ t.pends 72)) ∧
    (hbCrc w = w % 256 → done = true →
      Does (.heartbeatWordRx l w) s [.twn, .out, .cmd] (regsIn [R.TWN_CNT_HB_RX_H, R.TWN_CNT_HB_RX_L, R.TWN_PHB, R.TWN_CNT_SWITCH,
          R.RPL_PROD, ringReg .pf1 R.RPL_PROD, R.CMD_INFLIGHT, ringReg .pf1 R.CMD_INFLIGHT]) fun t => taken t ∧
        t.twn.relinq = none ∧ t.flag F.TWN_STAT_RELINQ = false ∧ t.role = b2n (s.flag F.TWN_CTRL_EN) ∧ ends t)) ∧
  (∀ (s : State) (p : Fin 5) (fr f g b : List Byte) (ago : Nat), f = fr.take (fr.length - 4) → g = untag f → b = g.drop 14 →
    s.twin = true → s.portRuns p = true → 64 ≤ fr.length → fr.length ≤ s.get (pfld F.MAC_MAXLEN_P_LEN p) → s.rxFull p fr.length = false →
    s.addrPass p (be f 0 6) = true → s.vlanPass p f = true → s.prpOn p = false → be g 12 2 = 0x88B5 → be b 0 2 = 0x4457 →
    let c := Instr.portFrameRx p fr true ago
    let ours := s.twinOurs (be g 6 6) b
    let k := be b 3 1
    let good := hbCrc (be b 8 4) == be b 8 4 % 256
    (ours = false ∨ 2 < k ∨ (k = 0 ∧ p.val ≠ s.twn.lport) ∨ (k = 1 ∧ 2 ≤ p.val) → ∃ t, exec c s = .next t ∧
      t.get F.TWN_CNT_FOREIGN_COUNT = (s.get F.TWN_CNT_FOREIGN_COUNT + 1) % 2 ^ 32 ∧ t.get (macCnt p 2) = (s.get (macCnt p 2) + 1) % 2 ^ 32) ∧
    (ours = true → k = 0 → p.val = s.twn.lport → good = true → ∃ t, exec c s = .next t ∧ t.twn.phb = some (be b 8 4, s.tim.now) ∧
      t.flag F.TWN_STAT_PATH_L = true ∧ t.get F.TWN_CNT_HB_RX_L_COUNT = (s.get F.TWN_CNT_HB_RX_L_COUNT + 1) % 2 ^ 32) ∧
    (ours = true → k = 1 → p.val < 2 → good = true → s.get F.TWN_WIT_MS ≠ 0 → ∃ t, exec c s = .next t ∧ t.twn.phb = some (be b 8 4, s.tim.now) ∧
      t.flag (if p.val = 0 then F.TWN_STAT_WIT0 else F.TWN_STAT_WIT1) = true ∧ t.witnessed = true) ∧
    (ours = true → k = 2 → s.fwRuns = true → be b 16 2 = 14 → be b 24 2 = 0x010C → 38 ≤ b.length → ∃ t, exec c s = .next t ∧
      t.get64 R.TWN_PCFGSUM_LO R.TWN_PCFGSUM_HI = be b 26 8 ∧
      t.flag F.TWN_STAT_CFG_MISMATCH = (be b 26 8 != s.get64 R.TWN_CFGSUM_LO R.TWN_CFGSUM_HI) ∧
      (t.flag F.TWN_STAT_CFG_MISMATCH = true → s.flag F.TWN_STAT_CFG_MISMATCH = false → t.pends 77))) ∧
  (∀ (s : State) (l : Bool), (s.twin && s.flag (if l then F.TWN_STAT_PATH_L else F.TWN_STAT_PATH_H) && (if l then s.twn.lastL else s.twn.lastH).isSome) = false →
    Leads (.evTwnPathDown l) s [] noRegs fun u => u = s) ∧
  (∀ (s : State) (l : Bool) (t0 : Nat), s.twin = true → s.flag (if l then F.TWN_STAT_PATH_L else F.TWN_STAT_PATH_H) = true →
    (if l then s.twn.lastL else s.twn.lastH) = some t0 → Does (.evTwnPathDown l) s [.tim, .twn] noRegs fun t => t.pends 73 ∧
      t.flag (if l then F.TWN_STAT_PATH_L else F.TWN_STAT_PATH_H) = false ∧ t.tim = { s.tim with now := max s.tim.now (t0 + s.downTicks) } ∧
      t.flag F.TWN_STAT_AL = (s.flag F.TWN_STAT_AL && t.alWanted)) ∧
  (∀ s : State, (s.twin && s.witnessed) = false → Leads .evTwnWitnessLost s [] noRegs fun u => u = s) ∧
  (∀ s : State, s.twin = true → s.witnessed = true → Does .evTwnWitnessLost s [.tim, .twn] noRegs fun t => t.pends 74 ∧ t.witnessed = false ∧
    t.tim = { s.tim with now := max s.tim.now (max (s.twn.lastWit0.getD 0) (s.twn.lastWit1.getD 0) + ticksOfMs (s.get F.TWN_WIT_MS)) }) ∧
  (∀ s : State,
    let due := s.twin && s.role == 2 && !s.heard && !s.witnessed && !s.preferred && !s.flag F.TWN_STAT_AL
    (due = false → Leads .alWitnessWaitEnd s [] noRegs fun u => u = s) ∧
    (due = true → Does .alWitnessWaitEnd s [.tim] (regsIn [R.ANG_NET_SEQ]) fun t =>
      t.flag F.TWN_STAT_AL = (!s.flag F.PWR_STAT_PFW && !s.alm.inh) ∧
        t.tim = { s.tim with now := max s.tim.now (s.hbAfter (s.unwitnessedFrom + ticksOfMs (s.get F.TWN_WIT_AL_MS))) } ∧
        (t.flag F.TWN_STAT_AL = true → t.pends 72 ∧ ∀ n, s.twn.heldSeq = some n → t.get F.ANG_NET_SEQ_SEQ = (n + 256) % 2 ^ 32) ∧
        (t.flag F.TWN_STAT_AL = false → t.get F.ANG_NET_SEQ_SEQ = s.get F.ANG_NET_SEQ_SEQ))) ∧
  (∀ (s : State) (l : List Nat), l = (([s.sched.skipAt, s.twn.uncorrAt].filterMap fun t => if s.lastSecond t then t else none).map fun t => t + ticksOfS 1) →
    (s.twin = false ∨ l = [] → Leads .evTwnFault s [] noRegs fun u => u = s) ∧
    (s.twin = true → ∀ e k, l = e :: k → Does .evTwnFault s [.tim] noRegs fun t =>
      t.tim = { s.tim with now := max s.tim.now (k.foldl min e) } ∧
        t.flag F.TWN_STAT_HEALTHY = (Nat.land t.twnFaults (t.get F.TWN_FAULTMASK_MASK) == 0))) ∧
  (∀ s : State,
    let due := s.twin && s.flag F.TWN_CTRL_EN && s.get F.TWN_WIT_PERIOD_MS != 0 && s.paired
    (due = false → Leads .witnessTx s [] noRegs fun u => u = s) ∧
    (due = true → Does .witnessTx s [.tim, .twn, .mac] (regsIn [R.MAC_PRP_SEQ, (macCnt 0 15).addr, (macCnt 1 15).addr]) fun t =>
      t.tim = { s.tim with now := max s.tim.now (s.twn.witAt + ticksOfMs (s.get F.TWN_WIT_PERIOD_MS)) } ∧
        t.twn.quiet = { s.twn.quiet with witAt := t.tim.now } ∧ sent 1 s t 0 ∧ sent 1 s t 1)) ∧
  (∀ s : State,
    let may := s.twin && s.fwRuns && s.paired
    let common (t : State) : Prop := t.twn.quiet = { s.twn.quiet with syncSeq := (s.twn.syncSeq + 1) % 2 ^ 32, syncAt := t.tim.now } ∧
      (s.role = 2 → t.alm.clrSince = 0) ∧ (s.role ≠ 2 → t.alm.clrSince = s.alm.clrSince)
    (may = false ∨ (s.flag F.TWN_STAT_PATH_L = false ∧ s.witnessed = false) → Leads .twinSyncTx s [] noRegs fun u => u = s) ∧
    (may = true → s.flag F.TWN_STAT_PATH_L = true → Does .twinSyncTx s [.tim, .twn, .mac, .alm] (regsIn [R.MAC_PRP_SEQ, (macCnt 0 15).addr,
        (macCnt 1 15).addr, (macCnt s.twn.lport 15).addr]) fun t => common t ∧ sent 2 s t s.twn.lport ∧
      t.flag F.TWN_STAT_SYNC_FALLBACK = false ∧ t.tim = { s.tim with now := max s.tim.now (s.twn.syncAt + ticksOfMs (s.get F.TWN_SYNC_LINK_MS)) }) ∧
    (may = true → s.flag F.TWN_STAT_PATH_L = false → s.witnessed = true → Does .twinSyncTx s [.tim, .twn, .mac, .alm] (regsIn [R.MAC_PRP_SEQ,
        (macCnt 0 15).addr, (macCnt 1 15).addr]) fun t => common t ∧ sent 2 s t 0 ∧ sent 2 s t 1 ∧
      t.flag F.TWN_STAT_SYNC_FALLBACK = true ∧ (s.flag F.TWN_STAT_SYNC_FALLBACK = false → t.pends 77) ∧
        t.tim = { s.tim with now := max s.tim.now (s.twn.syncAt + ticksOfMs (s.get F.TWN_SYNC_FALLBACK_MS)) }))

/-- RELINQUISH_COMPLETE of a unit that is relieved gives it STANDBY, or START without EN, and ends the commands that wait for it;
EV_TWN_HANDOVER_FAIL ends the relinquish, and those commands with ST_TIMEOUT, with source 78 and gives the role only for force and EN.
TWIN_REVERT after REVERT_S, and EN falling in ACTIVE, start one. TWIN_HANDOVER of an ACTIVE unit with a fit partner starts one and waits;
TWIN_FORCE_ROLE sets the force and waits for STANDBY in ACTIVE, else answers ST_OK; TWIN_CFG with EN = 0 writes the pair's settings; each
answers the status of the first check that fails, and a fifth command in flight does not start. Where the cause does not hold, nothing
changes. (R380, R384, R385, R387, R391, R412, R416) -/
def Obligations.TwinRelinquishAndCommands : Prop :=
  let fails (c : Instr) (s : State) (r : Fn) (b : List Byte) (st : Nat) : Prop := Answers c s r b st [] [] [] fun _ => True
  let waits (f : Fly) : Bool := f.waiting && f.final.isNone && (pkOp f.bytes == 0x69 || pkOp f.bytes == 0x6A)
  let fr : List Nat := [R.TWN_CNT_SWITCH, R.RPL_PROD, ringReg .pf1 R.RPL_PROD, R.CMD_INFLIGHT, ringReg .pf1 R.CMD_INFLIGHT]
  let ended (st : Nat) (s t : State) : Prop := (t.cmd.fly.any waits) = false ∧ (∀ f, f ∈ s.cmd.fly → waits f = false → f.final = none → f ∈ t.cmd.fly) ∧
    (s.fwRuns = true → s.NoneLate → ∀ f, s.cmd.fly = [f] → waits f = true → Answered f.fn f.bytes st 0 [] s t ∧ t.cmd.fly = [])
  (∀ s : State,
    let due := s.twin && (s.alm.inh || s.seenIn 2) && s.twn.relinq.isSome
    (due = false → Leads .relinquishComplete s [] noRegs fun u => u = s) ∧
    (due = true → Does .relinquishComplete s [.twn, .out, .cmd] (regsIn fr) fun t => t.role = b2n (s.flag F.TWN_CTRL_EN) ∧
      t.twn.quiet = { s.twn.quiet with relinq := none } ∧ (s.role ≠ t.role → t.pends 72) ∧ t.flag F.TWN_STAT_RELINQ = false ∧
        (s.role ≠ t.role → t.flag F.TWN_STAT_AL = false) ∧ ended St.ok s t)) ∧
  (∀ s : State, s.twin = false ∨ s.twn.relinq = none → Leads .evTwnHandoverFail s [] noRegs fun u => u = s) ∧
  (∀ (s : State) (x : Nat × Nat), s.twin = true → s.twn.relinq = some x →
    Does .evTwnHandoverFail s [.tim, .twn, .out, .cmd] (regsIn fr) fun t => t.pends 78 ∧ t.twn.quiet = { s.twn.quiet with relinq := none } ∧
      t.flag F.TWN_STAT_RELINQ = false ∧ t.tim = { s.tim with now := max s.tim.now (x.2 + s.downTicks) } ∧ ended St.timeout s t ∧
      t.role = (if x.1 = 1 ∨ x.1 = 2 then b2n (s.flag F.TWN_CTRL_EN) else s.role)) ∧
  (∀ s : State,
    let due := s.twin && s.role == 2 && !s.preferred && s.flag F.TWN_CTRL_REVERT_EN && s.get F.TWN_REVERT_S != 0 && s.get F.TWN_STAT_FORCE == 0 &&
      !bit s.phb 26 && s.heard && s.twn.relinq.isNone
    (due = false ∨ s.twn.fitAt = none → Leads .twinRevert s [] noRegs fun u => u = s) ∧
    (due = true → ∀ t0, s.twn.fitAt = some t0 → Does .twinRevert s [.tim, .twn, .out, .mac] (regsIn [R.MAC_PRP_SEQ, (macCnt 0 15).addr,
        (macCnt 1 15).addr, (macCnt s.twn.lport 15).addr]) fun t => t.tim = { s.tim with now := max s.tim.now (t0 + ticksOfS (s.get F.TWN_REVERT_S)) } ∧
      t.twn.relinq = some (4, t.tim.now) ∧ t.flag F.TWN_STAT_RELINQ = true ∧ Beats s t fun w => hbAnn w == 1 && hbRole w == 2)) ∧
  (∀ (s : State) (a : Agent) (v : Dword), s.mayWrite a R.TWN_CTRL →
    (s.twin = false → Leads (.twinEnWrite a v) s [] noRegs fun u => u = s) ∧
    (s.twin = true → Does (.twinEnWrite a v) s [.twn, .out, .mac] (regsIn [R.TWN_CTRL, R.MAC_PRP_SEQ, (macCnt 0 15).addr, (macCnt 1 15).addr,
        (macCnt s.twn.lport 15).addr]) fun t => t.get F.TWN_CTRL_EN = fval F.TWN_CTRL_EN v ∧
      (s.flag F.TWN_CTRL_EN = false → fval F.TWN_CTRL_EN v = 1 → t.twn.quiet = { s.twn.quiet with enAt := some s.tim.now, witAt := s.tim.now }) ∧
      (s.flag F.TWN_CTRL_EN = true → fval F.TWN_CTRL_EN v = 0 → s.role = 2 →
        t.twn.relinq = some (2, (s.twn.relinq.map fun x => x.2).getD s.tim.now) ∧ (s.twn.relinq = none → t.flag F.TWN_STAT_RELINQ = true ∧
          Beats s t fun w => hbAnn w == 1)) ∧
      (s.flag F.TWN_CTRL_EN = (fval F.TWN_CTRL_EN v == 1) ∨ (s.flag F.TWN_CTRL_EN = true ∧ s.role ≠ 2) → t.twn.quiet = s.twn.quiet))) ∧
  (∀ (s : State) (r : Fn) (b : List Byte), Starts s r 0x68 48 false b →
    let sh := le b 8 1 == 1
    let bad := firstFail [(decide (1 < le b 8 1), St.badParam), (decide (le b 9 1 < 2) || decide (4 < le b 9 1), St.badParam), (!zeroAt b 10 2, St.badParam),
      (le b 12 4 == 0, St.badParam), (be b 16 6 == 0 || bit (le b 16 1) 0, St.badParam), (if sh then bit (le b 22 1) 0 else !zeroAt b 22 6, St.badParam),
      (!zeroAt b 28 4, St.badParam), (!sh && !zeroAt b 32 16, St.badParam), (!s.twin || s.flag F.TWN_CTRL_EN, St.state)]
    (∀ st, bad = some st → fails (.twinCfg r) s r b st) ∧
    (bad = none →
      Answers (.twinCfg r) s r b St.ok [] [.twn] [R.TWN_PAIRID, R.TWN_PEER_MAC_LO, R.TWN_PEER_MAC_HI, R.TWN_SHARED_MAC_LO, R.TWN_SHARED_MAC_HI,
          R.TWN_SHARED_IP_0, R.TWN_SHARED_IP_0 + 4, R.TWN_SHARED_IP_0 + 8, R.TWN_SHARED_IP_0 + 12] fun t =>
        t.rd R.TWN_PAIRID = BitVec.ofNat 32 (le b 12 4) ∧ t.peerMac = be b 16 6 ∧ t.get64 R.TWN_SHARED_MAC_LO R.TWN_SHARED_MAC_HI = be b 22 6 ∧
          (∀ i, i < 4 → (t.rd (R.TWN_SHARED_IP_0 + 4 * i)).toNat = be b 32 16 / 2 ^ (32 * i) % 2 ^ 32) ∧
          t.twn.quiet = { s.twn.quiet with shared := sh, lport := le b 9 1 })) ∧
  (∀ (s : State) (r : Fn) (b : List Byte), (s.ring r).fetched.head? = some b → 4 ≤ s.cmd.fly.length →
    (pkOp b = 0x69 → Leads (.twinHandover r) s [] noRegs fun u => u = s) ∧ (pkOp b = 0x6A → Leads (.twinForceRole r) s [] noRegs fun u => u = s)) ∧
  (∀ (s : State) (r : Fn) (b : List Byte), Starts s r 0x69 16 false b →
    let bad := firstFail [(!zeroAt b 8 8, St.badParam),
      (!s.twin || s.role != 2 || s.twn.relinq.isSome || s.get F.TWN_STAT_FORCE != 0 || !s.heard || !hbFit s.phb, St.state)]
    (s.cmd.fly.length < 4 → ∀ st, bad = some st → fails (.twinHandover r) s r b st) ∧
    (s.cmd.fly.length < 4 → bad = none → Does (.twinHandover r) s [.twn, .out, .mac, .cmd] (regsIn [R.CMD_INFLIGHT, ringReg .pf1 R.CMD_INFLIGHT,
        R.MAC_PRP_SEQ, (macCnt 0 15).addr, (macCnt 1 15).addr, (macCnt s.twn.lport 15).addr]) fun t => t.twn.relinq = some (0, s.tim.now) ∧
      t.flag F.TWN_STAT_RELINQ = true ∧ t.cmd = { (s.popHead r).cmd with fly := s.cmd.fly ++ [Fly.mk r b 0 false true [] none] } ∧
      Beats s t fun w => hbAnn w == 1)) ∧
  (∀ (s : State) (r : Fn) (b : List Byte), Starts s r 0x6A 16 false b →
    let bad := firstFail [(decide (2 < le b 8 1), St.badParam), (!zeroAt b 9 7, St.badParam), (!s.twin || !s.flag F.TWN_CTRL_EN, St.state)]
    let wait := le b 8 1 == 1 && s.role == 2
    (s.cmd.fly.length < 4 → ∀ st, bad = some st → fails (.twinForceRole r) s r b st) ∧
    (s.cmd.fly.length < 4 → bad = none → wait = true →
      Does (.twinForceRole r) s [.cmd] (regsIn [R.CMD_INFLIGHT, ringReg .pf1 R.CMD_INFLIGHT]) fun t => t.get F.TWN_STAT_FORCE = 1 ∧
        t.cmd = { (s.popHead r).cmd with fly := s.cmd.fly ++ [Fly.mk r b 0 false true [] none] }) ∧
    (s.cmd.fly.length < 4 → bad = none → wait = false →
      Answers (.twinForceRole r) s r b St.ok [] [] [] fun t => t.get F.TWN_STAT_FORCE = le b 8 1))

/-- An access that is not one aligned dword has no effect and reads zero, but for reads of the Sett window, of a queue's data and last word and
of an MSI-X table. A write that the register's range admits stores exactly its writable fields; one out of range changes nothing and logs
its block's event; one of a register with a command of its own is that command, and one into the window is EV_SET_WIN_WRITE; the ring sizes
and RPL_CONS are stored in their range; an MSI-X entry is stored, its mask bit unmasking. A read answers the register, zero where none lies,
and latches for its reader alone the dwords that follow; a latched dword answers the latch; the window, queue data and timestamp queues are
read by their commands. A dword of a wide value below its last is held for its writer from the first write on; the last one stores the whole
value, in its range, and ends the hold; 1 ms after the first held write EV_PAIR_TIMEOUT ends it, counts and raises source 85. Where no such
dword lies, the commands of wide values change nothing. (For PF1, and for what a stored write starts beyond its register, see the other
statements.) (R13, R15, R16, R17, R18, R114, R121, R405, R430) -/
def Obligations.RegisterAccessesFollowTheirTypes : Prop :=
  (∀ (s : State) (a : Agent) (off len : Nat) (v : Dword),
    (len ≠ 4 ∨ off % 4 ≠ 0 → Leads (.registerWrite a off len v) s [] noRegs fun u => u = s) ∧
    (off % 4 ≠ 0 → Leads (.wideValueLoRead a off len) s [.out] noRegs fun u => u = { s with out := s.out ++ [Out.answer a (zeros len) false] }) ∧
    (off % 4 = 0 → regAt a off = none → msixAt a off = none → (a = .pf1 ∨ off < 0x200000 ∨ 0x400000 ≤ off) →
      (Leads (.registerWrite a off len v) s [] noRegs fun u => u = s) ∧
      Leads (.wideValueLoRead a off len) s [.out] noRegs fun u => u = { s with out := s.out ++ [Out.answer a (zeros len) false] }) ∧
    (off % 4 = 0 → a ≠ .pf1 → 0x200000 ≤ off → off < 0x400000 →
      exec (.wideValueLoRead a off len) s = exec (.settWindowRead a off len ⟨[], []⟩) s ∧
      exec (.registerWrite a off 4 v) s = exec (.evSetWinWrite a off v) s)) ∧
  (∀ (s : State) (a : Agent) (off o : Nat) (f : Fn) (v : Dword), msixAt a off = some (f, o) → off % 4 = 0 → s.serves a 0x160000 = true →
    (a = .pf1 ∨ off < 0x200000) →
    (16 * vecCount f ≤ o → Leads (.registerWrite a off 4 v) s [] noRegs fun u => u = s) ∧
    (o < 16 * vecCount f → o % 16 ≠ 12 → Leads (.registerWrite a off 4 v) s [] (regsIn [msixKey f o]) fun u => u.rd (msixKey f o) = v) ∧
    (o < 16 * vecCount f → o % 16 = 12 → bit v.toNat 0 = true → Leads (.registerWrite a off 4 v) s [.irq] noRegs fun u => smem (u.pfn f).unmasked (o / 16) = false) ∧
    (o < 16 * vecCount f → o % 16 = 12 → bit v.toNat 0 = false → exec (.registerWrite a off 4 v) s = exec (.msixVectorUnmask f (o / 16)) s) ∧
    (Leads (.wideValueLoRead a off 4) s [.out] noRegs fun u => u = { s with out := s.out ++ [Out.answer a (toLe 4 (s.msixRead f o)) false] }) ∧
    (off % 8 = 0 → Leads (.wideValueLoRead a off 8) s [.out] noRegs fun u =>
      u = { s with out := s.out ++ [Out.answer a (toLe 4 (s.msixRead f o) ++ toLe 4 (s.msixRead f (o + 4))) false] })) ∧
  (∀ (s : State) (a : Agent) (off b x : Nat) (r : RegRow) (v : Dword), regAt a off = some (b, r) → x = ownAddr a b r → off % 4 = 0 → off < 0x160000 →
    msixAt a off = none → s.mayWrite a b → pairOf b = none → s.ownWriteA a b v = none → s.ownWriteB a b v = none →
    (∀ e, s.verdict x v = .bad e → Leads (.registerWrite a off 4 v) s [] noRegs fun u =>
      u.regs = (s.ev0 e).regs ∧ u.evr.backlog = s.evr.backlog ++ [⟨e, 0, []⟩]) ∧
    (s.verdict x v = .silent → Leads (.registerWrite a off 4 v) s [] noRegs fun u => u = s) ∧
    (s.verdict x v = .ok → x ≠ R.FLT_CTRL → x ≠ R.TIM_SRC → ∃ u : State, exec (.registerWrite a off 4 v) s = .next u.drain ∧
      u.rd x = BitVec.ofNat 32 (mergeWrite r (s.rd x).toNat (s.condition x v).toNat)) ∧
    (s.verdict x v = .ok → ([0x05, 0x08, 0x09, 0x0E, 0x11, 0x12, 0x14] : List Nat).contains (b / 0x10000) = true →
      Leads (.registerWrite a off 4 v) s [.cmd] (regsIn [x]) fun u => u.cmd.ring0 = s.cmd.ring0 ∧ u.cmd.ring1 = s.cmd.ring1 ∧ u.cmd.fly = s.cmd.fly)) ∧
  (∀ (s : State) (a : Agent) (off b : Nat) (r : RegRow) (v : Dword), regAt a off = some (b, r) → off % 4 = 0 → off < 0x160000 → msixAt a off = none →
    (∀ c, c ∈ ([(R.TIM_SERVO, .timServoWrite a v), (R.TIM_CTRL, .holdWrite a v), (R.MAC_MDIO_CMD, .mdioCommandStart a v), (R.ING_HIST, .ingHistWrite a v),
        (R.ING_INJ_PROD, .injDoorbell a v), (R.SET_CTRL, .peakClr a v), (R.SET_HQ_PEND, .hqPendClear a v), (R.ALN_CTRL, .alnCtrlWrite a v),
        (R.ANG_ALMCLR, .almLatchClear a v), (R.TRG_CTRL, .trgDisable a v), (R.TWN_CTRL, .twinEnWrite a v), (R.CMD_CTRL, .cmdRingReset a v),
        (R.CMD_DB, .cmdDoorbell a v), (R.EVR_CTRL, .evrRingStart a v), (R.EVR_RATE, .evrRateWrite a v), (R.BOOT_RECOV_CTRL, .recoveryGo a v .timeout),
        (R.DBG_CTRL, .dbgCtrlLock a v)] : List (Nat × Instr)) → b = c.1 → exec (.registerWrite a off 4 v) s = exec c.2 s) ∧
    (∀ i : Fin 4, (b = R.IRQ_PEND + 4 * i → exec (.registerWrite a off 4 v) s = exec (.irqPendWrite a i v) s) ∧
      (b = R.IRQ_MASK + 4 * i → exec (.registerWrite a off 4 v) s = exec (.irqMaskWrite a i v) s)) ∧
    (∀ i : Fin 7, b = R.SET_QUOTA_ALIGN + 4 * i → exec (.registerWrite a off 4 v) s = exec (.quotaWrite a i v) s) ∧
    (∀ i : Fin 16, (b = R.SET_HQ_CFG + 0x80 * i → exec (.registerWrite a off 4 v) s = exec (.hostqCfgWrite a i v) s) ∧
      (b = R.SET_HQ_CONS + 0x80 * i → exec (.registerWrite a off 4 v) s = exec (.hostqConsWrite a i v) s)) ∧
    (s.mayWrite a b →
      let own (f : Fld) : Fld := ringFld (agentFn a) f
      let size (f : Fld) : Prop := Leads (.registerWrite a off 4 v) s [] (regsIn [(own f).addr]) fun u =>
        let good := !s.flag (own F.CMD_CTRL_EN) && (fval f v == 0 || pow2Between (fval f v) 16 4096)
        u.get (own f) = (if good then fval f v else s.get (own f)) ∧ (good = false → u.evr.backlog = s.evr.backlog ++ [⟨Ev.CMD_CFG_RANGE, 0, []⟩])
      (b = R.CMD_SIZE → size F.CMD_SIZE_SIZE) ∧ (b = R.RPL_SIZE → size F.RPL_SIZE_SIZE) ∧
      (b = R.RPL_CONS → Leads (.registerWrite a off 4 v) s [] (regsIn [(own F.RPL_CONS_CONS).addr]) fun u =>
        let cons := s.get (own F.RPL_CONS_CONS)
        let passes := decide (subMod 32 (s.get (own F.RPL_PROD_PROD)) cons < subMod 32 v.toNat cons)
        u.get (own F.RPL_CONS_CONS) = (if passes then cons else v.toNat) ∧
          (passes = true → u.evr.backlog = s.evr.backlog ++ [⟨Ev.CMD_CFG_RANGE, 0, []⟩])))) ∧
  (∀ (s : State) (a : Agent) (off len b : Nat) (r : RegRow), regAt a off = some (b, r) → off % 4 = 0 → off < 0x160000 → msixAt a off = none →
    let zero : Prop := Leads (.wideValueLoRead a off len) s [.out] noRegs fun u => u = { s with out := s.out ++ [Out.answer a (zeros len) false] }
    (s.mayRead a b r = false → zero) ∧
    (s.mayRead a b r = true →
      (∀ q : Fin 16, q.val = queueOf b → r.base = R.SET_HQ_DATA →
        exec (.wideValueLoRead a off len) s = exec (.hostqDataPop a q ((b - R.SET_HQ_DATA) % 0x80) len ⟨[], []⟩) s) ∧
      (∀ q byte, q = queueOf b → byte = (b - R.SET_HQ_LAST) % 0x80 → r.base = R.SET_HQ_LAST →
        (paddedOk byte len = false → zero) ∧
        (paddedOk byte len = true → Leads (.wideValueLoRead a off len) s [.out] noRegs fun u =>
          u = s.wordAnswer a byte len (if s.flag (hqf F.SET_HQ_CFG_MODE q) then (s.hq q).last else (0, 0)))) ∧
      (r.base ≠ R.SET_HQ_DATA → r.base ≠ R.SET_HQ_LAST →
        (len ≠ 4 → zero) ∧
        (len = 4 → ∀ p : Fin 5, b = R.TIM_TSQ_E0_P + 0x40 * p → exec (.wideValueLoRead a off len) s = exec (.tsqEntryRead a p) s) ∧
        (len = 4 → r.base = R.SET_HQ_CONS → s.hqMine (queueOf b) a = false → zero) ∧
        (len = 4 → inFam R.TIM_TSQ_E0_P 0x40 5 b = false → (r.base = R.SET_HQ_CONS → s.hqMine (queueOf b) a = true) →
          (isLatched b r = true → Leads (.wideValueLoRead a off len) s [.out] noRegs fun u =>
            u = { s with out := s.out ++ [Out.answer a (toLe 4 (mgetD s.latch (latchKey a b) 0).toNat) false] }) ∧
          (isLatched b r = false → Leads (.wideValueLoRead a off len) s [.out, .latch] noRegs fun u =>
            u.out = s.out ++ [Out.answer a (toLe 4 (s.regNow a b r).toNat) false] ∧
              (∀ x, x ∈ snapFollowers b ++ nrgFollowers b → mget u.latch (latchKey a x) = some (s.dwordNow a x)) ∧
              ∀ k, (∀ x ∈ snapFollowers b ++ nrgFollowers b, k ≠ latchKey a x) → mget u.latch k = mget s.latch k))))) ∧
  (∀ (s : State) (a : Agent) (off : Nat) (v : Dword),
    let at3 := (regAt a off).bind fun x => pairOf x.1
    ((at3.map fun p => decide (p.2.1 + 1 < p.2.2)).getD false = false ∨ s.serves a (((regAt a off).map fun x => x.1).getD 0) = false →
      Leads (.wideValueHeldWrite a off v) s [] noRegs fun u => u = s) ∧
    ((at3.map fun p => decide (p.2.1 + 1 = p.2.2)).getD false = false ∨ s.serves a (((regAt a off).map fun x => x.1).getD 0) = false →
      Leads (.wideValueHiWrite a off v) s [] noRegs fun u => u = s)) ∧
  (∀ (s : State) (a : Agent) (off b base i n x : Nat) (r : RegRow) (v : Dword), regAt a off = some (b, r) → pairOf b = some (base, i, n) → x = ownAddr a base r →
    s.mayWrite a b →
    (off % 4 = 0 → off < 0x160000 → msixAt a off = none →
      (i + 1 < n → exec (.registerWrite a off 4 v) s = exec (.wideValueHeldWrite a off v) s) ∧
      (i + 1 = n → exec (.registerWrite a off 4 v) s = exec (.wideValueHiWrite a off v) s)) ∧
    (i + 1 < n → Does (.wideValueHeldWrite a off v) s [.held] noRegs fun t =>
      (((t.heldOf a base).map fun h => (mget h.dwords b, h.since)) =
        some (some v, ((s.heldOf a base).map fun g => g.since).getD s.tim.now)) ∧
        (∀ b', b' ≠ b → ((t.heldOf a base).bind fun h => mget h.dwords b') = ((s.heldOf a base).bind fun h => mget h.dwords b')) ∧
        ∀ (a' : Agent) (base' : Nat), ¬ (a' = a ∧ base' = base) → t.heldOf a' base' = s.heldOf a' base') ∧
    (i + 1 = n → base = R.TIM_INCR_LO → exec (.wideValueHiWrite a off v) s = exec (.timIncrWrite a v) s) ∧
    (i + 1 = n → base = R.TIM_STEP_LO → exec (.wideValueHiWrite a off v) s = exec (.timStepRequest a v) s) ∧
    (i + 1 = n → base ≠ R.TIM_INCR_LO → base ≠ R.TIM_STEP_LO →
      let dword (j : Nat) : Dword := if j + 1 = n then v else s.heldDword a base (base + 4 * j) (s.rd (x + 4 * j))
      let free (u : State) : Prop := u.heldOf a base = none ∧ u.held = (s.dropHeld a base).held
      (∀ e, s.pairVerdict base (agentFn a) (dword 0) = .bad e → Leads (.wideValueHiWrite a off v) s [.held] noRegs fun u =>
        free u ∧ u.evr.backlog = s.evr.backlog ++ [⟨e, 0, []⟩]) ∧
      (s.pairVerdict base (agentFn a) (dword 0) = .silent → Leads (.wideValueHiWrite a off v) s [.held] noRegs fun u => u = s.dropHeld a base) ∧
      (s.pairVerdict base (agentFn a) (dword 0) = .ok →
        Leads (.wideValueHiWrite a off v) s [.held, .cmd, .alm] (regsIn ((List.range n).map fun j => x + 4 * j)) fun u =>
          free u ∧ u.cmd.fly = s.cmd.fly ∧ u.alm = (if base = R.ANG_NET_DST then { s.alm with macs := [] } else s.alm) ∧
            ∀ j rj, j < n → rowOf (x + 4 * j) = some rj → u.rd (x + 4 * j) = BitVec.ofNat 32 (mergeWrite rj (s.rd (x + 4 * j)).toNat (dword j).toNat)))) ∧
  (∀ (s : State) (off b : Nat) (r : RegRow) (v : Dword), regAt .pf1 off = some (b, r) → s.serves .pf1 b = true → s.pf1May b r = false →
    let drops (c : Instr) : Prop := Leads c s [] (regsIn [R.CMD_PRIVDROP]) fun u =>
      u.get F.CMD_PRIVDROP_COUNT = (s.get F.CMD_PRIVDROP_COUNT + 1) % 2 ^ 32 ∧ u.evr.backlog = s.evr.backlog ++ [⟨Ev.PRIV_WRITE_DROPPED, 0, []⟩]
    ∀ base i n, pairOf b = some (base, i, n) → (i + 1 < n → drops (.wideValueHeldWrite .pf1 off v)) ∧ (i + 1 = n → drops (.wideValueHiWrite .pf1 off v))) ∧
  (∀ (s : State) (a : Agent) (base : Nat),
    (s.heldOf a base = none → Leads (.evPairTimeout a base) s [] noRegs fun u => u = s) ∧
    (∀ h, s.heldOf a base = some h →
      Does (.evPairTimeout a base) s [.tim, .held] (regsIn [R.CMD_PAIRTMO]) fun t => t.heldOf a base = none ∧ t.held = (s.dropHeld a base).held ∧ t.pends 85 ∧
        t.tim = { s.tim with now := max s.tim.now (h.since + ticksOfMs 1) } ∧
        t.get F.CMD_PAIRTMO_COUNT = (s.get F.CMD_PAIRTMO_COUNT + 1) % 2 ^ 32))

/-- For every offset of PF1's window at which a register lies that only PF0 is shown, a read by PF1 answers zero and a write by PF1 changes
nothing but CMD_PRIVDROP, which counts it, and logs EV_PRIV_WRITE_DROPPED, raising source 84. (A unit that does not serve PF1, being in
recovery, answers zero and counts nothing.) (R22) -/
def Obligations.RegistersOfPF0AreNotMappedInPF1 : Prop :=
  ∀ (s : State) (off b : Nat) (r : RegRow) (v : Dword), off % 4 = 0 → msixAt .pf1 off = none → regAt .pf1 off = some (b, r) →
    r.view = .pf0 →
    (∀ len, Leads (.wideValueLoRead .pf1 off len) s [.out] noRegs fun u => u = { s with out := s.out ++ [Out.answer .pf1 (zeros len) false] }) ∧
    (s.serves .pf1 b = true → Leads (.registerWrite .pf1 off 4 v) s [] (regsIn [R.CMD_PRIVDROP]) fun u =>
      u.get F.CMD_PRIVDROP_COUNT = (s.get F.CMD_PRIVDROP_COUNT + 1) % 2 ^ 32 ∧
        u.evr.backlog = s.evr.backlog ++ [⟨Ev.PRIV_WRITE_DROPPED, 0, []⟩] ∧ u.pends 84) ∧
    (s.serves .pf1 b = false → Leads (.registerWrite .pf1 off 4 v) s [] noRegs fun u => u = s)

/-- With FLT_CTRL.EN = 1 a write of FLT_CTRL that would change MOD_DIV, and a write of a bay's FLT_BAYCFG that would change TRIM, MCLK_EN or
CH_EN, changes nothing, logs EV_FLT_CFG_RANGE and raises source 50. With EN = 0 a write of FLT_CTRL stores MOD_DIV and one of FLT_BAYCFG,
its other fields in range, stores the three. (R261) -/
def Obligations.FrontEndClocksAreLockedWhileItRuns : Prop :=
  ∀ (s : State) (a : Agent) (v : Dword) (q : Fin 8), a ≠ .pf1 → s.serves a R.FLT_CTRL = true →
    let drops (off : Nat) : Prop := Leads (.registerWrite a off 4 v) s [] noRegs fun u =>
      u.evr.backlog = s.evr.backlog ++ [⟨Ev.FLT_CFG_RANGE, 0, []⟩] ∧ u.pends 50
    let trim := bayf F.FLT_BAYCFG_TRIM q
    let mclk := bayf F.FLT_BAYCFG_MCLK_EN q
    let chen := bayf F.FLT_BAYCFG_CH_EN q
    (s.flag F.FLT_CTRL_EN = true → fval F.FLT_CTRL_MOD_DIV v ≠ s.get F.FLT_CTRL_MOD_DIV → drops R.FLT_CTRL) ∧
    (s.flag F.FLT_CTRL_EN = true → fval trim v ≠ s.get trim ∨ fval mclk v ≠ s.get mclk ∨ fval chen v ≠ s.get chen →
      drops (R.FLT_BAYCFG + 4 * q)) ∧
    (s.flag F.FLT_CTRL_EN = false → ∃ t, exec (.registerWrite a R.FLT_CTRL 4 v) s = .next t ∧
      t.get F.FLT_CTRL_MOD_DIV = fval F.FLT_CTRL_MOD_DIV v) ∧
    (s.flag F.FLT_CTRL_EN = false → 9 ≤ fval (bayf F.FLT_BAYCFG_CP_K q) v → fval (bayf F.FLT_BAYCFG_CP_K q) v ≤ 13 → fval trim v ≤ 80 →
      ∃ t, exec (.registerWrite a (R.FLT_BAYCFG + 4 * q) 4 v) s = .next t ∧
        t.get trim = fval trim v ∧ t.get mclk = fval mclk v ∧ t.get chen = fval chen v)

/-- CMD_DOORBELL of a PROD no further than SIZE past CONS stores it; another logs EV_CMD_DB_BAD. CMD_ENTRY_FETCH of a ring that fetches advances
CONS; the SEQ expected takes the entry and advances SEQEXP; any other halts the ring with ERR 1; CMD_FETCH_TIMEOUT halts it with ERR 2 or 3.
COMMAND_STEP answers an opcode that is not defined; else the next command of the pass takes its step, answered ST_STEPPING with the STEPS
complete where it goes on, in its place, else its final status; an aborted one ends with ST_ABORTED and its STEPS. CMD_CTRL.RESET empties
the ring, ends its commands without a reply and sets CONS to PROD and SEQ, RPL_PROD and RPL_CONS to 0. PCIE_FUNCTION_RESET resets the
function's ring, queues and deliveries. NOP and GET_INFO answer; ABORT_STEPPED marks its command. A ring that does not fetch, or has no step
due, changes nothing. (R2, R401, R406, R408, R409, R410, R412, R414, R437) -/
def Obligations.CommandRingsFetchStepAndReset : Prop :=
  let fails (c : Instr) (s : State) (r : Fn) (b : List Byte) (st : Nat) : Prop := Answers c s r b st [] [] [] fun _ => True
  (∀ (s : State) (a : Agent) (v : Dword), s.mayWrite a R.CMD_DB →
    let r := agentFn a
    let d := subMod 32 v.toNat (s.get (ringFld r F.CMD_CONS_CONS))
    (d ≤ s.get (ringFld r F.CMD_SIZE_SIZE) → Leads (.cmdDoorbell a v) s [] (regsIn [ringReg r R.CMD_DB]) fun u =>
      u.get (ringFld r F.CMD_DB_PROD) = v.toNat) ∧
    (s.get (ringFld r F.CMD_SIZE_SIZE) < d → Leads (.cmdDoorbell a v) s [] noRegs fun u =>
      u.pends 82 ∧ u.evr.backlog = s.evr.backlog ++ [⟨Ev.CMD_DB_BAD, 0, []⟩])) ∧
  (∀ (s : State) (r : Fn) (e : List Byte) (poisoned : Bool), s.fetches r = false →
    (Leads (.cmdEntryFetch r e) s [] noRegs fun u => u = s) ∧ Leads (.cmdFetchTimeout r poisoned) s [] noRegs fun u => u = s) ∧
  (∀ (s : State) (r : Fn) (e : List Byte), s.fetches r = true →
    (pkSeq (padTo 64 e) = s.get (ringFld r F.CMD_SEQEXP_SEQ) →
      Leads (.cmdEntryFetch r e) s [.cmd] (regsIn [ringReg r R.CMD_CONS, ringReg r R.CMD_SEQEXP]) fun u =>
        u.get (ringFld r F.CMD_CONS_CONS) = (s.get (ringFld r F.CMD_CONS_CONS) + 1) % 2 ^ 32 ∧
          u.get (ringFld r F.CMD_SEQEXP_SEQ) = (s.get (ringFld r F.CMD_SEQEXP_SEQ) + 1) % 2 ^ 32 ∧
          u.cmd = (s.setRing r ⟨(s.ring r).fetched ++ [padTo 64 e]⟩).cmd) ∧
    (pkSeq (padTo 64 e) ≠ s.get (ringFld r F.CMD_SEQEXP_SEQ) →
      Leads (.cmdEntryFetch r e) s [] (regsIn [ringReg r R.CMD_CONS, ringReg r R.CMD_STAT]) fun u =>
        u.get (ringFld r F.CMD_CONS_CONS) = (s.get (ringFld r F.CMD_CONS_CONS) + 1) % 2 ^ 32 ∧ u.flag (ringFld r F.CMD_STAT_HALTED) = true ∧
          u.get (ringFld r F.CMD_STAT_ERR) = 1 ∧ u.pends 82)) ∧
  (∀ (s : State) (r : Fn) (poisoned : Bool), s.fetches r = true →
    Leads (.cmdFetchTimeout r poisoned) s [] (regsIn [ringReg r R.CMD_STAT]) fun u =>
      u.flag (ringFld r F.CMD_STAT_HALTED) = true ∧ u.get (ringFld r F.CMD_STAT_ERR) = 2 + b2n poisoned ∧ u.pends 82) ∧
  (∀ (s : State) (r : Fn) (b : List Byte) (buf : HostRead), s.head r = some b → definedOps.contains (pkOp b) = false → s.NoneLate →
    fails (.commandStep r buf) s r b (if pkLen b < 2 ∨ 16 < pkLen b then St.badLength else St.badOpcode)) ∧
  (∀ (s : State) (r : Fn) (buf : HostRead), s.badHead r = none → s.due r = none → Leads (.commandStep r buf) s [] noRegs fun u => u = s) ∧
  (∀ (s : State) (r : Fn) (f : Fly) (buf : HostRead), s.due r = some f → s.NoneLate →
    (f.abort = true → pkOp f.bytes ≠ 0x03 → pkOp f.bytes ≠ 0x80 → pkOp f.bytes ≠ 0x82 →
      Does (.commandStep r buf) s [.cmd, .out] (regsIn [ringReg r R.RPL_PROD, R.CMD_INFLIGHT, ringReg .pf1 R.CMD_INFLIGHT]) fun t =>
        Answered r f.bytes St.aborted f.steps [] s t ∧ t.cmd = { (s.stepOf r f).cmd with late := t.cmd.late }) ∧
    (f.abort = true → ∃ t, exec (.commandStep r buf) s = .next t ∧ Answered r f.bytes St.aborted f.steps [] s t ∧ t.cmd.fly = s.cmd.fly.erase f) ∧
    (f.abort = false →
      let x := (s.stepOf r f).nextStep f.bytes buf f.prog
      let a := x.answer f.steps
      ∃ t, exec (.commandStep r buf) s = .next t ∧ Answered r f.bytes a.1 a.2.1 a.2.2 x.after t ∧
        (∀ p, x.goesOn = some p → t.cmd.fly = s.cmd.fly.set (s.cmd.fly.idxOf f) { f with steps := f.steps + 1, prog := p }) ∧
        (x.goesOn = none → t.cmd.fly = s.cmd.fly.erase f))) ∧
  (∀ (s : State) (a : Agent) (v : Dword), s.mayWrite a R.CMD_CTRL →
    let r := agentFn a
    let en := ringFld r F.CMD_CTRL_EN
    let zero : Bool := s.get (ringFld r F.CMD_SIZE_SIZE) == 0 || s.get (ringFld r F.RPL_SIZE_SIZE) == 0
    (fval F.CMD_CTRL_RESET v = 0 → Leads (.cmdRingReset a v) s [] (regsIn [ringReg r R.CMD_CTRL]) fun u =>
      u.flag en = (fval F.CMD_CTRL_EN v == 1 && (!zero || s.flag en))) ∧
    (fval F.CMD_CTRL_RESET v = 1 →
      (∃ u : State, exec (.cmdRingReset a v) s = .next u.drain ∧ (u.ring r).fetched = [] ∧
        u.cmd.fly = s.cmd.fly.filter (fun f => !decide (f.fn = r)) ∧ u.cmd.late = s.cmd.late.filter (fun l => !decide (l.fn = r)) ∧ u.out = s.out ∧
        u.flag en = (fval F.CMD_CTRL_EN v == 1 && (!zero || s.flag en)) ∧
        u.get (ringFld r F.CMD_CONS_CONS) = s.get (ringFld r F.CMD_DB_PROD) ∧ u.get (ringFld r F.CMD_SEQEXP_SEQ) = 0 ∧
        u.get (ringFld r F.RPL_PROD_PROD) = 0 ∧ u.get (ringFld r F.RPL_CONS_CONS) = 0 ∧ u.get (ringFld r F.CMD_STAT_ERR) = 0 ∧
        u.flag (ringFld r F.CMD_STAT_HALTED) = false ∧ u.pends 86) ∧
      ((∀ f ∈ s.cmd.fly, f.fn = r → pkOp f.bytes ≠ 0x03 ∧ pkOp f.bytes ≠ 0x80 ∧ pkOp f.bytes ≠ 0x82) →
        Does (.cmdRingReset a v) s [.cmd] (regsIn [ringReg r R.CMD_CTRL, ringReg r R.CMD_CONS, ringReg r R.CMD_SEQEXP,
          ringReg r R.RPL_PROD, ringReg r R.RPL_CONS, ringReg r R.CMD_STAT, R.CMD_INFLIGHT, ringReg .pf1 R.CMD_INFLIGHT]) fun _ => True))) ∧
  (∀ (s : State) (f : Fn), ∃ u : State, exec (.pcieFunctionReset f) s = .next u.drain ∧ (u.ring f).fetched = [] ∧
    u.cmd.fly = s.cmd.fly.filter (fun x => !decide (x.fn = f)) ∧ u.out = s.out ∧
    (∀ i, i < 16 → R.CMD_CTRL + 4 * i ≠ R.CMD_STAT → u.rd (ringReg f (R.CMD_CTRL + 4 * i)) = 0) ∧
    u.flag (ringFld f F.CMD_STAT_HALTED) = false ∧ u.flag (ringFld f F.CMD_STAT_PAUSED) = s.flag (ringFld f F.CMD_STAT_PAUSED) ∧
    (∀ q, q < 16 → s.hqOwner q = f → u.flag (hqf F.SET_HQ_CFG_EN q) = false ∧ (s.flag (hqf F.SET_HQ_CFG_EN q) = true → (u.hq q).pkts = [])) ∧
    u.pfn f = PcieFn.reset ∧ u.pends 86 ∧
    ∀ n, n < 128 → n ≠ 86 → (f = .pf0 → s.get (rtf F.IRQ_ROUTE_TARGET n) = 1 → (u.mainCh n).due = false) ∧
      (f = .pf1 → (u.pf1Ch n).due = false)) ∧
  (∀ (s : State) (r : Fn) (b : List Byte), Starts s r 0x01 8 true b → Answers (.nop r) s r b St.ok [] [] [] fun _ => True) ∧
  (∀ (s : State) (r : Fn) (b : List Byte), Starts s r 0x02 12 true b →
    let bad := firstFail [(decide (1 < le b 8 1), St.badParam), (!zeroAt b 9 3, St.badParam)]
    (∀ st, bad = some st → fails (.getInfo r) s r b st) ∧
    (bad = none → le b 8 1 = 0 → Answers (.getInfo r) s r b St.ok (toLe 2 0x4872 ++ [0xB0] ++ toLe 1 Config.variant ++
      toLe 4 (s.rd R.UPD_FWVER).toNat ++ toLe 2 Config.romVer ++ toLe 1 (bits (s.rd R.TOP_STRAPS).toNat 4 0) ++
      [if r = .pf1 then 1 else 0] ++ toLe 4 (s.get F.CMD_EPOCH_EPOCH) ++ toLe 7 Config.uid) [] [] fun _ => True) ∧
    (bad = none → le b 8 1 = 1 → Answers (.getInfo r) s r b St.ok (toLe 2 8192 ++ toLe 2 256 ++ toLe 2 8192 ++
      toLe 2 s.sett.retired.length ++ toLe 2 4096 ++ [4, 8] ++ toLe 2 16384 ++ toLe 2 8192 ++ toLe 2 0x8000 ++ toLe 2 1024 ++
      [16, 16, 0]) [] [] fun _ => True)) ∧
  (∀ (s : State) (r : Fn) (b : List Byte), Starts s r 0x04 16 false b →
    let mine (f : Fly) : Bool := decide (f.fn = r) && !f.waiting && pkSeq f.bytes == le b 8 4
    let bad := firstFail [(!zeroAt b 12 4, St.badParam), (!s.cmd.fly.any mine, St.state)]
    (∀ st, bad = some st → fails (.abortStepped r) s r b st) ∧
    (bad = none → Does (.abortStepped r) s [.cmd, .out] (regsIn [ringReg r R.RPL_PROD]) fun t => Answered r b St.ok 0 [] s t ∧
      t.cmd = { (s.popHead r).cmd with fly := s.cmd.fly.map (fun f => if mine f then { f with abort := true } else f), late := t.cmd.late }))

/-- COMMIT_EPOCH with bytes 8 to 15 not zero is answered ST_BAD_PARAM, with ALN_CTRL.EN = 0 ST_STATE, while a commit prepares or waits for its
boundary ST_BUSY. With at most 512 dirty items, none of them poisoned, it is answered ST_OK with the new tag, the boundary and the number of
items: every dirty item is in the pending copy, the boundary is the one of R154, shown by ALN_BOUND and BOUND_PEND, source 83 is raised, the
epoch registers are captured, and every copy in effect stays. A poisoned item ends it with ST_POISON and its index, and nothing pends. With
more items it is a stepped command: each COMMAND_STEP copies the next 512 and answers ST_STEPPING until the last, which ends it in the same
ways. One that would need a fifth place in flight does not start. (R154, R412, R413, R417, R418) -/
def Obligations.CommitEpochPreparesThePendingCopy : Prop :=
  let ps : List Part := [.cmd, .out, .ing, .aln, .ang, .isl, .osc, .outp, .pmu, .nrg]
  let copied (s t : State) : Prop := s.ing.streams.Copied t.ing.streams ∧ s.aln.policy.Copied t.aln.policy ∧ s.ang.limits.Copied t.ang.limits ∧
    s.ang.pairs.Copied t.ang.pairs ∧ s.isl.nodes.Copied t.isl.nodes ∧ s.isl.edges.Copied t.isl.edges ∧ s.isl.expect.Copied t.isl.expect ∧
    s.osc.sigs.Copied t.osc.sigs ∧ s.osc.rules.Copied t.osc.rules ∧ s.osc.place.Copied t.osc.place ∧ s.outp.groups.Copied t.outp.groups ∧
    s.outp.dests.Copied t.outp.dests ∧ s.pmu.cfg.Copied t.pmu.cfg ∧ s.pmu.cal.Copied t.pmu.cal ∧ s.nrg.corr.Copied t.nrg.corr ∧
    t.aln.cadDirty = false ∧ t.aln.cadPend = (if s.aln.cadDirty then some s.aln.cadShadow else none) ∧ t.aln.cad = s.aln.cad ∧ t.aln.insts = s.aln.insts
  let dropped (s t : State) : Prop := s.ing.streams.Dropped t.ing.streams ∧ s.aln.policy.Dropped t.aln.policy ∧ s.ang.limits.Dropped t.ang.limits ∧
    s.ang.pairs.Dropped t.ang.pairs ∧ s.isl.nodes.Dropped t.isl.nodes ∧ s.isl.edges.Dropped t.isl.edges ∧ s.isl.expect.Dropped t.isl.expect ∧
    s.osc.sigs.Dropped t.osc.sigs ∧ s.osc.rules.Dropped t.osc.rules ∧ s.osc.place.Dropped t.osc.place ∧ s.outp.groups.Dropped t.outp.groups ∧
    s.outp.dests.Dropped t.outp.dests ∧ s.pmu.cfg.Dropped t.pmu.cfg ∧ s.pmu.cal.Dropped t.pmu.cal ∧ s.nrg.corr.Dropped t.nrg.corr ∧
    t.aln.bound = s.aln.bound ∧ t.cmd.prep = none
  let pends (s t : State) : Prop := t.aln.bound = some s.boundary ∧ t.rd R.ALN_BOUND_LO = BitVec.ofNat 32 s.boundary.2 ∧
    t.rd R.ALN_BOUND_HI = BitVec.ofNat 32 s.boundary.1 ∧ t.flag F.ALN_STAT_BOUND_PEND = true ∧ t.pends 83 ∧ t.cmd.prep = none
  let result (s : State) (n : Nat) : List Byte := toLe 4 s.nextTag ++ toLe 4 s.boundary.1 ++ toLe 4 s.boundary.2 ++ toLe 4 n
  (∀ (s : State) (r : Fn) (b : List Byte), (s.ring r).fetched.head? = some b → pkOp b = 0x03 → 512 < s.dirtyItems.length → 4 ≤ s.cmd.fly.length →
    Leads (.commitEpoch r) s [] noRegs fun u => u = s) ∧
  (∀ (s : State) (r : Fn) (b : List Byte), Starts s r 0x03 16 false b →
    let bad := firstFail [(!zeroAt b 8 8, St.badParam), (!s.flag F.ALN_CTRL_EN, St.state), (s.cmd.prep.isSome || s.aln.bound.isSome, St.busy)]
    let poisoned := (s.dirtyItems.take 512).findIdx? fun x => s.cramPoisoned (16 + x.1) x.2
    (∀ st, bad = some st → Answers (.commitEpoch r) s r b st [] [] [] fun _ => True) ∧
    (bad = none → poisoned = none → s.dirtyItems.length ≤ 512 →
      Does (.commitEpoch r) s ps (regsIn [ringReg r R.RPL_PROD, R.ALN_BOUND_LO, R.ALN_BOUND_HI, R.ALN_STAT]) fun t =>
        Answered r b St.ok 0 (result s s.dirtyItems.length) s t ∧ pends s t ∧ copied s t ∧
          t.cmd = { (s.popHead r).cmd with prep := none, pregs := some s.epochRegs, pwrit := s.cmd.rdirty, rdirty := [], late := t.cmd.late }) ∧
    (∀ j, poisoned = some j → bad = none → Does (.commitEpoch r) s ps (regsIn [ringReg r R.RPL_PROD]) fun t =>
      Answered r b St.poison 0 (zeros 12 ++ toLe 4 j) s t ∧ dropped s t ∧ t.cmd.fly = s.cmd.fly) ∧
    (bad = none → poisoned = none → 512 < s.dirtyItems.length →
      Does (.commitEpoch r) s ps (regsIn [ringReg r R.RPL_PROD, R.CMD_INFLIGHT, ringReg .pf1 R.CMD_INFLIGHT]) fun t =>
        Answered r b St.stepping 1 [] s t ∧ t.cmd.fly = s.cmd.fly ++ [Fly.mk r b 1 false false [512] none] ∧
          t.cmd.prep = some (s.epochRegs, s.dirtyItems) ∧ t.cmd.rdirty = [] ∧ t.cmd.pwrit = s.cmd.rdirty ∧ t.aln.bound = none ∧
          ∀ i ∈ s.ing.streams.dirty.take 512, mget t.ing.streams.pend i = some (mget s.ing.streams.shadow i))) ∧
  (∀ (s : State) (r : Fn) (f : Fly) (buf : HostRead), s.due r = some f → s.NoneLate → f.abort = false → pkOp f.bytes = 0x03 →
    ∀ k regs items, f.prog = [k] → s.cmd.prep = some (regs, items) →
    let poisoned := ((items.drop k).take 512).findIdx? fun x => s.cramPoisoned (16 + x.1) x.2
    (∀ j, poisoned = some j → Does (.commandStep r buf) s ps (regsIn [ringReg r R.RPL_PROD, R.CMD_INFLIGHT, ringReg .pf1 R.CMD_INFLIGHT]) fun t =>
      Answered r f.bytes St.poison f.steps (zeros 12 ++ toLe 4 (k + j)) s t ∧ dropped s t ∧ t.cmd.fly = s.cmd.fly.erase f) ∧
    (poisoned = none → k + 512 < items.length →
      Does (.commandStep r buf) s ps (regsIn [ringReg r R.RPL_PROD, R.CMD_INFLIGHT, ringReg .pf1 R.CMD_INFLIGHT]) fun t =>
        Answered r f.bytes St.stepping (f.steps + 1) [] s t ∧ t.cmd.prep = s.cmd.prep ∧ t.aln.bound = s.aln.bound ∧
          t.cmd.fly = s.cmd.fly.set (s.cmd.fly.idxOf f) { f with steps := f.steps + 1, prog := [k + 512] }) ∧
    (poisoned = none → items.length ≤ k + 512 →
      Does (.commandStep r buf) s ps (regsIn [ringReg r R.RPL_PROD, R.CMD_INFLIGHT, ringReg .pf1 R.CMD_INFLIGHT, R.ALN_BOUND_LO, R.ALN_BOUND_HI, R.ALN_STAT]) fun t =>
        Answered r f.bytes St.ok (f.steps + 1) (result s items.length) s t ∧ pends s t ∧ t.cmd.pregs = some regs ∧ t.cmd.fly = s.cmd.fly.erase f))

/-- IRQ_DELIVERY_COMMIT takes the deliverable source of the highest PRIO, the lowest number among equals, makes it not due on that channel and
leaves PEND: it goes out as an MSI-X message, to the PBA while its vector is masked, held while the function may not master, held with
PME_Status and, with PME_En, PE_WAKEN while it sleeps; to a core, or a pin goes low. With none deliverable nothing changes. A coalescing
time that runs out makes a source deliverable; a source due for a parked core for 10 us moves to its fallback. IRQ_PEND writes clear or
raise each source; pins follow PEND and MASK. Unmasking sends what the PBA holds; waking, or a configuration write, sends what is held and
what the PBA holds unmasked, lets PE_WAKEN go of a function awake, and writes the replies that waited for the bus; the first MSI-X Enable
with Bus Master Enable after a reset makes PF0's pending, unmasked sources due. (R424, R426, R427, R428, R429, R430, R431, R432, R433, R434,
R437) -/
def Obligations.InterruptsAreDeliveredByRouteAndPriority : Prop :=
  let asleepAdd (x : PcieFn) (l : List Nat) : PcieFn :=
    { x with held := x.held ++ l, pmeStatus := x.pmeStatus || !l.isEmpty, wake := x.wake || (x.pmeEn && !l.isEmpty) }
  (∀ (s : State) (t : Nat), t = 0 ∨ 6 < t ∨ s.nextSource t = none → Leads (.irqDeliveryCommit t) s [] noRegs fun u => u = s) ∧
  (∀ (s : State) (t n : Nat), 1 ≤ t → t ≤ 6 → s.nextSource t = some n →
    let vec := if t = 6 then s.get (rtf F.IRQ_ROUTE_PF1_VEC n) else s.get (rtf F.IRQ_ROUTE_VECTOR n)
    let f : Fn := if t = 6 then .pf1 else .pf0
    let x := s.pfn f
    let msg : Bool := t == 1 || t == 6
    (n < 128 ∧ s.deliverable t n = true ∧ ∀ m, m < 128 → s.deliverable t m = true →
      s.get (rtf F.IRQ_ROUTE_PRIO m) ≤ s.get (rtf F.IRQ_ROUTE_PRIO n) ∧
        (s.get (rtf F.IRQ_ROUTE_PRIO m) = s.get (rtf F.IRQ_ROUTE_PRIO n) → n ≤ m)) ∧
    Leads (.irqDeliveryCommit t) s [.out, .irq] noRegs fun u =>
      (∀ m, m < 128 → u.flag (bitFld R.IRQ_PEND m) = s.flag (bitFld R.IRQ_PEND m) ∧
        u.flag (bitFld R.IRQ_DUE m) = (s.flag (bitFld R.IRQ_DUE m) && !(m == n && t != 6))) ∧
      u.irq = { s.irq with
        main := if t = 6 then s.irq.main else merase s.irq.main n, moved := if t = 6 then s.irq.moved else sdel s.irq.moved n
        pf1 := if t = 6 then merase s.irq.pf1 n else s.irq.pf1, fn0 := u.pfn .pf0, fn1 := u.pfn .pf1
        lowBy0 := if t = 4 then sadd s.irq.lowBy0 n else s.irq.lowBy0, lowBy1 := if t = 5 then sadd s.irq.lowBy1 n else s.irq.lowBy1 } ∧
      u.pfn (otherFn f) = s.pfn (otherFn f) ∧
      (msg = true → s.fnAsleep f = true → u.out = s.out ∧ u.pfn f = asleepAdd x [vec]) ∧
      (msg = true → s.fnAsleep f = false → x.vecMasked vec = true → u.out = s.out ∧ u.pfn f = { x with pba := sadd x.pba vec }) ∧
      (msg = true → s.fnAsleep f = false → x.vecMasked vec = false → x.bme = true → u.out = s.out ++ [Out.msix f vec] ∧ u.pfn f = x) ∧
      (msg = true → s.fnAsleep f = false → x.vecMasked vec = false → x.bme = false → u.out = s.out ∧
        u.pfn f = { x with held := x.held ++ [vec] }) ∧
      (msg = false → u.pfn f = x ∧ u.out = s.out ++ (if t = 2 ∨ t = 3 then [Out.core (t - 2) n] else []))) ∧
  (∀ (s : State) (pf1 : Bool) (n : Nat),
    let c := if pf1 then s.pf1Ch n else s.mainCh n
    let us := s.get (rtf F.IRQ_COAL_TIME_US n)
    (n < 128 → c.due = true → c.timeUp = false → 2 ≤ s.get (rtf F.IRQ_COAL_COUNT n) → us ≠ 0 →
      Leads (.irqCoalTimeout pf1 n) s [.tim] noRegs fun u =>
        u.tim = { s.tim with now := max s.tim.now (c.since + ticksOfUs us) } ∧ (if pf1 then u.pf1Ch n else u.mainCh n).timeUp = true) ∧
    (128 ≤ n ∨ c.due = false ∨ c.timeUp = true ∨ s.get (rtf F.IRQ_COAL_COUNT n) < 2 ∨ us = 0 →
      Leads (.irqCoalTimeout pf1 n) s [] noRegs fun u => u = s)) ∧
  (∀ (s : State) (n : Nat),
    let t := s.get (rtf F.IRQ_ROUTE_TARGET n)
    let fb := s.get (rtf F.IRQ_ROUTE_FALLBACK n)
    let due : Bool := decide (n < 128) && (s.mainCh n).due && !smem s.irq.moved n && s.coreParked t && fb != 0 && !s.coreParked fb
    (due = true → Leads (.evIrqFallback n) s [.tim, .irq] noRegs fun u =>
      u.tim = { s.tim with now := max s.tim.now (s.dueParked n t + ticksOfUs 10) } ∧ u.irq.quiet = { s.irq with moved := sadd s.irq.moved n }.quiet ∧
        u.pends 6 ∧ u.mainTarget n = fb) ∧
    (due = false → Leads (.evIrqFallback n) s [] noRegs fun u => u = s)) ∧
  (∀ (s : State) (a : Agent) (w : Fin 4) (v : Dword), s.mayWrite a (R.IRQ_PEND + 4 * w) →
    Leads (.irqPendWrite a w v) s [.irq] noRegs fun u =>
      (∀ j, j < 32 →
        let n := 32 * w.val + j
        u.flag (bitFld R.IRQ_PEND n) = bit v.toNat j ∧
        (s.flag (bitFld R.IRQ_PEND n) = true → bit v.toNat j = false →
          u.flag (bitFld R.IRQ_DUE n) = false ∧ (u.mainCh n).due = false ∧ smem u.irq.moved n = false) ∧
        (s.flag (bitFld R.IRQ_PEND n) = false → bit v.toNat j = true →
          u.flag (bitFld R.IRQ_DUE n) = true ∧ (u.mainCh n).due = true ∧ u.get (occFld n) = (s.get (occFld n) + 1) % 2 ^ 16 ∧
          (n ≠ 24 → n ≠ 25 → s.pf1En n = true → (u.pf1Ch n).due = true)) ∧
        (s.flag (bitFld R.IRQ_PEND n) = bit v.toNat j → u.flag (bitFld R.IRQ_DUE n) = s.flag (bitFld R.IRQ_DUE n) ∧ u.mainCh n = s.mainCh n ∧
          u.pf1Ch n = s.pf1Ch n ∧ u.get (occFld n) = s.get (occFld n))) ∧
      (∀ n, n < 128 → n / 32 ≠ w.val → u.flag (bitFld R.IRQ_PEND n) = s.flag (bitFld R.IRQ_PEND n) ∧
        u.flag (bitFld R.IRQ_DUE n) = s.flag (bitFld R.IRQ_DUE n) ∧ u.mainCh n = s.mainCh n ∧ u.pf1Ch n = s.pf1Ch n ∧
        u.get (occFld n) = s.get (occFld n)) ∧
      u.irq.lowBy0 = (if u.pinHeld 4 s.irq.lowBy0 then s.irq.lowBy0 else []) ∧
      u.irq.lowBy1 = (if u.pinHeld 5 s.irq.lowBy1 then s.irq.lowBy1 else []) ∧
      u.irq.quiet = { s.irq with moved := u.irq.moved, lowBy0 := u.irq.lowBy0, lowBy1 := u.irq.lowBy1 }.quiet) ∧
  (∀ (s : State) (a : Agent) (w : Fin 4) (v : Dword), s.mayWrite a (R.IRQ_MASK + 4 * w) →
    Leads (.irqMaskWrite a w v) s [.irq] (regsIn [R.IRQ_MASK + 4 * w]) fun u => u.rd (R.IRQ_MASK + 4 * w) = v ∧
      u.irq = { s.irq with lowBy0 := u.irq.lowBy0, lowBy1 := u.irq.lowBy1 } ∧
      u.irq.lowBy0 = (if u.pinHeld 4 s.irq.lowBy0 then s.irq.lowBy0 else []) ∧
      u.irq.lowBy1 = (if u.pinHeld 5 s.irq.lowBy1 then s.irq.lowBy1 else [])) ∧
  (∀ (s : State) (f : Fn) (vec : Nat),
    let x := { s.pfn f with unmasked := sadd (s.pfn f).unmasked vec }
    let l := x.pba.filter fun v => !x.vecMasked v
    let y := { x with pba := x.pba.filter fun v => x.vecMasked v }
    (vecCount f ≤ vec → Leads (.msixVectorUnmask f vec) s [] noRegs fun u => u = s) ∧
    (vec < vecCount f → Leads (.msixVectorUnmask f vec) s [.irq, .out] noRegs fun u =>
      u.irq = { s.irq with fn0 := u.pfn .pf0, fn1 := u.pfn .pf1 } ∧ u.pfn (otherFn f) = s.pfn (otherFn f) ∧
      (s.fnAsleep f = true → u.out = s.out ∧ u.pfn f = asleepAdd y l) ∧
      (s.fnAsleep f = false → x.bme = true → u.out = s.out ++ l.map (fun v => Out.msix f v) ∧ u.pfn f = y) ∧
      (s.fnAsleep f = false → x.bme = false → u.out = s.out ∧ u.pfn f = { y with held := x.held ++ l }))) ∧
  (∀ (s : State) (f : Fn),
    let x := s.pfn f
    let go := x.held.filter fun v => !x.vecMasked v
    Leads (.heldDeliveryRelease f) s [.irq, .out] noRegs fun u =>
      u.irq = { s.irq with linkL2 := false, fn0 := u.pfn .pf0, fn1 := u.pfn .pf1 } ∧
      u.out = s.out ++ (if x.bme then go.map (fun v => Out.msix f v) else []) ∧
      u.pfn f = { x with
        d3 := false, wake := false, held := if x.bme then [] else go, pba := (x.held.filter fun v => x.vecMasked v).foldl sadd x.pba } ∧
      u.pfn (otherFn f) = { s.pfn (otherFn f) with wake := (s.pfn (otherFn f)).wake && (s.pfn (otherFn f)).d3 } ∧
      u.peWaken = !(u.pfn (otherFn f)).wake) ∧
  (∀ (s : State) (f : Fn) (bme msixEn fmask d3 pmeEn pmeClear l2 : Bool),
    let w := s.pfn f
    let x := { w with bme := bme, msixEn := msixEn, fmask := fmask, d3 := d3, pmeEn := pmeEn, pmeStatus := w.pmeStatus && !pmeClear,
                      rearm := w.rearm && !(msixEn && bme) }
    let l := x.pba.filter fun v => !x.vecMasked v
    let go := x.held.filter fun v => !x.vecMasked v
    let kept := x.pba.filter fun v => x.vecMasked v
    let writes (r : LateReply) : Bool := s.fwRuns && (if r.fn = f then bme else (s.pfn r.fn).bme)
    let arms : Bool := decide (f = .pf0) && w.rearm && !w.msixEn && msixEn && bme
    Leads (.pcieConfigWrite f bme msixEn fmask d3 pmeEn pmeClear l2) s [.irq, .out, .cmd]
        (regsIn [ringReg .pf0 R.RPL_PROD, ringReg .pf1 R.RPL_PROD]) fun u =>
      u.irq.quiet = { s.irq with linkL2 := l2, fn0 := u.pfn .pf0, fn1 := u.pfn .pf1 }.quiet ∧
      u.cmd = { s.cmd with late := s.cmd.late.filter fun r => !writes r } ∧
      u.pfn (otherFn f) = { s.pfn (otherFn f) with wake := (s.pfn (otherFn f)).wake && ((s.pfn (otherFn f)).d3 || l2) } ∧
      (d3 = true ∨ l2 = true → u.pfn f = asleepAdd { x with pba := kept } l) ∧
      (d3 = false → l2 = false → u.pfn f = { x with
        wake := false, held := (if bme then [] else go ++ l), pba := (x.held.filter fun v => x.vecMasked v).foldl sadd kept }) ∧
      (s.cmd.late.any writes = false →
        u.out = s.out ++ (if !d3 && !l2 && bme then (go ++ l).map (fun v => Out.msix f v) else []) ∧
        (∀ n, n < 128 → u.flag (bitFld R.IRQ_PEND n) = s.flag (bitFld R.IRQ_PEND n) ∧ u.pf1Ch n = s.pf1Ch n ∧
          (arms = true → s.get (rtf F.IRQ_ROUTE_TARGET n) = 1 → s.flag (bitFld R.IRQ_PEND n) = true → s.flag (bitFld R.IRQ_MASK n) = false →
            u.flag (bitFld R.IRQ_DUE n) = true ∧ (u.mainCh n).due = true ∧ ((s.mainCh n).due = false → u.coalMet n (u.mainCh n) = true) ∧
              ((s.mainCh n).due = true → u.mainCh n = s.mainCh n)) ∧
          (arms = false ∨ s.get (rtf F.IRQ_ROUTE_TARGET n) ≠ 1 ∨ s.flag (bitFld R.IRQ_PEND n) = false ∨ s.flag (bitFld R.IRQ_MASK n) = true →
            u.flag (bitFld R.IRQ_DUE n) = s.flag (bitFld R.IRQ_DUE n) ∧ u.mainCh n = s.mainCh n))) ∧
      (∀ r, (s.cmd.late.filter writes).head? = some r →
        Out.dma r.fn (s.replyAddr r.fn) (s.replyBytes r.fn r.bytes r.st r.steps r.res) ∈ u.out.drop s.out.length) ∧
      (∀ g : Fn, u.get (ringFld g F.RPL_PROD_PROD) =
        (s.get (ringFld g F.RPL_PROD_PROD) + (s.cmd.late.filter fun r => writes r && decide (r.fn = g)).length) % 2 ^ 32))

/-- EVR_BUCKET_REFILL gives a code's bucket one record 1/PER_S s after the last, until BURST; a full bucket, or PER_S 0, changes nothing;
EVR_RATE_WRITE fills all. EN rising starts the ring, without a page, with the EVREC quota as its size, and logs the events held since the
reset; EN falling drops its records and pages and ends a freeze; EN as it was changes nothing. EVR_FREEZE of a ring that runs freezes it
from now; EVR_THAW and EV_EVR_THAW_TIMEOUT, EVR_FREEZE_MS after the last freeze, end that, and EV_EVR_FROZEN_DROP tells what was lost.
EVR_READ writes the records asked for, 80 bytes each from SEQ FROM, or from the oldest if that is later, up to a poisoned one, which makes
it ST_POISON, and answers where it began, how many, what comes next and how many were lost; a write that could not be issued makes it
ST_TIMEOUT. The checks fail in their order. (R440, R442, R443, R481) -/
def Obligations.TheEventRingRunsFreezesAndIsRead : Prop :=
  let fails (c : Instr) (s : State) (r : Fn) (b : List Byte) (st : Nat) : Prop := Answers c s r b st [] [] [] fun _ => True
  let thawed (s u : State) (code : List PendEv) : Prop := u.evr.frozenAt = none ∧ u.evr.frozenLost = (0, 0, 0) ∧ u.flag F.EVR_STAT_FROZEN = false ∧
    (s.evr.frozenLost.1 = 0 → u.evr.backlog = s.evr.backlog ++ code) ∧
    (s.evr.frozenLost.1 ≠ 0 → u.pends 6 ∧ u.evr.backlog = s.evr.backlog ++
      [⟨Ev.EVR_FROZEN_DROP, 0, [(32, s.evr.frozenLost.1), (32, s.evr.frozenLost.2.1), (32, s.evr.frozenLost.2.2)]⟩] ++ code)
  (∀ (s : State) (code : Nat), s.bucket code = none ∨ s.get F.EVR_RATE_PER_S = 0 → Leads (.evrBucketRefill code) s [] noRegs fun u => u = s) ∧
  (∀ (s : State) (code n t : Nat), s.bucket code = some (n, t) → s.get F.EVR_RATE_PER_S ≠ 0 →
    let w := t + ceilDiv 491520000 (s.get F.EVR_RATE_PER_S)
    Leads (.evrBucketRefill code) s [.tim] noRegs fun u => u.tim = { s.tim with now := max s.tim.now w } ∧
      ((∀ e ∈ s.evr.backlog, e.code ≠ code) → code ≠ Ev.TWN_FAULT →
        mget u.evr.buckets code = (if s.get F.EVR_RATE_BURST ≤ n + 1 then none else some (n + 1, w)))) ∧
  (∀ (s : State) (a : Agent) (v : Dword), s.mayWrite a R.EVR_RATE → Leads (.evrRateWrite a v) s [.evr] (regsIn [R.EVR_RATE]) fun u =>
    u.evr = { s.evr with buckets := [] } ∧ u.rd R.EVR_RATE = v ∧ ∀ code, u.tokens code = u.get F.EVR_RATE_BURST) ∧
  (∀ (s : State) (a : Agent) (v : Dword), s.mayWrite a R.EVR_CTRL →
    (s.flag F.EVR_CTRL_EN = false → fval F.EVR_CTRL_EN v = 1 → Leads (.evrRingStart a v) s [.evr] (regsIn [R.EVR_CTRL]) fun u =>
      u.flag F.EVR_CTRL_EN = true ∧ u.flag F.EVR_STAT_RUN = true ∧ u.evr.size = s.quota 4 ∧ u.evr.early = [] ∧ u.evr.started = true ∧
        (s.evr.early = [] → u.evr = { s.evr with size := s.quota 4, started := true }) ∧
        (s.get F.EVR_RATE_BURST = 0 → u.get F.EVR_SEQ_SEQ = (s.get F.EVR_SEQ_SEQ + s.evr.early.length) % 2 ^ 32)) ∧
    (s.flag F.EVR_CTRL_EN = true → fval F.EVR_CTRL_EN v = 0 → Leads (.evrRingStop a v) s [.evr] (regsIn [R.EVR_CTRL]) fun u =>
      u.flag F.EVR_CTRL_EN = false ∧ u.flag F.EVR_STAT_RUN = false ∧ u.evr.recs = [] ∧ u.evr.pages = [] ∧ thawed s u [] ∧
        (∀ id ∈ s.evr.pages, (mget s.sett.pages id).map (fun g => g.holders) = some [Holder.ring] → mget u.sett.pages id = none) ∧ u.get F.EVR_STAT_RINGPG = 0 ∧
        u.get F.EVR_OLDEST_SEQ = s.get F.EVR_SEQ_SEQ) ∧
    (b2n (s.flag F.EVR_CTRL_EN) = fval F.EVR_CTRL_EN v →
      (Leads (.evrRingStart a v) s [] (regsIn [R.EVR_CTRL]) fun u => u.flag F.EVR_CTRL_EN = s.flag F.EVR_CTRL_EN ∧ u.evr = s.evr) ∧
      Leads (.evrRingStop a v) s [] (regsIn [R.EVR_CTRL]) fun u => u.flag F.EVR_CTRL_EN = s.flag F.EVR_CTRL_EN ∧ u.evr = s.evr)) ∧
  (∀ (s : State), s.evr.frozenAt = none ∨ s.get F.EVR_FREEZE_MS_MS = 0 → Leads .evEvrThawTimeout s [] noRegs fun u => u = s) ∧
  (∀ (s : State) (t : Nat), s.evr.frozenAt = some t → s.get F.EVR_FREEZE_MS_MS ≠ 0 →
    let w := t + ticksOfMs (s.get F.EVR_FREEZE_MS_MS)
    Leads .evEvrThawTimeout s [.tim, .evr] noRegs fun u => u.tim = { s.tim with now := max s.tim.now w } ∧ u.pends 6 ∧
      u.evr.frozenAt = none ∧ u.flag F.EVR_STAT_FROZEN = false ∧ u.evr.quiet = { s.evr with frozenAt := none }.quiet ∧
      (w ≤ s.tim.now → thawed s u [⟨Ev.EVR_THAW_TIMEOUT, 0, []⟩]) ∧
      (s.tim.now < w → u.evr.backlog.getLast? = some ⟨Ev.EVR_THAW_TIMEOUT, 0, []⟩)) ∧
  (∀ (s : State) (r : Fn) (b : List Byte), Starts s r 0x78 16 false b →
    let bad := firstFail [(!zeroAt b 8 8, St.badParam), (!s.flag F.EVR_CTRL_EN, St.state)]
    (∀ st, bad = some st → fails (.evrFreeze r) s r b st) ∧
    (bad = none → Answers (.evrFreeze r) s r b St.ok [] [.evr] [] (fun t => t.evr.quiet = { s.evr with frozenAt := some s.tim.now }.quiet) ∧
      Leads (.evrFreeze r) s [.cmd, .out, .evr] (regsIn [ringReg r R.RPL_PROD]) fun u => u.flag F.EVR_STAT_FROZEN = true)) ∧
  (∀ (s : State) (r : Fn) (b : List Byte), Starts s r 0x79 16 false b →
    let bad := firstFail [(!zeroAt b 8 8, St.badParam), (s.evr.frozenAt.isNone, St.state)]
    (∀ st, bad = some st → fails (.evrThaw r) s r b st) ∧
    (bad = none → Answers (.evrThaw r) s r b St.ok [] [.evr] [] (fun t => t.evr.quiet = { s.evr with frozenAt := none }.quiet) ∧
      Leads (.evrThaw r) s [.cmd, .out, .evr] (regsIn [ringReg r R.RPL_PROD]) fun u => thawed s u [])) ∧
  (∀ (s : State) (r : Fn) (b : List Byte) (issued : Bool), Starts s r 0x7A 32 true b →
    let src := le b 8 1
    let len := le b 24 4
    let bad := firstFail [(decide (1 < src), St.badParam), (!zeroAt b 9 3, St.badParam), (le b 16 8 % 8 != 0, St.badParam),
      (len == 0 || len % 80 != 0, St.badLength), (!zeroAt b 28 4, St.badParam), (src == 0 && !s.flag F.EVR_CTRL_EN, St.state)]
    let held := s.evrHeld (src == 1)
    let oldest := (held.head?.map fun x => x.1).getD (s.get F.EVR_SEQ_SEQ)
    let d := subMod 32 oldest (le b 12 4)
    let late : Bool := d != 0 && decide (d < 2 ^ 31)
    let start := if late then oldest else le b 12 4
    let want := (held.filter fun x => decide (subMod 32 x.1 start < 2 ^ 31)).take (len / 80)
    let good := want.takeWhile fun x => !x.2.any fun w => w.poison
    let result (after : Nat) : List Byte := toLe 4 start ++ toLe 4 good.length ++ toLe 4 after ++ toLe 4 (if late then d else 0)
    let written (t : State) : Prop := (t.out.drop s.out.length).take good.length = good.zipIdx.map fun x =>
      Out.dma r (le b 16 8 + 80 * x.2) (packedBlock (x.1.2.map fun w => (w.v.toNat, flagByte w.eop w.poison false false)) false)
    (∀ st, bad = some st → fails (.evrRead r issued) s r b st) ∧
    (bad = none → good ≠ [] → issued = false ∨ (s.pfn r).bme = false → fails (.evrRead r issued) s r b St.timeout) ∧
    (bad = none → good = [] ∨ (issued = true ∧ (s.pfn r).bme = true) →
      (good = want → Answers (.evrRead r issued) s r b St.ok (result (start + good.length)) [] [] written) ∧
      (∀ x, want[good.length]? = some x → Answers (.evrRead r issued) s r b St.poison (result x.1) [] [] written)))

/-- BADGER_TAG_WRITEBACK takes the oldest tag off the queue and counts it: a corrected one joins the last 256, an uncorrectable one is never
logged again, and a hard one in control RAM moves to a spare while any of 64 is left. What the read-back finds is put right, or poisoned, by
the table of R447: the same bit again is a hard fault, counted, source 90, entered in the list of 16 for a Sett page; another bit is a
correction, counted, tagged once, source 88; the rest poisons its words, is tagged, and logged once per block, source 89.
BADGER_BLOCK_VISIT, INTERVAL ns after the last where it is paced, moves to the next block and acts in the same ways; after the last block
the lap's time is shown and a new lap starts; with EN = 0 nothing changes. EV_ECC_LAP_LATE sets LATE in MODE 1 at IDLE_MAX, once a lap.
SCRUB_CFG stores MODE, IDLE_MAX and INTERVAL in range, and refuses others. (R447, R448, R449, R451, R452, R453, R454) -/
def Obligations.TheBadgerWritesBackAndWalks : Prop :=
  let fixOf (cram : Bool) (e : ReadErr) : Option (Nat × Nat) := match blockFix cram e with
    | .fix w c => some (w, c)
    | _ => none
  let badOf (cram : Bool) (e : ReadErr) : Option (List Nat) := match blockFix cram e with
    | .poison ws => some ws
    | _ => none
  let hardened (s u : State) (b : Block) (w c : Nat) : Prop := u.get F.ECC_CNT_HARD_COUNT = (s.get F.ECC_CNT_HARD_COUNT + 1) % 2 ^ 32 ∧ u.pends 90 ∧
    u.get F.ECC_LAST_HI_KIND = 3 ∧ (w ≠ 8 → u.get F.ECC_LAST_LO_ADDR = (8 * b.no + w) % 2 ^ 32) ∧ (c ≠ 74 → u.get F.ECC_LAST_HI_BIT = c) ∧
    (b.cram = true → u.ecc.cramHard = sadd s.ecc.cramHard b.no ∧ u.ecc.hard = s.ecc.hard) ∧
    (b.cram = false → u.ecc.cramHard = s.ecc.cramHard ∧
      let place := if s.ecc.hard.any (fun p => p.2 == b.no / 128) then none else (List.range 16).find? fun i => (mget s.ecc.hard i).isNone
      (place = none → u.ecc.hard = s.ecc.hard) ∧
      ∀ i, place = some i → u.ecc.hard = mput s.ecc.hard i (b.no / 128) ∧ u.get F.ECC_STAT_HARDN = u.ecc.hard.length % 256)
  let tagged (s u : State) (b : Block) (w : Nat) (c : Option Nat) : Prop :=
    let twice : Bool := s.ecc.tags.any fun x => x.blk = b
    let logs : Bool := s.ecc.ovfLog.all fun n => decide (n + ticksOfMs 1 ≤ s.now)
    (twice = true → u.ecc.tags = s.ecc.tags ∧ u.ecc.ovfLog = s.ecc.ovfLog ∧ u.get F.ECC_CNT_TAGOVF_COUNT = s.get F.ECC_CNT_TAGOVF_COUNT) ∧
    (twice = false → s.ecc.tags.length < 64 → u.ecc.tags = s.ecc.tags ++ [⟨b, w, c⟩] ∧ u.ecc.ovfLog = s.ecc.ovfLog ∧
      u.get F.ECC_CNT_TAGOVF_COUNT = s.get F.ECC_CNT_TAGOVF_COUNT) ∧
    (twice = false → 64 ≤ s.ecc.tags.length → u.ecc.tags = s.ecc.tags ∧ u.flag F.ECC_STAT_TAGOVF = true ∧
      u.get F.ECC_CNT_TAGOVF_COUNT = (s.get F.ECC_CNT_TAGOVF_COUNT + 1) % 2 ^ 32 ∧
      (logs = true → u.pends 92 ∧ u.ecc.ovfLog = some s.now) ∧ (logs = false → u.ecc.ovfLog = s.ecc.ovfLog))
  let corrected (s u : State) (b : Block) (w c : Nat) : Prop := u.get F.ECC_CNT_CORR_COUNT = (s.get F.ECC_CNT_CORR_COUNT + 1) % 2 ^ 32 ∧ u.pends 88 ∧
    u.flag F.ECC_LAST_HI_CRAM = b.cram ∧ tagged s u b w (some c) ∧ (s.ecc.hist.contains (b, w, c) = true → hardened s u b w c) ∧
    (s.ecc.hist.contains (b, w, c) = false → u.get F.ECC_LAST_HI_KIND = 1 ∧ (w ≠ 8 → u.get F.ECC_LAST_LO_ADDR = (8 * b.no + w) % 2 ^ 32) ∧
      (c ≠ 74 → u.get F.ECC_LAST_HI_BIT = c) ∧ u.get F.ECC_CNT_HARD_COUNT = s.get F.ECC_CNT_HARD_COUNT ∧ u.ecc.hard = s.ecc.hard ∧
      u.ecc.cramHard = s.ecc.cramHard)
  let poisoned (s u : State) (b : Block) (ws : List Nat) : Prop :=
    (b.cram = true → ∀ i ∈ ws, smem u.ecc.cramPoison (8 * b.no + i) = true) ∧
    (b.cram = false → u.ecc.cramPoison = s.ecc.cramPoison ∧ ∀ x, (s.sett.pages.find? fun p => p.2.phys == b.no / 128) = some x →
      mget s.sett.pages x.1 = some x.2 → mget u.sett.pages x.1 = some { x.2 with
        words := x.2.words.zipIdx.map fun y => if ws.any fun i => (8 * b.no + i) % 1024 == y.2 then { y.1 with poison := true } else y.1 })
  let lost (s u : State) (b : Block) (ws : List Nat) : Prop := poisoned s u b ws ∧
    (s.ecc.logged.contains b = true → u.get F.ECC_CNT_UNCORR_COUNT = s.get F.ECC_CNT_UNCORR_COUNT ∧ u.ecc.logged = s.ecc.logged) ∧
    (s.ecc.logged.contains b = false → u.get F.ECC_CNT_UNCORR_COUNT = (s.get F.ECC_CNT_UNCORR_COUNT + 1) % 2 ^ 32 ∧ u.pends 89 ∧
      u.ecc.logged = s.ecc.logged ++ [b] ∧ u.get F.ECC_LAST_HI_KIND = 2 ∧ u.get F.ECC_LAST_HI_BIT = 0x7F ∧ u.flag F.ECC_LAST_HI_CRAM = b.cram)
  (∀ (cram : Bool) (r c : Nat) (x : List Nat), fixOf cram ⟨[], []⟩ = none ∧ badOf cram ⟨[], []⟩ = none ∧
    fixOf cram ⟨[r], [c]⟩ = some (r % 8, c % (if cram then 65 else 74)) ∧ fixOf cram ⟨[r], []⟩ = some (r % 8, 74) ∧
    fixOf cram ⟨[], [c]⟩ = some (8, c % (if cram then 65 else 74)) ∧
    (∀ d, badOf cram ⟨[], c :: d :: x⟩ = some (List.range 8) ∧ badOf cram ⟨[r], c :: d :: x⟩ = some [r % 8] ∧
      badOf cram ⟨r :: d :: x, [c]⟩ = some ((r :: d :: x).map fun i => i % 8) ∧
      badOf cram ⟨r :: d :: x, []⟩ = some ((r :: d :: x).map fun i => i % 8))) ∧
  (∀ s : State, ∀ err, s.ecc.tags = [] → Leads (.badgerTagWriteback err) s [] noRegs fun u => u = s) ∧
  (∀ (s : State) (t : EccTag) (rest : List EccTag) (err : ReadErr), s.ecc.tags = t :: rest →
    let remap : Bool := t.blk.cram && s.ecc.cramHard.contains t.blk.no
    let moved : Bool := remap && decide (s.ecc.cramMap.length < 64)
    let e : Ecc := { s.ecc with
      tags := rest, logged := s.ecc.logged.filter (fun b => !(b = t.blk))
      hist := if t.col.isSome then ((t.blk, t.word, t.col.getD 0) :: s.ecc.hist).take 256 else s.ecc.hist
      wb := if t.col.isNone then ((s.blockKey t.blk).map fun k => sadd s.ecc.wb k).getD s.ecc.wb else s.ecc.wb
      cramHard := if moved then sdel s.ecc.cramHard t.blk.no else s.ecc.cramHard
      cramMap := if moved then sadd s.ecc.cramMap t.blk.no else s.ecc.cramMap }
    let s1 : State := { s with ecc := e }
    let regs := regsIn [R.ECC_CNT_WB, R.ECC_CNT_CORR, R.ECC_CNT_UNCORR, R.ECC_CNT_HARD, R.ECC_CNT_TAGOVF, R.ECC_LAST_LO, R.ECC_LAST_HI, R.ECC_STAT]
    Leads (.badgerTagWriteback err) s [.ecc] regs fun u => u.get F.ECC_CNT_WB_COUNT = (s.get F.ECC_CNT_WB_COUNT + 1) % 2 ^ 32 ∧
      (remap = true → u.pends 90) ∧ (moved = true → u.get F.ECC_STAT_SPARES = min 64 e.cramMap.length) ∧
      (fixOf t.blk.cram err = none → badOf t.blk.cram err = none → u.ecc = e ∧
        ∀ a, a ∈ [R.ECC_CNT_CORR, R.ECC_CNT_UNCORR, R.ECC_CNT_HARD, R.ECC_CNT_TAGOVF, R.ECC_LAST_LO, R.ECC_LAST_HI] → u.rd a = s.rd a) ∧
      (∀ x, fixOf t.blk.cram err = some x →
        u.ecc = { e with tags := u.ecc.tags, ovfLog := u.ecc.ovfLog, hard := u.ecc.hard, cramHard := u.ecc.cramHard } ∧
        (t.col = some x.2 → t.word = x.1 → hardened s1 u t.blk x.1 x.2 ∧ u.ecc.tags = e.tags ∧
          u.get F.ECC_CNT_CORR_COUNT = (s.get F.ECC_CNT_CORR_COUNT + 1) % 2 ^ 32) ∧
        (t.col ≠ some x.2 ∨ t.word ≠ x.1 → corrected s1 u t.blk x.1 x.2)) ∧
      (∀ ws, badOf t.blk.cram err = some ws → lost s1 u t.blk ws ∧ tagged s1 u t.blk (ws.headD 0) none ∧
        u.ecc = { e with
          tags := u.ecc.tags, ovfLog := u.ecc.ovfLog, logged := u.ecc.logged, cramPoison := u.ecc.cramPoison, healed := u.ecc.healed })) ∧
  (∀ (s : State) (err : ReadErr), s.flag F.ECC_CTRL_EN = false → Leads (.badgerBlockVisit err) s [] noRegs fun u => u = s) ∧
  (∀ (s : State) (err : ReadErr), s.flag F.ECC_CTRL_EN = true →
    let i := s.ecc.walk
    let b : Block := if i < 1048576 then ⟨false, i⟩ else ⟨true, i - 1048576⟩
    let paced : Bool := !s.flag F.ECC_STAT_MODE || s.ecc.late
    let s1 := if paced then s.reach (s.ecc.visitAt + ticksOfNs (s.get F.ECC_SCRUB_INTERVAL)) else s
    let ended : Bool := decide (walkBlocks ≤ i + 1)
    let e : Ecc := { s.ecc with
      walk := if ended then 0 else i + 1, visitAt := s1.now, lapStart := if ended then s1.now else s.ecc.lapStart
      late := !ended && s.ecc.late }
    let regs := regsIn ((if ended then [R.ECC_LAP, R.ECC_LAPMAX] else []) ++
      (if fixOf b.cram err = none ∧ badOf b.cram err = none then [] else
        [R.ECC_CNT_CORR, R.ECC_CNT_UNCORR, R.ECC_CNT_HARD, R.ECC_CNT_TAGOVF, R.ECC_LAST_LO, R.ECC_LAST_HI, R.ECC_STAT]))
    Leads (.badgerBlockVisit err) s [.tim, .ecc] regs fun u =>
      u.tim = { s.tim with
        now := if paced then max s.tim.now (s.ecc.visitAt + ticksOfNs (s.get F.ECC_SCRUB_INTERVAL)) else s.tim.now } ∧
      (ended = true → u.get F.ECC_LAP_MS = (u.now - s.ecc.lapStart) / ticksOfMs 1 % 2 ^ 32 ∧
        u.get F.ECC_LAPMAX_MS = max (s.get F.ECC_LAPMAX_MS) ((u.now - s.ecc.lapStart) / ticksOfMs 1) % 2 ^ 32) ∧
      (fixOf b.cram err = none → badOf b.cram err = none → u.ecc = e) ∧
      (∀ x, fixOf b.cram err = some x → corrected s1 u b x.1 x.2 ∧
        u.ecc = { e with tags := u.ecc.tags, ovfLog := u.ecc.ovfLog, hard := u.ecc.hard, cramHard := u.ecc.cramHard }) ∧
      (∀ ws, badOf b.cram err = some ws → lost s1 u b ws ∧ ((List.range 8).any fun w =>
          u.ecc.tags == (if (s.ecc.tags.any fun x => x.blk = b) || decide (64 ≤ s.ecc.tags.length) then s.ecc.tags else s.ecc.tags ++ [⟨b, w, none⟩])) = true ∧
        u.ecc = { e with
          tags := u.ecc.tags, ovfLog := u.ecc.ovfLog, logged := u.ecc.logged, cramPoison := u.ecc.cramPoison, healed := u.ecc.healed })) ∧
  (∀ s : State,
    let due : Bool := s.flag F.ECC_CTRL_EN && s.flag F.ECC_STAT_MODE && !s.ecc.late
    (due = true → Does .evEccLapLate s [.tim, .ecc] (regsIn [R.ECC_STAT]) fun t => t.ecc = { s.ecc with late := true } ∧
      t.flag F.ECC_STAT_LATE = true ∧ t.pends 92 ∧
      t.tim = { s.tim with now := max s.tim.now (s.ecc.lapStart + ticksOfS (s.get F.ECC_SCRUB_IDLE_MAX)) }) ∧
    (due = false → Leads .evEccLapLate s [] noRegs fun u => u = s)) ∧
  (∀ (s : State) (r : Fn) (b : List Byte), Starts s r 0x81 16 false b →
    let idle := le b 9 1
    let bad := firstFail [(decide (1 < le b 8 1), St.badParam), (if le b 8 1 == 1 then idle == 0 || decide (60 < idle) else idle != 0, St.badParam),
      (decide (le b 10 2 < 50) || decide (10000 < le b 10 2), St.badParam), (!zeroAt b 12 4, St.badParam)]
    (∀ st, bad = some st → Answers (.scrubCfg r) s r b st [] [] [] fun _ => True) ∧
    (bad = none → Answers (.scrubCfg r) s r b St.ok [] [] [R.ECC_SCRUB, R.ECC_STAT] fun t =>
      t.get F.ECC_STAT_MODE = le b 8 1 ∧ t.get F.ECC_SCRUB_IDLE_MAX = idle ∧ t.get F.ECC_SCRUB_INTERVAL = le b 10 2))

/-- PAGE_RETIRE fails its checks in order: PAGE and reserved bytes, another in flight ST_BUSY, a retired page ST_STATE, no page for the
replacement ST_NO_RESOURCE. Of a free page it is answered ST_OK with NEW = 0xFFFF: the page is retired, PERSIST goes up, SPARE down by one,
or where it is 0 the quota of a class; source 91 is raised. Of a page in use it takes a replacement in its class and copies it by steps, 256
words each; the last one puts the page's content at the replacement, retires the old and answers with it and the poisoned words; a page
freed meanwhile is retired and the replacement freed, as it is when the command is aborted. SCRUB_FULL steps 66 times and answers what its
lap counted; aborted it clears FULL. RETMAP_FLASH_SAVE takes the map to flash and PERSIST down; with none unsaved, or the firmware stopped,
nothing changes. One that would need a fifth place in flight does not start. (R109, R412, R414, R456, R457) -/
def Obligations.PagesAreRetiredAndScrubLapsRun : Prop :=
  let fails (c : Instr) (s : State) (r : Fn) (b : List Byte) (st : Nat) : Prop := Answers c s r b st [] [] [] fun _ => True
  let shown (r : Fn) (a : Nat) : Bool := a == ringReg r R.RPL_PROD || a == R.CMD_INFLIGHT || a == ringReg .pf1 R.CMD_INFLIGHT
  let quotas (a : Nat) : Bool := a == R.SET_STAT || a == R.ECC_STAT || a == R.ECC_PERSIST ||
    (decide (R.SET_QUOTA_ALIGN ≤ a) && decide (a ≤ R.SET_QUOTA_SPARE))
  let quota (c : Nat) : Fld := F.SET_QUOTA_ALIGN_QUOTA.at (4 * c)
  let lowered (s t : State) (c : Nat) : Bool := t.get (quota c) == s.get (quota c) - 1 &&
    (List.range 7).all fun d => d == c || t.get (quota d) == s.get (quota d)
  let retires (s t : State) (page : Nat) (cls : Option Nat) : Prop := t.sett.retired = sadd s.sett.retired page ∧
    t.get F.SET_STAT_RETIRED = (sadd s.sett.retired page).length % 2 ^ (F.SET_STAT_RETIRED.hi - F.SET_STAT_RETIRED.lo + 1) ∧
    t.get F.ECC_PERSIST_N = (s.get F.ECC_PERSIST_N + 1) % 2 ^ (F.ECC_PERSIST_N.hi - F.ECC_PERSIST_N.lo + 1) ∧ t.pends 91 ∧
    t.ecc = { s.ecc with hard := s.ecc.hard.filter fun p => p.2 != page } ∧
    (0 < s.get F.SET_QUOTA_SPARE_QUOTA → t.get F.SET_QUOTA_SPARE_QUOTA = s.get F.SET_QUOTA_SPARE_QUOTA - 1 ∧
      ∀ c, c < 7 → t.get (quota c) = s.get (quota c)) ∧
    (s.get F.SET_QUOTA_SPARE_QUOTA = 0 → t.get F.SET_QUOTA_SPARE_QUOTA = 0 ∧ t.pends 29 ∧
      ((List.range 7).any fun c => (cls.all fun x => x == c) && lowered s t c) = true)
  (∀ (s : State) (r : Fn) (b : List Byte), (s.ring r).fetched.head? = some b → 4 ≤ s.cmd.fly.length →
    (pkOp b = 0x80 → Leads (.pageRetire r) s [] noRegs fun u => u = s) ∧ (pkOp b = 0x82 → Leads (.scrubFull r) s [] noRegs fun u => u = s)) ∧
  (∀ (s : State) (r : Fn) (b : List Byte), Starts s r 0x80 16 false b →
    let page := le b 8 2
    let used : Bool := s.sett.pages.any fun x => x.2.phys == page
    let bad := firstFail [(decide (8191 < page), St.badParam), (!zeroAt b 10 6, St.badParam), (s.cmd.fly.any fun f => pkOp f.bytes == 0x80, St.busy),
      (smem s.sett.retired page, St.state), (used && s.freeCount == 0, St.noResource)]
    (∀ st, bad = some st → fails (.pageRetire r) s r b st) ∧
    (bad = none → used = false →
      Does (.pageRetire r) s [.cmd, .out, .sett, .ecc] (fun a => a == ringReg r R.RPL_PROD || quotas a) fun t =>
        Answered r b St.ok 1 (toLe 2 0xFFFF ++ toLe 2 0) s t ∧ t.cmd = { (s.popHead r).cmd with late := t.cmd.late } ∧ retires s t page none ∧
          t.sett.quiet = { s.sett with retired := t.sett.retired }.quiet) ∧
    (∀ x, bad = none → (s.sett.pages.find? fun y => y.2.phys == page) = some x →
      Leads (.pageRetire r) s [.cmd, .out, .sett] (fun a => shown r a) fun u =>
        Answered r b St.stepping 1 [] s u ∧ u.sett.retired = s.sett.retired ∧
        u.cmd.fly = s.cmd.fly ++ [Fly.mk r b 1 false false [s.sett.nextId, 1] none] ∧
        ((mget u.sett.pages s.sett.nextId).any fun y => y.cls == x.2.cls && y.words == x.2.words.take 256 &&
          !(s.sett.pages.any fun z => z.2.phys == y.phys) && !smem s.sett.retired y.phys) = true)) ∧
  (∀ (s : State) (r : Fn) (f : Fly) (buf : HostRead) (new k : Nat), s.due r = some f → s.NoneLate → f.abort = false → pkOp f.bytes = 0x80 →
    f.prog = [new, k] →
    let page := le f.bytes 8 2
    let held := s.sett.pages.find? fun x => x.2.phys == page
    (held = none → Leads (.commandStep r buf) s [.cmd, .out, .sett, .ecc] (fun a => shown r a || quotas a) fun u =>
      Answered r f.bytes St.ok (f.steps + 1) (toLe 2 0xFFFF ++ toLe 2 0) s u ∧ u.cmd.fly = s.cmd.fly.erase f ∧
        u.sett.pages = merase s.sett.pages new ∧ retires s u page none) ∧
    (∀ x, held = some x → k < 3 → Leads (.commandStep r buf) s [.cmd, .out, .sett] (shown r) fun u =>
      Answered r f.bytes St.stepping (f.steps + 1) [] s u ∧ u.sett.retired = s.sett.retired ∧
        u.cmd.fly = s.cmd.fly.set (s.cmd.fly.idxOf f) { f with steps := f.steps + 1, prog := [new, k + 1] } ∧
        mget u.sett.pages new = (mget s.sett.pages new).map fun y => { y with words := x.2.words.take (256 * (k + 1)) }) ∧
    (∀ x y, held = some x → mget s.sett.pages new = some y → k = 3 → x.1 ≠ new → mget s.sett.pages x.1 = some x.2 →
      Leads (.commandStep r buf) s [.cmd, .out, .sett, .ecc] (fun a => shown r a || quotas a) fun u =>
        Answered r f.bytes St.ok (f.steps + 1) (toLe 2 y.phys ++ toLe 2 (x.2.words.filter fun w => w.poison).length) s u ∧
        u.cmd.fly = s.cmd.fly.erase f ∧ mget u.sett.pages new = none ∧ mget u.sett.pages x.1 = some { x.2 with phys := y.phys } ∧
        retires s u page (some x.2.cls))) ∧
  (∀ (s : State) (r : Fn) (f : Fly) (buf : HostRead), s.due r = some f → s.NoneLate → f.abort = true →
    (∀ new k, pkOp f.bytes = 0x80 → f.prog = [new, k] → Leads (.commandStep r buf) s [.cmd, .out, .sett] (shown r) fun u =>
      Answered r f.bytes St.aborted f.steps [] s u ∧ u.cmd.fly = s.cmd.fly.erase f ∧ u.sett.retired = s.sett.retired ∧
        u.sett.pages = merase s.sett.pages new) ∧
    (pkOp f.bytes = 0x82 → Does (.commandStep r buf) s [.cmd, .out] (fun a => shown r a || a == R.ECC_STAT) fun t =>
      Answered r f.bytes St.aborted f.steps [] s t ∧ t.cmd.fly = s.cmd.fly.erase f ∧ t.flag F.ECC_STAT_FULL = false)) ∧
  (∀ (s : State) (r : Fn) (b : List Byte), Starts s r 0x82 16 false b →
    let bad := firstFail [(!zeroAt b 8 8, St.badParam), (s.cmd.fly.any fun f => pkOp f.bytes == 0x82, St.busy)]
    (∀ st, bad = some st → fails (.scrubFull r) s r b st) ∧
    (bad = none → Does (.scrubFull r) s [.cmd, .out] (fun a => shown r a || a == R.ECC_STAT) fun t =>
      Answered r b St.stepping 1 [] s t ∧ t.flag F.ECC_STAT_FULL = true ∧ t.cmd.fly = s.cmd.fly ++ [Fly.mk r b 1 false false
        [1, s.get F.ECC_CNT_CORR_COUNT, s.get F.ECC_CNT_UNCORR_COUNT, s.get F.ECC_CNT_HARD_COUNT] none])) ∧
  (∀ (s : State) (r : Fn) (f : Fly) (buf : HostRead) (n c0 c1 c2 : Nat), s.due r = some f → s.NoneLate → f.abort = false → pkOp f.bytes = 0x82 →
    f.prog = [n, c0, c1, c2] → n ≠ 0 →
    (n + 1 < 66 → Does (.commandStep r buf) s [.cmd, .out] (fun a => shown r a || a == R.ECC_STAT) fun t =>
      Answered r f.bytes St.stepping (f.steps + 1) [] s t ∧ t.flag F.ECC_STAT_FULL = true ∧
      t.cmd.fly = s.cmd.fly.set (s.cmd.fly.idxOf f) { f with steps := f.steps + 1, prog := [n + 1, c0, c1, c2] }) ∧
    (66 ≤ n + 1 → Does (.commandStep r buf) s [.cmd, .out] (fun a => shown r a || a == R.ECC_STAT) fun t =>
      Answered r f.bytes St.ok (f.steps + 1) (toLe 4 (subMod 32 (s.get F.ECC_CNT_CORR_COUNT) c0) ++
        toLe 4 (subMod 32 (s.get F.ECC_CNT_UNCORR_COUNT) c1) ++ toLe 4 (subMod 32 (s.get F.ECC_CNT_HARD_COUNT) c2)) s t ∧
      t.flag F.ECC_STAT_FULL = false ∧ t.cmd.fly = s.cmd.fly.erase f)) ∧
  (∀ s : State, (0 < s.get F.ECC_PERSIST_N → s.fwRuns = true → Does .retmapFlashSave s [.ecc] (regsIn [R.ECC_PERSIST]) fun t =>
      t.ecc = { s.ecc with flashMap := s.sett.retired } ∧ t.get F.ECC_PERSIST_N = s.get F.ECC_PERSIST_N - 1 ∧ t.pends 91) ∧
    (s.get F.ECC_PERSIST_N = 0 ∨ s.fwRuns = false → Leads .retmapFlashSave s [] noRegs fun u => u = s))

/-- KEY_LOAD_BLOB under the key its wrapper names, or the group's KEK that PARENT_ADDR gives, of a blob that unwraps, puts the key over the slot
it replaces or into a FREE one and answers the slot; with SEAL it writes the KEK sealed; one that does not is answered with its status,
counts in VFAIL and changes no slot; under IMPORT_LOCK a provisioning blob is ST_DENIED; checks fail in their order. KEY_EVICT removes what
its MODE names, no PENDING slot. KEY_INVALIDATE_PARENT adds 1 to GEN and orphans the group's VALID slots. KEY_WRAP_NEW writes a new key's
blob under the group's KEK, renews it, and may load the key. A host write that could not be issued is ST_TIMEOUT. KEY_LEASE_EXPIRY frees the
slot; streams of an orphaned key go to missing key. TAMPER_DETECT of a pin active for FILT periods, a mesh sense off its LFSR for MISS, or
another source, latches it and the time at a level above 0; from level 2 it zeroises; else nothing changes. Ciphers, random keys and slot
choices are open functions (log entry 1). (R416, R462, R463, R464, R466, R467, R469, R471, R474, R475, R476) -/
def Obligations.KeysAreLoadedEvictedAndOrphaned : Prop :=
  let fails (c : Instr) (s : State) (r : Fn) (b : List Byte) (st : Nat) : Prop := Answers c s r b st [] [] [] fun _ => True
  let refused (c : Instr) (s : State) (r : Fn) (b : List Byte) (st : Nat) (icv : Bool) : Prop :=
    Answers c s r b st [] [] [R.KEY_CNT_VFAIL] fun t => (icv = true → t.pends 102) ∧
      t.get F.KEY_CNT_VFAIL_COUNT = (s.get F.KEY_CNT_VFAIL_COUNT + 1) % 2 ^ 32
  let shown (t : State) : Prop := t.get F.KEY_STAT_USED = t.keys.slots.length % 2 ^ 10 ∧ t.flag F.KEY_STAT_ROOT_SLOT = t.keys.activeB ∧
    t.flag F.KEY_STAT_ROOT_VALID = t.keyRoot.isSome ∧ t.flag F.KEY_STAT_PUF_VALID = t.keys.kprv.isSome ∧
    t.flag F.KEY_STAT_UPD_PEND = t.keys.upd.isSome
  (∀ (s : State) (k : KeySlot) (p : Nat × State), s.keyInsert k = some p →
    (s.slotReplaced k = some p.1 ∨ (s.slotReplaced k = none ∧ p.1 < 512 ∧ mget s.keys.slots p.1 = none)) ∧
      p.2.keys = { s.keys with slots := mput s.keys.slots p.1 k }) ∧
  (∀ (s : State) (k : KeySlot), s.keyInsert k = none → s.slotReplaced k = none ∧ s.freeSlots = []) ∧
  (∀ (s : State) (r : Fn) (b : List Byte) (buf : HostRead) (issued : Bool), Starts s r 0x70 40 false b →
    let fl := le b 24 1
    let pend := bit fl 0
    let sealIt := bit fl 1
    let c : Instr := .keyLoadBlob r buf issued
    let bad := firstFail [(le b 8 8 % 8 != 0, St.badParam), (decide (3 < fl), St.badParam), (!zeroAt b 25 7, St.badParam),
      (!sealIt && !zeroAt b 32 8, St.badParam)]
    (∀ st, bad = some st → fails c s r b st) ∧
    (bad = none → buf = .poison → fails c s r b St.poison) ∧ (bad = none → buf = .timeout → fails c s r b St.timeout) ∧
    (∀ x, bad = none → buf = .data x →
      let w := le x 3 1
      let g := le x 6 1
      let scope : Bool := s.keys.upd.any fun u => if u.target == 1 then u.group == g else w == 0
      let bad := firstFail [(w == 1 && s.flag F.KEY_CTRL_IMPORT_LOCK, St.denied),
        ((pend && !scope) || (w == 0 && (s.sealKey pend).isNone) || (w == 1 && s.keys.kprv.isNone) || (sealIt && s.keyRoot.isNone), St.state),
        (sealIt && le x 4 1 != 0, St.badParam)]
      let parent := bytesAt x 96 96
      let wants : Bool := w == 2 && le b 16 8 != 0 && (if pend then (s.kekIn g .pending).isNone else (s.kekIn g .valid).isNone)
      let loads (t : State) (n : Nat) : Prop :=
        let kek : Option Nat := if w == 0 then t.sealKey pend else if w == 1 then t.keys.kprv else (t.kekFor g pend).map fun k => k.key
        let used : Bool := w == 2 && !(pend && (t.kekIn g .pending).isSome)
        (kek = none → fails c s r b (if (t.kekIn g .orphaned).isSome then St.keyOrphaned else St.keyMissing)) ∧
        (∀ k, kek = some k →
          let un := t.unwrapBlob x k (t.brgenFor pend) (t.genFor g pend) pend
          (∀ st icv, un = .bad st icv → refused c s r b st icv) ∧
          (∀ slot, un = .ok slot →
            (t.keyInsert slot = none → fails c s r b St.noResource) ∧
            (∀ p, t.keyInsert slot = some p → sealIt = true → issued = false ∨ (s.pfn r).bme = false → fails c s r b St.timeout) ∧
            (∀ p, t.keyInsert slot = some p → sealIt = false ∨ (issued = true ∧ (s.pfn r).bme = true) →
              Answers c s r b St.ok (toLe 2 p.1 ++ zeros 2 ++ toLe 4 slot.keyId) [.keys] [R.KEY_CNT_LOAD, R.KEY_STAT] fun u =>
                u.keys = (if used then p.2.kekRenew g else p.2).keys ∧ shown u ∧
                u.get F.KEY_CNT_LOAD_COUNT = (s.get F.KEY_CNT_LOAD_COUNT + n) % 2 ^ 32 ∧
                (∀ root, sealIt = true → s.keyRoot = some root → Out.dma r (le b 32 8) (makeBlob 0 0 0 slot.group slot.gen 0
                  (s.get F.KEY_BRGEN_BRGEN) (kseal root (s.get F.KEY_BRGEN_BRGEN)) slot.key) ∈ u.out.drop s.out.length))))
      (∀ st, bad = some st → fails c s r b st) ∧
      (bad = none → wants = false → loads s 1) ∧
      (bad = none → wants = true → s.sealKey pend = none → fails c s r b St.state) ∧
      (∀ ks, bad = none → wants = true → s.sealKey pend = some ks →
        let un := s.unwrapBlob parent ks (s.brgenFor pend) (s.genFor g pend) pend
        let off : Bool := le parent 3 1 != 0 || le parent 6 1 != g
        (off = true → fails c s r b St.badParam) ∧
        (∀ st icv, off = false → un = .bad st icv → refused c s r b st icv) ∧
        (∀ slot, off = false → un = .ok slot → (s.keyInsert slot = none → fails c s r b St.noResource) ∧
          ∀ p, s.keyInsert slot = some p → loads p.2 2)))) ∧
  (∀ (s : State) (r : Fn) (b : List Byte), Starts s r 0x71 16 false b →
    let mode := le b 8 1
    let bad := firstFail [(decide (3 < mode), St.badParam), ((mode == 0 || mode == 3) && le b 9 1 != 0, St.badParam), (!zeroAt b 10 2, St.badParam),
      (mode != 0 && !zeroAt b 12 4, St.badParam)]
    let hit (k : KeySlot) : Bool := decide (k.st ≠ .pending) && (match mode with
      | 0 => k.type != 0 && k.keyId == le b 12 4
      | 1 => k.type == 0 && k.group == le b 9 1
      | 2 => k.group == le b 9 1
      | _ => true)
    (∀ st, bad = some st → fails (.keyEvict r) s r b st) ∧
    (bad = none → Answers (.keyEvict r) s r b St.ok (toLe 2 (s.keys.slots.filter fun x => hit x.2).length) [.keys] [R.KEY_STAT] fun t =>
      t.keys = { s.keys with slots := s.keys.slots.filter fun x => !hit x.2 } ∧ shown t)) ∧
  (∀ (s : State) (r : Fn) (b : List Byte), Starts s r 0x72 16 false b →
    let g := le b 8 1
    let bad := firstFail [(!zeroAt b 9 7, St.badParam), (s.keys.upd.any fun u => u.target == 1 && u.group == g, St.busy),
      (s.keyGen g == 0xFFFF, St.noResource)]
    let hit (k : KeySlot) : Bool := k.group == g && decide (k.st = .valid)
    (∀ st, bad = some st → fails (.keyInvalidateParent r) s r b st) ∧
    (bad = none → Answers (.keyInvalidateParent r) s r b St.ok (toLe 2 (s.keyGen g + 1) ++ toLe 2 (s.keys.slots.filter fun x => hit x.2).length)
      [.keys] [R.KEY_STAT] fun t => t.pends 99 ∧ shown t ∧ t.keys = { s.keys with
        gens := mput s.keys.gens g (s.keyGen g + 1)
        slots := s.keys.slots.map fun x => if hit x.2 then (x.1, { x.2 with st := .orphaned }) else x })) ∧
  (∀ (s : State) (r : Fn) (b : List Byte) (issued : Bool), Starts s r 0x73 24 false b →
    let c : Instr := .keyWrapNew r issued
    let g := le b 8 1
    let ty := le b 9 1
    let use := le b 10 1
    let fl := le b 11 1
    let bad := firstFail [(ty == 0 || decide (3 < ty), St.badParam), (use == 0 || decide (3 < use), St.badParam), (decide (1 < fl), St.badParam),
      (le b 12 4 == 0, St.badParam), ((s.kekIn g .valid).isNone, if (s.kekIn g .orphaned).isSome then St.keyOrphaned else St.keyMissing)]
    let key := s.fresh.1 % 2 ^ (if ty = 2 then 128 else 256)
    let slot : KeySlot := ⟨.valid, ty, use, g, s.keyGen g, le b 12 4, key, s.tim.now⟩
    let insert := if fl = 1 then s.fresh.2.keyInsert slot else some (0, s)
    (∀ st, bad = some st → fails c s r b st) ∧
    (bad = none → insert = none → fails c s r b St.noResource) ∧
    (bad = none → insert.isSome = true → issued = false ∨ (s.pfn r).bme = false → fails c s r b St.timeout) ∧
    (∀ x p, bad = none → s.kekIn g .valid = some x → insert = some p → issued = true → (s.pfn r).bme = true →
      Answers c s r b St.ok [] [.keys] [R.KEY_STAT] fun t => t.keys = (p.2.kekRenew g).keys ∧ (fl = 1 → shown t) ∧
        (fl = 0 → t.get F.KEY_STAT_USED = s.get F.KEY_STAT_USED) ∧
        Out.dma r (le b 16 8) (makeBlob 2 ty use g (s.keyGen g) (le b 12 4) 0 x.2.key key) ∈ t.out.drop s.out.length)) ∧
  (∀ (s : State) (n : Nat), mget s.keys.slots n = none ∨ s.get F.KEY_LEASE_S = 0 → Leads (.keyLeaseExpiry n) s [] noRegs fun u => u = s) ∧
  (∀ (s : State) (n : Nat) (k : KeySlot), mget s.keys.slots n = some k → s.get F.KEY_LEASE_S ≠ 0 →
    let loses (x : SStat) : Bool := decide (k.st = .orphaned) && k.type != 0 && x.auth == 2 && x.keyId == some k.keyId
    Does (.keyLeaseExpiry n) s [.tim, .keys, .ing] (regsIn [R.KEY_STAT]) fun t => t.pends 28 ∧ t.pends 101 ∧
      t.tim = { s.tim with now := max s.tim.now (k.leaseAt + ticksOfS (s.get F.KEY_LEASE_S)) } ∧
      t.keys = { s.keys with slots := merase s.keys.slots n } ∧ shown t ∧ t.ing = { s.ing with stat := t.ing.stat } ∧
      (∀ i, (s.ing.stat.all fun p => p.1 != i || !loses p.2) = true → mget t.ing.stat i = mget s.ing.stat i) ∧
      (∀ p ∈ s.ing.stat, loses p.2 = true → (s.ing.stat.filter fun q => q.1 == p.1).length = 1 →
        mget t.ing.stat p.1 = some { p.2 with auth := 3 })) ∧
  (∀ (s : State) (src : Fin 10) (levels : List Bool),
    let lv := bits (s.get F.KEY_TAMP_CFG_LEVEL) (2 * src + 1) (2 * src)
    let n := s.tamperRun src
    let p := s.aonPeriods
    let from0 := ceilDiv (mgetD s.keys.meshOn (src - 4) s.keys.aonFrom - s.keys.aonFrom) 15000
    (src < 4 → n = bits (s.get F.KEY_TAMP_PIN_FILT) (4 * src + 3) (4 * src) ∧ s.tamperSeen src levels = (levels.length == n &&
      levels.all fun v => v == bit (s.get F.KEY_TAMP_PIN_TAMP_POL) src)) ∧
    (4 ≤ src.val → src < 6 → n = s.get F.KEY_MESH_MISS ∧ s.tamperSeen src levels = (bit (s.get F.KEY_MESH_EN) (src - 4) && levels.length == n &&
      decide (from0 + n ≤ p) && levels.zipIdx.all fun v => v.1 != meshBit (src - 4) (p - n + v.2))) ∧
    (6 ≤ src.val → s.tamperSeen src levels = true) ∧
    (lv = 0 ∨ s.boot.phase = .off ∨ s.tamperSeen src levels = false → Leads (.tamperDetect src levels) s [] noRegs fun u => u = s) ∧
    (s.boot.phase ≠ .off → s.tamperSeen src levels = true →
      (lv = 1 → Does (.tamperDetect src levels) s [] (regsIn [R.KEY_TAMP_LATCH, R.KEY_TAMP_RTC]) fun t => t.pends 96 ∧
        t.flag ⟨R.KEY_TAMP_LATCH, src, src⟩ = true ∧ t.get F.KEY_TAMP_RTC_SEC = s.rtc % 2 ^ 32) ∧
      (2 ≤ lv → Does (.tamperDetect src levels) s [.keys, .twn] (regsIn [R.KEY_TAMP_LATCH, R.KEY_TAMP_RTC, R.KEY_STAT]) fun t => t.pends 96 ∧
        t.pends 97 ∧ t.flag ⟨R.KEY_TAMP_LATCH, src, src⟩ = true ∧ t.get F.KEY_TAMP_RTC_SEC = s.rtc % 2 ^ 32 ∧ t.flag F.KEY_STAT_ZEROED = true ∧
        t.keys = { s.keys with slots := [], rootA := none, rootB := none, activeB := false, kprv := none, upd := none } ∧ shown t ∧
        (s.keys.upd.isSome = true → t.pends 100) ∧ t.twn.quiet = { s.twn with zeroed := true }.quiet))) ∧
  (∀ (s : State) (k i : Nat), s.meshDrv k = (bit (s.get F.KEY_MESH_EN) k && meshBit k s.aonPeriods) ∧
    meshBit k i = bit ((List.range (i % 65535)).foldl (fun x _ => lfsrNext (Config.op "mesh.form" []) 16 0x6801 x)
      (if k = 0 then 0xACE1 else 0x1D2B)) (Config.op "mesh.out" [] % 16))

/-- BEGIN with no update prepared prepares a new root with BRGEN + 1, or the group's GEN + 1, and changes nothing in effect; with one prepared
it is ST_BUSY, at GEN 0xFFFF ST_NO_RESOURCE, and while a tamper source at level 2 is present, which is a free choice (log entry 27),
ST_STATE. REWRAP unwraps a sealed blob under the root in effect and writes it wrapped under the prepared one. COMMIT makes the prepared root
the active one, in the other slot, with its BRGEN, or the prepared GEN the group's, which orphans the group's other VALID slots, makes
PENDING slots VALID in place of what they replace, and ends the update; with PFW it is ST_ABORTED and changes nothing. ABORT drops the
prepared value and the PENDING slots. A command that names another update is ST_STATE; the checks fail in their order. (R416, R472, R473) -/
def Obligations.KeyUpdatesAreAllOrNothing : Prop :=
  let fails (c : Instr) (s : State) (r : Fn) (b : List Byte) (st : Nat) : Prop := Answers c s r b st [] [] [] fun _ => True
  let params (b : List Byte) : List (Bool × Nat) := [(decide (3 < le b 8 1), St.badParam), (decide (1 < le b 9 1), St.badParam),
    (le b 9 1 == 0 && le b 10 1 != 0, St.badParam), (!zeroAt b 11 5, St.badParam), (le b 8 1 != 1 && !zeroAt b 16 8, St.badParam),
    (le b 8 1 != 1 && !zeroAt b 24 8, St.badParam)]
  let shown (t : State) : Prop := t.get F.KEY_STAT_USED = t.keys.slots.length % 2 ^ 10 ∧ t.flag F.KEY_STAT_ROOT_SLOT = t.keys.activeB ∧
    t.flag F.KEY_STAT_ROOT_VALID = t.keyRoot.isSome ∧ t.flag F.KEY_STAT_UPD_PEND = t.keys.upd.isSome ∧
    t.get F.KEY_STAT_UPD_TARGET = ((t.keys.upd.map fun u => u.target).getD 0) % 2 ∧
    t.get F.KEY_STAT_UPD_GROUP = ((t.keys.upd.map fun u => if u.target == 1 then u.group else 0).getD 0) % 256
  let named (s : State) (b : List Byte) : Bool := s.keys.upd.any fun u => u.target == le b 9 1 && (u.target == 0 || u.group == le b 10 1)
  (∀ (s : State) (r : Fn) (b : List Byte), Starts s r 0x74 32 false b → le b 8 1 = 0 ∨ 3 < le b 8 1 →
    let level2 : Bool := (List.range 10).any fun i => decide (2 ≤ bits (s.get F.KEY_TAMP_CFG_LEVEL) (2 * i + 1) (2 * i))
    let s1 := if level2 then s.fresh.2 else s
    let gen := s.keyGen (le b 10 1)
    let bg := s.get F.KEY_BRGEN_BRGEN
    let bad := firstFail (params b ++ [(level2 && s.fresh.1 % 2 == 1, St.state), (s.keys.upd.isSome, St.busy),
      (le b 9 1 == 1 && gen == 0xFFFF, St.noResource)])
    (∀ st, bad = some st → fails (.keyUpdateBegin r) s r b st) ∧
    (bad = none → le b 9 1 = 0 → Answers (.keyUpdateBegin r) s r b St.ok (toLe 4 (bg + 1) ++ toLe 2 0) [.keys] [R.KEY_STAT] fun t =>
      t.keys = { s.keys with upd := some ⟨0, 0, s1.fresh.1 % 2 ^ 256, bg + 1, 0⟩ } ∧ shown t) ∧
    (bad = none → le b 9 1 = 1 → Answers (.keyUpdateBegin r) s r b St.ok (toLe 4 bg ++ toLe 2 (gen + 1)) [.keys] [R.KEY_STAT] fun t =>
      t.keys = { s.keys with upd := some ⟨1, le b 10 1, 0, bg, gen + 1⟩ } ∧ shown t)) ∧
  (∀ (s : State) (r : Fn) (b : List Byte) (buf : HostRead) (issued : Bool), Starts s r 0x74 32 false b → le b 8 1 = 1 →
    let c : Instr := .keyUpdateRewrap r buf issued
    let bg := s.get F.KEY_BRGEN_BRGEN
    let bad := firstFail (params b ++ [(!named s b || !(s.keys.upd.any fun u => u.target == 0) || s.keyRoot.isNone, St.state)])
    (∀ st, bad = some st → fails c s r b st) ∧
    (bad = none → buf = .poison → fails c s r b St.poison) ∧ (bad = none → buf = .timeout → fails c s r b St.timeout) ∧
    (∀ x u root, bad = none → buf = .data x → s.keys.upd = some u → s.keyRoot = some root →
      let un := s.unwrapBlob x (kseal root bg) bg (s.keyGen (le x 6 1)) false
      (le x 3 1 ≠ 0 → fails c s r b St.badParam) ∧
      (∀ st icv, le x 3 1 = 0 → un = .bad st icv → Answers c s r b st [] [] [R.KEY_CNT_VFAIL] fun t => (icv = true → t.pends 102) ∧
        t.get F.KEY_CNT_VFAIL_COUNT = (s.get F.KEY_CNT_VFAIL_COUNT + 1) % 2 ^ 32) ∧
      (∀ k, le x 3 1 = 0 → un = .ok k →
        (issued = false ∨ (s.pfn r).bme = false → fails c s r b St.timeout) ∧
        (issued = true → (s.pfn r).bme = true → Answers c s r b St.ok (toLe 4 u.brgen ++ toLe 2 0) [] [] fun t =>
          Out.dma r (le b 24 8) (makeBlob 0 0 0 (le x 6 1) k.gen 0 u.brgen (kseal u.root u.brgen) k.key) ∈ t.out.drop s.out.length)))) ∧
  (∀ (s : State) (target : Nat),
    let waiting := s.keys.slots.filter fun x => decide (x.2.st = .pending)
    let y := s.pendingToValid target
    (waiting = [] → y = ([], s)) ∧
    (∀ x, waiting.head? = some x → waiting.length = 1 →
      let v := { x.2 with st := KeyState.valid }
      let place := if x.2.type = 0 then (if target = 0 then (s.kekIn x.2.group .valid).map fun p => p.1 else none)
        else (s.keys.slots.find? fun p => p.2.type != 0 && p.2.keyId == x.2.keyId && decide (p.2.st ≠ .pending)).map fun p => p.1
      (place = none → y.1 = [x.1] ∧ y.2.keys = { s.keys with slots := mput s.keys.slots x.1 v }) ∧
      (∀ n, place = some n → y.1 = [n] ∧ y.2.keys = { s.keys with slots := mput (merase s.keys.slots x.1) n v }))) ∧
  (∀ (s : State) (r : Fn) (b : List Byte), Starts s r 0x74 32 false b → le b 8 1 = 2 →
    let bad := firstFail (params b ++ [(!named s b, St.state), (s.flag F.PWR_STAT_PFW, St.aborted)])
    (∀ st, bad = some st → fails (.keyUpdateCommit r) s r b st) ∧
    (∀ u, bad = none → s.keys.upd = some u →
      let y := s.pendingToValid u.target
      let inB : Bool := s.keyRoot.isSome && !s.keys.activeB
      (u.target = 0 → Answers (.keyUpdateCommit r) s r b St.ok (toLe 4 u.brgen ++ toLe 2 0) [.keys] [R.KEY_STAT, R.KEY_BRGEN] fun t => t.pends 100 ∧
        t.keys = { s.keys with
          upd := none, slots := y.2.keys.slots, activeB := inB, rootA := if inB then none else some u.root
          rootB := if inB then some u.root else none } ∧ t.keyRoot = some u.root ∧ t.get F.KEY_BRGEN_BRGEN = u.brgen % 2 ^ 32 ∧ shown t) ∧
      (u.target ≠ 0 → Answers (.keyUpdateCommit r) s r b St.ok (toLe 4 (s.get F.KEY_BRGEN_BRGEN) ++ toLe 2 u.gen) [.keys] [R.KEY_STAT] fun t =>
        t.pends 100 ∧ shown t ∧ t.keys = { s.keys with
          upd := none, gens := mput s.keys.gens u.group u.gen
          slots := y.2.keys.slots.map fun x => if x.2.group == u.group && decide (x.2.st = .valid) && !y.1.contains x.1 then
            (x.1, { x.2 with st := .orphaned }) else x }))) ∧
  (∀ (s : State) (r : Fn) (b : List Byte), Starts s r 0x74 32 false b → le b 8 1 = 3 →
    let bad := firstFail (params b ++ [(!named s b, St.state)])
    (∀ st, bad = some st → fails (.keyUpdateAbort r) s r b st) ∧
    (∀ u, bad = none → s.keys.upd = some u → Answers (.keyUpdateAbort r) s r b St.ok (toLe 4 u.brgen ++ toLe 2 u.gen) [.keys] [R.KEY_STAT] fun t =>
      t.pends 100 ∧ shown t ∧ t.keys = { s.keys with upd := none, slots := s.keys.slots.filter fun x => decide (x.2.st ≠ .pending) }))

/-- A SYS reset, also by the watchdog, leaves every part as after reset but for what R19 keeps; of the registers each that its domain resets has
its reset value and each other is as it was; the cause is kept for the next start; a twin unit gasps first. A POR does the same, also out of
HOLD, with the time held, and out of OFF. BOOT_SEQUENCE samples the straps, counts and seeds the start; after a POR, or while REF_BAD is
set, a count of no good reference waits with REF_BAD and ERR 1, retried every 100 ms; BOOTSEL, or no image by the rows of R486, leads to
recovery with source 105; else the image the first row gives runs and the start ends READY, source 104, with the data path enabled.
RECOVERY_GO starts a valid image and shows ERR 3 for another; recovery retries flash each 60 s. The watchdog's restart, the clearing of
FAILS 600 s after READY and the burning of SVN act as stated. Where the state a command needs is not there, nothing changes. (R19, R34, R45,
R54, R386, R479, R480, R481, R483, R485, R486, R492) -/
def Obligations.ResetsAndStartsFollowTheirSequence : Prop :=
  let every : List Part := [.latch, .held, .out, .tim, .sett, .ing, .aln, .sched, .cmd, .irq, .evr, .mac, .pmu, .keys, .ecc, .alm, .ang, .isl,
    .osc, .outp, .cas, .twn, .flt, .nrg, .trg, .boot, .dbg]
  let anyReg (_ : Nat) : Bool := true
  let fresh (b : Boot) (por : Bool) : Boot := { b.wiped por with retain := none, holdIrq := [], came := 0 }
  let good (n : Nat) : Bool := (decide (4834 ≤ n) && decide (n ≤ 4931)) || (decide (12085 ≤ n) && decide (n ≤ 12329))
  let picks (s : State) (fails : Nat) : Option (List Byte × Nat × Bool) :=
    let h := s.boot.hdr
    let lim := s.get F.BOOT_FAILS_LIMIT
    let own := s.fwImage h.active
    let other := s.fwImage (1 - h.active)
    if !h.valid || decide (2 * lim ≤ fails) then none
    else if decide (lim ≤ fails) && h.prevOk && s.imageValid other then some (other, 1 - h.active, false)
    else match (if h.stage = 1 then s.goodTarget own else none) with
      | some x => some (x, h.active, false)
      | none => if s.imageValid own then some (own, h.active, true) else none
  let errOf (s : State) (fails : Nat) : Nat :=
    if s.boot.hdr.valid = false then 2 else if 2 * s.get F.BOOT_FAILS_LIMIT ≤ fails then 4 else 3
  let recovers (s : State) (c : Instr) (err : Nat) : Prop := ∃ t, exec c s = .next t ∧ t.boot.phase = .recovery ∧
    t.flag F.BOOT_STAT_RECOVERY = true ∧ t.flag F.BOOT_STAT_READY = s.flag F.BOOT_STAT_READY ∧ t.get F.BOOT_STAT_ERR = err ∧
    t.get F.BOOT_STAT_STEP = 6 ∧ t.pends 105 ∧ t.boot.retryAt = t.tim.now
  let starts (s : State) (c : Instr) (img : List Byte) (slot : Nat) (inSlot : Bool) : Prop := ∃ t, exec c s = .next t ∧ t.boot.phase = .run ∧
    t.flag F.BOOT_STAT_READY = true ∧ t.boot.readyAt = some t.tim.now ∧ t.pends 104 ∧ t.boot.running = img ∧ t.boot.inSlot = inSlot ∧
    t.get F.BOOT_STAT_SLOT = slot % 2 ∧ t.get F.UPD_FWVER_VER = imageVer img % 2 ^ 32 ∧ t.flag F.BOOT_STAT_RECOVERY = false ∧
    t.get F.BOOT_STAT_ERR = 0 ∧ t.get F.BOOT_STAT_STEP = 7 ∧ t.flag F.EVR_CTRL_EN = true ∧ t.flag F.SET_CTRL_EN = true ∧
    t.flag F.SET_CTRL_SCHED_EN = true ∧ t.flag F.NRG_CTRL_EN = true ∧ t.flag F.FLT_CTRL_EN = true ∧ t.flag F.PMU_CTRL_EN = true ∧
    t.flag F.TRG_CTRL_EN = true ∧ t.flag F.ANG_CTRL_EN = true ∧ t.flag F.ISL_CTRL_EN = true ∧ t.flag F.OSC_CTRL_EN = true ∧
    t.flag F.ALN_CTRL_EN = true ∧ t.flag F.OUT_CTRL_EN = true ∧ t.flag F.CAS_CTRL_EN = true ∧ t.flag F.ING_CTRL_EN = true ∧
    t.get F.CMD_EPOCH_EPOCH = 1
  let atPower (t : State) : Prop := t.boot.rstout = true ∧ t.boot.por = false ∧ t.boot.retain = none ∧ t.keys.upd = none
  (∀ s : State, (s.railsUp = false → Leads .sysReset s [] noRegs fun u => u = s) ∧
    (s.railsUp = true → Leads .sysReset s every anyReg fun u => ResetOf false [] s.gasp.drain u ∧ u.boot = s.bootAfter 4 ∧
      (s.twin = true → Beats s u fun w => hbAnn w == 2))) ∧
  (∀ s : State, (s.boot.phase ≠ .hold → s.boot.phase ≠ .off → Leads .porReset s every anyReg fun u =>
      (s.boot.phase = .reset → ResetOf true [] s u ∧ u.boot = { fresh s.boot true with
        retain := s.boot.retain, holdIrq := s.boot.holdIrq, came := s.boot.came
        cause := if s.flag F.PWR_STAT_PFW then Nat.lor s.boot.cause 64 else s.boot.cause }) ∧
      (s.boot.phase ≠ .reset → ResetOf true [] s.drain u ∧
        u.boot = { fresh s.boot true with cause := if s.flag F.PWR_STAT_PFW then 64 else 0 })) ∧
    (s.boot.phase = .hold → Leads .porReset s every anyReg fun u => ResetOf true [R.PWR_HOLDTIME] s u ∧
      u.get F.PWR_HOLDTIME_S = min ((s.tim.now - s.boot.holdAt) / 491520000) 0xFFFFFFFF ∧ u.boot = { fresh s.boot true with
        retain := s.boot.retain, came := 1, cause := Nat.lor s.boot.cause 1, holdIrq := s.irqRaises }) ∧
    (s.boot.phase = .off → Leads .porReset s every anyReg fun u =>
      ResetOf true [] { s with tim := { s.tim with rtcBase := 0, rtcFrom := s.tim.now }, keys := { s.keys with aonFrom := s.tim.now } } u ∧
      u.boot = { fresh s.boot true with retain := s.boot.retain, holdIrq := s.boot.holdIrq, came := 2, cause := 2 })) ∧
  (∀ s : State, s.boot.wdogAt = none → Leads .evBootWatchdog s [] noRegs (fun u => u = s) ∧ Leads .watchdogRestart s [] noRegs fun u => u = s) ∧
  (∀ (s : State) (t0 : Nat), s.boot.wdogAt = some t0 →
    let s1 := s.reach (t0 + ticksOfMs (s.get F.BOOT_WDOG_TMO_MS))
    let s2 := (s1.ev0 Ev.BOOT_WATCHDOG).gasp.drain
    Leads .evBootWatchdog s every anyReg (fun u => ResetOf false [] s2 u ∧ u.boot = s.bootAfter 8 ∧
      u.tim.now = max s.tim.now (t0 + ticksOfMs (s.get F.BOOT_WDOG_TMO_MS)) ∧ (s.twin = true → Beats s u fun w => hbAnn w == 2) ∧
      s2.flag (bitFld R.IRQ_PEND 105) = true) ∧
    Leads .watchdogRestart s [.boot] noRegs fun u => u = { s with boot := { s.boot with wdogAt := some s.tim.now } }) ∧
  (∀ (s : State) (x n : Nat), s.boot.phase ≠ .reset → Leads (.bootSequence x n) s [] noRegs fun u => u = s) ∧
  (∀ (s : State) (x n : Nat), s.boot.phase = .reset →
    let looks : Bool := s.boot.por || s.flag F.TIM_PLL_STAT_REF_BAD
    let fails := s.get F.BOOT_FAILS_FAILS
    let fails1 := if bit s.boot.cause 3 && !bit s.boot.cause 6 then min 15 (fails + 1) else fails
    let strapsIn (t : State) : Prop := t.get F.TOP_STRAPS_ROLE = x % 4 ∧ t.get F.TOP_STRAPS_TIER = x / 4 % 4 ∧
      t.get F.TOP_STRAPS_BOOTSEL = x / 16 % 2 ∧ t.flag F.TOP_STRAPS_STRAP_ERR = decide (x % 4 = 3 ∨ x / 4 % 4 = 3) ∧
      t.get F.TOP_STRAPS_ROLE_EFF = x % 4 % 3 ∧ t.get F.TOP_STRAPS_TIER_EFF = x / 4 % 4 % 3
    (looks = true → good n = false → Does (.bootSequence x n) s [.boot, .tim, .twn] (regsIn [R.TOP_STRAPS, R.BOOT_CNT,
        R.BOOT_RSTCAUSE, R.BOOT_FAILS, R.BOOT_STAT, R.PWR_STAT, R.PWR_HOLDTIME, R.TIM_PLL_STAT]) fun t => strapsIn t ∧
      t.boot = { s.boot with phase := .refWait, retryAt := s.tim.now, cause := 0 } ∧ t.flag F.TIM_PLL_STAT_REF_BAD = true ∧
        t.flag F.TIM_PLL_STAT_LOCK = false ∧ t.get F.BOOT_STAT_ERR = 1 ∧ t.get F.BOOT_STAT_STEP = 2 ∧ t.get F.BOOT_FAILS_FAILS = fails1 ∧
        t.get F.BOOT_CNT_STARTS = (s.get F.BOOT_CNT_STARTS + 1) % 2 ^ 32 ∧ t.get F.BOOT_RSTCAUSE_CAUSE = s.boot.cause % 128 ∧
        t.tim = { s.tim with anchor := some (s.rtc * 1000000000 * 2 ^ 40, s.tim.now) } ∧
        (x % 4 = 3 ∨ x / 4 % 4 = 3 → t.pends 4) ∧ (s.boot.came = 1 → t.pends 2 ∧ t.flag F.PWR_STAT_HOLD_EXIT = true) ∧
        (s.boot.came = 2 → t.pends 2 ∧ t.get F.PWR_HOLDTIME_S = 0) ∧ t.get F.TWN_STAT_ROLE = (if x % 4 % 3 = 0 then 3 else 0) ∧
        t.twn.quiet = { s.twn with hbNext := s.tim.now + 491520 }.quiet) ∧
    ((looks = true → good n = true) →
      (x / 16 % 2 = 1 → recovers s (.bootSequence x n) 4) ∧
      (x / 16 % 2 = 0 → picks s fails1 = none → recovers s (.bootSequence x n) (errOf s fails1)) ∧
      (∀ y, x / 16 % 2 = 0 → picks s fails1 = some y → starts s (.bootSequence x n) y.1 y.2.1 y.2.2) ∧
      ∃ t, exec (.bootSequence x n) s = .next t ∧ strapsIn t ∧ atPower t ∧ t.get F.BOOT_CNT_STARTS = (s.get F.BOOT_CNT_STARTS + 1) % 2 ^ 32 ∧
        t.get F.BOOT_RSTCAUSE_CAUSE = s.boot.cause % 128 ∧ t.boot.cause = 0 ∧ (looks = true → t.flag F.TIM_PLL_STAT_REF_BAD = false ∧
          t.flag F.TIM_PLL_STAT_LOCK = !s.flag F.TIM_PLL_STAT_REF_LOST ∧ t.flag F.TIM_PLL_STAT_REF_25 = decide (12085 ≤ n)))) ∧
  (∀ (s : State) (n : Nat), s.boot.phase ≠ .refWait → Leads (.refDetectRetry n) s [] noRegs fun u => u = s) ∧
  (∀ (s : State) (n : Nat), s.boot.phase = .refWait →
    (good n = false → Does (.refDetectRetry n) s [.tim, .boot] (regsIn [R.BOOT_STAT, R.TIM_PLL_STAT])
      fun t => t.tim = { s.tim with now := max s.tim.now (s.boot.retryAt + ticksOfMs 100) } ∧
        t.boot = { s.boot with retryAt := t.tim.now } ∧ t.get F.BOOT_STAT_ERR = 1 ∧ t.flag F.TIM_PLL_STAT_REF_BAD = true) ∧
    (good n = true →
      (s.flag F.TOP_STRAPS_BOOTSEL = true → recovers s (.refDetectRetry n) 4) ∧
      (s.flag F.TOP_STRAPS_BOOTSEL = false → picks s (s.get F.BOOT_FAILS_FAILS) = none →
        recovers s (.refDetectRetry n) (errOf s (s.get F.BOOT_FAILS_FAILS))) ∧
      (∀ y, s.flag F.TOP_STRAPS_BOOTSEL = false → picks s (s.get F.BOOT_FAILS_FAILS) = some y →
        starts s (.refDetectRetry n) y.1 y.2.1 y.2.2) ∧
      ∃ t, exec (.refDetectRetry n) s = .next t ∧ atPower t ∧ s.boot.retryAt + ticksOfMs 100 ≤ t.tim.now ∧
        t.flag F.TIM_PLL_STAT_REF_BAD = false ∧ t.flag F.TIM_PLL_STAT_LOCK = !s.flag F.TIM_PLL_STAT_REF_LOST ∧
        t.flag F.TIM_PLL_STAT_REF_25 = decide (12085 ≤ n))) ∧
  (∀ (s : State) (a : Agent) (v : Dword) (buf : HostRead), s.mayWrite a R.BOOT_RECOV_CTRL →
    let n := s.get F.BOOT_RECOV_LEN_LEN
    let goes : Bool := decide (s.boot.phase = .recovery) && fval F.BOOT_RECOV_CTRL_GO v == 1 && n != 0 && s.irq.fn0.bme
    (goes = false ∨ buf = .poison ∨ buf = .timeout → Leads (.recoveryGo a v buf) s [] noRegs fun u => u = s) ∧
    (∀ img, goes = true → buf = .data img →
      (s.imageValid (padTo n img) = false → Leads (.recoveryGo a v buf) s [] (regsIn [R.BOOT_STAT]) fun u => u.get F.BOOT_STAT_ERR = 3) ∧
      (s.imageValid (padTo n img) = true → starts s (.recoveryGo a v buf) (padTo n img) 0 false))) ∧
  (∀ s : State, s.boot.phase ≠ .recovery ∨ s.flag F.TOP_STRAPS_BOOTSEL = true → Leads .recoveryFlashRetry s [] noRegs fun u => u = s) ∧
  (∀ s : State, s.boot.phase = .recovery → s.flag F.TOP_STRAPS_BOOTSEL = false →
    let fails := s.get F.BOOT_FAILS_FAILS
    (picks s fails = none → ∃ t, exec .recoveryFlashRetry s = .next t ∧ t.get F.BOOT_STAT_ERR = errOf s fails ∧ t.boot.phase = .recovery ∧
        t.tim = { s.tim with now := max s.tim.now (s.boot.retryAt + ticksOfS 60) } ∧ t.boot.retryAt = t.tim.now) ∧
    (∀ y, picks s fails = some y → starts s .recoveryFlashRetry y.1 y.2.1 y.2.2)) ∧
  (∀ s : State, s.boot.readyAt = none → Leads .bootFailsClear s [] noRegs fun u => u = s) ∧
  (∀ (s : State) (t0 : Nat), s.boot.readyAt = some t0 → Does .bootFailsClear s [.tim, .boot] (regsIn [R.BOOT_FAILS]) fun t =>
    t.get F.BOOT_FAILS_FAILS = 0 ∧ t.get F.BOOT_FAILS_LIMIT = s.get F.BOOT_FAILS_LIMIT ∧ t.boot = { s.boot with readyAt := none } ∧
      t.tim = { s.tim with now := max s.tim.now (t0 + ticksOfS 600) }) ∧
  (∀ s : State,
    let svn := le s.boot.running 8 4
    let due : Bool := s.running && s.flag F.BOOT_STAT_READY && s.boot.inSlot && bit (le s.boot.running 3 1) 0 && decide (s.svnMin < svn)
    (due = true → Does .evBootSvn s [] (regsIn [R.BOOT_SVN]) fun t => t.get F.BOOT_SVN_SVN_MIN = svn % 128 ∧ t.pends 105) ∧
    (due = false → Leads .evBootSvn s [] noRegs fun u => u = s))

/-- Each fails its checks in order. UPD_STAGE_BEGIN opens a staging, and is ST_BUSY in one, in a slot write or in a restart. UPD_STAGE_DATA
writes its bytes where none stand, 256 a step, each read with its step: poison and timeout end it, as does the end of the staging or an
abort; what is written stays. UPD_STAGE_END of a whole staging that checks answers TARGET_VER: an image stands staged with STAGE 1, source
106; a configuration is in force at the next start; one that does not check is ST_VERIFY_FAIL and discarded. RESTART_CONTROL MODE 0 and 1
pauses both rings, parks the cores, holds the watchdog and waits, or is ST_NO_RESOURCE with no handover page. Its row completes it: the
image, or the target built, runs where it is valid and takes the block of its format, ST_OK with FW_VER, source 107; else the previous runs,
ST_VERIFY_FAIL, source 106 or 107, and for MODE 1 STAGE 3; the rings run again, the watchdog too, break points go, and halts asked for
meanwhile act. MODE 2 resets and writes no reply. EV_UPD_SLOT_WRITTEN makes the other slot active. One that would be the fifth in flight
does not start. (R38, R412, R414, R415, R416, R479, R487, R488, R489, R490, R491) -/
def Obligations.ImagesAreStagedAndTakenOver : Prop :=
  let fails (c : Instr) (s : State) (r : Fn) (b : List Byte) (st : Nat) : Prop := Answers c s r b st [] [] [] fun _ => True
  let shown (r : Fn) (a : Nat) : Bool := a == ringReg r R.RPL_PROD || a == R.CMD_INFLIGHT || a == ringReg .pf1 R.CMD_INFLIGHT
  let open3 (s : State) : Bool := s.get F.UPD_STAT_STATE == 1 || s.get F.UPD_STAT_STATE == 3
  let rowOf (r : Fn) (b : List Byte) : Instr :=
    if le b 8 1 = 1 then .restartStagedUpdate r else if le b 8 1 = 2 then .restartSys r else .restartHitless r
  (∀ (s : State) (r : Fn) (b : List Byte), (s.ring r).fetched.head? = some b → 4 ≤ s.cmd.fly.length →
    (∀ x, pkOp b = 0x89 → Leads (.updStageData r x) s [] noRegs fun u => u = s) ∧
    (pkOp b = 0x8B → s.boot.restart = none → Leads (rowOf r b) s [] noRegs fun u => u = s)) ∧
  (∀ (s : State) (r : Fn) (b : List Byte), Starts s r 0x88 16 false b →
    let kind := le b 8 1
    let n := le b 12 4
    let bad := firstFail [(decide (2 < kind), St.badParam), (!zeroAt b 9 3, St.badParam), (if kind < 2 then decide (n < 256) || decide (262144 < n)
      else decide (n < 64) || decide (2097152 < n), St.badLength), (open3 s || s.boot.restart.isSome, St.busy)]
    let area := if kind = 2 then (if s.boot.hdr.cfg = 0 then 4 else 3) else 2
    (∀ st, bad = some st → fails (.updStageBegin r) s r b st) ∧
    (bad = none → Answers (.updStageBegin r) s r b St.ok [] [.boot] [R.UPD_STAT, R.UPD_BYTES, R.UPD_STAGEVER] fun t =>
      t.boot = { s.boot with
        staging := some (kind, n), staged := [], hdr := { s.boot.hdr with stage := 0 }, items := mput s.boot.items area [] } ∧
      t.get F.UPD_STAT_STATE = 1 ∧ t.get F.UPD_STAT_KIND = kind ∧ t.get F.UPD_STAT_LAST = s.get F.UPD_STAT_LAST ∧ t.get F.UPD_BYTES_N = 0 ∧
      t.get F.UPD_STAGEVER_VER = 0)) ∧
  (∀ (s : State) (r : Fn) (b : List Byte) (buf : HostRead), Starts s r 0x89 24 false b →
    let o := le b 16 4
    let n := le b 20 4
    let bad := firstFail [(le b 8 8 % 8 != 0, St.badParam), (o % 256 != 0, St.badParam), (n == 0 || decide (65536 < n), St.badLength),
      (s.boot.staging.isNone, St.state), (decide (((s.boot.staging.map fun x => x.2).getD 0) < o + n), St.badLength),
      (s.boot.staged.any fun y => decide (o ≤ y.1) && decide (y.1 < o + n), St.badParam), (s.cmd.fly.any fun f => pkOp f.bytes == 0x89, St.busy)]
    (∀ st, bad = some st → fails (.updStageData r buf) s r b st) ∧
    (bad = none → buf = .poison → fails (.updStageData r buf) s r b St.poison) ∧
    (bad = none → buf = .timeout → fails (.updStageData r buf) s r b St.timeout) ∧
    (∀ x, bad = none → buf = .data x →
      (n ≤ 256 → Does (.updStageData r buf) s [.cmd, .out, .boot] (regsIn [ringReg r R.RPL_PROD, R.UPD_BYTES]) fun t =>
        Answered r b St.ok 1 [] s t ∧ t.boot = { s.boot with staged := s.boot.staged ++ [(o, padTo n x)] } ∧
          t.cmd = { (s.popHead r).cmd with late := t.cmd.late } ∧ t.get F.UPD_BYTES_N = (s.get F.UPD_BYTES_N + n) % 2 ^ 32) ∧
      (256 < n → Does (.updStageData r buf) s [.cmd, .out, .boot] (fun a => shown r a || a == R.UPD_BYTES) fun t =>
        Answered r b St.stepping 1 [] s t ∧ t.boot = { s.boot with staged := s.boot.staged ++ [(o, padTo 256 x)] } ∧
          t.get F.UPD_BYTES_N = (s.get F.UPD_BYTES_N + 256) % 2 ^ 32 ∧
          t.cmd.fly = s.cmd.fly ++ [Fly.mk r b 1 false false [256] none]))) ∧
  (∀ (s : State) (r : Fn) (f : Fly) (buf : HostRead), s.due r = some f → s.NoneLate → pkOp f.bytes = 0x89 →
    let ends (st : Nat) : Prop := Does (.commandStep r buf) s [.cmd, .out] (shown r) fun t => Answered r f.bytes st f.steps [] s t ∧
      t.cmd.fly = s.cmd.fly.erase f
    (f.abort = true → ends St.aborted) ∧ (f.abort = false → buf = .poison → ends St.poison) ∧
    (f.abort = false → buf = .timeout → ends St.timeout) ∧
    (∀ x, f.abort = false → buf = .data x → s.boot.staging = none → ends St.state) ∧
    (∀ x k, f.abort = false → buf = .data x → f.prog = [k] → s.boot.staging.isSome = true →
      let n := le f.bytes 20 4
      let m := min 256 (n - k)
      (k + m < n → Does (.commandStep r buf) s [.cmd, .out, .boot] (fun a => shown r a || a == R.UPD_BYTES) fun t =>
        Answered r f.bytes St.stepping (f.steps + 1) [] s t ∧
        t.cmd.fly = s.cmd.fly.set (s.cmd.fly.idxOf f) { f with steps := f.steps + 1, prog := [k + m] } ∧
        t.boot = { s.boot with staged := s.boot.staged ++ [(le f.bytes 16 4 + k, padTo m x)] } ∧
        t.get F.UPD_BYTES_N = (s.get F.UPD_BYTES_N + m) % 2 ^ 32) ∧
      (n ≤ k + m → Does (.commandStep r buf) s [.cmd, .out, .boot] (fun a => shown r a || a == R.UPD_BYTES) fun t =>
        Answered r f.bytes St.ok (f.steps + 1) [] s t ∧ t.cmd.fly = s.cmd.fly.erase f ∧
        t.boot = { s.boot with staged := s.boot.staged ++ [(le f.bytes 16 4 + k, padTo m x)] } ∧
        t.get F.UPD_BYTES_N = (s.get F.UPD_BYTES_N + m) % 2 ^ 32))) ∧
  (∀ (s : State) (r : Fn) (b : List Byte), Starts s r 0x8A 16 false b →
    let x := s.boot.staging.getD (0, 0)
    let bytes := (List.range (ceilDiv x.2 256)).flatMap fun i => (mget s.boot.staged (256 * i)).getD []
    let bad := firstFail [(!zeroAt b 8 8, St.badParam), (s.boot.staging.isNone || bytes.length != x.2, St.state)]
    let ver := if x.1 < 2 then le bytes 4 4 else 0
    let closed := { s.boot with staging := none, staged := [] }
    (∀ st, bad = some st → fails (.updStageEnd r) s r b st) ∧
    (bad = none → s.stagedOk x.1 bytes = false → Answers (.updStageEnd r) s r b St.verifyFail [] [.boot] [R.UPD_STAT] fun t =>
      t.boot = closed ∧ t.get F.UPD_STAT_STATE = 0) ∧
    (bad = none → s.stagedOk x.1 bytes = true →
      (x.1 ≠ 2 → Answers (.updStageEnd r) s r b St.ok (toLe 4 ver) [.boot] [R.UPD_STAT, R.UPD_STAGEVER] fun t =>
        t.boot = { closed with hdr := { s.boot.hdr with stage := 1, kind := x.1, len := x.2 }, items := mput s.boot.items 2 bytes } ∧
          t.get F.UPD_STAT_STATE = 2 ∧ t.get F.UPD_STAGEVER_VER = ver % 2 ^ 32 ∧ t.pends 106) ∧
      (x.1 = 2 → Answers (.updStageEnd r) s r b St.ok (toLe 4 0) [.boot] [R.UPD_STAT, R.UPD_STAGEVER] fun t =>
        let c := if s.boot.hdr.cfg = 0 then 1 else 0
        t.boot = { closed with hdr := { s.boot.hdr with cfg := c }, items := mput s.boot.items (3 + c) bytes } ∧
          t.get F.UPD_STAT_STATE = 2 ∧ t.get F.UPD_STAGEVER_VER = 0))) ∧
  (∀ (s : State) (r : Fn) (b : List Byte), Starts s r 0x8B 16 false b → s.boot.restart = none →
    let mode := le b 8 1
    let c := rowOf r b
    let bad := firstFail [(decide (2 < mode), St.badParam), (!zeroAt b 9 7, St.badParam),
      ((mode == 1 && s.boot.hdr.stage != 1) || s.flag F.PWR_STAT_PFW || !s.flag F.BOOT_STAT_READY, St.state), (open3 s, St.busy)]
    let pauses (u : State) (on : Bool) : Prop := u.flag (ringFld .pf0 F.CMD_STAT_PAUSED) = on ∧ u.flag (ringFld .pf1 F.CMD_STAT_PAUSED) = on ∧ u.pends 86
    let regs (a : Nat) : Bool := shown r a || a == R.CMD_STAT || a == ringReg .pf1 R.CMD_STAT || a == R.IRQ_CORESTAT
    (∀ st, bad = some st → fails c s r b st) ∧
    (bad = none → mode ≤ 1 →
      Leads c s [.boot, .cmd, .out, .sett, .irq] regs fun u =>
        (u.boot.restart.isSome = true → pauses u true ∧ u.flag F.IRQ_CORESTAT_PARK_C0 = true ∧ u.flag F.IRQ_CORESTAT_PARK_C1 = true ∧
          u.boot = { s.boot with restart := some (mode, s.tim.now), wdogAt := none } ∧ u.out = s.out ∧ u.handoverIds ≠ [] ∧
          u.cmd = { (s.popHead r).cmd with pauseAt := some s.tim.now, fly := s.cmd.fly ++ [Fly.mk r b 0 false true [] none] }) ∧
        (u.boot.restart.isSome = false → pauses u false ∧ u.boot = s.boot ∧ Answered r b St.noResource 0 [] s u ∧ u.handoverIds = [] ∧
          u.cmd = { (s.popHead r).cmd with late := u.cmd.late })) ∧
    (bad = none → mode = 2 → Leads c s [.latch, .held, .tim, .sett, .ing, .aln, .sched, .cmd, .irq, .evr, .mac, .pmu, .keys, .ecc, .alm, .ang, .isl,
        .osc, .outp, .cas, .twn, .flt, .nrg, .trg, .boot, .dbg] (fun _ => true) fun u =>
      ResetOf false [] s.drain u ∧ u.out = s.out ∧ u.boot = s.bootAfter 16)) ∧
  (∀ (s : State) (r : Fn) (mode x : Nat), s.boot.restart = some (mode, x) →
    (mode ≠ 0 → Leads (.restartHitless r) s [] noRegs fun u => u = s) ∧ (mode ≠ 1 → Leads (.restartStagedUpdate r) s [] noRegs fun u => u = s)) ∧
  (∀ (s : State) (r : Fn) (mode x : Nat), s.boot.restart = some (mode, x) → mode ≤ 1 →
    let c : Instr := if mode = 0 then .restartHitless r else .restartStagedUpdate r
    let halted : Bool := (s.dbgCore 0).halted || (s.dbgCore 1).halted
    let mine (g : Fly) : Bool := g.waiting && g.final.isNone && pkOp g.bytes == 0x8B
    let regs (a : Nat) : Bool := mcReg a || [R.UPD_STAT, R.UPD_FWVER, R.CMD_STAT, ringReg .pf1 R.CMD_STAT, R.IRQ_CORESTAT, R.CMD_INFLIGHT,
      ringReg .pf1 R.CMD_INFLIGHT, R.RPL_PROD, ringReg .pf1 R.RPL_PROD].contains a
    let ends (last src st : Nat) (res : List Byte) (boot : Boot) (P : State → Prop) : Prop :=
      (s.dbg.haltLater = [] → Leads c s [.boot, .cmd, .dbg, .sett, .mac, .out, .ing, .irq] regs fun u =>
        u.boot = { boot with restart := none, wdogAt := some s.tim.now } ∧ u.cmd.pauseAt = none ∧ u.handoverIds = [] ∧
        u.dbg = { s.dbg with cores := s.dbg.cores.map fun p => (p.1, { p.2 with points := [] }) } ∧
        u.flag (ringFld .pf0 F.CMD_STAT_PAUSED) = false ∧ u.flag (ringFld .pf1 F.CMD_STAT_PAUSED) = false ∧ u.pends 86 ∧ u.pends src ∧
        u.flag F.IRQ_CORESTAT_PARK_C0 = (s.dbgCore 0).halted ∧ u.flag F.IRQ_CORESTAT_PARK_C1 = (s.dbgCore 1).halted ∧
        u.get F.UPD_STAT_LAST = last ∧ P u ∧
        (halted = true → u.cmd.fly = s.cmd.fly.map fun g => if mine g then { g with final := some (st, res) } else g) ∧
        (halted = false → u.cmd.fly = s.cmd.fly.filter (fun g => g.final.isNone && !mine g) ∧
          ∀ f, f ∈ s.cmd.fly → s.NoneLate → (s.cmd.fly.filter fun g => g.final.isSome || mine g) = [f] → mine f = true →
            Answered f.fn f.bytes st 0 res s u)) ∧
      (s.dbg.haltLater ≠ [] → ∃ t, exec c s = .next t ∧ t.boot.restart = none ∧ t.dbg.haltLater = [] ∧ t.boot.wdogAt.isSome = false ∧
        t.boot.running = boot.running ∧ t.get F.UPD_STAT_LAST = last ∧ ∀ k, k ∈ s.dbg.haltLater → (t.dbgCore k).halted = true)
    let target := if mode = 0 then (if s.imageValid s.boot.running then some s.boot.running else none) else s.goodTarget s.boot.running
    (target = none → ends 3 106 St.verifyFail [] (if mode = 1 then { s.boot with hdr := { s.boot.hdr with stage := 3 } } else s.boot) fun u =>
      u.get F.UPD_STAT_STATE = (if mode = 1 then 4 else s.get F.UPD_STAT_STATE)) ∧
    (∀ img, target = some img →
      let fits : Bool := !s.handoverIds.isEmpty && decide (le img 22 2 ≤ le s.boot.running 20 2) && decide (le s.boot.running 20 2 ≤ le img 20 2)
      (fits = true → ends (mode + 1) 107 St.ok (toLe 4 (imageVer img)) { s.boot with running := img, inSlot := s.boot.inSlot && mode == 0 } fun u =>
        u.get F.UPD_FWVER_VER = imageVer img % 2 ^ 32 ∧ u.get F.UPD_STAT_STATE = (if mode = 1 then 3 else s.get F.UPD_STAT_STATE)) ∧
      (fits = false → ends 4 107 St.verifyFail [] s.boot fun u => u.get F.UPD_FWVER_VER = s.get F.UPD_FWVER_VER ∧
        u.get F.UPD_STAT_STATE = s.get F.UPD_STAT_STATE))) ∧
  (∀ s : State,
    let due : Bool := s.running && s.get F.UPD_STAT_STATE == 3
    let n := 1 - s.boot.hdr.active
    (due = true → Does .evUpdSlotWritten s [.boot] (regsIn [R.BOOT_STAT, R.UPD_STAT]) fun t => t.pends 108 ∧
      t.boot = { s.boot with
        hdr := { s.boot.hdr with active := n, prevOk := true, stage := 2 }, items := mput s.boot.items n s.boot.running, inSlot := true } ∧
      t.get F.BOOT_STAT_SLOT = n ∧ t.get F.UPD_STAT_STATE = 0 ∧ t.get F.UPD_STAT_LAST = s.get F.UPD_STAT_LAST) ∧
    (due = false → Leads .evUpdSlotWritten s [] noRegs fun u => u = s))

/-- PFWN_ACCEPT with the rails up shows the level; with PF_EN = 1 and no power fail in progress it sets PFW, counts, halts the energy engine,
dropping what waits there, writes the power-fail save, gasps in a twin unit, writes the interrupt retention record and raises source 0.
PFWN_RETURN ends that: the ticks missed are counted, the record is dropped and source 1 raised, or, while quiesced, only the latter.
PWR_STATE fails its checks in order; STATE 1 quiesces: the steps of a power fail, ingest off, RSTOUT active, source 3; STATE 0 ends it.
QUIESCE_TIMEOUT, QTMO s later, is a SYS reset. CORE_RAILS_DOWN leaves HOLD with what the always-on domain holds, or with VBAT gone nothing
of that; so does VBAT_LOSS in HOLD. Else each changes nothing. (R19, R312, R313, R386, R436, R443, R480, R493, R494, R495) -/
def Obligations.PowerFailsQuiescesAndIsLost : Prop :=
  let every : List Part := [.latch, .held, .out, .tim, .sett, .ing, .aln, .sched, .cmd, .irq, .evr, .mac, .pmu, .keys, .ecc, .alm, .ang, .isl,
    .osc, .outp, .cas, .twn, .flt, .nrg, .trg, .boot, .dbg]
  let anyReg (_ : Nat) : Bool := true
  let failRegs (s : State) : List Nat := [R.PWR_STAT, R.PWR_CNT_PFW, R.NRG_STAT, R.NRG_SAVESEQ, R.NRG_CNT_SAVE, R.RPL_PROD,
    ringReg .pf1 R.RPL_PROD, R.CMD_INFLIGHT, ringReg .pf1 R.CMD_INFLIGHT, R.MAC_PRP_SEQ, (macCnt 0 15).addr, (macCnt 1 15).addr,
    (macCnt s.twn.lport 15).addr]
  let waits (g : Fly) : Bool := g.waiting && g.final.isNone && pkOp g.bytes == 0x51
  let halts (s : State) : Bool := s.flag F.NRG_CTRL_PF_EN && !s.flag F.NRG_STAT_PFHOLD
  let fails (s u : State) : Prop := u.pends 0 ∧ u.boot.retain.isSome = true ∧
    (∀ a, isRetained a = true → a ∉ [R.IRQ_PEND, R.IRQ_OCC, R.IRQ_OCC + 4] → mgetD (u.boot.retain.getD []) a 0 = u.rd a) ∧
    (s.twin = true → u.flag F.TWN_STAT_AL = false ∧ Beats s u fun w => hbAnn w == 2) ∧ (s.twin = false → u.twn = s.twn ∧ u.mac = s.mac) ∧
    (halts s = false → u.nrg = s.nrg ∧ u.rd R.NRG_STAT = s.rd R.NRG_STAT ∧ u.rd R.NRG_SAVESEQ = s.rd R.NRG_SAVESEQ) ∧
    (halts s = true →
      let n := match s.newestSlot with | some (0, _) => 1 | _ => 0
      let seq := (s.get F.NRG_SAVESEQ_SEQ + 1) % 2 ^ 32
      u.flag F.NRG_STAT_PFHOLD = true ∧ u.flag F.NRG_STAT_SNAP_PEND = (s.flag F.NRG_STAT_SNAP_PEND && s.nrg.snap.isNone) ∧ u.pends 53 ∧
      (s.nrg.snap.isSome = true → u.pends 55) ∧ u.get F.NRG_SAVESEQ_SEQ = seq ∧
      u.get F.NRG_CNT_SAVE_COUNT = (s.get F.NRG_CNT_SAVE_COUNT + 1) % 2 ^ 32 ∧ u.nrg = { s.nrg with
        saveDue := none, preset := [], snap := none, snapImg := if s.nrg.snap.isSome then none else s.nrg.snapImg
        slots := mput s.nrg.slots n (s.slotImage 1 seq s.lastTickTai s.tqByte) })
  let resumes (s u : State) : Prop := u.pends 1 ∧ u.flag F.NRG_STAT_PFHOLD = false ∧
    (s.flag F.NRG_STAT_PFHOLD = false → u.nrg = s.nrg ∧ u.rd R.NRG_CNT_PFTICK = s.rd R.NRG_CNT_PFTICK) ∧
    (s.flag F.NRG_STAT_PFHOLD = true →
      let at_ := if s.flag F.NRG_CTRL_EN && s.fltRuns then max s.nrg.next s.nrgAfter else s.nrg.next
      u.nrg = { s.nrg with next := at_ } ∧ u.pends 54 ∧
        u.get F.NRG_CNT_PFTICK_COUNT = (s.get F.NRG_CNT_PFTICK_COUNT + (at_ - s.nrg.next)) % 2 ^ 32)
  let lost (s u : State) : Prop := u.tim = { s.tim with rtcBase := 0, rtcFrom := s.tim.now } ∧ u.evr = { s.evr with mirror := [] } ∧
    u.keys = { s.keys with
      slots := [], gens := [], rootA := none, rootB := none, activeB := false, kprv := none, upd := none, aonFrom := s.tim.now, meshOn := [] } ∧
    u.nrg = { s.nrg with slots := [] } ∧ u.boot = { s.boot with phase := .off, retain := none, holdIrq := [], came := 2 } ∧
    ∀ a, (((rowOf a).any fun r => decide (r.dom = .aon)) = true → u.rd a = State.reset.rd a) ∧
      (((rowOf a).any fun r => decide (r.dom = .aon)) = false → mcanon 0 s.regs = true → u.rd a = s.rd a)
  (∀ s : State, s.railsUp = false → Leads .pfwnAccept s [] noRegs (fun u => u = s) ∧ Leads .pfwnReturn s [] noRegs fun u => u = s) ∧
  (∀ s : State, s.railsUp = true →
    (s.flag F.NRG_CTRL_PF_EN = false ∨ s.flag F.PWR_STAT_PFW = true → Leads .pfwnAccept s [] (regsIn [R.PWR_STAT]) fun u =>
      u.flag F.PWR_STAT_PFWN_LVL = false ∧ u.flag F.PWR_STAT_PFW = s.flag F.PWR_STAT_PFW ∧ u.flag F.PWR_STAT_QUIESCE = s.flag F.PWR_STAT_QUIESCE) ∧
    (s.flag F.NRG_CTRL_PF_EN = true → s.flag F.PWR_STAT_PFW = false → Leads .pfwnAccept s [.nrg, .boot, .out, .cmd, .twn, .mac]
        (regsIn (failRegs s)) fun u => u.flag F.PWR_STAT_PFWN_LVL = false ∧ u.flag F.PWR_STAT_PFW = true ∧
      u.get F.PWR_CNT_PFW_COUNT = (s.get F.PWR_CNT_PFW_COUNT + 1) % 2 ^ 32 ∧ fails s u ∧ u.boot = { s.boot with retain := u.boot.retain } ∧
      (halts s = false → u.cmd = s.cmd) ∧
      (halts s = true → s.fwRuns = false → u.cmd.fly = s.cmd.fly.map fun g => if waits g then { g with final := some (St.aborted, []) } else g) ∧
      (halts s = true → s.fwRuns = true → u.cmd.fly = s.cmd.fly.filter (fun g => g.final.isNone && !waits g) ∧
        ∀ f, f ∈ s.cmd.fly → s.NoneLate → (s.cmd.fly.filter fun g => g.final.isSome || waits g) = [f] → waits f = true →
          Answered f.fn f.bytes St.aborted 0 [] s u))) ∧
  (∀ s : State, s.railsUp = true →
    (s.flag F.PWR_STAT_PFW = false → Leads .pfwnReturn s [] (regsIn [R.PWR_STAT]) fun u =>
      u.flag F.PWR_STAT_PFWN_LVL = true ∧ u.flag F.PWR_STAT_PFW = false) ∧
    (s.flag F.PWR_STAT_PFW = true → s.flag F.PWR_STAT_QUIESCE = true → Leads .pfwnReturn s [] (regsIn [R.PWR_STAT]) fun u =>
      u.flag F.PWR_STAT_PFWN_LVL = true ∧ u.flag F.PWR_STAT_PFW = false ∧ u.pends 1) ∧
    (s.flag F.PWR_STAT_PFW = true → s.flag F.PWR_STAT_QUIESCE = false →
      Leads .pfwnReturn s [.boot, .nrg] (regsIn [R.PWR_STAT, R.NRG_STAT, R.NRG_CNT_PFTICK]) fun u =>
        u.flag F.PWR_STAT_PFWN_LVL = true ∧ u.flag F.PWR_STAT_PFW = false ∧ u.boot = { s.boot with retain := none } ∧ resumes s u)) ∧
  (∀ (s : State) (r : Fn) (b : List Byte), Starts s r 0x90 16 false b →
    let st := le b 8 1
    let q := s.flag F.PWR_STAT_QUIESCE
    let c : Instr := if st = 0 then .pwrRun r else .pwrQuiesce r
    let bad := firstFail [(decide (1 < st), St.badParam), (!zeroAt b 9 7, St.badParam), (s.flag F.PWR_STAT_PFW || (st == 1 && q) || (st == 0 && !q), St.state)]
    (∀ x, bad = some x → Answers c s r b x [] [] [] fun _ => True) ∧
    (bad = none → st = 1 → Leads c s [.nrg, .boot, .out, .cmd, .twn, .mac] (regsIn (ringReg r R.RPL_PROD :: R.ING_CTRL :: failRegs s)) fun u =>
      fails s u ∧ u.flag F.PWR_STAT_QUIESCE = true ∧ u.flag F.PWR_STAT_PFW = false ∧ u.flag F.ING_CTRL_EN = false ∧ u.pends 3 ∧
      u.boot = { s.boot with retain := u.boot.retain, rstout := false, quiesceAt := s.tim.now } ∧
      (halts s = true → u.cmd.fly = s.cmd.fly.filter fun g => g.final.isNone && !waits g) ∧
      (halts s = false → u.cmd.fly = s.cmd.fly) ∧
      (halts s = false ∨ (s.cmd.fly.any fun g => g.final.isSome || waits g) = false →
        Answered r b St.ok 0 [] s u ∧ u.cmd = { (s.popHead r).cmd with late := u.cmd.late })) ∧
    (bad = none → st = 0 → Answers c s r b St.ok [] [.boot, .nrg] [R.PWR_STAT, R.NRG_STAT, R.NRG_CNT_PFTICK] fun t =>
      t.flag F.PWR_STAT_QUIESCE = false ∧ t.boot = { s.boot with rstout := true, retain := none } ∧ resumes s t)) ∧
  (∀ s : State,
    let q := s.get F.PWR_CTRL_QTMO_S
    (s.flag F.PWR_STAT_QUIESCE = false ∨ q = 0 → Leads .quiesceTimeout s [] noRegs fun u => u = s) ∧
    (s.flag F.PWR_STAT_QUIESCE = true → q ≠ 0 → Leads .quiesceTimeout s every anyReg fun u =>
      let s1 := (s.reach (s.boot.quiesceAt + ticksOfS q)).drain
      ResetOf false [] s1 u ∧ u.boot = s.bootAfter 32 ∧ u.tim.now = max s.tim.now (s.boot.quiesceAt + ticksOfS q))) ∧
  (∀ (s : State) (vbat : Bool), (s.railsUp = false → Leads (.coreRailsDown vbat) s [] noRegs fun u => u = s) ∧
    (s.railsUp = true →
      let held := { s.boot.wiped true with
        phase := .hold, holdAt := s.tim.now, came := 1, cause := if s.flag F.PWR_STAT_PFW then 64 else 0, holdIrq := [] }
      (vbat = true → Leads (.coreRailsDown vbat) s every anyReg fun u => ResetOf true [] s.drain u ∧ u.boot = held) ∧
      (vbat = false → Leads (.coreRailsDown vbat) s every anyReg fun u => lost { s.drain.wipe true with boot := held } u))) ∧
  (∀ s : State, (s.inHold = false → Leads .vbatLoss s [] noRegs fun u => u = s) ∧
    (s.inHold = true → Leads .vbatLoss s [.tim, .evr, .keys, .nrg, .boot] anyReg fun u => lost s u))

/-- A frame with a bad SYNC or parity changes nothing; at LEVEL 0 one on ADDR, DATA or CTRL is LOCKED, a write with a bad CRC is ERR, a repeat
of the TOGGLE last answered OK is OK with the same data; else it acts and is answered. ADDR is written. DATA reads give the register as it
is read, zero of the KEY block, Sett words, flag bytes of control RAM words and core registers; no data is stated for an ERR, control RAM
data and the PC of a running core. DATA writes need LEVEL 2 and what the table allows. An OK access takes ADDR 4 on. A lock sets LEVEL 0.
RESP opens a challenge, and takes the response, checked from word 16 on; a signature that verifies (an open function, log entry 1) sets the
LEVEL asked for, source 112; another counts in FAILS, source 114, and the third locks out; 60 s end the challenge. The host commands do the
same, their checks in order. At LEVEL 2 cores halt, resume and step; enabled breakpoints and watchpoints halt a running one; XHALT takes the
other with it; a halt asked for in a restart waits. (R499, R500, R501, R502, R503, R504, R505, R506, R507, R508) -/
def Obligations.TheDebugPortUnlocksAndReaches : Prop :=
  let fails (c : Instr) (s : State) (r : Fn) (b : List Byte) (st : Nat) : Prop := Answers c s r b st [] [] [] fun _ => True
  let every : List Part := [.latch, .held, .out, .tim, .sett, .ing, .aln, .sched, .cmd, .irq, .evr, .mac, .pmu, .keys, .ecc, .alm, .ang, .isl,
    .osc, .outp, .cas, .twn, .flt, .nrg, .trg, .boot, .dbg]
  let frames (h crc : Nat) (v : Dword) (err : ReadErr) : List (Instr × Bool × Nat) := [(.dbgAddrWrite h crc v, false, 2),
    (.dbgDataWrite h crc v, false, 3), (.dbgDataRead h err, true, 3), (.dbgPortLock h crc v, false, 4), (.dbgChalRead h, true, 5),
    (.dbgRespWrite h crc v, false, 6)]
  let live (s : State) (g : Bool) : Bool := s.railsUp && s.dbg.level != 0 && s.dbg.toggle != some g
  let gives (c : Instr) (s : State) (st : Nat) (d : Dword) : Prop := Leads c s [.out] noRegs fun u => u = { s with out := s.out ++ [Out.dbg st d] }
  let okay (c : Instr) (s : State) (g : Bool) (d : Dword) (e : Dbg) : Prop := Leads c s [.out, .dbg] noRegs fun u =>
    u = { s with out := s.out ++ [Out.dbg 0 d], dbg := { e with toggle := some g, data := d } }
  let further (s : State) : Dbg := { s.dbg with addr := s.dbg.addr + 4 }
  let status (s u : State) (st : Nat) : Bool := u.out.length == s.out.length + 1 && u.out.take s.out.length == s.out && (u.out.getLast?.any fun o =>
    match o with
    | .dbg x _ => x == st
    | _ => false)
  let modCores (s : State) (d : Dbg) (c : Nat) (f : DbgCore → DbgCore) : Dbg := { d with cores := mmod s.dbg.cores c DbgCore.reset f }
  let closed (d : Dbg) : Dbg := { d with chal := none, chalIdx := 0, resp := [], checkAt := none }
  let opens (s u : State) (level : Nat) (e : Dbg) : Prop := (u.dbg.chal.any fun c => c.level == level && c.at_ == s.tim.now && c.bytes.length == 32 &&
      c.bytes.take 12 == toLe 7 Config.uid ++ toLe 1 level ++ toLe 4 (s.get F.BOOT_CNT_STARTS) && c.bytes.drop 28 == zeros 4) = true ∧
    u.dbg = { e with chal := u.dbg.chal, chalIdx := 0, resp := [], checkAt := none }
  let answered (s u : State) (c : DbgChal) (sig : List Byte) : Prop :=
    (chalVerifies c.bytes sig = true → u.pends 112 ∧ u.dbg = { closed s.dbg with level := c.level }) ∧
    (chalVerifies c.bytes sig = false → u.pends 114 ∧
      u.dbg = { closed s.dbg with fails := min 3 (s.dbg.fails + 1), lockout := s.dbg.lockout || decide (2 ≤ s.dbg.fails) })
  let halts (s u : State) (c cause : Nat) : Prop := (u.dbgCore c).halted = true ∧ (u.dbgCore c).cause = cause ∧ u.flag (parkFld c) = true ∧
    u.pends 113 ∧ (u.dbgCore c).xhalt = (s.dbgCore c).xhalt ∧ (u.dbgCore c).points = (s.dbgCore c).points ∧
    (u.dbgCore c).regsel = (s.dbgCore c).regsel
  let same (s u : State) (c : Nat) : Prop := u.dbgCore c = s.dbgCore c ∧ u.flag (parkFld c) = s.flag (parkFld c)
  let halting (cm : Instr) (s : State) (c : Fin 2) (cause : Nat) : Prop := Leads cm s [.dbg, .boot, .irq] (regsIn [R.IRQ_CORESTAT]) fun u =>
    halts s u c cause ∧ ((s.dbgCore c).xhalt = true → (s.dbgCore (1 - c.val)).halted = false → halts s u (1 - c.val) 1) ∧
      ((s.dbgCore c).xhalt = false ∨ (s.dbgCore (1 - c.val)).halted = true → same s u (1 - c.val)) ∧ u.boot = { s.boot with wdogAt := none }
  (∀ (rnw g : Bool) (reg : Fin 8), let h := dbgHead rnw reg g
    bits h 7 6 = 2 ∧ bit h 5 = rnw ∧ bits h 4 2 = reg ∧ bit h 1 = g ∧ parity 8 h = true) ∧
  (∀ s : State, Leads .debugLineReset s [.dbg] noRegs fun u => u = { s with dbg := { s.dbg with toggle := none } }) ∧
  (∀ (s : State) (h crc : Nat) (v : Dword) (err : ReadErr), ∀ x, x ∈ frames h crc v err →
    let good : Bool := s.railsUp && h == dbgHead x.2.1 x.2.2 (bit h 1)
    let locked : Bool := s.dbg.level == 0 && decide (x.2.2 < 5)
    let sound : Bool := x.2.1 || crc == dbgCrc h v
    (good = false → Leads x.1 s [] noRegs fun u => u = s) ∧
    (good = true → locked = true → gives x.1 s 3 0) ∧
    (good = true → locked = false → sound = false → gives x.1 s 2 0) ∧
    (good = true → locked = false → sound = true → s.dbg.toggle = some (bit h 1) → gives x.1 s 0 s.dbg.data)) ∧
  (∀ (s : State) (g : Bool) (v : Dword), live s g = true →
    let h2 := dbgHead false 2 g
    let h4 := dbgHead false 4 g
    okay (.dbgAddrWrite h2 (dbgCrc h2 v) v) s g 0 { s.dbg with addr := v } ∧
    Leads (.dbgPortLock h4 (dbgCrc h4 v) v) s [.out, .dbg] noRegs (fun u => status s u 0 = true ∧ (bit v.toNat 0 = true → u.pends 112) ∧
      u.dbg = { s.dbg with level := if bit v.toNat 0 then 0 else s.dbg.level, toggle := some g, data := 0 })) ∧
  (∀ (s : State) (g : Bool) (err : ReadErr), live s g = true →
    let c : Instr := .dbgDataRead (dbgHead true 3 g) err
    let at_ := dbgRegion s.dbg.addr.toNat
    (at_ = .none → Leads c s [.out] noRegs fun u => status s u 2 = true) ∧
    (∀ off, at_ = .reg off → inKeyBlock off = true → okay c s g 0 (further s)) ∧
    (∀ off, at_ = .reg off → inKeyBlock off = false →
      let t := s.readReg .probe off 4
      (∀ b row, regAt .probe off = some (b, row) → s.mayRead .probe b row = true → inFam R.TIM_TSQ_E0_P 0x40 5 b = false →
        row.base ≠ R.SET_HQ_DATA → row.base ≠ R.SET_HQ_LAST → row.base ≠ R.SET_HQ_CONS → isLatched b row = false →
        Leads c s [.out, .dbg, .latch] noRegs fun u => u.out = s.out ++ [Out.dbg 0 (s.regNow .probe b row)] ∧
          u.dbg = { further s with toggle := some g, data := s.regNow .probe b row }) ∧
      ∀ e, (t.out.getLast?.any fun o => match o with
          | .answer _ _ x => x == e
          | _ => false) = true →
        let d := match t.out.getLast? with
          | some (.answer _ b _) => BitVec.ofNat 32 (leVal b)
          | _ => 0
        Leads c s [.out, .dbg, .latch, .sett, .tim] (fun _ => true) fun u => u = { t with
          out := t.out.dropLast ++ [Out.dbg 0 d], dbg := { t.dbg with addr := t.dbg.addr + 4, toggle := some g, data := d } }) ∧
    (∀ w i, at_ = .sett w i →
      let r := s.eccRead false w err
      let d := match r.1.settWord w with
        | none => 0
        | some x => if i = 0 then bits x.v.toNat 31 0 else if i = 1 then bits x.v.toNat 63 32
          else if i = 2 then bits x.v.toNat 71 64 + 256 * flagByte x.eop x.poison r.2 false else 0
      Leads c s [.out, .dbg, .ecc, .sett] (fun a => decide (0x120000 ≤ a) && decide (a < 0x130000)) fun u => u = { r.1 with
        out := r.1.out ++ [Out.dbg 0 (BitVec.ofNat 32 d)], dbg := { further s with toggle := some g, data := BitVec.ofNat 32 d } }) ∧
    (∀ w i, at_ = .cram w i →
      let r := s.eccRead true w err
      Leads c s [.out, .dbg, .ecc] (fun a => decide (0x120000 ≤ a) && decide (a < 0x130000)) fun u => status s u 0 = true ∧
        u.dbg = { further s with toggle := some g, data := u.dbg.data } ∧ u.ecc = r.1.ecc ∧
        (i = 2 → u.dbg.data.toNat = 256 * flagByte false (smem r.1.ecc.cramPoison w) r.2 false) ∧ (2 < i → u.dbg.data = 0)) ∧
    (∀ k off, at_ = .core k off →
      let x := s.dbgCore k
      (off = 0x08 → x.halted = false → Leads c s [.out, .dbg] noRegs fun u => status s u 0 = true ∧
        u.dbg = { further s with toggle := some g, data := u.dbg.data }) ∧
      (off = 0x10 → x.halted = false → Leads c s [.out] noRegs fun u => status s u 2 = true) ∧
      (x.halted = true ∨ (off ≠ 0x08 ∧ off ≠ 0x10) →
        let d : Nat := if off = 0 then 8 * b2n x.xhalt else if off = 4 then 16 * x.cause + b2n x.halted else if off = 8 then x.pc.toNat
          else if off = 0x0C then x.regsel else if off = 0x10 then (mgetD x.gpr x.regsel 0).toNat else (mgetD x.points off 0).toNat
        okay c s g (BitVec.ofNat 32 d) (further s)))) ∧
  (∀ (s : State) (g : Bool) (v : Dword), live s g = true →
    let h := dbgHead false 3 g
    let c : Instr := .dbgDataWrite h (dbgCrc h v) v
    let at_ := dbgRegion s.dbg.addr.toNat
    (s.dbg.level ≠ 2 ∨ at_ = .none → gives c s 2 0) ∧
    (s.dbg.level = 2 →
      (∀ off, at_ = .reg off → inKeyBlock off = true → gives c s 2 0) ∧
      (∀ off, at_ = .reg off → inKeyBlock off = false → 
        let w := s.writeReg .probe off 4 v
        Leads c s every (fun _ => true) fun u => u = { w with
          out := w.out ++ [Out.dbg 0 0], dbg := { w.dbg with addr := w.dbg.addr + 4, toggle := some g, data := 0 } }) ∧
      (∀ w i, at_ = .sett w i → gives c s 2 0) ∧
      (∀ w i, at_ = .cram w i → (2 ≤ i → gives c s 2 0) ∧ (i < 2 → Leads c s [.out, .dbg, .ecc] noRegs fun u => u = { s with
        out := s.out ++ [Out.dbg 0 0], dbg := { further s with toggle := some g, data := 0 }
        ecc := { s.ecc with cramPoison := sdel s.ecc.cramPoison w } })) ∧
      (∀ k off, at_ = .core k off →
        let x := s.dbgCore k
        let point : Option Dword := if (0x20 ≤ off ∧ off < 0x30) ∨ off = 0x40 ∨ off = 0x48 then some v
          else if off = 0x44 ∨ off = 0x4C then some (v &&& 0xFFFFFF07) else none
        (off = 0x08 ∨ off = 0x10 → x.halted = false → gives c s 2 0) ∧
        (off = 0x08 → x.halted = true → okay c s g 0 (modCores s (further s) k fun y => { y with pc := v })) ∧
        (off = 0x10 → x.halted = true → okay c s g 0 (modCores s (further s) k fun y => { y with gpr := mput y.gpr y.regsel v })) ∧
        (off = 0x0C → okay c s g 0 (modCores s (further s) k fun y => { y with regsel := v.toNat % 32 })) ∧
        (∀ p, point = some p → okay c s g 0 (modCores s (further s) k fun y => { y with points := mput y.points off p })) ∧
        (off ≠ 0 → off ≠ 0x08 → off ≠ 0x0C → off ≠ 0x10 → point = none → okay c s g 0 (further s)) ∧
        (off = 0 → v.toNat % 8 = 0 → okay c s g 0 (modCores s (further s) k fun y => { y with xhalt := bit v.toNat 3 })) ∧
        (off = 0 → ∃ t, exec c s = .next t ∧ t.dbg.addr = s.dbg.addr + 4 ∧ t.dbg.toggle = some g ∧ (t.dbgCore k).xhalt = bit v.toNat 3)))) ∧
  (∀ (s : State) (a : Agent) (v : Dword), s.mayWrite a R.DBG_CTRL → Leads (.dbgCtrlLock a v) s [.dbg] noRegs fun u =>
    u.dbg = (if bit v.toNat 0 then { s.dbg with level := 0 } else s.dbg) ∧ (bit v.toNat 0 = true → s.dbg.level ≠ 0 → u.pends 112)) ∧
  (∀ (s : State) (g : Bool), s.railsUp = true → s.dbg.toggle ≠ some g →
    let c : Instr := .dbgChalRead (dbgHead true 5 g)
    (s.dbg.chal = none → okay c s g 0 s.dbg) ∧
    (∀ y, s.dbg.chal = some y → okay c s g (BitVec.ofNat 32 (le y.bytes (4 * s.dbg.chalIdx) 4)) { s.dbg with chalIdx := (s.dbg.chalIdx + 1) % 8 })) ∧
  (∀ (s : State) (g : Bool) (v : Dword), s.railsUp = true → s.dbg.toggle ≠ some g →
    let h := dbgHead false 6 g
    let c : Instr := .dbgRespWrite h (dbgCrc h v) v
    (s.dbg.lockout = true → gives c s 2 0) ∧ (s.dbg.lockout = false → s.dbg.checkAt.isSome = true → gives c s 1 0) ∧
    (s.dbg.lockout = false → s.dbg.checkAt = none → s.dbg.chal = none →
      (v = 1 ∨ v = 2 → Leads c s [.out, .dbg] noRegs fun u => status s u 0 = true ∧ opens s u v.toNat { s.dbg with toggle := some g, data := 0 }) ∧
      (v ≠ 1 → v ≠ 2 → okay c s g 0 s.dbg)) ∧
    (∀ y, s.dbg.lockout = false → s.dbg.checkAt = none → s.dbg.chal = some y → okay c s g 0 { s.dbg with
      resp := s.dbg.resp ++ [v], checkAt := if s.dbg.resp.length = 16 then some s.tim.now else none })) ∧
  (∀ s : State, s.dbg.chal = none → Leads .dbgChallengeExpiry s [] noRegs (fun u => u = s) ∧ Leads .dbgResponseVerify s [] noRegs fun u => u = s) ∧
  (∀ (s : State) (c : DbgChal), s.dbg.chal = some c →
    (s.dbg.checkAt = none → Leads .dbgResponseVerify s [] noRegs fun u => u = s) ∧
    (s.dbg.checkAt.isSome = true → Leads .dbgResponseVerify s [.dbg] noRegs fun u => answered s u c ((s.dbg.resp.drop 1).flatMap fun w => toLe 4 w.toNat)) ∧
    Leads .dbgChallengeExpiry s [.tim, .dbg] noRegs fun u => u.dbg = closed s.dbg ∧
      u.tim = { s.tim with now := max s.tim.now (c.at_ + ticksOfS 60) }) ∧
  (∀ (s : State) (r : Fn) (b : List Byte) (issued : Bool), Starts s r 0x98 24 false b →
    let c : Instr := .dbgChallenge r issued
    let bad := firstFail [(le b 8 8 % 8 != 0, St.badParam), (le b 16 1 != 1 && le b 16 1 != 2, St.badParam), (!zeroAt b 17 7, St.badParam),
      (s.dbg.lockout, St.denied)]
    (∀ st, bad = some st → fails c s r b st) ∧ (bad = none → issued = false ∨ (s.pfn r).bme = false → fails c s r b St.timeout) ∧
    (bad = none → issued = true → (s.pfn r).bme = true → Answers c s r b St.ok [] [.dbg] [] fun t => opens s t (le b 16 1) s.dbg ∧
      (t.dbg.chal.any fun y => (t.out.drop s.out.length).contains (Out.dma r (le b 8 8) y.bytes)) = true)) ∧
  (∀ (s : State) (r : Fn) (b : List Byte) (buf : HostRead), Starts s r 0x99 24 false b →
    let c : Instr := .dbgResponse r buf
    let bad := firstFail [(le b 8 8 % 8 != 0, St.badParam), (le b 16 1 != 0, St.badParam), (!zeroAt b 17 7, St.badParam),
      (s.dbg.lockout, St.denied), (s.dbg.chal.isNone, St.state)]
    (∀ st, bad = some st → fails c s r b st) ∧
    (bad = none → buf = .poison → fails c s r b St.poison) ∧ (bad = none → buf = .timeout → fails c s r b St.timeout) ∧
    (∀ x y, bad = none → buf = .data x → s.dbg.chal = some y →
      Answers c s r b (if chalVerifies y.bytes (padTo 64 x) then St.ok else St.verifyFail) [] [.dbg] [] fun t => answered s t y (padTo 64 x))) ∧
  (∀ (s : State) (c : Fin 2), s.dbgFull = false → Leads (.coreHalt c) s [] noRegs (fun u => u = s) ∧ Leads (.coreResume c) s [] noRegs (fun u => u = s) ∧
    ∀ brk watch, Leads (.coreStep c brk watch) s [] noRegs fun u => u = s) ∧
  (∀ (s : State) (c : Fin 2), s.dbgFull = true →
    let x := s.dbgCore c
    (s.boot.restart.isSome = true → Leads (.coreHalt c) s [.dbg] noRegs fun u => u = { s with
      dbg := { s.dbg with haltLater := sadd s.dbg.haltLater c } }) ∧
    (s.boot.restart = none → s.coresUp = false ∨ x.halted = true → Leads (.coreHalt c) s [] noRegs fun u => u = s) ∧
    (s.coresUp = true → x.halted = false → halting (.coreHalt c) s c 1) ∧
    (x.halted = false → Leads (.coreResume c) s [] noRegs (fun u => u = s) ∧ ∀ brk watch, Leads (.coreStep c brk watch) s [] noRegs fun u => u = s) ∧
    (x.halted = true → Leads (.coreResume c) s [.dbg, .boot, .cmd, .out] (regsIn [R.IRQ_CORESTAT, R.RPL_PROD, ringReg .pf1 R.RPL_PROD,
        R.CMD_INFLIGHT, ringReg .pf1 R.CMD_INFLIGHT]) fun u => u.pends 113 ∧ u.dbgCore c = { x with halted := false } ∧
      same s u (1 - c.val) ∧ u.flag (parkFld c) = (s.flag (parkFld c) && !decide (s.boot.phase = .run)) ∧
      u.boot = (if (s.dbgCore (1 - c.val)).halted then s.boot else { s.boot with wdogAt := some s.tim.now }) ∧
      (u.fwRuns = false ∨ (s.NoneLate ∧ (s.cmd.fly.all fun f => f.final.isNone) = true) → u.cmd = s.cmd ∧ u.out = s.out) ∧
      (u.fwRuns = true → u.cmd.fly = s.cmd.fly.filter fun f => f.final.isNone)) ∧
    (∀ brk watch, x.halted = true →
      let cause := 8 + 2 * b2n (brk && x.armed false) + 4 * b2n (watch && x.armed true)
      Leads (.coreStep c brk watch) s [.dbg, .boot, .irq] (regsIn [R.IRQ_CORESTAT]) fun u => (u.dbgCore c).halted = true ∧
        (u.dbgCore c).cause = cause ∧ u.pends 113 ∧ u.flag (parkFld c) = s.flag (parkFld c) ∧
        (x.xhalt = true → (s.dbgCore (1 - c.val)).halted = false → halts s u (1 - c.val) 1 ∧ u.boot = { s.boot with wdogAt := none }) ∧
        (x.xhalt = false ∨ (s.dbgCore (1 - c.val)).halted = true → same s u (1 - c.val) ∧ u.boot = s.boot))) ∧
  (∀ (s : State) (c : Fin 2) (brk watch : Bool),
    let x := s.dbgCore c
    let cause := 2 * b2n (brk && x.armed false) + 4 * b2n (watch && x.armed true)
    (s.coresUp = false ∨ cause = 0 ∨ x.halted = true → Leads (.coreBreakpointHit c brk watch) s [] noRegs fun u => u = s) ∧
    (s.coresUp = true → cause ≠ 0 → x.halted = false → halting (.coreBreakpointHit c brk watch) s c cause))

/-- For each host command whose opcode PF1 may not issue, a packet of a good LEN at the head of PF1's ring is answered ST_DENIED, whatever its
parameters and the device's state are, and changes nothing else. Where one opcode has several rows, the row is the one its packet names.
(R535 puts LEN and undefined opcodes before this check; a row of RESTART_CONTROL answers while no restart is in progress.) (R23, R419, R535) -/
def Obligations.ADeniedOpcodeOnPF1IsAnsweredSo : Prop :=
  let denied (s : State) (b : List Byte) (buf : HostRead) (ok : Bool) : List (Instr × Nat × Bool) := [
      (.commitEpoch .pf1, 0x03, true), (.abortStepped .pf1, 0x04, true), (.streamAdd .pf1 buf, 0x10, true), (.streamDel .pf1, 0x11, true),
      (.streamMod .pf1, 0x12, true), (.streamCfgLoad .pf1 buf, 0x13, true), (.cadenceSet .pf1, 0x20, true),
      (.waitPolicy .pf1, 0x21, true), (.anglePairsLoad .pf1 buf, 0x28, true), (.limitsLoad .pf1 buf, 0x29, true),
      (.topoLoad .pf1 buf, 0x30, true), (.partitionExpect .pf1 buf, 0x31, true), (.oscSignals .pf1 buf, 0x38, true),
      (.oscBands .pf1 buf, 0x39, true), (.outGroupDef .pf1 buf, 0x40, true), (.outDest .pf1, 0x41, true), (.casJoin .pf1 buf, 0x42, true),
      (.casLeave .pf1, 0x43, true), (.pmuCfg .pf1, 0x48, true), (.calLoad .pf1 buf, 0x49, true), (.coefLoad .pf1 buf, 0x4A, true),
      (.bankSwap .pf1, 0x4B, true), (.nrgSnapshot .pf1 ok, 0x50, true), (.nrgPreset .pf1 buf, 0x51, true), (.trgArm .pf1 buf, 0x58, true),
      (.trgDisarm .pf1, 0x59, true), (.trgForce .pf1, 0x5A, true), (.timeStepForce .pf1, 0x60, true), (.ptpCfg .pf1, 0x61, true),
      (.twinCfg .pf1, 0x68, true), (.twinHandover .pf1, 0x69, true), (.twinForceRole .pf1, 0x6A, true),
      (.keyLoadBlob .pf1 buf ok, 0x70, true), (.keyEvict .pf1, 0x71, true), (.keyInvalidateParent .pf1, 0x72, true),
      (.keyWrapNew .pf1 ok, 0x73, true), (.keyUpdateBegin .pf1, 0x74, le b 8 1 == 0 || decide (3 < le b 8 1)),
      (.keyUpdateRewrap .pf1 buf ok, 0x74, le b 8 1 == 1), (.keyUpdateCommit .pf1, 0x74, le b 8 1 == 2),
      (.keyUpdateAbort .pf1, 0x74, le b 8 1 == 3), (.evrFreeze .pf1, 0x78, true), (.evrThaw .pf1, 0x79, true),
      (.pageRetire .pf1, 0x80, true), (.scrubCfg .pf1, 0x81, true), (.scrubFull .pf1, 0x82, true), (.updStageBegin .pf1, 0x88, true),
      (.updStageData .pf1 buf, 0x89, true), (.updStageEnd .pf1, 0x8A, true),
      (.restartHitless .pf1, 0x8B, s.boot.restart.isNone && (le b 8 1 == 0 || decide (2 < le b 8 1))), (.restartStagedUpdate .pf1, 0x8B, s.boot.restart.isNone && le b 8 1 == 1),
      (.restartSys .pf1, 0x8B, le b 8 1 == 2), (.pwrQuiesce .pf1, 0x90, le b 8 1 != 0), (.pwrRun .pf1, 0x90, le b 8 1 == 0),
      (.dbgChallenge .pf1 ok, 0x98, true), (.dbgResponse .pf1 buf, 0x99, true)]
  ∀ (s : State) (b : List Byte) (buf : HostRead) (ok : Bool), s.head .pf1 = some b → 2 ≤ pkLen b → pkLen b ≤ 16 → s.NoneLate →
    ∀ x, x ∈ denied s b buf ok → pkOp b = x.2.1 → x.2.2 = true → Answers x.1 s .pf1 b St.denied [] [] [] fun _ => True

/-- If LEVEL, also of the open challenge, is at most 2, FAILS at most 3 and LOCKOUT set exactly with FAILS 3, then this holds after each frame
of the debug port but a write of DATA, each of its checks and expiries, each host command of the unlock, each halt, resume and step of a
core, and each reset. In particular no sequence of these reaches LEVEL 1 or 2 other than through a signature that verifies: of them only
DBG_RESPONSE_VERIFY and DBG_RESPONSE can raise LEVEL. (R499, R502, R503, R504, R505) -/
def Obligations.TheDebugPortStaysLegal : Prop :=
  let quietOnes (h crc : Nat) (v : Dword) (err : ReadErr) (r : Fn) (a : Agent) (n : Fin 2) (g ok : Bool) : List Instr := [.debugLineReset,
    .dbgAddrWrite h crc v, .dbgDataRead h err, .dbgChalRead h, .dbgRespWrite h crc v, .dbgPortLock h crc v, .dbgCtrlLock a v,
    .dbgChallengeExpiry, .dbgChallenge r ok, .coreHalt n, .coreResume n, .coreStep n g ok, .coreBreakpointHit n g ok, .porReset, .sysReset,
    .coreRailsDown g]
  (∀ (s : State) (h crc : Nat) (v : Dword) (err : ReadErr) (r : Fn) (a : Agent) (n : Fin 2) (g ok : Bool), ∀ c, c ∈ quietOnes h crc v err r a n g ok →
    ∃ t, exec c s = .next t ∧ (DbgLegal s → DbgLegal t) ∧ t.dbg.level ≤ s.dbg.level) ∧
  (∀ (s : State) (r : Fn) (buf : HostRead), ∀ c, c ∈ [Instr.dbgResponseVerify, .dbgResponse r buf] → ∃ t, exec c s = .next t ∧
    (DbgLegal s → DbgLegal t) ∧ (t.dbg.level ≠ s.dbg.level → (s.dbg.chal.any fun ch => t.dbg.level == ch.level) = true ∧ t.dbg.chal = none ∧
      ∃ ch sig, s.dbg.chal = some ch ∧ chalVerifies ch.bytes sig = true))

/-- For every command c and state s, a step with c at the front of the queue is c's execution on the state whose queue is the rest. With an
empty queue a step is one tick of the TIME counter (log entry 2, a choice of the model): the count goes up by 1 and nothing else changes but
what logging changes, where no LEAVE frame is due by then; those that are due go out. (R44, R252, 95_what_each_step_holds.md) -/
def Obligations.StepRunsTheFrontCommand : Prop :=
  (∀ (c : Instr) (rest : List Instr) (s : State), step { s with pending := c :: rest } = exec c { s with pending := rest }) ∧
  (∀ s : State, s.pending = [] → ∃ t, step s = .next t ∧ t.tim = { s.tim with now := s.tim.now + 1 } ∧
    t.cas = { s.cas with leave := s.cas.leave.filter fun x => decide (s.tim.now + 1 < x.1) } ∧
    ((s.cas.leave.all fun x => decide (s.tim.now + 1 < x.1)) = true → Frame [.tim] noRegs s t) ∧
    Frame [.tim, .cas, .out, .mac] (fun a => a == R.MAC_PRP_SEQ || (List.range 5).any fun p => a == (macCnt p 15).addr) s t)

/-- State.reset: the registers named have the reset values of their tables; the register store is in its canonical form; nothing waits, nothing
is held, no page is taken, no stream, instant, alarm, key, event or interrupt is there; local time is not seeded; the debug port is locked;
the boot sequence has not run. (Registers of which the spec states no reset value are at zero by log entry 6, of which this states nothing.)
(R48, R54, R66, R106, R146, R154, R163, R193, R262, R311, R384, R492) -/
def Obligations.ResetLeavesTheStatedValues : Prop :=
  RegsCanon State.reset ∧ DbgLegal State.reset ∧ State.reset.pending = [] ∧ State.reset.held = [] ∧ State.reset.out = [] ∧
    State.reset.boot.phase = .reset ∧ State.reset.dbg.level = 0 ∧ State.reset.tim.anchor = none ∧ State.reset.sett.pages = [] ∧
    State.reset.ing.streams.eff = [] ∧ State.reset.aln.insts = [] ∧ State.reset.alm.act = [] ∧ State.reset.keys.slots = [] ∧
    State.reset.evr.recs = [] ∧ State.reset.irq.main = [] ∧ State.reset.cmd.fly = [] ∧ State.reset.cmd.prep = none ∧
    State.reset.incr = 2236962133333 ∧ State.reset.get F.TIM_SERVO_UNC = 0xFFFFFF ∧ State.reset.get F.TIM_SERVO_TMO_TMO = 2000 ∧
    State.reset.quota 0 = 5120 ∧ State.reset.quota 1 = 256 ∧ State.reset.quota 2 = 1024 ∧ State.reset.quota 3 = 1024 ∧
    State.reset.quota 4 = 128 ∧ State.reset.quota 5 = 384 ∧ State.reset.quota 6 = 64 ∧ State.reset.get F.SET_QUOTA_SPARE_QUOTA = 192 ∧
    State.reset.get F.ALN_WAITINIT_US = 20000 ∧ State.reset.get F.ALN_LEARN_Q = 250 ∧ State.reset.get F.ALN_EPOCH_LEAD_US = 1000 ∧
    State.reset.flag F.ANG_CTRL_LIM_EN = true ∧ State.reset.get F.ISL_PERSIST_PERSIST = 2 ∧ State.reset.flag F.FLT_CTRL_EN = false ∧
    State.reset.get F.NRG_SAVE_MS = 1000 ∧ State.reset.flag F.TWN_CTRL_REVERT_EN = true ∧ State.reset.flag F.BOOT_STAT_READY = false

/-- Whatever the state and the command, it completes with a next state (no fault, no refusal), and in it the Alarm Status Port's words are those
of the active alarms and of the state, the raw levels of the eight pins are the OR of their groups, ALMSTAT.OUT shows a pin active exactly
where its mode makes it so and neither inhibit, a power fail nor a quiesce holds it, and of a twin unit FAULT and HEALTHY follow their
causes. The same holds after a tick. (R169, R170, R171, R172, R173, R382, R383, R493, R495) -/
def Obligations.EveryCommandCompletesAndThePinsFollow : Prop :=
  (∀ (c : Instr) (s : State), ∃ t, exec c s = .next t ∧ PinsFollow t) ∧ (∀ s : State, ∃ t, step s = .next t ∧ PinsFollow t)

end
end

