-- ==== Sys2Proof/Laws/Data.lean ====
section
/-!
SUPPORT. Sys2Proof/Laws/Data.lean: the laws of maps, of bit fields and of modular arithmetic.
-/
namespace Sys2Proof.Machine

/-! ### Maps -/

theorem mget_merase_self {α : Type} (m : List (Nat × α)) (k : Nat) : mget (merase m k) k = none := by
  induction m with
  | nil => rfl
  | cons p t ih =>
    obtain ⟨j, v⟩ := p
    by_cases h : j = k
    · simp [merase, h] at ih ⊢; exact ih
    · simp [merase, h, mget] at ih ⊢; exact ih

theorem mget_merase_ne {α : Type} (m : List (Nat × α)) {k j : Nat} (h : j ≠ k) : mget (merase m k) j = mget m j := by
  induction m with
  | nil => rfl
  | cons p t ih =>
    obtain ⟨i, v⟩ := p
    by_cases hi : i = k
    · have hj : ¬ i = j := by omega
      simp [merase, hi, mget] at ih ⊢
      rw [ih]; simp [show ¬ k = j by omega]
    · simp [merase, hi, mget] at ih ⊢
      rw [ih]

theorem mget_minsert_self {α : Type} (m : List (Nat × α)) (k : Nat) (v : α) (h : mget m k = none) :
    mget (minsert m k v) k = some v := by
  induction m with
  | nil => simp [minsert, mget]
  | cons p t ih =>
    obtain ⟨j, w⟩ := p
    simp only [mget] at h
    split at h
    · cases h
    · rename_i hj
      by_cases hk : k < j
      · simp [minsert, hk, mget]
      · simp only [minsert, hk, if_false, mget, hj]; exact ih h

theorem mget_minsert_ne {α : Type} (m : List (Nat × α)) {k j : Nat} (v : α) (h : j ≠ k) :
    mget (minsert m k v) j = mget m j := by
  induction m with
  | nil => simp [minsert, mget]; omega
  | cons p t ih =>
    obtain ⟨i, w⟩ := p
    by_cases hk : k < i
    · simp only [minsert, hk, if_true]
      rw [mget]; simp [show ¬ k = j by omega]
    · simp only [minsert, hk, if_false, mget]; rw [ih]

@[simp] theorem mget_mput_self {α : Type} (m : List (Nat × α)) (k : Nat) (v : α) : mget (mput m k v) k = some v :=
  mget_minsert_self _ _ _ (mget_merase_self m k)

theorem mget_mput_ne {α : Type} (m : List (Nat × α)) {k j : Nat} (v : α) (h : j ≠ k) : mget (mput m k v) j = mget m j := by
  rw [mput, mget_minsert_ne _ _ h, mget_merase_ne _ h]

@[simp] theorem mgetD_mput_self {α : Type} (m : List (Nat × α)) (k : Nat) (v d : α) : mgetD (mput m k v) k d = v := by
  simp [mgetD]

theorem mgetD_mput_ne {α : Type} (m : List (Nat × α)) {k j : Nat} (v d : α) (h : j ≠ k) :
    mgetD (mput m k v) j d = mgetD m j d := by simp [mgetD, mget_mput_ne m v h]

@[simp] theorem mgetD_mmod_self {α : Type} (m : List (Nat × α)) (k : Nat) (d : α) (f : α → α) :
    mgetD (mmod m k d f) k d = f (mgetD m k d) := by simp [mmod]

theorem mgetD_mmod_ne {α : Type} (m : List (Nat × α)) {k j : Nat} (d : α) (f : α → α) (h : j ≠ k) :
    mgetD (mmod m k d f) j d = mgetD m j d := mgetD_mput_ne m _ d h

@[simp] theorem mgetD_mstore_self {α : Type} [DecidableEq α] (d : α) (m : List (Nat × α)) (k : Nat) (v : α) :
    mgetD (mstore d m k v) k d = v := by
  unfold mstore; split
  · rename_i h; simp [mgetD, mget_merase_self, h]
  · simp

theorem mgetD_mstore_ne {α : Type} [DecidableEq α] (d : α) (m : List (Nat × α)) {k j : Nat} (v : α) (h : j ≠ k) :
    mgetD (mstore d m k v) j d = mgetD m j d := by
  unfold mstore; split
  · simp [mgetD, mget_merase_ne m h]
  · exact mgetD_mput_ne m v d h

/-! ### The canonical form -/

/-- Every key of a rising map's tail is above its head's. -/
theorem mrising_head {α : Type} {a : Nat} {v : α} {t : List (Nat × α)} (h : mrising ((a, v) :: t) = true) :
    ∀ p ∈ t, a < p.1 := by
  induction t generalizing a v with
  | nil => simp
  | cons q t ih =>
    obtain ⟨b, w⟩ := q
    simp [mrising] at h
    intro p hp
    rcases List.mem_cons.mp hp with rfl | hp
    · exact h.1
    · exact Nat.lt_trans h.1 (ih h.2 p hp)

theorem mrising_cons {α : Type} {a : Nat} {v : α} {t : List (Nat × α)} (h : mrising t = true) (ha : ∀ p ∈ t, a < p.1) :
    mrising ((a, v) :: t) = true := by
  cases t with
  | nil => rfl
  | cons q t => obtain ⟨b, w⟩ := q; simp [mrising]; exact ⟨ha (b, w) (by simp), h⟩

theorem mrising_tail {α : Type} {p : Nat × α} {t : List (Nat × α)} (h : mrising (p :: t) = true) : mrising t = true := by
  cases t with
  | nil => rfl
  | cons q t => obtain ⟨a, v⟩ := p; obtain ⟨b, w⟩ := q; simp [mrising] at h; exact h.2

theorem mrising_merase {α : Type} {m : List (Nat × α)} (k : Nat) (h : mrising m = true) : mrising (merase m k) = true := by
  induction m with
  | nil => rfl
  | cons p t ih =>
    obtain ⟨a, v⟩ := p
    have ht := ih (mrising_tail h)
    by_cases hk : a = k
    · simpa [merase, hk] using ht
    · have : merase ((a, v) :: t) k = (a, v) :: merase t k := by simp [merase, hk]
      rw [this]
      exact mrising_cons ht fun p hp => mrising_head h p (List.mem_of_mem_filter hp)

theorem mem_minsert {α : Type} {m : List (Nat × α)} {k : Nat} {v : α} {p : Nat × α} (h : p ∈ minsert m k v) :
    p = (k, v) ∨ p ∈ m := by
  induction m with
  | nil => simp [minsert] at h; exact .inl h
  | cons q t ih =>
    obtain ⟨j, w⟩ := q
    by_cases hk : k < j
    · simp only [minsert, hk, if_true, List.mem_cons] at h ⊢; tauto
    · simp only [minsert, hk, if_false, List.mem_cons] at h ⊢
      rcases h with h | h
      · exact .inr (.inl h)
      · rcases ih h with h | h
        · exact .inl h
        · exact .inr (.inr h)

theorem mrising_minsert {α : Type} {m : List (Nat × α)} {k : Nat} (v : α) (h : mrising m = true) (hk : ∀ p ∈ m, p.1 ≠ k) :
    mrising (minsert m k v) = true := by
  induction m with
  | nil => rfl
  | cons q t ih =>
    obtain ⟨j, w⟩ := q
    by_cases hlt : k < j
    · simp only [minsert, hlt, if_true]
      refine mrising_cons h fun p hp => ?_
      rcases List.mem_cons.mp hp with rfl | hp
      · exact hlt
      · exact Nat.lt_trans hlt (mrising_head h p hp)
    · simp only [minsert, hlt, if_false]
      have hj : j ≠ k := hk (j, w) (by simp)
      refine mrising_cons (ih (mrising_tail h) fun p hp => hk p (by simp [hp])) fun p hp => ?_
      rcases mem_minsert hp with rfl | hp
      · show j < k; omega
      · exact mrising_head h p hp

theorem merase_keys {α : Type} {m : List (Nat × α)} {k : Nat} : ∀ p ∈ merase m k, p.1 ≠ k := by
  intro p hp; simp [merase] at hp; exact hp.2

theorem mrising_mput {α : Type} {m : List (Nat × α)} (k : Nat) (v : α) (h : mrising m = true) : mrising (mput m k v) = true :=
  mrising_minsert v (mrising_merase k h) merase_keys

/-- A store keeps the canonical form. -/
theorem mcanon_mstore {α : Type} [DecidableEq α] {d : α} {m : List (Nat × α)} (k : Nat) (v : α) (h : mcanon d m = true) :
    mcanon d (mstore d m k v) = true := by
  simp only [mcanon, Bool.and_eq_true, List.all_eq_true] at h ⊢
  unfold mstore; split
  · exact ⟨mrising_merase k h.1, fun p hp => h.2 p (List.mem_of_mem_filter hp)⟩
  · rename_i hv
    refine ⟨mrising_mput k v h.1, fun p hp => ?_⟩
    rcases mem_minsert hp with rfl | hp
    · simp [hv]
    · exact h.2 p (List.mem_of_mem_filter hp)

/-! ### Bit fields -/

/-- A digit and what lies below it stay below the next power. -/
theorem mul_add_lt {a b m n : Nat} (h : a < m) (k : b < n) : a * n + b < m * n := by
  have : (a + 1) * n ≤ m * n := Nat.mul_le_mul_right n h
  rw [Nat.add_mul, Nat.one_mul] at this
  omega

theorem bits_lt (x hi lo : Nat) : bits x hi lo < 2 ^ (hi - lo + 1) := Nat.mod_lt _ (by positivity)

/-- A number cut into what lies above bit hi, the field, and what lies below bit lo. -/
theorem bits_split (x : Nat) {hi lo : Nat} (h : lo ≤ hi) :
    x = x / 2 ^ (hi + 1) * 2 ^ (hi + 1) + bits x hi lo * 2 ^ lo + x % 2 ^ lo := by
  have e : 2 ^ (hi + 1) = 2 ^ lo * 2 ^ (hi - lo + 1) := by rw [← pow_add]; congr 1; omega
  have h1 : x = 2 ^ lo * (x / 2 ^ lo) + x % 2 ^ lo := (Nat.div_add_mod _ _).symm
  have h2 : x / 2 ^ lo = 2 ^ (hi - lo + 1) * (x / 2 ^ lo / 2 ^ (hi - lo + 1)) + x / 2 ^ lo % 2 ^ (hi - lo + 1) :=
    (Nat.div_add_mod _ _).symm
  have h3 : x / 2 ^ (hi + 1) = x / 2 ^ lo / 2 ^ (hi - lo + 1) := by rw [e, Nat.div_div_eq_div_mul]
  unfold bits
  rw [h3, e]
  conv_lhs => rw [h1, h2]
  ring

theorem setBits_eq (x v : Nat) {hi lo : Nat} (h : lo ≤ hi) :
    setBits x hi lo v = x / 2 ^ (hi + 1) * 2 ^ (hi + 1) + v % 2 ^ (hi - lo + 1) * 2 ^ lo + x % 2 ^ lo := by
  have := bits_split x h
  unfold setBits
  omega

/-- A field reads as what was put into it. -/
theorem bits_setBits_self (x v : Nat) {hi lo : Nat} (h : lo ≤ hi) : bits (setBits x hi lo v) hi lo = v % 2 ^ (hi - lo + 1) := by
  rw [setBits_eq x v h]
  have e : 2 ^ (hi + 1) = 2 ^ lo * 2 ^ (hi - lo + 1) := by rw [← pow_add]; congr 1; omega
  have hl : x % 2 ^ lo < 2 ^ lo := Nat.mod_lt _ (by positivity)
  have hw : v % 2 ^ (hi - lo + 1) < 2 ^ (hi - lo + 1) := Nat.mod_lt _ (by positivity)
  unfold bits
  have : x / 2 ^ (hi + 1) * 2 ^ (hi + 1) + v % 2 ^ (hi - lo + 1) * 2 ^ lo + x % 2 ^ lo =
      2 ^ lo * (2 ^ (hi - lo + 1) * (x / 2 ^ (hi + 1)) + v % 2 ^ (hi - lo + 1)) + x % 2 ^ lo := by rw [e]; ring
  rw [this, Nat.mul_add_div (by positivity), Nat.div_eq_of_lt hl, Nat.add_zero, Nat.mul_add_mod, Nat.mod_mod]

/-- A field below the changed one stays. -/
theorem bits_setBits_below (x v : Nat) {hi lo h2 l2 : Nat} (h : lo ≤ hi) (h' : l2 ≤ h2) (hb : h2 < lo) :
    bits (setBits x hi lo v) h2 l2 = bits x h2 l2 := by
  rw [setBits_eq x v h]
  have e : 2 ^ (hi + 1) = 2 ^ lo * 2 ^ (hi + 1 - lo) := by rw [← pow_add]; congr 1; omega
  have key : ∀ y, y % 2 ^ lo = x % 2 ^ lo → bits y h2 l2 = bits x h2 l2 := by
    intro y hy
    have f : ∀ z : Nat, bits z h2 l2 = bits (z % 2 ^ lo) h2 l2 := by
      intro z
      unfold bits
      have e2 : 2 ^ lo = 2 ^ l2 * (2 ^ (h2 - l2 + 1) * 2 ^ (lo - h2 - 1)) := by rw [← pow_add, ← pow_add]; congr 1; omega
      rw [e2, Nat.mod_mul_right_div_self, Nat.mod_mul_right_mod]
    rw [f y, f x, hy]
  refine key _ ?_
  rw [e]
  have : x / (2 ^ lo * 2 ^ (hi + 1 - lo)) * (2 ^ lo * 2 ^ (hi + 1 - lo)) + v % 2 ^ (hi - lo + 1) * 2 ^ lo + x % 2 ^ lo =
      2 ^ lo * (x / (2 ^ lo * 2 ^ (hi + 1 - lo)) * 2 ^ (hi + 1 - lo) + v % 2 ^ (hi - lo + 1)) + x % 2 ^ lo := by ring
  rw [this, Nat.mul_add_mod, Nat.mod_mod]

/-- A field above the changed one stays. -/
theorem bits_setBits_above (x v : Nat) {hi lo h2 l2 : Nat} (h : lo ≤ hi) (hb : hi < l2) :
    bits (setBits x hi lo v) h2 l2 = bits x h2 l2 := by
  rw [setBits_eq x v h]
  have hl : x % 2 ^ lo < 2 ^ lo := Nat.mod_lt _ (by positivity)
  have hw : v % 2 ^ (hi - lo + 1) < 2 ^ (hi - lo + 1) := Nat.mod_lt _ (by positivity)
  have e : 2 ^ (hi + 1) = 2 ^ (hi - lo + 1) * 2 ^ lo := by rw [← pow_add]; congr 1; omega
  have hr : v % 2 ^ (hi - lo + 1) * 2 ^ lo + x % 2 ^ lo < 2 ^ (hi + 1) := by
    rw [e]; exact mul_add_lt hw hl
  have hd : (x / 2 ^ (hi + 1) * 2 ^ (hi + 1) + v % 2 ^ (hi - lo + 1) * 2 ^ lo + x % 2 ^ lo) / 2 ^ (hi + 1) = x / 2 ^ (hi + 1) := by
    rw [Nat.add_assoc, Nat.mul_comm, Nat.mul_add_div (by positivity), Nat.div_eq_of_lt hr, Nat.add_zero]
  have e3 : 2 ^ l2 = 2 ^ (hi + 1) * 2 ^ (l2 - (hi + 1)) := by rw [← pow_add]; congr 1; omega
  unfold bits
  rw [e3, ← Nat.div_div_eq_div_mul, ← Nat.div_div_eq_div_mul, hd]

theorem setBits_lt (x v : Nat) {hi lo n : Nat} (h : lo ≤ hi) (hn : hi < n) (hx : x < 2 ^ n) : setBits x hi lo v < 2 ^ n := by
  rw [setBits_eq x v h]
  have hl : x % 2 ^ lo < 2 ^ lo := Nat.mod_lt _ (by positivity)
  have hw : v % 2 ^ (hi - lo + 1) < 2 ^ (hi - lo + 1) := Nat.mod_lt _ (by positivity)
  have e : 2 ^ (hi + 1) = 2 ^ (hi - lo + 1) * 2 ^ lo := by rw [← pow_add]; congr 1; omega
  have hr : v % 2 ^ (hi - lo + 1) * 2 ^ lo + x % 2 ^ lo < 2 ^ (hi + 1) := by rw [e]; exact mul_add_lt hw hl
  have en : 2 ^ n = 2 ^ (hi + 1) * 2 ^ (n - (hi + 1)) := by rw [← pow_add]; congr 1; omega
  have hd : x / 2 ^ (hi + 1) < 2 ^ (n - (hi + 1)) := by
    rw [Nat.div_lt_iff_lt_mul (by positivity), Nat.mul_comm, ← en]; exact hx
  rw [en, Nat.add_assoc, Nat.mul_comm (2 ^ (hi + 1))]
  exact mul_add_lt hd hr

end Sys2Proof.Machine
end

