-- ==== Sys2Proof/Laws/State.lean ====
section
/-!
SUPPORT. Sys2Proof/Laws/State.lean: the laws of the register store: what a read gives after a write, and that writes touch nothing else.
-/
namespace Sys2Proof.Machine

variable (s : State)

/-! ### Other parts of the state stay -/

@[simp] theorem State.wr_pending (a : Nat) (v : Dword) : (s.wr a v).pending = s.pending := rfl
@[simp] theorem State.wr_latch (a : Nat) (v : Dword) : (s.wr a v).latch = s.latch := rfl
@[simp] theorem State.wr_held (a : Nat) (v : Dword) : (s.wr a v).held = s.held := rfl
@[simp] theorem State.wr_freeCtr (a : Nat) (v : Dword) : (s.wr a v).freeCtr = s.freeCtr := rfl
@[simp] theorem State.wr_out (a : Nat) (v : Dword) : (s.wr a v).out = s.out := rfl
@[simp] theorem State.wr_tim (a : Nat) (v : Dword) : (s.wr a v).tim = s.tim := rfl
@[simp] theorem State.wr_sett (a : Nat) (v : Dword) : (s.wr a v).sett = s.sett := rfl
@[simp] theorem State.wr_ing (a : Nat) (v : Dword) : (s.wr a v).ing = s.ing := rfl
@[simp] theorem State.wr_aln (a : Nat) (v : Dword) : (s.wr a v).aln = s.aln := rfl
@[simp] theorem State.wr_sched (a : Nat) (v : Dword) : (s.wr a v).sched = s.sched := rfl
@[simp] theorem State.wr_cmd (a : Nat) (v : Dword) : (s.wr a v).cmd = s.cmd := rfl
@[simp] theorem State.wr_irq (a : Nat) (v : Dword) : (s.wr a v).irq = s.irq := rfl
@[simp] theorem State.wr_evr (a : Nat) (v : Dword) : (s.wr a v).evr = s.evr := rfl
@[simp] theorem State.wr_mac (a : Nat) (v : Dword) : (s.wr a v).mac = s.mac := rfl
@[simp] theorem State.wr_pmu (a : Nat) (v : Dword) : (s.wr a v).pmu = s.pmu := rfl
@[simp] theorem State.wr_keys (a : Nat) (v : Dword) : (s.wr a v).keys = s.keys := rfl
@[simp] theorem State.wr_ecc (a : Nat) (v : Dword) : (s.wr a v).ecc = s.ecc := rfl
@[simp] theorem State.wr_alm (a : Nat) (v : Dword) : (s.wr a v).alm = s.alm := rfl
@[simp] theorem State.wr_ang (a : Nat) (v : Dword) : (s.wr a v).ang = s.ang := rfl
@[simp] theorem State.wr_isl (a : Nat) (v : Dword) : (s.wr a v).isl = s.isl := rfl
@[simp] theorem State.wr_osc (a : Nat) (v : Dword) : (s.wr a v).osc = s.osc := rfl
@[simp] theorem State.wr_outp (a : Nat) (v : Dword) : (s.wr a v).outp = s.outp := rfl
@[simp] theorem State.wr_cas (a : Nat) (v : Dword) : (s.wr a v).cas = s.cas := rfl
@[simp] theorem State.wr_twn (a : Nat) (v : Dword) : (s.wr a v).twn = s.twn := rfl
@[simp] theorem State.wr_flt (a : Nat) (v : Dword) : (s.wr a v).flt = s.flt := rfl
@[simp] theorem State.wr_nrg (a : Nat) (v : Dword) : (s.wr a v).nrg = s.nrg := rfl
@[simp] theorem State.wr_trg (a : Nat) (v : Dword) : (s.wr a v).trg = s.trg := rfl
@[simp] theorem State.wr_boot (a : Nat) (v : Dword) : (s.wr a v).boot = s.boot := rfl
@[simp] theorem State.wr_dbg (a : Nat) (v : Dword) : (s.wr a v).dbg = s.dbg := rfl

@[simp] theorem State.set_pending (f : Fld) (x : Nat) : (s.set f x).pending = s.pending := rfl
@[simp] theorem State.set_latch (f : Fld) (x : Nat) : (s.set f x).latch = s.latch := rfl
@[simp] theorem State.set_held (f : Fld) (x : Nat) : (s.set f x).held = s.held := rfl
@[simp] theorem State.set_freeCtr (f : Fld) (x : Nat) : (s.set f x).freeCtr = s.freeCtr := rfl
@[simp] theorem State.set_out (f : Fld) (x : Nat) : (s.set f x).out = s.out := rfl
@[simp] theorem State.set_tim (f : Fld) (x : Nat) : (s.set f x).tim = s.tim := rfl
@[simp] theorem State.set_sett (f : Fld) (x : Nat) : (s.set f x).sett = s.sett := rfl
@[simp] theorem State.set_ing (f : Fld) (x : Nat) : (s.set f x).ing = s.ing := rfl
@[simp] theorem State.set_aln (f : Fld) (x : Nat) : (s.set f x).aln = s.aln := rfl
@[simp] theorem State.set_sched (f : Fld) (x : Nat) : (s.set f x).sched = s.sched := rfl
@[simp] theorem State.set_cmd (f : Fld) (x : Nat) : (s.set f x).cmd = s.cmd := rfl
@[simp] theorem State.set_irq (f : Fld) (x : Nat) : (s.set f x).irq = s.irq := rfl
@[simp] theorem State.set_evr (f : Fld) (x : Nat) : (s.set f x).evr = s.evr := rfl
@[simp] theorem State.set_mac (f : Fld) (x : Nat) : (s.set f x).mac = s.mac := rfl
@[simp] theorem State.set_pmu (f : Fld) (x : Nat) : (s.set f x).pmu = s.pmu := rfl
@[simp] theorem State.set_keys (f : Fld) (x : Nat) : (s.set f x).keys = s.keys := rfl
@[simp] theorem State.set_ecc (f : Fld) (x : Nat) : (s.set f x).ecc = s.ecc := rfl
@[simp] theorem State.set_alm (f : Fld) (x : Nat) : (s.set f x).alm = s.alm := rfl
@[simp] theorem State.set_ang (f : Fld) (x : Nat) : (s.set f x).ang = s.ang := rfl
@[simp] theorem State.set_isl (f : Fld) (x : Nat) : (s.set f x).isl = s.isl := rfl
@[simp] theorem State.set_osc (f : Fld) (x : Nat) : (s.set f x).osc = s.osc := rfl
@[simp] theorem State.set_outp (f : Fld) (x : Nat) : (s.set f x).outp = s.outp := rfl
@[simp] theorem State.set_cas (f : Fld) (x : Nat) : (s.set f x).cas = s.cas := rfl
@[simp] theorem State.set_twn (f : Fld) (x : Nat) : (s.set f x).twn = s.twn := rfl
@[simp] theorem State.set_flt (f : Fld) (x : Nat) : (s.set f x).flt = s.flt := rfl
@[simp] theorem State.set_nrg (f : Fld) (x : Nat) : (s.set f x).nrg = s.nrg := rfl
@[simp] theorem State.set_trg (f : Fld) (x : Nat) : (s.set f x).trg = s.trg := rfl
@[simp] theorem State.set_boot (f : Fld) (x : Nat) : (s.set f x).boot = s.boot := rfl
@[simp] theorem State.set_dbg (f : Fld) (x : Nat) : (s.set f x).dbg = s.dbg := rfl

@[simp] theorem State.setB_pending (f : Fld) (b : Bool) : (s.setB f b).pending = s.pending := rfl
@[simp] theorem State.setB_latch (f : Fld) (b : Bool) : (s.setB f b).latch = s.latch := rfl
@[simp] theorem State.setB_held (f : Fld) (b : Bool) : (s.setB f b).held = s.held := rfl
@[simp] theorem State.setB_freeCtr (f : Fld) (b : Bool) : (s.setB f b).freeCtr = s.freeCtr := rfl
@[simp] theorem State.setB_out (f : Fld) (b : Bool) : (s.setB f b).out = s.out := rfl
@[simp] theorem State.setB_tim (f : Fld) (b : Bool) : (s.setB f b).tim = s.tim := rfl
@[simp] theorem State.setB_sett (f : Fld) (b : Bool) : (s.setB f b).sett = s.sett := rfl
@[simp] theorem State.setB_ing (f : Fld) (b : Bool) : (s.setB f b).ing = s.ing := rfl
@[simp] theorem State.setB_aln (f : Fld) (b : Bool) : (s.setB f b).aln = s.aln := rfl
@[simp] theorem State.setB_sched (f : Fld) (b : Bool) : (s.setB f b).sched = s.sched := rfl
@[simp] theorem State.setB_cmd (f : Fld) (b : Bool) : (s.setB f b).cmd = s.cmd := rfl
@[simp] theorem State.setB_irq (f : Fld) (b : Bool) : (s.setB f b).irq = s.irq := rfl
@[simp] theorem State.setB_evr (f : Fld) (b : Bool) : (s.setB f b).evr = s.evr := rfl
@[simp] theorem State.setB_mac (f : Fld) (b : Bool) : (s.setB f b).mac = s.mac := rfl
@[simp] theorem State.setB_pmu (f : Fld) (b : Bool) : (s.setB f b).pmu = s.pmu := rfl
@[simp] theorem State.setB_keys (f : Fld) (b : Bool) : (s.setB f b).keys = s.keys := rfl
@[simp] theorem State.setB_ecc (f : Fld) (b : Bool) : (s.setB f b).ecc = s.ecc := rfl
@[simp] theorem State.setB_alm (f : Fld) (b : Bool) : (s.setB f b).alm = s.alm := rfl
@[simp] theorem State.setB_ang (f : Fld) (b : Bool) : (s.setB f b).ang = s.ang := rfl
@[simp] theorem State.setB_isl (f : Fld) (b : Bool) : (s.setB f b).isl = s.isl := rfl
@[simp] theorem State.setB_osc (f : Fld) (b : Bool) : (s.setB f b).osc = s.osc := rfl
@[simp] theorem State.setB_outp (f : Fld) (b : Bool) : (s.setB f b).outp = s.outp := rfl
@[simp] theorem State.setB_cas (f : Fld) (b : Bool) : (s.setB f b).cas = s.cas := rfl
@[simp] theorem State.setB_twn (f : Fld) (b : Bool) : (s.setB f b).twn = s.twn := rfl
@[simp] theorem State.setB_flt (f : Fld) (b : Bool) : (s.setB f b).flt = s.flt := rfl
@[simp] theorem State.setB_nrg (f : Fld) (b : Bool) : (s.setB f b).nrg = s.nrg := rfl
@[simp] theorem State.setB_trg (f : Fld) (b : Bool) : (s.setB f b).trg = s.trg := rfl
@[simp] theorem State.setB_boot (f : Fld) (b : Bool) : (s.setB f b).boot = s.boot := rfl
@[simp] theorem State.setB_dbg (f : Fld) (b : Bool) : (s.setB f b).dbg = s.dbg := rfl

@[simp] theorem State.inc_pending (f : Fld) : (s.inc f).pending = s.pending := rfl
@[simp] theorem State.inc_latch (f : Fld) : (s.inc f).latch = s.latch := rfl
@[simp] theorem State.inc_held (f : Fld) : (s.inc f).held = s.held := rfl
@[simp] theorem State.inc_freeCtr (f : Fld) : (s.inc f).freeCtr = s.freeCtr := rfl
@[simp] theorem State.inc_out (f : Fld) : (s.inc f).out = s.out := rfl
@[simp] theorem State.inc_tim (f : Fld) : (s.inc f).tim = s.tim := rfl
@[simp] theorem State.inc_sett (f : Fld) : (s.inc f).sett = s.sett := rfl
@[simp] theorem State.inc_ing (f : Fld) : (s.inc f).ing = s.ing := rfl
@[simp] theorem State.inc_aln (f : Fld) : (s.inc f).aln = s.aln := rfl
@[simp] theorem State.inc_sched (f : Fld) : (s.inc f).sched = s.sched := rfl
@[simp] theorem State.inc_cmd (f : Fld) : (s.inc f).cmd = s.cmd := rfl
@[simp] theorem State.inc_irq (f : Fld) : (s.inc f).irq = s.irq := rfl
@[simp] theorem State.inc_evr (f : Fld) : (s.inc f).evr = s.evr := rfl
@[simp] theorem State.inc_mac (f : Fld) : (s.inc f).mac = s.mac := rfl
@[simp] theorem State.inc_pmu (f : Fld) : (s.inc f).pmu = s.pmu := rfl
@[simp] theorem State.inc_keys (f : Fld) : (s.inc f).keys = s.keys := rfl
@[simp] theorem State.inc_ecc (f : Fld) : (s.inc f).ecc = s.ecc := rfl
@[simp] theorem State.inc_alm (f : Fld) : (s.inc f).alm = s.alm := rfl
@[simp] theorem State.inc_ang (f : Fld) : (s.inc f).ang = s.ang := rfl
@[simp] theorem State.inc_isl (f : Fld) : (s.inc f).isl = s.isl := rfl
@[simp] theorem State.inc_osc (f : Fld) : (s.inc f).osc = s.osc := rfl
@[simp] theorem State.inc_outp (f : Fld) : (s.inc f).outp = s.outp := rfl
@[simp] theorem State.inc_cas (f : Fld) : (s.inc f).cas = s.cas := rfl
@[simp] theorem State.inc_twn (f : Fld) : (s.inc f).twn = s.twn := rfl
@[simp] theorem State.inc_flt (f : Fld) : (s.inc f).flt = s.flt := rfl
@[simp] theorem State.inc_nrg (f : Fld) : (s.inc f).nrg = s.nrg := rfl
@[simp] theorem State.inc_trg (f : Fld) : (s.inc f).trg = s.trg := rfl
@[simp] theorem State.inc_boot (f : Fld) : (s.inc f).boot = s.boot := rfl
@[simp] theorem State.inc_dbg (f : Fld) : (s.inc f).dbg = s.dbg := rfl

@[simp] theorem State.add_pending (f : Fld) (n : Nat) : (s.add f n).pending = s.pending := rfl
@[simp] theorem State.add_latch (f : Fld) (n : Nat) : (s.add f n).latch = s.latch := rfl
@[simp] theorem State.add_held (f : Fld) (n : Nat) : (s.add f n).held = s.held := rfl
@[simp] theorem State.add_freeCtr (f : Fld) (n : Nat) : (s.add f n).freeCtr = s.freeCtr := rfl
@[simp] theorem State.add_out (f : Fld) (n : Nat) : (s.add f n).out = s.out := rfl
@[simp] theorem State.add_tim (f : Fld) (n : Nat) : (s.add f n).tim = s.tim := rfl
@[simp] theorem State.add_sett (f : Fld) (n : Nat) : (s.add f n).sett = s.sett := rfl
@[simp] theorem State.add_ing (f : Fld) (n : Nat) : (s.add f n).ing = s.ing := rfl
@[simp] theorem State.add_aln (f : Fld) (n : Nat) : (s.add f n).aln = s.aln := rfl
@[simp] theorem State.add_sched (f : Fld) (n : Nat) : (s.add f n).sched = s.sched := rfl
@[simp] theorem State.add_cmd (f : Fld) (n : Nat) : (s.add f n).cmd = s.cmd := rfl
@[simp] theorem State.add_irq (f : Fld) (n : Nat) : (s.add f n).irq = s.irq := rfl
@[simp] theorem State.add_evr (f : Fld) (n : Nat) : (s.add f n).evr = s.evr := rfl
@[simp] theorem State.add_mac (f : Fld) (n : Nat) : (s.add f n).mac = s.mac := rfl
@[simp] theorem State.add_pmu (f : Fld) (n : Nat) : (s.add f n).pmu = s.pmu := rfl
@[simp] theorem State.add_keys (f : Fld) (n : Nat) : (s.add f n).keys = s.keys := rfl
@[simp] theorem State.add_ecc (f : Fld) (n : Nat) : (s.add f n).ecc = s.ecc := rfl
@[simp] theorem State.add_alm (f : Fld) (n : Nat) : (s.add f n).alm = s.alm := rfl
@[simp] theorem State.add_ang (f : Fld) (n : Nat) : (s.add f n).ang = s.ang := rfl
@[simp] theorem State.add_isl (f : Fld) (n : Nat) : (s.add f n).isl = s.isl := rfl
@[simp] theorem State.add_osc (f : Fld) (n : Nat) : (s.add f n).osc = s.osc := rfl
@[simp] theorem State.add_outp (f : Fld) (n : Nat) : (s.add f n).outp = s.outp := rfl
@[simp] theorem State.add_cas (f : Fld) (n : Nat) : (s.add f n).cas = s.cas := rfl
@[simp] theorem State.add_twn (f : Fld) (n : Nat) : (s.add f n).twn = s.twn := rfl
@[simp] theorem State.add_flt (f : Fld) (n : Nat) : (s.add f n).flt = s.flt := rfl
@[simp] theorem State.add_nrg (f : Fld) (n : Nat) : (s.add f n).nrg = s.nrg := rfl
@[simp] theorem State.add_trg (f : Fld) (n : Nat) : (s.add f n).trg = s.trg := rfl
@[simp] theorem State.add_boot (f : Fld) (n : Nat) : (s.add f n).boot = s.boot := rfl
@[simp] theorem State.add_dbg (f : Fld) (n : Nat) : (s.add f n).dbg = s.dbg := rfl

@[simp] theorem State.incSat_pending (f : Fld) : (s.incSat f).pending = s.pending := rfl
@[simp] theorem State.incSat_latch (f : Fld) : (s.incSat f).latch = s.latch := rfl
@[simp] theorem State.incSat_held (f : Fld) : (s.incSat f).held = s.held := rfl
@[simp] theorem State.incSat_freeCtr (f : Fld) : (s.incSat f).freeCtr = s.freeCtr := rfl
@[simp] theorem State.incSat_out (f : Fld) : (s.incSat f).out = s.out := rfl
@[simp] theorem State.incSat_tim (f : Fld) : (s.incSat f).tim = s.tim := rfl
@[simp] theorem State.incSat_sett (f : Fld) : (s.incSat f).sett = s.sett := rfl
@[simp] theorem State.incSat_ing (f : Fld) : (s.incSat f).ing = s.ing := rfl
@[simp] theorem State.incSat_aln (f : Fld) : (s.incSat f).aln = s.aln := rfl
@[simp] theorem State.incSat_sched (f : Fld) : (s.incSat f).sched = s.sched := rfl
@[simp] theorem State.incSat_cmd (f : Fld) : (s.incSat f).cmd = s.cmd := rfl
@[simp] theorem State.incSat_irq (f : Fld) : (s.incSat f).irq = s.irq := rfl
@[simp] theorem State.incSat_evr (f : Fld) : (s.incSat f).evr = s.evr := rfl
@[simp] theorem State.incSat_mac (f : Fld) : (s.incSat f).mac = s.mac := rfl
@[simp] theorem State.incSat_pmu (f : Fld) : (s.incSat f).pmu = s.pmu := rfl
@[simp] theorem State.incSat_keys (f : Fld) : (s.incSat f).keys = s.keys := rfl
@[simp] theorem State.incSat_ecc (f : Fld) : (s.incSat f).ecc = s.ecc := rfl
@[simp] theorem State.incSat_alm (f : Fld) : (s.incSat f).alm = s.alm := rfl
@[simp] theorem State.incSat_ang (f : Fld) : (s.incSat f).ang = s.ang := rfl
@[simp] theorem State.incSat_isl (f : Fld) : (s.incSat f).isl = s.isl := rfl
@[simp] theorem State.incSat_osc (f : Fld) : (s.incSat f).osc = s.osc := rfl
@[simp] theorem State.incSat_outp (f : Fld) : (s.incSat f).outp = s.outp := rfl
@[simp] theorem State.incSat_cas (f : Fld) : (s.incSat f).cas = s.cas := rfl
@[simp] theorem State.incSat_twn (f : Fld) : (s.incSat f).twn = s.twn := rfl
@[simp] theorem State.incSat_flt (f : Fld) : (s.incSat f).flt = s.flt := rfl
@[simp] theorem State.incSat_nrg (f : Fld) : (s.incSat f).nrg = s.nrg := rfl
@[simp] theorem State.incSat_trg (f : Fld) : (s.incSat f).trg = s.trg := rfl
@[simp] theorem State.incSat_boot (f : Fld) : (s.incSat f).boot = s.boot := rfl
@[simp] theorem State.incSat_dbg (f : Fld) : (s.incSat f).dbg = s.dbg := rfl

@[simp] theorem State.put64_pending (lo hi v : Nat) : (s.put64 lo hi v).pending = s.pending := rfl
@[simp] theorem State.put64_latch (lo hi v : Nat) : (s.put64 lo hi v).latch = s.latch := rfl
@[simp] theorem State.put64_held (lo hi v : Nat) : (s.put64 lo hi v).held = s.held := rfl
@[simp] theorem State.put64_freeCtr (lo hi v : Nat) : (s.put64 lo hi v).freeCtr = s.freeCtr := rfl
@[simp] theorem State.put64_out (lo hi v : Nat) : (s.put64 lo hi v).out = s.out := rfl
@[simp] theorem State.put64_tim (lo hi v : Nat) : (s.put64 lo hi v).tim = s.tim := rfl
@[simp] theorem State.put64_sett (lo hi v : Nat) : (s.put64 lo hi v).sett = s.sett := rfl
@[simp] theorem State.put64_ing (lo hi v : Nat) : (s.put64 lo hi v).ing = s.ing := rfl
@[simp] theorem State.put64_aln (lo hi v : Nat) : (s.put64 lo hi v).aln = s.aln := rfl
@[simp] theorem State.put64_sched (lo hi v : Nat) : (s.put64 lo hi v).sched = s.sched := rfl
@[simp] theorem State.put64_cmd (lo hi v : Nat) : (s.put64 lo hi v).cmd = s.cmd := rfl
@[simp] theorem State.put64_irq (lo hi v : Nat) : (s.put64 lo hi v).irq = s.irq := rfl
@[simp] theorem State.put64_evr (lo hi v : Nat) : (s.put64 lo hi v).evr = s.evr := rfl
@[simp] theorem State.put64_mac (lo hi v : Nat) : (s.put64 lo hi v).mac = s.mac := rfl
@[simp] theorem State.put64_pmu (lo hi v : Nat) : (s.put64 lo hi v).pmu = s.pmu := rfl
@[simp] theorem State.put64_keys (lo hi v : Nat) : (s.put64 lo hi v).keys = s.keys := rfl
@[simp] theorem State.put64_ecc (lo hi v : Nat) : (s.put64 lo hi v).ecc = s.ecc := rfl
@[simp] theorem State.put64_alm (lo hi v : Nat) : (s.put64 lo hi v).alm = s.alm := rfl
@[simp] theorem State.put64_ang (lo hi v : Nat) : (s.put64 lo hi v).ang = s.ang := rfl
@[simp] theorem State.put64_isl (lo hi v : Nat) : (s.put64 lo hi v).isl = s.isl := rfl
@[simp] theorem State.put64_osc (lo hi v : Nat) : (s.put64 lo hi v).osc = s.osc := rfl
@[simp] theorem State.put64_outp (lo hi v : Nat) : (s.put64 lo hi v).outp = s.outp := rfl
@[simp] theorem State.put64_cas (lo hi v : Nat) : (s.put64 lo hi v).cas = s.cas := rfl
@[simp] theorem State.put64_twn (lo hi v : Nat) : (s.put64 lo hi v).twn = s.twn := rfl
@[simp] theorem State.put64_flt (lo hi v : Nat) : (s.put64 lo hi v).flt = s.flt := rfl
@[simp] theorem State.put64_nrg (lo hi v : Nat) : (s.put64 lo hi v).nrg = s.nrg := rfl
@[simp] theorem State.put64_trg (lo hi v : Nat) : (s.put64 lo hi v).trg = s.trg := rfl
@[simp] theorem State.put64_boot (lo hi v : Nat) : (s.put64 lo hi v).boot = s.boot := rfl
@[simp] theorem State.put64_dbg (lo hi v : Nat) : (s.put64 lo hi v).dbg = s.dbg := rfl

@[simp] theorem State.emit_pending (o : Out) : (s.emit o).pending = s.pending := rfl
@[simp] theorem State.emit_regs (o : Out) : (s.emit o).regs = s.regs := rfl
@[simp] theorem State.emit_latch (o : Out) : (s.emit o).latch = s.latch := rfl
@[simp] theorem State.emit_held (o : Out) : (s.emit o).held = s.held := rfl
@[simp] theorem State.emit_freeCtr (o : Out) : (s.emit o).freeCtr = s.freeCtr := rfl
@[simp] theorem State.emit_tim (o : Out) : (s.emit o).tim = s.tim := rfl
@[simp] theorem State.emit_sett (o : Out) : (s.emit o).sett = s.sett := rfl
@[simp] theorem State.emit_ing (o : Out) : (s.emit o).ing = s.ing := rfl
@[simp] theorem State.emit_aln (o : Out) : (s.emit o).aln = s.aln := rfl
@[simp] theorem State.emit_sched (o : Out) : (s.emit o).sched = s.sched := rfl
@[simp] theorem State.emit_cmd (o : Out) : (s.emit o).cmd = s.cmd := rfl
@[simp] theorem State.emit_irq (o : Out) : (s.emit o).irq = s.irq := rfl
@[simp] theorem State.emit_evr (o : Out) : (s.emit o).evr = s.evr := rfl
@[simp] theorem State.emit_mac (o : Out) : (s.emit o).mac = s.mac := rfl
@[simp] theorem State.emit_pmu (o : Out) : (s.emit o).pmu = s.pmu := rfl
@[simp] theorem State.emit_keys (o : Out) : (s.emit o).keys = s.keys := rfl
@[simp] theorem State.emit_ecc (o : Out) : (s.emit o).ecc = s.ecc := rfl
@[simp] theorem State.emit_alm (o : Out) : (s.emit o).alm = s.alm := rfl
@[simp] theorem State.emit_ang (o : Out) : (s.emit o).ang = s.ang := rfl
@[simp] theorem State.emit_isl (o : Out) : (s.emit o).isl = s.isl := rfl
@[simp] theorem State.emit_osc (o : Out) : (s.emit o).osc = s.osc := rfl
@[simp] theorem State.emit_outp (o : Out) : (s.emit o).outp = s.outp := rfl
@[simp] theorem State.emit_cas (o : Out) : (s.emit o).cas = s.cas := rfl
@[simp] theorem State.emit_twn (o : Out) : (s.emit o).twn = s.twn := rfl
@[simp] theorem State.emit_flt (o : Out) : (s.emit o).flt = s.flt := rfl
@[simp] theorem State.emit_nrg (o : Out) : (s.emit o).nrg = s.nrg := rfl
@[simp] theorem State.emit_trg (o : Out) : (s.emit o).trg = s.trg := rfl
@[simp] theorem State.emit_boot (o : Out) : (s.emit o).boot = s.boot := rfl
@[simp] theorem State.emit_dbg (o : Out) : (s.emit o).dbg = s.dbg := rfl

/-! ### Reads after writes -/

@[simp] theorem State.emit_out (o : Out) : (s.emit o).out = s.out ++ [o] := rfl
@[simp] theorem State.emit_rd (o : Out) (a : Nat) : (s.emit o).rd a = s.rd a := rfl
@[simp] theorem State.emit_get (o : Out) (f : Fld) : (s.emit o).get f = s.get f := rfl
@[simp] theorem State.emit_flag (o : Out) (f : Fld) : (s.emit o).flag f = s.flag f := rfl

@[simp] theorem State.rd_wr_self (a : Nat) (v : Dword) : (s.wr a v).rd a = v := mgetD_mstore_self _ _ _ _

theorem State.rd_wr_ne {a b : Nat} (v : Dword) (h : b ≠ a) : (s.wr a v).rd b = s.rd b := mgetD_mstore_ne _ _ _ h

/-- A field that lies in one dword. -/
abbrev Fld.ok (f : Fld) : Prop := f.lo ≤ f.hi ∧ f.hi < 32

theorem State.rd_set_ne {f : Fld} {b : Nat} (x : Nat) (h : b ≠ f.addr) : (s.set f x).rd b = s.rd b := s.rd_wr_ne _ h

theorem State.rd_set_toNat {f : Fld} (x : Nat) (h : f.ok) :
    ((s.set f x).rd f.addr).toNat = setBits (s.rd f.addr).toNat f.hi f.lo x := by
  have := setBits_lt (s.rd f.addr).toNat x h.1 h.2 (s.rd f.addr).isLt
  simp only [State.set, State.rd_wr_self, BitVec.toNat_ofNat]
  exact Nat.mod_eq_of_lt this

/-- A field reads as what was put into it. -/
theorem State.get_set_self {f : Fld} (x : Nat) (h : f.ok) : (s.set f x).get f = x % 2 ^ (f.hi - f.lo + 1) := by
  rw [State.get, s.rd_set_toNat x h, bits_setBits_self _ _ h.1]

/-- A field of another register stays. -/
theorem State.get_set_ne {f g : Fld} (x : Nat) (h : g.addr ≠ f.addr) : (s.set f x).get g = s.get g := by
  rw [State.get, s.rd_set_ne x h, State.get]

/-- Another field of the same register stays. -/
theorem State.get_set_other {f g : Fld} (x : Nat) (h : f.ok) (hg : g.lo ≤ g.hi) (ha : g.addr = f.addr) (hd : g.hi < f.lo ∨ f.hi < g.lo) :
    (s.set f x).get g = s.get g := by
  rw [State.get, ha, s.rd_set_toNat x h, State.get, ha]
  rcases hd with hd | hd
  · exact bits_setBits_below _ _ h.1 hg hd
  · exact bits_setBits_above _ _ h.1 hd

theorem State.flag_setB_self {f : Fld} (b : Bool) (h : f.ok) (h1 : f.hi = f.lo) : (s.setB f b).flag f = b := by
  rw [State.flag, State.setB, s.get_set_self _ h, h1]
  cases b <;> simp [b2n]

theorem State.flag_set_ne {f g : Fld} (x : Nat) (h : g.addr ≠ f.addr) : (s.set f x).flag g = s.flag g := by
  rw [State.flag, s.get_set_ne x h, State.flag]

theorem State.flag_setB_ne {f g : Fld} (b : Bool) (h : g.addr ≠ f.addr) : (s.setB f b).flag g = s.flag g := s.flag_set_ne _ h

theorem State.get_inc_self {f : Fld} (h : f.ok) : (s.inc f).get f = (s.get f + 1) % 2 ^ (f.hi - f.lo + 1) := s.get_set_self _ h

theorem State.get_add_self {f : Fld} (n : Nat) (h : f.ok) : (s.add f n).get f = (s.get f + n) % 2 ^ (f.hi - f.lo + 1) :=
  s.get_set_self _ h

theorem State.get_lt {f : Fld} : s.get f < 2 ^ (f.hi - f.lo + 1) := bits_lt _ _ _

/-- The register store keeps its canonical form. -/
theorem State.wr_canon (a : Nat) (v : Dword) (h : mcanon 0 s.regs = true) : mcanon 0 (s.wr a v).regs = true := mcanon_mstore a v h

theorem State.set_canon (f : Fld) (x : Nat) (h : mcanon 0 s.regs = true) : mcanon 0 (s.set f x).regs = true := s.wr_canon _ _ h

end Sys2Proof.Machine
end

