-- ==== Sys2Proof/Laws/Logs.lean ====
section
/-!
SUPPORT. Sys2Proof/Laws/Logs.lean: what raising interrupts, logging events and keeping the alarm pins can do to a state, said once (`Logs`); that
every shared operation of Machine/Ops.lean which logging uses does no more; and what follows from it.
-/
namespace Sys2Proof.Machine

/-- Is it one of the PEND registers. -/
def isPend (a : Nat) : Bool := decide (0x100010 ≤ a) && decide (a < 0x100020)

/-- Is it a register of the alarm port or of the unit's health. -/
def almReg (a : Nat) : Bool := a == R.ANG_ALMSTAT || a == R.ANG_ASPCNT || a == R.ANG_ASPSUM || a == R.TWN_FAULT || a == R.TWN_STAT

/-- The registers that logging writes, but PEND; those of the alarm port and the unit's health only where `al`. -/
def logOnly (al : Bool) (a : Nat) : Bool := logReg a && !isPend a && (!almReg a || al)

/-- t follows from s by raises, logging and, where `al`, by the alarm pins and the unit's health following their causes. -/
inductive Logs (al : Bool) (s : State) : State → Prop where
  | refl : Logs al s s
  | wr {t : State} (h : Logs al s t) (a : Nat) (v : Dword) (ha : logOnly al a = true) : Logs al s (t.wr a v)
  | pend {t : State} (h : Logs al s t) (n : Nat) (hn : n < 128) : Logs al s (t.setB (bitFld R.IRQ_PEND n) true)
  | sett_ {t : State} (h : Logs al s t) (x : Sett) (hx : x.quiet = t.sett.quiet) : Logs al s { t with sett := x }
  | irq_ {t : State} (h : Logs al s t) (x : Irq) (hx : x.quiet = t.irq.quiet) : Logs al s { t with irq := x }
  | evr_ {t : State} (h : Logs al s t) (x : Evr) (hx : x.quiet = t.evr.quiet) : Logs al s { t with evr := x }
  | alm_ {t : State} (h : Logs al s t) (x : Alm) (hx : x.quiet = t.alm.quiet) (ha : al = true) : Logs al s { t with alm := x }
  | twn_ {t : State} (h : Logs al s t) (x : Twn) (hx : x.quiet = t.twn.quiet) (ha : al = true) : Logs al s { t with twn := x }
  | freeCtr {t : State} (h : Logs al s t) (n : Nat) (hn : t.freeCtr ≤ n) : Logs al s { t with freeCtr := n }

variable {al : Bool} {s t : State}

theorem Logs.set (h : Logs al s t) (f : Fld) (x : Nat) (ha : logOnly al f.addr = true) : Logs al s (t.set f x) := h.wr _ _ ha
theorem Logs.setB (h : Logs al s t) (f : Fld) (b : Bool) (ha : logOnly al f.addr = true) : Logs al s (t.setB f b) := h.wr _ _ ha
theorem Logs.inc (h : Logs al s t) (f : Fld) (ha : logOnly al f.addr = true) : Logs al s (t.inc f) := h.wr _ _ ha
theorem Logs.add (h : Logs al s t) (f : Fld) (n : Nat) (ha : logOnly al f.addr = true) : Logs al s (t.add f n) := h.wr _ _ ha
theorem Logs.incSat (h : Logs al s t) (f : Fld) (ha : logOnly al f.addr = true) : Logs al s (t.incSat f) := h.wr _ _ ha

theorem Logs.ite {c : Prop} [Decidable c] {a b : State} (ha : Logs al s a) (hb : Logs al s b) : Logs al s (if c then a else b) := by
  split <;> assumption

/-- A fold of an operation that does no more. -/
theorem Logs.foldl {α : Type} (f : State → α → State) (l : List α) (h : Logs al s t) (hf : ∀ u a, Logs al s u → Logs al s (f u a)) :
    Logs al s (l.foldl f t) := by
  induction l generalizing t with
  | nil => exact h
  | cons a l ih => exact ih (hf t a h)

/-- A fold that carries other data beside the state. -/
theorem Logs.foldlP {α β : Type} (g : β → State) (f : β → α → β) (l : List α) (b : β) (h : Logs al s (g b))
    (hf : ∀ u a, Logs al s (g u) → Logs al s (g (f u a))) : Logs al s (g (l.foldl f b)) := by
  induction l generalizing b with
  | nil => exact h
  | cons a l ih => exact ih (f b a) (hf b a h)

/-! ### Raises (R424, R426) -/

theorem logOnly_of {a : Nat} (h : logReg a = true) (hp : isPend a = false) (ha : almReg a = false) : logOnly al a = true := by
  simp [logOnly, h, hp, ha]

theorem almReg_false {a : Nat} (h : a ≠ R.ANG_ALMSTAT ∧ a ≠ R.ANG_ASPCNT ∧ a ≠ R.ANG_ASPSUM ∧ a ≠ R.TWN_FAULT ∧ a ≠ R.TWN_STAT) :
    almReg a = false := by simp [almReg, h]

theorem logOnly_range {a lo hi : Nat} (hl : lo ≤ a) (hh : a < hi) (h : logReg a = true) (h1 : 0x100020 ≤ lo ∨ hi ≤ 0x100010)
    (h2 : hi ≤ R.ANG_ALMSTAT ∨ R.TWN_FAULT < lo) : logOnly al a = true := by
  refine logOnly_of h ?_ (almReg_false ?_)
  · simp [isPend]; omega
  · simp only [R.ANG_ALMSTAT, R.ANG_ASPCNT, R.ANG_ASPSUM, R.TWN_FAULT, R.TWN_STAT] at h2 ⊢; omega

theorem logOnly_due {n : Nat} (h : n < 128) : logOnly al (bitFld R.IRQ_DUE n).addr = true := by
  have : n / 32 < 4 := by omega
  have h1 : 0x100030 ≤ (bitFld R.IRQ_DUE n).addr := by show 0x100030 ≤ 0x100030 + 4 * (n / 32); omega
  have h2 : (bitFld R.IRQ_DUE n).addr < 0x100040 := by show 0x100030 + 4 * (n / 32) < 0x100040; omega
  exact logOnly_range h1 h2 (by simp [logReg, h1, h2]) (by decide) (by decide)

theorem logOnly_occ {n : Nat} (h : n < 128) : logOnly al (occFld n).addr = true := by
  have : n / 2 < 64 := by omega
  have h1 : 0x100500 ≤ (occFld n).addr := by
    unfold occFld; split <;> (show 0x100500 ≤ 0x100500 + 4 * (n / 2); omega)
  have h2 : (occFld n).addr < 0x100600 := by
    unfold occFld; split <;> (show 0x100500 + 4 * (n / 2) < 0x100600; omega)
  exact logOnly_range h1 h2 (by simp [logReg, h1, h2]) (by decide) (by decide)

theorem Logs.raiseOn (h : Logs al s t) {n : Nat} (hn : n < 128) (a b : Bool) : Logs al s (t.raiseOn n a b) := by
  have h1 := h.inc (occFld n) (logOnly_occ hn)
  have h2 := (h1.pend n hn).setB (bitFld R.IRQ_DUE n) true (logOnly_due hn)
  unfold State.raiseOn
  cases a <;> cases b
  · exact h1
  · exact h1.irq_ _ (by rfl)
  · exact h2.irq_ _ (by rfl)
  · exact (h2.irq_ _ (by rfl)).irq_ _ (by rfl)

theorem Logs.raise (h : Logs al s t) {n : Nat} (hn : n < 128) : Logs al s (t.raise n) := h.raiseOn hn _ _

theorem Logs.raiseQueue (h : Logs al s t) (q : Nat) : Logs al s (t.raiseQueue q) := by
  unfold State.raiseQueue
  exact Logs.ite (h.raiseOn (by split <;> decide) _ _) (h.raiseOn (by split <;> decide) _ _)

theorem Logs.raise81 (h : Logs al s t) : Logs al s t.raise81 := by
  unfold State.raise81
  exact h.raiseOn (by decide) _ _

/-! ### Events (R438, R439) -/

theorem mget_mem {α : Type} {m : List (Nat × α)} {k : Nat} {v : α} (h : mget m k = some v) : (k, v) ∈ m := by
  induction m with
  | nil => cases h
  | cons p l ih =>
    obtain ⟨j, w⟩ := p
    simp only [mget] at h
    split at h
    · rename_i hj
      cases h
      simp at hj
      simp [hj]
    · exact List.mem_cons_of_mem _ (ih h)

theorem evSource_lt {c n : Nat} (h : evSource c = some n) : n < 128 := by
  have hall : ∀ p ∈ evTable, p.2 < 128 := by decide +kernel
  exact hall _ (mget_mem h)

theorem Logs.evBut (h : Logs al s t) {c : Nat} (hc : al = true ∨ c ≠ Ev.UNCORR) (i : Nat) (args : List (Nat × Nat)) :
    Logs al s (t.ev c i args) := by
  unfold State.ev
  have h1 : Logs al s (match evSource c with | some n => t.raise n | none => t) := by
    split
    · rename_i n hn; exact h.raise (evSource_lt hn)
    · exact h
  dsimp only
  refine Logs.evr_ ?_ _ (by rfl)
  split
  · rename_i hu
    rcases hc with hc | hc
    · exact h1.twn_ _ (by rfl) hc
    · simp at hu; exact absurd hu hc
  · exact h1

theorem Logs.ev (h : Logs true s t) (c i : Nat) (args : List (Nat × Nat)) : Logs true s (t.ev c i args) := h.evBut (.inl rfl) i args

theorem Logs.ev0 (h : Logs true s t) (c : Nat) : Logs true s (t.ev0 c) := h.ev c 0 []

/-! ### Pages (R103 to R110) -/

theorem logOnly_peak {c : Nat} (h : c < 8) : logOnly al (F.SET_USE_PEAK.at (4 * c)).addr = true := by
  have h1 : 0x40060 ≤ (F.SET_USE_PEAK.at (4 * c)).addr := by show 0x40060 ≤ 0x40060 + 4 * c; omega
  have h2 : (F.SET_USE_PEAK.at (4 * c)).addr < 0x400A0 := by show 0x40060 + 4 * c < 0x400A0; omega
  exact logOnly_range h1 h2 (by simp [logReg, h1, h2]) (by decide) (by decide)

theorem logOnly_fail {c : Nat} (h : c < 8) : logOnly al (F.SET_FAIL_COUNT.at (4 * c)).addr = true := by
  have h1 : 0x40060 ≤ (F.SET_FAIL_COUNT.at (4 * c)).addr := by show 0x40060 ≤ 0x40080 + 4 * c; omega
  have h2 : (F.SET_FAIL_COUNT.at (4 * c)).addr < 0x400A0 := by show 0x40080 + 4 * c < 0x400A0; omega
  exact logOnly_range h1 h2 (by simp [logReg, h1, h2]) (by decide) (by decide)

theorem Logs.peak (h : Logs al s t) {c : Nat} (hc : c < 8) : Logs al s (t.peak c) :=
  Logs.ite (h.set _ _ (logOnly_peak hc)) h

theorem Logs.takePage (h : Logs al s t) {c : Nat} (hc : c < 8) (ws : List SWord) (hs : List Holder) :
    Logs al s (t.takePage c ws hs).2 :=
  Logs.peak ((h.freeCtr (t.freeCtr + 1) (Nat.le_succ _)).sett_ { t.sett with
    pages := mput t.sett.pages t.sett.nextId ⟨t.pickPhys, c, ws, hs, false⟩, nextId := t.sett.nextId + 1, lastPhys := some t.pickPhys }
    (by rfl)) hc

theorem Logs.allocFail (h : Logs al s t) {c : Nat} (hc : c < 8) : Logs al s (t.allocFail c) := by
  have h1 := h.inc (F.SET_FAIL_COUNT.at (4 * c)) (logOnly_fail hc)
  unfold State.allocFail
  dsimp only
  split
  · exact Logs.ite ((h1.sett_ _ (by rfl)).evBut (.inr (by decide)) 0 []) h1
  · exact (h1.sett_ _ (by rfl)).evBut (.inr (by decide)) 0 []

theorem Logs.alloc (h : Logs al s t) {c : Nat} (hc : c < 8) (ws : List SWord) (hs : List Holder) :
    Logs al s (t.alloc c ws hs).2 := by
  unfold State.alloc
  split
  · exact h.takePage hc ws hs
  · exact h.allocFail hc

theorem Logs.modPage (h : Logs al s t) (id : Nat) (f : Page → Page) : Logs al s (t.modPage id f) := by
  unfold State.modPage
  split
  · exact h
  · exact h.sett_ _ (by rfl)

theorem Logs.freePage (h : Logs al s t) (id : Nat) : Logs al s (t.freePage id) := h.sett_ _ (by rfl)

theorem Logs.holdPage (h : Logs al s t) (id : Nat) (x : Holder) : Logs al s (t.holdPage id x) := h.modPage _ _

theorem Logs.dropHold (h : Logs al s t) (x : Holder) (id : Nat) : Logs al s (t.dropHold x id) := by
  unfold State.dropHold
  split
  · exact h
  · exact Logs.ite (Logs.ite (h.freePage _) (h.modPage _ _)) h

theorem Logs.dropHolds (h : Logs al s t) (x : Holder) (ids : List Nat) : Logs al s (t.dropHolds x ids) :=
  Logs.foldl _ _ h fun _ _ k => k.dropHold _ _

/-! ### Host queues (R117, R118, R534) -/

theorem logOnly_hq {q o : Nat} (h : q < 16) (ho : o = 0x0C ∨ o = 0x24 ∨ o = 0x2C) : logOnly al (0x41000 + o + 0x80 * q) = true := by
  have h1 : 0x41000 ≤ 0x41000 + o + 0x80 * q := by omega
  have h2 : 0x41000 + o + 0x80 * q < 0x41800 := by omega
  have h3 : (0x41000 + o + 0x80 * q) % 0x80 = o := by omega
  have h4 : ((0x41000 + o + 0x80 * q) % 0x80 == 0x0C || (0x41000 + o + 0x80 * q) % 0x80 == 0x24 ||
      (0x41000 + o + 0x80 * q) % 0x80 == 0x2C) = true := by rw [h3]; rcases ho with rfl | rfl | rfl <;> rfl
  exact logOnly_range h1 h2 (by unfold logReg; rw [h4]; simp [h1, h2]) (by decide) (by decide)

theorem Logs.setHq (h : Logs al s t) (q : Nat) (x : HostQ) : Logs al s (t.setHq q x) := h.sett_ _ (by rfl)

theorem Logs.hqPend (h : Logs al s t) (q : Nat) : Logs al s (t.hqPend q) :=
  (h.setB _ _ (by rfl)).raiseQueue q

theorem Logs.hqPush (h : Logs al s t) {q : Nat} (hq : q < 16) (p : Pkt) : Logs al s (t.hqPush q p) := by
  unfold State.hqPush
  have h1 : Logs al s (p.pages.foldl (fun s id => s.holdPage id (.queue q)) (t.setHq q
      { t.hq q with pkts := (t.hq q).pkts ++ [p], leaseAt := if (t.hq q).pkts.isEmpty then t.now else (t.hq q).leaseAt })) :=
    Logs.foldl _ _ (h.setHq _ _) fun _ _ k => k.holdPage _ _
  have h2 := h1.inc (F.SET_HQ_PKTIN_PKTIN.at (0x80 * q)) (by
    have : (F.SET_HQ_PKTIN_PKTIN.at (0x80 * q)).addr = 0x41000 + 0x24 + 0x80 * q := rfl
    rw [this]; exact logOnly_hq hq (by simp))
  exact Logs.ite (h2.hqPend q) h2

theorem Logs.hqRefuse (h : Logs al s t) {q : Nat} (hq : q < 16) : Logs al s (t.hqRefuse q) := by
  refine ((h.incSat _ ?_).setB _ _ ?_).evBut (.inr (by decide)) 0 []
  · have : (F.SET_HQ_DROP_OVERRUN.at (0x80 * q)).addr = 0x41000 + 0x2C + 0x80 * q := rfl
    rw [this]; exact logOnly_hq hq (by simp)
  · have : (F.SET_HQ_STAT_OVERRUN.at (0x80 * q)).addr = 0x41000 + 0x0C + 0x80 * q := rfl
    rw [this]; exact logOnly_hq hq (by simp)

theorem Logs.hqOffer (h : Logs al s t) {q : Nat} (hq : q < 16) (p : Pkt) (c : Bool) : Logs al s (t.hqOffer q p c).1 := by
  unfold State.hqOffer
  dsimp only
  have h1 : Logs al s (if c = true then p.pages.foldl (fun s id => s.modPage id fun g =>
      if g.cls == 2 then g else { g with reserved := true }) t else t) :=
    Logs.ite (Logs.foldl _ _ h fun _ _ k => k.modPage _ _) h
  rw [apply_ite Prod.fst]
  exact Logs.ite (h1.hqPush hq p) (h.hqRefuse hq)

theorem Logs.offerRefs (h : Logs al s t) (p : Pkt) (c : Bool) (pre : State → Nat → Bool) : Logs al s (t.offerRefs p c pre) := by
  unfold State.offerRefs
  suffices ∀ l : List Nat, (∀ q ∈ l, q < 16) → ∀ t, Logs al s t → Logs al s (l.foldl (fun s q =>
      if s.hqSelects q (2 ^ p.src) && pre s q then (s.hqOffer q p c).1 else s) t) from
    this _ (fun q hq => List.mem_range.mp hq) t h
  intro l
  induction l with
  | nil => exact fun _ t h => h
  | cons q l ih =>
    intro hl t h
    exact ih (fun q hq => hl q (by simp [hq])) _ (Logs.ite (h.hqOffer (hl q (by simp)) p c) h)

theorem Logs.foldlMem {α : Type} (f : State → α → State) (l : List α) (h : Logs al s t)
    (hf : ∀ u, ∀ a ∈ l, Logs al s u → Logs al s (f u a)) : Logs al s (l.foldl f t) := by
  induction l generalizing t with
  | nil => exact h
  | cons a l ih => exact ih (hf t a (by simp) h) fun u b hb => hf u b (by simp [hb])

theorem Logs.offerCopy (h : Logs al s t) (src m : Nat) (recs : List (Nat × List SWord)) :
    Logs al s (t.offerCopy src m recs) := by
  unfold State.offerCopy
  dsimp only
  set sel := (List.range 16).filter fun q => t.hqSelects q m with hsel
  have hlt : ∀ q ∈ sel, q < 16 := fun q hq => List.mem_range.mp (List.mem_of_mem_filter hq)
  have h1 : ∀ (f : Nat → Bool), Logs al s (sel.foldl (fun s q => if f q then s else s.hqRefuse q) t) := fun f =>
    Logs.foldlMem _ _ h fun u q hq k => Logs.ite k (k.hqRefuse (hlt q hq))
  have h2 : ∀ (f : Nat → Bool) (b : Bool), Logs al s (if b = true then
      (sel.foldl (fun s q => if f q then s else s.hqRefuse q) t).allocFail 2 else
      sel.foldl (fun s q => if f q then s else s.hqRefuse q) t) := fun f _ =>
    Logs.ite ((h1 f).allocFail (by decide)) (h1 f)
  generalize (t.flag F.SET_CTRL_EN && decide ((packPages recs).length ≤ t.freeCount) && t.hostqTakes (packPages recs).length) = room
  refine Logs.ite (h2 _ _) ?_
  refine Logs.foldlMem _ _ ?_ fun u q hq k => k.hqPush (hlt q ?_) _
  · refine Logs.foldlP (β := State × List Ref × List Nat) (fun x => x.1) _ _ _ (h2 _ _) fun u g k => ?_
    exact k.takePage (by decide) _ _
  · cases room
    · cases hq
    · exact List.mem_of_mem_filter hq

theorem Logs.hqFlush (h : Logs al s t) {q : Nat} (hq : q < 16) : Logs al s (t.hqFlush q) := by
  refine ((h.dropHolds _ _).set _ _ ?_).setHq _ _
  have : (F.SET_HQ_DROP_FLUSHED.at (0x80 * q)).addr = 0x41000 + 0x2C + 0x80 * q := rfl
  rw [this]; exact logOnly_hq hq (by simp)

/-! ### The alarm outputs (R170 to R173) -/

theorem Logs.almRise (h : Logs true s t) (n : Nat) : Logs true s (t.almRise n) := by
  unfold State.almRise
  split
  · exact h.setB _ _ (by rfl)
  · exact Logs.ite h (h.alm_ _ (by rfl) rfl)
  · exact h

theorem Logs.almSync (h : Logs true s t) : Logs true s t.almSync := by
  unfold State.almSync
  dsimp only
  have h1 : Logs true s (if (t.aspWord0 == t.alm.word0 && t.almGroups == t.alm.groups) = true then t
      else ({ t with alm := { t.alm with word0 := t.aspWord0, groups := t.almGroups } }.inc F.ANG_ASPCNT_WORD).set
        F.ANG_ASPSUM_WORD t.aspWord0) :=
    Logs.ite h (((h.alm_ _ (by rfl) rfl).inc _ (by rfl)).set _ _
      (by rfl))
  have h2 : ∀ (l : List Nat) (v : State), Logs true s v → Logs true s (l.foldl (fun s n => s.almRise n) v) :=
    fun l v k => Logs.foldl _ _ k fun _ _ k => k.almRise _
  refine Logs.ite ?_ (Logs.set ?_ _ _ (by rfl))
  all_goals exact Logs.ite (h2 _ _ h1) ((h2 _ _ h1).alm_ _ (by rfl) rfl)

/-! ### Logging (R438 to R443) -/

theorem Logs.evrSync (h : Logs al s t) : Logs al s t.evrSync :=
  (h.set _ _ (by rfl)).set _ _ (by rfl)

theorem Logs.ringAppend (h : Logs al s t) (q : Nat) (ws : List SWord) (id : Nat) : Logs al s (t.ringAppend q ws id) := by
  unfold State.ringAppend
  split
  · exact h
  · exact ((h.modPage _ _).evr_ _ (by rfl)).raise (by decide)

theorem Logs.ringStore (h : Logs al s t) (q : Nat) (ws : List SWord) : Logs al s (t.ringStore q ws) := by
  unfold State.ringStore
  dsimp only
  generalize hx : (if t.evr.pages.length < t.evr.size then t.alloc 4 [] [.ring] else (none, t)) = r
  have hr : Logs al s r.2 := by
    rw [← hx, apply_ite Prod.snd]
    exact Logs.ite (h.alloc (by decide) _ _) h
  clear hx
  split
  · exact h
  · split
    · exact h.ringAppend _ _ _
    · split
      · exact Logs.ringAppend (hr.evr_ _ (by rfl)) _ _ _
      · split
        · exact Logs.inc (hr.evr_ _ (by rfl)) _ (by rfl)
        · split
          · exact hr
          · exact Logs.ringAppend (Logs.evr_ ((hr.add _ _ (by rfl)).modPage _ _) _ (by rfl)) _ _ _

theorem Logs.mirrorWrite (h : Logs al s t) (e : PendEv) (q o : Nat) : Logs al s (t.mirrorWrite e q o) :=
  ((((h.evr_ _ (by rfl)).set _ _ (by rfl)).set _ _ (by rfl)).inc _
    (by rfl))

theorem Logs.takeToken (h : Logs al s t) (c : Nat) : Logs al s (t.takeToken c) := h.evr_ _ (by rfl)

theorem Logs.logRecord (h : Logs al s t) (e : PendEv) (o : Nat) : Logs al s (t.logRecord e o) := by
  unfold State.logRecord
  refine Logs.evrSync ?_
  have h1 := (((h.set F.EVR_SEQ_SEQ (t.get F.EVR_SEQ_SEQ + 1) (by rfl)).evr_
    { (t.set F.EVR_SEQ_SEQ (t.get F.EVR_SEQ_SEQ + 1)).evr with
      supp := merase (t.set F.EVR_SEQ_SEQ (t.get F.EVR_SEQ_SEQ + 1)).evr.supp e.code } rfl).offerCopy 7
    (if e.code == Ev.SET_SKIP then 2 ^ 7 + 2 ^ 9 else 2 ^ 7)
    [(e.sidx, t.eventWords e (t.get F.EVR_SEQ_SEQ) (mgetD t.evr.supp e.code 0) o)]).ringStore (t.get F.EVR_SEQ_SEQ)
    (t.eventWords e (t.get F.EVR_SEQ_SEQ) (mgetD t.evr.supp e.code 0) o)
  exact Logs.ite (h1.mirrorWrite _ _ _) h1

theorem Logs.logOne (h : Logs al s t) (f : Nat → Nat) (e : PendEv) : Logs al s (t.logOne f e) := by
  unfold State.logOne
  split
  · exact h.logRecord _ _
  · exact Logs.ite ((h.evr_ _ (by rfl)).inc _ (by rfl)) ((h.takeToken _).logRecord _ _)

theorem Logs.healthSync (h : Logs true s t) : Logs true s t.healthSync := by
  unfold State.healthSync
  dsimp only
  have h1 : Logs true s (if (t.get F.TWN_FAULT_FAULT == t.twnFaults) = true then t else t.set F.TWN_FAULT_FAULT t.twnFaults) :=
    Logs.ite h (h.set _ _ (by rfl))
  exact Logs.ite h (Logs.ite h1 ((h1.setB _ _ (by rfl)).ev0 _))

theorem Logs.holdLog (h : Logs al s t) (es : List PendEv) : Logs al s (t.holdLog es) :=
  Logs.foldl _ _ h fun _ _ k =>
    Logs.ite ((k.set _ _ (by rfl)).mirrorWrite _ _ _) k

theorem Logs.logAll (h : Logs al s t) (es : List PendEv) : Logs al s (t.logAll es) := by
  unfold State.logAll
  split
  · exact h.holdLog es
  · split
    · exact Logs.foldl _ _ h fun _ _ k => k.logOne _ _
    · exact h.evr_ _ (by rfl)

/-- What the end of every command does. -/
theorem Logs.drain (h : Logs true s t) : Logs true s t.drain := (h.healthSync.almSync.evr_ _ (by rfl)).logAll _

/-- The end of every command, after the pins and the unit's health have followed their causes. -/
theorem Logs.drain_rest (s : State) : Logs false s.healthSync.almSync s.drain := (Logs.refl.evr_ _ (by rfl)).logAll _

/-! ### What follows -/

theorem Logs.logReg_of {a : Nat} (h : logReg a = false) : logOnly al a = false := by simp [logOnly, h]

theorem pend_logReg {n : Nat} (h : n < 128) : logReg (bitFld R.IRQ_PEND n).addr = true := by
  have : n / 32 < 4 := by omega
  have h1 : 0x100010 ≤ (bitFld R.IRQ_PEND n).addr := by show 0x100010 ≤ 0x100010 + 4 * (n / 32); omega
  have h2 : (bitFld R.IRQ_PEND n).addr < 0x100020 := by show 0x100010 + 4 * (n / 32) < 0x100020; omega
  simp [logReg, h1, h2]

theorem pend_isPend {n : Nat} (h : n < 128) : isPend (bitFld R.IRQ_PEND n).addr = true := by
  have : n / 32 < 4 := by omega
  have h1 : 0x100010 ≤ (bitFld R.IRQ_PEND n).addr := by show 0x100010 ≤ 0x100010 + 4 * (n / 32); omega
  have h2 : (bitFld R.IRQ_PEND n).addr < 0x100020 := by show 0x100010 + 4 * (n / 32) < 0x100020; omega
  simp [isPend, h1, h2]

theorem pend_ok (n : Nat) : (bitFld R.IRQ_PEND n).ok := by
  show n % 32 ≤ n % 32 ∧ n % 32 < 32
  omega

theorem Logs.pending (h : Logs al s t) : t.pending = s.pending := by induction h <;> first | rfl | assumption
theorem Logs.tim (h : Logs al s t) : t.tim = s.tim := by induction h <;> first | rfl | assumption
theorem Logs.out (h : Logs al s t) : t.out = s.out := by induction h <;> first | rfl | assumption
theorem Logs.free (h : Logs al s t) : s.freeCtr ≤ t.freeCtr := by
  induction h with
  | refl => exact Nat.le_refl _
  | freeCtr h n hn ih => exact Nat.le_trans ih hn
  | _ => assumption

theorem Logs.canon (h : Logs al s t) (k : RegsCanon s) : RegsCanon t := by
  induction h with
  | refl => exact k
  | wr h a v ha ih => exact mcanon_mstore _ _ ih
  | pend h n hn ih => exact mcanon_mstore _ _ ih
  | _ => assumption

theorem Logs.parts (h : Logs al s t) (p : Part) : p.same s t := by
  induction h with
  | refl => cases p <;> rfl
  | sett_ h x hx ih => cases p <;> first | exact hx.trans ih | exact ih
  | irq_ h x hx ih => cases p <;> first | exact hx.trans ih | exact ih
  | evr_ h x hx ih => cases p <;> first | exact hx.trans ih | exact ih
  | alm_ h x hx ha ih => cases p <;> first | exact hx.trans ih | exact ih
  | twn_ h x hx ha ih => cases p <;> first | exact hx.trans ih | exact ih
  | wr h a v ha ih => cases p <;> exact ih
  | pend h n hn ih => cases p <;> exact ih
  | freeCtr h n hn ih => cases p <;> exact ih

theorem Logs.rd (h : Logs al s t) {a : Nat} (ha : logOnly al a = false) (hp : isPend a = false) : t.rd a = s.rd a := by
  induction h with
  | refl => rfl
  | wr h b v hb ih => exact (State.rd_wr_ne _ v fun e => by simp [e, hb] at ha).trans ih
  | pend h n hn ih =>
    exact (State.rd_wr_ne _ _ fun e => by rw [e, pend_isPend hn] at hp; exact absurd hp (by simp)).trans ih
  | _ => assumption

theorem isPend_log {a : Nat} (h : logReg a = false) : isPend a = false := by
  cases hp : isPend a
  · rfl
  · simp [isPend] at hp
    simp [logReg, hp] at h

/-- Logging changes no more than a frame leaves to it. -/
theorem Logs.frame (h : Logs al s t) : Frame [] noRegs s t :=
  ⟨h.pending, fun p _ => h.parts p, fun _ _ hl => h.rd (Logs.logReg_of hl) (isPend_log hl)⟩

/-- Without the alarm outputs: the alarm logic, the unit's health and their registers stay. -/
theorem Logs.alm (h : Logs false s t) : t.alm = s.alm := by
  induction h with
  | alm_ h x hx ha ih => cases ha
  | refl => rfl
  | _ => assumption

theorem Logs.twn (h : Logs false s t) : t.twn = s.twn := by
  induction h with
  | twn_ h x hx ha ih => cases ha
  | refl => rfl
  | _ => assumption

theorem Logs.almReg (h : Logs false s t) {a : Nat} (ha : almReg a = true) (hp : isPend a = false) : t.rd a = s.rd a :=
  h.rd (by simp [logOnly, ha]) hp

/-- A pending bit stays set. -/
theorem Logs.pendKeep (h : Logs al s t) {n : Nat} (hn : n < 128) (k : s.flag (bitFld R.IRQ_PEND n) = true) :
    t.flag (bitFld R.IRQ_PEND n) = true := by
  induction h with
  | refl => exact k
  | @wr u h a v ha ih =>
    have : (bitFld R.IRQ_PEND n).addr ≠ a := fun e => by
      rw [← e] at ha
      simp [logOnly, pend_isPend hn] at ha
    rw [State.flag, State.get, State.rd_wr_ne _ v this]
    exact ih
  | @pend u h m hm ih =>
    by_cases e : n = m
    · subst e; exact State.flag_setB_self _ _ (pend_ok n) rfl
    · by_cases ea : (bitFld R.IRQ_PEND n).addr = (bitFld R.IRQ_PEND m).addr
      · have hd : n % 32 < m % 32 ∨ m % 32 < n % 32 := by
          have : R.IRQ_PEND + 4 * (n / 32) = R.IRQ_PEND + 4 * (m / 32) := ea
          omega
        rw [State.flag, State.setB, State.get_set_other u _ (pend_ok m) (by exact Nat.le_refl _) ea hd]
        exact ih
      · rw [State.flag_setB_ne _ _ ea]
        exact ih
  | _ => assumption

theorem State.raise_pend (s : State) {n : Nat} (_ : n < 128) : (s.raise n).flag (bitFld R.IRQ_PEND n) = true := by
  have hd : (bitFld R.IRQ_PEND n).addr ≠ (bitFld R.IRQ_DUE n).addr := by
    show 0x100010 + 4 * (n / 32) ≠ 0x100030 + 4 * (n / 32)
    omega
  have h : ∀ u v : State, v.regs = ((u.setB (bitFld R.IRQ_PEND n) true).setB (bitFld R.IRQ_DUE n) true).regs →
      v.flag (bitFld R.IRQ_PEND n) = true := fun u v e => by
    have e' : v.flag (bitFld R.IRQ_PEND n) = ((u.setB (bitFld R.IRQ_PEND n) true).setB (bitFld R.IRQ_DUE n) true).flag (bitFld R.IRQ_PEND n) := by
      simp only [State.flag, State.get, State.rd, e]
    rw [e', State.flag_setB_ne _ _ hd, State.flag_setB_self _ _ (pend_ok n) rfl]
  unfold State.raise State.raiseOn
  refine h (s.inc (occFld n)) _ ?_
  dsimp only
  split <;> rfl

/-- An event raises its interrupt source, and its pending bit stays set to the command's end (R424, R438). -/
theorem State.ev_pend (s : State) {c n : Nat} (i : Nat) (args : List (Nat × Nat)) (hc : evSource c = some n) :
    (s.ev c i args).flag (bitFld R.IRQ_PEND n) = true := by
  unfold State.ev
  rw [hc]
  dsimp only
  split <;> exact s.raise_pend (evSource_lt hc)

theorem State.drain_pendKeep {s : State} {n : Nat} (hn : n < 128) (k : s.flag (bitFld R.IRQ_PEND n) = true) :
    s.drain.flag (bitFld R.IRQ_PEND n) = true := (Logs.refl.drain).pendKeep hn k

theorem State.ev_pendKeep {s : State} {n : Nat} (hn : n < 128) (c i : Nat) (args : List (Nat × Nat))
    (k : s.flag (bitFld R.IRQ_PEND n) = true) : (s.ev c i args).flag (bitFld R.IRQ_PEND n) = true :=
  (Logs.refl.ev c i args).pendKeep hn k

end Sys2Proof.Machine
end

