-- ==== Sys2Proof/Laws/Frame.lean ====
section
/-!
SUPPORT. Sys2Proof/Laws/Frame.lean: frames compose, and what each shared operation of Machine/Ops.lean leaves as it was. Each law says: if t
is s up to the frame, so is t after the operation.
-/
namespace Sys2Proof.Machine

variable {ps : List Part} {rs : Nat → Bool} {s t u : State}

theorem Part.same_refl (p : Part) (s : State) : p.same s s := by cases p <;> rfl

theorem Part.same_trans (p : Part) (h : p.same s t) (k : p.same t u) : p.same s u := by
  cases p <;> exact k.trans h

theorem Frame.refl (ps : List Part) (rs : Nat → Bool) (s : State) : Frame ps rs s s :=
  ⟨rfl, fun p _ => p.same_refl s, fun _ _ _ => rfl⟩

theorem Frame.trans (h : Frame ps rs s t) (k : Frame ps rs t u) : Frame ps rs s u :=
  ⟨k.pending.trans h.pending, fun p hp => p.same_trans (h.parts p hp) (k.parts p hp),
    fun a ha hl => (k.regs a ha hl).trans (h.regs a ha hl)⟩

/-- A change of parts that the frame leaves open, or within what logging changes. -/
theorem Frame.upd (h : Frame ps rs s t) (hp : u.pending = t.pending) (hr : u.regs = t.regs) (hs : ∀ p, p ∉ ps → p.same t u) :
    Frame ps rs s u :=
  h.trans ⟨hp, hs, fun a _ _ => by simp [State.rd, hr]⟩

theorem Frame.mono {ps' : List Part} {rs' : Nat → Bool} (h : Frame ps rs s t) (hp : ∀ p ∈ ps, p ∈ ps')
    (hr : ∀ a, rs' a = false → rs a = false) : Frame ps' rs' s t :=
  ⟨h.pending, fun p hq => h.parts p fun hm => hq (hp p hm), fun a ha hl => h.regs a (hr a ha) hl⟩

/-- A change of the register store at an offset the frame leaves open. -/
theorem Frame.wr (h : Frame ps rs s t) (a : Nat) (v : Dword) (ha : (rs a || logReg a) = true) : Frame ps rs s (t.wr a v) := by
  refine h.trans ⟨rfl, fun p _ => ?_, fun b hb hl => t.rd_wr_ne v fun e => ?_⟩
  · cases p <;> rfl
  · subst e; simp [hb, hl] at ha

theorem Frame.set (h : Frame ps rs s t) (f : Fld) (x : Nat) (ha : (rs f.addr || logReg f.addr) = true) : Frame ps rs s (t.set f x) :=
  h.wr _ _ ha

theorem Frame.setB (h : Frame ps rs s t) (f : Fld) (b : Bool) (ha : (rs f.addr || logReg f.addr) = true) :
    Frame ps rs s (t.setB f b) := h.wr _ _ ha

theorem Frame.inc (h : Frame ps rs s t) (f : Fld) (ha : (rs f.addr || logReg f.addr) = true) : Frame ps rs s (t.inc f) := h.wr _ _ ha

theorem Frame.add (h : Frame ps rs s t) (f : Fld) (n : Nat) (ha : (rs f.addr || logReg f.addr) = true) : Frame ps rs s (t.add f n) :=
  h.wr _ _ ha

theorem Frame.incSat (h : Frame ps rs s t) (f : Fld) (ha : (rs f.addr || logReg f.addr) = true) : Frame ps rs s (t.incSat f) :=
  h.wr _ _ ha

theorem Frame.put64 (h : Frame ps rs s t) (lo hi v : Nat) (hl : (rs lo || logReg lo) = true) (hh : (rs hi || logReg hi) = true) :
    Frame ps rs s (t.put64 lo hi v) := (h.wr _ _ hl).wr _ _ hh

theorem Frame.ite {c : Prop} [Decidable c] {a b : State} (ha : Frame ps rs s a) (hb : Frame ps rs s b) :
    Frame ps rs s (if c then a else b) := by split <;> assumption

/-- A fold of an operation that keeps the frame. -/
theorem Frame.foldl {α : Type} (f : State → α → State) (l : List α) (h : Frame ps rs s t)
    (hf : ∀ u a, Frame ps rs s u → Frame ps rs s (f u a)) : Frame ps rs s (l.foldl f t) := by
  induction l generalizing t with
  | nil => exact h
  | cons a l ih => exact ih (hf t a h)

/-- A fold that carries other data beside the state. -/
theorem Frame.foldlP {α β : Type} (g : β → State) (f : β → α → β) (l : List α) (b : β) (h : Frame ps rs s (g b))
    (hf : ∀ u a, Frame ps rs s (g u) → Frame ps rs s (g (f u a))) : Frame ps rs s (g (l.foldl f b)) := by
  induction l generalizing b with
  | nil => exact h
  | cons a l ih => exact ih (f b a) (hf b a h)

theorem Frame.freeCtr (h : Frame ps rs s t) (n : Nat) : Frame ps rs s { t with freeCtr := n } :=
  h.upd rfl rfl fun p _ => by cases p <;> rfl

theorem Frame.emit (h : Frame ps rs s t) (hp : Part.out ∈ ps) (o : Out) : Frame ps rs s (t.emit o) :=
  h.upd rfl rfl fun p hq => by cases p <;> first | rfl | exact absurd hp hq

theorem Frame.dma (h : Frame ps rs s t) (hp : Part.out ∈ ps) (f : Fn) (a : Nat) (b : List Byte) : Frame ps rs s (t.dma f a b) :=
  Frame.ite (h.emit hp _) h

theorem Frame.fresh (h : Frame ps rs s t) : Frame ps rs s t.fresh.2 := h.freeCtr _

/-- What logging changes of a part. -/
theorem Frame.sett_ (h : Frame ps rs s t) (x : Sett) (hx : x.quiet = t.sett.quiet) : Frame ps rs s { t with sett := x } :=
  h.upd rfl rfl fun p _ => by cases p <;> first | rfl | exact hx

theorem Frame.irq_ (h : Frame ps rs s t) (x : Irq) (hx : x.quiet = t.irq.quiet) : Frame ps rs s { t with irq := x } :=
  h.upd rfl rfl fun p _ => by cases p <;> first | rfl | exact hx

theorem Frame.evr_ (h : Frame ps rs s t) (x : Evr) (hx : x.quiet = t.evr.quiet) : Frame ps rs s { t with evr := x } :=
  h.upd rfl rfl fun p _ => by cases p <;> first | rfl | exact hx

theorem Frame.alm_ (h : Frame ps rs s t) (x : Alm) (hx : x.quiet = t.alm.quiet) : Frame ps rs s { t with alm := x } :=
  h.upd rfl rfl fun p _ => by cases p <;> first | rfl | exact hx

theorem Frame.twn_ (h : Frame ps rs s t) (x : Twn) (hx : x.quiet = t.twn.quiet) : Frame ps rs s { t with twn := x } :=
  h.upd rfl rfl fun p _ => by cases p <;> first | rfl | exact hx

/-! ### Parts that the frame leaves open -/

theorem Frame.put_latch (h : Frame ps rs s t) (hp : Part.latch ∈ ps) (x : List (Nat × Dword)) : Frame ps rs s { t with latch := x } :=
  h.upd rfl rfl fun p hq => by cases p <;> first | rfl | exact absurd hp hq

theorem Frame.put_held (h : Frame ps rs s t) (hp : Part.held ∈ ps) (x : List Held) : Frame ps rs s { t with held := x } :=
  h.upd rfl rfl fun p hq => by cases p <;> first | rfl | exact absurd hp hq

theorem Frame.put_out (h : Frame ps rs s t) (hp : Part.out ∈ ps) (x : List Out) : Frame ps rs s { t with out := x } :=
  h.upd rfl rfl fun p hq => by cases p <;> first | rfl | exact absurd hp hq

theorem Frame.put_tim (h : Frame ps rs s t) (hp : Part.tim ∈ ps) (x : Tim) : Frame ps rs s { t with tim := x } :=
  h.upd rfl rfl fun p hq => by cases p <;> first | rfl | exact absurd hp hq

theorem Frame.put_sett (h : Frame ps rs s t) (hp : Part.sett ∈ ps) (x : Sett) : Frame ps rs s { t with sett := x } :=
  h.upd rfl rfl fun p hq => by cases p <;> first | rfl | exact absurd hp hq

theorem Frame.put_ing (h : Frame ps rs s t) (hp : Part.ing ∈ ps) (x : Ing) : Frame ps rs s { t with ing := x } :=
  h.upd rfl rfl fun p hq => by cases p <;> first | rfl | exact absurd hp hq

theorem Frame.put_aln (h : Frame ps rs s t) (hp : Part.aln ∈ ps) (x : Aln) : Frame ps rs s { t with aln := x } :=
  h.upd rfl rfl fun p hq => by cases p <;> first | rfl | exact absurd hp hq

theorem Frame.put_sched (h : Frame ps rs s t) (hp : Part.sched ∈ ps) (x : Sched) : Frame ps rs s { t with sched := x } :=
  h.upd rfl rfl fun p hq => by cases p <;> first | rfl | exact absurd hp hq

theorem Frame.put_cmd (h : Frame ps rs s t) (hp : Part.cmd ∈ ps) (x : Cmd) : Frame ps rs s { t with cmd := x } :=
  h.upd rfl rfl fun p hq => by cases p <;> first | rfl | exact absurd hp hq

theorem Frame.put_irq (h : Frame ps rs s t) (hp : Part.irq ∈ ps) (x : Irq) : Frame ps rs s { t with irq := x } :=
  h.upd rfl rfl fun p hq => by cases p <;> first | rfl | exact absurd hp hq

theorem Frame.put_evr (h : Frame ps rs s t) (hp : Part.evr ∈ ps) (x : Evr) : Frame ps rs s { t with evr := x } :=
  h.upd rfl rfl fun p hq => by cases p <;> first | rfl | exact absurd hp hq

theorem Frame.put_mac (h : Frame ps rs s t) (hp : Part.mac ∈ ps) (x : Mac) : Frame ps rs s { t with mac := x } :=
  h.upd rfl rfl fun p hq => by cases p <;> first | rfl | exact absurd hp hq

theorem Frame.put_pmu (h : Frame ps rs s t) (hp : Part.pmu ∈ ps) (x : Pmu) : Frame ps rs s { t with pmu := x } :=
  h.upd rfl rfl fun p hq => by cases p <;> first | rfl | exact absurd hp hq

theorem Frame.put_keys (h : Frame ps rs s t) (hp : Part.keys ∈ ps) (x : Keys) : Frame ps rs s { t with keys := x } :=
  h.upd rfl rfl fun p hq => by cases p <;> first | rfl | exact absurd hp hq

theorem Frame.put_ecc (h : Frame ps rs s t) (hp : Part.ecc ∈ ps) (x : Ecc) : Frame ps rs s { t with ecc := x } :=
  h.upd rfl rfl fun p hq => by cases p <;> first | rfl | exact absurd hp hq

theorem Frame.put_alm (h : Frame ps rs s t) (hp : Part.alm ∈ ps) (x : Alm) : Frame ps rs s { t with alm := x } :=
  h.upd rfl rfl fun p hq => by cases p <;> first | rfl | exact absurd hp hq

theorem Frame.put_ang (h : Frame ps rs s t) (hp : Part.ang ∈ ps) (x : Ang) : Frame ps rs s { t with ang := x } :=
  h.upd rfl rfl fun p hq => by cases p <;> first | rfl | exact absurd hp hq

theorem Frame.put_isl (h : Frame ps rs s t) (hp : Part.isl ∈ ps) (x : Isl) : Frame ps rs s { t with isl := x } :=
  h.upd rfl rfl fun p hq => by cases p <;> first | rfl | exact absurd hp hq

theorem Frame.put_osc (h : Frame ps rs s t) (hp : Part.osc ∈ ps) (x : Osc) : Frame ps rs s { t with osc := x } :=
  h.upd rfl rfl fun p hq => by cases p <;> first | rfl | exact absurd hp hq

theorem Frame.put_outp (h : Frame ps rs s t) (hp : Part.outp ∈ ps) (x : OutSt) : Frame ps rs s { t with outp := x } :=
  h.upd rfl rfl fun p hq => by cases p <;> first | rfl | exact absurd hp hq

theorem Frame.put_cas (h : Frame ps rs s t) (hp : Part.cas ∈ ps) (x : Cas) : Frame ps rs s { t with cas := x } :=
  h.upd rfl rfl fun p hq => by cases p <;> first | rfl | exact absurd hp hq

theorem Frame.put_twn (h : Frame ps rs s t) (hp : Part.twn ∈ ps) (x : Twn) : Frame ps rs s { t with twn := x } :=
  h.upd rfl rfl fun p hq => by cases p <;> first | rfl | exact absurd hp hq

theorem Frame.put_flt (h : Frame ps rs s t) (hp : Part.flt ∈ ps) (x : Flt) : Frame ps rs s { t with flt := x } :=
  h.upd rfl rfl fun p hq => by cases p <;> first | rfl | exact absurd hp hq

theorem Frame.put_nrg (h : Frame ps rs s t) (hp : Part.nrg ∈ ps) (x : Nrg) : Frame ps rs s { t with nrg := x } :=
  h.upd rfl rfl fun p hq => by cases p <;> first | rfl | exact absurd hp hq

theorem Frame.put_trg (h : Frame ps rs s t) (hp : Part.trg ∈ ps) (x : Trg) : Frame ps rs s { t with trg := x } :=
  h.upd rfl rfl fun p hq => by cases p <;> first | rfl | exact absurd hp hq

theorem Frame.put_boot (h : Frame ps rs s t) (hp : Part.boot ∈ ps) (x : Boot) : Frame ps rs s { t with boot := x } :=
  h.upd rfl rfl fun p hq => by cases p <;> first | rfl | exact absurd hp hq

theorem Frame.put_dbg (h : Frame ps rs s t) (hp : Part.dbg ∈ ps) (x : Dbg) : Frame ps rs s { t with dbg := x } :=
  h.upd rfl rfl fun p hq => by cases p <;> first | rfl | exact absurd hp hq

theorem reg_log {a : Nat} (h : logReg a = true) : (rs a || logReg a) = true := by simp [h]

/-! ### The shared operations that logging uses -/

theorem Frame.logs {al : Bool} (h : Frame ps rs s t) (k : Logs al t u) : Frame ps rs s u :=
  h.trans (k.frame.mono (by simp) (by simp [noRegs]))

theorem Frame.raiseOn (h : Frame ps rs s t) {n : Nat} (hn : n < 128) (a b : Bool) : Frame ps rs s (t.raiseOn n a b) :=
  h.logs (al := true) (Logs.refl.raiseOn hn a b)

theorem Frame.raise (h : Frame ps rs s t) {n : Nat} (hn : n < 128) : Frame ps rs s (t.raise n) :=
  h.logs (al := true) (Logs.refl.raise hn)

theorem Frame.raiseQueue (h : Frame ps rs s t) (q : Nat) : Frame ps rs s (t.raiseQueue q) :=
  h.logs (al := true) (Logs.refl.raiseQueue q)

theorem Frame.raise81 (h : Frame ps rs s t) : Frame ps rs s (t.raise81) :=
  h.logs (al := true) (Logs.refl.raise81)

theorem Frame.ev (h : Frame ps rs s t) (c i : Nat) (args : List (Nat × Nat)) : Frame ps rs s (t.ev c i args) :=
  h.logs (al := true) (Logs.refl.ev c i args)

theorem Frame.ev0 (h : Frame ps rs s t) (c : Nat) : Frame ps rs s (t.ev0 c) :=
  h.logs (al := true) (Logs.refl.ev0 c)

theorem Frame.takePage (h : Frame ps rs s t) {c : Nat} (hc : c < 8) (ws : List SWord) (hs : List Holder) : Frame ps rs s ((t.takePage c ws hs).2) :=
  h.logs (al := true) (Logs.refl.takePage hc ws hs)

theorem Frame.alloc (h : Frame ps rs s t) {c : Nat} (hc : c < 8) (ws : List SWord) (hs : List Holder) : Frame ps rs s ((t.alloc c ws hs).2) :=
  h.logs (al := true) (Logs.refl.alloc hc ws hs)

theorem Frame.modPage (h : Frame ps rs s t) (id : Nat) (f : Page → Page) : Frame ps rs s (t.modPage id f) :=
  h.logs (al := true) (Logs.refl.modPage id f)

theorem Frame.freePage (h : Frame ps rs s t) (id : Nat) : Frame ps rs s (t.freePage id) :=
  h.logs (al := true) (Logs.refl.freePage id)

theorem Frame.holdPage (h : Frame ps rs s t) (id : Nat) (x : Holder) : Frame ps rs s (t.holdPage id x) :=
  h.logs (al := true) (Logs.refl.holdPage id x)

theorem Frame.dropHold (h : Frame ps rs s t) (x : Holder) (id : Nat) : Frame ps rs s (t.dropHold x id) :=
  h.logs (al := true) (Logs.refl.dropHold x id)

theorem Frame.dropHolds (h : Frame ps rs s t) (x : Holder) (ids : List Nat) : Frame ps rs s (t.dropHolds x ids) :=
  h.logs (al := true) (Logs.refl.dropHolds x ids)

theorem Frame.setHq (h : Frame ps rs s t) (q : Nat) (x : HostQ) : Frame ps rs s (t.setHq q x) :=
  h.logs (al := true) (Logs.refl.setHq q x)

theorem Frame.hqPush (h : Frame ps rs s t) {q : Nat} (hq : q < 16) (p : Pkt) : Frame ps rs s (t.hqPush q p) :=
  h.logs (al := true) (Logs.refl.hqPush hq p)

theorem Frame.hqRefuse (h : Frame ps rs s t) {q : Nat} (hq : q < 16) : Frame ps rs s (t.hqRefuse q) :=
  h.logs (al := true) (Logs.refl.hqRefuse hq)

theorem Frame.hqOffer (h : Frame ps rs s t) {q : Nat} (hq : q < 16) (p : Pkt) (c : Bool) : Frame ps rs s ((t.hqOffer q p c).1) :=
  h.logs (al := true) (Logs.refl.hqOffer hq p c)

theorem Frame.offerRefs (h : Frame ps rs s t) (p : Pkt) (c : Bool) (pre : State → Nat → Bool) : Frame ps rs s (t.offerRefs p c pre) :=
  h.logs (al := true) (Logs.refl.offerRefs p c pre)

theorem Frame.offerCopy (h : Frame ps rs s t) (src m : Nat) (recs : List (Nat × List SWord)) : Frame ps rs s (t.offerCopy src m recs) :=
  h.logs (al := true) (Logs.refl.offerCopy src m recs)

theorem Frame.hqFlush (h : Frame ps rs s t) {q : Nat} (hq : q < 16) : Frame ps rs s (t.hqFlush q) :=
  h.logs (al := true) (Logs.refl.hqFlush hq)

theorem Frame.almSync (h : Frame ps rs s t) : Frame ps rs s (t.almSync) :=
  h.logs (al := true) (Logs.refl.almSync)

theorem Frame.healthSync (h : Frame ps rs s t) : Frame ps rs s (t.healthSync) :=
  h.logs (al := true) (Logs.refl.healthSync)

theorem Frame.drain (h : Frame ps rs s t) : Frame ps rs s (t.drain) :=
  h.logs (al := true) (Logs.refl.drain)

theorem Frame.foldlMem {α : Type} (f : State → α → State) (l : List α) (h : Frame ps rs s t)
    (hf : ∀ u, ∀ a ∈ l, Frame ps rs s u → Frame ps rs s (f u a)) : Frame ps rs s (l.foldl f t) := by
  induction l generalizing t with
  | nil => exact h
  | cons a l ih => exact ih (hf t a (by simp) h) fun u b hb => hf u b (by simp [hb])

theorem Frame.reach (h : Frame ps rs s t) (hp : Part.tim ∈ ps) (n : Nat) : Frame ps rs s (t.reach n) := by
  unfold State.reach
  split
  · exact Frame.drain (h.upd (by rfl) (by rfl) fun p hq => by cases p <;> first | rfl | exact absurd hp hq)
  · exact h

/-! ### Parts that logging leaves alone, after a command's end and after an event -/

@[simp] theorem State.drain_pending (s : State) : s.drain.pending = s.pending := (Frame.refl [] noRegs s).drain.pending
@[simp] theorem State.ev_pending (s : State) (c i : Nat) (l : List (Nat × Nat)) : (s.ev c i l).pending = s.pending :=
  ((Frame.refl [] noRegs s).ev c i l).pending
@[simp] theorem State.drain_latch (s : State) : s.drain.latch = s.latch := (Frame.refl [] noRegs s).drain.parts .latch (by simp)
@[simp] theorem State.ev_latch (s : State) (c i : Nat) (l : List (Nat × Nat)) : (s.ev c i l).latch = s.latch :=
  ((Frame.refl [] noRegs s).ev c i l).parts .latch (by simp)
@[simp] theorem State.ev0_latch (s : State) (c : Nat) : (s.ev0 c).latch = s.latch := s.ev_latch c 0 []
@[simp] theorem State.drain_held (s : State) : s.drain.held = s.held := (Frame.refl [] noRegs s).drain.parts .held (by simp)
@[simp] theorem State.ev_held (s : State) (c i : Nat) (l : List (Nat × Nat)) : (s.ev c i l).held = s.held :=
  ((Frame.refl [] noRegs s).ev c i l).parts .held (by simp)
@[simp] theorem State.ev0_held (s : State) (c : Nat) : (s.ev0 c).held = s.held := s.ev_held c 0 []
@[simp] theorem State.drain_out (s : State) : s.drain.out = s.out := (Frame.refl [] noRegs s).drain.parts .out (by simp)
@[simp] theorem State.ev_out (s : State) (c i : Nat) (l : List (Nat × Nat)) : (s.ev c i l).out = s.out :=
  ((Frame.refl [] noRegs s).ev c i l).parts .out (by simp)
@[simp] theorem State.ev0_out (s : State) (c : Nat) : (s.ev0 c).out = s.out := s.ev_out c 0 []
@[simp] theorem State.drain_tim (s : State) : s.drain.tim = s.tim := (Frame.refl [] noRegs s).drain.parts .tim (by simp)
@[simp] theorem State.ev_tim (s : State) (c i : Nat) (l : List (Nat × Nat)) : (s.ev c i l).tim = s.tim :=
  ((Frame.refl [] noRegs s).ev c i l).parts .tim (by simp)
@[simp] theorem State.ev0_tim (s : State) (c : Nat) : (s.ev0 c).tim = s.tim := s.ev_tim c 0 []
@[simp] theorem State.drain_ing (s : State) : s.drain.ing = s.ing := (Frame.refl [] noRegs s).drain.parts .ing (by simp)
@[simp] theorem State.ev_ing (s : State) (c i : Nat) (l : List (Nat × Nat)) : (s.ev c i l).ing = s.ing :=
  ((Frame.refl [] noRegs s).ev c i l).parts .ing (by simp)
@[simp] theorem State.ev0_ing (s : State) (c : Nat) : (s.ev0 c).ing = s.ing := s.ev_ing c 0 []
@[simp] theorem State.drain_aln (s : State) : s.drain.aln = s.aln := (Frame.refl [] noRegs s).drain.parts .aln (by simp)
@[simp] theorem State.ev_aln (s : State) (c i : Nat) (l : List (Nat × Nat)) : (s.ev c i l).aln = s.aln :=
  ((Frame.refl [] noRegs s).ev c i l).parts .aln (by simp)
@[simp] theorem State.ev0_aln (s : State) (c : Nat) : (s.ev0 c).aln = s.aln := s.ev_aln c 0 []
@[simp] theorem State.drain_sched (s : State) : s.drain.sched = s.sched := (Frame.refl [] noRegs s).drain.parts .sched (by simp)
@[simp] theorem State.ev_sched (s : State) (c i : Nat) (l : List (Nat × Nat)) : (s.ev c i l).sched = s.sched :=
  ((Frame.refl [] noRegs s).ev c i l).parts .sched (by simp)
@[simp] theorem State.ev0_sched (s : State) (c : Nat) : (s.ev0 c).sched = s.sched := s.ev_sched c 0 []
@[simp] theorem State.drain_cmd (s : State) : s.drain.cmd = s.cmd := (Frame.refl [] noRegs s).drain.parts .cmd (by simp)
@[simp] theorem State.ev_cmd (s : State) (c i : Nat) (l : List (Nat × Nat)) : (s.ev c i l).cmd = s.cmd :=
  ((Frame.refl [] noRegs s).ev c i l).parts .cmd (by simp)
@[simp] theorem State.ev0_cmd (s : State) (c : Nat) : (s.ev0 c).cmd = s.cmd := s.ev_cmd c 0 []
@[simp] theorem State.drain_mac (s : State) : s.drain.mac = s.mac := (Frame.refl [] noRegs s).drain.parts .mac (by simp)
@[simp] theorem State.ev_mac (s : State) (c i : Nat) (l : List (Nat × Nat)) : (s.ev c i l).mac = s.mac :=
  ((Frame.refl [] noRegs s).ev c i l).parts .mac (by simp)
@[simp] theorem State.ev0_mac (s : State) (c : Nat) : (s.ev0 c).mac = s.mac := s.ev_mac c 0 []
@[simp] theorem State.drain_pmu (s : State) : s.drain.pmu = s.pmu := (Frame.refl [] noRegs s).drain.parts .pmu (by simp)
@[simp] theorem State.ev_pmu (s : State) (c i : Nat) (l : List (Nat × Nat)) : (s.ev c i l).pmu = s.pmu :=
  ((Frame.refl [] noRegs s).ev c i l).parts .pmu (by simp)
@[simp] theorem State.ev0_pmu (s : State) (c : Nat) : (s.ev0 c).pmu = s.pmu := s.ev_pmu c 0 []
@[simp] theorem State.drain_keys (s : State) : s.drain.keys = s.keys := (Frame.refl [] noRegs s).drain.parts .keys (by simp)
@[simp] theorem State.ev_keys (s : State) (c i : Nat) (l : List (Nat × Nat)) : (s.ev c i l).keys = s.keys :=
  ((Frame.refl [] noRegs s).ev c i l).parts .keys (by simp)
@[simp] theorem State.ev0_keys (s : State) (c : Nat) : (s.ev0 c).keys = s.keys := s.ev_keys c 0 []
@[simp] theorem State.drain_ecc (s : State) : s.drain.ecc = s.ecc := (Frame.refl [] noRegs s).drain.parts .ecc (by simp)
@[simp] theorem State.ev_ecc (s : State) (c i : Nat) (l : List (Nat × Nat)) : (s.ev c i l).ecc = s.ecc :=
  ((Frame.refl [] noRegs s).ev c i l).parts .ecc (by simp)
@[simp] theorem State.ev0_ecc (s : State) (c : Nat) : (s.ev0 c).ecc = s.ecc := s.ev_ecc c 0 []
@[simp] theorem State.drain_ang (s : State) : s.drain.ang = s.ang := (Frame.refl [] noRegs s).drain.parts .ang (by simp)
@[simp] theorem State.ev_ang (s : State) (c i : Nat) (l : List (Nat × Nat)) : (s.ev c i l).ang = s.ang :=
  ((Frame.refl [] noRegs s).ev c i l).parts .ang (by simp)
@[simp] theorem State.ev0_ang (s : State) (c : Nat) : (s.ev0 c).ang = s.ang := s.ev_ang c 0 []
@[simp] theorem State.drain_isl (s : State) : s.drain.isl = s.isl := (Frame.refl [] noRegs s).drain.parts .isl (by simp)
@[simp] theorem State.ev_isl (s : State) (c i : Nat) (l : List (Nat × Nat)) : (s.ev c i l).isl = s.isl :=
  ((Frame.refl [] noRegs s).ev c i l).parts .isl (by simp)
@[simp] theorem State.ev0_isl (s : State) (c : Nat) : (s.ev0 c).isl = s.isl := s.ev_isl c 0 []
@[simp] theorem State.drain_osc (s : State) : s.drain.osc = s.osc := (Frame.refl [] noRegs s).drain.parts .osc (by simp)
@[simp] theorem State.ev_osc (s : State) (c i : Nat) (l : List (Nat × Nat)) : (s.ev c i l).osc = s.osc :=
  ((Frame.refl [] noRegs s).ev c i l).parts .osc (by simp)
@[simp] theorem State.ev0_osc (s : State) (c : Nat) : (s.ev0 c).osc = s.osc := s.ev_osc c 0 []
@[simp] theorem State.drain_outp (s : State) : s.drain.outp = s.outp := (Frame.refl [] noRegs s).drain.parts .outp (by simp)
@[simp] theorem State.ev_outp (s : State) (c i : Nat) (l : List (Nat × Nat)) : (s.ev c i l).outp = s.outp :=
  ((Frame.refl [] noRegs s).ev c i l).parts .outp (by simp)
@[simp] theorem State.ev0_outp (s : State) (c : Nat) : (s.ev0 c).outp = s.outp := s.ev_outp c 0 []
@[simp] theorem State.drain_cas (s : State) : s.drain.cas = s.cas := (Frame.refl [] noRegs s).drain.parts .cas (by simp)
@[simp] theorem State.ev_cas (s : State) (c i : Nat) (l : List (Nat × Nat)) : (s.ev c i l).cas = s.cas :=
  ((Frame.refl [] noRegs s).ev c i l).parts .cas (by simp)
@[simp] theorem State.ev0_cas (s : State) (c : Nat) : (s.ev0 c).cas = s.cas := s.ev_cas c 0 []
@[simp] theorem State.drain_flt (s : State) : s.drain.flt = s.flt := (Frame.refl [] noRegs s).drain.parts .flt (by simp)
@[simp] theorem State.ev_flt (s : State) (c i : Nat) (l : List (Nat × Nat)) : (s.ev c i l).flt = s.flt :=
  ((Frame.refl [] noRegs s).ev c i l).parts .flt (by simp)
@[simp] theorem State.ev0_flt (s : State) (c : Nat) : (s.ev0 c).flt = s.flt := s.ev_flt c 0 []
@[simp] theorem State.drain_nrg (s : State) : s.drain.nrg = s.nrg := (Frame.refl [] noRegs s).drain.parts .nrg (by simp)
@[simp] theorem State.ev_nrg (s : State) (c i : Nat) (l : List (Nat × Nat)) : (s.ev c i l).nrg = s.nrg :=
  ((Frame.refl [] noRegs s).ev c i l).parts .nrg (by simp)
@[simp] theorem State.ev0_nrg (s : State) (c : Nat) : (s.ev0 c).nrg = s.nrg := s.ev_nrg c 0 []
@[simp] theorem State.drain_trg (s : State) : s.drain.trg = s.trg := (Frame.refl [] noRegs s).drain.parts .trg (by simp)
@[simp] theorem State.ev_trg (s : State) (c i : Nat) (l : List (Nat × Nat)) : (s.ev c i l).trg = s.trg :=
  ((Frame.refl [] noRegs s).ev c i l).parts .trg (by simp)
@[simp] theorem State.ev0_trg (s : State) (c : Nat) : (s.ev0 c).trg = s.trg := s.ev_trg c 0 []
@[simp] theorem State.drain_boot (s : State) : s.drain.boot = s.boot := (Frame.refl [] noRegs s).drain.parts .boot (by simp)
@[simp] theorem State.ev_boot (s : State) (c i : Nat) (l : List (Nat × Nat)) : (s.ev c i l).boot = s.boot :=
  ((Frame.refl [] noRegs s).ev c i l).parts .boot (by simp)
@[simp] theorem State.ev0_boot (s : State) (c : Nat) : (s.ev0 c).boot = s.boot := s.ev_boot c 0 []
@[simp] theorem State.drain_dbg (s : State) : s.drain.dbg = s.dbg := (Frame.refl [] noRegs s).drain.parts .dbg (by simp)
@[simp] theorem State.ev_dbg (s : State) (c i : Nat) (l : List (Nat × Nat)) : (s.ev c i l).dbg = s.dbg :=
  ((Frame.refl [] noRegs s).ev c i l).parts .dbg (by simp)
@[simp] theorem State.ev0_dbg (s : State) (c : Nat) : (s.ev0 c).dbg = s.dbg := s.ev_dbg c 0 []

/-- What a field reads after a command's end, where logging does not change its register. -/
theorem State.drain_rd (s : State) {a : Nat} (h : logReg a = false) : s.drain.rd a = s.rd a :=
  (Frame.refl [] noRegs s).drain.regs a rfl h

theorem State.drain_get (s : State) {f : Fld} (h : logReg f.addr = false) : s.drain.get f = s.get f := by
  rw [State.get, s.drain_rd h, State.get]

theorem State.drain_flag (s : State) {f : Fld} (h : logReg f.addr = false) : s.drain.flag f = s.flag f := by
  rw [State.flag, s.drain_get h, State.flag]

theorem State.ev_rd (s : State) (c i : Nat) (args : List (Nat × Nat)) {a : Nat} (h : logReg a = false) : (s.ev c i args).rd a = s.rd a :=
  ((Frame.refl [] noRegs s).ev c i args).regs a rfl h

theorem State.ev_get (s : State) (c i : Nat) (args : List (Nat × Nat)) {f : Fld} (h : logReg f.addr = false) :
    (s.ev c i args).get f = s.get f := by rw [State.get, s.ev_rd c i args h, State.get]

end Sys2Proof.Machine
end

