-- ==== Sys2Proof/Laws/Host.lean ====
section
/-!
SUPPORT. Sys2Proof/Laws/Host.lean: the frame of an agent's register write and of a host command: a write an agent may do is done, and a
plain command that starts is answered, with what answering leaves as it was.
-/
namespace Sys2Proof.Machine

variable {ps : List Part} {rs : Nat → Bool} {s t u : State} {r : Fn} {b : List Byte}

/-! ### Register writes by agents (R22, R404) -/

/-- A write that an agent may do is done. -/
theorem State.gate_may {a : Agent} {x : Nat} (h : s.mayWrite a x) (f : State → State) : s.gate a x f = f s := by
  obtain ⟨h1, h2⟩ := h
  unfold State.gate
  cases a
  case pf1 =>
    obtain ⟨row, hr, hm⟩ := h2 rfl
    simp [h1, hr, hm]
  all_goals simp [h1]

/-! ### Host commands (R408 to R416, R535) -/

@[simp] theorem State.popHead_regs : (s.popHead r).regs = s.regs := by cases r <;> rfl
@[simp] theorem State.popHead_rd (a : Nat) : (s.popHead r).rd a = s.rd a := by cases r <;> rfl
@[simp] theorem State.popHead_get (f : Fld) : (s.popHead r).get f = s.get f := by cases r <;> rfl
@[simp] theorem State.popHead_flag (f : Fld) : (s.popHead r).flag f = s.flag f := by cases r <;> rfl
@[simp] theorem State.popHead_get64 (lo hi : Nat) : (s.popHead r).get64 lo hi = s.get64 lo hi := by cases r <;> rfl
@[simp] theorem State.popHead_out : (s.popHead r).out = s.out := by cases r <;> rfl
@[simp] theorem State.popHead_irq : (s.popHead r).irq = s.irq := by cases r <;> rfl
@[simp] theorem State.popHead_tim : (s.popHead r).tim = s.tim := by cases r <;> rfl
@[simp] theorem State.popHead_fly : (s.popHead r).cmd.fly = s.cmd.fly := by cases r <;> rfl

theorem Frame.popHead (h : Frame ps rs s t) (hp : Part.cmd ∈ ps) : Frame ps rs s (t.popHead r) := by
  cases r <;> exact h.upd rfl rfl fun p hq => by cases p <;> first | rfl | exact absurd hp hq

/-- A plain command that starts runs its body on the state without the packet, and is answered. -/
theorem State.plain_starts {op plen : Nat} {ok : Bool} (h : Starts s r op plen ok b) {mine : List Byte → Bool} (hm : mine b = true)
    (body : List Byte → State → CmdRes) :
    s.plain r op plen ok mine body =
      (body b (s.popHead r)).s.reply r b (body b (s.popHead r)).st 0 (body b (s.popHead r)).res := by
  simp [State.plain, h.head, h.op, h.valid, hm]

/-- A plain command that stages 1 to 5 turn away is answered with their status and does nothing else. -/
theorem State.plain_invalid {op plen st : Nat} {ok : Bool} (h : s.head r = some b) (ho : pkOp b = op)
    (hv : stages15 r b plen ok = some st) {mine : List Byte → Bool} (hm : mine b = true) (body : List Byte → State → CmdRes) :
    s.plain r op plen ok mine body = (s.popHead r).reply r b st 0 [] := by
  simp [State.plain, h, ho, hv, hm]

theorem Frame.replyPut (h : Frame ps rs s t) (ho : Part.out ∈ ps) (hr : rs (ringReg r R.RPL_PROD) = true) (st steps : Nat)
    (res : List Byte) : Frame ps rs s (t.replyPut r b st steps res) := by
  have h1 := (h.dma ho r (t.replyAddr r) (t.replyBytes r b st steps res)).set (ringFld r F.RPL_PROD_PROD)
    (t.get (ringFld r F.RPL_PROD_PROD) + 1) (by show (rs (ringReg r R.RPL_PROD) || _) = true; simp [hr])
  unfold State.replyPut
  exact Frame.ite h1 (h1.dma ho _ _ _)

theorem Frame.replyNow (h : Frame ps rs s t) (ho : Part.out ∈ ps) (hr : rs (ringReg r R.RPL_PROD) = true) (st steps : Nat)
    (res : List Byte) : Frame ps rs s (t.replyNow r b st steps res) := by
  have h1 := h.replyPut (b := b) ho hr st steps res
  unfold State.replyNow
  dsimp only
  refine Frame.ite ?_ h1
  cases r
  · exact h1.raise (by decide)
  · exact h1.raise81

/-- With no reply that could be written now, none is. -/
theorem State.lateReplies_none (h : t.NoneLate) : t.lateReplies = t := by
  have h1 : (t.cmd.late.filter fun l => t.fwRuns && (t.pfn l.fn).bme) = [] :=
    List.filter_eq_nil_iff.mpr fun l hl => by simp [h l hl]
  have h2 : (t.cmd.late.filter fun l => !(t.fwRuns && (t.pfn l.fn).bme)) = t.cmd.late :=
    List.filter_eq_self.mpr fun l hl => by simp [h l hl]
  unfold State.lateReplies
  dsimp only
  rw [h1, h2]
  rfl

/-- Where the function may write host memory, a reply is written at once. -/
theorem State.reply_bme (hb : (t.pfn r).bme = true) (hn : t.NoneLate) (st steps : Nat) (res : List Byte) :
    t.reply r b st steps res = t.replyNow r b st steps res := by
  unfold State.reply
  rw [if_pos hb, State.lateReplies_none hn]

/-- Where it may not, the reply waits, last in its queue, and nothing else changes (R400). -/
theorem State.reply_wait (hb : (t.pfn r).bme = false) (st steps : Nat) (res : List Byte) :
    t.reply r b st steps res = { t with cmd := { t.cmd with late := t.cmd.late ++ [⟨r, b, st, steps, res⟩] } } := by
  unfold State.reply
  rw [if_neg (by simp [hb])]

theorem Frame.reply (h : Frame ps rs s t) (hc : Part.cmd ∈ ps) (ho : Part.out ∈ ps) (hr : rs (ringReg r R.RPL_PROD) = true)
    (hn : t.NoneLate) (st steps : Nat) (res : List Byte) : Frame ps rs s (t.reply r b st steps res) := by
  cases hb : (t.pfn r).bme
  · rw [State.reply_wait hb]
    exact h.put_cmd hc _
  · rw [State.reply_bme hb hn]
    exact h.replyNow ho hr st steps res

@[simp] theorem State.raise_out (s : State) {n : Nat} (hn : n < 128) : (s.raise n).out = s.out := (Logs.refl (al := true)).raise hn |>.out
@[simp] theorem State.raise81_out (s : State) : s.raise81.out = s.out := ((Logs.refl (al := true)).raise81).out

theorem State.dma_regs (s : State) (f : Fn) (a : Nat) (x : List Byte) : (s.dma f a x).regs = s.regs := by
  unfold State.dma; split <;> rfl

theorem State.dma_out (s : State) (f : Fn) (a : Nat) (x : List Byte) : ∃ l, (s.dma f a x).out = s.out ++ l := by
  unfold State.dma
  split
  · exact ⟨[_], rfl⟩
  · exact ⟨[], (List.append_nil _).symm⟩

theorem ringFld_prod_log (r : Fn) : logReg (ringFld r F.RPL_PROD_PROD).addr = false := by cases r <;> rfl

theorem ringFld_prod_ok (r : Fn) : (ringFld r F.RPL_PROD_PROD).ok := by cases r <;> exact ⟨by decide, by decide⟩

/-- What a reply puts out, and where RPL_PROD then stands, before its interrupt. -/
theorem State.replyPut_spec (t : State) (hb : (t.pfn r).bme = true) (st steps : Nat) (res : List Byte) :
    (∃ l, (t.replyPut r b st steps res).out = t.out ++ Out.dma r (t.replyAddr r) (t.replyBytes r b st steps res) :: l) ∧
      (t.replyPut r b st steps res).get (ringFld r F.RPL_PROD_PROD) = (t.get (ringFld r F.RPL_PROD_PROD) + 1) % 2 ^ 32 := by
  have hd : t.dma r (t.replyAddr r) (t.replyBytes r b st steps res) =
      t.emit (.dma r (t.replyAddr r) (t.replyBytes r b st steps res)) := by simp [State.dma, hb]
  unfold State.replyPut
  rw [hd]
  dsimp only
  set v := (t.emit (.dma r (t.replyAddr r) (t.replyBytes r b st steps res))).set (ringFld r F.RPL_PROD_PROD)
    (t.get (ringFld r F.RPL_PROD_PROD) + 1) with hv
  have hg : v.get (ringFld r F.RPL_PROD_PROD) = (t.get (ringFld r F.RPL_PROD_PROD) + 1) % 2 ^ 32 := by
    rw [hv, State.get_set_self _ _ (ringFld_prod_ok r)]
    cases r <;> rfl
  have ho : v.out = t.out ++ [Out.dma r (t.replyAddr r) (t.replyBytes r b st steps res)] := rfl
  split
  · exact ⟨⟨[], ho⟩, hg⟩
  · refine ⟨?_, ?_⟩
    · obtain ⟨l, hl⟩ := State.dma_out v r
        (v.get64 (ringReg r R.RPL_PRODADDR_LO) (ringReg r R.RPL_PRODADDR_HI) / 4 * 4) (toLe 4 (t.get (ringFld r F.RPL_PROD_PROD) + 1))
      exact ⟨l, by rw [hl, ho]; simp⟩
    · rw [← hg]
      simp only [State.get, State.rd, State.dma_regs]

/-- What a reply puts out, and where RPL_PROD then stands, where the function may write host memory. -/
theorem State.replyNow_spec (t : State) (hb : (t.pfn r).bme = true) (st steps : Nat) (res : List Byte) :
    (∃ l, (t.replyNow r b st steps res).out = t.out ++ Out.dma r (t.replyAddr r) (t.replyBytes r b st steps res) :: l) ∧
      (t.replyNow r b st steps res).get (ringFld r F.RPL_PROD_PROD) = (t.get (ringFld r F.RPL_PROD_PROD) + 1) % 2 ^ 32 := by
  have hp := State.replyPut_spec (b := b) t hb st steps res
  have key : ∀ v : State, Logs true (t.replyPut r b st steps res) v →
      (∃ l, v.out = t.out ++ Out.dma r (t.replyAddr r) (t.replyBytes r b st steps res) :: l) ∧
        v.get (ringFld r F.RPL_PROD_PROD) = (t.get (ringFld r F.RPL_PROD_PROD) + 1) % 2 ^ 32 := fun v L => by
    rw [L.out, State.get, L.rd (Logs.logReg_of (ringFld_prod_log r)) (isPend_log (ringFld_prod_log r)), ← State.get]
    exact hp
  unfold State.replyNow
  dsimp only
  split
  · cases r
    · exact key _ (Logs.refl.raise (by decide))
    · exact key _ Logs.refl.raise81
  · exact hp

/-- What a reply depends on. -/
theorem State.reply_same (h : Frame ps rs s u) (hr : ∀ a ∈ [R.RPL_PROD, R.RPL_SIZE, R.RPL_BASE_LO, R.RPL_BASE_HI], rs (ringReg r a) = false)
    (st steps : Nat) (res : List Byte) :
    u.replyAddr r = s.replyAddr r ∧ u.replyBytes r b st steps res = s.replyBytes r b st steps res ∧
      u.get (ringFld r F.RPL_PROD_PROD) = s.get (ringFld r F.RPL_PROD_PROD) := by
  have e : ∀ a ∈ [R.RPL_PROD, R.RPL_SIZE, R.RPL_BASE_LO, R.RPL_BASE_HI], u.rd (ringReg r a) = s.rd (ringReg r a) := fun a ha =>
    h.regs _ (hr a ha) (by
      simp only [List.mem_cons, List.not_mem_nil, or_false] at ha
      rcases ha with rfl | rfl | rfl | rfl <;> cases r <;> rfl)
  have e1 : u.get (ringFld r F.RPL_PROD_PROD) = s.get (ringFld r F.RPL_PROD_PROD) := by
    show bits (u.rd (ringReg r R.RPL_PROD)).toNat _ _ = bits (s.rd (ringReg r R.RPL_PROD)).toNat _ _
    rw [e _ (by simp)]
  have e2 : u.get (ringFld r F.RPL_SIZE_SIZE) = s.get (ringFld r F.RPL_SIZE_SIZE) := by
    show bits (u.rd (ringReg r R.RPL_SIZE)).toNat _ _ = bits (s.rd (ringReg r R.RPL_SIZE)).toNat _ _
    rw [e _ (by simp)]
  refine ⟨?_, ?_, e1⟩
  · unfold State.replyAddr State.get64
    rw [e1, e2, e _ (by simp), e _ (by simp)]
  · unfold State.replyBytes
    rw [e1, e2]

theorem State.pfn_same (h : Frame ps rs s u) (hi : Part.irq ∉ ps) (f : Fn) : (u.pfn f).bme = (s.pfn f).bme := by
  have hq : u.irq.quiet = s.irq.quiet := h.parts .irq hi
  cases f
  · exact congrArg PcieFn.bme (congrArg Irq.fn0 hq : u.irq.quiet.fn0 = s.irq.quiet.fn0)
  · exact congrArg PcieFn.bme (congrArg Irq.fn1 hq : u.irq.quiet.fn1 = s.irq.quiet.fn1)

/-- What keeps the functions' PCI Express state and the waiting replies keeps `NoneLate`. -/
theorem State.NoneLate.frame (hn : s.NoneLate) (h : Frame ps rs s u) (hi : Part.irq ∉ ps) (hl : u.cmd.late = s.cmd.late) : u.NoneLate :=
  fun l hm => by
    rw [hl] at hm
    rw [State.pfn_same h hi]
    exact hn l hm

@[simp] theorem State.replyNow_part (t : State) (st steps : Nat) (res : List Byte) (p : Part) (hp : p ≠ .out) :
    p.same t (t.replyNow r b st steps res) :=
  ((Frame.refl [.out] (regsIn [ringReg r R.RPL_PROD]) t).replyNow (by simp) (by simp [regsIn]) st steps res).parts p (by simpa using hp)

@[simp] theorem State.replyNow_cmd (t : State) (st steps : Nat) (res : List Byte) : (t.replyNow r b st steps res).cmd = t.cmd :=
  t.replyNow_part st steps res .cmd (by simp)

/-- A reply changes nothing of the command queues but the replies that wait. -/
theorem State.reply_cmd (hn : t.NoneLate) (st steps : Nat) (res : List Byte) :
    (t.reply r b st steps res).cmd = { t.cmd with late := (t.reply r b st steps res).cmd.late } := by
  cases hb : (t.pfn r).bme
  · rw [State.reply_wait hb]
  · rw [State.reply_bme hb hn, State.replyNow_cmd]

/-- A command whose body keeps the ring's registers, the functions' PCI Express state, the waiting replies and the outputs made is
answered. -/
theorem Answered.of (h : Frame ps rs s u) (hn : s.NoneLate)
    (hr : ∀ a ∈ [R.RPL_PROD, R.RPL_SIZE, R.RPL_BASE_LO, R.RPL_BASE_HI], rs (ringReg r a) = false) (hi : Part.irq ∉ ps)
    (hc : u.cmd.late = s.cmd.late) (ho : s.out <+: u.out) (st steps : Nat) (res : List Byte) :
    Answered r b st steps res s (u.reply r b st steps res).drain := by
  obtain ⟨e1, e2, e3⟩ := State.reply_same (b := b) h hr st steps res
  unfold Answered
  cases hb : (s.pfn r).bme
  · rw [if_neg (by simp), State.reply_wait (by rw [State.pfn_same h hi, hb]), State.drain_get _ (ringFld_prod_log r), State.drain_cmd]
    exact ⟨by rw [hc], e3⟩
  · have hb' : (u.pfn r).bme = true := by rw [State.pfn_same h hi, hb]
    rw [if_pos rfl, State.reply_bme hb' (hn.frame h hi hc)]
    obtain ⟨⟨l, hl⟩, hg⟩ := State.replyNow_spec (r := r) (b := b) u hb' st steps res
    obtain ⟨pre, hpre⟩ := ho
    refine ⟨?_, ?_, ?_⟩
    · rw [State.drain_out, hl, e1, e2, ← hpre, List.append_assoc, List.drop_left]
      simp
    · rw [State.drain_get _ (ringFld_prod_log r), hg, e3]
    · rw [State.drain_cmd, State.replyNow_cmd, hc]

/-- A register other than RPL_PROD, where logging does not change it either, stays through a reply. -/
theorem State.reply_rd (hn : t.NoneLate) (st steps : Nat) (res : List Byte) {a : Nat} (h : a ≠ ringReg r R.RPL_PROD)
    (hl : logReg a = false) : (t.reply r b st steps res).rd a = t.rd a :=
  ((Frame.refl [.cmd, .out] (regsIn [ringReg r R.RPL_PROD]) t).reply (by simp) (by simp) (by simp [regsIn]) hn st steps res).regs a
    (by simpa [regsIn] using h) hl

theorem State.reply_get (hn : t.NoneLate) (st steps : Nat) (res : List Byte) {f : Fld} (h : f.addr ≠ ringReg r R.RPL_PROD)
    (hl : logReg f.addr = false) : (t.reply r b st steps res).get f = t.get f := by
  rw [State.get, State.reply_rd hn st steps res h hl, State.get]

theorem State.reply_flag (hn : t.NoneLate) (st steps : Nat) (res : List Byte) {f : Fld} (h : f.addr ≠ ringReg r R.RPL_PROD)
    (hl : logReg f.addr = false) : (t.reply r b st steps res).flag f = t.flag f := by
  rw [State.flag, State.reply_get hn st steps res h hl, State.flag]

@[simp] theorem State.popHead_late : (s.popHead r).cmd.late = s.cmd.late := by cases r <;> rfl

/-- What has to be shown of a plain command's body for the command to be answered as stated. -/
theorem Answers.of {c : Instr} {op plen st : Nat} {ok : Bool} {mine : List Byte → Bool} {body : List Byte → State → CmdRes}
    {res : List Byte} {l : List Nat} {P : State → Prop} (hs : Starts s r op plen ok b)
    (he : exec c s = .next (s.plain r op plen ok mine body).drain) (hm : mine b = true) (hb : body b (s.popHead r) = ⟨st, res, u⟩)
    (hf : Frame (.cmd :: ps) (regsIn l) s u) (hc : u.cmd = (s.popHead r).cmd)
    (hr : ∀ a ∈ [R.RPL_PROD, R.RPL_SIZE, R.RPL_BASE_LO, R.RPL_BASE_HI], l.contains (ringReg r a) = false) (hi : Part.irq ∉ ps)
    (ho : s.out <+: u.out) (hP : P (u.reply r b st 0 res).drain) : Answers c s r b st res ps l P := by
  have hi' : Part.irq ∉ Part.cmd :: ps := by simp [hi]
  have hc' : u.cmd.late = s.cmd.late := by rw [hc, State.popHead_late]
  have hn := hs.late.frame hf hi' hc'
  refine ⟨(u.reply r b st 0 res).drain, ?_, ?_, ?_, hP, ?_⟩
  · rw [he, State.plain_starts hs hm, hb]
  · exact Answered.of hf hs.late hr hi' hc' ho st 0 res
  · rw [State.drain_cmd, State.reply_cmd hn, hc]
  · refine Frame.drain (Frame.reply (hf.mono ?_ ?_) (by simp) (by simp) (by simp [regsIn]) hn _ _ _)
    · intro p hp
      simp only [List.mem_cons] at hp ⊢
      tauto
    · intro a ha
      simp only [regsIn, List.contains_cons, Bool.or_eq_false_iff] at ha
      exact ha.2

end Sys2Proof.Machine
end

