-- ==== Sys2Proof/WellFormed.lean ====
section
/-!
DEFINITION. Sys2Proof/WellFormed.lean: which commands a sender can form: operands within the ranges that the block's surroundings give
them (offsets inside the windows of R402 and R403, numbers of entries and channels that exist, frames and buffers of a size that occurs).
Every meaning is total: a term outside these ranges is answered too.
-/
namespace Sys2Proof

/-- Is an offset that of an aligned dword. -/
def aligned (off : Nat) : Bool := off % 4 == 0

/-- A host read that gives at most n bytes. -/
def atMost (n : Nat) : HostRead → Bool
  | .data b => decide (b.length ≤ n)
  | .poison => true
  | .timeout => true

/-- A resolved MAC address has 48 bits. -/
def macOk (mac : Option Nat) : Bool := mac.all fun m => decide (m < 2 ^ 48)

/-- The failing rows and columns of a parity block, each once (R446). -/
def ReadErr.wf (e : ReadErr) : Bool :=
  (e.rows.all fun r => decide (r < 8)) && (e.cols.all fun c => decide (c < 74)) && decide e.rows.Nodup && decide e.cols.Nodup

/-- DIGEST_IDs are 16-bit numbers; handles of captures are the model's own. -/
def LeaseHolder.wf : LeaseHolder → Bool
  | .queue _ => true
  | .capture _ => true
  | .digest n => decide (n < 65536)
  | .handover => true

/-- A well-formed command. -/
def Instr.wf (i : Instr) : Bool :=
  match i with
  | .registerWrite _ off len _ => decide (1 ≤ len) && decide (len ≤ 16) && decide (off < 0x400000)
  | .wideValueLoRead _ off len => decide (1 ≤ len) && decide (len ≤ 16) && decide (off < 0x400000)
  | .wideValueHeldWrite _ off _ => aligned off && decide (off < 0x400000)
  | .wideValueHiWrite _ off _ => aligned off && decide (off < 0x400000)
  | .evPairTimeout _ base => aligned base && decide (base < 0x160000)
  | .refDetectRetry _ => true
  | .evTimRefLost => true
  | .evTimRefRestored => true
  | .timIncrWrite _ _ => true
  | .timStepRequest _ _ => true
  | .timeStepForce _ => true
  | .ptpCfg _ => true
  | .timeSourceLost _ => true
  | .pdelayReqTx _ seq => decide (seq < 65536)
  | .pdelayRespTx _ seq => decide (seq < 65536)
  | .pdelayRespFollowUpTx _ seq => decide (seq < 65536)
  | .tsqEntryRead _ _ => true
  | .ppsInEdge _ _ => true
  | .evTimPpsinMissing => true
  | .irigFrameRx widthsUs _ newOfs => decide (widthsUs.length = 100) && newOfs.all fun n => decide (n < 65536)
  | .irigValidExpiry newOfs => newOfs.all fun n => decide (n < 65536)
  | .ppsOutRise => true
  | .ppsOutFall => true
  | .timServoWrite _ _ => true
  | .servoTimeout => true
  | .holdWrite _ _ => true
  | .holdoverUncUpdate => true
  | .dataFrameIngest => true
  | .injDoorbell _ _ => true
  | .injEntryFetch entry frame => atMost 32 entry && atMost 16384 frame
  | .injFetchTimeout entry => atMost 32 entry
  | .cfgFrameRx => true
  | .sendCfg2Request sidx => decide (sidx < 8184)
  | .ingHistWrite _ _ => true
  | .oldEntryExpiry sidx => decide (sidx < 8184)
  | .streamAdd _ buf => atMost 65536 buf
  | .streamDel _ => true
  | .streamMod _ => true
  | .streamCfgLoad _ buf => atMost 2097152 buf
  | .streamStats _ _ => true
  | .pageChargeMove page => decide (page < 8192)
  | .leaseExpiry h => h.wf
  | .settWindowRead _ off len err => decide (1 ≤ len) && decide (len ≤ 16) && decide (0x200000 ≤ off) && decide (off < 0x400000) && err.wf
  | .evSetWinWrite _ off _ => decide (0x200000 ≤ off) && decide (off < 0x400000)
  | .hostqDmaBlockWrite _ err => err.wf
  | .hostqConsWrite _ _ _ => true
  | .hostqDataPop _ _ byte len err => decide (byte < 16) && decide (1 ≤ len) && decide (len ≤ 16) && err.wf
  | .hostqCfgWrite _ _ _ => true
  | .hqPendClear _ _ => true
  | .quotaWrite _ _ _ => true
  | .peakClr _ _ => true
  | .instantOpen => true
  | .instantDeadline => true
  | .setRelease => true
  | .waitLearnUpdate => true
  | .alnCtrlWrite _ _ => true
  | .cadenceSet _ => true
  | .waitPolicy _ => true
  | .angEngineRun => true
  | .alarmFrameRepeat => true
  | .alarmDestResolve _ mac => macOk mac
  | .almPulseEnd _ => true
  | .almLatchClear _ _ => true
  | .alminhInChange _ => true
  | .evAngStale => true
  | .limitsLoad _ buf => atMost 2097152 buf
  | .anglePairsLoad _ buf => atMost 2097152 buf
  | .islEngineRun => true
  | .evIslNodeLost node => decide (node < 8192)
  | .topoLoad _ buf => atMost 2097152 buf
  | .partitionExpect _ buf => atMost 2097152 buf
  | .oscEngineRun => true
  | .oscSignalRestart sig => decide (sig < 1024)
  | .bandRecentrePass => true
  | .evOscModeNew => true
  | .evOscModeLost slot => decide (slot < 16)
  | .evOscClass slot => decide (slot < 16)
  | .oscSignals _ buf => atMost 2097152 buf
  | .oscBands _ buf => atMost 2097152 buf
  | .outCmdFrameRx => true
  | .outDestResolve _ mac => macOk mac
  | .outCfgchgExpiry _ => true
  | .outGroupDef _ buf => atMost 2097152 buf
  | .outDest _ => true
  | .cascadeDigestBuild => true
  | .cascadeDigestRx => true
  | .digestReassemblyTimeout w => decide (1 ≤ w) && decide (w ≤ 15)
  | .evCasMemberLost w => decide (1 ≤ w) && decide (w ≤ 15)
  | .casJoin _ buf => atMost 2097152 buf
  | .joinRetry => true
  | .joinTimeout => true
  | .joinRx => true
  | .joinAnswerRx => true
  | .casLeave _ => true
  | .leaveRx => true
  | .xfireFall => true
  | .xfirePulseEnd => true
  | .frontEndStart => true
  | .frontEndStop => true
  | .tapSample ch tap bits => decide (ch < 48) && decide (tap < 3) && decide (bits.log2 < 65536)
  | .overloadEpisodeEnd ch => decide (ch < 48)
  | .evFltModFault ch => decide (ch < 48)
  | .evFltModRestored ch => decide (ch < 48)
  | .rangeToLowGain _ x => decide (x.natAbs ≤ 32768)
  | .rangeToHighGain _ pa pb pc => decide (pa ≤ 32768) && decide (pb ≤ 32768) && decide (pc ≤ 32768)
  | .blankingEnd _ => true
  | .cpConfigChange _ => true
  | .coefLoad _ buf => atMost 2097152 buf
  | .bankSwap _ => true
  | .evFltFadeStart => true
  | .evFltFadeDone => true
  | .pmuEstimateReady _ _ bad => decide (bad < 64)
  | .pmuDetectorEval _ bad => decide (bad < 64)
  | .pmuReturnToM _ => true
  | .pmuCfg _ => true
  | .calLoad _ buf => atMost 2097152 buf
  | .energyTick => true
  | .energyCycleEnd _ => true
  | .energyPeriodicSave _ => true
  | .energyFlashCopy => true
  | .nrgSnapshot _ _ => true
  | .evNrgSnapshot => true
  | .nrgPreset _ buf => atMost 2097152 buf
  | .captureInstantEval _ => true
  | .evTrgDone _ => true
  | .captureHeldResume _ => true
  | .captureReoffer => true
  | .trigiInput _ => true
  | .trigoPulseEnd => true
  | .trgArm _ buf => atMost 2097152 buf
  | .trgDisarm _ => true
  | .trgForce _ => true
  | .captRelease _ => true
  | .trgDisable _ _ => true
  | .portFrameRx _ frame _ _ => decide (frame.length ≤ 16384)
  | .pauseTimeEnd _ => true
  | .evMacPauseWdog _ => true
  | .evMacPauseRestore _ => true
  | .pauseFrameTx _ => true
  | .pauseFrameRepeat _ => true
  | .txFrameEnqueue _ _ frame => decide (frame.length ≤ 16384)
  | .txFrameStart _ _ => true
  | .txFrameEnd _ => true
  | .hdxCollision bits => decide (bits < 2 ^ 20)
  | .hdxBackoffEnd => true
  | .evMacLinkDown _ => true
  | .evMacLinkUp _ _ => true
  | .p4PhyPoll _ => true
  | .gateCycleStart _ => true
  | .gateEntryEnd _ => true
  | .prpSupervisionTx => true
  | .mdioCommandStart _ _ => true
  | .mdioCommandDone _ data => decide (data < 65536)
  | .heartbeatInstant => true
  | .heartbeatWordRx _ word => decide (word < 2 ^ 64)
  | .evTwnPathDown _ => true
  | .witnessTx => true
  | .evTwnWitnessLost => true
  | .alWitnessWaitEnd => true
  | .relinquishComplete => true
  | .evTwnHandoverFail => true
  | .twinRevert => true
  | .evTwnFault => true
  | .twinSyncTx => true
  | .twinEnWrite _ _ => true
  | .twinCfg _ => true
  | .twinHandover _ => true
  | .twinForceRole _ => true
  | .cmdDoorbell _ _ => true
  | .cmdEntryFetch _ entry => decide (entry.length = 64)
  | .cmdFetchTimeout _ _ => true
  | .commandStep _ buf => atMost 2097152 buf
  | .cmdRingReset _ _ => true
  | .pcieFunctionReset _ => true
  | .nop _ => true
  | .getInfo _ => true
  | .commitEpoch _ => true
  | .abortStepped _ => true
  | .irqDeliveryCommit t => decide (1 ≤ t) && decide (t ≤ 6)
  | .irqCoalTimeout _ n => decide (n < 128)
  | .evIrqFallback n => decide (n < 128)
  | .irqPendWrite _ _ _ => true
  | .irqMaskWrite _ _ _ => true
  | .msixVectorUnmask f vec => match f with
    | .pf0 => decide (vec < 32)
    | .pf1 => decide (vec < 8)
  | .heldDeliveryRelease _ => true
  | .evrBucketRefill code => decide (code < 65536)
  | .evrRateWrite _ _ => true
  | .evrRingStart _ _ => true
  | .evrRingStop _ _ => true
  | .evEvrThawTimeout => true
  | .evrRead _ _ => true
  | .evrFreeze _ => true
  | .evrThaw _ => true
  | .badgerTagWriteback err => err.wf
  | .badgerBlockVisit err => err.wf
  | .evEccLapLate => true
  | .pageRetire _ => true
  | .scrubCfg _ => true
  | .scrubFull _ => true
  | .retmapFlashSave => true
  | .keyLoadBlob _ buf _ => atMost 2097152 buf
  | .keyEvict _ => true
  | .keyInvalidateParent _ => true
  | .keyWrapNew _ _ => true
  | .keyUpdateBegin _ => true
  | .keyUpdateRewrap _ buf _ => atMost 2097152 buf
  | .keyUpdateCommit _ => true
  | .keyUpdateAbort _ => true
  | .keyLeaseExpiry slot => decide (slot < 512)
  | .tamperDetect _ levels => decide (levels.length ≤ 15)
  | .porReset => true
  | .sysReset => true
  | .bootSequence straps _ => decide (straps < 256)
  | .recoveryGo _ _ buf => atMost 2097152 buf
  | .recoveryFlashRetry => true
  | .evBootWatchdog => true
  | .watchdogRestart => true
  | .bootFailsClear => true
  | .evBootSvn => true
  | .updStageBegin _ => true
  | .updStageData _ buf => atMost 2097152 buf
  | .updStageEnd _ => true
  | .restartHitless _ => true
  | .restartStagedUpdate _ => true
  | .restartSys _ => true
  | .evUpdSlotWritten => true
  | .pfwnAccept => true
  | .pfwnReturn => true
  | .pwrQuiesce _ => true
  | .pwrRun _ => true
  | .quiesceTimeout => true
  | .coreRailsDown _ => true
  | .debugLineReset => true
  | .dbgAddrWrite h crc _ => decide (h < 256) && decide (crc < 16)
  | .dbgDataWrite h crc _ => decide (h < 256) && decide (crc < 16)
  | .dbgDataRead h err => decide (h < 256) && err.wf
  | .dbgChalRead h => decide (h < 256)
  | .dbgRespWrite h crc _ => decide (h < 256) && decide (crc < 16)
  | .dbgPortLock h crc _ => decide (h < 256) && decide (crc < 16)
  | .dbgResponseVerify => true
  | .dbgChallengeExpiry => true
  | .dbgChallenge _ _ => true
  | .dbgResponse _ buf => atMost 2097152 buf
  | .dbgCtrlLock _ _ => true
  | .coreHalt _ => true
  | .coreResume _ => true
  | .coreStep _ _ _ => true
  | .coreBreakpointHit _ _ _ => true
  | .vbatLoss => true
  | .pcieConfigWrite _ _ _ _ _ _ _ _ => true
  | .arpNdRequestRx => true

end Sys2Proof
end

