-- ==== Sys2Proof/Tests/Slice0.lean ====
section
/-!
SUPPORT. Sys2Proof/Tests/Slice0.lean: checks of the model on small states: ill-formed commands, effects worked out from the spec, and for the
statements a state and operands that meet their hypotheses.
-/
namespace Sys2Proof.Tests
open Sys2Proof.Machine

/-! ### Builders of small states and packets -/

/-- A running block whose registers are zero but for the fields given, at TIME 1000. -/
def run (fs : List (Fld × Nat)) : State :=
  fs.foldl (fun s f => s.set f.1 f.2)
    { State.reset with regs := [(R.TIM_INCR_LO, 0xD5555555#32), (R.TIM_INCR_HI, 0x208#32)], boot := { Boot.reset with phase := .run }, tim := { Tim.reset with now := 1000, anchor := some (2 ^ 70, 0) } }

/-- A ring set up to run. -/
def ringOn (r : Fn) : List (Fld × Nat) := [(ringFld r F.CMD_CTRL_EN, 1), (ringFld r F.RPL_SIZE_SIZE, 8)]

/-- A function that may master the bus. -/
def fnOn : PcieFn := { PcieFn.reset with bme := true, rearm := true }

/-- The block with packet b at the head of ring r. -/
def at_ (r : Fn) (b : List Byte) (s : State) : State :=
  let s := (ringOn r).foldl (fun s f => s.set f.1 f.2) s
  ({ s with irq := { s.irq with fn0 := fnOn, fn1 := fnOn } } : State).setRing r ⟨[b]⟩

/-- A packet: opcode, length in dwords, and bytes from offset 8 on. -/
def pk (op len : Nat) (bs : List Nat) : List Byte :=
  ([op, 0, len, 7, 1, 0, 0, 0] ++ bs ++ List.replicate (4 * len - 8 - bs.length) 0).map fun x => BitVec.ofNat 8 x

/-- A C37.118 frame of a type, with its CHK. -/
def c37 (type idcode soc frac : Nat) (body : List Byte) : List Byte :=
  let f := [0xAA#8, BitVec.ofNat 8 (16 * type + 2)] ++ toBe 2 (16 + body.length) ++ toBe 2 idcode ++ toBe 4 soc ++ toBe 1 0 ++ toBe 3 frac ++ body
  f ++ toBe 2 (crcCcitt f)

/-- An IPv4 packet to a UDP port from 10.0.0.1, its UDP checksum left out. -/
def udp (dport : Nat) (data : List Byte) : List Byte :=
  let h (chk : Nat) : List Byte := toBe 2 0x4500 ++ toBe 2 (28 + data.length) ++ toBe 4 0 ++ toBe 1 64 ++ toBe 1 17 ++ toBe 2 chk ++
    toBe 4 0x0A000001 ++ toBe 4 0x0A000002
  h (65535 - onesSum (h 0)) ++ toBe 2 4712 ++ toBe 2 dport ++ toBe 2 (8 + data.length) ++ toBe 2 0 ++ data

/-- A stream of one analog value, from 10.0.0.1 to port 4713. -/
def strm : Stream :=
  { idcode := 7, udpPort := 4713, cmdPort := 4712, addr := 0xFFFF0A000001, flags := 1, rate := 9, format := 0, fnom := 0, phnmr := 0, annmr := 1,
    dgnmr := 0, block := 0, nblocks := 1, blockOfs := 14, frameSize := 24, keyGroup := 0, timeBase := 1000000, scale := [0x3F800000], learned := false,
    fresh := false }

/-- The descriptor bytes of such a stream. -/
def desc (k idcode : Nat) : List Byte :=
  toLe 2 k ++ toLe 2 idcode ++ toLe 2 4713 ++ toLe 2 4712 ++ toLe 16 0xFFFF0A000001 ++ toLe 1 1 ++ toLe 1 9 ++ toLe 1 0 ++ toLe 1 0 ++ toLe 1 0 ++ toLe 1 1 ++
    toLe 1 0 ++ toLe 1 0 ++ toLe 1 1 ++ toLe 1 0 ++ toLe 2 14 ++ toLe 2 24 ++ toLe 2 0 ++ toLe 3 1000000 ++ zeros 21 ++ toLe 4 0x3F800000

/-- An open instant. -/
def inst (soc k ns : Nat) : Inst :=
  { soc := soc, k := k, ns := ns, rate := 9, epoch := 0, deadline := 5000, waitEff := 0, member := [], expected := [], arrived := [], demArr := [], gap := 0,
    flags := 0, cause := none, readyAt := 0, recs := [], win := [], pages := [1], pred := none, mean := [], shapes := [] }

/-- A stream of one rectangular float phasor with a float frequency. -/
def strmF : Stream := { strm with format := 10, phnmr := 1, annmr := 0, frameSize := 34, scale := [0] }

/-- Its data frame: phasor x + jy, frequency, rate of change. -/
def dataF (x y f df : Nat) : List Byte := c37 0 7 1 75000 (toBe 2 0 ++ toBe 4 x ++ toBe 4 y ++ toBe 4 f ++ toBe 4 df)

/-- A released set of second 1 with the records of the streams given, all in page 1. -/
def setOf (k : Nat) (n : Nat) (idx : List Nat) : SetDesc :=
  { soc := 1, k := k, ns := instNs 120 k, rate := 9, epoch := 0, flags := 0, cause := .all, gap := 0, releasedAt := 1000, tq := 0, nexp := 1, narr := 1,
    recs := idx.zipIdx.map fun p => ⟨p.1, 1, n * p.2, n⟩, pages := [1], shapes := idx.map fun x => (x, 1, 0, 0), lead := 0 }

/-- The page that holds such records. -/
def pageOf (ws : List SWord) : Nat × Page := (1, ⟨0, 0, ws, [.engine 0, .engine 1, .engine 2], false⟩)

/-- The fields marked "epoch" take effect as they stand. -/
def inEffect (s : State) : State := { s with cmd := { s.cmd with epochs := [(0, s.regs)] } }

/-! ### WellFormed: an ill-formed term for each check -/

theorem test_wf_refuses_registerWrite_none : Instr.wf (.registerWrite .pf0 0 0 0) = false := by decide

theorem test_wf_refuses_registerWrite_long : Instr.wf (.registerWrite .pf0 0 17 0) = false := by decide

theorem test_wf_refuses_registerWrite_offset : Instr.wf (.registerWrite .pf0 0x400000 4 0) = false := by decide

theorem test_wf_refuses_wideValueLoRead_none : Instr.wf (.wideValueLoRead .pf0 0 0) = false := by decide

theorem test_wf_refuses_wideValueLoRead_long : Instr.wf (.wideValueLoRead .pf0 0 17) = false := by decide

theorem test_wf_refuses_wideValueLoRead_offset : Instr.wf (.wideValueLoRead .pf0 0x400000 4) = false := by decide

theorem test_wf_refuses_wideValueHeldWrite_aligned : Instr.wf (.wideValueHeldWrite .c0 1 0) = false := by decide

theorem test_wf_refuses_wideValueHeldWrite_offset : Instr.wf (.wideValueHeldWrite .c0 0x400000 0) = false := by decide

theorem test_wf_refuses_wideValueHiWrite_aligned : Instr.wf (.wideValueHiWrite .c1 2 0) = false := by decide

theorem test_wf_refuses_wideValueHiWrite_offset : Instr.wf (.wideValueHiWrite .c1 0x400000 0) = false := by decide

theorem test_wf_refuses_evPairTimeout_aligned : Instr.wf (.evPairTimeout .pf0 6) = false := by decide

theorem test_wf_refuses_evPairTimeout_offset : Instr.wf (.evPairTimeout .pf0 0x160000) = false := by decide

theorem test_wf_refuses_pdelayReqTx : Instr.wf (.pdelayReqTx 0 65536) = false := by decide

theorem test_wf_refuses_pdelayRespTx : Instr.wf (.pdelayRespTx 0 65536) = false := by decide

theorem test_wf_refuses_pdelayRespFollowUpTx : Instr.wf (.pdelayRespFollowUpTx 0 65536) = false := by decide

theorem test_wf_refuses_irigFrameRx_length : Instr.wf (.irigFrameRx [2000] 0 none) = false := by decide

theorem test_wf_refuses_irigFrameRx_offset : Instr.wf (.irigFrameRx (List.replicate 100 2000) 0 (some 65536)) = false := by decide +kernel

theorem test_wf_refuses_irigValidExpiry : Instr.wf (.irigValidExpiry (some 65536)) = false := by decide

theorem test_wf_refuses_injEntryFetch_entry : Instr.wf (.injEntryFetch (.data (zeros 33)) .poison) = false := by decide

theorem test_wf_refuses_injEntryFetch_frame : Instr.wf (.injEntryFetch .poison (.data (zeros 16385))) = false := by decide +kernel

theorem test_wf_refuses_injFetchTimeout : Instr.wf (.injFetchTimeout (.data (zeros 33))) = false := by decide

theorem test_wf_refuses_sendCfg2Request : Instr.wf (.sendCfg2Request 8184) = false := by decide

theorem test_wf_refuses_oldEntryExpiry : Instr.wf (.oldEntryExpiry 8184) = false := by decide

theorem test_wf_refuses_streamAdd : Instr.wf (.streamAdd .pf0 (.data (List.replicate 65537 0))) = false := by decide +kernel

theorem test_wf_refuses_pageChargeMove : Instr.wf (.pageChargeMove 8192) = false := by decide

theorem test_wf_refuses_leaseExpiry_digest : Instr.wf (.leaseExpiry (.digest 65536)) = false := by decide

theorem test_wf_refuses_settWindowRead_low : Instr.wf (.settWindowRead .pf0 0x1FFFFF 4 ⟨[], []⟩) = false := by decide

theorem test_wf_refuses_settWindowRead_high : Instr.wf (.settWindowRead .pf0 0x400000 4 ⟨[], []⟩) = false := by decide

theorem test_wf_refuses_settWindowRead_none : Instr.wf (.settWindowRead .pf0 0x200000 0 ⟨[], []⟩) = false := by decide

theorem test_wf_refuses_settWindowRead_long : Instr.wf (.settWindowRead .pf0 0x200000 17 ⟨[], []⟩) = false := by decide

theorem test_wf_refuses_settWindowRead_col : Instr.wf (.settWindowRead .pf0 0x200000 4 ⟨[0], [74]⟩) = false := by decide

theorem test_wf_refuses_settWindowRead_row : Instr.wf (.settWindowRead .pf0 0x200000 4 ⟨[8], [0]⟩) = false := by decide

theorem test_wf_refuses_settWindowRead_twice : Instr.wf (.settWindowRead .pf0 0x200000 4 ⟨[1, 1], [0]⟩) = false := by decide

theorem test_wf_refuses_settWindowRead_colTwice : Instr.wf (.settWindowRead .pf0 0x200000 4 ⟨[1], [3, 3]⟩) = false := by decide

theorem test_wf_refuses_evSetWinWrite_low : Instr.wf (.evSetWinWrite .pf0 0x1FFFFF 0) = false := by decide

theorem test_wf_refuses_evSetWinWrite_high : Instr.wf (.evSetWinWrite .pf0 0x400000 0) = false := by decide

theorem test_wf_refuses_hostqDmaBlockWrite : Instr.wf (.hostqDmaBlockWrite 0 ⟨[8], [0]⟩) = false := by decide

theorem test_wf_refuses_hostqDataPop_byte : Instr.wf (.hostqDataPop .pf0 0 16 4 ⟨[], []⟩) = false := by decide

theorem test_wf_refuses_hostqDataPop_none : Instr.wf (.hostqDataPop .pf0 0 0 0 ⟨[], []⟩) = false := by decide

theorem test_wf_refuses_hostqDataPop_long : Instr.wf (.hostqDataPop .pf0 0 0 17 ⟨[], []⟩) = false := by decide

theorem test_wf_refuses_hostqDataPop_err : Instr.wf (.hostqDataPop .pf0 0 0 4 ⟨[0], [74]⟩) = false := by decide

theorem test_wf_refuses_alarmDestResolve : Instr.wf (.alarmDestResolve 0 (some (2 ^ 48))) = false := by decide

theorem test_wf_refuses_evIslNodeLost : Instr.wf (.evIslNodeLost 8192) = false := by decide

theorem test_wf_refuses_oscSignalRestart : Instr.wf (.oscSignalRestart 1024) = false := by decide

theorem test_wf_refuses_evOscModeLost : Instr.wf (.evOscModeLost 16) = false := by decide

theorem test_wf_refuses_evOscClass : Instr.wf (.evOscClass 16) = false := by decide

theorem test_wf_refuses_outDestResolve : Instr.wf (.outDestResolve 0 (some (2 ^ 48))) = false := by decide

theorem test_wf_refuses_digestReassemblyTimeout_low : Instr.wf (.digestReassemblyTimeout 0) = false := by decide

theorem test_wf_refuses_digestReassemblyTimeout_high : Instr.wf (.digestReassemblyTimeout 16) = false := by decide

theorem test_wf_refuses_evCasMemberLost_low : Instr.wf (.evCasMemberLost 0) = false := by decide

theorem test_wf_refuses_evCasMemberLost_high : Instr.wf (.evCasMemberLost 16) = false := by decide

theorem test_wf_refuses_tapSample_channel : Instr.wf (.tapSample 48 0 0) = false := by decide

theorem test_wf_refuses_tapSample_tap : Instr.wf (.tapSample 0 3 0) = false := by decide

theorem test_wf_refuses_rangeToLowGain : Instr.wf (.rangeToLowGain 0 32769) = false := by decide

theorem test_wf_refuses_rangeToHighGain_a : Instr.wf (.rangeToHighGain 0 32769 0 0) = false := by decide

theorem test_wf_refuses_rangeToHighGain_b : Instr.wf (.rangeToHighGain 0 0 32769 0) = false := by decide

theorem test_wf_refuses_rangeToHighGain_c : Instr.wf (.rangeToHighGain 0 0 0 32769) = false := by decide

theorem test_wf_refuses_pmuEstimateReady : Instr.wf (.pmuEstimateReady 0 true 64) = false := by decide

theorem test_wf_refuses_pmuDetectorEval : Instr.wf (.pmuDetectorEval 0 64) = false := by decide

theorem test_wf_refuses_overloadEpisodeEnd : Instr.wf (.overloadEpisodeEnd 48) = false := by decide

theorem test_wf_refuses_evFltModFault : Instr.wf (.evFltModFault 48) = false := by decide

theorem test_wf_refuses_evFltModRestored : Instr.wf (.evFltModRestored 48) = false := by decide

theorem test_wf_refuses_portFrameRx : Instr.wf (.portFrameRx 0 (List.replicate 16385 0) true 0) = false := by decide +kernel

theorem test_wf_refuses_txFrameEnqueue : Instr.wf (.txFrameEnqueue 0 0 (List.replicate 16385 0)) = false := by decide +kernel

theorem test_wf_refuses_hdxCollision : Instr.wf (.hdxCollision (2 ^ 20)) = false := by decide

theorem test_wf_refuses_mdioCommandDone : Instr.wf (.mdioCommandDone false 65536) = false := by decide

theorem test_wf_refuses_heartbeatWordRx : Instr.wf (.heartbeatWordRx 0 (2 ^ 64)) = false := by decide

theorem test_wf_refuses_cmdEntryFetch : Instr.wf (.cmdEntryFetch .pf0 (zeros 63)) = false := by decide

theorem test_wf_refuses_irqDeliveryCommit_low : Instr.wf (.irqDeliveryCommit 0) = false := by decide

theorem test_wf_refuses_irqDeliveryCommit_high : Instr.wf (.irqDeliveryCommit 7) = false := by decide

theorem test_wf_refuses_irqCoalTimeout : Instr.wf (.irqCoalTimeout false 128) = false := by decide

theorem test_wf_refuses_evIrqFallback : Instr.wf (.evIrqFallback 128) = false := by decide

theorem test_wf_refuses_msixVectorUnmask_pf0 : Instr.wf (.msixVectorUnmask .pf0 32) = false := by decide

theorem test_wf_refuses_msixVectorUnmask_pf1 : Instr.wf (.msixVectorUnmask .pf1 8) = false := by decide

theorem test_wf_refuses_evrBucketRefill : Instr.wf (.evrBucketRefill 65536) = false := by decide

theorem test_wf_refuses_badgerTagWriteback : Instr.wf (.badgerTagWriteback ⟨[0], [74]⟩) = false := by decide

theorem test_wf_refuses_badgerBlockVisit : Instr.wf (.badgerBlockVisit ⟨[8], []⟩) = false := by decide

theorem test_wf_refuses_keyLeaseExpiry : Instr.wf (.keyLeaseExpiry 512) = false := by decide

theorem test_wf_refuses_tamperDetect : Instr.wf (.tamperDetect 0 (List.replicate 16 false)) = false := by decide +kernel

theorem test_wf_refuses_bootSequence : Instr.wf (.bootSequence 256 0) = false := by decide

theorem test_wf_refuses_dbgAddrWrite_header : Instr.wf (.dbgAddrWrite 256 0 0) = false := by decide

theorem test_wf_refuses_dbgAddrWrite_crc : Instr.wf (.dbgAddrWrite 0 16 0) = false := by decide

theorem test_wf_refuses_dbgDataWrite_header : Instr.wf (.dbgDataWrite 256 0 0) = false := by decide

theorem test_wf_refuses_dbgDataWrite_crc : Instr.wf (.dbgDataWrite 0 16 0) = false := by decide

theorem test_wf_refuses_dbgDataRead_header : Instr.wf (.dbgDataRead 256 ⟨[], []⟩) = false := by decide

theorem test_wf_refuses_dbgDataRead_err : Instr.wf (.dbgDataRead 0 ⟨[8], []⟩) = false := by decide

theorem test_wf_refuses_dbgChalRead : Instr.wf (.dbgChalRead 256) = false := by decide

theorem test_wf_refuses_dbgRespWrite_header : Instr.wf (.dbgRespWrite 256 0 0) = false := by decide

theorem test_wf_refuses_dbgRespWrite_crc : Instr.wf (.dbgRespWrite 0 16 0) = false := by decide

theorem test_wf_refuses_dbgPortLock_header : Instr.wf (.dbgPortLock 256 0 0) = false := by decide

theorem test_wf_refuses_dbgPortLock_crc : Instr.wf (.dbgPortLock 0 16 0) = false := by decide

/-- The check of a host buffer's length is one function; it refuses a buffer that is longer and takes one that fits. -/
theorem test_atMost_refuses_longer : atMost 4 (.data (zeros 5)) = false ∧ atMost 4 (.data (zeros 4)) = true ∧ atMost 0 .timeout = true := by decide

end Sys2Proof.Tests
end

section
namespace Sys2Proof.Machine

variable {s t u : State} {r : Fn} {b : List Byte}

/-! ### Commands that are answered without a body -/

/-- A command that only answers its packet is answered, and changes nothing else. -/
theorem Answers.of_reply {c : Instr} {st : Nat} (hn : s.NoneLate) (he : exec c s = .next ((s.popHead r).reply r b st 0 []).drain) :
    Answers c s r b st [] [] [] fun _ => True := by
  have hf : Frame [.cmd] noRegs s (s.popHead r) := (Frame.refl _ _ s).popHead (by simp)
  have hn' : (s.popHead r).NoneLate := hn.frame hf (by simp) State.popHead_late
  refine ⟨_, he, ?_, ?_, trivial, ?_⟩
  · exact Answered.of hf hn (fun _ _ => rfl) (by simp) State.popHead_late (by simp) st 0 []
  · rw [State.drain_cmd, State.reply_cmd hn']
  · exact ((hf.mono (by simp) fun _ _ => rfl).reply (by simp) (by simp) (by simp [regsIn]) hn' st 0 []).drain

theorem State.headReady_of_head (h : s.head r = some b) : s.headReady r = true ∧ ∃ l, (s.ring r).fetched = b :: l := by
  unfold State.head at h
  split at h
  · cases h
  · rename_i b' l hl
    split at h
    · rename_i hc
      cases h
      exact ⟨(Bool.and_eq_true_iff.mp hc).1, l, hl⟩
    · cases h

/-- A head that needs a place in flight may start only with one free (R412). -/
theorem State.room_of_head (h : s.head r = some b) (hb : s.needsRoom b = true) : s.cmd.fly.length < 4 := by
  obtain ⟨hr, l, hl⟩ := State.headReady_of_head h
  unfold State.headReady at hr
  rw [hl] at hr
  simp [hb] at hr
  omega

/-- The opcodes of the stepped and the waiting commands but COMMIT_EPOCH. -/
def roomOps : List Nat := [0x11, 0x28, 0x30, 0x51, 0x69, 0x6A, 0x80, 0x82, 0x89, 0x8B]

theorem State.needsRoom_of_op {op : Nat} (ho : pkOp b = op) (h : roomOps.contains op = true) : s.needsRoom b = true := by
  subst ho
  exact Bool.or_eq_true_iff.mpr (.inl h)

/-! ### What PF1 is denied (R419, R535) -/

theorem stages15_denied {plen : Nat} (h1 : 2 ≤ pkLen b) (h2 : pkLen b ≤ 16) : stages15 .pf1 b plen false = some St.denied := by
  have h : (decide (pkLen b < 2) || decide (16 < pkLen b)) = false := by simp; omega
  rw [stages15, h]
  rfl

section denied
variable (hh : s.head .pf1 = some b) (h1 : 2 ≤ pkLen b) (h2 : pkLen b ≤ 16)
include hh h1 h2

theorem State.plain_denied {op plen : Nat} {mine : List Byte → Bool} {body : List Byte → State → CmdRes} (ho : pkOp b = op)
    (hm : mine b = true) : s.plain .pf1 op plen false mine body = (s.popHead .pf1).reply .pf1 b St.denied 0 [] :=
  State.plain_invalid hh ho (stages15_denied h1 h2) hm body

theorem State.stepped_denied {op plen : Nat} {check : List Byte → State → Option Nat} {prog0 : List Byte → List Nat}
    {step : List Byte → List Nat → State → StepRes} (ho : pkOp b = op) (hr : s.needsRoom b = true) :
    s.stepped .pf1 op plen check prog0 step = (s.popHead .pf1).reply .pf1 b St.denied 0 [] := by
  simp [State.stepped, hh, ho, State.room_of_head hh hr, stages15_denied h1 h2]

theorem State.waits_denied {op plen : Nat} {mine : List Byte → Bool} {body : List Byte → State → CmdRes ⊕ (List Nat × State)}
    (ho : pkOp b = op) (hm : mine b = true) (hr : s.needsRoom b = true) :
    s.waits .pf1 op plen mine body = (s.popHead .pf1).reply .pf1 b St.denied 0 [] := by
  simp [State.waits, hh, ho, hm, State.room_of_head hh hr, stages15_denied h1 h2]

theorem State.commit_denied (ho : pkOp b = 0x03) : s.commit .pf1 = (s.popHead .pf1).reply .pf1 b St.denied 0 [] := by
  have hroom : s.dirtyItems.length ≤ 512 ∨ s.cmd.fly.length < 4 := by
    by_cases hd : s.dirtyItems.length ≤ 512
    · exact .inl hd
    · exact .inr (State.room_of_head hh (by simp [State.needsRoom, ho]; omega))
  simp [State.commit, hh, ho, hroom, stages15_denied h1 h2]

theorem State.restartRow_denied {mode : Nat} (ho : pkOp b = 0x8B) (hr : s.boot.restart = none)
    (hm : (le b 8 1 == mode || (mode == 0 && decide (2 < le b 8 1))) = true) :
    s.restartRow .pf1 mode = (s.popHead .pf1).reply .pf1 b St.denied 0 [] := by
  unfold State.restartRow
  rw [hr]
  exact State.waits_denied hh h1 h2 ho hm (by simp [State.needsRoom, ho])

theorem State.restartSys_denied (ho : pkOp b = 0x8B) (hm : le b 8 1 = 2) :
    s.restartSys .pf1 = (s.popHead .pf1).reply .pf1 b St.denied 0 [] := by
  have hroom := State.room_of_head hh (by simp [State.needsRoom, ho])
  simp [State.restartSys, hh, ho, hm, hroom, stages15_denied h1 h2]

theorem State.snapshotWaits_denied : s.snapshotWaits .pf1 = false := by
  simp [State.snapshotWaits, hh, stages15_denied h1 h2]

end denied

end Sys2Proof.Machine

open Sys2Proof Sys2Proof.Machine in
/-- Settles O56: whichever frame of the command interpreter a row has, stage 3 of R535 answers the packet before its body is looked at. -/
theorem aDeniedOpcodeOnPF1IsAnsweredSo : Obligations.ADeniedOpcodeOnPF1IsAnsweredSo := by
  intro s b buf ok hh h1 h2 hn x hx ho hm
  refine Answers.of_reply hn ?_
  revert hx ho hm
  generalize hz : (s.popHead .pf1).reply .pf1 b St.denied 0 [] = z
  have rowIf {op plen : Nat} {mine : List Byte → Bool} {body : List Byte → State → CmdRes} (ho : pkOp b = op) (hm : mine b = true) :
      (s.plain .pf1 op plen false mine body).done = .next z.drain := by rw [State.plain_denied hh h1 h2 ho hm, hz]; rfl
  have row {op plen : Nat} {body : List Byte → State → CmdRes} (ho : pkOp b = op) (_ : True) :
      (s.plain .pf1 op plen false (fun _ => true) body).done = .next z.drain := rowIf ho rfl
  have upd {n : Nat} {body : List Byte → State → CmdRes} (ho : pkOp b = 0x74) (hm : (le b 8 1 == n) = true) :
      (s.plain .pf1 0x74 32 false (updOp n) body).done = .next z.drain := rowIf ho (by simp [updOp, hm])
  have step {op plen : Nat} {check : List Byte → State → Option Nat} {prog0 : List Byte → List Nat}
      {step : List Byte → List Nat → State → StepRes} (hr : roomOps.contains op = true) (ho : pkOp b = op) (_ : True) :
      (s.stepped .pf1 op plen check prog0 step).done = .next z.drain := by
    rw [State.stepped_denied hh h1 h2 ho (State.needsRoom_of_op ho hr), hz]; rfl
  have wait {op plen : Nat} {body : List Byte → State → CmdRes ⊕ (List Nat × State)} (hr : roomOps.contains op = true) (ho : pkOp b = op)
      (_ : True) : (s.waits .pf1 op plen (fun _ => true) body).done = .next z.drain := by
    rw [State.waits_denied hh h1 h2 ho rfl (State.needsRoom_of_op ho hr), hz]; rfl
  have commit (ho : pkOp b = 0x03) (_ : True) : (s.commit .pf1).done = .next z.drain := by
    rw [State.commit_denied hh h1 h2 ho, hz]; rfl
  have snap (ho : pkOp b = 0x50) (_ : True) : execNrgSnapshot .pf1 ok s = .next z.drain := by
    rw [execNrgSnapshot, State.snapshotWaits_denied hh h1 h2]
    exact rowIf ho rfl
  have restart {mode : Nat} {c : Bool} (hc : c = (le b 8 1 == mode || (mode == 0 && decide (2 < le b 8 1)))) (ho : pkOp b = 0x8B)
      (hm : (s.boot.restart.isNone && c) = true) : (s.restartRow .pf1 mode).done = .next z.drain := by
    rw [Bool.and_eq_true, Option.isNone_iff_eq_none] at hm
    rw [State.restartRow_denied hh h1 h2 ho hm.1 (hc ▸ hm.2), hz]; rfl
  have sys (ho : pkOp b = 0x8B) (hm : (le b 8 1 == 2) = true) : (s.restartSys .pf1).done = .next z.drain := by
    rw [State.restartSys_denied hh h1 h2 ho (by simpa using hm), hz]; rfl
  revert x
  simp only [List.forall_mem_cons, List.not_mem_nil, false_imp_iff, implies_true, and_true]
  exact ⟨commit, row, row, step rfl, row, row, row, row, step rfl, row, step rfl, row, row, row, row, row, row,
    row, row, row, row, row, snap, wait rfl, row, row, row, row, row, row, wait rfl, wait rfl, row, row, row,
    row, rowIf (mine := updOp 0), upd, upd, upd, row, row, step rfl, row, step rfl, row, step rfl, row, restart rfl,
    restart (by simp), sys, rowIf (mine := fun p => le p 8 1 != 0), rowIf (mine := fun p => le p 8 1 == 0), row, row⟩
end

section
namespace Sys2Proof.Machine

variable {s t u : State} {a : Agent} {b off len : Nat} {row : RegRow} {v : Dword}

/-! ### What events leave of the state's parts before they are logged (R424, R439) -/

@[simp] theorem State.raiseOn_evr (s : State) (n : Nat) (x y : Bool) : (s.raiseOn n x y).evr = s.evr := by
  cases x <;> cases y <;> rfl

@[simp] theorem State.raiseOn_sett (s : State) (n : Nat) (x y : Bool) : (s.raiseOn n x y).sett = s.sett := by
  cases x <;> cases y <;> rfl

@[simp] theorem State.raiseOn_alm (s : State) (n : Nat) (x y : Bool) : (s.raiseOn n x y).alm = s.alm := by
  cases x <;> cases y <;> rfl

@[simp] theorem State.raise_evr (s : State) (n : Nat) : (s.raise n).evr = s.evr := s.raiseOn_evr _ _ _

@[simp] theorem State.ev_backlog (s : State) (c i : Nat) (l : List (Nat × Nat)) :
    (s.ev c i l).evr.backlog = s.evr.backlog ++ [⟨c, i, l⟩] := by
  unfold State.ev
  cases evSource c <;> by_cases h : (c == Ev.UNCORR) = true <;> simp [h]

theorem State.ev0_backlog (s : State) (c : Nat) : (s.ev0 c).evr.backlog = s.evr.backlog ++ [⟨c, 0, []⟩] := s.ev_backlog c 0 []

@[simp] theorem State.ev_sett (s : State) (c i : Nat) (l : List (Nat × Nat)) : (s.ev c i l).sett = s.sett := by
  unfold State.ev
  cases evSource c <;> by_cases h : (c == Ev.UNCORR) = true <;> simp [h, State.raise]

@[simp] theorem State.ev0_sett (s : State) (c : Nat) : (s.ev0 c).sett = s.sett := s.ev_sett c 0 []

@[simp] theorem State.ev_alm (s : State) (c i : Nat) (l : List (Nat × Nat)) : (s.ev c i l).alm = s.alm := by
  unfold State.ev
  cases evSource c <;> by_cases h : (c == Ev.UNCORR) = true <;> simp [h, State.raise]

@[simp] theorem State.ev0_alm (s : State) (c : Nat) : (s.ev0 c).alm = s.alm := s.ev_alm c 0 []

theorem State.ev0_rd (s : State) (c : Nat) {x : Nat} (h : logReg x = false) : (s.ev0 c).rd x = s.rd x := s.ev_rd c 0 [] h

theorem State.ev0_get (s : State) (c : Nat) {f : Fld} (h : logReg f.addr = false) : (s.ev0 c).get f = s.get f := s.ev_get c 0 [] h

theorem State.ev0_flag (s : State) (c : Nat) {f : Fld} (h : logReg f.addr = false) : (s.ev0 c).flag f = s.flag f := by
  rw [State.flag, s.ev0_get c h, State.flag]

/-- An event's interrupt source is pending at the end of its command. -/
theorem State.ev0_pends (s : State) {c n : Nat} (hc : evSource c = some n) : (s.ev0 c).pends n := s.ev_pend 0 [] hc

theorem State.pends_drain {n : Nat} (hn : n < 128) (h : s.pends n) : s.drain.pends n := State.drain_pendKeep hn h

/-! ### How a command that ends as stated is shown to do so -/

section does
variable {c : Instr} {ps : List Part} {rs : Nat → Bool} {P : State → Prop}

/-- A command that changes nothing. -/
theorem Leads.nothing (h : exec c s = s.done) : Leads c s [] noRegs fun u => u = s := ⟨s, h, rfl, Frame.refl _ _ s⟩

/-- A read that answers without an effect. -/
theorem Leads.answers {x : List Byte} {ep : Bool} (h : exec c s = (s.emit (.answer a x ep)).done) :
    Leads c s [.out] noRegs fun u => u = { s with out := s.out ++ [Out.answer a x ep] } :=
  ⟨_, h, rfl, (Frame.refl _ _ s).emit (by simp) _⟩

end does

/-! ### Registers of a window (R22, R402 to R405) -/

/-- The register that an offset names has the row it is named with. -/
theorem regAt_row (h : regAt a off = some (b, row)) : regRow? b = some row := by
  simp only [regAt, Option.bind_eq_some_iff, Option.map_eq_some_iff] at h
  obtain ⟨x, -, r, hr, h⟩ := h
  cases h
  exact hr

/-- A write that PF1 may not do is counted and logged (R22). -/
theorem State.gate_denied (hs : s.serves .pf1 b = true) (hr : regRow? b = some row) (hm : s.pf1May b row = false) (f : State → State) :
    s.gate .pf1 b f = s.privDrop := by
  simp [State.gate, hs, hr, hm]

/-- A unit that does not serve the access drops the write in silence (R483). -/
theorem State.gate_unserved (hs : s.serves a b = false) (f : State → State) : s.gate a b f = s := by
  simp [State.gate, hs]

theorem State.privDrop_spec (s : State) : s.privDrop.get F.CMD_PRIVDROP_COUNT = (s.get F.CMD_PRIVDROP_COUNT + 1) % 2 ^ 32 ∧
    s.privDrop.evr.backlog = s.evr.backlog ++ [⟨Ev.PRIV_WRITE_DROPPED, 0, []⟩] ∧ s.privDrop.pends 84 ∧
    Frame [] (regsIn [R.CMD_PRIVDROP]) s s.privDrop := by
  refine ⟨?_, State.ev0_backlog _ _, State.ev0_pends _ (by decide), ((Frame.refl _ _ s).inc _ (by decide)).ev0 _⟩
  rw [State.privDrop, State.ev0_get _ _ (by decide)]
  exact s.get_inc_self (by decide)

/-- A write of a register that an offset names, an aligned dword, goes through the gate (R13, R22). -/
theorem State.writeReg_at (h4 : off % 4 = 0) (hx : msixAt a off = none) (hw : a = .pf1 ∨ off < 0x200000) (hr : regAt a off = some (b, row)) :
    s.writeReg a off 4 v = s.gate a b fun s => s.regWrite a b row v := by
  have h : (a != .pf1 && decide (0x200000 ≤ off) && decide (off < 0x400000)) = false := by
    rcases hw with rfl | hw
    · rfl
    · simp [Nat.not_le.mpr hw]
  simp [State.writeReg, h4, hx, h, hr]

/-- A read of an aligned offset at which a register lies is one of that register (R13). -/
theorem State.readReg_at (h4 : off % 4 = 0) (hx : msixAt a off = none) (hw : a = .pf1 ∨ off < 0x200000) (hr : regAt a off = some (b, row)) :
    s.readReg a off len = s.readRow a b len row := by
  have h : (a != .pf1 && decide (0x200000 ≤ off) && decide (off < 0x400000)) = false := by
    rcases hw with rfl | hw
    · rfl
    · simp [Nat.not_le.mpr hw]
  simp [State.readReg, h4, hx, h, hr]

theorem State.readRow_denied (h : s.mayRead a b row = false) : s.readRow a b len row = s.zeroAnswer a len := by
  simp [State.readRow, h]

end Sys2Proof.Machine

open Sys2Proof Sys2Proof.Machine in
/-- Settles O42: a read is turned away by `mayRead`, a write by the gate. -/
theorem registersOfPF0AreNotMappedInPF1 : Obligations.RegistersOfPF0AreNotMappedInPF1 := by
  intro s off b r v h4 hx hr hv
  have hw : exec (.registerWrite .pf1 off 4 v) s = (s.gate .pf1 b fun s => s.regWrite .pf1 b r v).done := by
    rw [← State.writeReg_at h4 hx (.inl rfl) hr]; rfl
  refine ⟨fun len => Leads.answers ?_, fun hs => ⟨s.privDrop, ?_, ?_⟩, fun hs => Leads.nothing ?_⟩
  · have hm : s.mayRead .pf1 b r = false := by simp [State.mayRead, hv]
    show (s.readReg .pf1 off len).done = _
    rw [State.readReg_at h4 hx (.inl rfl) hr, State.readRow_denied hm, State.zeroAnswer]
  · rw [hw, State.gate_denied hs (regAt_row hr) (by simp [State.pf1May, hv])]; rfl
  · obtain ⟨hc, hl, hp, hf⟩ := s.privDrop_spec
    exact ⟨⟨hc, hl, hp⟩, hf⟩
  · rw [hw, State.gate_unserved hs]
end

section
namespace Sys2Proof.Machine

/-! ### What a stored write makes of each field (R15, R18) -/

/-- One field of a row, as `mergeWrite` writes it. -/
def FldRow.write (v x : Nat) (f : FldRow) : Nat :=
  match f.ty with
  | .rw | .rwe | .hws => setBits x f.hi f.lo (bits v f.hi f.lo)
  | .w1c => setBits x f.hi f.lo (Nat.land (bits x f.hi f.lo) (2 ^ (f.hi - f.lo + 1) - 1 - bits v f.hi f.lo))
  | _ => x

theorem mergeWrite_eq (r : RegRow) (old v : Nat) : mergeWrite r old v = r.flds.foldl (FldRow.write v) old := by
  unfold mergeWrite
  congr 1

/-- Does a plain write put the written bits into a field of this type. -/
def FTy.takesWrite : FTy → Bool
  | .rw | .rwe | .hws => true
  | _ => false

/-- Do two fields share no bit. -/
def FldRow.apart (f g : FldRow) : Bool := decide (f.hi < g.lo) || decide (g.hi < f.lo)

/-- Does the field lie in one dword. -/
def FldRow.inDword (f : FldRow) : Bool := decide (f.lo ≤ f.hi) && decide (f.hi < 32)

theorem FldRow.write_lt (f : FldRow) {v x : Nat} (hf : f.inDword = true) (hx : x < 2 ^ 32) : f.write v x < 2 ^ 32 := by
  simp only [FldRow.inDword, Bool.and_eq_true, decide_eq_true_eq] at hf
  unfold FldRow.write
  split
  case h_5 => exact hx
  all_goals exact setBits_lt _ _ hf.1 hf.2 hx

theorem FldRow.write_apart {f g : FldRow} (v x : Nat) (hf : f.inDword = true) (hg : g.inDword = true) (h : f.apart g = true) :
    bits (f.write v x) g.hi g.lo = bits x g.hi g.lo := by
  simp only [FldRow.inDword, FldRow.apart, Bool.and_eq_true, Bool.or_eq_true, decide_eq_true_eq] at hf hg h
  have set (y : Nat) : bits (setBits x f.hi f.lo y) g.hi g.lo = bits x g.hi g.lo := by
    rcases h with h | h
    · exact bits_setBits_above _ _ hf.1 h
    · exact bits_setBits_below _ _ hf.1 hg.1 h
  unfold FldRow.write
  split
  case h_5 => rfl
  all_goals exact set _

theorem FldRow.write_self {f : FldRow} (v x : Nat) (hf : f.inDword = true) (ht : f.ty.takesWrite = true) :
    bits (f.write v x) f.hi f.lo = bits v f.hi f.lo := by
  simp only [FldRow.inDword, Bool.and_eq_true, decide_eq_true_eq] at hf
  have set : bits (setBits x f.hi f.lo (bits v f.hi f.lo)) f.hi f.lo = bits v f.hi f.lo := by
    rw [bits_setBits_self _ _ hf.1, Nat.mod_eq_of_lt (bits_lt _ _ _)]
  obtain ⟨hi, lo, ty, rst⟩ := f
  cases ty
  case rw | rwe | hws => exact set
  all_goals exact absurd ht Bool.false_ne_true

theorem foldl_write_lt {l : List FldRow} {v x : Nat} (hl : ∀ f ∈ l, f.inDword = true) (hx : x < 2 ^ 32) :
    l.foldl (FldRow.write v) x < 2 ^ 32 := by
  induction l generalizing x with
  | nil => exact hx
  | cons f l ih => exact ih (fun g hg => hl g (by simp [hg])) (f.write_lt (hl f (by simp)) hx)

theorem bits_foldl_apart {l : List FldRow} {g : FldRow} (v x : Nat) (hl : ∀ f ∈ l, f.inDword = true ∧ f.apart g = true)
    (hg : g.inDword = true) : bits (l.foldl (FldRow.write v) x) g.hi g.lo = bits x g.hi g.lo := by
  induction l generalizing x with
  | nil => rfl
  | cons f l ih =>
    obtain ⟨h1, h2⟩ := hl f (by simp)
    exact (ih _ fun k hk => hl k (by simp [hk])).trans (FldRow.write_apart v x h1 hg h2)

/-- Are the fields of a row each in one dword, and no two of them on a common bit. -/
def RegRow.tidy (r : RegRow) : Prop := (∀ f ∈ r.flds, f.inDword = true) ∧ r.flds.Pairwise fun f g => f.apart g = true

theorem FldRow.apart_symm {f g : FldRow} (h : f.apart g = true) : g.apart f = true := by
  simp only [FldRow.apart, Bool.or_eq_true] at h ⊢
  exact h.symm

/-- A field that a plain write stores reads as the written bits. -/
theorem bits_foldl_mem {l : List FldRow} {f : FldRow} (v x : Nat) (hl : ∀ f ∈ l, f.inDword = true)
    (hp : l.Pairwise fun f g => f.apart g = true) (hf : f ∈ l) (ht : f.ty.takesWrite = true) :
    bits (l.foldl (FldRow.write v) x) f.hi f.lo = bits v f.hi f.lo := by
  induction l generalizing x with
  | nil => simp at hf
  | cons g l ih =>
    obtain ⟨hg, hp⟩ := List.pairwise_cons.mp hp
    have hl' : ∀ k ∈ l, k.inDword = true := fun k hk => hl k (by simp [hk])
    rcases List.mem_cons.mp hf with rfl | hm
    · refine (bits_foldl_apart v _ (fun k hk => ⟨hl' k hk, FldRow.apart_symm (hg k hk)⟩) (hl f (by simp))).trans ?_
      exact FldRow.write_self v x (hl f (by simp)) ht
    · exact ih _ hl' hp hm

theorem mergeWrite_lt {r : RegRow} {old v : Nat} (hr : r.tidy) (h : old < 2 ^ 32) : mergeWrite r old v < 2 ^ 32 := by
  rw [mergeWrite_eq]
  exact foldl_write_lt hr.1 h

/-- After a plain write, a field that it stores reads as the written bits. -/
theorem State.get_store {s : State} {x : Nat} {r : RegRow} {v : Dword} {f : FldRow} (hr : rowOf x = some r) (ht : r.tidy)
    (hf : f ∈ r.flds) (hw : f.ty.takesWrite = true) : (s.store x v).get ⟨x, f.hi, f.lo⟩ = bits v.toNat f.hi f.lo := by
  have hlt := mergeWrite_lt (v := v.toNat) ht (s.rd x).isLt
  rw [State.store, hr]
  simp only [State.get, State.rd_wr_self, BitVec.toNat_ofNat]
  rw [Nat.mod_eq_of_lt hlt, mergeWrite_eq]
  exact bits_foldl_mem _ _ ht.1 ht.2 hf hw

theorem Frame.store {ps : List Part} {rs : Nat → Bool} {s t : State} (h : Frame ps rs s t) (x : Nat) (v : Dword)
    (ha : (rs x || logReg x) = true) : Frame ps rs s (t.store x v) := by
  unfold State.store
  split
  · exact h.wr _ _ ha
  · exact h

end Sys2Proof.Machine
end

section
namespace Sys2Proof.Machine

variable {s t u : State} {ps : List Part} {rs : Nat → Bool}

/-! ### What the check of a block leaves (R447 to R449) -/

/-- The registers in which store integrity shows what it finds. -/
def eccRegs : List Nat := [R.ECC_STAT, R.ECC_CNT_CORR, R.ECC_CNT_UNCORR, R.ECC_CNT_HARD, R.ECC_CNT_TAGOVF, R.ECC_LAST_LO, R.ECC_LAST_HI]

section ecc
variable (hp : Part.ecc ∈ ps) (hr : ∀ a ∈ eccRegs, rs a = true)
include hp hr

theorem Frame.modEcc (h : Frame ps rs s t) (f : Ecc → Ecc) : Frame ps rs s (t.modEcc f) := by
  have := hr
  exact h.put_ecc hp _

theorem eccReg_open {a : Nat} (ha : a ∈ eccRegs) : (rs a || logReg a) = true := by
  have := hp
  simp [hr a ha]

theorem Frame.eccLast (h : Frame ps rs s t) (b : Block) (word kind col : Nat) : Frame ps rs s (t.eccLast b word kind col) := by
  have lo := eccReg_open hp hr (a := R.ECC_LAST_LO) (by decide)
  have hi := eccReg_open hp hr (a := R.ECC_LAST_HI) (by decide)
  exact (((h.set _ _ lo).set _ _ hi).set _ _ hi).set _ _ hi

theorem Frame.eccTag (h : Frame ps rs s t) (x : EccTag) : Frame ps rs s (t.eccTag x) := by
  have full := (h.inc F.ECC_CNT_TAGOVF_COUNT (eccReg_open hp hr (by decide))).setB F.ECC_STAT_TAGOVF true (eccReg_open hp hr (by decide))
  unfold State.eccTag
  exact .ite h (.ite (h.modEcc hp hr _) (.ite ((full.modEcc hp hr _).ev0 _) full))

theorem Frame.eccSync (h : Frame ps rs s t) : Frame ps rs s t.eccSync := by
  have stat := eccReg_open hp hr (a := R.ECC_STAT) (by decide)
  exact (h.set _ _ stat).set _ _ stat

theorem Frame.eccHard (h : Frame ps rs s t) (b : Block) (word col : Nat) : Frame ps rs s (t.eccHard b word col) := by
  have h1 := ((h.inc F.ECC_CNT_HARD_COUNT (eccReg_open hp hr (by decide))).eccLast hp hr b word 3 col).ev Ev.ECC_HARD 0
    ([(1, b2n b.cram), (32, b.no), (32, word), (7, col)] ++ (if b.cram then [] else [(16, 8 * b.no / 1024)]))
  unfold State.eccHard
  dsimp only
  refine .ite (h1.modEcc hp hr _) (.ite h1 ?_)
  split
  · exact (h1.modEcc hp hr _).eccSync hp hr
  · exact h1

theorem Frame.eccCorr (h : Frame ps rs s t) (b : Block) (word col : Nat) : Frame ps rs s (t.eccCorr b word col) := by
  have log {v : State} (hv : Frame ps rs s v) (w c : Nat) : Frame ps rs s
      (((v.inc F.ECC_CNT_CORR_COUNT).eccLast b w 1 c).ev0 Ev.CORR |>.eccTag ⟨b, word, some col⟩) :=
    (((hv.inc F.ECC_CNT_CORR_COUNT (eccReg_open hp hr (by decide))).eccLast hp hr b w 1 c).ev0 _).eccTag hp hr _
  have h1 := log (v := if word == 8 || col == 74 then t.fresh.2 else t) (.ite h.fresh h)
  unfold State.eccCorr
  exact .ite ((h1 _ _).eccHard hp hr _ _ _) (h1 _ _)

theorem Frame.uncorrLog (h : Frame ps rs s t) (b : Block) (word : Nat) : Frame ps rs s (t.uncorrLog b word) :=
  ((h.inc F.ECC_CNT_UNCORR_COUNT (eccReg_open hp hr (by decide))).eccLast hp hr b word 2 0x7F).ev _ _ _

theorem Frame.eccUncorr (h : Frame ps rs s t) (b : Block) (word : Nat) : Frame ps rs s (t.eccUncorr b word) := by
  have h1 := h.eccTag hp hr ⟨b, word, none⟩
  exact .ite h1 ((h1.uncorrLog hp hr b word).modEcc hp hr _)

theorem Frame.poisonWords (h : Frame ps rs s t) (b : Block) (ws : List Nat) : Frame ps rs s (t.poisonWords b ws) := by
  refine .ite (h.foldl _ _ fun v w hv => hv.modEcc hp hr _) (h.foldl _ _ fun v w hv => ?_)
  unfold State.poisonWord
  split
  · exact hv
  · split
    · exact hv
    · exact hv.modPage _ _

theorem Frame.eccRead (h : Frame ps rs s t) (cram : Bool) (addr : Nat) (err : ReadErr) : Frame ps rs s (t.eccRead cram addr err).1 := by
  unfold State.eccRead
  dsimp only
  split
  · exact h
  · exact h.eccCorr hp hr _ _ _
  · exact (h.poisonWords hp hr _ _).eccUncorr hp hr _ _

theorem Frame.poisonRead (h : Frame ps rs s t) (addr : Nat) (poison : Bool) : Frame ps rs s (t.poisonRead addr poison) :=
  .ite (h.uncorrLog hp hr _ _) h

end ecc

/-! ### The Sett window (R113 to R115) -/

/-- Logging leaves the window's latches alone. -/
theorem Frame.winLatch (h : Frame ps rs s t) (hp : Part.sett ∉ ps) : t.sett.winLatch = s.sett.winLatch :=
  have hq : t.sett.quiet = s.sett.quiet := h.parts .sett hp
  (congrArg Sett.winLatch hq : t.sett.quiet.winLatch = s.sett.quiet.winLatch)

@[simp] theorem State.drain_winLatch (s : State) : s.drain.sett.winLatch = s.sett.winLatch :=
  (Frame.refl [] noRegs s).drain.winLatch (by simp)

/-- Is a read of the window one that answers a word (R13, R114). -/
def State.windowReads (s : State) (a : Agent) (off len : Nat) : Prop :=
  a ≠ .pf1 ∧ s.serves a off = true ∧ 0x200000 ≤ off ∧ off < 0x400000 ∧ paddedOk (off % 16) len = true

/-- The window's word that an offset names. -/
def State.windowAddr (s : State) (off : Nat) : Nat := s.get F.SET_WINSEL_WIN * 131072 + (off - 0x200000) / 16

/-- The agent's latch takes a word. -/
def State.winTake (s : State) (a : Agent) (addr : Nat) (l : Nat × Nat) : State :=
  { s with sett := { s.sett with winLatch := mput s.sett.winLatch (agentNum a) (addr, l.1 + l.2 * 2 ^ 72) } }

section window
variable {a : Agent} {off len : Nat} {err : ReadErr}

theorem State.windowRead_not (h : ¬ s.windowReads a off len) : s.windowRead a off len err = s.zeroAnswer a len := by
  unfold State.windowRead
  rw [if_pos]
  simp only [State.windowReads, not_and] at h
  by_contra hc
  simp only [Bool.or_eq_true, decide_eq_true_eq, Bool.not_eq_true', not_or, not_lt, not_le, Bool.not_eq_false] at hc
  obtain ⟨⟨⟨⟨h1, h2⟩, h3⟩, h4⟩, h5⟩ := hc
  exact h h1 h2 h3 h4 h5

theorem State.windowRead_is (h : s.windowReads a off len) : s.windowRead a off len err =
    if off % 16 ≠ 0 then s.wordAnswer a (off % 16) len (s.winLatched a (s.windowAddr off))
    else match s.settWord (s.windowAddr off) with
      | none => (s.winTake a (s.windowAddr off) (0, 0)).wordAnswer a 0 len (0, 0)
      | some w =>
        let r := s.eccRead false (s.windowAddr off) err
        let bad := ((r.1.settWord (s.windowAddr off)).map fun x => x.poison).getD false
        let l := (w.v.toNat, flagByte w.eop bad r.2 false)
        ((r.1.winTake a (s.windowAddr off) l).poisonRead (s.windowAddr off) bad).wordAnswer a 0 len l := by
  obtain ⟨h1, h2, h3, h4, h5⟩ := h
  unfold State.windowRead
  rw [if_neg (by simp [h1, h2, h5]; omega)]
  simp only [bne_iff_ne, ne_eq, State.windowAddr]
  rfl

end window

theorem flagPoison_flagByte (v : Nat) (eop bad corr noword : Bool) : flagPoison (v, flagByte eop bad corr noword) = bad := by
  have h : ∀ x y z w : Bool, bit (flagByte x y z w) 1 = y := by decide +kernel
  exact h eop bad corr noword

/-! ### A queue's configuration (R118, R122, R124) -/

/-- The row of SET_HQ_CFG. -/
def hqCfgRow : RegRow :=
  ⟨0x41000, [(16, 0x80)], .queue, .sys, [⟨29, 16, .rw, 1024⟩, ⟨15, 8, .rw, 0⟩, ⟨2, 2, .rw, 0⟩, ⟨1, 1, .rw, 0⟩, ⟨0, 0, .rw, 0⟩]⟩

theorem hqCfgRow_tidy : hqCfgRow.tidy := by unfold RegRow.tidy; decide

theorem rowOf_hqCfg : ∀ q : Fin 16, rowOf (R.SET_HQ_CFG + 0x80 * q) = some hqCfgRow := by decide +kernel

theorem logReg_hqCfg : ∀ q : Fin 16, logReg (R.SET_HQ_CFG + 0x80 * q) = false := by decide +kernel

/-- A stored write of SET_HQ_CFG puts the written bits into each of its fields. -/
theorem State.hqCfg_store (s : State) (q : Fin 16) (v : Dword) {f : FldRow} (hf : f ∈ hqCfgRow.flds) (ht : f.ty.takesWrite = true) :
    (s.store (R.SET_HQ_CFG + 0x80 * q) v).get ⟨R.SET_HQ_CFG + 0x80 * q, f.hi, f.lo⟩ = bits v.toNat f.hi f.lo :=
  State.get_store (rowOf_hqCfg q) hqCfgRow_tidy hf ht

@[simp] theorem State.modPage_queues (s : State) (id : Nat) (f : Page → Page) : (s.modPage id f).sett.queues = s.sett.queues := by
  unfold State.modPage; split <;> rfl

@[simp] theorem State.dropHold_queues (s : State) (x : Holder) (id : Nat) : (s.dropHold x id).sett.queues = s.sett.queues := by
  unfold State.dropHold
  split
  · rfl
  · dsimp only
    split_ifs
    · rfl
    · simp
    · rfl

@[simp] theorem State.dropHolds_queues (s : State) (x : Holder) (ids : List Nat) : (s.dropHolds x ids).sett.queues = s.sett.queues := by
  unfold State.dropHolds
  induction ids generalizing s with
  | nil => rfl
  | cons id ids ih => simp [ih]

/-- A flush empties its queue and leaves the others (R122). -/
theorem State.hqFlush_hq (s : State) (q j : Nat) :
    (s.hqFlush q).hq j = if j = q then { s.hq q with pkts := [], sent := 0 } else s.hq j := by
  split
  · rename_i h; subst h
    exact mgetD_mput_self _ _ _ _
  · rename_i h
    exact (mgetD_mput_ne _ _ _ h).trans (by simp [State.hq])

@[simp] theorem State.store_sett (s : State) (x : Nat) (v : Dword) : (s.store x v).sett = s.sett := by
  unfold State.store; split <;> rfl

theorem State.store_rd_ne (s : State) {x y : Nat} (v : Dword) (h : y ≠ x) : (s.store x v).rd y = s.rd y := by
  unfold State.store
  split
  · exact State.rd_wr_ne _ _ h
  · rfl

/-- A one-bit field of a dword. -/
theorem bits_one (x i : Nat) : (bits x i i != 0) = (bits x i i == 1) := by
  have h := bits_lt x i i
  rw [Nat.sub_self] at h
  generalize bits x i i = y at *
  have : y = 0 ∨ y = 1 := by omega
  rcases this with rfl | rfl <;> rfl

theorem hqf_bit_ok {x i q : Nat} (hi : i < 32) : (hqf ⟨x, i, i⟩ q).ok := ⟨Nat.le_refl i, hi⟩

section cfg
variable (s : State) (q : Fin 16) (v : Dword)

/-- SET_HQ_CFG_q as written, before the conditions of R124 and R533. -/
def State.hqCfgStored : State := s.store (R.SET_HQ_CFG + 0x80 * q) v

/-- The addresses of the queue's fields lie in its SET_HQ_CFG. -/
theorem hqf_cfg (hi lo : Nat) : hqf ⟨R.SET_HQ_CFG, hi, lo⟩ q = ⟨R.SET_HQ_CFG + 0x80 * q, hi, lo⟩ := rfl

theorem State.hqCfgStored_maxpg : (s.hqCfgStored q v).get (hqf F.SET_HQ_CFG_MAXPG q) = fval (hqf F.SET_HQ_CFG_MAXPG q) v :=
  s.hqCfg_store q v (f := ⟨29, 16, .rw, 1024⟩) (by decide) rfl

theorem State.hqCfgStored_owner : (s.hqCfgStored q v).flag (hqf F.SET_HQ_CFG_OWNER q) = (fval (hqf F.SET_HQ_CFG_OWNER q) v == 1) :=
  (congrArg (· != 0) (s.hqCfg_store q v (f := ⟨2, 2, .rw, 0⟩) (by decide) rfl)).trans (bits_one _ 2)

theorem State.hqCfgStored_mode : (s.hqCfgStored q v).flag (hqf F.SET_HQ_CFG_MODE q) = (fval (hqf F.SET_HQ_CFG_MODE q) v == 1) :=
  (congrArg (· != 0) (s.hqCfg_store q v (f := ⟨1, 1, .rw, 0⟩) (by decide) rfl)).trans (bits_one _ 1)

theorem State.hqCfgStored_en : (s.hqCfgStored q v).flag (hqf F.SET_HQ_CFG_EN q) = (fval (hqf F.SET_HQ_CFG_EN q) v == 1) :=
  (congrArg (· != 0) (s.hqCfg_store q v (f := ⟨0, 0, .rw, 0⟩) (by decide) rfl)).trans (bits_one _ 0)

theorem State.hqCfgStored_size : (s.hqCfgStored q v).get (hqf F.SET_HQ_SIZE_SIZE q) = s.get (hqf F.SET_HQ_SIZE_SIZE q) := by
  have h : (hqf F.SET_HQ_SIZE_SIZE q).addr ≠ R.SET_HQ_CFG + 0x80 * q := by
    show 0x41018 + 0x80 * q.val ≠ 0x41000 + 0x80 * q.val
    omega
  rw [State.get, State.hqCfgStored, State.store_rd_ne _ _ h, State.get]

@[simp] theorem State.hqCfgStored_hq (j : Nat) : (s.hqCfgStored q v).hq j = s.hq j := by simp [State.hq, State.hqCfgStored]

/-- SET_HQ_CFG_q as a write leaves it while EN = 1: MODE and OWNER stay (R124). -/
def State.hqCfgHeld : State :=
  ((s.hqCfgStored q v).setB (hqf F.SET_HQ_CFG_MODE q) (s.flag (hqf F.SET_HQ_CFG_MODE q))).setB (hqf F.SET_HQ_CFG_OWNER q)
    (s.flag (hqf F.SET_HQ_CFG_OWNER q))

/-- Another field of SET_HQ_CFG_q stays when MODE and OWNER are put back. -/
theorem State.hqCfgHeld_other {hi lo : Nat} (h : lo ≤ hi) (hd : hi < 1 ∨ 2 < lo) :
    (s.hqCfgHeld q v).get (hqf ⟨R.SET_HQ_CFG, hi, lo⟩ q) = (s.hqCfgStored q v).get (hqf ⟨R.SET_HQ_CFG, hi, lo⟩ q) := by
  have hd1 : hi < 1 ∨ 1 < lo := by omega
  have hd2 : hi < 2 ∨ 2 < lo := by omega
  have own := State.get_set_other (f := hqf F.SET_HQ_CFG_OWNER q) (g := hqf ⟨R.SET_HQ_CFG, hi, lo⟩ q)
    ((s.hqCfgStored q v).setB (hqf F.SET_HQ_CFG_MODE q) (s.flag (hqf F.SET_HQ_CFG_MODE q)))
    (b2n (s.flag (hqf F.SET_HQ_CFG_OWNER q))) (hqf_bit_ok (by decide)) h rfl hd2
  exact own.trans (State.get_set_other (f := hqf F.SET_HQ_CFG_MODE q) (g := hqf ⟨R.SET_HQ_CFG, hi, lo⟩ q) _ _
    (hqf_bit_ok (by decide)) h rfl hd1)

theorem State.hqCfgHeld_mode : (s.hqCfgHeld q v).flag (hqf F.SET_HQ_CFG_MODE q) = s.flag (hqf F.SET_HQ_CFG_MODE q) := by
  have h := State.get_set_other ((s.hqCfgStored q v).setB (hqf F.SET_HQ_CFG_MODE q) (s.flag (hqf F.SET_HQ_CFG_MODE q)))
    (f := hqf F.SET_HQ_CFG_OWNER q) (g := hqf F.SET_HQ_CFG_MODE q) (b2n (s.flag (hqf F.SET_HQ_CFG_OWNER q)))
    (hqf_bit_ok (by decide)) (Nat.le_refl 1) rfl (.inl Nat.one_lt_two)
  exact (congrArg (· != 0) h).trans (State.flag_setB_self _ _ (hqf_bit_ok (by decide)) rfl)

theorem State.hqCfgHeld_owner : (s.hqCfgHeld q v).flag (hqf F.SET_HQ_CFG_OWNER q) = s.flag (hqf F.SET_HQ_CFG_OWNER q) :=
  State.flag_setB_self _ _ (hqf_bit_ok (by decide)) rfl

theorem State.hqCfgHeld_en : (s.hqCfgHeld q v).flag (hqf F.SET_HQ_CFG_EN q) = (fval (hqf F.SET_HQ_CFG_EN q) v == 1) :=
  (congrArg (· != 0) (s.hqCfgHeld_other q v (Nat.le_refl 0) (by decide))).trans (s.hqCfgStored_en q v)

@[simp] theorem State.hqCfgHeld_hq (j : Nat) : (s.hqCfgHeld q v).hq j = s.hq j := s.hqCfgStored_hq q v j

variable {s q v}

theorem Frame.hqCfgStored (h : Frame ps rs s t) (ha : rs (R.SET_HQ_CFG + 0x80 * q) = true) : Frame ps rs s (t.hqCfgStored q v) :=
  h.store _ _ (by simp [ha])

theorem Frame.hqCfgHeld (h : Frame ps rs s t) (ha : rs (R.SET_HQ_CFG + 0x80 * q) = true) : Frame ps rs s (t.hqCfgHeld q v) := by
  have ho : (rs (R.SET_HQ_CFG + 0x80 * q) || logReg (R.SET_HQ_CFG + 0x80 * q)) = true := by simp [ha]
  exact ((h.hqCfgStored ha).setB _ _ ho).setB _ _ ho

/-- A write with MAXPG 0 is dropped (R124). -/
theorem State.hqCfgWrite_zero (h0 : fval (hqf F.SET_HQ_CFG_MAXPG q) v = 0) : s.hqCfgWrite q v = s.ev0 Ev.SET_CFG_RANGE := by
  simp [State.hqCfgWrite, h0]

/-- A write while the queue runs (R122, R124). -/
theorem State.hqCfgWrite_running (h0 : fval (hqf F.SET_HQ_CFG_MAXPG q) v ≠ 0) (hen : s.flag (hqf F.SET_HQ_CFG_EN q) = true) :
    s.hqCfgWrite q v = if fval (hqf F.SET_HQ_CFG_EN q) v == 1 then s.hqCfgHeld q v
      else ((s.hqCfgHeld q v).hqFlush q).ev0 Ev.SET_HQ_FLUSH := by
  have e := s.hqCfgHeld_en q v
  unfold State.hqCfgHeld State.hqCfgStored at e
  unfold State.hqCfgWrite State.hqCfgHeld State.hqCfgStored
  simp only [h0, hen, beq_iff_eq, if_false, if_true, e, Bool.not_true, Bool.false_and, Bool.true_and, Bool.false_eq_true]
  cases h : fval (hqf F.SET_HQ_CFG_EN q) v == 1 <;> simp_all

/-- A write while the queue stands (R124, R533). -/
theorem State.hqCfgWrite_stopped (h0 : fval (hqf F.SET_HQ_CFG_MAXPG q) v ≠ 0) (hen : s.flag (hqf F.SET_HQ_CFG_EN q) = false) :
    s.hqCfgWrite q v = if fval (hqf F.SET_HQ_CFG_EN q) v == 1 && !(fval (hqf F.SET_HQ_CFG_MODE q) v == 1) &&
        s.get (hqf F.SET_HQ_SIZE_SIZE q) == 0 then (s.hqCfgStored q v).setB (hqf F.SET_HQ_CFG_EN q) false else s.hqCfgStored q v := by
  rw [← s.hqCfgStored_en q v, ← s.hqCfgStored_mode q v, ← s.hqCfgStored_size q v]
  unfold State.hqCfgWrite State.hqCfgStored
  simp [h0, hen]

end cfg

theorem logReg_hqf_cfg (q : Fin 16) (hi lo : Nat) : logReg (hqf ⟨R.SET_HQ_CFG, hi, lo⟩ q).addr = false := by
  rw [show (hqf ⟨R.SET_HQ_CFG, hi, lo⟩ q).addr = R.SET_HQ_CFG + 0x80 * q from rfl, logReg_hqCfg q]

theorem State.hqFlush_get (s : State) {q : Nat} (hq : q < 16) {f : Fld} (h : logReg f.addr = false) : (s.hqFlush q).get f = s.get f := by
  rw [State.get, ((Frame.refl [] noRegs s).hqFlush hq).regs _ rfl h, State.get]

section cfgLeads
variable {a : Agent} {q : Fin 16} {v : Dword} (hm : s.mayWrite a (R.SET_HQ_CFG + 0x80 * q))
include hm

theorem exec_hostqCfgWrite : exec (.hostqCfgWrite a q v) s = (s.hqCfgWrite q v).done :=
  congrArg State.done (State.gate_may hm _)

/-- A write of SET_HQ_CFG_q while the queue runs: MODE and OWNER stay, and EN falling drops every packet (R122, R124). -/
theorem hostqCfgWrite_running (h0 : fval (hqf F.SET_HQ_CFG_MAXPG q) v ≠ 0) (hen : s.flag (hqf F.SET_HQ_CFG_EN q) = true) :
    Leads (.hostqCfgWrite a q v) s [] (regsIn [R.SET_HQ_CFG + 0x80 * q]) fun u =>
      u.get (hqf F.SET_HQ_CFG_MAXPG q) = fval (hqf F.SET_HQ_CFG_MAXPG q) v ∧ (∀ j, j ≠ q.val → u.hq j = s.hq j) ∧
        u.flag (hqf F.SET_HQ_CFG_MODE q) = s.flag (hqf F.SET_HQ_CFG_MODE q) ∧
          u.flag (hqf F.SET_HQ_CFG_OWNER q) = s.flag (hqf F.SET_HQ_CFG_OWNER q) ∧
          u.flag (hqf F.SET_HQ_CFG_EN q) = (fval (hqf F.SET_HQ_CFG_EN q) v == 1) ∧
          ((fval (hqf F.SET_HQ_CFG_EN q) v == 1) = true → u.hq q = s.hq q) ∧
          ((fval (hqf F.SET_HQ_CFG_EN q) v == 1) = false → (u.hq q).pkts = [] ∧ (u.hq q).sent = 0 ∧ u.pends 28) := by
  have hw := State.hqCfgWrite_running h0 hen
  have hf : Frame [] (regsIn [R.SET_HQ_CFG + 0x80 * q]) s (s.hqCfgHeld q v) := (Frame.refl _ _ s).hqCfgHeld (by simp [regsIn])
  have hx : (s.hqCfgHeld q v).get (hqf F.SET_HQ_CFG_MAXPG q) = fval (hqf F.SET_HQ_CFG_MAXPG q) v :=
    (s.hqCfgHeld_other q v (by decide) (by decide)).trans (s.hqCfgStored_maxpg q v)
  by_cases on : (fval (hqf F.SET_HQ_CFG_EN q) v == 1) = true
  · rw [if_pos on] at hw
    refine ⟨s.hqCfgHeld q v, (exec_hostqCfgWrite hm).trans (by rw [hw]; rfl), ⟨hx, by simp, s.hqCfgHeld_mode q v, s.hqCfgHeld_owner q v,
      s.hqCfgHeld_en q v, by simp, by simp [on]⟩, hf⟩
  · rw [if_neg on] at hw
    have keep {hi lo : Nat} : (((s.hqCfgHeld q v).hqFlush q).ev0 Ev.SET_HQ_FLUSH).get (hqf ⟨R.SET_HQ_CFG, hi, lo⟩ q) =
        (s.hqCfgHeld q v).get (hqf ⟨R.SET_HQ_CFG, hi, lo⟩ q) := by
      rw [State.ev0_get _ _ (logReg_hqf_cfg q hi lo), State.hqFlush_get _ q.isLt (logReg_hqf_cfg q hi lo)]
    have hq (j : Nat) : (((s.hqCfgHeld q v).hqFlush q).ev0 Ev.SET_HQ_FLUSH).hq j =
        if j = q then { s.hq q with pkts := [], sent := 0 } else s.hq j := by
      have h := (s.hqCfgHeld q v).hqFlush_hq q j
      simp only [State.hqCfgHeld_hq] at h
      simpa only [State.hq, State.ev0_sett] using h
    refine ⟨((s.hqCfgHeld q v).hqFlush q).ev0 Ev.SET_HQ_FLUSH, (exec_hostqCfgWrite hm).trans (by rw [hw]; rfl),
      ⟨keep.trans hx, fun j hj => by rw [hq, if_neg hj], ?_, ?_, ?_, fun h => absurd h on, fun _ => ?_⟩, (hf.hqFlush q.isLt).ev0 _⟩
    · exact (congrArg (· != 0) keep).trans (s.hqCfgHeld_mode q v)
    · exact (congrArg (· != 0) keep).trans (s.hqCfgHeld_owner q v)
    · exact (congrArg (· != 0) keep).trans (s.hqCfgHeld_en q v)
    · rw [hq, if_pos rfl]
      exact ⟨rfl, rfl, State.ev0_pends _ (by decide)⟩

/-- A write of SET_HQ_CFG_q while the queue stands: all fields follow, but EN does not rise in DMA mode with SIZE 0 (R124, R533). -/
theorem hostqCfgWrite_stopped (h0 : fval (hqf F.SET_HQ_CFG_MAXPG q) v ≠ 0) (hen : s.flag (hqf F.SET_HQ_CFG_EN q) = false) :
    Leads (.hostqCfgWrite a q v) s [] (regsIn [R.SET_HQ_CFG + 0x80 * q]) fun u =>
      u.get (hqf F.SET_HQ_CFG_MAXPG q) = fval (hqf F.SET_HQ_CFG_MAXPG q) v ∧ (∀ j, j ≠ q.val → u.hq j = s.hq j) ∧
        u.flag (hqf F.SET_HQ_CFG_MODE q) = (fval (hqf F.SET_HQ_CFG_MODE q) v == 1) ∧
          u.flag (hqf F.SET_HQ_CFG_OWNER q) = (fval (hqf F.SET_HQ_CFG_OWNER q) v == 1) ∧ u.hq q = s.hq q ∧
          u.flag (hqf F.SET_HQ_CFG_EN q) = ((fval (hqf F.SET_HQ_CFG_EN q) v == 1) &&
            ((fval (hqf F.SET_HQ_CFG_MODE q) v == 1) || s.get (hqf F.SET_HQ_SIZE_SIZE q) != 0)) := by
  have hw := State.hqCfgWrite_stopped h0 hen
  have hf : Frame [] (regsIn [R.SET_HQ_CFG + 0x80 * q]) s (s.hqCfgStored q v) := (Frame.refl _ _ s).hqCfgStored (by simp [regsIn])
  split at hw
  case isFalse hc =>
    refine ⟨s.hqCfgStored q v, (exec_hostqCfgWrite hm).trans (by rw [hw]; rfl), ⟨s.hqCfgStored_maxpg q v, by simp, s.hqCfgStored_mode q v,
      s.hqCfgStored_owner q v, by simp, ?_⟩, hf⟩
    rw [s.hqCfgStored_en q v]
    cases h1 : fval (hqf F.SET_HQ_CFG_EN q) v == 1 <;> cases h2 : fval (hqf F.SET_HQ_CFG_MODE q) v == 1 <;> simp_all
  case isTrue hc =>
    have other {hi lo : Nat} (h : lo ≤ hi) (hl : 0 < lo) :
        ((s.hqCfgStored q v).setB (hqf F.SET_HQ_CFG_EN q) false).get (hqf ⟨R.SET_HQ_CFG, hi, lo⟩ q) =
          (s.hqCfgStored q v).get (hqf ⟨R.SET_HQ_CFG, hi, lo⟩ q) :=
      State.get_set_other (f := hqf F.SET_HQ_CFG_EN q) (g := hqf ⟨R.SET_HQ_CFG, hi, lo⟩ q) _ _ (hqf_bit_ok (by decide)) h rfl (.inr hl)
    refine ⟨(s.hqCfgStored q v).setB (hqf F.SET_HQ_CFG_EN q) false, (exec_hostqCfgWrite hm).trans (by rw [hw]; rfl),
      ⟨(other (by decide) (by decide)).trans (s.hqCfgStored_maxpg q v), fun j _ => s.hqCfgStored_hq q v j, ?_, ?_,
        s.hqCfgStored_hq q v q, ?_⟩, hf.setB _ _ (by simp [regsIn, hqf, Fld.at])⟩
    · exact (congrArg (· != 0) (other (Nat.le_refl 1) (by decide))).trans (s.hqCfgStored_mode q v)
    · exact (congrArg (· != 0) (other (Nat.le_refl 2) (by decide))).trans (s.hqCfgStored_owner q v)
    · rw [State.flag_setB_self _ _ (hqf_bit_ok (by decide)) rfl]
      simp only [Bool.and_eq_true] at hc
      obtain ⟨⟨h1, h2⟩, h3⟩ := hc
      simp_all

end cfgLeads

section windowDoes
variable {a : Agent} {off len : Nat} {err : ReadErr}

/-- What the agent's latch holds after a read of the window, and that the other agents' latches stay (R114). -/
theorem State.winTake_latch (s : State) (a : Agent) (addr : Nat) (l : Nat × Nat) :
    mget (s.winTake a addr l).sett.winLatch (agentNum a) = some (addr, l.1 + l.2 * 2 ^ 72) ∧
      ∀ b, b ≠ agentNum a → mget (s.winTake a addr l).sett.winLatch b = mget s.sett.winLatch b :=
  ⟨mget_mput_self _ _ _, fun _ hb => mget_mput_ne _ _ hb⟩

/-- A read of the window that is not one of its words answers zero (R13, R114). -/
theorem settWindowRead_not (h : ¬ s.windowReads a off len) : Does (.settWindowRead a off len err) s [.out] noRegs fun t =>
    t.out = s.out ++ [Out.answer a (zeros len) false] := by
  refine ⟨(s.zeroAnswer a len).drain, congrArg State.done (State.windowRead_not h), State.drain_out _,
    ((Frame.refl _ _ s).emit (by simp) _).drain⟩

/-- A read at a later byte answers from the agent's latch (R114). -/
theorem settWindowRead_later (h : s.windowReads a off len) (ho : off % 16 ≠ 0) :
    Does (.settWindowRead a off len err) s [.out] noRegs fun t => t.out = s.out ++ [Out.answer a
      (bytesAt (padded (s.winLatched a (s.windowAddr off)).1 (s.winLatched a (s.windowAddr off)).2) (off % 16) len)
      (flagPoison (s.winLatched a (s.windowAddr off)))] := by
  have hw := State.windowRead_is (err := err) h
  rw [if_pos ho] at hw
  exact ⟨_, congrArg State.done hw, State.drain_out _, ((Frame.refl _ _ s).emit (by simp) _).drain⟩

/-- A read of a word of a free or retired page answers zero, and latches it (R114). -/
theorem settWindowRead_free (h : s.windowReads a off len) (ho : off % 16 = 0) (hn : s.settWord (s.windowAddr off) = none) :
    Does (.settWindowRead a off len err) s [.out, .sett] noRegs fun t =>
      t.out = s.out ++ [Out.answer a (bytesAt (padded 0 0) 0 len) false] ∧
        t.sett.winLatch = (s.winTake a (s.windowAddr off) (0, 0)).sett.winLatch := by
  have hw := State.windowRead_is (err := err) h
  rw [if_neg (by simp [ho]), hn] at hw
  refine ⟨_, congrArg State.done hw, ⟨State.drain_out _, State.drain_winLatch _⟩, ?_⟩
  exact (((Frame.refl _ _ s).put_sett (by simp) _).emit (by simp) _).drain

/-- A read of a word answers it as the check of its block leaves it, and latches it (R102, R114, R115). -/
theorem settWindowRead_word (h : s.windowReads a off len) (ho : off % 16 = 0) {w : SWord} (hn : s.settWord (s.windowAddr off) = some w)
    {r : State × Bool} (hr : r = s.eccRead false (s.windowAddr off) err) {bad : Bool}
    (hb : bad = ((r.1.settWord (s.windowAddr off)).map fun x => x.poison).getD false) :
    Does (.settWindowRead a off len err) s [.out, .sett, .ecc] (regsIn eccRegs) fun t =>
      t.out = s.out ++ [Out.answer a (bytesAt (padded w.v.toNat (flagByte w.eop bad r.2 false)) 0 len) bad] ∧
        t.sett.winLatch = (s.winTake a (s.windowAddr off) (w.v.toNat, flagByte w.eop bad r.2 false)).sett.winLatch := by
  have hw := State.windowRead_is (err := err) h
  rw [if_neg (by simp [ho]), hn] at hw
  dsimp only at hw
  rw [← hr, ← hb] at hw
  have hreg : ∀ x ∈ eccRegs, regsIn eccRegs x = true := fun x hx => List.elem_eq_true_of_mem hx
  have h1 : Frame [.ecc] (regsIn eccRegs) s r.1 := hr ▸ (Frame.refl _ _ s).eccRead (by simp) hreg _ _ _
  have h2 : Frame [.ecc] (regsIn eccRegs) (r.1.winTake a (s.windowAddr off) (w.v.toNat, flagByte w.eop bad r.2 false))
      ((r.1.winTake a (s.windowAddr off) (w.v.toNat, flagByte w.eop bad r.2 false)).poisonRead (s.windowAddr off) bad) :=
    (Frame.refl _ _ _).poisonRead (by simp) hreg _ _
  refine ⟨_, congrArg State.done hw, ⟨?_, ?_⟩, ?_⟩
  · rw [State.drain_out, State.wordAnswer, State.emit_out, flagPoison_flagByte]
    congr 1
    exact (h2.parts .out (by simp)).trans (h1.parts .out (by simp))
  · have hl : r.1.sett.winLatch = s.sett.winLatch := h1.winLatch (by simp)
    rw [State.drain_winLatch]
    refine (h2.winLatch (by simp)).trans ?_
    simp only [State.winTake, hl]
  · exact ((((h1.mono (by simp) fun _ h => h).put_sett (by simp) _).trans (h2.mono (by simp) fun _ h => h)).emit (by simp) _).drain

end windowDoes

end Sys2Proof.Machine

section
open Sys2Proof Sys2Proof.Machine

/-- Settles O13: the branches of `State.hqCfgWrite` and of `State.windowRead`, each with its frame. -/
theorem hostQueueSettingsAndWindowAreGuarded : Obligations.HostQueueSettingsAndWindowAreGuarded := by
  refine ⟨fun s a q v hm => ⟨fun h0 => ?_, fun h0 => ?_⟩, fun s a off v => ⟨fun hl => ?_, fun hl => ?_⟩, ?_⟩
  · refine ⟨(s.ev0 Ev.SET_CFG_RANGE).drain, ?_, ?_, ((Frame.refl _ _ s).ev0 _).drain⟩
    · exact (exec_hostqCfgWrite hm).trans (by rw [State.hqCfgWrite_zero h0]; rfl)
    · exact State.pends_drain (by decide) (State.ev0_pends _ (by decide))
  · cases hen : s.flag (hqf F.SET_HQ_CFG_EN q)
    · obtain ⟨u, he, ⟨h1, h2, h3⟩, hf⟩ := hostqCfgWrite_stopped hm h0 hen
      exact ⟨u, he, ⟨h1, h2, fun h => absurd h (by simp), fun _ => h3⟩, hf⟩
    · obtain ⟨u, he, ⟨h1, h2, h3⟩, hf⟩ := hostqCfgWrite_running hm h0 hen
      exact ⟨u, he, ⟨h1, h2, fun _ => h3, fun h => absurd h (by simp)⟩, hf⟩
  · exact Leads.nothing (if_neg (by simpa using hl))
  · refine ⟨(s.ev0 Ev.SET_WIN_WRITE).drain, if_pos hl, ?_, ((Frame.refl _ _ s).ev0 _).drain⟩
    exact State.pends_drain (by decide) (State.ev0_pends _ (by decide))
  · intro s a off len addr err ha
    subst ha
    refine ⟨settWindowRead_not, fun hok ho => ?_, fun hok ho hn => ?_, fun w r bad hok ho hn hr hb => ?_⟩
    · obtain ⟨t, he, hout, hf⟩ := settWindowRead_later (err := err) hok ho
      exact ⟨t, he, fun l hl => hl ▸ hout, hf⟩
    · obtain ⟨t, he, ⟨hout, hl⟩, hf⟩ := settWindowRead_free (err := err) hok ho hn
      obtain ⟨h1, h2⟩ := s.winTake_latch a (s.windowAddr off) (0, 0)
      exact ⟨t, he, ⟨hout, hl ▸ h1, hl ▸ h2⟩, hf⟩
    · obtain ⟨t, he, ⟨hout, hl⟩, hf⟩ := settWindowRead_word hok ho hn hr hb
      obtain ⟨h1, h2⟩ := s.winTake_latch a (s.windowAddr off) (w.v.toNat, flagByte w.eop bad r.2 false)
      exact ⟨t, he, ⟨hout, hl ▸ h1, hl ▸ h2⟩, hf⟩

end
end

section
namespace Sys2Proof.Machine

variable {s t u w : State} {r : Fn} {b : List Byte} {rs : Nat → Bool} {ps : List Part}

/-! ### What a step, or the end, of a command in flight leaves of the commands (R409, R412 to R416) -/

/-- The parts that a step of a command may change. -/
def stepParts : List Part := [.cmd, .sett, .ing, .aln, .ang, .isl, .osc, .outp, .pmu, .nrg, .ecc, .boot]

/-- u is s after a step: the commands in flight, the replies that wait and all that a reply depends on are as they were. -/
structure FlyKept (rs : Nat → Bool) (s u : State) : Prop where
  frame : Frame stepParts rs s u
  fly : u.cmd.fly = s.cmd.fly
  late : u.cmd.late = s.cmd.late

theorem FlyKept.refl : FlyKept rs s s := ⟨Frame.refl _ _ s, rfl, rfl⟩

theorem FlyKept.trans (h : FlyKept rs s t) (k : FlyKept rs t u) : FlyKept rs s u :=
  ⟨h.frame.trans k.frame, k.fly.trans h.fly, k.late.trans h.late⟩

/-- A step whose frame leaves the command part closed. -/
theorem FlyKept.of_frame (h : Frame ps rs s u) (hc : Part.cmd ∉ ps) (hp : ∀ p ∈ ps, p ∈ stepParts) : FlyKept rs s u :=
  have e : u.cmd = s.cmd := h.parts .cmd hc
  ⟨h.mono hp fun _ ha => ha, congrArg Cmd.fly e, congrArg Cmd.late e⟩

theorem FlyKept.foldl {α : Type} (f : State → α → State) (l : List α) (h : FlyKept rs s t)
    (hf : ∀ u a, FlyKept rs u (f u a)) : FlyKept rs s (l.foldl f t) := by
  induction l generalizing t with
  | nil => exact h
  | cons a l ih => exact ih (h.trans (hf t a))

theorem FlyKept.noneLate (h : FlyKept rs s u) (hn : s.NoneLate) : u.NoneLate := hn.frame h.frame (by decide) h.late

/-- A step that changes nothing outside the parts of a step, and of the commands neither those in flight nor the replies that wait. -/
theorem FlyKept.of_parts (h : u = { s with
      cmd := u.cmd, sett := u.sett, ing := u.ing, aln := u.aln, ang := u.ang, isl := u.isl, osc := u.osc, outp := u.outp, pmu := u.pmu,
      nrg := u.nrg, ecc := u.ecc, boot := u.boot }) (hf : u.cmd.fly = s.cmd.fly) (hl : u.cmd.late = s.cmd.late) : FlyKept rs s u := by
  have hq : u.pending = s.pending := (congrArg State.pending h :)
  have hr : u.regs = s.regs := (congrArg State.regs h :)
  refine ⟨(Frame.refl _ _ s).upd hq hr fun p hp => ?_, hf, hl⟩
  clear hf hl hq hr
  generalize u.cmd = c, u.sett = x1, u.ing = x2, u.aln = x3, u.ang = x4, u.isl = x5, u.osc = x6, u.outp = x7, u.pmu = x8, u.nrg = x9,
    u.ecc = x10, u.boot = x11 at h
  subst h
  cases p
  case cmd | sett | ing | aln | ang | isl | osc | outp | pmu | nrg | ecc | boot => exact absurd (by decide) hp
  all_goals rfl

theorem FlyKept.unprepare : FlyKept rs s s.unprepare := .of_parts rfl rfl rfl

theorem FlyKept.freePage (id : Nat) : FlyKept rs s (s.freePage id) :=
  .of_frame ((Frame.refl [] rs s).freePage id) (by decide) (by decide)

theorem FlyKept.retireAbort (prog : List Nat) : FlyKept rs s (s.retireAbort prog) := by
  cases prog with
  | nil => exact .refl
  | cons id l => exact .freePage id

/-- The end of a command before its last step keeps the other commands. -/
theorem FlyKept.flyEnd (f : Fly) (hr : rs R.ECC_STAT = true) : FlyKept rs s (s.flyEnd f) := by
  unfold State.flyEnd
  split
  · exact .unprepare
  · split
    · exact .retireAbort _
    · split
      · exact .of_frame ((Frame.refl [] rs s).setB _ _ (by simp [hr])) (by decide) (by decide)
      · exact .refl

/-- A command that is not a commit, a retirement or a scrub lap leaves nothing behind where it ends. -/
theorem State.flyEnd_id {f : Fly} (h3 : pkOp f.bytes ≠ 0x03) (h80 : pkOp f.bytes ≠ 0x80) (h82 : pkOp f.bytes ≠ 0x82) : s.flyEnd f = s := by
  simp [State.flyEnd, h3, h80, h82]

/-! ### The steps of the stepped commands -/

/-- Every register. -/
def allRegs : Nat → Bool := fun _ => true

theorem FlyKept.heal (kind idx : Nat) : FlyKept allRegs s (s.heal kind idx) :=
  .of_frame (.ite (.refl [.ecc] _ s) ((Frame.refl _ _ s).put_ecc (by decide) _)) (by decide) (by decide)

theorem FlyKept.healAll (n : Nat) (ks : List Nat) : FlyKept allRegs s (s.healAll n ks) := by
  unfold State.healAll
  split
  · exact .refl
  · exact FlyKept.refl.foldl _ _ fun u k => .heal _ _

theorem FlyKept.prepareItem (x : Nat × Nat) : FlyKept allRegs s (s.prepareItem x) := by
  unfold State.prepareItem
  split <;> exact .of_parts rfl rfl rfl

theorem FlyKept.acceptCommit (n : Nat) : FlyKept allRegs s (s.acceptCommit n).s := by
  have h1 (x : Cmd → Cmd) (hf : (x s.cmd).fly = s.cmd.fly) (hl : (x s.cmd).late = s.cmd.late) :
      FlyKept allRegs s (s.acceptTables.modCmd x) :=
    .of_parts rfl hf hl
  have h2 (v : State) (x : Aln) : FlyKept allRegs v
      (((({ v with aln := x } : State).wr R.ALN_BOUND_LO (BitVec.ofNat 32 (v.boundary).2)).wr R.ALN_BOUND_HI
        (BitVec.ofNat 32 (v.boundary).1)).setB F.ALN_STAT_BOUND_PEND true |>.ev0 Ev.CMD_EPOCH) :=
    .of_frame (((((Frame.refl [.aln] _ v).put_aln (by decide) x).wr _ _ rfl).wr _ _ rfl).setB _ _ rfl |>.ev0 _) (by decide) (by decide)
  exact (h1 _ rfl rfl).trans (h2 _ _)

theorem FlyKept.commitCopy (k : Nat) :
    (∀ c, s.commitCopy k = .inl c → FlyKept allRegs s c.s) ∧ ∀ p, s.commitCopy k = .inr p → FlyKept allRegs s p.2 := by
  have hcopy (l : List (Nat × Nat)) : FlyKept allRegs s (l.foldl (fun s x => s.prepareItem x) s) :=
    FlyKept.refl.foldl _ _ fun u x => .prepareItem x
  unfold State.commitCopy
  dsimp only
  split
  · exact ⟨fun c hc => by cases hc; exact .unprepare, fun p hp => by cases hp⟩
  · split
    · exact ⟨fun c hc => (by cases hc), fun p hp => by cases hp; exact hcopy _⟩
    · exact ⟨fun c hc => by cases hc; exact (hcopy _).trans (.acceptCommit _), fun p hp => by cases hp⟩

theorem FlyKept.commitStep (prog : List Nat) : FlyKept allRegs s (commitStep prog s).after := by
  obtain ⟨h1, h2⟩ := FlyKept.commitCopy (s := s) (prog.headD 0)
  unfold Machine.commitStep
  split
  · exact h1 _ ‹_›
  · exact h2 _ ‹_›

theorem FlyKept.streamDelStep (p : List Byte) (prog : List Nat) : FlyKept allRegs s (streamDelStep p prog s).after := by
  have h1 (x : Ing) (ks : List Nat) : FlyKept allRegs s (({ s with ing := x } : State).healAll 0 ks) :=
    FlyKept.trans (.of_frame ((Frame.refl [.ing] _ s).put_ing (by decide) x) (by decide) (by decide)) (.healAll 0 ks)
  unfold Machine.streamDelStep
  dsimp only
  split <;> exact h1 _ _

theorem FlyKept.anglePairsStep (buf : HostRead) (p : List Byte) (prog : List Nat) :
    FlyKept allRegs s (anglePairsStep buf p prog s).after := by
  have h1 (x : Ang) (ks : List Nat) : FlyKept allRegs s (({ s with ang := x } : State).healAll 4 ks) :=
    FlyKept.trans (.of_frame ((Frame.refl [.ang] _ s).put_ang (by decide) x) (by decide) (by decide)) (.healAll 4 ks)
  unfold Machine.anglePairsStep
  dsimp only
  split
  · exact .refl
  · split
    · exact .refl
    · split <;> exact h1 _ _

theorem FlyKept.topoLoadStep (buf : HostRead) (p : List Byte) (prog : List Nat) :
    FlyKept allRegs s (topoLoadStep buf p prog s).after := by
  have h1 (x : Isl) (n : Nat) (ks : List Nat) : FlyKept allRegs s (({ s with isl := x } : State).healAll n ks) :=
    FlyKept.trans (.of_frame ((Frame.refl [.isl] _ s).put_isl (by decide) x) (by decide) (by decide)) (.healAll n ks)
  unfold Machine.topoLoadStep
  dsimp only
  split
  · exact .refl
  · split <;> split
    · exact .refl
    · split <;> exact h1 _ _ _
    · exact .refl
    · split <;> exact h1 _ _ _

theorem FlyKept.retire (phys cls : Nat) : FlyKept allRegs s (s.retire phys cls) := by
  have hq (v : State) (h : Frame [.sett, .ecc] allRegs s v) : Frame [.sett, .ecc] allRegs s (v.retireQuota cls) :=
    .ite (h.set _ _ rfl) ((h.set _ _ rfl).ev0 _)
  have h0 : Frame [.sett, .ecc] allRegs s { s with sett := { s.sett with retired := sadd s.sett.retired phys } } :=
    (Frame.refl _ _ s).put_sett (by decide) _
  have h1 := hq _ (h0.set F.SET_STAT_RETIRED (sadd s.sett.retired phys).length rfl)
  have h2 := (h1.modEcc (by decide) (fun _ _ => rfl) fun e => { e with hard := e.hard.filter fun p => p.2 != phys }).eccSync (by decide)
    fun _ _ => rfl
  exact .of_frame ((h2.inc F.ECC_PERSIST_N rfl).ev0 Ev.ECC_RETIRED) (by decide) (by decide)

theorem FlyKept.takePage (c : Nat) (ws : List SWord) (hs : List Holder) : FlyKept allRegs s (s.takePage c ws hs).2 := by
  have h1 (x : Sett) (n : Nat) : Frame [.sett] allRegs s { s with freeCtr := n, sett := x } :=
    ((Frame.refl [.sett] allRegs s).freeCtr n).put_sett (by decide) x
  exact .of_frame (.ite ((h1 _ _).set _ _ rfl) (h1 _ _)) (by decide) (by decide)

theorem FlyKept.modPage (id : Nat) (f : Page → Page) : FlyKept rs s (s.modPage id f) :=
  .of_frame ((Frame.refl [] rs s).modPage id f) (by decide) (by decide)

theorem FlyKept.pageRetireStep (p : List Byte) (prog : List Nat) : FlyKept allRegs s (pageRetireStep p prog s).after := by
  have free (u : State) (h : FlyKept allRegs s u) (d : Nat) :
      FlyKept allRegs s ((if u.get F.SET_QUOTA_SPARE_QUOTA == 0 then u.fresh.2 else u).retire (le p 8 2) d) := by
    refine FlyKept.trans ?_ (.retire _ _)
    split
    · exact h.trans (.of_frame (Frame.refl [] _ u).fresh (by decide) (by decide))
    · exact h
  unfold Machine.pageRetireStep
  dsimp only
  split
  · cases prog with
    | nil => exact free s .refl _
    | cons id l => exact free _ (.freePage id) _
  · split
    · exact .takePage _ _ _
    · split
      · exact .modPage _ _
      · split
        · exact .modPage _ _
        · exact (((FlyKept.modPage _ _).trans (.freePage _)).trans (.modPage _ _)).trans (.retire _ _)

theorem FlyKept.scrubFullStep (p : List Byte) (prog : List Nat) : FlyKept allRegs s (scrubFullStep p prog s).after := by
  have h1 (x : Bool) : FlyKept allRegs s (s.setB F.ECC_STAT_FULL x) :=
    .of_frame ((Frame.refl [] _ s).setB _ _ rfl) (by decide) (by decide)
  unfold Machine.scrubFullStep
  dsimp only
  split <;> exact h1 _

theorem FlyKept.stageDataStep (buf : HostRead) (p : List Byte) (prog : List Nat) :
    FlyKept allRegs s (stageDataStep buf p prog s).after := by
  have h1 (x : Boot) (n : Nat) : FlyKept allRegs s (({ s with boot := x } : State).add F.UPD_BYTES_N n) :=
    .of_frame (((Frame.refl [.boot] _ s).put_boot (by decide) x).add _ _ rfl) (by decide) (by decide)
  unfold Machine.stageDataStep
  dsimp only
  split
  · exact .refl
  · split
    · exact .refl
    · split <;> exact h1 _ _

/-- Whatever command steps, the commands in flight and what a reply depends on stay. -/
theorem FlyKept.nextStep (buf : HostRead) (prog : List Nat) : FlyKept allRegs s (s.nextStep b buf prog).after := by
  unfold State.nextStep
  split
  · exact .commitStep _
  · exact .streamDelStep _ _
  · exact .anglePairsStep _ _ _
  · exact .topoLoadStep _ _ _
  · exact .pageRetireStep _ _
  · exact .scrubFullStep _ _
  · exact .stageDataStep _ _ _
  · exact .refl

end Sys2Proof.Machine
end

section
namespace Sys2Proof.Machine

variable {s t u w : State} {r : Fn} {b : List Byte} {rs : Nat → Bool} {ps : List Part}

/-! ### COMMAND_STEP (R412) -/

theorem Answered.same {st steps : Nat} {res : List Byte} (h : Answered r b st steps res s t) (ho : u.out = t.out)
    (hg : u.get (ringFld r F.RPL_PROD_PROD) = t.get (ringFld r F.RPL_PROD_PROD)) (hl : u.cmd.late = t.cmd.late) :
    Answered r b st steps res s u := by
  unfold Answered at *
  rw [ho, hg, hl]
  exact h

theorem State.flySync_prod (s : State) (r : Fn) : s.flySync.get (ringFld r F.RPL_PROD_PROD) = s.get (ringFld r F.RPL_PROD_PROD) := by
  have h (r q : Fn) : (ringFld r F.RPL_PROD_PROD).addr ≠ (ringFld q F.CMD_INFLIGHT_N).addr := by cases r <;> cases q <;> decide
  exact (State.get_set_ne _ _ (h r .pf1)).trans (State.get_set_ne _ _ (h r .pf0))

theorem Frame.flySync (h : Frame ps rs s t) (h0 : rs R.CMD_INFLIGHT = true) (h1 : rs (ringReg .pf1 R.CMD_INFLIGHT) = true) :
    Frame ps rs s t.flySync :=
  (h.set (ringFld .pf0 F.CMD_INFLIGHT_N) _ (by exact Bool.or_eq_true_iff.mpr (.inl h0))).set (ringFld .pf1 F.CMD_INFLIGHT_N) _
    (Bool.or_eq_true_iff.mpr (.inl h1))

/-- The registers that a reply depends on. -/
def replyRegs : List Nat := [R.RPL_PROD, R.RPL_SIZE, R.RPL_BASE_LO, R.RPL_BASE_HI]

/-- What has been answered stays so when the counts of commands in flight are shown and the events logged. -/
theorem Answered.sync {st steps : Nat} {res : List Byte} (h : Answered r b st steps res s t.drain) (c : Cmd)
    (hl : c.late = t.cmd.late) : Answered r b st steps res s ({ t with cmd := c } : State).flySync.drain := by
  refine h.same ?_ ?_ ?_
  · rw [State.drain_out, State.drain_out]; rfl
  · rw [State.drain_get _ (ringFld_prod_log r), State.flySync_prod, State.drain_get _ (ringFld_prod_log r)]; rfl
  · rw [State.drain_cmd, State.drain_cmd]; exact hl

/-- A packet is answered, once what came before has left alone what a reply depends on. -/
theorem Frame.answered (h : Frame stepParts rs s u) (hn : s.NoneLate) (hr : ∀ a ∈ replyRegs, rs (ringReg r a) = false)
    (hl : u.cmd.late = s.cmd.late) (st steps : Nat) (res : List Byte) :
    Answered r b st steps res s (u.reply r b st steps res).drain :=
  have ho : u.out = s.out := h.parts .out (by decide)
  Answered.of h hn hr (by decide) hl (ho ▸ List.prefix_refl _) st steps res

theorem State.passNow_eq (s : State) (r : Fn) : s.passNow r = s ∨ s.passNow r = s.beginPass r := by
  unfold State.passNow
  split
  · exact .inr rfl
  · exact .inl rfl

theorem State.passNow_keeps (s : State) (r : Fn) : FlyKept noRegs s (s.passNow r) ∧ (s.passNow r).out = s.out := by
  rcases s.passNow_eq r with h | h <;> rw [h]
  · exact ⟨.refl, rfl⟩
  · exact ⟨⟨(Frame.refl _ _ s).put_cmd (by decide) _, rfl, rfl⟩, rfl⟩

theorem State.mem_of_passLeft {f : Fly} (h : f ∈ s.passLeft) : f ∈ s.cmd.fly := by
  unfold State.passLeft at h
  split at h
  · obtain ⟨q, -, hq⟩ := List.mem_filterMap.mp h
    exact List.mem_of_find?_eq_some hq
  · simp at h

theorem State.due_some {f : Fly} (h : s.due r = some f) :
    s.badHead r = none ∧ (∃ l, (s.passNow r).passLeft = f :: l) ∧ f.fn = r ∧ f ∈ s.cmd.fly := by
  unfold State.due at h
  split at h
  · cases h
  · rename_i hb
    obtain ⟨hh, hf⟩ := Option.filter_eq_some_iff.mp h
    obtain ⟨l, hl⟩ := List.head?_eq_some_iff.mp hh
    refine ⟨by simpa using hb, ⟨l, hl⟩, by simpa using hf, ?_⟩
    have hm := State.mem_of_passLeft (s := s.passNow r) (f := f) (by simp [hl])
    rwa [(s.passNow_keeps r).1.fly] at hm

theorem State.commandStep_due {f : Fly} (buf : HostRead) (h : s.due r = some f) :
    exec (.commandStep r buf) s = .next ((s.passNow r).stepFly r f buf).drain := by
  obtain ⟨hb, ⟨l, hl⟩, hf, -⟩ := State.due_some h
  show execCommandStep r buf s = _
  unfold execCommandStep
  rw [hb]
  dsimp only
  rw [hl]
  dsimp only
  rw [if_pos hf]
  rfl

theorem State.commandStep_idle (buf : HostRead) (hb : s.badHead r = none) (h : s.due r = none) :
    exec (.commandStep r buf) s = s.done := by
  show execCommandStep r buf s = _
  unfold execCommandStep
  rw [hb]
  simp only [State.due, hb, Option.isSome_none, Bool.false_eq_true, if_false] at h
  dsimp only
  split
  · rename_i f l hl
    have : ¬ f.fn = r := by simpa [hl] using h
    rw [if_neg this]
  · rfl

theorem State.stepFly_abort {f : Fly} (buf : HostRead) (ha : f.abort = true) :
    (s.passNow r).stepFly r f buf = (((s.stepOf r f).flyEnd f).reply r f.bytes St.aborted f.steps []).flySync := by
  unfold State.stepFly
  dsimp only
  rw [if_pos ha]
  rfl

/-- What a step makes of the command f that took it: its reply, and its place among those in flight if it goes on. -/
def State.endStep (s : State) (r : Fn) (f : Fly) : StepRes → State
  | .final st res t => (t.reply r f.bytes st (stepsDone f.steps st) res).flySync
  | .more p t => ((t.reply r f.bytes St.stepping (f.steps + 1) []).modCmd fun c =>
      { c with fly := c.fly.take (s.cmd.fly.idxOf f) ++ { f with steps := f.steps + 1, prog := p } :: c.fly.drop (s.cmd.fly.idxOf f) }).flySync

theorem State.stepFly_step {f : Fly} (buf : HostRead) (ha : f.abort = false) :
    (s.passNow r).stepFly r f buf = s.endStep r f ((s.stepOf r f).nextStep f.bytes buf f.prog) := by
  have hx : (s.stepOf r f).nextStep f.bytes buf f.prog = State.nextStep ((s.passNow r).modCmd fun c =>
      { c with fly := c.fly.erase f, todo := c.todo.erase (pkSeq f.bytes) }) f.bytes buf f.prog := rfl
  unfold State.stepFly
  dsimp only
  rw [if_neg (by simp [ha]), hx, (s.passNow_keeps r).1.fly]
  cases State.nextStep _ f.bytes buf f.prog <;> rfl

/-- Taking a command out of the list of those in flight changes nothing but the interpreter's lists. -/
theorem State.stepOf_frame (s : State) (r : Fn) (f : Fly) :
    Frame [.cmd] noRegs s (s.stepOf r f) ∧ (s.stepOf r f).cmd.late = s.cmd.late ∧ (s.stepOf r f).out = s.out ∧
      (s.stepOf r f).cmd.fly = s.cmd.fly.erase f := by
  unfold State.stepOf
  rcases s.passNow_eq r with h | h <;> rw [h]
  · exact ⟨(Frame.refl _ _ s).put_cmd (by decide) _, rfl, rfl, rfl⟩
  · exact ⟨((Frame.refl _ _ s).put_cmd (by decide) _).put_cmd (by decide) _, rfl, rfl, rfl⟩

theorem List.set_idxOf_eq {α : Type} [DecidableEq α] {l : List α} {a : α} (h : a ∈ l) (b : α) :
    (l.erase a).take (l.idxOf a) ++ b :: (l.erase a).drop (l.idxOf a) = l.set (l.idxOf a) b := by
  induction l with
  | nil => simp at h
  | cons c l ih =>
    by_cases hc : c = a
    · subst hc; simp
    · have hm : a ∈ l := by simpa [Ne.symm hc] using h
      simp [List.idxOf_cons_ne _ hc, List.erase_cons_tail, hc, ih hm]

section step
variable {f : Fly} (buf : HostRead) (hd : s.due r = some f) (hn : s.NoneLate)
include hd hn

/-- An aborted command ends with ST_ABORTED and the steps it has completed (R414). -/
theorem State.commandStep_aborted (ha : f.abort = true) :
    ∃ t, exec (.commandStep r buf) s = .next t ∧ Answered r f.bytes St.aborted f.steps [] s t ∧ t.cmd.fly = s.cmd.fly.erase f := by
  obtain ⟨hf, hl, -, hy⟩ := s.stepOf_frame r f
  have hk : FlyKept (regsIn [R.ECC_STAT]) (s.stepOf r f) ((s.stepOf r f).flyEnd f) := .flyEnd f (by decide)
  have hn' : ((s.stepOf r f).flyEnd f).NoneLate := hk.noneLate (hn.frame hf (by decide) hl)
  have hframe : Frame stepParts (regsIn [R.ECC_STAT]) s ((s.stepOf r f).flyEnd f) :=
    (hf.mono (by decide) fun _ _ => rfl).trans hk.frame
  refine ⟨_, (State.commandStep_due buf hd).trans (by rw [State.stepFly_abort buf ha]), ?_, ?_⟩
  · exact (hframe.answered hn (by cases r <;> decide) (hk.late.trans hl) _ _ _).sync _ rfl
  · rw [State.drain_cmd]
    show (State.reply _ r f.bytes St.aborted f.steps []).cmd.fly = _
    rw [State.reply_cmd hn']
    exact hk.fly.trans hy

/-- The end of an aborted command of the other opcodes leaves nothing but its reply. -/
theorem State.commandStep_aborted_does (ha : f.abort = true) (h3 : pkOp f.bytes ≠ 0x03) (h80 : pkOp f.bytes ≠ 0x80)
    (h82 : pkOp f.bytes ≠ 0x82) :
    Does (.commandStep r buf) s [.cmd, .out] (regsIn [ringReg r R.RPL_PROD, R.CMD_INFLIGHT, ringReg .pf1 R.CMD_INFLIGHT]) fun t =>
      Answered r f.bytes St.aborted f.steps [] s t ∧ t.cmd = { (s.stepOf r f).cmd with late := t.cmd.late } := by
  obtain ⟨hf, hl, -, -⟩ := s.stepOf_frame r f
  have hn' : (s.stepOf r f).NoneLate := hn.frame hf (by decide) hl
  have hframe : Frame stepParts noRegs s (s.stepOf r f) := hf.mono (by decide) fun _ h => h
  refine ⟨_, (State.commandStep_due buf hd).trans (by rw [State.stepFly_abort buf ha, State.flyEnd_id h3 h80 h82]), ⟨?_, ?_⟩, ?_⟩
  · exact (hframe.answered hn (fun _ _ => rfl) hl _ _ _).sync _ rfl
  · rw [State.drain_cmd]
    exact State.reply_cmd hn' _ _ _
  · refine (Frame.flySync ?_ (by simp [regsIn]) (by simp [regsIn])).drain
    exact (hf.mono (by simp) fun _ _ => rfl).reply (by simp) (by simp) (by simp [regsIn]) hn' _ _ _

/-- The command that is due takes its step and is answered: it goes on in its place, or ends (R410, R412). -/
theorem State.commandStep_steps (ha : f.abort = false) :
    let x := (s.stepOf r f).nextStep f.bytes buf f.prog
    let a := x.answer f.steps
    ∃ t, exec (.commandStep r buf) s = .next t ∧ Answered r f.bytes a.1 a.2.1 a.2.2 x.after t ∧
      (∀ p, x.goesOn = some p → t.cmd.fly = s.cmd.fly.set (s.cmd.fly.idxOf f) { f with steps := f.steps + 1, prog := p }) ∧
      (x.goesOn = none → t.cmd.fly = s.cmd.fly.erase f) := by
  intro x a
  obtain ⟨hf, hl, -, hy⟩ := s.stepOf_frame r f
  have hk : FlyKept allRegs (s.stepOf r f) x.after := .nextStep buf f.prog
  have hn' : x.after.NoneLate := hk.noneLate (hn.frame hf (by decide) hl)
  have hfly (st n : Nat) (res : List Byte) : (x.after.reply r f.bytes st n res).cmd.fly = s.cmd.fly.erase f := by
    rw [State.reply_cmd hn']
    exact hk.fly.trans hy
  have hans (st n : Nat) (res : List Byte) (c : Cmd) (hc : c.late = (x.after.reply r f.bytes st n res).cmd.late) :
      Answered r f.bytes st n res x.after ({ x.after.reply r f.bytes st n res with cmd := c } : State).flySync.drain :=
    ((Frame.refl stepParts noRegs _).answered hn' (fun _ _ => rfl) rfl _ _ _).sync c hc
  have he : exec (.commandStep r buf) s = .next (s.endStep r f x).drain := by
    rw [State.commandStep_due buf hd, State.stepFly_step buf ha]
  clear_value x
  cases x with
  | final st res t =>
    refine ⟨_, he, hans st _ res _ rfl, fun p hp => (by cases hp), fun _ => ?_⟩
    rw [State.drain_cmd]
    exact hfly st _ res
  | more p t =>
    refine ⟨_, he, hans St.stepping _ [] _ rfl, fun q hq => ?_, fun h => (by cases h)⟩
    cases hq
    rw [State.drain_cmd, ← List.set_idxOf_eq (State.due_some hd).2.2.2, ← hfly St.stepping (f.steps + 1) []]
    rfl

end step

/-- The reply to a head whose opcode no row defines (R535). -/
theorem State.commandStep_undefined (buf : HostRead) (hh : s.head r = some b) (ho : definedOps.contains (pkOp b) = false) :
    exec (.commandStep r buf) s =
      .next ((s.popHead r).reply r b (if pkLen b < 2 ∨ 16 < pkLen b then St.badLength else St.badOpcode) 0 []).drain := by
  show execCommandStep r buf s = _
  have hb : s.badHead r = some ((s.popHead r).reply r b (if pkLen b < 2 ∨ 16 < pkLen b then St.badLength else St.badOpcode) 0 []) := by
    simp only [State.badHead, hh, ho, Bool.false_eq_true, if_false, Bool.or_eq_true, decide_eq_true_eq]
  rw [execCommandStep, hb]
  rfl

end Sys2Proof.Machine
end

section
namespace Sys2Proof.Machine

variable {s t u w : State} {r : Fn} {b : List Byte} {rs : Nat → Bool} {ps : List Part}

/-! ### Rings: what a queue's store leaves, and that the ring fields lie apart (R406, R410) -/

@[simp] theorem State.setRing_regs (s : State) (x : Ring) : (s.setRing r x).regs = s.regs := by cases r <;> rfl
@[simp] theorem State.setRing_get (s : State) (x : Ring) (f : Fld) : (s.setRing r x).get f = s.get f := by cases r <;> rfl
@[simp] theorem State.setRing_flag (s : State) (x : Ring) (f : Fld) : (s.setRing r x).flag f = s.flag f := by cases r <;> rfl
@[simp] theorem State.setRing_rd (s : State) (x : Ring) (a : Nat) : (s.setRing r x).rd a = s.rd a := by cases r <;> rfl
@[simp] theorem State.setRing_ring (s : State) (x : Ring) : (s.setRing r x).ring r = x := by cases r <;> rfl

theorem Frame.setRing (h : Frame ps rs s t) (hp : Part.cmd ∈ ps) (x : Ring) : Frame ps rs s (t.setRing r x) := by
  cases r <;> exact h.put_cmd hp _

theorem ringFld_ok (r : Fn) {f : Fld} (h : f.ok) : (ringFld r f).ok := h

/-- A field of a register that the frame keeps. -/
theorem Frame.get (h : Frame ps rs s t) {f : Fld} (hr : rs f.addr = false) (hl : logReg f.addr = false) : t.get f = s.get f := by
  rw [State.get, h.regs _ hr hl, State.get]

theorem Frame.flag (h : Frame ps rs s t) {f : Fld} (hr : rs f.addr = false) (hl : logReg f.addr = false) : t.flag f = s.flag f := by
  rw [State.flag, h.get hr hl, State.flag]

/-- A whole dword of a ring's registers. -/
theorem State.get_set_dword {f : Fld} (hf : f.ok) (hw : f.hi - f.lo + 1 = 32) {x : Nat} (hx : x < 2 ^ 32) : (s.set f x).get f = x := by
  rw [State.get_set_self _ _ hf, hw, Nat.mod_eq_of_lt hx]

/-! ### Doorbell and fetch (R406, R408) -/

theorem doorbell_leads {a : Agent} {v : Dword} (h : s.mayWrite a R.CMD_DB) :
    let r := agentFn a
    let d := subMod 32 v.toNat (s.get (ringFld r F.CMD_CONS_CONS))
    (d ≤ s.get (ringFld r F.CMD_SIZE_SIZE) → Leads (.cmdDoorbell a v) s [] (regsIn [ringReg r R.CMD_DB]) fun u =>
      u.get (ringFld r F.CMD_DB_PROD) = v.toNat) ∧
    (s.get (ringFld r F.CMD_SIZE_SIZE) < d → Leads (.cmdDoorbell a v) s [] noRegs fun u =>
      u.pends 82 ∧ u.evr.backlog = s.evr.backlog ++ [⟨Ev.CMD_DB_BAD, 0, []⟩]) := by
  intro r d
  have he : exec (.cmdDoorbell a v) s = (s.doorbell r v).done := by
    show State.done _ = _
    rw [State.gate_may h]
  refine ⟨fun hd => ⟨s.set (ringFld r F.CMD_DB_PROD) v.toNat, ?_, ?_, ?_⟩, fun hd => ⟨s.ev0 Ev.CMD_DB_BAD, ?_, ?_, (Frame.refl _ _ s).ev0 _⟩⟩
  · rw [he, State.doorbell, if_neg (Nat.not_lt.mpr hd)]; rfl
  · exact State.get_set_dword (ringFld_ok r (by decide)) rfl v.isLt
  · exact (Frame.refl _ _ s).set _ _ (by cases r <;> decide)
  · rw [he, State.doorbell, if_pos hd]; rfl
  · exact ⟨State.ev0_pends _ (by decide), State.ev0_backlog _ _⟩

/-- Do two fields share no bit. -/
def Fld.apart (f g : Fld) : Bool := f.addr != g.addr || decide (g.hi < f.lo) || decide (f.hi < g.lo)

/-- A field keeps its value while one that shares no bit with it is written. -/
theorem State.get_set_apart {f g : Fld} (x : Nat) (hf : f.ok) (hg : g.ok) (h : f.apart g = true) : (s.set f x).get g = s.get g := by
  by_cases ha : g.addr = f.addr
  · refine State.get_set_other s x hf hg.1 ha ?_
    simpa [Fld.apart, ha] using h
  · exact State.get_set_ne s x ha

theorem State.flag_set_apart {f g : Fld} (x : Nat) (hf : f.ok) (hg : g.ok) (h : f.apart g = true) : (s.set f x).flag g = s.flag g := by
  rw [State.flag, State.get_set_apart x hf hg h, State.flag]

/-- A ring that halts shows it with its cause (R408). -/
theorem State.haltRing_spec (s : State) (r : Fn) {err ev : Nat} (he : err < 256) (hs : evSource ev = some 82) :
    (s.haltRing r err ev).flag (ringFld r F.CMD_STAT_HALTED) = true ∧ (s.haltRing r err ev).get (ringFld r F.CMD_STAT_ERR) = err ∧
      (s.haltRing r err ev).pends 82 ∧ Frame [] (regsIn [ringReg r R.CMD_STAT]) s (s.haltRing r err ev) := by
  refine ⟨?_, ?_, State.ev0_pends _ hs, ?_⟩
  · rw [State.haltRing, State.ev0_flag _ _ (by cases r <;> decide), State.flag_set_apart _ (ringFld_ok r (by decide)) (ringFld_ok r (by decide)) (by cases r <;> decide)]
    exact State.flag_setB_self _ true (ringFld_ok r (by decide)) rfl
  · rw [State.haltRing, State.ev0_get _ _ (by cases r <;> decide), State.get_set_self _ _ (ringFld_ok r (by decide))]
    exact Nat.mod_eq_of_lt he
  · exact (((Frame.refl _ _ s).setB _ _ (by cases r <;> decide)).set _ _ (by cases r <;> decide)).ev0 _

theorem fetchTimeout_leads (poisoned : Bool) (h : s.fetches r = true) :
    Leads (.cmdFetchTimeout r poisoned) s [] (regsIn [ringReg r R.CMD_STAT]) fun u =>
      u.flag (ringFld r F.CMD_STAT_HALTED) = true ∧ u.get (ringFld r F.CMD_STAT_ERR) = 2 + b2n poisoned ∧ u.pends 82 := by
  have he : exec (.cmdFetchTimeout r poisoned) s = (s.haltRing r (2 + b2n poisoned) Ev.CMD_FETCH).done := by
    show execCmdFetchTimeout r poisoned s = _
    cases poisoned <;> simp [execCmdFetchTimeout, h, b2n]
  obtain ⟨h1, h2, h3, hf⟩ := s.haltRing_spec r (err := 2 + b2n poisoned) (ev := Ev.CMD_FETCH) (by cases poisoned <;> decide) (by decide)
  exact ⟨_, he, ⟨h1, h2, h3⟩, hf⟩

/-- A ring that does not fetch takes nothing in. -/
theorem fetch_idle (e : List Byte) (poisoned : Bool) (h : s.fetches r = false) :
    (Leads (.cmdEntryFetch r e) s [] noRegs fun u => u = s) ∧ Leads (.cmdFetchTimeout r poisoned) s [] noRegs fun u => u = s := by
  refine ⟨Leads.nothing ?_, Leads.nothing ?_⟩
  · show execCmdEntryFetch r e s = _
    simp [execCmdEntryFetch, h]
  · show execCmdFetchTimeout r poisoned s = _
    simp [execCmdFetchTimeout, h]

theorem entryFetch_leads (e : List Byte) (h : s.fetches r = true) :
    (pkSeq (padTo 64 e) = s.get (ringFld r F.CMD_SEQEXP_SEQ) →
      Leads (.cmdEntryFetch r e) s [.cmd] (regsIn [ringReg r R.CMD_CONS, ringReg r R.CMD_SEQEXP]) fun u =>
        u.get (ringFld r F.CMD_CONS_CONS) = (s.get (ringFld r F.CMD_CONS_CONS) + 1) % 2 ^ 32 ∧
          u.get (ringFld r F.CMD_SEQEXP_SEQ) = (s.get (ringFld r F.CMD_SEQEXP_SEQ) + 1) % 2 ^ 32 ∧
          u.cmd = (s.setRing r ⟨(s.ring r).fetched ++ [padTo 64 e]⟩).cmd) ∧
    (pkSeq (padTo 64 e) ≠ s.get (ringFld r F.CMD_SEQEXP_SEQ) →
      Leads (.cmdEntryFetch r e) s [] (regsIn [ringReg r R.CMD_CONS, ringReg r R.CMD_STAT]) fun u =>
        u.get (ringFld r F.CMD_CONS_CONS) = (s.get (ringFld r F.CMD_CONS_CONS) + 1) % 2 ^ 32 ∧ u.flag (ringFld r F.CMD_STAT_HALTED) = true ∧
          u.get (ringFld r F.CMD_STAT_ERR) = 1 ∧ u.pends 82) := by
  have he : exec (.cmdEntryFetch r e) s = if pkSeq (padTo 64 e) == s.get (ringFld r F.CMD_SEQEXP_SEQ) then
      (((s.inc (ringFld r F.CMD_CONS_CONS)).set (ringFld r F.CMD_SEQEXP_SEQ) (s.get (ringFld r F.CMD_SEQEXP_SEQ) + 1)).setRing r
        ⟨(s.ring r).fetched ++ [padTo 64 e]⟩).done
      else ((s.inc (ringFld r F.CMD_CONS_CONS)).haltRing r 1 Ev.CMD_SEQ).done := by
    show execCmdEntryFetch r e s = _
    rw [execCmdEntryFetch, if_pos h]
    cases r <;> rfl
  have hcons : (s.inc (ringFld r F.CMD_CONS_CONS)).get (ringFld r F.CMD_CONS_CONS) = (s.get (ringFld r F.CMD_CONS_CONS) + 1) % 2 ^ 32 :=
    State.get_inc_self s (ringFld_ok r (by decide))
  refine ⟨fun hq => ⟨_, he.trans (if_pos (by simpa using hq)), ⟨?_, ?_, ?_⟩, ?_⟩, fun hq => ⟨_, he.trans (if_neg (by simpa using hq)), ?_, ?_⟩⟩
  · rw [State.setRing_get, State.get_set_ne _ _ (by cases r <;> decide), hcons]
  · rw [State.setRing_get]
    exact State.get_set_self _ _ (ringFld_ok r (by decide))
  · cases r <;> rfl
  · exact (((Frame.refl _ _ s).inc _ (by cases r <;> decide)).set _ _ (by cases r <;> decide)).setRing (by decide) _
  · obtain ⟨h1, h2, h3, hf⟩ := (s.inc (ringFld r F.CMD_CONS_CONS)).haltRing_spec r (err := 1) (ev := Ev.CMD_SEQ) (by decide) (by decide)
    exact ⟨(hf.get (by cases r <;> decide) (by cases r <;> decide)).trans hcons, h1, h2, h3⟩
  · obtain ⟨-, -, -, hf⟩ := (s.inc (ringFld r F.CMD_CONS_CONS)).haltRing_spec r (err := 1) (ev := Ev.CMD_SEQ) (by decide) (by decide)
    exact ((Frame.refl _ _ s).inc _ (by cases r <;> decide)).trans (hf.mono (by simp) (by simp [regsIn]))

end Sys2Proof.Machine
end

section
namespace Sys2Proof.Machine

variable {s t u w : State} {r : Fn} {b : List Byte} {rs : Nat → Bool} {ps : List Part}

/-! ### Resets of a ring (R401, R409) -/

/-- The registers that show the commands in flight. -/
def flyRegs : List Nat := [R.CMD_INFLIGHT, ringReg .pf1 R.CMD_INFLIGHT]

/-- The commands of a ring end without a reply; those of the other ring, and all that a reply depends on, stay. -/
theorem State.dropFly_spec (s : State) (r : Fn) : (s.dropFly r).cmd.fly = s.cmd.fly.filter (fun f => !decide (f.fn = r)) ∧
    (s.dropFly r).cmd.late = s.cmd.late.filter (fun l => !decide (l.fn = r)) ∧
    Frame stepParts (regsIn (R.ECC_STAT :: flyRegs)) s (s.dropFly r) := by
  have hk (l : List Fly) (v : State) : FlyKept (regsIn (R.ECC_STAT :: flyRegs)) v (l.foldl (fun s f => s.flyEnd f) v) :=
    FlyKept.refl.foldl _ _ fun u f => .flyEnd f (by decide)
  unfold State.dropFly
  refine ⟨(hk _ _).fly, (hk _ _).late, Frame.flySync (Frame.trans ?_ (hk _ _).frame) (by decide) (by decide)⟩
  exact (Frame.refl _ _ s).put_cmd (by decide) _

/-- Where none of them is a commit, a retirement or a scrub lap, nothing but the interpreter's lists changes. -/
theorem State.dropFly_frame (h : ∀ f ∈ s.cmd.fly, f.fn = r → pkOp f.bytes ≠ 0x03 ∧ pkOp f.bytes ≠ 0x80 ∧ pkOp f.bytes ≠ 0x82) :
    Frame [.cmd] (regsIn flyRegs) s (s.dropFly r) := by
  have hid (l : List Fly) (hl : ∀ f ∈ l, pkOp f.bytes ≠ 0x03 ∧ pkOp f.bytes ≠ 0x80 ∧ pkOp f.bytes ≠ 0x82) (v : State) :
      l.foldl (fun s f => s.flyEnd f) v = v := by
    induction l with
    | nil => rfl
    | cons f l ih =>
      obtain ⟨h3, h80, h82⟩ := hl f (by simp)
      rw [List.foldl_cons, State.flyEnd_id h3 h80 h82]
      exact ih fun g hg => hl g (by simp [hg])
  unfold State.dropFly
  dsimp only
  rw [hid _ fun f hf => ?_]
  · exact Frame.flySync ((Frame.refl _ _ s).put_cmd (by decide) _) (by decide) (by decide)
  · obtain ⟨hm, hf⟩ := List.mem_filter.mp hf
    exact h f hm (of_decide_eq_true hf)

/-- The registers that a ring reset returns to their start. -/
def ringStart (r : Fn) : List Nat := [ringReg r R.CMD_CONS, ringReg r R.CMD_SEQEXP, ringReg r R.RPL_PROD, ringReg r R.RPL_CONS, ringReg r R.CMD_STAT]

/-- What a ring reset does after the ring's commands have ended. -/
def State.ringRestart (s : State) (r : Fn) : State :=
  let s := s.setRing r ⟨[]⟩
  let s := s.set (ringFld r F.CMD_CONS_CONS) (s.get (ringFld r F.CMD_DB_PROD))
  let s := ((s.set (ringFld r F.CMD_SEQEXP_SEQ) 0).set (ringFld r F.RPL_PROD_PROD) 0).set (ringFld r F.RPL_CONS_CONS) 0
  ((s.set (ringFld r F.CMD_STAT_ERR) 0).setB (ringFld r F.CMD_STAT_HALTED) false).ev0 Ev.CMD_RING_RESET

theorem State.ringReset_eq (s : State) (r : Fn) : s.ringReset r = (s.dropFly r).ringRestart r := rfl

theorem State.ringRestart_frame (s : State) (r : Fn) : Frame [.cmd] (regsIn (ringStart r)) s (s.ringRestart r) := by
  have h0 : Frame [.cmd] (regsIn (ringStart r)) s (s.setRing r ⟨[]⟩) := (Frame.refl _ _ s).setRing (by decide) _
  have hin (x : Nat) (hx : x ∈ ringStart r) : (regsIn (ringStart r) x || logReg x) = true :=
    Bool.or_eq_true_iff.mpr (.inl (List.contains_iff_mem.mpr hx))
  exact ((((((h0.set _ _ (hin _ (.head _))).set _ _ (hin _ (.tail _ (.head _)))).set _ _ (hin _ (.tail _ (.tail _ (.head _))))).set _ _
    (hin _ (.tail _ (.tail _ (.tail _ (.head _)))))).set _ _ (hin _ (.tail _ (.tail _ (.tail _ (.tail _ (.head _))))))).setB _ _
    (hin _ (.tail _ (.tail _ (.tail _ (.tail _ (.head _))))))).ev0 _

/-- Where a ring stands after its reset. -/
theorem State.ringRestart_spec (s : State) (r : Fn) : let u := s.ringRestart r
    (u.ring r).fetched = [] ∧ u.cmd.fly = s.cmd.fly ∧ u.cmd.late = s.cmd.late ∧
      u.get (ringFld r F.CMD_CONS_CONS) = s.get (ringFld r F.CMD_DB_PROD) ∧ u.get (ringFld r F.CMD_SEQEXP_SEQ) = 0 ∧
      u.get (ringFld r F.RPL_PROD_PROD) = 0 ∧ u.get (ringFld r F.RPL_CONS_CONS) = 0 ∧ u.get (ringFld r F.CMD_STAT_ERR) = 0 ∧
      u.flag (ringFld r F.CMD_STAT_HALTED) = false ∧ u.pends 86 := by
  have hc : (s.ringRestart r).cmd = (s.setRing r ⟨[]⟩).cmd := by
    unfold State.ringRestart
    simp
  have hdb : s.get (ringFld r F.CMD_DB_PROD) % 2 ^ 32 = s.get (ringFld r F.CMD_DB_PROD) := Nat.mod_eq_of_lt (State.get_lt s)
  refine ⟨?_, ?_, ?_, ?_, ?_, ?_, ?_, ?_, ?_, State.ev0_pends _ (by decide)⟩
  · cases r <;> simp [State.ring, hc, State.setRing]
  · cases r <;> simp [hc, State.setRing]
  · cases r <;> simp [hc, State.setRing]
  all_goals
    unfold State.ringRestart
    cases r <;> simp (disch := decide) only [State.flag, State.ev0_get, State.setB, State.get_set_ne, State.get_set_self, State.get_set_apart,
      State.setRing_get]
  · exact hdb
  · exact hdb
  all_goals decide

/-! ### CMD_CTRL (R409, R533) -/

/-- What a write of CMD_CTRL makes of EN. -/
def State.ringEn (s : State) (r : Fn) (v : Dword) : State :=
  let zero := s.get (ringFld r F.CMD_SIZE_SIZE) == 0 || s.get (ringFld r F.RPL_SIZE_SIZE) == 0
  if fval F.CMD_CTRL_EN v == 0 then s.setB (ringFld r F.CMD_CTRL_EN) false
  else if zero then s else s.setB (ringFld r F.CMD_CTRL_EN) true

theorem State.cmdCtrlWrite_eq (s : State) (r : Fn) (v : Dword) :
    s.cmdCtrlWrite r v = if fval F.CMD_CTRL_RESET v == 1 then (s.ringEn r v).ringReset r else s.ringEn r v := rfl

theorem State.ringEn_frame (s : State) (r : Fn) (v : Dword) : Frame [] (regsIn [ringReg r R.CMD_CTRL]) s (s.ringEn r v) := by
  have h (x : Bool) : Frame [] (regsIn [ringReg r R.CMD_CTRL]) s (s.setB (ringFld r F.CMD_CTRL_EN) x) :=
    (Frame.refl _ _ s).setB _ _ (by cases r <;> decide)
  exact .ite (h _) (.ite (Frame.refl _ _ s) (h _))

theorem fval_bit {f : Fld} (h : f.hi = f.lo) (v : Dword) : fval f v = 0 ∨ fval f v = 1 := by
  have := bits_lt v.toNat f.hi f.lo
  rw [h, Nat.sub_self] at this
  rw [fval, h]
  omega

theorem State.ringEn_en (s : State) (r : Fn) (v : Dword) : (s.ringEn r v).flag (ringFld r F.CMD_CTRL_EN) =
    (fval F.CMD_CTRL_EN v == 1 && (!(s.get (ringFld r F.CMD_SIZE_SIZE) == 0 || s.get (ringFld r F.RPL_SIZE_SIZE) == 0) ||
      s.flag (ringFld r F.CMD_CTRL_EN))) := by
  have hset (x : Bool) : (s.setB (ringFld r F.CMD_CTRL_EN) x).flag (ringFld r F.CMD_CTRL_EN) = x :=
    State.flag_setB_self s x (ringFld_ok r (by decide)) rfl
  unfold State.ringEn
  rcases fval_bit (f := F.CMD_CTRL_EN) rfl v with h | h <;> rw [h]
  · exact hset false
  · cases s.get (ringFld r F.CMD_SIZE_SIZE) == 0 || s.get (ringFld r F.RPL_SIZE_SIZE) == 0
    · exact hset true
    · rfl

theorem cmdRingReset_plain {a : Agent} {v : Dword} (h : s.mayWrite a R.CMD_CTRL) (h0 : fval F.CMD_CTRL_RESET v = 0) :
    exec (.cmdRingReset a v) s = (s.ringEn (agentFn a) v).done := by
  show State.done _ = _
  rw [State.gate_may h, State.cmdCtrlWrite_eq, h0]
  rfl

theorem cmdRingReset_resets {a : Agent} {v : Dword} (h : s.mayWrite a R.CMD_CTRL) (h1 : fval F.CMD_CTRL_RESET v = 1) :
    exec (.cmdRingReset a v) s = (((s.ringEn (agentFn a) v).dropFly (agentFn a)).ringRestart (agentFn a)).done := by
  show State.done _ = _
  rw [State.gate_may h, State.cmdCtrlWrite_eq, h1]
  rfl

section reset
variable (s : State) (r : Fn) (v : Dword)

/-- A ring's reset through CMD_CTRL: the ring is empty, its commands have ended without a reply, and its counters stand at their start. -/
theorem State.ringReset_spec : let u := ((s.ringEn r v).dropFly r).ringRestart r
    (u.ring r).fetched = [] ∧ u.cmd.fly = s.cmd.fly.filter (fun f => !decide (f.fn = r)) ∧
      u.cmd.late = s.cmd.late.filter (fun l => !decide (l.fn = r)) ∧ u.out = s.out ∧
      u.flag (ringFld r F.CMD_CTRL_EN) = (s.ringEn r v).flag (ringFld r F.CMD_CTRL_EN) ∧
      u.get (ringFld r F.CMD_CONS_CONS) = s.get (ringFld r F.CMD_DB_PROD) ∧ u.get (ringFld r F.CMD_SEQEXP_SEQ) = 0 ∧
      u.get (ringFld r F.RPL_PROD_PROD) = 0 ∧ u.get (ringFld r F.RPL_CONS_CONS) = 0 ∧ u.get (ringFld r F.CMD_STAT_ERR) = 0 ∧
      u.flag (ringFld r F.CMD_STAT_HALTED) = false ∧ u.pends 86 := by
  intro u
  have he := s.ringEn_frame r v
  obtain ⟨hfly, hlate, hd⟩ := (s.ringEn r v).dropFly_spec r
  have hs := ((s.ringEn r v).dropFly r).ringRestart_frame r
  obtain ⟨h1, h2, h3, h4, h5, h6, h7, h8, h9, h10⟩ := ((s.ringEn r v).dropFly r).ringRestart_spec r
  have hcmd : (s.ringEn r v).cmd = s.cmd := he.parts .cmd (by decide)
  have hout : u.out = s.out := (hs.parts .out (by decide)).trans ((hd.parts .out (by decide)).trans (he.parts .out (by decide)))
  refine ⟨h1, ?_, ?_, hout, ?_, ?_, h5, h6, h7, h8, h9, h10⟩
  · exact h2.trans (hfly.trans (by rw [hcmd]))
  · exact h3.trans (hlate.trans (by rw [hcmd]))
  · exact (hs.flag (by cases r <;> decide) (by cases r <;> decide)).trans (hd.flag (by cases r <;> decide) (by cases r <;> decide))
  · exact h4.trans ((hd.get (by cases r <;> decide) (by cases r <;> decide)).trans (he.get (by cases r <;> decide) (by cases r <;> decide)))

/-- Without a commit, a retirement or a scrub lap in flight a ring reset changes nothing but the ring. -/
theorem State.ringReset_frame (h : ∀ f ∈ s.cmd.fly, f.fn = r → pkOp f.bytes ≠ 0x03 ∧ pkOp f.bytes ≠ 0x80 ∧ pkOp f.bytes ≠ 0x82) :
    Frame [.cmd] (regsIn (ringReg r R.CMD_CTRL :: (ringStart r ++ flyRegs))) s (((s.ringEn r v).dropFly r).ringRestart r) := by
  have he := s.ringEn_frame r v
  have hcmd : (s.ringEn r v).cmd = s.cmd := he.parts .cmd (by decide)
  have hd : Frame [.cmd] (regsIn flyRegs) (s.ringEn r v) ((s.ringEn r v).dropFly r) := State.dropFly_frame (by rw [hcmd]; exact h)
  have hs := ((s.ringEn r v).dropFly r).ringRestart_frame r
  refine ((he.mono (by simp) fun a ha => ?_).trans (hd.mono (by simp) fun a ha => ?_)).trans (hs.mono (by simp) fun a ha => ?_)
  all_goals
    simp only [regsIn, List.contains_eq_mem, List.mem_cons, List.mem_append, List.not_mem_nil, decide_eq_false_iff_not, not_or] at ha ⊢
    tauto

end reset

end Sys2Proof.Machine
end

section
namespace Sys2Proof.Machine

variable {s t u w : State} {r : Fn} {b : List Byte} {rs : Nat → Bool} {ps : List Part}

/-! ### The reset of a function: its queues (R122, R401) -/

/-- What a function's reset does to one queue. -/
def State.queueReset (s : State) (r : Fn) (q : Nat) : State :=
  if decide (s.hqOwner q = r) && s.flag (hqf F.SET_HQ_CFG_EN q) then
    ((s.setB (hqf F.SET_HQ_CFG_EN q) false).hqFlush q).ev0 Ev.SET_HQ_FLUSH
  else s

theorem State.queuesReset_eq (s : State) (r : Fn) : s.queuesReset r = (List.range 16).foldl (fun s q => s.queueReset r q) s := rfl

/-- The registers SET_HQ_CFG_q. -/
def hqCfgRegs : List Nat := (List.range 16).map fun q => R.SET_HQ_CFG + 0x80 * q

theorem mem_hqCfgRegs {q : Nat} (h : q < 16) (hi lo : Nat) : (hqf ⟨R.SET_HQ_CFG, hi, lo⟩ q).addr ∈ hqCfgRegs :=
  List.mem_map.mpr ⟨q, List.mem_range.mpr h, rfl⟩

theorem hqCfg_log {q : Nat} (h : q < 16) (hi lo : Nat) : logReg (hqf ⟨R.SET_HQ_CFG, hi, lo⟩ q).addr = false :=
  logReg_hqf_cfg ⟨q, h⟩ hi lo

theorem Frame.queueReset (h : Frame ps rs s t) (hr : ∀ a ∈ hqCfgRegs, rs a = true) {q : Nat} (hq : q < 16) :
    Frame ps rs s (t.queueReset r q) :=
  .ite (((h.setB _ _ (Bool.or_eq_true_iff.mpr (.inl (hr _ (mem_hqCfgRegs hq _ _))))).hqFlush hq).ev0 _) h

section queue
variable {q j : Nat} (hq : q < 16) (hj : j < 16)
include hq hj

/-- The reset of a queue keeps the configuration of every other, and all but EN of its own. -/
theorem State.queueReset_flag (hi lo : Nat) (hok : (⟨R.SET_HQ_CFG, hi, lo⟩ : Fld).ok) (h : j ≠ q ∨ lo ≠ 0) :
    (s.queueReset r q).flag (hqf ⟨R.SET_HQ_CFG, hi, lo⟩ j) = s.flag (hqf ⟨R.SET_HQ_CFG, hi, lo⟩ j) := by
  unfold State.queueReset
  split
  · rw [State.ev0_flag _ _ (hqCfg_log hj hi lo), State.flag, State.hqFlush_get _ hq (hqCfg_log hj hi lo), ← State.flag]
    refine State.flag_set_apart _ (f := hqf F.SET_HQ_CFG_EN q) ⟨Nat.le_refl _, by show 0 < 32; decide⟩ hok ?_
    simp only [Fld.apart, Bool.or_eq_true, bne_iff_ne, ne_eq, decide_eq_true_eq]
    rcases h with h | h
    · refine .inl (.inl ?_)
      show ¬ R.SET_HQ_CFG + 0x80 * q = R.SET_HQ_CFG + 0x80 * j
      omega
    · exact .inr (Nat.pos_of_ne_zero h)
  · rfl

theorem State.queueReset_owner : (s.queueReset r q).hqOwner j = s.hqOwner j := by
  unfold State.hqOwner
  rw [show F.SET_HQ_CFG_OWNER = ⟨R.SET_HQ_CFG, 2, 2⟩ from rfl, State.queueReset_flag hq hj 2 2 (by decide) (.inr (by decide))]

/-- A queue that is disabled stays so, with its packets, while the queues are reset. -/
theorem State.queueReset_disabled (h : s.flag (hqf F.SET_HQ_CFG_EN j) = false) :
    (s.queueReset r q).flag (hqf F.SET_HQ_CFG_EN j) = false ∧ (s.queueReset r q).hq j = s.hq j := by
  by_cases he : j = q
  · subst he
    have : s.queueReset r j = s := by simp [State.queueReset, h]
    rw [this]
    exact ⟨h, rfl⟩
  · refine ⟨(State.queueReset_flag hq hj 0 0 (by decide) (.inl he)).trans h, ?_⟩
    unfold State.queueReset
    split
    · rw [State.hq, State.ev0_sett, ← State.hq, State.hqFlush_hq, if_neg he]; rfl
    · rfl

end queue

/-- The reset of a queue of the function disables and empties it. -/
theorem State.queueReset_self {q : Nat} (hq : q < 16) (ho : s.hqOwner q = r) :
    (s.queueReset r q).flag (hqf F.SET_HQ_CFG_EN q) = false ∧
      (s.flag (hqf F.SET_HQ_CFG_EN q) = true → ((s.queueReset r q).hq q).pkts = []) := by
  unfold State.queueReset
  cases he : s.flag (hqf F.SET_HQ_CFG_EN q)
  · simp [he]
  · simp only [ho, decide_true, Bool.and_self, if_true, forall_const]
    refine ⟨?_, ?_⟩
    · rw [State.ev0_flag _ _ (hqCfg_log hq 0 0), State.flag, State.hqFlush_get _ hq (hqCfg_log hq 0 0), ← State.flag]
      exact State.flag_setB_self _ _ ⟨Nat.le_refl _, by show 0 < 32; decide⟩ rfl
    · rw [State.hq, State.ev0_sett, ← State.hq, State.hqFlush_hq, if_pos rfl]

/-- The reset of a function's queues (R401). -/
theorem State.queuesReset_spec (s : State) (r : Fn) {j : Nat} (hj : j < 16) (ho : s.hqOwner j = r) :
    (s.queuesReset r).flag (hqf F.SET_HQ_CFG_EN j) = false ∧
      (s.flag (hqf F.SET_HQ_CFG_EN j) = true → ((s.queuesReset r).hq j).pkts = []) := by
  rw [State.queuesReset_eq]
  have stays (l : List Nat) (hl : ∀ q ∈ l, q < 16) (v : State) (h : v.flag (hqf F.SET_HQ_CFG_EN j) = false) :
      (l.foldl (fun s q => s.queueReset r q) v).flag (hqf F.SET_HQ_CFG_EN j) = false ∧
        (l.foldl (fun s q => s.queueReset r q) v).hq j = v.hq j := by
    induction l generalizing v with
    | nil => exact ⟨h, rfl⟩
    | cons q l ih =>
      obtain ⟨h1, h2⟩ := State.queueReset_disabled (r := r) (hl q (by simp)) hj h
      obtain ⟨h3, h4⟩ := ih (fun k hk => hl k (by simp [hk])) _ h1
      exact ⟨h3, h4.trans h2⟩
  have main (l : List Nat) (hl : ∀ q ∈ l, q < 16) (hm : j ∈ l) (v : State) (ho : v.hqOwner j = r) :
      (l.foldl (fun s q => s.queueReset r q) v).flag (hqf F.SET_HQ_CFG_EN j) = false ∧
        (v.flag (hqf F.SET_HQ_CFG_EN j) = true → ((l.foldl (fun s q => s.queueReset r q) v).hq j).pkts = []) := by
    induction l generalizing v with
    | nil => simp at hm
    | cons q l ih =>
      have hq := hl q (by simp)
      have hl' : ∀ k ∈ l, k < 16 := fun k hk => hl k (by simp [hk])
      by_cases he : j = q
      · subst he
        obtain ⟨h1, h2⟩ := State.queueReset_self hq ho
        obtain ⟨h3, h4⟩ := stays l hl' _ h1
        exact ⟨h3, fun hv => (congrArg HostQ.pkts h4).trans (h2 hv)⟩
      · obtain ⟨h1, h2⟩ := ih hl' (by simpa [he] using hm) (v.queueReset r q) ((State.queueReset_owner hq hj).trans ho)
        refine ⟨h1, fun hv => h2 ?_⟩
        exact (State.queueReset_flag hq hj 0 0 (by decide) (.inl he)).trans hv
  exact main _ (fun q hq => List.mem_range.mp hq) (List.mem_range.mpr hj) s ho

/-! ### The reset of a function: its deliveries (R401, R437) -/

theorem State.mainIdle_get (s : State) {n : Nat} (hn : n < 128) {f : Fld} (hf : logReg f.addr = false) : (s.mainIdle n).get f = s.get f := by
  have h : (s.mainIdle n).rd f.addr = s.rd f.addr :=
    ((Logs.refl (al := true)).setB _ false (logOnly_due hn)).rd (Logs.logReg_of hf) (isPend_log hf)
  rw [State.get, h, State.get]

theorem State.mainIdle_mainCh (s : State) (n j : Nat) : (s.mainIdle n).mainCh j = if j = n then IrqCh.idle else s.mainCh j := by
  show mgetD (merase s.irq.main n) j IrqCh.idle = _
  split
  · rename_i h; subst h
    simp [mgetD, mget_merase_self]
  · rename_i h
    simp [mgetD, mget_merase_ne _ h, State.mainCh]

/-- One source of PF0 at a function's reset. -/
def State.sourceReset (s : State) (n : Nat) : State :=
  if s.get (rtf F.IRQ_ROUTE_TARGET n) == 1 && (s.mainCh n).due then s.mainIdle n else s

theorem rtf_log {n : Nat} (h : n < 128) (hi lo : Nat) : logReg (rtf ⟨F.IRQ_ROUTE_TARGET.addr, hi, lo⟩ n).addr = false := by
  have : ∀ n : Fin 128, logReg (F.IRQ_ROUTE_TARGET.addr + 4 * n.val) = false := by decide +kernel
  exact this ⟨n, h⟩

theorem State.sourceReset_spec {n j : Nat} (hn : n < 128) (hj : j < 128) :
    (s.sourceReset n).get (rtf F.IRQ_ROUTE_TARGET j) = s.get (rtf F.IRQ_ROUTE_TARGET j) ∧
      ((s.mainCh j).due = false → ((s.sourceReset n).mainCh j).due = false) ∧
      (s.get (rtf F.IRQ_ROUTE_TARGET n) = 1 → ((s.sourceReset n).mainCh n).due = false) := by
  by_cases hc : s.get (rtf F.IRQ_ROUTE_TARGET n) = 1 ∧ (s.mainCh n).due = true
  · have he : s.sourceReset n = s.mainIdle n := by simp [State.sourceReset, hc]
    rw [he]
    refine ⟨State.mainIdle_get s hn (rtf_log hj _ _), fun h => ?_, fun _ => ?_⟩
    · rw [State.mainIdle_mainCh]
      split
      · rfl
      · exact h
    · rw [State.mainIdle_mainCh, if_pos rfl]
      rfl
  · have he : s.sourceReset n = s := by
      rw [State.sourceReset, if_neg (by simpa using hc)]
    rw [he]
    exact ⟨rfl, id, fun h => Bool.eq_false_iff.mpr fun hd => hc ⟨h, hd⟩⟩

theorem State.irqFnReset_pf0_due (s : State) {j : Nat} (hj : j < 128) (ht : s.get (rtf F.IRQ_ROUTE_TARGET j) = 1) :
    ((s.irqFnReset .pf0).mainCh j).due = false := by
  have he : (s.irqFnReset .pf0).mainCh j = ((List.range 128).foldl (fun s n => s.sourceReset n) s).mainCh j := by
    unfold State.irqFnReset State.sourceReset; rfl
  rw [he]
  have stays (l : List Nat) (hl : ∀ n ∈ l, n < 128) (v : State) (h : (v.mainCh j).due = false) :
      ((l.foldl (fun s n => s.sourceReset n) v).mainCh j).due = false := by
    induction l generalizing v with
    | nil => exact h
    | cons n l ih => exact ih (fun k hk => hl k (by simp [hk])) _ ((State.sourceReset_spec (hl n (by simp)) hj).2.1 h)
  have main (l : List Nat) (hl : ∀ n ∈ l, n < 128) (hm : j ∈ l) (v : State) (h : v.get (rtf F.IRQ_ROUTE_TARGET j) = 1) :
      ((l.foldl (fun s n => s.sourceReset n) v).mainCh j).due = false := by
    induction l generalizing v with
    | nil => simp at hm
    | cons n l ih =>
      have hl' : ∀ k ∈ l, k < 128 := fun k hk => hl k (by simp [hk])
      obtain ⟨h1, -, h3⟩ := State.sourceReset_spec (s := v) (hl n (by simp)) hj
      by_cases he : j = n
      · subst he
        exact stays l hl' _ (h3 h)
      · exact ih hl' (by simpa [he] using hm) _ (h1.trans h)
  exact main _ (fun n hn => List.mem_range.mp hn) (List.mem_range.mpr hj) s ht

theorem State.irqFnReset_pf0_sett (s : State) : (s.irqFnReset .pf0).sett = s.sett := by
  have fold (l : List Nat) (v : State) : (l.foldl (fun s n => s.sourceReset n) v).sett = v.sett := by
    induction l generalizing v with
    | nil => rfl
    | cons n l ih =>
      refine (ih _).trans ?_
      dsimp only [State.sourceReset]
      split <;> rfl
  refine Eq.trans ?_ (fold (List.range 128) s)
  unfold State.irqFnReset State.sourceReset
  rfl

theorem Frame.irqFnReset (h : Frame ps rs s t) (hp : Part.irq ∈ ps) (f : Fn) : Frame ps rs s (t.irqFnReset f) := by
  have idle (u : State) (n : Nat) (hn : n < 128) (hu : Frame ps rs s u) : Frame ps rs s (u.mainIdle n) :=
    (hu.logs ((Logs.refl (al := true)).setB _ _ (logOnly_due hn))).put_irq hp _
  cases f
  · exact (h.foldlMem _ _ fun u n hn hu => Frame.ite (idle u n (List.mem_range.mp hn) hu) hu).put_irq hp _
  · exact (h.put_irq hp _).put_irq hp _

end Sys2Proof.Machine
end

section
namespace Sys2Proof.Machine

variable {s t u w : State} {r : Fn} {b : List Byte} {rs : Nat → Bool} {ps : List Part}

/-! ### What an event leaves of the channels of other sources (R424) -/

theorem State.raiseOn_mainCh (s : State) {n j : Nat} (h : j ≠ n) (x y : Bool) :
    (s.raiseOn n x y).mainCh j = s.mainCh j ∧ (s.raiseOn n x y).pf1Ch j = s.pf1Ch j := by
  cases x <;> cases y
  · exact ⟨rfl, rfl⟩
  · exact ⟨rfl, mgetD_mput_ne _ _ _ h⟩
  · exact ⟨mgetD_mput_ne _ _ _ h, rfl⟩
  · exact ⟨mgetD_mput_ne _ _ _ h, mgetD_mput_ne _ _ _ h⟩

theorem State.ev_mainCh (s : State) {c n j : Nat} (hc : evSource c = some n) (h : j ≠ n) (i : Nat) (l : List (Nat × Nat)) :
    (s.ev c i l).mainCh j = s.mainCh j ∧ (s.ev c i l).pf1Ch j = s.pf1Ch j := by
  unfold State.ev
  rw [hc]
  by_cases hu : (c == Ev.UNCORR) = true
  · simp only [hu, if_true]
    exact s.raiseOn_mainCh h _ _
  · simp only [hu]
    exact s.raiseOn_mainCh h _ _

/-- What the frame keeps of a function's PCI Express state. -/
theorem Frame.pfn (h : Frame ps rs s t) (hi : Part.irq ∉ ps) (f : Fn) : t.pfn f = s.pfn f := by
  have hq : t.irq.quiet = s.irq.quiet := h.parts .irq hi
  cases f
  · exact (congrArg Irq.fn0 hq : t.irq.quiet.fn0 = s.irq.quiet.fn0)
  · exact (congrArg Irq.fn1 hq : t.irq.quiet.fn1 = s.irq.quiet.fn1)

theorem State.irqFnReset_pfn (s : State) (f : Fn) : (s.irqFnReset f).pfn f = PcieFn.reset := by cases f <;> rfl

/-! ### The reset of a function: its registers (R401) -/

/-- The registers of a ring. -/
def ringRegs (r : Fn) : List Nat := (List.range 16).map fun i => ringReg r (R.CMD_CTRL + 4 * i)

theorem State.ringRegsReset_frame (s : State) (r : Fn) : Frame [] (regsIn (ringRegs r)) s (s.ringRegsReset r) :=
  (Frame.refl _ _ s).foldlMem _ _ fun _ _ hi hu => hu.wr _ _ (Bool.or_eq_true_iff.mpr (.inl (List.contains_iff_mem.mpr (List.mem_map_of_mem hi))))

theorem State.ringRegsReset_rd (s : State) (r : Fn) {i : Nat} (hi : i < 16) :
    (s.ringRegsReset r).rd (ringReg r (R.CMD_CTRL + 4 * i)) = 0 := by
  unfold State.ringRegsReset
  have stays (l : List Nat) (v : State) (h : v.rd (ringReg r (R.CMD_CTRL + 4 * i)) = 0) :
      (l.foldl (fun s i => s.wr (ringReg r (R.CMD_CTRL + 4 * i)) 0) v).rd (ringReg r (R.CMD_CTRL + 4 * i)) = 0 := by
    induction l generalizing v with
    | nil => exact h
    | cons k l ih =>
      refine ih _ ?_
      by_cases he : ringReg r (R.CMD_CTRL + 4 * i) = ringReg r (R.CMD_CTRL + 4 * k)
      · rw [he, State.rd_wr_self]
      · rw [State.rd_wr_ne _ _ he, h]
  have main (l : List Nat) (hm : i ∈ l) (v : State) :
      (l.foldl (fun s i => s.wr (ringReg r (R.CMD_CTRL + 4 * i)) 0) v).rd (ringReg r (R.CMD_CTRL + 4 * i)) = 0 := by
    induction l generalizing v with
    | nil => simp at hm
    | cons k l ih =>
      by_cases he : i = k
      · subst he
        exact stays l _ (State.rd_wr_self _ _ _)
      · exact ih (by simpa [he] using hm) _
  exact main _ (List.mem_range.mpr hi) s

/-- The ring registers after a function's reset: zero, but PAUSED stays (R401). -/
def State.ringRegsClear (s : State) (r : Fn) (paused : Bool) : State := (s.ringRegsReset r).setB (ringFld r F.CMD_STAT_PAUSED) paused

theorem State.ringRegsClear_frame (s : State) (r : Fn) (p : Bool) : Frame [] (regsIn (ringRegs r)) s (s.ringRegsClear r p) :=
  (s.ringRegsReset_frame r).setB _ _ (by cases r <;> decide)

theorem State.ringRegsClear_spec (s : State) (r : Fn) (p : Bool) :
    (∀ i, i < 16 → R.CMD_CTRL + 4 * i ≠ R.CMD_STAT → (s.ringRegsClear r p).rd (ringReg r (R.CMD_CTRL + 4 * i)) = 0) ∧
      (s.ringRegsClear r p).flag (ringFld r F.CMD_STAT_HALTED) = false ∧ (s.ringRegsClear r p).flag (ringFld r F.CMD_STAT_PAUSED) = p := by
  refine ⟨fun i hi hne => ?_, ?_, ?_⟩
  · refine (State.rd_set_ne _ _ ?_).trans (s.ringRegsReset_rd r hi)
    intro h
    refine hne ?_
    cases r
    · exact h
    · exact Nat.add_right_cancel h
  · unfold State.ringRegsClear
    rw [State.setB, State.flag_set_apart _ (ringFld_ok r (by decide)) (ringFld_ok r (by decide)) (by cases r <;> decide), State.flag, State.get]
    rw [show (s.ringRegsReset r).rd (ringFld r F.CMD_STAT_HALTED).addr = 0 from s.ringRegsReset_rd r (i := 1) (by decide)]
    cases r <;> decide
  · exact State.flag_setB_self _ p (ringFld_ok r (by decide)) rfl

theorem ringRegs_log (r : Fn) : ∀ i < 16, logReg (ringReg r (R.CMD_CTRL + 4 * i)) = false ∧ ringReg r (R.CMD_CTRL + 4 * i) ∉ hqCfgRegs := by
  cases r <;> decide

/-! ### PCIE_FUNCTION_RESET (R401, R437) -/

/-- A function's reset, after the ring's commands have ended: its queues, its deliveries and the event. -/
def State.fnClear (s : State) (f : Fn) : State :=
  ((s.queuesReset f).irqFnReset f).ev Ev.PCIE_RESET 0 [(8, if f = .pf1 then 1 else 0)]

theorem State.fnReset_eq (s : State) (f : Fn) :
    s.fnReset f = (((s.dropFly f).setRing f ⟨[]⟩).ringRegsClear f (s.flag (ringFld f F.CMD_STAT_PAUSED))).fnClear f := rfl

theorem State.fnClear_frame (s : State) (f : Fn) : Frame [.irq] (regsIn hqCfgRegs) s (s.fnClear f) := by
  refine Frame.ev (Frame.irqFnReset ?_ (by decide) f) _ _ _
  rw [State.queuesReset_eq]
  exact (Frame.refl _ _ s).foldlMem _ _ fun u q hq hu => hu.queueReset (fun a ha => List.contains_iff_mem.mpr ha) (List.mem_range.mp hq)

theorem State.fnClear_spec (s : State) (f : Fn) :
    (s.fnClear f).pfn f = PcieFn.reset ∧ (s.fnClear f).pends 86 ∧
    (∀ q, q < 16 → s.hqOwner q = f → (s.fnClear f).flag (hqf F.SET_HQ_CFG_EN q) = false ∧
      (s.flag (hqf F.SET_HQ_CFG_EN q) = true → ((s.fnClear f).hq q).pkts = [])) ∧
    ∀ n, n < 128 → n ≠ 86 → (f = .pf0 → s.get (rtf F.IRQ_ROUTE_TARGET n) = 1 → ((s.fnClear f).mainCh n).due = false) ∧
      (f = .pf1 → ((s.fnClear f).pf1Ch n).due = false) := by
  have hsrc : evSource Ev.PCIE_RESET = some 86 := by decide
  have hq : Frame [] (regsIn hqCfgRegs) s (s.queuesReset f) := by
    rw [State.queuesReset_eq]
    exact (Frame.refl _ _ s).foldlMem _ _ fun u q hq hu => hu.queueReset (fun a ha => List.contains_iff_mem.mpr ha) (List.mem_range.mp hq)
  have hi : Frame [.irq] noRegs (s.queuesReset f) ((s.queuesReset f).irqFnReset f) := (Frame.refl _ _ _).irqFnReset (by decide) f
  have he (v : State) (l : List (Nat × Nat)) : Frame [] noRegs v (v.ev Ev.PCIE_RESET 0 l) := (Frame.refl _ _ v).ev _ _ _
  refine ⟨((he _ _).pfn (by decide) f).trans (State.irqFnReset_pfn _ f), State.ev_pend _ _ _ hsrc, fun q hlt ho => ?_, fun n hn h86 => ⟨?_, ?_⟩⟩
  · obtain ⟨h1, h2⟩ := s.queuesReset_spec f hlt ho
    refine ⟨((he _ _).flag rfl (hqCfg_log hlt 0 0)).trans ((hi.flag rfl (hqCfg_log hlt 0 0)).trans h1), fun hen => ?_⟩
    have hsett : (s.fnClear f).sett = (s.queuesReset f).sett := by
      refine (State.ev_sett _ _ _ _).trans ?_
      cases f
      · exact State.irqFnReset_pf0_sett _
      · rfl
    rw [State.hq, hsett]
    exact h2 hen
  · rintro rfl ht
    show ((State.ev _ _ _ _).mainCh n).due = false
    rw [(State.ev_mainCh _ hsrc h86 _ _).1]
    exact State.irqFnReset_pf0_due _ hn ((hq.get (by
      have : ∀ n : Fin 128, regsIn hqCfgRegs (F.IRQ_ROUTE_TARGET.addr + 4 * n.val) = false := by decide +kernel
      exact this ⟨n, hn⟩) (rtf_log hn _ _)).trans ht)
  · rintro rfl
    show ((State.ev _ _ _ _).pf1Ch n).due = false
    rw [(State.ev_mainCh _ hsrc h86 _ _).2]
    rfl

/-- PCIE_FUNCTION_RESET resets the function's ring, its queues and its deliveries. -/
theorem functionReset_resets (s : State) (f : Fn) : ∃ u : State, exec (.pcieFunctionReset f) s = .next u.drain ∧ (u.ring f).fetched = [] ∧
    u.cmd.fly = s.cmd.fly.filter (fun x => !decide (x.fn = f)) ∧ u.out = s.out ∧
    (∀ i, i < 16 → R.CMD_CTRL + 4 * i ≠ R.CMD_STAT → u.rd (ringReg f (R.CMD_CTRL + 4 * i)) = 0) ∧
    u.flag (ringFld f F.CMD_STAT_HALTED) = false ∧ u.flag (ringFld f F.CMD_STAT_PAUSED) = s.flag (ringFld f F.CMD_STAT_PAUSED) ∧
    (∀ q, q < 16 → s.hqOwner q = f → u.flag (hqf F.SET_HQ_CFG_EN q) = false ∧ (s.flag (hqf F.SET_HQ_CFG_EN q) = true → (u.hq q).pkts = [])) ∧
    u.pfn f = PcieFn.reset ∧ u.pends 86 ∧
    ∀ n, n < 128 → n ≠ 86 → (f = .pf0 → s.get (rtf F.IRQ_ROUTE_TARGET n) = 1 → (u.mainCh n).due = false) ∧
      (f = .pf1 → (u.pf1Ch n).due = false) := by
  obtain ⟨hfly, -, hd⟩ := s.dropFly_spec f
  obtain ⟨hz, hhalt, hpaused⟩ := ((s.dropFly f).setRing f ⟨[]⟩).ringRegsClear_spec f (s.flag (ringFld f F.CMD_STAT_PAUSED))
  have hc := ((s.dropFly f).setRing f ⟨[]⟩).ringRegsClear_frame f (s.flag (ringFld f F.CMD_STAT_PAUSED))
  have hr : Frame stepParts noRegs (s.dropFly f) ((s.dropFly f).setRing f ⟨[]⟩) := (Frame.refl _ _ _).setRing (by decide) _
  have he := s.fnReset_eq f
  generalize ((s.dropFly f).setRing f ⟨[]⟩).ringRegsClear f (s.flag (ringFld f F.CMD_STAT_PAUSED)) = v at hz hhalt hpaused hc he
  have hv : Frame stepParts (regsIn (R.ECC_STAT :: flyRegs ++ ringRegs f)) s v := by
    refine ((hd.mono (fun _ h => h) ?_).trans (hr.mono (fun _ h => h) fun _ _ => rfl)).trans (hc.mono (by simp) ?_) <;> intro a ha <;>
      simp only [regsIn, List.contains_eq_mem, List.mem_append, decide_eq_false_iff_not, not_or] at ha ⊢ <;> tauto
  have hf := v.fnClear_frame f
  obtain ⟨h1, h2, h3, h4⟩ := v.fnClear_spec f
  have hcmd : (v.fnClear f).cmd = ((s.dropFly f).setRing f ⟨[]⟩).cmd := (hf.parts .cmd (by decide)).trans (hc.parts .cmd (by decide))
  have hroute (n : Nat) (hn : n < 128) : v.get (rtf F.IRQ_ROUTE_TARGET n) = s.get (rtf F.IRQ_ROUTE_TARGET n) := by
    refine hv.get ?_ (rtf_log hn _ _)
    have : ∀ n : Fin 128, regsIn (R.ECC_STAT :: flyRegs ++ ringRegs f) (F.IRQ_ROUTE_TARGET.addr + 4 * n.val) = false := by
      cases f <;> decide +kernel
    exact this ⟨n, hn⟩
  have hcfg (q : Nat) (hq : q < 16) (hi lo : Nat) : v.flag (hqf ⟨R.SET_HQ_CFG, hi, lo⟩ q) = s.flag (hqf ⟨R.SET_HQ_CFG, hi, lo⟩ q) := by
    refine hv.flag ?_ (hqCfg_log hq hi lo)
    have : ∀ q : Fin 16, regsIn (R.ECC_STAT :: flyRegs ++ ringRegs f) (R.SET_HQ_CFG + 0x80 * q.val) = false := by
      cases f <;> decide +kernel
    exact this ⟨q, hq⟩
  refine ⟨_, congrArg (fun u : State => Host.Outcome.next u.drain) he, ?_, ?_, ?_, ?_, ?_, ?_, ?_, h1, h2, ?_⟩
  · cases f <;> simp [State.ring, hcmd, State.setRing]
  · rw [hcmd, ← hfly]; cases f <;> rfl
  · exact (hf.parts .out (by decide)).trans (hv.parts .out (by decide))
  · intro i hi hne
    obtain ⟨hl, hm⟩ := ringRegs_log f i hi
    rw [hf.regs _ (by simpa [regsIn] using hm) hl, hz i hi hne]
  · exact (hf.flag (by cases f <;> decide) (by cases f <;> decide)).trans hhalt
  · exact (hf.flag (by cases f <;> decide) (by cases f <;> decide)).trans hpaused
  · intro q hq ho
    obtain ⟨h5, h6⟩ := h3 q hq ((congrArg (fun x => if x then Fn.pf1 else Fn.pf0) (hcfg q hq 2 2)).trans ho)
    exact ⟨h5, fun hen => h6 ((hcfg q hq 0 0).trans hen)⟩
  · intro n hn h86
    obtain ⟨h5, h6⟩ := h4 n hn h86
    exact ⟨fun hf ht => h5 hf ((hroute n hn).trans ht), h6⟩

end Sys2Proof.Machine
end

section
namespace Sys2Proof.Machine

variable {s t u w : State} {r : Fn} {b : List Byte}

/-! ### Plain commands whose body changes nothing (R535) -/

/-- A plain command that only answers. -/
theorem Starts.answers {c : Instr} {op plen st : Nat} {ok : Bool} {mine : List Byte → Bool} {body : List Byte → State → CmdRes}
    {res : List Byte} (hs : Starts s r op plen ok b) (he : exec c s = .next (s.plain r op plen ok mine body).drain) (hm : mine b = true)
    (hb : body b (s.popHead r) = ⟨st, res, s.popHead r⟩) : Answers c s r b st res [] [] fun _ => True :=
  Answers.of hs he hm hb ((Frame.refl _ _ s).popHead (by simp)) rfl (fun _ _ => rfl) (by simp) (by simp) trivial

theorem checked_fail {l : List (Bool × Nat)} {st : Nat} {k : CmdRes} (h : firstFail l = some st) : checked l s k = ⟨st, [], s⟩ := by
  rw [checked, h]; rfl

theorem checked_pass {l : List (Bool × Nat)} {k : CmdRes} (h : firstFail l = none) : checked l s k = k := by
  rw [checked, h]

@[simp] theorem State.popHead_sett : (s.popHead r).sett = s.sett := by cases r <;> rfl

/-! ### General commands (R2, R414) -/

theorem nop_answers (h : Starts s r 0x01 8 true b) : Answers (.nop r) s r b St.ok [] [] [] fun _ => True :=
  h.answers (mine := fun _ => true) rfl rfl rfl

theorem getInfo_answers (h : Starts s r 0x02 12 true b) :
    let bad := firstFail [(decide (1 < le b 8 1), St.badParam), (!zeroAt b 9 3, St.badParam)]
    (∀ st, bad = some st → Answers (.getInfo r) s r b st [] [] [] fun _ => True) ∧
    (bad = none → le b 8 1 = 0 → Answers (.getInfo r) s r b St.ok (s.infoId r) [] [] fun _ => True) ∧
    (bad = none → le b 8 1 = 1 → Answers (.getInfo r) s r b St.ok s.infoSizes [] [] fun _ => True) := by
  refine ⟨fun st hb => ?_, fun hb h0 => ?_, fun hb h1 => ?_⟩
  all_goals refine h.answers (mine := fun _ => true) (body := getInfoBody r) rfl rfl ?_
  · exact checked_fail hb
  · rw [getInfoBody, checked_pass hb, h0]
    simp [State.infoId]
  · rw [getInfoBody, checked_pass hb, h1]
    simp [State.infoSizes]

theorem abort_answers (h : Starts s r 0x04 16 false b) :
    let mine (f : Fly) : Bool := decide (f.fn = r) && !f.waiting && pkSeq f.bytes == le b 8 4
    let bad := firstFail [(!zeroAt b 12 4, St.badParam), (!s.cmd.fly.any mine, St.state)]
    (∀ st, bad = some st → Answers (.abortStepped r) s r b st [] [] [] fun _ => True) ∧
    (bad = none → Does (.abortStepped r) s [.cmd, .out] (regsIn [ringReg r R.RPL_PROD]) fun t => Answered r b St.ok 0 [] s t ∧
      t.cmd = { (s.popHead r).cmd with fly := s.cmd.fly.map (fun f => if mine f then { f with abort := true } else f), late := t.cmd.late }) := by
  intro mine bad
  have hfly : (s.popHead r).cmd.fly = s.cmd.fly := State.popHead_fly
  refine ⟨fun st hb => ?_, fun hb => ?_⟩
  · refine h.answers (mine := fun _ => true) (body := abortBody r) rfl rfl ?_
    rw [abortBody, hfly]
    exact checked_fail hb
  · set v := (s.popHead r).modCmd fun c => { c with fly := c.fly.map fun f => if mine f then { f with abort := true } else f } with hv
    have he : exec (.abortStepped r) s = .next (v.reply r b St.ok 0 []).drain := by
      have hbody : abortBody r b (s.popHead r) = ⟨St.ok, [], v⟩ := by
        rw [abortBody, hfly]
        exact checked_pass hb
      show State.done _ = _
      rw [State.plain_starts h rfl, hbody]
      rfl
    have hf : Frame [.cmd] noRegs s v := ((Frame.refl _ _ s).popHead (by simp)).put_cmd (by simp) _
    have hl : v.cmd.late = s.cmd.late := State.popHead_late
    have hn : v.NoneLate := h.late.frame hf (by simp) hl
    refine ⟨_, he, ⟨?_, ?_⟩, ?_⟩
    · exact Frame.answered (rs := noRegs) (hf.mono (by decide) fun _ h => h) h.late (fun _ _ => rfl) hl _ _ _
    · rw [State.drain_cmd, State.reply_cmd hn, hv]
      simp [State.modCmd]
    · exact ((hf.mono (by simp) fun _ _ => rfl).reply (by simp) (by simp) (by simp [regsIn]) hn _ _ _).drain

end Sys2Proof.Machine

section
open Sys2Proof Sys2Proof.Machine

/-- Settles O44: a clause per theorem above, those of a step by what every step leaves of the commands in flight (`FlyKept`). -/
theorem commandRingsFetchStepAndReset : Obligations.CommandRingsFetchStepAndReset := by
  refine ⟨fun s a v h => doorbell_leads h, fun s r e p h => fetch_idle e p h, fun s r e h => entryFetch_leads e h,
    fun s r p h => fetchTimeout_leads p h, fun s r b buf hh ho hn => ?_, fun s r buf hb hd => ?_, fun s r f buf hd hn => ⟨?_, ?_, ?_⟩,
    fun s a v h => ⟨fun h0 => ?_, fun h1 => ⟨?_, fun hm => ?_⟩⟩, functionReset_resets, fun s r b h => nop_answers h,
    fun s r b h => getInfo_answers h, fun s r b h => abort_answers h⟩
  · exact Answers.of_reply hn (State.commandStep_undefined buf hh ho)
  · exact Leads.nothing (State.commandStep_idle buf hb hd)
  · exact fun ha h3 h80 h82 => State.commandStep_aborted_does buf hd hn ha h3 h80 h82
  · exact fun ha => State.commandStep_aborted buf hd hn ha
  · exact fun ha => State.commandStep_steps buf hd hn ha
  · exact ⟨_, cmdRingReset_plain h h0, s.ringEn_en _ v, s.ringEn_frame _ v⟩
  · obtain ⟨g1, g2, g3, g4, g5, g6⟩ := s.ringReset_spec (agentFn a) v
    exact ⟨_, cmdRingReset_resets h h1, g1, g2, g3, g4, g5.trans (s.ringEn_en _ v), g6⟩
  · exact ⟨_, cmdRingReset_resets h h1, trivial, ((s.ringReset_frame (agentFn a) v hm).mono (fun _ h => h) fun x hx => hx).drain⟩

end
end

section
namespace Sys2Proof.Machine

/-! ### A register store that lists TIM_PLL_STAT twice (R45, R483)

A read takes the first entry, a reset the last. No command makes such a store; `ResetOf` asks for the canonical form of the store only where
it speaks of the registers that are kept, and not where it says what becomes of TIM_STAT.REF_LOST. -/

/-- Quiesced, with QTMO of 1 s; TIM_PLL_STAT is listed with REF_LOST 0, and again with REF_LOST 1. -/
def twiceListed : State :=
  { State.reset with regs := [(R.TIM_PLL_STAT, 0), (R.TIM_PLL_STAT, 4), (R.PWR_STAT, 4), (R.PWR_CTRL, 1)] }

/-- What the statements say of REF_LOST after a SYS reset. -/
theorem ResetOf.refLost {ex : List Nat} {s t : State} (h : ResetOf false ex s t) :
    t.flag F.TIM_STAT_REF_LOST = s.flag F.TIM_PLL_STAT_REF_LOST := by
  obtain ⟨-, -, -, -, -, -, -, -, -, -, -, -, -, -, -, -, -, -, -, -, -, -, -, -, -, -, -, -, -, -, hlost, -⟩ := h
  simpa using hlost

/-- Before the reset REF_LOST reads 0, also after events have been logged. -/
theorem twiceListed_lost : twiceListed.flag F.TIM_PLL_STAT_REF_LOST = false := by decide

/-- The reset finds REF_LOST set. -/
theorem twiceListed_sysReset : (twiceListed.gasp.sysReset 4).flag F.TIM_STAT_REF_LOST = true := by decide +kernel

theorem twiceListed_quiesceTimeout :
    ((twiceListed.reach (twiceListed.boot.quiesceAt + ticksOfS 1)).sysReset 32).flag F.TIM_STAT_REF_LOST = true := by decide +kernel

/-- A command that resets this store by w does not leave what the statements say of a SYS reset of v, where REF_LOST still reads 0 in v. -/
theorem not_resetOf {u v w : State} {ex : List Nat} (he : w.done = .next u.drain) (hw : w.flag F.TIM_STAT_REF_LOST = true)
    (hv : v.flag F.TIM_PLL_STAT_REF_LOST = false) : ¬ ResetOf false ex v u := by
  intro hr
  have hd : w.drain = u.drain := Host.Outcome.next.inj he
  have hu : u.flag F.TIM_STAT_REF_LOST = true := by
    rw [← State.drain_flag u (by decide), ← hd, State.drain_flag w (by decide), hw]
  rw [hr.refLost, hv] at hu
  cases hu

end Sys2Proof.Machine

section
open Sys2Proof Sys2Proof.Machine

/-- Refutes O52: its clause of SYS_RESET says of every state that TIM_STAT.REF_LOST is then TIM_PLL_STAT.REF_LOST as read before, without the
condition that the register store is in its canonical form; of a store that lists TIM_PLL_STAT twice the reset keeps the last entry. -/
theorem not_resetsAndStartsFollowTheirSequence : ¬ Obligations.ResetsAndStartsFollowTheirSequence := by
  intro h
  obtain ⟨hsys, -⟩ := h
  obtain ⟨u, he, ⟨hr, -⟩, -⟩ := (hsys twiceListed).2 rfl
  refine not_resetOf (w := twiceListed.gasp.sysReset 4) he twiceListed_sysReset ?_ hr
  rw [State.drain_flag _ (by decide)]
  exact twiceListed_lost

/-- Refutes O54: its clause of QUIESCE_TIMEOUT says the same of a quiesced state with that register store. -/
theorem not_powerFailsQuiescesAndIsLost : ¬ Obligations.PowerFailsQuiescesAndIsLost := by
  intro h
  obtain ⟨-, -, -, -, hquiesce, -⟩ := h
  obtain ⟨u, he, ⟨hr, -⟩, -⟩ := (hquiesce twiceListed).2 (by decide) (by decide)
  refine not_resetOf (w := (twiceListed.reach (twiceListed.boot.quiesceAt + ticksOfS 1)).sysReset 32) he twiceListed_quiesceTimeout ?_ hr
  rw [State.drain_flag _ (by decide)]
  exact ((Frame.refl [.tim] noRegs twiceListed).reach (by decide) _).flag rfl (by decide) |>.trans twiceListed_lost

end
end

section
namespace Sys2Proof.Machine

/-! ### A multicast filter longer than its 64 entries (R344)

The model keeps the addresses that a port's filter holds as a list, and writes one entry per address of the list that it replaces. A list of
more than 64 entries, which no command makes, reaches the registers behind the filter: entry 768 of port 0 is MAC_CTRL of port 1. -/

/-- Port 1 has a link, and port 0's filter is said to hold 769 addresses. -/
def overlongFilter : State :=
  { State.reset with regs := [(R.MAC_STAT_P + 0x2000, 1)], mac := { Mac.reset with mcf := [(0, List.replicate 769 0)] } }

/-- MAC_CTRL of port 1. -/
def macCtrl1 : Nat := R.MAC_CTRL_P + 0x2000

/-- MAC_CTRL of the SerDes ports. -/
def macCtrlRow : RegRow :=
  ⟨R.MAC_CTRL_P, [(4, 0x2000)], .pf0, .sys, [⟨7, 7, .rw, 1⟩, ⟨5, 4, .rw, 2⟩, ⟨3, 3, .rw, 1⟩, ⟨2, 1, .rw, 0⟩, ⟨0, 0, .rw, 0⟩]⟩

/-- AN_EN = 1 stored. -/
def overlongStored : State := overlongFilter.store macCtrl1 8

/-- The state in which the filters are brought up to date: AN_EN is stored, the link of port 1 is down. -/
def overlongUnlinked : State :=
  (((overlongStored.setB (pfld F.MAC_STAT_P_LINK 1) false).setB (pfld F.MAC_STAT_P_AN_DONE 1) false).ev0 Ev.MAC_LINK_DOWN).modPort 1
    fun x => { x with goodFrom := 0 }

/-- A plain write that its range admits is stored, and followed. -/
theorem State.plainWrite_ok {s : State} {a : Agent} {b : Nat} {v : Dword} (hv : s.verdict b v = .ok) (he : fieldEvent b v = none)
    (hm : isEpochReg b = false) : s.plainWrite a b v = s.after (s.store b (s.condition b v)) a b := by
  simp [State.plainWrite, hv, he, State.markEpoch, hm]

/-- A stored write of MAC_CTRL of a port is followed by what its fields ask for. -/
theorem State.after_macCtrl1 (s t : State) (a : Agent) : s.after t a macCtrl1 = s.afterMacCtrl t 1 := rfl

theorem overlongFilter_verdict : overlongFilter.verdict macCtrl1 8 = .ok := rfl

theorem overlongFilter_condition : overlongFilter.condition macCtrl1 8 = 8 := by decide +kernel

theorem overlongFilter_plainWrite : overlongFilter.plainWrite .pf0 macCtrl1 8 = overlongFilter.afterMacCtrl overlongStored 1 := by
  have he : fieldEvent macCtrl1 8 = none := by decide +kernel
  rw [State.plainWrite_ok overlongFilter_verdict he (by decide +kernel), overlongFilter_condition, State.after_macCtrl1]
  rfl

/-- AN_EN rises, so the link goes down (R342). -/
theorem overlongStored_relinks : overlongFilter.afterMacCtrl overlongStored 1 =
    overlongUnlinked.mcSync.modPort 1 fun x => { x with goodFrom := 0 } := by
  have hs : overlongFilter.portEn 1 = false := by decide +kernel
  have ht : overlongStored.portEn 1 = false := by decide +kernel
  have hd : overlongFilter.get (pfld F.MAC_CTRL_P_AN_EN 1) = 0 ∧ overlongStored.get (pfld F.MAC_CTRL_P_AN_EN 1) = 1 := by decide +kernel
  have hl : overlongStored.portLink 1 = true := by decide +kernel
  unfold State.afterMacCtrl
  simp [hs, ht, hd, State.linkDown, hl]
  rfl

theorem regAt_macCtrl1 : regAt .pf0 macCtrl1 = some (macCtrl1, macCtrlRow) := by decide +kernel

theorem pairOf_macCtrl1 : pairOf macCtrl1 = none := by decide +kernel

theorem overlongFilter_own : overlongFilter.ownWriteA .pf0 macCtrl1 8 = none ∧ overlongFilter.ownWriteB .pf0 macCtrl1 8 = none :=
  ⟨by decide +kernel, by decide +kernel⟩

theorem overlongFilter_mayWrite : overlongFilter.mayWrite .pf0 macCtrl1 := ⟨rfl, nofun⟩

theorem overlongFilter_write :
    overlongFilter.writeReg .pf0 macCtrl1 4 8 = overlongUnlinked.mcSync.modPort 1 fun x => { x with goodFrom := 0 } := by
  obtain ⟨hA, hB⟩ := overlongFilter_own
  rw [State.writeReg_at (by decide) rfl (.inr (by decide)) regAt_macCtrl1, State.gate_may overlongFilter_mayWrite, State.regWrite, pairOf_macCtrl1]
  dsimp only
  rw [hA, hB]
  exact overlongFilter_plainWrite.trans overlongStored_relinks

theorem mget_none_of_keys {α : Type} {m : List (Nat × α)} {k : Nat} (h : ∀ p ∈ m, p.1 ≠ k) : mget m k = none := by
  induction m with
  | nil => rfl
  | cons p m ih =>
    obtain ⟨j, v⟩ := p
    have hj : j ≠ k := h (j, v) (by simp)
    simpa [mget, hj] using ih fun q hq => h q (by simp [hq])

/-- Clearing a field of a register that the store does not list changes nothing. -/
theorem State.set_unlisted {s : State} {f : Fld} (h : ∀ p ∈ s.regs, p.1 ≠ f.addr) : s.set f 0 = s := by
  have hr : s.rd f.addr = 0 := by rw [State.rd, mgetD, mget_none_of_keys h]; rfl
  have he : merase s.regs f.addr = s.regs := List.filter_eq_self.mpr fun p hp => by simpa using h p hp
  rw [State.set, hr, show BitVec.ofNat 32 (setBits (0 : Dword).toNat f.hi f.lo 0) = 0 by simp [setBits, bits], State.wr, mstore, if_pos rfl, he]

/-- The entries before 768 of port 0's filter lie below every register that is not zero. -/
theorem overlongUnlinked_mcEntry {i : Nat} (hi : i < 768) : overlongUnlinked.mcEntry 0 i none = overlongUnlinked := by
  have hall : (overlongUnlinked.regs.all fun p => decide (macCtrl1 ≤ p.1)) = true := by decide +kernel
  have clear (f : Fld) (hf : f.addr < macCtrl1) : overlongUnlinked.set f 0 = overlongUnlinked :=
    State.set_unlisted fun p hp he => by
      have := of_decide_eq_true (List.all_eq_true.mp hall p hp)
      omega
  have hlo : ((pfld F.MAC_MCF_LO_P_ADDR 0).at (8 * i)).addr < macCtrl1 := by
    show 0x20800 + 0x2000 * 0 + 8 * i < 0x22000
    omega
  have hhi : ((pfld F.MAC_MCF_HI_P_ADDR 0).at (8 * i)).addr < macCtrl1 := by
    show 0x20804 + 0x2000 * 0 + 8 * i < 0x22000
    omega
  have e1 := clear _ hlo
  have e2 := clear _ hhi
  have e3 := clear ((pfld F.MAC_MCF_HI_P_VALID 0).at (8 * i)) hhi
  unfold State.mcEntry
  dsimp only [Option.getD_none, Nat.zero_mod, Nat.zero_div, Option.isSome_none, State.setB, b2n]
  exact (congrArg (fun s => State.set (State.set s _ 0) _ 0) e1).trans ((congrArg (fun s => State.set s _ 0) e2).trans e3)

/-- The filter of port 0 is emptied: its entry 768 is written last. -/
theorem overlongUnlinked_mcFilter : overlongUnlinked.mcFilter 0 (overlongUnlinked.mcMacs 0) =
    { overlongUnlinked.mcEntry 0 768 none with mac := { overlongUnlinked.mac with mcf := [(0, [])] } } := by
  have hm : overlongUnlinked.mcMacs 0 = [] := by decide +kernel
  have hw : mgetD overlongUnlinked.mac.mcf 0 [] = List.replicate 769 0 := by decide +kernel
  have hfold (l : List Nat) (hl : ∀ i ∈ l, i < 768) :
      l.foldl (fun (s : State) i => s.mcEntry 0 i ([] : List Nat)[i]?) overlongUnlinked = overlongUnlinked := by
    induction l with
    | nil => rfl
    | cons i l ih =>
      rw [List.foldl_cons, List.getElem?_nil, overlongUnlinked_mcEntry (hl i (by simp))]
      exact ih fun k hk => hl k (by simp [hk])
  unfold State.mcFilter
  dsimp only
  rw [hm, hw, if_neg (by decide), List.length_replicate, List.length_nil, Nat.max_zero, List.range_succ, List.foldl_append,
    hfold _ fun i hi => List.mem_range.mp hi]
  rfl

/-- The filters and reports follow port by port. -/
theorem State.mcSync_first {s : State} (h : s.fwRuns = true) : s.mcSync =
    [1, 2, 3, 4].foldl (fun (s : State) p => (s.mcFilter p (s.mcMacs p)).mcChange p) ((s.mcFilter 0 (s.mcMacs 0)).mcChange 0) := by
  rw [State.mcSync, if_pos h, show List.range 5 = [0, 1, 2, 3, 4] from rfl, List.foldl_cons]

/-- A write of AN_EN = 1 starts the link anew; the filters follow, and clear the register just written. -/
theorem overlongFilter_cleared : (overlongFilter.writeReg .pf0 macCtrl1 4 8).rd macCtrl1 = 0 := by
  have hrun : overlongUnlinked.fwRuns = true := by decide +kernel
  rw [overlongFilter_write, State.mcSync_first hrun, overlongUnlinked_mcFilter]
  decide +kernel

end Sys2Proof.Machine

section
open Sys2Proof Sys2Proof.Machine

/-- Refutes O41: a write of MAC_CTRL of port 1 that its range admits does not store the written fields in a state whose list of port 0's
multicast filter is longer than the filter: the link goes down, and bringing the filters up to date overwrites the register. -/
theorem not_registerAccessesFollowTheirTypes : ¬ Obligations.RegisterAccessesFollowTheirTypes := by
  intro h
  obtain ⟨-, -, hwrite, -⟩ := h
  obtain ⟨hA, hB⟩ := overlongFilter_own
  obtain ⟨-, -, hok, -⟩ := hwrite overlongFilter .pf0 macCtrl1 macCtrl1 macCtrl1 macCtrlRow 8 regAt_macCtrl1 rfl rfl (by decide) rfl
    overlongFilter_mayWrite pairOf_macCtrl1 hA hB
  obtain ⟨u, he, hu⟩ := hok overlongFilter_verdict (by decide) (by decide)
  have hd : (overlongFilter.writeReg .pf0 macCtrl1 4 8).drain = u.drain := Host.Outcome.next.inj he
  have hz : u.rd macCtrl1 = 0 := by
    rw [← State.drain_rd u (by decide), ← hd, State.drain_rd _ (by decide), overlongFilter_cleared]
  have hm : BitVec.ofNat 32 (mergeWrite macCtrlRow (overlongFilter.rd macCtrl1).toNat 8) = 8 := by decide +kernel
  rw [hz, overlongFilter_condition] at hu
  exact absurd (hu.trans hm) (by decide)

end
end

section
namespace Sys2Proof.Machine

/-! ### The end of a hitless restart while a core is halted (R490, R508)

The end starts the watchdog's count, and only a halt that takes effect holds it again. A core that stood halted all along stays parked when
the rings run again, and a halt of it that was asked for meanwhile finds nothing to do: the watchdog runs. -/

theorem mget_map_values {α : Type} (f : α → α) (m : List (Nat × α)) (k : Nat) :
    mget (m.map fun p => (p.1, f p.2)) k = (mget m k).map f := by
  induction m with
  | nil => rfl
  | cons p m ih =>
    rw [List.map_cons, mget, mget, ih]
    split <;> rfl

theorem State.halted_dbgCore (s : State) (c : Nat) :
    (s.dbgCore c).halted = ((mget s.dbg.cores c).map fun x => x.halted).getD false := by
  rw [State.dbgCore, mgetD]
  cases mget s.dbg.cores c <;> rfl

/-- No firmware function runs while core 0 is parked (R38, R433). -/
theorem State.fwRuns_of_parked {s : State} (h : s.flag F.IRQ_CORESTAT_PARK_C0 = true) : s.fwRuns = false := by
  simp [State.fwRuns, h]

theorem State.finalReplies_of_stopped {s : State} (h : s.fwRuns = false) : s.finalReplies = s := by
  simp [State.finalReplies, h]

theorem State.mcSync_of_stopped {s : State} (h : s.fwRuns = false) : s.mcSync = s := by simp [State.mcSync, h]

theorem State.mcAnswer_of_stopped {s : State} (h : s.fwRuns = false) : s.mcAnswer = s := by simp [State.mcAnswer, h]

theorem State.haltCore_of_halted {s : State} {c : Nat} (h : (s.dbgCore c).halted = true) (cause : Nat) : s.haltCore c cause = s := by
  simp [State.haltCore, h]

/-- Halts asked for of cores that stand halted change nothing. -/
theorem State.haltWaiting_of_halted {s : State} (h : ∀ c ∈ s.dbg.haltLater, (s.dbgCore c).halted = true) :
    s.haltWaiting = s.modDbg fun d => { d with haltLater := [] } := by
  have hfold (t : State) (l : List Nat) (hl : ∀ c ∈ l, (t.dbgCore c).halted = true) :
      l.foldl (fun (s : State) c => s.haltCore c 1) t = t := by
    induction l with
    | nil => rfl
    | cons c l ih =>
      rw [List.foldl_cons, State.haltCore_of_halted (hl c (by simp))]
      exact ih fun k hk => hl k (by simp [hk])
  exact hfold _ _ h

theorem State.park_boot (s : State) (c : Nat) (on : Bool) : (s.park c on).boot = s.boot := by
  unfold State.park
  split <;> rfl

theorem State.park_dbg (s : State) (c : Nat) (on : Bool) : (s.park c on).dbg = s.dbg := by
  unfold State.park
  split <;> rfl

@[simp] theorem State.pauseRings_boot (s : State) (on : Bool) : (s.pauseRings on).boot = s.boot := by
  simp [State.pauseRings, State.park_boot, State.setB]

@[simp] theorem State.pauseRings_dbg (s : State) (on : Bool) : (s.pauseRings on).dbg = s.dbg := by
  simp [State.pauseRings, State.park_dbg, State.setB]

theorem State.park_flag_self (s : State) (on : Bool) : (s.park 0 on).flag F.IRQ_CORESTAT_PARK_C0 = on :=
  State.flag_setB_self _ on (f := F.IRQ_CORESTAT_PARK_C0) (by decide) rfl

/-- Parking core 1 leaves core 0's bit. -/
theorem State.park_flag_other (s : State) (on : Bool) :
    (s.park 1 on).flag F.IRQ_CORESTAT_PARK_C0 = s.flag F.IRQ_CORESTAT_PARK_C0 := by
  unfold State.park
  dsimp only
  rw [State.flag, State.setB, State.get_set_other (f := parkFld 1) (g := F.IRQ_CORESTAT_PARK_C0) _ _ (by decide) (by decide) rfl (by decide), ← State.flag]
  split <;> rfl

/-- A core 0 that stands halted stays parked as the rings pause and run again. -/
theorem State.pauseRings_parked {s : State} (h : (s.dbgCore 0).halted = true) (on : Bool) :
    (s.pauseRings on).flag F.IRQ_CORESTAT_PARK_C0 = true := by
  rw [State.halted_dbgCore] at h
  simp only [State.pauseRings, State.setB, h]
  rw [State.ev0_flag _ _ (by decide), State.park_flag_other, State.park_flag_self, Bool.or_true]

/-- A core without break points and watchpoints. -/
def DbgCore.noPoints (x : DbgCore) : DbgCore := { x with points := [] }

/-- The debug port as a restart ends, before the halts asked for meanwhile. -/
def Dbg.noPoints (d : Dbg) : Dbg := { d with cores := d.cores.map fun p => (p.1, p.2.noPoints) }

theorem State.halted_noPoints {s t : State} (h : t.dbg = s.dbg.noPoints) (c : Nat) : (t.dbgCore c).halted = (s.dbgCore c).halted := by
  have hc : mget t.dbg.cores c = (mget s.dbg.cores c).map DbgCore.noPoints := by rw [h, Dbg.noPoints, mget_map_values]
  rw [State.halted_dbgCore, State.halted_dbgCore, hc, Option.map_map]
  rfl

/-- The state of a restart's end in which the waiting commands get their replies. -/
def State.restartRuns (s : State) (last ev : Nat) : State :=
  let s := s.freeHandover
  let s := { s with cmd := { s.cmd with pauseAt := none }, dbg := s.dbg.noPoints }
  ((((s.modBoot fun b => { b with restart := none, wdogAt := some s.now }).set F.UPD_STAT_LAST last).pauseRings false).ev0 ev)

theorem State.restartEnd_eq (s : State) (last ev st : Nat) (res : List Byte) :
    s.restartEnd last ev st res = ((s.restartRuns last ev).endWaiting 0x8B st res).haltWaiting.mcSync.mcAnswer := rfl

theorem State.freeHandover_frame (s : State) : Frame [] noRegs s s.freeHandover := (Frame.refl _ _ s).dropHolds _ _

theorem State.restartRuns_dbg (s : State) (last ev : Nat) : (s.restartRuns last ev).dbg = s.dbg.noPoints := by
  have hd : s.freeHandover.dbg = s.dbg := s.freeHandover_frame.parts .dbg (by simp)
  simp [State.restartRuns, State.modBoot, hd]

theorem State.restartRuns_boot (s : State) (last ev : Nat) :
    (s.restartRuns last ev).boot = { s.boot with restart := none, wdogAt := some s.now } := by
  have hb : s.freeHandover.boot = s.boot := s.freeHandover_frame.parts .boot (by simp)
  have ht : s.freeHandover.tim = s.tim := s.freeHandover_frame.parts .tim (by simp)
  simp [State.restartRuns, State.modBoot, State.now, hb, ht]

theorem State.restartRuns_parked {s : State} (h : (s.dbgCore 0).halted = true) (last ev : Nat) :
    (s.restartRuns last ev).flag F.IRQ_CORESTAT_PARK_C0 = true := by
  have hd : s.freeHandover.dbg = s.dbg := s.freeHandover_frame.parts .dbg (by simp)
  unfold State.restartRuns
  rw [State.ev0_flag _ _ (by decide)]
  refine State.pauseRings_parked ?_ _
  rw [State.halted_noPoints (s := s) (by simp [State.modBoot, hd]), h]

/-- While the firmware stands still the waiting commands are marked, and get no reply. -/
theorem State.endWaiting_of_stopped {s : State} (h : s.fwRuns = false) (op st : Nat) (res : List Byte) :
    ∃ c : Cmd, s.endWaiting op st res = { s with cmd := c } :=
  ⟨_, State.finalReplies_of_stopped h⟩

/-- A restart that ends while core 0 stands halted, and with no halt asked for of a core that runs, starts the watchdog's count. -/
theorem State.restartEnd_boot_of_halted {s : State} (h0 : (s.dbgCore 0).halted = true)
    (hl : ∀ c ∈ s.dbg.haltLater, (s.dbgCore c).halted = true) (last ev st : Nat) (res : List Byte) :
    (s.restartEnd last ev st res).boot = { s.boot with restart := none, wdogAt := some s.now } := by
  have hdbg := s.restartRuns_dbg last ev
  have hstop : (s.restartRuns last ev).fwRuns = false := State.fwRuns_of_parked (State.restartRuns_parked h0 last ev)
  obtain ⟨c, hc⟩ := State.endWaiting_of_stopped hstop 0x8B st res
  have hwait := State.haltWaiting_of_halted (s := { s.restartRuns last ev with cmd := c }) fun k hk => by
    have hlater : k ∈ (s.restartRuns last ev).dbg.haltLater := hk
    rw [hdbg] at hlater
    exact (State.halted_noPoints (s := s) hdbg k).trans (hl k hlater)
  rw [State.restartEnd_eq, hc, hwait, State.mcSync_of_stopped (by exact hstop), State.mcAnswer_of_stopped (by exact hstop)]
  exact s.restartRuns_boot last ev

/-- A restart of MODE 0 whose image does not check leaves the image that ran (R490). -/
theorem State.restartRow_of_invalid {s : State} {r : Fn} {x : Nat} (hr : s.boot.restart = some (0, x))
    (hi : s.imageValid s.boot.running = false) : s.restartRow r 0 = s.restartEnd 3 Ev.UPD_VERIFY_FAIL St.verifyFail [] := by
  simp [State.restartRow, hr, State.restartFinish, hi]

/-- A hitless restart of MODE 0 is in progress, both rings paused and both cores parked; core 0 stands halted, and a halt of it has been
asked for since. No image is in force, so the check of step 4 fails. -/
def haltedInRestart : State :=
  { State.reset with
    regs := [(R.CMD_STAT, 8), (R.IRQ_CORESTAT, 3), (ringReg .pf1 R.CMD_STAT, 8)]
    boot := { Boot.reset with phase := .run, restart := some (0, 0) }
    dbg := { Dbg.reset with cores := [(0, { DbgCore.reset with halted := true })], haltLater := [0] } }

theorem haltedInRestart_image : haltedInRestart.imageValid haltedInRestart.boot.running = false := rfl

theorem exec_haltedInRestart : exec (.restartHitless .pf0) haltedInRestart =
    (haltedInRestart.restartEnd 3 Ev.UPD_VERIFY_FAIL St.verifyFail []).done :=
  congrArg State.done (State.restartRow_of_invalid rfl haltedInRestart_image)

/-- The row completes the restart with the watchdog's count started. -/
theorem haltedInRestart_watchdog :
    (haltedInRestart.restartEnd 3 Ev.UPD_VERIFY_FAIL St.verifyFail []).boot.wdogAt = some 0 := by
  have h0 : (haltedInRestart.dbgCore 0).halted = true := rfl
  rw [State.restartEnd_boot_of_halted h0 fun c hc => ?_]
  · rfl
  · obtain rfl : c = 0 := by simpa [haltedInRestart] using hc
    exact h0

end Sys2Proof.Machine

section
open Sys2Proof Sys2Proof.Machine

/-- Refutes O53: its clause of a restart that ends with halts asked for meanwhile says that the watchdog is then held. Where the core in
question stands halted already, that halt does nothing, and the watchdog runs although a core is halted (against R508). -/
theorem not_imagesAreStagedAndTakenOver : ¬ Obligations.ImagesAreStagedAndTakenOver := by
  intro h
  obtain ⟨-, -, -, -, -, -, -, hcompletes, -⟩ := h
  obtain ⟨hnone, -⟩ := hcompletes haltedInRestart .pf0 0 0 rfl (by decide)
  obtain ⟨-, hlater⟩ := hnone (by simp [haltedInRestart_image])
  obtain ⟨t, he, -, -, hheld, -⟩ := hlater (by decide)
  have ht : (haltedInRestart.restartEnd 3 Ev.UPD_VERIFY_FAIL St.verifyFail []).drain = t :=
    Host.Outcome.next.inj (exec_haltedInRestart.symm.trans he)
  rw [← ht, State.drain_boot, haltedInRestart_watchdog] at hheld
  cases hheld

end
end

section
namespace Sys2Proof.Machine

variable {s t u : State} {ps : List Part} {rs : Nat → Bool} {n : Nat}

/-! ### Pending sources through further writes (R424) -/

/-- A pending source stays pending through a write of a register of the blocks before the interrupt controller. -/
theorem State.pends_set {f : Fld} (x : Nat) (h : f.addr < R.IRQ_PEND) (k : s.pends n) : (s.set f x).pends n := by
  refine (State.flag_set_ne s x ?_).trans k
  show R.IRQ_PEND + 4 * (n / 32) ≠ f.addr
  omega

theorem State.pends_of_regs (hr : t.regs = s.regs) (k : s.pends n) : t.pends n := by
  unfold State.pends at k ⊢
  rw [← k]
  simp only [State.flag, State.get, State.rd, hr]

theorem State.pends_ev0 (hn : n < 128) (c : Nat) (k : s.pends n) : (s.ev0 c).pends n := State.ev_pendKeep hn c 0 [] k

/-! ### Time goes on (R44, R50) -/

theorem State.reach_tim (s : State) (n : Nat) : (s.reach n).tim = { s.tim with now := max s.tim.now n } := by
  unfold State.reach
  split
  case isTrue h => rw [State.drain_tim, max_eq_right (Nat.le_of_lt h)]
  case isFalse h => rw [max_eq_left (Nat.not_lt.mp h)]

theorem State.reach_frame (s : State) (n : Nat) : Frame [.tim] noRegs s (s.reach n) := (Frame.refl _ _ s).reach (by simp) n

theorem State.reach_get (s : State) (n : Nat) {f : Fld} (h : logReg f.addr = false) : (s.reach n).get f = s.get f :=
  (s.reach_frame n).get rfl h

theorem State.reach_flag (s : State) (n : Nat) {f : Fld} (h : logReg f.addr = false) : (s.reach n).flag f = s.flag f :=
  (s.reach_frame n).flag rfl h

/-! ### PPS_OUT held low (R62) -/

theorem State.ppsCut_tim (s : State) : ∃ p, s.ppsCut.tim = { s.tim with ppsHigh := p } := by
  unfold State.ppsCut
  split
  · exact ⟨false, rfl⟩
  · exact ⟨s.tim.ppsHigh, rfl⟩

@[simp] theorem State.ppsCut_regs (s : State) : s.ppsCut.regs = s.regs := by
  unfold State.ppsCut; split <;> rfl

@[simp] theorem State.ppsCut_get (s : State) (f : Fld) : s.ppsCut.get f = s.get f := by simp [State.get, State.rd]

@[simp] theorem State.ppsCut_flag (s : State) (f : Fld) : s.ppsCut.flag f = s.flag f := by simp [State.flag]

theorem State.pends_ppsCut (k : s.pends n) : s.ppsCut.pends n := State.pends_of_regs s.ppsCut_regs k

theorem Frame.ppsCut (h : Frame ps rs s t) (hp : Part.tim ∈ ps) : Frame ps rs s t.ppsCut := .ite (h.put_tim hp _) h

/-! ### LOCKED, U and EXPIRED follow (R67) -/

/-- LOCKED and U as the registers make them, and whether a source has ever locked. -/
def State.timMarked (s : State) : State :=
  let locked := s.flag F.TIM_SERVO_LOCK && !s.flag F.TIM_CTRL_HOLD
  let v := s.setB F.TIM_STAT_LOCKED locked
  let w : State := { v with tim := { v.tim with everLocked := v.tim.everLocked || locked } }
  w.set F.TIM_UNC_U w.uncNow

/-- What the registers' following can do: LOCKED and U, and in holdover EXPIRED with its event. -/
theorem State.timSync_cases (s : State) : s.timSync = s.timMarked.ppsCut ∨
    s.flag F.TIM_CTRL_HOLD = true ∧ s.timSync = ((s.timMarked.setB F.TIM_STAT_EXPIRED true).ev0 Ev.TIM_HOLDOVER_EXPIRED).ppsCut := by
  have hold : s.timMarked.flag F.TIM_CTRL_HOLD = s.flag F.TIM_CTRL_HOLD :=
    (State.flag_set_ne _ _ (by decide)).trans (State.flag_setB_ne s _ (by decide))
  have he : s.timSync = if s.timMarked.flag F.TIM_CTRL_HOLD && !s.timMarked.flag F.TIM_STAT_EXPIRED &&
        decide (s.timMarked.get F.TIM_HOLDMAX_MAX < s.timMarked.get F.TIM_UNC_U) then
      ((s.timMarked.setB F.TIM_STAT_EXPIRED true).ev0 Ev.TIM_HOLDOVER_EXPIRED).ppsCut else s.timMarked.ppsCut := rfl
  rw [he, ← hold]
  split
  case isTrue h =>
    simp only [Bool.and_eq_true] at h
    exact .inr ⟨h.1.1, rfl⟩
  case isFalse => exact .inl rfl

/-- The fields that following writes. -/
def syncFlds : List Fld := [F.TIM_STAT_LOCKED, F.TIM_STAT_EXPIRED, F.TIM_UNC_U]

theorem State.timMarked_get {g : Fld} (hg : g.ok) (h : syncFlds.all (·.apart g) = true) : s.timMarked.get g = s.get g := by
  simp only [syncFlds, List.all_cons, List.all_nil, Bool.and_eq_true] at h
  obtain ⟨hlocked, -, hunc, -⟩ := h
  exact (State.get_set_apart _ (by decide) hg hunc).trans (State.get_set_apart (s := s) _ (by decide) hg hlocked)

theorem State.timMarked_tim (s : State) : ∃ e, s.timMarked.tim = { s.tim with everLocked := e } := ⟨_, rfl⟩

/-- Every field but those three stays. -/
theorem State.timSync_get {g : Fld} (hg : g.ok) (hl : logReg g.addr = false) (h : syncFlds.all (·.apart g) = true) :
    s.timSync.get g = s.get g := by
  rcases s.timSync_cases with he | ⟨-, he⟩ <;> rw [he, State.ppsCut_get]
  · exact State.timMarked_get hg h
  · have hexp : F.TIM_STAT_EXPIRED.apart g = true := by simp [syncFlds] at h; exact h.2.1
    rw [State.ev0_get _ _ hl, State.setB, State.get_set_apart _ (by decide) hg hexp, State.timMarked_get hg h]

theorem State.timSync_flag {g : Fld} (hg : g.ok) (hl : logReg g.addr = false) (h : syncFlds.all (·.apart g) = true) :
    s.timSync.flag g = s.flag g := congrArg (· != 0) (State.timSync_get hg hl h)

theorem State.timSync_tim (s : State) : ∃ e p, s.timSync.tim = { s.tim with everLocked := e, ppsHigh := p } := by
  obtain ⟨e, he⟩ := s.timMarked_tim
  rcases s.timSync_cases with h | ⟨-, h⟩ <;> rw [h]
  · obtain ⟨p, hp⟩ := s.timMarked.ppsCut_tim
    exact ⟨e, p, by rw [hp, he]⟩
  · obtain ⟨p, hp⟩ := ((s.timMarked.setB F.TIM_STAT_EXPIRED true).ev0 Ev.TIM_HOLDOVER_EXPIRED).ppsCut_tim
    exact ⟨e, p, by rw [hp, State.ev0_tim, State.setB, State.set, State.wr_tim, he]⟩

/-- What U and the PPS level do not enter stays of the time base. -/
theorem State.timSync_tim_of {α : Type} (g : Tim → α) (hg : ∀ x e p, g { x with everLocked := e, ppsHigh := p } = g x) (s : State) :
    g s.timSync.tim = g s.tim := by
  obtain ⟨e, p, h⟩ := s.timSync_tim
  rw [h, hg]

theorem State.timSync_pends (hn : n < 128) (k : s.pends n) : s.timSync.pends n := by
  have hm : s.timMarked.pends n := State.pends_set _ (by decide) (State.pends_set (s := s) _ (by decide) k)
  rcases s.timSync_cases with h | ⟨-, h⟩ <;> rw [h] <;> apply State.pends_ppsCut
  · exact hm
  · exact State.pends_ev0 hn _ (State.pends_set _ (by decide) hm)

theorem Frame.timSync (h : Frame ps rs s t) (hp : Part.tim ∈ ps) (hs : rs R.TIM_STAT = true) (hu : rs R.TIM_UNC = true) :
    Frame ps rs s t.timSync := by
  have stat : (rs R.TIM_STAT || logReg R.TIM_STAT) = true := by simp [hs]
  have unc : (rs R.TIM_UNC || logReg R.TIM_UNC) = true := by simp [hu]
  have hm : Frame ps rs s t.timMarked := ((h.setB _ _ stat).put_tim hp _).set _ _ unc
  rcases t.timSync_cases with he | ⟨-, he⟩ <;> rw [he] <;> refine Frame.ppsCut ?_ hp
  · exact hm
  · exact (hm.setB _ _ stat).ev0 _

/-- LOCKED is LOCK of TIM_SERVO outside holdover. -/
theorem State.timSync_locked (s : State) : s.timSync.flag F.TIM_STAT_LOCKED = (s.flag F.TIM_SERVO_LOCK && !s.flag F.TIM_CTRL_HOLD) := by
  have hm : s.timMarked.flag F.TIM_STAT_LOCKED = (s.flag F.TIM_SERVO_LOCK && !s.flag F.TIM_CTRL_HOLD) :=
    (State.flag_set_ne _ _ (by decide)).trans (State.flag_setB_self s _ (by decide) rfl)
  rcases s.timSync_cases with h | ⟨-, h⟩ <;> rw [h, State.ppsCut_flag]
  · exact hm
  · rw [State.ev0_flag _ _ (by decide), State.setB, State.flag_set_apart _ (by decide) (by decide) (by decide), hm]

/-- Out of holdover EXPIRED stays. -/
theorem State.timSync_expired (hh : s.flag F.TIM_CTRL_HOLD = false) : s.timSync.flag F.TIM_STAT_EXPIRED = s.flag F.TIM_STAT_EXPIRED := by
  rcases s.timSync_cases with h | ⟨h, -⟩
  · rw [h, State.ppsCut_flag]
    exact (State.flag_set_ne _ _ (by decide)).trans (State.flag_set_apart (s := s) _ (by decide) (by decide) (by decide))
  · rw [h] at hh; cases hh

theorem State.uncNow_lt (s : State) : s.uncNow < 2 ^ 32 := by
  have hu : s.get F.TIM_SERVO_UNC < 2 ^ 24 := State.get_lt s (f := F.TIM_SERVO_UNC)
  unfold State.uncNow
  split
  · decide
  · dsimp only
    split <;> omega

/-- What U depends on. -/
theorem State.uncNow_congr (ha : t.tim.servoAt = s.tim.servoAt) (hu : t.tim.uncAt = s.tim.uncAt)
    (hg : ∀ g ∈ [F.TIM_SERVO_UNC, F.TIM_CTRL_HOLD, F.TIM_HOLDRATE_RATE], t.get g = s.get g) : t.uncNow = s.uncNow := by
  simp only [List.forall_mem_cons, List.not_mem_nil, false_imp_iff, implies_true, and_true] at hg
  obtain ⟨h1, h2, h3⟩ := hg
  unfold State.uncNow
  rw [ha, hu, h1, h3, State.flag, State.flag, h2]

/-- U is as R67 reckons it. -/
theorem State.timSync_unc (s : State) : s.timSync.get F.TIM_UNC_U = s.uncNow := by
  have hm : s.timMarked.get F.TIM_UNC_U = s.uncNow := by
    refine (State.get_set_dword (f := F.TIM_UNC_U) (by decide) rfl (State.uncNow_lt _)).trans (State.uncNow_congr rfl rfl fun g hg => ?_)
    refine State.get_set_ne s _ ?_
    simp only [List.mem_cons, List.not_mem_nil, or_false] at hg
    rcases hg with rfl | rfl | rfl <;> decide
  rcases s.timSync_cases with h | ⟨-, h⟩ <;> rw [h, State.ppsCut_get]
  · exact hm
  · rw [State.ev0_get _ _ (by decide), State.setB, State.get_set_ne _ _ (by decide), hm]

end Sys2Proof.Machine
end

section
namespace Sys2Proof.Machine

variable {s t u : State} {ps : List Part} {rs : Nat → Bool} {n : Nat} {hw : Bool}

/-! ### HOLD entered and left (R66, R69) -/

/-- HOLD and HOLD_HW set, the holdover counted from now, its event raised: what `enterHold` does before the registers follow. -/
def State.holdSet (s : State) (hw : Bool) : State :=
  let s := (s.setB F.TIM_CTRL_HOLD true).setB F.TIM_STAT_HOLD_HW hw
  ({ s with tim := { s.tim with holdAt := s.tim.now, uncAt := s.tim.now } } : State).ev0 Ev.TIM_HOLDOVER_ENTER

/-- Registers that holding changes before its event is logged. -/
theorem State.holdSet_get (s : State) (hw : Bool) {g : Fld} (hl : logReg g.addr = false) :
    (s.holdSet hw).get g = ((s.setB F.TIM_CTRL_HOLD true).setB F.TIM_STAT_HOLD_HW hw).get g := by
  rw [State.holdSet, State.ev0_get _ _ hl]
  rfl

theorem State.holdSet_flag (s : State) (hw : Bool) {g : Fld} (hl : logReg g.addr = false) :
    (s.holdSet hw).flag g = ((s.setB F.TIM_CTRL_HOLD true).setB F.TIM_STAT_HOLD_HW hw).flag g := congrArg (· != 0) (s.holdSet_get hw hl)

theorem State.holdSet_pends (hn : n < 128) (k : s.pends n) : (s.holdSet hw).pends n := by
  have h1 : (s.setB F.TIM_CTRL_HOLD true).pends n := State.pends_set _ (by decide) k
  have h2 : ((s.setB F.TIM_CTRL_HOLD true).setB F.TIM_STAT_HOLD_HW hw).pends n := State.pends_set _ (by decide) h1
  exact State.pends_ev0 hn _ (State.pends_of_regs rfl h2)

theorem State.enterHold_held (h : s.flag F.TIM_CTRL_HOLD = true) : s.enterHold hw = s := by simp [State.enterHold, h]

theorem State.enterHold_free (h : s.flag F.TIM_CTRL_HOLD = false) : s.enterHold hw = (s.holdSet hw).timSync := by
  simp [State.enterHold, h]
  rfl

theorem Frame.enterHold (h : Frame ps rs s t) (hp : Part.tim ∈ ps) (hc : rs R.TIM_CTRL = true) (hs : rs R.TIM_STAT = true)
    (hu : rs R.TIM_UNC = true) : Frame ps rs s (t.enterHold hw) := by
  cases hh : t.flag F.TIM_CTRL_HOLD
  · rw [State.enterHold_free hh]
    exact ((((h.setB _ _ (by simp [hc])).setB _ _ (by simp [hs])).put_tim hp _).ev0 _).timSync hp hs hu
  · rwa [State.enterHold_held hh]

/-- The fields that entering and leaving holdover write. -/
def holdFlds : List Fld := F.TIM_CTRL_HOLD :: F.TIM_STAT_HOLD_HW :: syncFlds

theorem holdFlds_sync {g : Fld} (h : holdFlds.all (·.apart g) = true) : syncFlds.all (·.apart g) = true := by
  simp only [holdFlds, List.all_cons, Bool.and_eq_true] at h
  exact h.2.2

/-- Another field stays when holdover is entered. -/
theorem State.enterHold_get {g : Fld} (hg : g.ok) (hl : logReg g.addr = false) (h : holdFlds.all (·.apart g) = true) :
    (s.enterHold hw).get g = s.get g := by
  cases hh : s.flag F.TIM_CTRL_HOLD
  · have hc : F.TIM_CTRL_HOLD.apart g = true ∧ F.TIM_STAT_HOLD_HW.apart g = true := by
      simp only [holdFlds, List.all_cons, Bool.and_eq_true] at h
      exact ⟨h.1, h.2.1⟩
    rw [State.enterHold_free hh, State.timSync_get hg hl (holdFlds_sync h), State.holdSet_get _ _ hl]
    exact (State.get_set_apart _ (by decide) hg hc.2).trans (State.get_set_apart (s := s) _ (by decide) hg hc.1)
  · rw [State.enterHold_held hh]

theorem State.enterHold_flag {g : Fld} (hg : g.ok) (hl : logReg g.addr = false) (h : holdFlds.all (·.apart g) = true) :
    (s.enterHold hw).flag g = s.flag g := congrArg (· != 0) (State.enterHold_get hg hl h)

/-- HOLD is then set. -/
theorem State.enterHold_hold (s : State) (hw : Bool) : (s.enterHold hw).flag F.TIM_CTRL_HOLD = true := by
  cases hh : s.flag F.TIM_CTRL_HOLD
  · rw [State.enterHold_free hh, State.timSync_flag (by decide) (by decide) (by decide), State.holdSet_flag _ _ (by decide),
      State.flag_setB_ne _ _ (by decide)]
    exact State.flag_setB_self s _ (by decide) rfl
  · rw [State.enterHold_held hh, hh]

/-- HOLD that rises is logged, with HOLD_HW as its cause says. -/
theorem State.enterHold_rises (hh : s.flag F.TIM_CTRL_HOLD = false) :
    (s.enterHold hw).flag F.TIM_STAT_HOLD_HW = hw ∧ (s.enterHold hw).pends 9 := by
  rw [State.enterHold_free hh]
  refine ⟨?_, State.timSync_pends (by decide) (State.ev0_pends _ (by decide))⟩
  rw [State.timSync_flag (by decide) (by decide) (by decide), State.holdSet_flag _ _ (by decide)]
  exact State.flag_setB_self (s.setB F.TIM_CTRL_HOLD true) hw (by decide) rfl

theorem State.enterHold_now (s : State) (hw : Bool) : (s.enterHold hw).tim.now = s.tim.now := by
  cases hh : s.flag F.TIM_CTRL_HOLD
  · rw [State.enterHold_free hh, State.timSync_tim_of Tim.now fun _ _ _ => rfl, State.holdSet, State.ev0_tim]
    rfl
  · rw [State.enterHold_held hh]

theorem State.enterHold_pends (hn : n < 128) (k : s.pends n) : (s.enterHold hw).pends n := by
  cases hh : s.flag F.TIM_CTRL_HOLD
  · rw [State.enterHold_free hh]
    exact State.timSync_pends hn (State.holdSet_pends hn k)
  · rwa [State.enterHold_held hh]

/-- HOLD, HOLD_HW and EXPIRED cleared, with the event: what `leaveHold` does before the registers follow. -/
def State.holdCleared (s : State) : State :=
  (((s.setB F.TIM_CTRL_HOLD false).setB F.TIM_STAT_HOLD_HW false).setB F.TIM_STAT_EXPIRED false).ev0 Ev.TIM_HOLDOVER_EXIT

theorem State.leaveHold_stays (h : s.flag F.TIM_STAT_REF_LOST = true) : s.leaveHold = s := by simp [State.leaveHold, h]

theorem State.leaveHold_leaves (hh : s.flag F.TIM_CTRL_HOLD = true) (hr : s.flag F.TIM_STAT_REF_LOST = false) :
    s.leaveHold = s.holdCleared.timSync := by
  simp [State.leaveHold, hh, hr]
  rfl

theorem Frame.holdCleared (h : Frame ps rs s t) (hc : rs R.TIM_CTRL = true) (hs : rs R.TIM_STAT = true) : Frame ps rs s t.holdCleared :=
  (((h.setB _ _ (by simp [hc])).setB _ _ (by simp [hs])).setB _ _ (by simp [hs])).ev0 _

/-- Left, HOLD, HOLD_HW and EXPIRED are clear, and the event is logged. -/
theorem State.holdCleared_spec (s : State) : s.holdCleared.timSync.flag F.TIM_CTRL_HOLD = false ∧
    s.holdCleared.timSync.flag F.TIM_STAT_HOLD_HW = false ∧ s.holdCleared.timSync.flag F.TIM_STAT_EXPIRED = false ∧
    s.holdCleared.timSync.pends 9 := by
  have hold : s.holdCleared.flag F.TIM_CTRL_HOLD = false := by
    rw [State.holdCleared, State.ev0_flag _ _ (by decide), State.flag_setB_ne _ _ (by decide), State.flag_setB_ne _ _ (by decide)]
    exact State.flag_setB_self s _ (by decide) rfl
  refine ⟨?_, ?_, ?_, State.timSync_pends (by decide) (State.ev0_pends _ (by decide))⟩
  · rw [State.timSync_flag (by decide) (by decide) (by decide), hold]
  · rw [State.timSync_flag (by decide) (by decide) (by decide), State.holdCleared, State.ev0_flag _ _ (by decide)]
    exact (State.flag_set_apart _ (by decide) (by decide) (by decide)).trans
      (State.flag_setB_self (s.setB F.TIM_CTRL_HOLD false) false (by decide) rfl)
  · rw [State.timSync_expired hold, State.holdCleared, State.ev0_flag _ _ (by decide)]
    exact State.flag_setB_self _ false (by decide) rfl

/-! ### The reference (R46) -/

theorem evTimRefLost_does (hl : s.flag F.TIM_PLL_STAT_LOCK = true) (hr : s.flag F.TIM_STAT_REF_LOST = false) :
    Does .evTimRefLost s [.tim] (regsIn [R.TIM_STAT, R.TIM_PLL_STAT, R.TIM_CTRL, R.TIM_UNC]) fun t =>
      t.flag F.TIM_STAT_REF_LOST = true ∧ t.flag F.TIM_PLL_STAT_REF_LOST = true ∧ t.flag F.TIM_PLL_STAT_LOCK = false ∧
        t.get F.TIM_PLL_STAT_UNLOCK_CNT = satInc (s.get F.TIM_PLL_STAT_UNLOCK_CNT) 65535 ∧ t.flag F.TIM_CTRL_HOLD = true ∧
        (s.flag F.TIM_CTRL_HOLD = false → t.flag F.TIM_STAT_HOLD_HW = true ∧ t.pends 9) ∧ t.pends 15 := by
  set a := (s.setB F.TIM_STAT_REF_LOST true).setB F.TIM_PLL_STAT_REF_LOST true with ha
  set b := ((a.setB F.TIM_PLL_STAT_LOCK false).incSat F.TIM_PLL_STAT_UNLOCK_CNT).ev0 Ev.TIM_REF_LOST with hb
  have he : exec .evTimRefLost s = ((b.enterHold true).ppsCut).done := by
    show execEvTimRefLost s = _
    simp only [execEvTimRefLost, hl, hr, Bool.not_false, Bool.and_self, if_true]
    rfl
  have hold : b.flag F.TIM_CTRL_HOLD = s.flag F.TIM_CTRL_HOLD := by
    rw [hb, State.ev0_flag _ _ (by decide), State.incSat, State.flag_set_ne _ _ (by decide), State.flag_setB_ne _ _ (by decide), ha,
      State.flag_setB_ne _ _ (by decide), State.flag_setB_ne _ _ (by decide)]
  have cnt : a.get F.TIM_PLL_STAT_UNLOCK_CNT = s.get F.TIM_PLL_STAT_UNLOCK_CNT :=
    (State.get_set_apart _ (by decide) (by decide) (by decide)).trans (State.get_set_ne s _ (by decide))
  have lock : (a.setB F.TIM_PLL_STAT_LOCK false).get F.TIM_PLL_STAT_UNLOCK_CNT = a.get F.TIM_PLL_STAT_UNLOCK_CNT :=
    State.get_set_apart _ (by decide) (by decide) (by decide)
  refine ⟨_, he, ⟨?_, ?_, ?_, ?_, ?_, ?_, ?_⟩, ?_⟩
  · rw [State.drain_flag _ (by decide), State.ppsCut_flag, State.enterHold_flag (by decide) (by decide) (by decide), hb,
      State.ev0_flag _ _ (by decide), State.incSat, State.flag_set_ne _ _ (by decide), State.flag_setB_ne _ _ (by decide), ha,
      State.flag_setB_ne _ _ (by decide)]
    exact State.flag_setB_self s _ (by decide) rfl
  · rw [State.drain_flag _ (by decide), State.ppsCut_flag, State.enterHold_flag (by decide) (by decide) (by decide), hb,
      State.ev0_flag _ _ (by decide), State.incSat, State.flag_set_apart _ (by decide) (by decide) (by decide), State.setB,
      State.flag_set_apart _ (by decide) (by decide) (by decide), ha]
    exact State.flag_setB_self _ _ (by decide) rfl
  · rw [State.drain_flag _ (by decide), State.ppsCut_flag, State.enterHold_flag (by decide) (by decide) (by decide), hb,
      State.ev0_flag _ _ (by decide), State.incSat, State.flag_set_apart _ (by decide) (by decide) (by decide)]
    exact State.flag_setB_self _ _ (by decide) rfl
  · rw [State.drain_get _ (by decide), State.ppsCut_get, State.enterHold_get (by decide) (by decide) (by decide), hb,
      State.ev0_get _ _ (by decide), State.incSat, State.get_set_self _ _ (by decide), lock, cnt]
    refine Nat.mod_eq_of_lt ?_
    show satInc _ 65535 < 65536
    unfold satInc
    split <;> omega
  · rw [State.drain_flag _ (by decide), State.ppsCut_flag, State.enterHold_hold]
  · intro h
    obtain ⟨h1, h2⟩ := State.enterHold_rises (hw := true) (hold.trans h)
    exact ⟨by rw [State.drain_flag _ (by decide), State.ppsCut_flag, h1], State.pends_drain (by decide) (State.pends_ppsCut h2)⟩
  · exact State.pends_drain (by decide) (State.pends_ppsCut (State.enterHold_pends (by decide) (State.ev0_pends _ (by decide))))
  · have h1 : Frame [.tim] (regsIn [R.TIM_STAT, R.TIM_PLL_STAT, R.TIM_CTRL, R.TIM_UNC]) s b :=
      (((((Frame.refl _ _ s).setB _ _ (by decide)).setB _ _ (by decide)).setB _ _ (by decide)).incSat _ (by decide)).ev0 _
    exact ((h1.enterHold (by simp) (by decide) (by decide) (by decide)).ppsCut (by simp)).drain

end Sys2Proof.Machine
end

section
namespace Sys2Proof.Machine

variable {s t u : State} {a : Agent} {v : Dword}

theorem evTimRefRestored_does (hr : s.flag F.TIM_STAT_REF_LOST = true) :
    Does .evTimRefRestored s [] (regsIn [R.TIM_STAT, R.TIM_PLL_STAT]) fun t =>
      t.flag F.TIM_STAT_REF_LOST = false ∧ t.flag F.TIM_PLL_STAT_REF_LOST = false ∧ t.flag F.TIM_PLL_STAT_LOCK = true ∧ t.pends 15 := by
  set b := (s.setB F.TIM_STAT_REF_LOST false).setB F.TIM_PLL_STAT_REF_LOST false with hb
  have he : exec .evTimRefRestored s = ((b.setB F.TIM_PLL_STAT_LOCK true).ev0 Ev.TIM_REF_RESTORED).done := if_pos hr
  refine ⟨_, he, ⟨?_, ?_, ?_, State.pends_drain (by decide) (State.ev0_pends _ (by decide))⟩, ?_⟩
  · rw [State.drain_flag _ (by decide), State.ev0_flag _ _ (by decide), State.flag_setB_ne _ _ (by decide), hb,
      State.flag_setB_ne _ _ (by decide)]
    exact State.flag_setB_self s _ (by decide) rfl
  · rw [State.drain_flag _ (by decide), State.ev0_flag _ _ (by decide), State.setB, State.flag_set_apart _ (by decide) (by decide) (by decide), hb]
    exact State.flag_setB_self _ _ (by decide) rfl
  · rw [State.drain_flag _ (by decide), State.ev0_flag _ _ (by decide)]
    exact State.flag_setB_self _ _ (by decide) rfl
  · exact ((((Frame.refl _ _ s).setB _ _ (by decide)).setB _ _ (by decide)).setB _ _ (by decide)).ev0 _ |>.drain

/-! ### TIM_SERVO and its timeout (R66) -/

/-- The row of TIM_SERVO. -/
def timServoRow : RegRow := ⟨R.TIM_SERVO, [], .pf0, .sys, [⟨31, 8, .rw, 0xFFFFFF⟩, ⟨0, 0, .rw, 0⟩]⟩

theorem rowOf_timServo : rowOf R.TIM_SERVO = some timServoRow := by decide +kernel

theorem timServoRow_tidy : timServoRow.tidy := by unfold RegRow.tidy; decide

/-- TIM_SERVO stored, the timeout armed and counted from now: what `servoWrite` does before the registers follow. -/
def State.servoStored (s : State) (v : Dword) : State :=
  let s := s.store R.TIM_SERVO v
  { s with tim := { s.tim with servoAt := some s.tim.now, servoFrom := s.tim.now } }

theorem State.store_tim (s : State) (x : Nat) (v : Dword) : (s.store x v).tim = s.tim := by
  unfold State.store; split <;> rfl

theorem State.store_get_ne (s : State) {x : Nat} (v : Dword) {f : Fld} (h : f.addr ≠ x) : (s.store x v).get f = s.get f := by
  rw [State.get, State.store_rd_ne _ _ h, State.get]

theorem timServoWrite_does (hm : s.mayWrite a R.TIM_SERVO) :
    Does (.timServoWrite a v) s [.tim] (regsIn [R.TIM_SERVO, R.TIM_STAT, R.TIM_UNC]) fun t =>
      t.tim.servoAt = some s.tim.now ∧ t.tim.servoFrom = s.tim.now ∧ t.get F.TIM_SERVO_UNC = fval F.TIM_SERVO_UNC v ∧
        t.flag F.TIM_STAT_LOCKED = (t.flag F.TIM_SERVO_LOCK && !s.flag F.TIM_CTRL_HOLD) := by
  have he : exec (.timServoWrite a v) s = (s.servoStored v).timSync.done := congrArg State.done (State.gate_may hm _)
  have hold : (s.servoStored v).flag F.TIM_CTRL_HOLD = s.flag F.TIM_CTRL_HOLD := congrArg (· != 0) (s.store_get_ne v (by decide))
  refine ⟨_, he, ⟨?_, ?_, ?_, ?_⟩, ?_⟩
  · rw [State.drain_tim, State.timSync_tim_of Tim.servoAt fun _ _ _ => rfl]
    exact congrArg (fun x : Tim => some x.now) (s.store_tim _ v)
  · rw [State.drain_tim, State.timSync_tim_of Tim.servoFrom fun _ _ _ => rfl]
    exact congrArg Tim.now (s.store_tim _ v)
  · rw [State.drain_get _ (by decide), State.timSync_get (by decide) (by decide) (by decide)]
    exact State.get_store (f := ⟨31, 8, .rw, 0xFFFFFF⟩) rowOf_timServo timServoRow_tidy (by decide) rfl
  · rw [State.drain_flag _ (by decide), State.drain_flag _ (by decide), State.timSync_locked, hold,
      State.timSync_flag (by decide) (by decide) (by decide)]
  · have h1 : Frame [.tim] (regsIn [R.TIM_SERVO, R.TIM_STAT, R.TIM_UNC]) s (s.servoStored v) :=
      ((Frame.refl _ _ s).store _ _ (by decide)).put_tim (by simp) _
    exact (h1.timSync (by simp) (by decide) (by decide)).drain

theorem servoTimeout_does (ha : s.tim.servoAt.isSome = true) (hs : s.actSrc ≠ 0) (ht : s.get F.TIM_SERVO_TMO_TMO ≠ 0)
    (hh : s.flag F.TIM_CTRL_HOLD = false) :
    Does .servoTimeout s [.tim] (regsIn [R.TIM_STAT, R.TIM_CTRL, R.TIM_UNC]) fun t =>
      t.flag F.TIM_CTRL_HOLD = true ∧ t.flag F.TIM_STAT_HOLD_HW = true ∧
        t.tim.now = max s.tim.now (s.tim.servoFrom + ticksOfMs (s.get F.TIM_SERVO_TMO_TMO)) ∧ t.pends 9 := by
  set d := s.reach (s.tim.servoFrom + ticksOfMs (s.get F.TIM_SERVO_TMO_TMO)) with hd
  have he : exec .servoTimeout s = (d.enterHold true).done := by
    show execServoTimeout s = _
    simp [execServoTimeout, ha, hs, ht, hh, hd]
  have hold : d.flag F.TIM_CTRL_HOLD = false := (s.reach_flag _ (by decide)).trans hh
  obtain ⟨h1, h2⟩ := State.enterHold_rises (hw := true) hold
  refine ⟨_, he, ⟨?_, ?_, ?_, State.pends_drain (by decide) h2⟩, ?_⟩
  · rw [State.drain_flag _ (by decide), State.enterHold_hold]
  · rw [State.drain_flag _ (by decide), h1]
  · rw [State.drain_tim, State.enterHold_now, hd, State.reach_tim]
  · exact (((Frame.refl _ _ s).reach (by simp) _).enterHold (by simp) (by decide) (by decide) (by decide)).drain

/-! ### HOLD by a write (R66, R69) -/

/-- TIM_CTRL as written, HOLD as it was. -/
def State.ctrlStored (s : State) (v : Dword) : State := (s.store R.TIM_CTRL v).setB F.TIM_CTRL_HOLD (s.flag F.TIM_CTRL_HOLD)

theorem exec_holdWrite (hm : s.mayWrite a R.TIM_CTRL) : exec (.holdWrite a v) s =
    (if bit v.toNat 0 then (s.ctrlStored v).enterHold false else (s.ctrlStored v).leaveHold).done := by
  have hb : (fval F.TIM_CTRL_HOLD v == 1) = bit v.toNat 0 := rfl
  rw [← hb]
  exact congrArg State.done (State.gate_may hm _)

theorem State.ctrlStored_hold (s : State) (v : Dword) : (s.ctrlStored v).flag F.TIM_CTRL_HOLD = s.flag F.TIM_CTRL_HOLD :=
  State.flag_setB_self _ _ (by decide) rfl

theorem State.ctrlStored_refLost (s : State) (v : Dword) : (s.ctrlStored v).flag F.TIM_STAT_REF_LOST = s.flag F.TIM_STAT_REF_LOST :=
  (State.flag_setB_ne _ _ (by decide)).trans (congrArg (· != 0) (s.store_get_ne v (by decide)))

theorem Frame.ctrlStored {ps : List Part} {rs : Nat → Bool} (h : Frame ps rs s t) (hc : rs R.TIM_CTRL = true) (v : Dword) :
    Frame ps rs s (t.ctrlStored v) := (h.store _ _ (by simp [hc])).setB _ _ (by simp [hc])

theorem holdWrite_sets (hm : s.mayWrite a R.TIM_CTRL) (hv : bit v.toNat 0 = true) :
    Does (.holdWrite a v) s [.tim] (regsIn [R.TIM_STAT, R.TIM_CTRL, R.TIM_UNC]) fun t => t.flag F.TIM_CTRL_HOLD = true := by
  refine ⟨_, (exec_holdWrite hm).trans (by rw [if_pos hv]; rfl), ?_, ?_⟩
  · exact (State.drain_flag _ (by decide)).trans ((s.ctrlStored v).enterHold_hold false)
  · exact (((Frame.refl _ _ s).ctrlStored (by decide) v).enterHold (by simp) (by decide) (by decide) (by decide)).drain

theorem holdWrite_clears (hm : s.mayWrite a R.TIM_CTRL) (hv : bit v.toNat 0 = false) (hh : s.flag F.TIM_CTRL_HOLD = true)
    (hr : s.flag F.TIM_STAT_REF_LOST = false) :
    Does (.holdWrite a v) s [.tim] (regsIn [R.TIM_STAT, R.TIM_CTRL, R.TIM_UNC]) fun t =>
      t.flag F.TIM_CTRL_HOLD = false ∧ t.flag F.TIM_STAT_HOLD_HW = false ∧ t.flag F.TIM_STAT_EXPIRED = false ∧ t.pends 9 := by
  have hl := State.leaveHold_leaves ((s.ctrlStored_hold v).trans hh) ((s.ctrlStored_refLost v).trans hr)
  obtain ⟨h1, h2, h3, h4⟩ := (s.ctrlStored v).holdCleared_spec
  refine ⟨_, (exec_holdWrite hm).trans (by rw [hv, if_neg Bool.false_ne_true, hl]; rfl), ⟨?_, ?_, ?_, State.pends_drain (by decide) h4⟩, ?_⟩
  · rw [State.drain_flag _ (by decide), h1]
  · rw [State.drain_flag _ (by decide), h2]
  · rw [State.drain_flag _ (by decide), h3]
  · exact ((((Frame.refl _ _ s).ctrlStored (by decide) v).holdCleared (by decide) (by decide)).timSync (by simp) (by decide) (by decide)).drain

/-- A write of 0 is ignored while the reference is lost (R69). -/
theorem holdWrite_ignored (hm : s.mayWrite a R.TIM_CTRL) (hv : bit v.toNat 0 = false) (hh : s.flag F.TIM_CTRL_HOLD = true)
    (hr : s.flag F.TIM_STAT_REF_LOST = true) :
    Does (.holdWrite a v) s [] (regsIn [R.TIM_CTRL]) fun t => t.flag F.TIM_CTRL_HOLD = true := by
  have hl := State.leaveHold_stays ((s.ctrlStored_refLost v).trans hr)
  refine ⟨_, (exec_holdWrite hm).trans (by rw [hv, if_neg Bool.false_ne_true, hl]; rfl), ?_, ((Frame.refl _ _ s).ctrlStored (by decide) v).drain⟩
  exact (State.drain_flag _ (by decide)).trans ((s.ctrlStored_hold v).trans hh)

/-! ### A lost source (R58, R66) -/

theorem exec_timeSourceLost (good : Bool) (hs : s.actSrc ≠ 0) : exec (.timeSourceLost good) s =
    if good && decide (0 < s.get F.TIM_SRC_BAK) && decide (s.get F.TIM_SRC_BAK < 4) && s.get F.TIM_SRC_ACT != s.get F.TIM_SRC_BAK
      then (s.setAct (s.get F.TIM_SRC_BAK)).done else (s.enterHold false).done := by
  show execTimeSourceLost good s = _
  simp [execTimeSourceLost, hs]

theorem timeSourceLost_holds {good : Bool} (hs : s.actSrc ≠ 0)
    (hb : good = false ∨ s.get F.TIM_SRC_BAK = 0 ∨ 4 ≤ s.get F.TIM_SRC_BAK ∨ s.get F.TIM_SRC_ACT = s.get F.TIM_SRC_BAK) :
    Does (.timeSourceLost good) s [.tim] (regsIn [R.TIM_STAT, R.TIM_CTRL, R.TIM_UNC]) fun t => t.flag F.TIM_CTRL_HOLD = true := by
  refine ⟨_, (exec_timeSourceLost good hs).trans (if_neg ?_), ?_, ?_⟩
  · simp only [Bool.and_eq_true, decide_eq_true_eq, bne_iff_ne, ne_eq]
    rintro ⟨⟨⟨h1, h2⟩, h3⟩, h4⟩
    rcases hb with hb | hb | hb | hb
    · rw [hb] at h1; cases h1
    · omega
    · omega
    · exact h4 hb
  · exact (State.drain_flag _ (by decide)).trans (s.enterHold_hold false)
  · exact ((Frame.refl _ _ s).enterHold (by simp) (by decide) (by decide) (by decide)).drain

theorem timeSourceLost_switches (hs : s.actSrc ≠ 0) (h0 : 0 < s.get F.TIM_SRC_BAK) (h4 : s.get F.TIM_SRC_BAK < 4)
    (hn : s.get F.TIM_SRC_ACT ≠ s.get F.TIM_SRC_BAK) :
    Does (.timeSourceLost true) s [.tim] (regsIn [R.TIM_SRC]) fun t => t.get F.TIM_SRC_ACT = s.get F.TIM_SRC_BAK ∧
      t.tim = { s.tim with ppsHigh := t.tim.ppsHigh } := by
  set b := (s.set F.TIM_SRC_ACT (s.get F.TIM_SRC_BAK)).ev0 Ev.TIM_SRC_CHANGE with hb
  have ha : s.setAct (s.get F.TIM_SRC_BAK) = b.ppsCut := by simp [State.setAct, hn, hs, hb]
  have he : exec (.timeSourceLost true) s = b.ppsCut.done := by
    rw [exec_timeSourceLost true hs, if_pos (by simp [h0, h4, hn]), ha]
  obtain ⟨p, hp⟩ := b.ppsCut_tim
  refine ⟨_, he, ⟨?_, ?_⟩, ?_⟩
  · rw [State.drain_get _ (by decide), State.ppsCut_get, hb, State.ev0_get _ _ (by decide), State.get_set_self _ _ (by decide)]
    exact Nat.mod_eq_of_lt (Nat.lt_trans h4 (by decide))
  · rw [State.drain_tim, hp, hb, State.ev0_tim, State.set, State.wr_tim]
  · exact ((((Frame.refl _ _ s).set _ _ (by decide)).ev0 _).ppsCut (by simp)).drain

/-! ### U in holdover (R67) -/

/-- The next millisecond of the holdover has come, and U is reckoned at the last full one: what the command does before the registers
follow. -/
def State.uncStep (s : State) : State :=
  let s := s.reach (s.tim.uncAt + ticksOfMs 1)
  { s with tim := { s.tim with uncAt := s.tim.holdAt + (s.tim.now - s.tim.holdAt) / ticksOfMs 1 * ticksOfMs 1 } }

theorem exec_holdoverUncUpdate (hh : s.flag F.TIM_CTRL_HOLD = true) : exec .holdoverUncUpdate s = s.uncStep.timSync.done := if_pos hh

/-- The first millisecond of a holdover. -/
theorem State.uncStep_first (hu : s.tim.uncAt = s.tim.holdAt) (hn : s.tim.now < s.tim.holdAt + ticksOfMs 1) :
    s.uncStep.tim.now = s.tim.holdAt + ticksOfMs 1 ∧ s.uncStep.tim.uncAt = s.tim.holdAt + ticksOfMs 1 := by
  have hr : (s.reach (s.tim.uncAt + ticksOfMs 1)).tim = { s.tim with now := s.tim.holdAt + ticksOfMs 1 } := by
    rw [State.reach_tim, hu, max_eq_right (Nat.le_of_lt hn)]
  have hk : (s.tim.holdAt + ticksOfMs 1 - s.tim.holdAt) / ticksOfMs 1 * ticksOfMs 1 = ticksOfMs 1 := by
    rw [Nat.add_sub_cancel_left, Nat.div_self (by decide), Nat.one_mul]
  simp only [State.uncStep, hr, hk, and_self]

theorem State.uncStep_frame (s : State) : Frame [.tim] (regsIn [R.TIM_STAT, R.TIM_UNC]) s s.uncStep :=
  ((Frame.refl _ _ s).reach (by simp) _).put_tim (by simp) _

theorem holdoverUncUpdate_does (hh : s.flag F.TIM_CTRL_HOLD = true) (hu : s.tim.uncAt = s.tim.holdAt)
    (hn : s.tim.now < s.tim.holdAt + ticksOfMs 1) :
    Does .holdoverUncUpdate s [.tim] (regsIn [R.TIM_STAT, R.TIM_UNC]) fun t =>
      t.tim.now = s.tim.holdAt + ticksOfMs 1 ∧ t.tim.uncAt = s.tim.holdAt + ticksOfMs 1 ∧ t.get F.TIM_UNC_U = t.uncNow := by
  obtain ⟨h1, h2⟩ := State.uncStep_first hu hn
  refine ⟨_, exec_holdoverUncUpdate hh, ⟨?_, ?_, ?_⟩, (s.uncStep_frame.timSync (by simp) (by decide) (by decide)).drain⟩
  · rw [State.drain_tim, State.timSync_tim_of Tim.now fun _ _ _ => rfl, h1]
  · rw [State.drain_tim, State.timSync_tim_of Tim.uncAt fun _ _ _ => rfl, h2]
  · rw [State.drain_get _ (by decide), State.timSync_unc]
    refine (State.uncNow_congr ?_ ?_ fun g hg => ?_).symm
    · rw [State.drain_tim, State.timSync_tim_of Tim.servoAt fun _ _ _ => rfl]
    · rw [State.drain_tim, State.timSync_tim_of Tim.uncAt fun _ _ _ => rfl]
    · simp only [List.mem_cons, List.not_mem_nil, or_false] at hg
      rcases hg with rfl | rfl | rfl <;>
        rw [State.drain_get _ (by decide), State.timSync_get (by decide) (by decide) (by decide)]

end Sys2Proof.Machine
end

section
open Sys2Proof Sys2Proof.Machine

/-- Settles O1: a clause per theorem above. -/
theorem holdoverFollowsTheReferenceHoldAndTheServo : Obligations.HoldoverFollowsTheReferenceHoldAndTheServo := by
  refine ⟨fun s hl hr => evTimRefLost_does hl hr, fun s hr => evTimRefRestored_does hr, fun s a v hm => timServoWrite_does hm,
    fun s ha hs ht hh => servoTimeout_does ha hs ht hh, fun s a v hm => ⟨holdWrite_sets hm, holdWrite_clears hm, holdWrite_ignored hm⟩,
    fun s good hs => ⟨timeSourceLost_holds hs, fun hg => hg ▸ timeSourceLost_switches hs⟩,
    fun s hh _ hu hn => holdoverUncUpdate_does hh hu hn⟩

end

section
namespace Sys2Proof.Machine

variable {s t u : State} {ps : List Part} {rs : Nat → Bool} {n : Nat} {a : Agent} {r : Fn} {b : List Byte}

/-! ### Wide values (R17, R405) -/

theorem State.get64_put64 {lo hi x : Nat} (h : lo ≠ hi) (hx : x < 2 ^ 64) : (s.put64 lo hi x).get64 lo hi = x := by
  rw [State.get64, State.put64, State.rd_wr_ne _ _ h, State.rd_wr_self, State.rd_wr_self, BitVec.toNat_ofNat, BitVec.toNat_ofNat]
  omega

theorem State.pair_lt (s : State) (a : Agent) (base : Nat) (v : Dword) : s.pair a base v < 2 ^ 64 := by
  have h1 := (s.heldDword a base base (s.rd base)).isLt
  have h2 := v.isLt
  unfold State.pair
  omega

theorem Frame.dropHeld (h : Frame ps rs s t) (hp : Part.held ∈ ps) (a : Agent) (base : Nat) : Frame ps rs s (t.dropHeld a base) :=
  h.put_held hp _

/-- The agent holds nothing of a value that it has written whole. -/
theorem State.dropHeld_heldOf (s : State) (a : Agent) (base : Nat) : (s.dropHeld a base).heldOf a base = none := by
  refine List.find?_eq_none.mpr fun h hm => ?_
  have hk := (List.mem_filter.mp hm).2
  simpa [← not_and_or] using hk

theorem State.heldOf_congr (h : t.held = s.held) (a : Agent) (base : Nat) : t.heldOf a base = s.heldOf a base := by
  rw [State.heldOf, h, State.heldOf]

/-! ### The next tick (R49, R50) -/

theorem State.nextTick_tim (s : State) : s.nextTick.tim = { s.tim with now := s.tim.now + 1 } := by
  rw [State.nextTick, State.reach_tim, State.now, max_eq_right (Nat.le_succ _)]

theorem State.keepAnchor_tim (s : State) : ∃ l, s.keepAnchor.tim = { s.tim with past := l } := by
  unfold State.keepAnchor
  split
  · exact ⟨s.tim.past, rfl⟩
  · exact ⟨_, rfl⟩

theorem Frame.nextTick (h : Frame ps rs s t) (hp : Part.tim ∈ ps) : Frame ps rs s t.nextTick := h.reach hp _

theorem Frame.keepAnchor (h : Frame ps rs s t) (hp : Part.tim ∈ ps) : Frame ps rs s t.keepAnchor := by
  unfold State.keepAnchor
  split
  · exact h
  · exact h.put_tim hp _

/-! ### Steps (R50 to R52) -/

/-- Local time with a step added: the anchor moves by it. -/
def stepAnchor (x : Nat) (p : Nat × Nat) : Nat × Nat := (wrapInt 128 ((p.1 : Int) + sext 64 x * 2 ^ 24), p.2)

/-- The registers in which a held step stands. -/
def stepRegs : List Nat := [R.TIM_STAT, R.TIM_STEPREQ_LO, R.TIM_STEPREQ_HI]

/-- The tick has come, and local time is stepped. -/
def State.stepTaken (s : State) (x : Nat) : State :=
  let s := s.nextTick.keepAnchor
  { s with tim := { s.tim with anchor := s.tim.anchor.map (stepAnchor x) } }

theorem State.applyStep_eq (s : State) (x : Nat) :
    s.applyStep x = ((s.stepTaken x).setB F.TIM_STAT_STEP_HELD false).put64 R.TIM_STEPREQ_LO R.TIM_STEPREQ_HI 0 := rfl

theorem State.stepTaken_tim (s : State) (x : Nat) : ∃ l, (s.stepTaken x).tim =
    { s.tim with now := s.tim.now + 1, past := l, anchor := s.tim.anchor.map (stepAnchor x) } := by
  obtain ⟨l, hl⟩ := s.nextTick.keepAnchor_tim
  refine ⟨l, ?_⟩
  simp only [State.stepTaken, hl, s.nextTick_tim]

/-- An applied step: one tick on, the anchor moved, none held any more. -/
theorem State.applyStep_spec (s : State) (x : Nat) :
    (s.applyStep x).tim.now = s.tim.now + 1 ∧ (s.applyStep x).tim.anchor = s.tim.anchor.map (stepAnchor x) ∧
      (s.applyStep x).flag F.TIM_STAT_STEP_HELD = false ∧ (s.applyStep x).get64 R.TIM_STEPREQ_LO R.TIM_STEPREQ_HI = 0 := by
  obtain ⟨l, hl⟩ := s.stepTaken_tim x
  have ht : (s.applyStep x).tim = (s.stepTaken x).tim := rfl
  refine ⟨by rw [ht, hl], by rw [ht, hl], ?_, State.get64_put64 (by decide) (by decide)⟩
  have hne (y : State) : (y.put64 R.TIM_STEPREQ_LO R.TIM_STEPREQ_HI 0).flag F.TIM_STAT_STEP_HELD = y.flag F.TIM_STAT_STEP_HELD := by
    rw [State.put64, State.flag, State.get, State.rd_wr_ne _ _ (by decide), State.rd_wr_ne _ _ (by decide), State.flag, State.get]
  rw [s.applyStep_eq, hne]
  exact State.flag_setB_self _ _ (by decide) rfl

theorem Frame.applyStep (h : Frame ps rs s t) (hp : Part.tim ∈ ps) (hr : ∀ x ∈ stepRegs, rs x = true) (x : Nat) :
    Frame ps rs s (t.applyStep x) := by
  have h1 : Frame ps rs s (t.stepTaken x) := ((h.nextTick hp).keepAnchor hp).put_tim hp _
  have stat : (rs R.TIM_STAT || logReg R.TIM_STAT) = true := by simp [hr R.TIM_STAT (by decide)]
  have lo : (rs R.TIM_STEPREQ_LO || logReg R.TIM_STEPREQ_LO) = true := by simp [hr R.TIM_STEPREQ_LO (by decide)]
  have hi : (rs R.TIM_STEPREQ_HI || logReg R.TIM_STEPREQ_HI) = true := by simp [hr R.TIM_STEPREQ_HI (by decide)]
  exact (h1.setB F.TIM_STAT_STEP_HELD _ stat).put64 _ _ _ lo hi

theorem State.get64_congr {lo hi : Nat} (hl : t.rd lo = s.rd lo) (hh : t.rd hi = s.rd hi) : t.get64 lo hi = s.get64 lo hi := by
  rw [State.get64, hl, hh, State.get64]

theorem State.drain_get64 (s : State) {lo hi : Nat} (hl : logReg lo = false) (hh : logReg hi = false) : s.drain.get64 lo hi = s.get64 lo hi :=
  State.get64_congr (s.drain_rd hl) (s.drain_rd hh)

theorem timStepRequest_applies {v : Dword} (hm : s.mayWrite a R.TIM_STEP_HI)
    (hx : (sext 64 (s.pair a R.TIM_STEP_LO v)).natAbs ≤ s.get F.TIM_STEPLIM_LIMIT * 65536) :
    Does (.timStepRequest a v) s [.tim, .held] (regsIn stepRegs) fun t =>
      t.tim.now = s.tim.now + 1 ∧ t.tim.anchor = s.tim.anchor.map (stepAnchor (s.pair a R.TIM_STEP_LO v)) ∧
        t.flag F.TIM_STAT_STEP_HELD = false ∧ t.get64 R.TIM_STEPREQ_LO R.TIM_STEPREQ_HI = 0 ∧ t.pends 8 := by
  set x := s.pair a R.TIM_STEP_LO v
  set d := s.dropHeld a R.TIM_STEP_LO with hd
  have he : exec (.timStepRequest a v) s = ((d.applyStep x).ev Ev.TIM_STEPPED 0 [(64, x)]).done :=
    (congrArg State.done (State.gate_may hm _)).trans (congrArg State.done (if_pos hx))
  obtain ⟨h1, h2, h3, h4⟩ := d.applyStep_spec x
  have hreg : ∀ y ∈ stepRegs, regsIn stepRegs y = true := fun y hy => List.elem_eq_true_of_mem hy
  refine ⟨_, he, ⟨?_, ?_, ?_, ?_, State.pends_drain (by decide) (State.ev_pend _ _ _ (by decide))⟩, ?_⟩
  · rw [State.drain_tim, State.ev_tim, h1]; rfl
  · rw [State.drain_tim, State.ev_tim, h2]; rfl
  · rw [State.drain_flag _ (by decide), State.flag, State.ev_get _ _ _ _ (by decide)]
    exact h3
  · rw [State.drain_get64 _ (by decide) (by decide)]
    exact (State.get64_congr (State.ev_rd _ _ _ _ (by decide)) (State.ev_rd _ _ _ _ (by decide))).trans h4
  · exact ((((Frame.refl _ _ s).dropHeld (by simp) _ _).applyStep (by simp) hreg x).ev _ _ _).drain

theorem timStepRequest_holds {v : Dword} (hm : s.mayWrite a R.TIM_STEP_HI)
    (hx : s.get F.TIM_STEPLIM_LIMIT * 65536 < (sext 64 (s.pair a R.TIM_STEP_LO v)).natAbs) :
    Does (.timStepRequest a v) s [.held] (regsIn stepRegs) fun t =>
      t.get64 R.TIM_STEPREQ_LO R.TIM_STEPREQ_HI = s.pair a R.TIM_STEP_LO v ∧ t.flag F.TIM_STAT_STEP_HELD = true ∧ t.pends 8 := by
  have hlt := s.pair_lt a R.TIM_STEP_LO v
  set x := s.pair a R.TIM_STEP_LO v
  set d := s.dropHeld a R.TIM_STEP_LO with hd
  set w := (d.put64 R.TIM_STEPREQ_LO R.TIM_STEPREQ_HI x).setB F.TIM_STAT_STEP_HELD true with hw
  have he : exec (.timStepRequest a v) s = (w.ev0 Ev.TIM_STEP_REFUSED).done :=
    (congrArg State.done (State.gate_may hm _)).trans (congrArg State.done (if_neg (Nat.not_le.mpr hx)))
  refine ⟨_, he, ⟨?_, ?_, State.pends_drain (by decide) (State.ev0_pends _ (by decide))⟩, ?_⟩
  · rw [State.drain_get64 _ (by decide) (by decide)]
    have h1 : (w.ev0 Ev.TIM_STEP_REFUSED).get64 R.TIM_STEPREQ_LO R.TIM_STEPREQ_HI = w.get64 R.TIM_STEPREQ_LO R.TIM_STEPREQ_HI :=
      State.get64_congr (State.ev0_rd _ _ (by decide)) (State.ev0_rd _ _ (by decide))
    have h2 : w.get64 R.TIM_STEPREQ_LO R.TIM_STEPREQ_HI = (d.put64 R.TIM_STEPREQ_LO R.TIM_STEPREQ_HI x).get64 R.TIM_STEPREQ_LO R.TIM_STEPREQ_HI :=
      State.get64_congr (State.rd_set_ne _ _ (by decide)) (State.rd_set_ne _ _ (by decide))
    rw [h1, h2, State.get64_put64 (by decide) hlt]
  · rw [State.drain_flag _ (by decide), State.ev0_flag _ _ (by decide)]
    exact State.flag_setB_self _ _ (by decide) rfl
  · exact ((((Frame.refl _ _ s).dropHeld (by simp) _ _).put64 _ _ _ (by decide) (by decide)).setB _ _ (by decide)).ev0 _ |>.drain

/-! ### TIME_STEP_FORCE (R51) -/

/-- A pending source stays pending while a command is answered. -/
theorem State.reply_pends (hn : t.NoneLate) (hk : n < 128) (k : t.pends n) (st steps : Nat) (res : List Byte) :
    (t.reply r b st steps res).pends n := by
  have hset (y : State) (x : Nat) (hy : y.pends n) : (y.set (ringFld r F.RPL_PROD_PROD) x).pends n := by
    refine (State.flag_set_ne y x ?_).trans hy
    show R.IRQ_PEND + 4 * (n / 32) ≠ ringReg r R.RPL_PROD
    cases r
    · show 0x100010 + 4 * (n / 32) ≠ 0xF002C; omega
    · show 0x100010 + 4 * (n / 32) ≠ 0xF002C + pf1Own
      unfold pf1Own
      omega
  have hput : (t.replyPut r b st steps res).pends n := by
    unfold State.replyPut
    have h1 := hset (t.dma r (t.replyAddr r) (t.replyBytes r b st steps res)) (t.get (ringFld r F.RPL_PROD_PROD) + 1)
      (State.pends_of_regs (t.dma_regs _ _ _) k)
    dsimp only
    split
    · exact h1
    · exact State.pends_of_regs (State.dma_regs _ _ _ _) h1
  cases hb : (t.pfn r).bme
  · rw [State.reply_wait hb]
    exact State.pends_of_regs rfl k
  · rw [State.reply_bme hb hn]
    unfold State.replyNow
    dsimp only
    split
    · cases r
      · exact (Logs.refl.raise (al := true) (by decide)).pendKeep hk hput
      · exact ((Logs.refl (al := true)).raise81).pendKeep hk hput
    · exact hput

/-- The step that TIME_STEP_FORCE applies: the held one in MODE 0, the packet's in MODE 1. -/
def State.forcedStep (s : State) (b : List Byte) : Nat :=
  if le b 8 1 == 0 then s.get64 R.TIM_STEPREQ_LO R.TIM_STEPREQ_HI else le b 16 8

theorem timeStepForce_applies (h : Starts s r 0x60 24 false b) (hz : zeroAt b 9 7 = true)
    (hm : le b 8 1 = 0 ∧ s.flag F.TIM_STAT_STEP_HELD = true ∨ le b 8 1 = 1 ∧ le b 16 8 ≠ 0) :
    Answers (.timeStepForce r) s r b St.ok (toLe 8 (s.forcedStep b)) [.tim] stepRegs fun t =>
      t.tim.now = s.tim.now + 1 ∧ t.tim.anchor = s.tim.anchor.map (stepAnchor (s.forcedStep b)) ∧
        t.flag F.TIM_STAT_STEP_HELD = false ∧ t.get64 R.TIM_STEPREQ_LO R.TIM_STEPREQ_HI = 0 ∧ t.pends 8 := by
  set x := s.forcedStep b with hx
  set d := s.popHead r with hd
  set u := (d.applyStep x).ev0 Ev.TIM_STEP_FORCED with hu
  have hbody : timeStepForceBody b d = ⟨St.ok, toLe 8 x, u⟩ := by
    rw [timeStepForceBody, checked_pass]
    · rw [hu, hx, hd]
      simp only [State.popHead_get64]
      rfl
    · rcases hm with ⟨h0, h1⟩ | ⟨h0, h1⟩ <;> simp [firstFail, h0, hz, h1, hd]
  have hreg : ∀ y ∈ stepRegs, regsIn stepRegs y = true := fun y hy => List.elem_eq_true_of_mem hy
  have hf : Frame [.cmd, .tim] (regsIn stepRegs) s u :=
    (((Frame.refl _ _ s).popHead (by simp)).applyStep (by simp) hreg x).ev0 _
  have hf' : Frame [.tim] (regsIn stepRegs) d u := ((Frame.refl _ _ d).applyStep (by simp) hreg x).ev0 _
  have hc : u.cmd = d.cmd := hf'.parts .cmd (by simp)
  have ho : u.out = d.out := hf'.parts .out (by simp)
  have hn : u.NoneLate := h.late.frame hf (by simp) (by rw [hc, hd, State.popHead_late])
  obtain ⟨h1, h2, h3, h4⟩ := d.applyStep_spec x
  have htim : (u.reply r b St.ok 0 (toLe 8 x)).drain.tim = (d.applyStep x).tim := by
    have hr : (u.reply r b St.ok 0 (toLe 8 x)).tim = u.tim :=
      ((Frame.refl [.cmd, .out] (regsIn [ringReg r R.RPL_PROD]) u).reply (by simp) (by simp) (by simp [regsIn]) hn _ _ _).parts .tim (by simp)
    rw [State.drain_tim, hr, hu, State.ev0_tim]
  have hrd (y : Nat) (hy : y ∈ stepRegs) : (u.reply r b St.ok 0 (toLe 8 x)).drain.rd y = (d.applyStep x).rd y := by
    have hq : y ≠ ringReg r R.RPL_PROD ∧ logReg y = false := by
      simp only [stepRegs, List.mem_cons, List.not_mem_nil, or_false] at hy
      rcases hy with rfl | rfl | rfl <;> cases r <;> decide
    rw [State.drain_rd _ hq.2, State.reply_rd hn _ _ _ hq.1 hq.2, hu, State.ev0_rd _ _ hq.2]
  refine Answers.of (mine := fun _ => true) h rfl rfl hbody hf hc ?_ (by simp) ?_ ⟨?_, ?_, ?_, ?_, ?_⟩
  · cases r <;> decide
  · rw [ho, hd, State.popHead_out]
  · rw [htim, h1, hd, State.popHead_tim]
  · rw [htim, h2, hd, State.popHead_tim]
  · rw [State.flag, State.get, hrd _ (by decide)]
    exact h3
  · exact (State.get64_congr (hrd _ (by decide)) (hrd _ (by decide))).trans h4
  · exact State.pends_drain (by decide) (State.reply_pends hn (by decide) (State.ev0_pends _ (by decide)) _ _ _)

theorem timeStepForce_none (h : Starts s r 0x60 24 false b) (hz : zeroAt b 9 7 = true) (h0 : le b 8 1 = 0)
    (hs : s.flag F.TIM_STAT_STEP_HELD = false) : Answers (.timeStepForce r) s r b St.state [] [] [] fun _ => True := by
  refine h.answers (mine := fun _ => true) (body := timeStepForceBody) rfl rfl (checked_fail ?_)
  simp [firstFail, h0, hz, hs]

end Sys2Proof.Machine
end

section
open Sys2Proof Sys2Proof.Machine

/-- Settles O2: an applied step by `State.applyStep_spec`, a refused one by what is stored in TIM_STEPREQ. -/
theorem stepsTakeEffectAtTheNextTick : Obligations.StepsTakeEffectAtTheNextTick := by
  refine ⟨fun s a v hm => ⟨timStepRequest_applies hm, timStepRequest_holds hm⟩,
    fun s r b h hz => ⟨fun x hx => ?_, timeStepForce_none h hz⟩⟩
  rcases hx with ⟨h0, hs, hx⟩ | ⟨h1, hs, hx⟩
  · have e : s.forcedStep b = x := by simp [State.forcedStep, h0, hx]
    exact e ▸ timeStepForce_applies h hz (.inl ⟨h0, hs⟩)
  · have e : s.forcedStep b = x := by simp [State.forcedStep, h1, hx]
    exact e ▸ timeStepForce_applies h hz (.inr ⟨h1, hs⟩)

end

section
namespace Sys2Proof.Machine

variable {s t u : State} {a : Agent} {v : Dword}

/-! ### TIM_INCR (R48, R49) -/

/-- What local time at a count depends on. -/
theorem State.t40At_congr (hp : t.tim.past = s.tim.past) (ha : t.tim.anchor = s.tim.anchor) (hi : t.incr = s.incr) (n : Nat) :
    t.t40At n = s.t40At n := by
  unfold State.t40At
  rw [hp, ha, hi]

theorem State.reach_incr (s : State) (n : Nat) : (s.reach n).incr = s.incr :=
  State.get64_congr ((s.reach_frame n).regs _ rfl (by decide)) ((s.reach_frame n).regs _ rfl (by decide))

/-- Local time, re-anchored at the next tick. -/
def State.anchorNext (s : State) : Option (Nat × Nat) := s.tim.anchor.map fun _ => (s.t40At (s.tim.now + 1), s.tim.now + 1)

/-- The tick has come, and local time is re-anchored there. -/
def State.reanchored (s : State) : State :=
  let s := s.nextTick
  let a := s.tim.anchor.map fun _ => (s.t40, s.now)
  let s := s.keepAnchor
  { s with tim := { s.tim with anchor := a } }

theorem State.setIncr_eq (s : State) (x : Nat) : s.setIncr x = s.reanchored.put64 R.TIM_INCR_LO R.TIM_INCR_HI x := rfl

theorem State.nextTick_t40 (s : State) : s.nextTick.t40 = s.t40At (s.tim.now + 1) := by
  have ht := s.nextTick_tim
  have hn : s.nextTick.now = s.tim.now + 1 := congrArg Tim.now ht
  rw [State.t40, hn]
  have hp : s.nextTick.tim.past = s.tim.past := by rw [ht]
  have ha : s.nextTick.tim.anchor = s.tim.anchor := by rw [ht]
  exact State.t40At_congr hp ha (s.reach_incr _) _

theorem State.reanchored_tim (s : State) : ∃ l, s.reanchored.tim = { s.tim with now := s.tim.now + 1, past := l, anchor := s.anchorNext } := by
  obtain ⟨l, hl⟩ := s.nextTick.keepAnchor_tim
  refine ⟨l, ?_⟩
  simp only [State.reanchored, hl, State.nextTick_t40, State.now, s.nextTick_tim, State.anchorNext]

theorem timIncrWrite_accepts (hm : s.mayWrite a R.TIM_INCR_HI) {x : Nat}
    (hx : x = s.pair a R.TIM_INCR_LO (BitVec.ofNat 32 (bits v.toNat 11 0))) (h1 : 2235843652266 ≤ x) (h2 : x ≤ 2238080614400) :
    Does (.timIncrWrite a v) s [.tim, .held] (regsIn [R.TIM_INCR_LO, R.TIM_INCR_HI]) fun t =>
      t.incr = x ∧ t.tim.now = s.tim.now + 1 ∧ t.tim.anchor = s.anchorNext ∧ t.heldOf a R.TIM_INCR_LO = none := by
  set d := s.dropHeld a R.TIM_INCR_LO with hd
  have hok : incrOk x = true := by
    rw [incrOk, Bool.and_eq_true, decide_eq_true_eq, decide_eq_true_eq]
    exact ⟨h1, h2⟩
  have he : exec (.timIncrWrite a v) s = (d.setIncr x).done :=
    (congrArg State.done (State.gate_may hm _)).trans (congrArg State.done (by rw [State.timIncr, ← hx]; exact if_pos hok))
  have hf : Frame [.tim] (regsIn [R.TIM_INCR_LO, R.TIM_INCR_HI]) d (d.setIncr x) := by
    rw [d.setIncr_eq]
    exact ((((Frame.refl _ _ d).nextTick (by simp)).keepAnchor (by simp)).put_tim (by simp) _).put64 _ _ _ (by decide) (by decide)
  obtain ⟨l, hl⟩ := d.reanchored_tim
  have ht : (d.setIncr x).tim = d.reanchored.tim := rfl
  have hheld : (d.setIncr x).held = d.held := hf.parts .held (by simp)
  refine ⟨_, he, ⟨?_, ?_, ?_, ?_⟩, (Frame.trans ((Frame.refl _ _ s).dropHeld (by simp) _ _) (hf.mono (by simp) fun _ h => h)).drain⟩
  · refine (State.drain_get64 _ (by decide) (by decide)).trans ?_
    rw [d.setIncr_eq, State.get64_put64 (by decide) (hx ▸ s.pair_lt _ _ _)]
  · rw [State.drain_tim, ht, hl]; rfl
  · rw [State.drain_tim, ht, hl]; rfl
  · rw [State.heldOf_congr ((State.drain_held _).trans hheld), hd, State.dropHeld_heldOf]

theorem timIncrWrite_refuses (hm : s.mayWrite a R.TIM_INCR_HI) {x : Nat}
    (hx : x = s.pair a R.TIM_INCR_LO (BitVec.ofNat 32 (bits v.toNat 11 0))) (h : x < 2235843652266 ∨ 2238080614400 < x) :
    Leads (.timIncrWrite a v) s [.held] noRegs fun u =>
      u.incr = s.incr ∧ u.evr.backlog = s.evr.backlog ++ [⟨Ev.TIM_INCR_RANGE, 0, []⟩] ∧ u.heldOf a R.TIM_INCR_LO = none := by
  set d := s.dropHeld a R.TIM_INCR_LO with hd
  have hok : ¬ incrOk x = true := by
    rw [incrOk, Bool.and_eq_true, decide_eq_true_eq, decide_eq_true_eq]
    omega
  have he : exec (.timIncrWrite a v) s = (d.ev0 Ev.TIM_INCR_RANGE).done :=
    (congrArg State.done (State.gate_may hm _)).trans (congrArg State.done (by rw [State.timIncr, ← hx]; exact if_neg hok))
  refine ⟨_, he, ⟨?_, State.ev0_backlog _ _, ?_⟩, ((Frame.refl _ _ s).dropHeld (by simp) _ _).ev0 _⟩
  · exact State.get64_congr (State.ev0_rd _ _ (by decide)) (State.ev0_rd _ _ (by decide))
  · rw [State.heldOf_congr (State.ev0_held _ _), hd, State.dropHeld_heldOf]

end Sys2Proof.Machine
end

section
open Sys2Proof Sys2Proof.Machine

/-- Settles O4: the increment after reset by evaluation, a write by the range check of R48. -/
theorem theIncrementIsAcceptedOnlyInItsRange : Obligations.TheIncrementIsAcceptedOnlyInItsRange :=
  ⟨by decide +kernel, fun _ _ _ hm => ⟨timIncrWrite_accepts hm rfl, timIncrWrite_refuses hm rfl⟩⟩

end

section
namespace Sys2Proof.Machine

variable {s t : State} {a : Agent} {p : Fin 5} {e : TsqEntry} {l : List TsqEntry}

/-! ### Timestamp queues (R64, R65) -/

/-- Seconds of an entry's stamp. -/
def TsqEntry.sec (e : TsqEntry) : Nat := e.time / 2 ^ 40 / 1000000000

/-- The dwords E0 to E3 of an entry (R65). -/
def TsqEntry.e0 (e : TsqEntry) : Nat := e.time / 2 ^ 40 % 1000000000
def TsqEntry.e1 (e : TsqEntry) : Nat := e.sec
def TsqEntry.e2 (e : TsqEntry) : Nat := e.time / 2 ^ 24 % 65536 * 65536 + e.sec / 2 ^ 32 % 65536
def TsqEntry.e3 (e : TsqEntry) : Nat :=
  2 ^ 31 + b2n e.tx * 2 ^ 30 + e.msgType % 16 * 2 ^ 24 + e.domain % 256 * 2 ^ 16 + e.seqId % 65536

/-- A dword of the head of a queue, zero where there is none. -/
def headDword (q : List TsqEntry) (f : TsqEntry → Nat) : Dword := BitVec.ofNat 32 ((q.head?.map f).getD 0)

/-- Latches with E1 to E3 of the head of port p's queue q for a reader. -/
def tsqLatch (m : List (Nat × Dword)) (a : Agent) (p : Nat) (q : List TsqEntry) : List (Nat × Dword) :=
  mput (mput (mput m (latchKey a (R.TIM_TSQ_E1_P + 0x40 * p)) (headDword q TsqEntry.e1)) (latchKey a (R.TIM_TSQ_E2_P + 0x40 * p))
    (headDword q TsqEntry.e2)) (latchKey a (R.TIM_TSQ_E3_P + 0x40 * p)) (headDword q TsqEntry.e3)

/-- The reader's latches take them. -/
def State.tsqLatched (s : State) (a : Agent) (p : Nat) : State := { s with latch := tsqLatch s.latch a p (s.tsq p) }

/-- Port p's queue becomes q, and COUNT follows. -/
def State.setTsq (s : State) (p : Nat) (q : List TsqEntry) : State :=
  ({ s with tim := { s.tim with tsq := mput s.tim.tsq p q } } : State).set (F.TIM_TSQ_STAT_P_COUNT.at (0x40 * p)) q.length

theorem State.tsq_congr (h : t.tim = s.tim) (j : Nat) : t.tsq j = s.tsq j := by rw [State.tsq, h, State.tsq]

theorem State.setTsq_tsq (s : State) (p : Nat) (q : List TsqEntry) : (s.setTsq p q).tsq p = q := mgetD_mput_self _ _ _ _

theorem State.setTsq_other (s : State) {p j : Nat} (q : List TsqEntry) (h : j ≠ p) : (s.setTsq p q).tsq j = s.tsq j :=
  mgetD_mput_ne _ _ _ h

theorem State.setTsq_count (s : State) (p : Nat) (q : List TsqEntry) :
    (s.setTsq p q).get (F.TIM_TSQ_STAT_P_COUNT.at (0x40 * p)) = q.length % 128 :=
  State.get_set_self _ _ ⟨Nat.zero_le 6, (by decide : 6 < 32)⟩

theorem logReg_tsqStat : ∀ p : Fin 5, logReg (R.TIM_TSQ_STAT_P + 0x40 * p) = false := by decide

theorem Frame.setTsq {ps : List Part} {rs : Nat → Bool} (h : Frame ps rs s t) (hp : Part.tim ∈ ps) {j : Nat} (q : List TsqEntry)
    (hr : rs (R.TIM_TSQ_STAT_P + 0x40 * j) = true) : Frame ps rs s (t.setTsq j q) :=
  (h.put_tim hp _).set _ _ (by show (rs (R.TIM_TSQ_STAT_P + 0x40 * j) || _) = true; simp [hr])

/-- What a read of E0 does, by the reader. -/
theorem exec_tsqEntryRead (s : State) (a : Agent) (p : Fin 5) : exec (.tsqEntryRead a p) s =
    (if a = .pf1 then s.emit (.answer a (zeros 4) false)
    else (if a = .c0 || a = .c1 then (s.tsqLatched a p).setTsq p (s.tsq p).tail else s.tsqLatched a p).emit
      (.answer a (toLe 4 (headDword (s.tsq p) TsqEntry.e0).toNat) false)).done := rfl

theorem exec_tsqEntryRead_core (ha : a = .c0 ∨ a = .c1) : exec (.tsqEntryRead a p) s =
    (((s.tsqLatched a p).setTsq p (s.tsq p).tail).emit (.answer a (toLe 4 (headDword (s.tsq p) TsqEntry.e0).toNat) false)).done := by
  rw [exec_tsqEntryRead]
  rcases ha with rfl | rfl <;> rfl

theorem exec_tsqEntryRead_pf0 : exec (.tsqEntryRead .pf0 p) s =
    ((s.tsqLatched .pf0 p).emit (.answer .pf0 (toLe 4 (headDword (s.tsq p) TsqEntry.e0).toNat) false)).done := by
  rw [exec_tsqEntryRead]
  rfl

/-- The key of the reader's latch of dword n of port p's entry. -/
def tsqKey (a : Agent) (p n : Nat) : Nat := latchKey a (R.TIM_TSQ_E0_P + 0x40 * p + 4 * n)

/-- Latched are E1 to E3 of the head, and no other latch changes. -/
theorem State.tsqLatched_latch (s : State) (a : Agent) (p : Nat) :
    mget (s.tsqLatched a p).latch (tsqKey a p 1) = some (headDword (s.tsq p) TsqEntry.e1) ∧
    mget (s.tsqLatched a p).latch (tsqKey a p 2) = some (headDword (s.tsq p) TsqEntry.e2) ∧
    mget (s.tsqLatched a p).latch (tsqKey a p 3) = some (headDword (s.tsq p) TsqEntry.e3) ∧
    ∀ k, k ≠ tsqKey a p 1 → k ≠ tsqKey a p 2 → k ≠ tsqKey a p 3 → mget (s.tsqLatched a p).latch k = mget s.latch k := by
  have k1 : latchKey a (R.TIM_TSQ_E1_P + 0x40 * p) = tsqKey a p 1 := by
    unfold tsqKey latchKey R.TIM_TSQ_E0_P R.TIM_TSQ_E1_P; omega
  have k2 : latchKey a (R.TIM_TSQ_E2_P + 0x40 * p) = tsqKey a p 2 := by
    unfold tsqKey latchKey R.TIM_TSQ_E0_P R.TIM_TSQ_E2_P; omega
  have k3 : latchKey a (R.TIM_TSQ_E3_P + 0x40 * p) = tsqKey a p 3 := by
    unfold tsqKey latchKey R.TIM_TSQ_E0_P R.TIM_TSQ_E3_P; omega
  have d12 : tsqKey a p 1 ≠ tsqKey a p 2 := by unfold tsqKey latchKey; omega
  have d13 : tsqKey a p 1 ≠ tsqKey a p 3 := by unfold tsqKey latchKey; omega
  have d23 : tsqKey a p 2 ≠ tsqKey a p 3 := by unfold tsqKey latchKey; omega
  simp only [State.tsqLatched, tsqLatch, k1, k2, k3]
  refine ⟨?_, ?_, mget_mput_self _ _ _, fun k h1 h2 h3 => ?_⟩
  · rw [mget_mput_ne _ _ d13, mget_mput_ne _ _ d12, mget_mput_self]
  · rw [mget_mput_ne _ _ d23, mget_mput_self]
  · rw [mget_mput_ne _ _ h3, mget_mput_ne _ _ h2, mget_mput_ne _ _ h1]

theorem TsqEntry.e0_lt (e : TsqEntry) : e.e0 < 2 ^ 32 := Nat.lt_trans (Nat.mod_lt _ (by decide)) (by decide)

/-- The answer of a read is the head's E0. -/
theorem headDword_e0 (h : s.tsq p = e :: l) : (headDword (s.tsq p) TsqEntry.e0).toNat = e.e0 := by
  rw [h, headDword, List.head?_cons, Option.map_some, Option.getD_some, BitVec.toNat_ofNat, Nat.mod_eq_of_lt e.e0_lt]

theorem headDword_cons (h : s.tsq p = e :: l) (f : TsqEntry → Nat) : headDword (s.tsq p) f = BitVec.ofNat 32 (f e) := by
  rw [h, headDword, List.head?_cons, Option.map_some, Option.getD_some]

theorem headDword_nil (h : s.tsq p = []) (f : TsqEntry → Nat) : headDword (s.tsq p) f = 0 := by
  rw [h]; rfl

/-- What a latching read of E0 by a reader leaves in its latches. -/
structure TsqTakes (s t : State) (a : Agent) (p : Nat) : Prop where
  e1 : mget t.latch (tsqKey a p 1) = some (headDword (s.tsq p) TsqEntry.e1)
  e2 : mget t.latch (tsqKey a p 2) = some (headDword (s.tsq p) TsqEntry.e2)
  e3 : mget t.latch (tsqKey a p 3) = some (headDword (s.tsq p) TsqEntry.e3)
  rest : ∀ k, k ≠ tsqKey a p 1 → k ≠ tsqKey a p 2 → k ≠ tsqKey a p 3 → mget t.latch k = mget s.latch k
  out : t.out = s.out ++ [Out.answer a (toLe 4 (headDword (s.tsq p) TsqEntry.e0).toNat) false]

theorem TsqTakes.of (hl : t.latch = (s.tsqLatched a p).latch)
    (ho : t.out = s.out ++ [Out.answer a (toLe 4 (headDword (s.tsq p) TsqEntry.e0).toNat) false]) : TsqTakes s t a p := by
  obtain ⟨h1, h2, h3, h4⟩ := s.tsqLatched_latch a p
  exact ⟨hl ▸ h1, hl ▸ h2, hl ▸ h3, hl ▸ h4, ho⟩

/-- A control core pops the head (R65). -/
theorem tsqEntryRead_core (ha : a = .c0 ∨ a = .c1) :
    Does (.tsqEntryRead a p) s [.out, .tim, .latch] (regsIn [R.TIM_TSQ_STAT_P + 0x40 * p]) fun t =>
      TsqTakes s t a p ∧ t.tsq p = (s.tsq p).tail ∧ (∀ q, q ≠ p.val → t.tsq q = s.tsq q) ∧
        t.get (F.TIM_TSQ_STAT_P_COUNT.at (0x40 * p)) = (s.tsq p).tail.length % 128 := by
  set w := ((s.tsqLatched a p).setTsq p (s.tsq p).tail).emit (.answer a (toLe 4 (headDword (s.tsq p) TsqEntry.e0).toNat) false) with hw
  have hq (j : Nat) : w.drain.tsq j = ((s.tsqLatched a p).setTsq p (s.tsq p).tail).tsq j :=
    (State.tsq_congr (State.drain_tim w) j).trans (State.tsq_congr (State.emit_tim _ _) j)
  refine ⟨w.drain, exec_tsqEntryRead_core ha, ⟨.of (State.drain_latch w) (State.drain_out w), ?_, fun j hj => ?_, ?_⟩, ?_⟩
  · rw [hq, State.setTsq_tsq]
  · rw [hq, State.setTsq_other _ _ hj]
    rfl
  · have hl : logReg (F.TIM_TSQ_STAT_P_COUNT.at (0x40 * p)).addr = false := logReg_tsqStat p
    exact (State.drain_get w hl).trans (State.setTsq_count _ _ _)
  · exact ((((Frame.refl _ _ s).put_latch (by simp) _).setTsq (by simp) _ (by simp [regsIn])).emit (by simp) _).drain

/-- PF0 peeks (R65). -/
theorem tsqEntryRead_pf0 : Does (.tsqEntryRead .pf0 p) s [.out, .latch] noRegs fun t => TsqTakes s t .pf0 p ∧ ∀ q, t.tsq q = s.tsq q := by
  set w := (s.tsqLatched .pf0 p).emit (.answer .pf0 (toLe 4 (headDword (s.tsq p) TsqEntry.e0).toNat) false) with hw
  refine ⟨w.drain, exec_tsqEntryRead_pf0, ⟨.of (State.drain_latch w) (State.drain_out w), fun q => ?_⟩, ?_⟩
  · exact (State.tsq_congr (State.drain_tim w) q).trans (State.tsq_congr (State.emit_tim _ _) q)
  · exact (((Frame.refl _ _ s).put_latch (by simp) _).emit (by simp) _).drain

/-- Dwords of the head. -/
theorem TsqTakes.cons (h : TsqTakes s t a p) (hq : s.tsq p = e :: l) : t.out = s.out ++ [Out.answer a (toLe 4 e.e0) false] ∧
    mget t.latch (tsqKey a p 1) = some (BitVec.ofNat 32 e.e1) ∧ mget t.latch (tsqKey a p 2) = some (BitVec.ofNat 32 e.e2) ∧
    mget t.latch (tsqKey a p 3) = some (BitVec.ofNat 32 e.e3) :=
  ⟨by rw [h.out, headDword_e0 hq], by rw [h.e1, headDword_cons hq], by rw [h.e2, headDword_cons hq], by rw [h.e3, headDword_cons hq]⟩

/-- Dwords of an empty queue read zero, VALID among them. -/
theorem TsqTakes.empty (h : TsqTakes s t a p) (hq : s.tsq p = []) : t.out = s.out ++ [Out.answer a (zeros 4) false] ∧
    ∀ n, 1 ≤ n → n ≤ 3 → mget t.latch (tsqKey a p n) = some 0 := by
  refine ⟨?_, fun n h1 h3 => ?_⟩
  · rw [h.out, headDword_nil hq]; rfl
  · obtain rfl | rfl | rfl : n = 1 ∨ n = 2 ∨ n = 3 := by omega
    · rw [h.e1, headDword_nil hq]
    · rw [h.e2, headDword_nil hq]
    · rw [h.e3, headDword_nil hq]

end Sys2Proof.Machine
end

section
open Sys2Proof Sys2Proof.Machine

/-- Settles O3: by the reader, and by whether the queue has a head. -/
theorem timestampQueueReadPopsForACoreAndPeeksForPF0 : Obligations.TimestampQueueReadPopsForACoreAndPeeksForPF0 := by
  intro s a p E rest
  refine ⟨fun e l h ha => ?_, fun e l h ha => ?_, fun h ha => ?_, fun ha => ?_⟩
  · obtain ⟨t, he, ⟨ht, hp, hother, hcnt⟩, hf⟩ := tsqEntryRead_core (s := s) (p := p) ha
    rw [h, List.tail_cons] at hp hcnt
    obtain ⟨h0, h1, h2, h3⟩ := ht.cons h
    exact ⟨t, he, ⟨h0, hp, hother, hcnt, ht.rest, h1, h2, h3⟩, hf⟩
  · subst ha
    obtain ⟨t, he, ⟨ht, -⟩, hf⟩ := tsqEntryRead_pf0 (s := s) (p := p)
    obtain ⟨h0, h1, h2, h3⟩ := ht.cons h
    exact ⟨t, he, ⟨h0, ht.rest, h1, h2, h3⟩, hf⟩
  · rcases or_assoc.mpr ha with ha | rfl
    · obtain ⟨t, he, ⟨ht, hp, hother, -⟩, hf⟩ := tsqEntryRead_core (s := s) (p := p) ha
      obtain ⟨hout, hzero⟩ := ht.empty h
      refine ⟨t, he, ⟨hout, fun q => ?_, ht.rest, hzero⟩, hf⟩
      by_cases hq : q = p.val
      · rw [hq, hp, h]; rfl
      · exact hother q hq
    · obtain ⟨t, he, ⟨ht, hq⟩, hf⟩ := tsqEntryRead_pf0 (s := s) (p := p)
      obtain ⟨hout, hzero⟩ := ht.empty h
      exact ⟨t, he, ⟨hout, hq, ht.rest, hzero⟩, hf.mono (by simp) (by simp [noRegs])⟩
  · subst ha
    exact ⟨_, rfl, State.drain_out _, ((Frame.refl _ _ s).emit (by simp) _).drain⟩

end

section
namespace Sys2Proof.Machine

variable {s t u : State} {ps : List Part} {rs : Nat → Bool} {n : Nat}

/-! ### What the end of a command, and a raise before it, leave -/

/-- What a raise at the end of a command leaves as it was. -/
theorem State.raise_drain_frame (s : State) (hn : n < 128) : Frame [] noRegs s (s.raise n).drain := ((Frame.refl _ _ s).raise hn).drain

theorem State.raise_pends (s : State) (hn : n < 128) : (s.raise n).pends n := s.raise_pend hn

theorem State.drain_frame (s : State) : Frame [] noRegs s s.drain := (Frame.refl _ _ s).drain

/-! ### Timestamps in LO, MID and HI (R60, R61) -/

/-- The three registers from a show the local time x. -/
def State.ShowsTime (t : State) (a x : Nat) : Prop :=
  t.rd a = BitVec.ofNat 32 (x / 2 ^ 40 % 1000000000 % 65536 * 65536 + x / 2 ^ 24 % 65536) ∧
  t.rd (a + 4) = BitVec.ofNat 32 (x / 2 ^ 40 / 1000000000 % 65536 * 65536 + x / 2 ^ 40 % 1000000000 / 65536) ∧
  t.rd (a + 8) = BitVec.ofNat 32 (x / 2 ^ 40 / 1000000000 / 65536)

/-- The registers of a timestamp. -/
def timeRegs (a : Nat) : List Nat := [a, a + 4, a + 8]

theorem State.putTime_shows (s : State) (a x : Nat) : (s.putTime a x).ShowsTime a x := by
  unfold State.putTime
  refine ⟨?_, ?_, ?_⟩
  · rw [State.rd_wr_ne _ _ (by omega), State.rd_wr_ne _ _ (by omega), State.rd_wr_self]
  · rw [State.rd_wr_ne _ _ (by omega), State.rd_wr_self]
  · rw [State.rd_wr_self]

theorem State.ShowsTime.congr {a x : Nat} (h : s.ShowsTime a x) (hr : ∀ b ∈ timeRegs a, t.rd b = s.rd b) : t.ShowsTime a x := by
  simp only [timeRegs, List.forall_mem_cons, List.not_mem_nil, false_imp_iff, implies_true, and_true] at hr
  obtain ⟨h1, h2, h3⟩ := hr
  unfold State.ShowsTime
  rw [h1, h2, h3]
  exact h

theorem Frame.putTime (h : Frame ps rs s t) {a : Nat} (x : Nat) (hr : ∀ b ∈ timeRegs a, rs b = true) : Frame ps rs s (t.putTime a x) := by
  simp only [timeRegs, List.forall_mem_cons, List.not_mem_nil, false_imp_iff, implies_true, and_true] at hr
  obtain ⟨h1, h2, h3⟩ := hr
  exact ((h.wr _ _ (by simp [h1])).wr _ _ (by simp [h2])).wr _ _ (by simp [h3])

/-- A frame that keeps TIM_INCR and the time base keeps local time. -/
theorem Frame.t40At (h : Frame ps rs s t) (hp : Part.tim ∉ ps) (h1 : rs R.TIM_INCR_LO = false) (h2 : rs R.TIM_INCR_HI = false) (n : Nat) :
    t.t40At n = s.t40At n := by
  have ht : t.tim = s.tim := h.parts .tim hp
  exact State.t40At_congr (by rw [ht]) (by rw [ht]) (State.get64_congr (h.regs _ h1 (by decide)) (h.regs _ h2 (by decide))) n

/-! ### PPS_IN (R60) -/

/-- The registers of PPS_IN. -/
def ppsInRegs : List Nat := timeRegs R.TIM_PPSIN_TS_LO ++ [R.TIM_PPSIN_CNT, R.TIM_STAT]

/-- An edge is captured: the registers of PPS_IN take it. -/
def State.ppsStored (s : State) : State :=
  ((s.putTime R.TIM_PPSIN_TS_LO s.t40).inc F.TIM_PPSIN_CNT_EDGES).setB F.TIM_STAT_PPSIN_MISSING false

/-- The capture is remembered, beside the one before. -/
def State.ppsCaptured (s : State) : State :=
  { s with tim := { s.tim with ppsHist := ((s.tim.now, s.t40) :: s.tim.ppsHist).take 2 } }

theorem State.ppsStored_frame (s : State) : Frame [] (regsIn ppsInRegs) s s.ppsStored :=
  (((Frame.refl _ _ s).putTime _ (by decide)).inc _ (by decide)).setB _ _ (by decide)

theorem State.ppsStored_spec (s : State) : s.ppsStored.get F.TIM_PPSIN_CNT_EDGES = (s.get F.TIM_PPSIN_CNT_EDGES + 1) % 2 ^ 32 ∧
    s.ppsStored.flag F.TIM_STAT_PPSIN_MISSING = false ∧ s.ppsStored.ShowsTime R.TIM_PPSIN_TS_LO s.t40 := by
  have cnt : (s.putTime R.TIM_PPSIN_TS_LO s.t40).get F.TIM_PPSIN_CNT_EDGES = s.get F.TIM_PPSIN_CNT_EDGES :=
    ((Frame.refl [] (regsIn (timeRegs R.TIM_PPSIN_TS_LO)) s).putTime _ (by decide)).get (by decide) (by decide)
  refine ⟨?_, State.flag_setB_self _ _ (by decide) rfl, (s.putTime_shows _ _).congr fun b hb => ?_⟩
  · rw [State.ppsStored, State.setB, State.get_set_ne _ _ (by decide), State.get_inc_self _ (by decide), cnt]
    rfl
  · have h : Frame [] (regsIn [R.TIM_PPSIN_CNT, R.TIM_STAT]) (s.putTime R.TIM_PPSIN_TS_LO s.t40) s.ppsStored :=
      ((Frame.refl _ _ _).inc _ (by decide)).setB _ _ (by decide)
    have hall : ∀ b ∈ timeRegs R.TIM_PPSIN_TS_LO, regsIn [R.TIM_PPSIN_CNT, R.TIM_STAT] b = false ∧ logReg b = false := by decide
    exact h.regs b (hall b hb).1 (hall b hb).2

theorem State.ppsStored_tim (s : State) : s.ppsStored.tim = s.tim := s.ppsStored_frame.parts .tim (by simp)

theorem State.ppsStored_t40 (s : State) : s.ppsStored.t40 = s.t40 := by
  rw [State.t40, State.now, State.ppsStored_tim, s.ppsStored_frame.t40At (by simp) (by decide) (by decide), State.t40, State.now]

/-- Of the stored state a capture changes the time base alone. -/
theorem State.ppsCaptured_frame (s : State) : Frame [.tim] noRegs s s.ppsCaptured := (Frame.refl _ _ s).put_tim (by simp) _

theorem ppsInEdge_does {rising : Bool} {w : Nat} (he : s.flag F.TIM_CTRL_PPSIN_EN = true) (hd : s.flag F.TIM_CTRL_PPSIN_EDGE = !rising)
    (hw : 100 ≤ w) : Does (.ppsInEdge rising w) s [.tim] (regsIn ppsInRegs) fun t =>
      t.get F.TIM_PPSIN_CNT_EDGES = (s.get F.TIM_PPSIN_CNT_EDGES + 1) % 2 ^ 32 ∧ t.flag F.TIM_STAT_PPSIN_MISSING = false ∧
        t.tim = { s.tim with ppsHist := ((s.tim.now, s.t40) :: s.tim.ppsHist).take 2 } ∧ t.ShowsTime R.TIM_PPSIN_TS_LO s.t40 ∧ t.pends 11 := by
  have hx : exec (.ppsInEdge rising w) s = (s.ppsStored.ppsCaptured.raise 11).done := by
    refine if_pos ?_
    simp [he, hd, hw]
  obtain ⟨h1, h2, h3⟩ := s.ppsStored_spec
  have hf := s.ppsStored.ppsCaptured.raise_drain_frame (n := 11) (by decide)
  have hc : Frame [.tim] noRegs s.ppsStored (s.ppsStored.ppsCaptured.raise 11).drain :=
    s.ppsStored.ppsCaptured_frame.trans (hf.mono (by simp) fun _ h => h)
  refine ⟨_, hx, ⟨?_, ?_, ?_, ?_, ?_⟩, ?_⟩
  · exact (hc.get rfl (by decide)).trans h1
  · exact (hc.flag rfl (by decide)).trans h2
  · refine (hf.parts .tim (by simp)).trans ?_
    rw [State.ppsCaptured, State.ppsStored_t40, State.ppsStored_tim]
  · have hall : ∀ b ∈ timeRegs R.TIM_PPSIN_TS_LO, logReg b = false := by decide
    exact h3.congr fun b hb => hc.regs b rfl (hall b hb)
  · exact State.pends_drain (by decide) (State.raise_pends _ (by decide))
  · exact (s.ppsStored_frame.mono (by simp) fun _ h => h).trans (hc.mono (fun _ h => h) fun _ _ => rfl)

theorem evTimPpsinMissing_does {e : Nat × Nat} {l : List (Nat × Nat)} (hl : s.tim.ppsHist = e :: l) (he : s.flag F.TIM_CTRL_PPSIN_EN = true)
    (hm : s.flag F.TIM_STAT_PPSIN_MISSING = false) : Does .evTimPpsinMissing s [.tim] (regsIn [R.TIM_STAT]) fun t =>
      t.tim = { s.tim with now := max s.tim.now (e.1 + ticksOfMs 1100) } ∧ t.flag F.TIM_STAT_PPSIN_MISSING = true ∧ t.pends 11 := by
  have hx : exec .evTimPpsinMissing s =
      (((s.reach (e.1 + ticksOfMs 1100)).setB F.TIM_STAT_PPSIN_MISSING true).ev0 Ev.TIM_PPSIN_MISSING).done := by
    show execEvTimPpsinMissing s = _
    unfold execEvTimPpsinMissing
    rw [hl]
    exact if_pos (by simp [he, hm])
  refine ⟨_, hx, ⟨?_, ?_, State.pends_drain (by decide) (State.ev0_pends _ (by decide))⟩, ?_⟩
  · rw [State.drain_tim, State.ev0_tim, State.setB, State.set, State.wr_tim, State.reach_tim]
  · rw [State.drain_flag _ (by decide), State.ev0_flag _ _ (by decide)]
    exact State.flag_setB_self _ _ (by decide) rfl
  · exact ((((Frame.refl _ _ s).reach (by simp) _).setB _ _ (by decide)).ev0 _).drain

/-! ### IRIG-B (R61) -/

theorem State.newUtcOfs_frame (s : State) (o : Option Nat) : Frame [] (regsIn [R.TIM_UTCOFF]) s (s.newUtcOfs o) := by
  unfold State.newUtcOfs
  split
  · exact Frame.refl _ _ _
  · exact .ite (Frame.refl _ _ _) (((Frame.refl _ _ _).set _ _ (by decide)).ev0 _)

theorem State.newUtcOfs_ofs (s : State) (o : Option Nat) :
    (s.newUtcOfs o).get F.TIM_UTCOFF_OFFSET = (o.map fun x => x % 65536).getD (s.get F.TIM_UTCOFF_OFFSET) := by
  cases o with
  | none => rfl
  | some x =>
    rw [State.newUtcOfs, Option.map_some, Option.getD_some]
    split
    case isTrue h => simpa using h
    case isFalse =>
      rw [State.ev0_get _ _ (by decide)]
      exact State.get_set_self s x (by decide)

theorem State.newUtcOfs_pends (hn : n < 128) (k : s.pends n) (o : Option Nat) : (s.newUtcOfs o).pends n := by
  cases o with
  | none => exact k
  | some x =>
    rw [State.newUtcOfs]
    split
    · exact k
    · exact State.pends_ev0 hn _ (State.pends_set _ (by decide) k)

/-- The registers of the IRIG-B receiver. -/
def irigRegs : List Nat := [R.TIM_IRIG_DATA_LO, R.TIM_IRIG_DATA_MID, R.TIM_IRIG_DATA_HI, R.TIM_IRIG_TS_LO, R.TIM_IRIG_TS_LO + 4,
  R.TIM_IRIG_TS_LO + 8, R.TIM_IRIG_STAT, R.TIM_STAT]

/-- The PPS_IN capture within 1 ms of a tick. -/
def State.ppsNear (s : State) (mark : Nat) : Option (Nat × Nat) :=
  s.tim.ppsHist.find? fun x => decide (x.1 ≤ mark + ticksOfMs 1) && decide (mark ≤ x.1 + ticksOfMs 1)

/-- The time of an on-time edge, and the state after choosing it where it is open. -/
def State.irigEdge (s : State) (mark : Nat) : Nat × State :=
  if s.actSrc == 2 then
    match s.ppsNear mark with
    | some x => (x.2, s)
    | none => s.fresh
  else (s.t40At mark, s)

theorem State.irigEdge_state (s : State) (mark : Nat) : ∃ n, (s.irigEdge mark).2 = { s with freeCtr := n } := by
  unfold State.irigEdge
  split
  · split
    · exact ⟨s.freeCtr, rfl⟩
    · exact ⟨_, rfl⟩
  · exact ⟨s.freeCtr, rfl⟩

theorem State.irigEdge_local (h : s.actSrc ≠ 2) (mark : Nat) : (s.irigEdge mark).1 = s.t40At mark := by simp [State.irigEdge, h]

theorem State.irigEdge_pps {mark : Nat} {x : Nat × Nat} (h : s.actSrc = 2) (hn : s.ppsNear mark = some x) : (s.irigEdge mark).1 = x.2 := by
  simp [State.irigEdge, h, hn]

/-- The 89 data elements in TIM_IRIG_DATA. -/
def State.irigWords (s : State) (d : Nat) : State :=
  ((s.wr R.TIM_IRIG_DATA_LO (BitVec.ofNat 32 d)).wr R.TIM_IRIG_DATA_MID (BitVec.ofNat 32 (d / 2 ^ 32))).wr
    R.TIM_IRIG_DATA_HI (BitVec.ofNat 32 (d / 2 ^ 64))

/-- A good frame's time, count and flag. -/
def State.irigCounted (s : State) (x : Nat) : State :=
  ((s.putTime R.TIM_IRIG_TS_LO x).inc F.TIM_IRIG_STAT_GOOD).setB F.TIM_STAT_IRIG_VALID true

/-- The tick of the last good frame is now. -/
def State.irigMark (s : State) : State := { s with tim := { s.tim with irigAt := some s.tim.now } }

theorem State.irigMark_frame (s : State) : Frame [.tim] noRegs s s.irigMark := (Frame.refl _ _ s).put_tim (by simp) _

theorem State.irigCounted_frame (s : State) (x : Nat) :
    Frame [] (regsIn (timeRegs R.TIM_IRIG_TS_LO ++ [R.TIM_IRIG_STAT, R.TIM_STAT])) s (s.irigCounted x) :=
  (((Frame.refl _ _ s).putTime _ (by decide)).inc _ (by decide)).setB _ _ (by decide)

theorem State.irigWords_frame (s : State) (d : Nat) :
    Frame [] (regsIn [R.TIM_IRIG_DATA_LO, R.TIM_IRIG_DATA_MID, R.TIM_IRIG_DATA_HI]) s (s.irigWords d) :=
  (((Frame.refl _ _ s).wr _ _ (by decide)).wr _ _ (by decide)).wr _ _ (by decide)

theorem State.irigWords_rd (s : State) (d : Nat) : (s.irigWords d).rd R.TIM_IRIG_DATA_LO = BitVec.ofNat 32 d ∧
    (s.irigWords d).rd R.TIM_IRIG_DATA_MID = BitVec.ofNat 32 (d / 2 ^ 32) ∧
    (s.irigWords d).rd R.TIM_IRIG_DATA_HI = BitVec.ofNat 32 (d / 2 ^ 64) := by
  unfold State.irigWords
  refine ⟨?_, ?_, State.rd_wr_self _ _ _⟩
  · rw [State.rd_wr_ne _ _ (by decide), State.rd_wr_ne _ _ (by decide), State.rd_wr_self]
  · rw [State.rd_wr_ne _ _ (by decide), State.rd_wr_self]

theorem State.irigCounted_spec (s : State) (x : Nat) : (s.irigCounted x).get F.TIM_IRIG_STAT_GOOD = (s.get F.TIM_IRIG_STAT_GOOD + 1) % 65536 ∧
    (s.irigCounted x).flag F.TIM_STAT_IRIG_VALID = true ∧ (s.irigCounted x).ShowsTime R.TIM_IRIG_TS_LO x := by
  have cnt : (s.putTime R.TIM_IRIG_TS_LO x).get F.TIM_IRIG_STAT_GOOD = s.get F.TIM_IRIG_STAT_GOOD :=
    ((Frame.refl [] (regsIn (timeRegs R.TIM_IRIG_TS_LO)) s).putTime _ (by decide)).get (by decide) (by decide)
  refine ⟨?_, State.flag_setB_self _ _ (by decide) rfl, (s.putTime_shows _ _).congr fun b hb => ?_⟩
  · rw [State.irigCounted, State.setB, State.get_set_ne _ _ (by decide), State.get_inc_self _ (by decide), cnt]
    rfl
  · have h : Frame [] (regsIn [R.TIM_IRIG_STAT, R.TIM_STAT]) (s.putTime R.TIM_IRIG_TS_LO x) (s.irigCounted x) :=
      ((Frame.refl _ _ _).inc _ (by decide)).setB _ _ (by decide)
    have hall : ∀ b ∈ timeRegs R.TIM_IRIG_TS_LO, regsIn [R.TIM_IRIG_STAT, R.TIM_STAT] b = false ∧ logReg b = false := by decide
    exact h.regs b (hall b hb).1 (hall b hb).2

/-- A good frame: what it leaves before the end of the command. -/
def State.irigTaken (s : State) (us : List Nat) (ago : Nat) : State :=
  let r := s.irigEdge (s.now - ago)
  ((r.2.irigWords (irigData us)).irigCounted r.1).irigMark

theorem irigFrameRx_good {us : List Nat} {ago : Nat} {ofs : Option Nat} (he : s.flag F.TIM_CTRL_IRIG_EN = true) (hg : irigGood us = true) :
    Does (.irigFrameRx us ago ofs) s [.tim] (regsIn (irigRegs ++ [R.TIM_UTCOFF])) fun t =>
      t.get F.TIM_IRIG_STAT_GOOD = (s.get F.TIM_IRIG_STAT_GOOD + 1) % 65536 ∧ t.flag F.TIM_STAT_IRIG_VALID = true ∧
        t.tim = { s.tim with irigAt := some s.tim.now } ∧ t.pends 12 ∧
        t.rd R.TIM_IRIG_DATA_LO = BitVec.ofNat 32 (irigData us) ∧ t.rd R.TIM_IRIG_DATA_MID = BitVec.ofNat 32 (irigData us / 2 ^ 32) ∧
        t.rd R.TIM_IRIG_DATA_HI = BitVec.ofNat 32 (irigData us / 2 ^ 64) ∧
        t.get F.TIM_UTCOFF_OFFSET = (ofs.map fun x => x % 65536).getD (s.get F.TIM_UTCOFF_OFFSET) ∧
        t.ShowsTime R.TIM_IRIG_TS_LO (s.irigEdge (s.now - ago)).1 := by
  have hx : exec (.irigFrameRx us ago ofs) s = (((s.irigTaken us ago).raise 12).newUtcOfs ofs).done := by
    show execIrigFrameRx us ago ofs s = _
    rw [execIrigFrameRx, if_neg (by simp [he]), if_pos hg]
    rfl
  obtain ⟨n, hn⟩ := s.irigEdge_state (s.now - ago)
  set x := (s.irigEdge (s.now - ago)).1
  set v : State := { s with freeCtr := n } with hv
  set a := v.irigWords (irigData us) with ha
  set w := a.irigCounted x with hw
  have ht : s.irigTaken us ago = w.irigMark := by rw [State.irigTaken, hn]
  rw [ht] at hx
  have hf : Frame [] (regsIn [R.TIM_UTCOFF]) w.irigMark ((w.irigMark.raise 12).newUtcOfs ofs).drain :=
    (((Frame.refl _ _ _).raise (by decide)).trans (State.newUtcOfs_frame _ _)).drain
  have hc : Frame [.tim] (regsIn [R.TIM_UTCOFF]) w ((w.irigMark.raise 12).newUtcOfs ofs).drain :=
    (w.irigMark_frame.mono (fun _ h => h) fun _ _ => rfl).trans (hf.mono (by simp) fun _ h => h)
  have hfw : Frame [] (regsIn (timeRegs R.TIM_IRIG_TS_LO ++ [R.TIM_IRIG_STAT, R.TIM_STAT])) a w := a.irigCounted_frame x
  have hfa : Frame [] (regsIn [R.TIM_IRIG_DATA_LO, R.TIM_IRIG_DATA_MID, R.TIM_IRIG_DATA_HI]) s a :=
    ((Frame.refl _ _ s).freeCtr n).trans (v.irigWords_frame _)
  obtain ⟨h1, h2, h3⟩ := a.irigCounted_spec x
  obtain ⟨d1, d2, d3⟩ := v.irigWords_rd (irigData us)
  refine ⟨_, hx, ⟨?_, ?_, ?_, ?_, ?_, ?_, ?_, ?_, ?_⟩, ?_⟩
  · exact (hc.get (by decide) (by decide)).trans (h1.trans (by rw [hfa.get (by decide) (by decide)]))
  · exact (hc.flag (by decide) (by decide)).trans h2
  · have hwt : w.tim = s.tim := (hfw.parts .tim (by simp) : w.tim = a.tim).trans (hfa.parts .tim (by simp))
    refine (hf.parts .tim (by simp)).trans ?_
    rw [State.irigMark, hwt]
  · exact State.pends_drain (by decide) (State.newUtcOfs_pends (by decide) (State.raise_pends _ (by decide)) _)
  · exact (hc.regs _ (by decide) (by decide)).trans ((hfw.regs _ (by decide) (by decide)).trans d1)
  · exact (hc.regs _ (by decide) (by decide)).trans ((hfw.regs _ (by decide) (by decide)).trans d2)
  · exact (hc.regs _ (by decide) (by decide)).trans ((hfw.regs _ (by decide) (by decide)).trans d3)
  · have hr : Frame [.tim] noRegs w (w.irigMark.raise 12) := w.irigMark_frame.raise (by decide)
    have hr : (w.irigMark.raise 12).get F.TIM_UTCOFF_OFFSET = s.get F.TIM_UTCOFF_OFFSET :=
      (hr.get rfl (by decide)).trans ((hfw.get (by decide) (by decide)).trans (hfa.get (by decide) (by decide)))
    rw [State.drain_get _ (by decide), State.newUtcOfs_ofs, hr]
  · have hall : ∀ b ∈ timeRegs R.TIM_IRIG_TS_LO, regsIn [R.TIM_UTCOFF] b = false ∧ logReg b = false := by decide
    exact h3.congr fun b hb => hc.regs b (hall b hb).1 (hall b hb).2
  · have hm {l : List Nat} (hl : ∀ y ∈ l, y ∈ irigRegs ++ [R.TIM_UTCOFF]) (y : Nat) (hy : regsIn (irigRegs ++ [R.TIM_UTCOFF]) y = false) :
        regsIn l y = false := by
      simp only [regsIn, List.contains_eq_mem, decide_eq_false_iff_not] at hy ⊢
      exact fun hc => hy (hl y hc)
    exact ((hfa.mono (by simp) (hm (by decide))).trans (hfw.mono (by simp) (hm (by decide)))).trans (hc.mono (by simp) (hm (by decide)))

theorem irigFrameRx_bad {us : List Nat} {ago : Nat} {ofs : Option Nat} (he : s.flag F.TIM_CTRL_IRIG_EN = true) (hg : irigGood us = false) :
    Does (.irigFrameRx us ago ofs) s [] (regsIn [R.TIM_IRIG_STAT]) fun t =>
      t.get F.TIM_IRIG_STAT_ERR = (s.get F.TIM_IRIG_STAT_ERR + 1) % 65536 ∧ t.pends 12 := by
  have hx : exec (.irigFrameRx us ago ofs) s = ((s.inc F.TIM_IRIG_STAT_ERR).ev0 Ev.TIM_IRIG_ERR).done := by
    show execIrigFrameRx us ago ofs s = _
    rw [execIrigFrameRx, if_neg (by simp [he]), if_neg (by simp [hg])]
  refine ⟨_, hx, ⟨?_, State.pends_drain (by decide) (State.ev0_pends _ (by decide))⟩, (((Frame.refl _ _ s).inc _ (by decide)).ev0 _).drain⟩
  rw [State.drain_get _ (by decide), State.ev0_get _ _ (by decide)]
  exact State.get_inc_self s (by decide)

theorem irigValidExpiry_does {ofs : Option Nat} (ha : s.tim.irigAt = some n) (hv : s.flag F.TIM_STAT_IRIG_VALID = true) :
    Does (.irigValidExpiry ofs) s [.tim] (regsIn [R.TIM_STAT, R.TIM_UTCOFF]) fun t =>
      t.tim = { s.tim with now := max s.tim.now (n + ticksOfMs 1100) } ∧ t.flag F.TIM_STAT_IRIG_VALID = false ∧
        t.get F.TIM_UTCOFF_OFFSET = (ofs.map fun x => x % 65536).getD (s.get F.TIM_UTCOFF_OFFSET) := by
  set w := (s.reach (n + ticksOfMs 1100)).setB F.TIM_STAT_IRIG_VALID false with hw
  have hx : exec (.irigValidExpiry ofs) s = (w.newUtcOfs ofs).done := by
    show execIrigValidExpiry ofs s = _
    unfold execIrigValidExpiry
    rw [ha]
    exact if_pos hv
  have hf := w.newUtcOfs_frame ofs
  have hofs : w.get F.TIM_UTCOFF_OFFSET = s.get F.TIM_UTCOFF_OFFSET := (State.get_set_ne _ _ (by decide)).trans (s.reach_get _ (by decide))
  refine ⟨_, hx, ⟨?_, ?_, ?_⟩, ?_⟩
  · have ht : (w.newUtcOfs ofs).tim = w.tim := hf.parts .tim (by simp)
    rw [State.drain_tim, ht, hw, State.setB, State.set, State.wr_tim, State.reach_tim]
  · rw [State.drain_flag _ (by decide), hf.flag (by decide) (by decide)]
    exact State.flag_setB_self _ _ (by decide) rfl
  · rw [State.drain_get _ (by decide), State.newUtcOfs_ofs, hofs]
  · have h1 : Frame [.tim] (regsIn [R.TIM_STAT, R.TIM_UTCOFF]) s w := ((Frame.refl _ _ s).reach (by simp) _).setB _ _ (by decide)
    refine (h1.trans (hf.mono (by simp) fun y hy => ?_)).drain
    simp only [regsIn, List.contains_cons, Bool.or_eq_false_iff] at hy ⊢
    exact hy.2

end Sys2Proof.Machine
end

section
namespace Sys2Proof.Machine

variable {s t u : State}

/-! ### PPS_OUT (R62) -/

/-- What the time-quality code depends on. -/
def tqFlds : List Fld :=
  [F.TIM_STAT_REF_LOST, F.TIM_STAT_EXPIRED, F.TIM_SRC_ACT, F.TIM_CTRL_HOLD, F.TIM_UNC_U, F.TIM_SERVO_LOCK]

theorem State.tqCode_congr (he : t.tim.everLocked = s.tim.everLocked) (hg : ∀ g ∈ tqFlds, t.get g = s.get g) : t.tqCode = s.tqCode := by
  simp only [tqFlds, List.forall_mem_cons, List.not_mem_nil, false_imp_iff, implies_true, and_true] at hg
  obtain ⟨h1, h2, h3, h4, h5, h6⟩ := hg
  unfold State.tqCode State.actSrc State.flag
  rw [he, h1, h2, h3, h4, h5, h6]

theorem le_ceilDiv_mul (x : Nat) {n : Nat} (hn : 0 < n) : x ≤ ceilDiv x n * n := by
  have h := Nat.div_add_mod (x + n - 1) n
  have hm := Nat.mod_lt (x + n - 1) hn
  unfold ceilDiv
  rw [Nat.mul_comm]
  omega

theorem State.tickAtTai_ge (s : State) (x : Nat) : s.tim.now ≤ s.tickAtTai x := by
  unfold State.tickAtTai
  split
  · exact Nat.le_refl _
  · exact Nat.le_max_left _ _

/-- The second at whose boundary, less OFS, the output next rises. -/
def State.ppsSecond (s : State) : Nat :=
  let c := ceilDiv ((s.taiNs : Int) + s.ppsOfs).toNat 1000000000
  if s.tim.ppsNext == c + 1 then c + 1 else c

/-- The tick of that boundary, less OFS. -/
def State.ppsTick (s : State) : Nat := s.tickAtTai (((s.ppsSecond * 1000000000 : Nat) : Int) - s.ppsOfs).toNat

theorem State.ppsSecond_ge (s : State) : (s.taiNs : Int) + s.ppsOfs ≤ (s.ppsSecond : Int) * 1000000000 := by
  have h := le_ceilDiv_mul ((s.taiNs : Int) + s.ppsOfs).toNat (n := 1000000000) (by decide)
  have hz := Int.self_le_toNat ((s.taiNs : Int) + s.ppsOfs)
  unfold State.ppsSecond
  dsimp only
  generalize ((s.taiNs : Int) + s.ppsOfs) = z at *
  generalize ceilDiv z.toNat 1000000000 = c at *
  split <;> omega

/-- The boundary has come. -/
def State.ppsDue (s : State) : State :=
  let v := s.reach s.ppsTick
  { v with tim := { v.tim with ppsNext := s.ppsSecond + 1 } }

theorem State.ppsDue_tim (s : State) : s.ppsDue.tim = { s.tim with now := s.ppsTick, ppsNext := s.ppsSecond + 1 } := by
  have h : max s.tim.now s.ppsTick = s.ppsTick := max_eq_right (s.tickAtTai_ge _)
  simp only [State.ppsDue, State.reach_tim, h]

theorem State.ppsDue_frame (s : State) : Frame [.tim] noRegs s s.ppsDue := ((Frame.refl _ _ s).reach (by simp) _).put_tim (by simp) _

/-- Is the output squelched (R62). -/
def State.ppsSquelched (s : State) : Bool := s.flag F.TIM_PPSOUT_SQUELCH && s.tqCode == 0xF

/-- The output rises, with its fall WIDTH later. -/
def State.ppsUp (s : State) : State :=
  { s with tim := { s.tim with ppsHigh := true, ppsFallAt := s.tim.now + ticksOfUs (s.get F.TIM_PPSOUT_WIDTH) } }

theorem State.ppsUp_frame (s : State) : Frame [.tim] noRegs s s.ppsUp := (Frame.refl _ _ s).put_tim (by simp) _

theorem exec_ppsOutRise (ha : s.tim.anchor.isSome = true) (hw : s.get F.TIM_PPSOUT_WIDTH ≠ 0) :
    exec .ppsOutRise s = (if s.ppsDue.ppsSquelched then s.ppsDue else s.ppsDue.ppsUp).done := by
  show execPpsOutRise s = _
  have hn : ¬ (s.tim.anchor.isNone || s.get F.TIM_PPSOUT_WIDTH == 0) = true := by
    rw [Option.isSome_iff_exists] at ha
    obtain ⟨x, hx⟩ := ha
    simp [hx, hw]
  rw [execPpsOutRise, if_neg hn]
  exact (apply_ite State.done _ _ _).symm

/-- What the statement says of a rise: the boundary's instant, and the output's level and fall. -/
structure PpsRisen (s t : State) : Prop where
  anchor : t.tim.anchor = s.tim.anchor
  now : t.tim.now = s.ppsTick
  next : t.tim.ppsNext = s.ppsSecond + 1
  level : t.tim.ppsHigh = if t.ppsSquelched then s.tim.ppsHigh else true
  fall : t.ppsSquelched = false → t.tim.ppsFallAt = t.tim.now + ticksOfUs (s.get F.TIM_PPSOUT_WIDTH)

/-- Squelching depends on neither the level nor the fall. -/
theorem State.ppsSquelched_congr (he : t.tim.everLocked = s.tim.everLocked) (h : Frame [.tim] noRegs s t) : t.ppsSquelched = s.ppsSquelched := by
  have hq : t.tqCode = s.tqCode := State.tqCode_congr he fun g hg => h.get rfl ((by decide : ∀ g ∈ tqFlds, logReg g.addr = false) g hg)
  rw [State.ppsSquelched, hq, h.flag rfl (by decide), State.ppsSquelched]

theorem ppsOutRise_does (ha : s.tim.anchor.isSome = true) (hw : s.get F.TIM_PPSOUT_WIDTH ≠ 0) :
    Does .ppsOutRise s [.tim] noRegs fun t => PpsRisen s t := by
  have he := exec_ppsOutRise ha hw
  have hd := s.ppsDue_tim
  cases hq : s.ppsDue.ppsSquelched
  · rw [hq, if_neg Bool.false_ne_true] at he
    have hf : Frame [.tim] noRegs s.ppsDue s.ppsDue.ppsUp.drain := s.ppsDue.ppsUp_frame.drain
    have ht : s.ppsDue.ppsUp.drain.tim = { s.ppsDue.tim with ppsHigh := true, ppsFallAt := s.ppsDue.tim.now + ticksOfUs (s.ppsDue.get F.TIM_PPSOUT_WIDTH) } :=
      State.drain_tim _
    have hs : s.ppsDue.ppsUp.drain.ppsSquelched = false := (State.ppsSquelched_congr (by rw [ht]) hf).trans hq
    refine ⟨_, he, ⟨by rw [ht, hd], by rw [ht, hd], by rw [ht, hd], by rw [ht, hs]; rfl, fun _ => ?_⟩, s.ppsDue_frame.trans hf⟩
    rw [ht, s.ppsDue_frame.get rfl (by decide)]
  · rw [hq, if_pos rfl] at he
    have hf : Frame [] noRegs s.ppsDue s.ppsDue.drain := s.ppsDue.drain_frame
    have ht : s.ppsDue.drain.tim = s.ppsDue.tim := State.drain_tim _
    have hs : s.ppsDue.drain.ppsSquelched = true := (State.ppsSquelched_congr (by rw [ht]) (hf.mono (by simp) fun _ h => h)).trans hq
    refine ⟨_, he, ⟨by rw [ht, hd], by rw [ht, hd], by rw [ht, hd], by rw [ht, hs, hd]; rfl, fun h => ?_⟩, s.ppsDue_frame.drain⟩
    rw [hs] at h
    cases h

/-- The output has fallen, at the fall's instant at the earliest. -/
def State.ppsDown (s : State) : State :=
  let v := s.reach s.tim.ppsFallAt
  { v with tim := { v.tim with ppsHigh := false } }

theorem State.ppsDown_tim (s : State) : s.ppsDown.tim = { s.tim with ppsHigh := false, now := max s.tim.now s.tim.ppsFallAt } := by
  simp only [State.ppsDown, State.reach_tim]

theorem State.ppsDown_frame (s : State) : Frame [.tim] noRegs s s.ppsDown := ((Frame.refl _ _ s).reach (by simp) _).put_tim (by simp) _

theorem ppsOutFall_does (h : s.tim.ppsHigh = true) : Does .ppsOutFall s [.tim] noRegs fun t =>
    t.tim = { s.tim with ppsHigh := false, now := max s.tim.now s.tim.ppsFallAt } := by
  have hx : exec .ppsOutFall s = s.ppsDown.done := if_pos h
  exact ⟨_, hx, (State.drain_tim _).trans s.ppsDown_tim, s.ppsDown_frame.drain⟩

end Sys2Proof.Machine
end

section
open Sys2Proof Sys2Proof.Machine

/-- Settles O5: an input's capture and its expiry, an output's edges, a clause per theorem above. -/
theorem pulsesAndIrigFrames : Obligations.PulsesAndIrigFrames := by
  refine ⟨fun s rising w he hd hw => ppsInEdge_does he hd hw, fun s e l hl he hm => evTimPpsinMissing_does hl he hm,
    fun s us ago ofs he => ⟨fun hg => ?_, irigFrameRx_bad he⟩, fun s n ofs ha hv => irigValidExpiry_does ha hv, fun s ha hw => ?_,
    fun s h => ppsOutFall_does h⟩
  · obtain ⟨t, hx, ⟨h1, h2, h3, h4, h5, h6, h7, h8, h9⟩, hf⟩ := irigFrameRx_good (ago := ago) (ofs := ofs) he hg
    exact ⟨t, hx, ⟨h1, h2, h3, h4, h5, h6, h7, h8, fun hs => State.irigEdge_local hs _ ▸ h9,
      fun x hs hn => State.irigEdge_pps hs hn ▸ h9⟩, hf⟩
  · obtain ⟨t, hx, h, hf⟩ := ppsOutRise_does ha hw
    refine ⟨t, hx, ⟨h.anchor, ⟨s.ppsSecond, h.next, s.ppsSecond_ge, ?_⟩, ?_, ?_⟩, hf⟩
    · rw [h.now, State.ppsTick, Nat.cast_mul, Nat.cast_ofNat]
    · have hl := h.level
      rwa [State.ppsSquelched, hf.flag rfl (by decide)] at hl
    · intro hq
      refine h.fall ?_
      rwa [State.ppsSquelched, hf.flag rfl (by decide)]

end

section
namespace Sys2Proof.Machine

variable {s : State}

/-! ### PTP_CFG and a multicast filter longer than its 64 entries (R59, R344)

The filters follow PTP_CFG. As with O41, a list of more than 64 addresses, which no command makes, reaches the registers behind the filter:
entry 1024 of port 4 lies behind the ports' registers. -/

/-- The registers from the start of port p's multicast filter. -/
def mcfOn (p : Nat) : Nat → Bool := fun a => decide (0x20800 + 0x2000 * p ≤ a)

/-- The low dword of entry i of port p's filter. -/
def mcfLo (p i : Nat) : Nat := 0x20800 + 0x2000 * p + 8 * i

theorem State.mcEntry_frame (s : State) (p i : Nat) (mac : Option Nat) : Frame [.mac] (mcfOn p) s (s.mcEntry p i mac) := by
  have hlo : mcfOn p (mcfLo p i) = true := decide_eq_true (Nat.le_add_right _ _)
  have hhi : mcfOn p (0x20804 + 0x2000 * p + 8 * i) = true := decide_eq_true (by omega)
  exact (((Frame.refl _ _ s).set _ _ (Bool.or_eq_true_iff.mpr (.inl hlo))).set _ _ (Bool.or_eq_true_iff.mpr (.inl hhi))).setB _ _
    (Bool.or_eq_true_iff.mpr (.inl hhi))

theorem State.mcFilter_frame (s : State) (p : Nat) (macs : List Nat) : Frame [.mac] (mcfOn p) s (s.mcFilter p macs) := by
  unfold State.mcFilter
  dsimp only
  split
  · exact Frame.refl _ _ s
  · exact ((Frame.refl _ _ s).foldlMem _ _ fun t i _ h => h.trans (t.mcEntry_frame p i _)).put_mac (List.mem_singleton_self _) _

/-- An entry that is emptied has no address. -/
theorem State.mcEntry_none_rd (s : State) (p i : Nat) : (s.mcEntry p i none).rd (mcfLo p i) = 0 := by
  have hne : mcfLo p i ≠ 0x20804 + 0x2000 * p + 8 * i := by unfold mcfLo; omega
  have hok : ((pfld F.MAC_MCF_LO_P_ADDR p).at (8 * i)).ok := (by decide : F.MAC_MCF_LO_P_ADDR.ok)
  have hset (x : Nat) (hx : x < 2 ^ 32) : setBits x 31 0 0 = 0 := by simp [setBits, bits]; omega
  have hlo : (s.set ((pfld F.MAC_MCF_LO_P_ADDR p).at (8 * i)) 0).rd (mcfLo p i) = 0 :=
    BitVec.eq_of_toNat_eq ((s.rd_set_toNat 0 hok).trans (hset _ (BitVec.isLt _)))
  exact (State.rd_set_ne _ _ hne).trans ((State.rd_set_ne _ _ hne).trans hlo)

/-- Emptying a filter clears the low dword of the last entry it is said to hold. -/
theorem State.mcFilter_nil_rd {p n : Nat} (hn : (mgetD s.mac.mcf p []).length = n + 1) : (s.mcFilter p []).rd (mcfLo p n) = 0 := by
  have hw : ¬ (mgetD s.mac.mcf p [] == []) = true := by
    intro h
    rw [eq_of_beq h] at hn
    cases hn
  have hmac (t : State) (m : Mac) : ({ t with mac := m } : State).rd (mcfLo p n) = t.rd (mcfLo p n) := rfl
  rw [State.mcFilter, if_neg hw, hmac, hn, List.length_nil, Nat.max_zero, List.range_succ, List.foldl_append, List.foldl_cons,
    List.foldl_nil, List.getElem?_nil]
  exact State.mcEntry_none_rd _ p n

/-- The filters and reports of ports 0 to 3 are brought up to date. -/
def State.mcBefore4 (s : State) : State := [0, 1, 2, 3].foldl (fun (s : State) p => (s.mcFilter p (s.mcMacs p)).mcChange p) s

theorem State.mcSync_last (h : s.fwRuns = true) : s.mcSync = (s.mcBefore4.mcFilter 4 (s.mcBefore4.mcMacs 4)).mcChange 4 := by
  rw [State.mcSync, if_pos h, show List.range 5 = [0, 1, 2, 3] ++ [4] from rfl, List.foldl_append, List.foldl_cons, List.foldl_nil,
    State.mcBefore4]

/-- A port without a link reports nothing. -/
theorem State.mcChange_unlinked {p : Nat} (h : s.portLink p = false) :
    s.mcChange p = { s with mac := { s.mac with reported := s.mac.reported.filter fun g => g.1 != p } } := by
  rw [State.mcChange, h, Bool.and_false, if_neg Bool.false_ne_true]

/-- An emptied filter of a port without a link: its last entry reads zero, and the commands stay. -/
theorem State.mcNil_unlinked {p n : Nat} (hp : p < 5) (hn : (mgetD s.mac.mcf p []).length = n + 1) (hl : s.portLink p = false) :
    ((s.mcFilter p []).mcChange p).rd (mcfLo p n) = 0 ∧ ((s.mcFilter p []).mcChange p).cmd = s.cmd := by
  have hf := s.mcFilter_frame p []
  have hlink : (s.mcFilter p []).portLink p = false := by
    have ha : mcfOn p (pfld F.MAC_STAT_P_LINK p).addr = false := decide_eq_false (by show ¬ _ ≤ 0x20004 + 0x2000 * p; omega)
    rw [State.portLink, hf.flag ha ((by decide : ∀ p < 5, logReg (pfld F.MAC_STAT_P_LINK p).addr = false) p hp)]
    exact hl
  rw [State.mcChange_unlinked hlink]
  exact ⟨State.mcFilter_nil_rd hn, hf.parts .cmd (by simp)⟩

/-- PTP_CFG with values in range is answered from the state with the new settings. -/
theorem exec_ptpCfg_of_ok {r : Fn} {b : List Byte} {u : State} (hs : Starts s r 0x61 16 false b)
    (hb : ptpCfgBody b (s.popHead r) = ⟨St.ok, [], u⟩) : exec (.ptpCfg r) s = .next (u.reply r b St.ok 0 []).drain := by
  show (s.plain r 0x61 16 false (fun _ => true) ptpCfgBody).done = _
  rw [State.plain_starts hs rfl, hb]
  rfl

/-- PTP_CFG for no port, with a domain, a priority and intervals in range. -/
def ptpCfgPacket : List Byte := [0x61, 0, 4, 0, 0, 0, 0, 0, 0, 0, 0, 0, 1, 0, 0, 0]

/-- The packet may start; the filter of port 4, which has no link, is said to hold 1025 addresses, and the register behind the ports is not
zero. -/
def overlongPtp : State :=
  { State.reset with
    regs := [(mcfLo 4 1024, 1), (R.CMD_CTRL, 1), (R.RPL_SIZE, 2)]
    cmd := { Cmd.reset with ring0 := ⟨[ptpCfgPacket]⟩ }
    mac := { Mac.reset with mcf := [(4, List.replicate 1025 0)] } }

theorem overlongPtp_starts : Starts overlongPtp .pf0 0x61 16 false ptpCfgPacket :=
  ⟨by decide +kernel, by decide +kernel, by decide +kernel, nofun⟩

/-- The settings wait; the filters are to follow. -/
def overlongPtpTaken : State :=
  let u := overlongPtp.popHead .pf0
  { u with tim := { u.tim with ptpNext := some ⟨0, 0, 0, 0, 1, 0, 0⟩ } }

theorem overlongPtp_body : ptpCfgBody ptpCfgPacket (overlongPtp.popHead .pf0) = ⟨St.ok, [], overlongPtpTaken.mcSync⟩ := by
  unfold ptpCfgBody
  exact checked_pass (by decide +kernel)

/-- The filters of ports 0 to 3 have followed. -/
def overlongPtpBefore4 : State := overlongPtpTaken.mcBefore4

theorem overlongPtpTaken_mcSync : overlongPtpTaken.mcSync = (overlongPtpBefore4.mcFilter 4 []).mcChange 4 := by
  have hrun : overlongPtpTaken.fwRuns = true := by decide +kernel
  have hm : overlongPtpBefore4.mcMacs 4 = [] := by decide +kernel
  have h : overlongPtpTaken.mcSync = (overlongPtpBefore4.mcFilter 4 (overlongPtpBefore4.mcMacs 4)).mcChange 4 := State.mcSync_last hrun
  rw [h, hm]

/-- Bringing the filters up to date clears the register behind the ports, and leaves the commands. -/
theorem overlongPtpTaken_follows : overlongPtpTaken.mcSync.rd (mcfLo 4 1024) = 0 ∧ overlongPtpTaken.mcSync.NoneLate := by
  have hn : (mgetD overlongPtpBefore4.mac.mcf 4 []).length = 1024 + 1 := by decide +kernel
  have hl : overlongPtpBefore4.portLink 4 = false := by decide +kernel
  have hc : overlongPtpBefore4.cmd.late = [] := by decide +kernel
  obtain ⟨hz, hcmd⟩ := State.mcNil_unlinked (by decide) hn hl
  rw [overlongPtpTaken_mcSync]
  refine ⟨hz, fun l hl => ?_⟩
  rw [hcmd, hc] at hl
  cases hl

/-- PTP_CFG leaves the register behind the ports at zero. -/
theorem overlongPtp_cleared : ∃ t, exec (.ptpCfg .pf0) overlongPtp = .next t ∧ t.rd (mcfLo 4 1024) = 0 := by
  obtain ⟨hz, hlate⟩ := overlongPtpTaken_follows
  refine ⟨_, exec_ptpCfg_of_ok overlongPtp_starts overlongPtp_body, ?_⟩
  rw [State.drain_rd _ (by decide +kernel), State.reply_rd hlate _ _ _ (by decide) (by decide +kernel), hz]

end Sys2Proof.Machine
end

section
open Sys2Proof Sys2Proof.Machine

/-- Refutes O6: PTP_CFG with values in range changes a register beyond the ports' in a state whose list of port 4's multicast filter is longer
than the filter. -/
theorem not_peerDelayMessagesLeaveWithTheirStamps : ¬ Obligations.PeerDelayMessagesLeaveWithTheirStamps := by
  intro h
  obtain ⟨t, hx, -, -, -, -, hframe⟩ := (h.1 overlongPtp .pf0 ptpCfgPacket overlongPtp_starts).1 (by decide +kernel)
  obtain ⟨u, hu, hz⟩ := overlongPtp_cleared
  have ht : t = u := Host.Outcome.next.inj (hx.symm.trans hu)
  have hsame : t.rd (mcfLo 4 1024) = overlongPtp.rd (mcfLo 4 1024) := hframe.regs _ (by decide) (by decide +kernel)
  rw [ht, hz] at hsame
  exact absurd hsame (by decide +kernel)

end

section
namespace Sys2Proof.Machine

/-! ### A LEAVE frame that is due on a port the unit does not have (R252)

CAS_CTRL.PORT is three bits wide. A register write of 5 to 7 is refused, but the state space holds such values: a frame that goes out there is
refused, and counted in the register where port 7's counters would lie. -/

/-- CAS_CTRL.PORT is 7 and a LEAVE frame is due. -/
def leaveOnPort7 : State :=
  { State.reset with regs := [(R.CAS_CTRL, 0x70)], cas := { Cas.reset with leave := [(0, (0, []))] } }

/-- The counter of refused frames (R343) of the port without hardware. -/
def refused7 : Nat := (macCnt 7 15).addr

/-- The tick sends the frame, and the refusal counts. -/
theorem leaveOnPort7_counts : leaveOnPort7.tick.leaveDue.rd refused7 = 1 := by
  decide +kernel

end Sys2Proof.Machine
end

section
open Sys2Proof Sys2Proof.Machine

/-- Refutes O58: the tick of an empty queue may count in a register outside the five ports' counters, where CAS_CTRL.PORT names none of them
and a LEAVE frame is due. -/
theorem not_stepRunsTheFrontCommand : ¬ Obligations.StepRunsTheFrontCommand := by
  intro h
  obtain ⟨t, hstep, -, -, -, hframe⟩ := h.2 leaveOnPort7 rfl
  have ht : leaveOnPort7.tick.leaveDue = t := Host.Outcome.next.inj hstep
  have hsame : t.rd refused7 = leaveOnPort7.rd refused7 := hframe.regs refused7 (by decide +kernel) (by decide +kernel)
  rw [← ht, leaveOnPort7_counts] at hsame
  exact absurd hsame (by decide +kernel)

end

section
namespace Sys2Proof.Machine

/-! ### The state after reset -/

theorem reset_regsCanon : RegsCanon State.reset := by
  show mcanon 0 State.reset.regs = true
  decide +kernel

theorem reset_dbgLegal : DbgLegal State.reset := by
  unfold DbgLegal
  decide +kernel

/-- The reset values of the time base (R48, R54, R66). -/
theorem reset_timeBase : State.reset.incr = 2236962133333 ∧ State.reset.get F.TIM_SERVO_UNC = 0xFFFFFF ∧
    State.reset.get F.TIM_SERVO_TMO_TMO = 2000 := by
  decide +kernel

/-- The reset values of the set manager's quotas (R106). -/
theorem reset_quotas : State.reset.quota 0 = 5120 ∧ State.reset.quota 1 = 256 ∧ State.reset.quota 2 = 1024 ∧ State.reset.quota 3 = 1024 ∧
    State.reset.quota 4 = 128 ∧ State.reset.quota 5 = 384 ∧ State.reset.quota 6 = 64 ∧ State.reset.get F.SET_QUOTA_SPARE_QUOTA = 192 := by
  decide +kernel

/-- The reset values of the alignment and of the computing units (R146, R154, R163, R193, R262, R311, R384, R492). -/
theorem reset_units : State.reset.get F.ALN_WAITINIT_US = 20000 ∧ State.reset.get F.ALN_LEARN_Q = 250 ∧
    State.reset.get F.ALN_EPOCH_LEAD_US = 1000 ∧ State.reset.flag F.ANG_CTRL_LIM_EN = true ∧ State.reset.get F.ISL_PERSIST_PERSIST = 2 ∧
    State.reset.flag F.FLT_CTRL_EN = false ∧ State.reset.get F.NRG_SAVE_MS = 1000 ∧ State.reset.flag F.TWN_CTRL_REVERT_EN = true ∧
    State.reset.flag F.BOOT_STAT_READY = false := by
  decide +kernel

end Sys2Proof.Machine
end

section
open Sys2Proof Sys2Proof.Machine

/-- Settles O59: the store's form, the lock, the empty tables by computation, and the registers family by family. -/
theorem resetLeavesTheStatedValues : Obligations.ResetLeavesTheStatedValues := by
  obtain ⟨hi, hu, ht⟩ := reset_timeBase
  obtain ⟨q0, q1, q2, q3, q4, q5, q6, qs⟩ := reset_quotas
  exact ⟨reset_regsCanon, reset_dbgLegal, rfl, rfl, rfl, rfl, rfl, rfl, rfl, rfl, rfl, rfl, rfl, rfl, rfl, rfl, rfl,
    hi, hu, ht, q0, q1, q2, q3, q4, q5, q6, qs, reset_units⟩

end

section
namespace Sys2Proof.Machine

/-! ### A write of ALN_CTRL at which a cadence change takes effect (R156, R233) -/

/-- Alignment is off at 120 reports/s; a change to 100 reports/s has reached its second. An output group sends 60 reports/s. -/
def cadenceDue : State :=
  { State.reset with
    aln := { Aln.reset with cadDue := some (8, 0) }
    outp := { OutSt.reset with epochs := [⟨0, [(0, (⟨false, 7, 1, 1000000, [], []⟩, []))], [], [], []⟩] } }

/-- The write of EN = 1 switches the cadence, and the output groups take note of the one whose rate stops fitting. -/
theorem cadenceDue_switches : (cadenceDue.alnCtrlWrite 1).outp.rateBad = [0] := by decide +kernel

theorem cadenceDue_mayWrite : cadenceDue.mayWrite .pf0 R.ALN_CTRL := ⟨rfl, nofun⟩

end Sys2Proof.Machine
end

section
open Sys2Proof Sys2Proof.Machine

/-- Refutes O17: a write of ALN_CTRL that sets EN where a cadence change is due does not change the alignment's and the ingest's state alone.
The output groups whose rate does not fit the new cadence are marked (R233). -/
theorem not_alignmentRunsAndLearnsWaits : ¬ Obligations.AlignmentRunsAndLearnsWaits := by
  intro h
  obtain ⟨t, hx, -, hframe⟩ := h.2 cadenceDue _ .pf0 1 cadenceDue_mayWrite rfl
  have hs : exec (.alnCtrlWrite .pf0 1) cadenceDue = (cadenceDue.alnCtrlWrite 1).done :=
    congrArg State.done (State.gate_may cadenceDue_mayWrite fun s => s.alnCtrlWrite 1)
  have ht : t = (cadenceDue.alnCtrlWrite 1).drain := Host.Outcome.next.inj (hx.symm.trans hs)
  have hsame : t.outp = cadenceDue.outp := hframe.parts .outp (by simp)
  rw [ht, State.drain_outp] at hsame
  have hbad := cadenceDue_switches
  rw [hsame] at hbad
  cases hbad

end

section
namespace Sys2Proof.Machine

variable {ps : List Part} {rs : Nat → Bool} {s t : State}

/-! ### What opening an instant leaves alone where no boundary is pending (R134, R156) -/

theorem Frame.modStat (h : Frame ps rs s t) (hp : Part.ing ∈ ps) (k : Nat) (f : SStat → SStat) : Frame ps rs s (t.modStat k f) :=
  h.put_ing hp _

theorem Frame.modInst (h : Frame ps rs s t) (hp : Part.aln ∈ ps) (g : Nat × Nat) (f : Inst → Inst) : Frame ps rs s (t.modInst g f) :=
  h.put_aln hp _

theorem Frame.outRates (h : Frame ps rs s t) (hp : Part.outp ∈ ps) : Frame ps rs s t.outRates :=
  (Frame.foldl _ _ h fun _ _ k => k.ev0 _).put_outp hp _

theorem Frame.outLayouts (h : Frame ps rs s t) (hp : Part.outp ∈ ps) (g : Nat × Nat) : Frame ps rs s (t.outLayouts g) := by
  unfold State.outLayouts
  split
  · exact h
  · exact Frame.ite h (Frame.foldl _ _ (h.put_outp hp _) fun _ _ k => k.ev0 _)

theorem Frame.dsFallback (h : Frame ps rs s t) (hp : Part.aln ∈ ps) (soc k : Nat) : Frame ps rs s (t.dsFallback soc k) :=
  (h.put_aln hp _).ev _ _ _

theorem Frame.switchCadence (h : Frame ps rs s t) (ha : Part.aln ∈ ps) (ho : Part.outp ∈ ps) (hr : rs R.ALN_STAT = true) :
    Frame ps rs s t.switchCadence := by
  unfold State.switchCadence
  split
  · exact h
  · refine Frame.ite (h.put_aln ha _) (Frame.foldl _ _ (Frame.outRates (Frame.ev0 (Frame.set ((h.put_aln ha _).put_aln ha _) _ _ ?_) _) ho)
      fun u p k => ?_)
    · exact Bool.or_eq_true_iff.mpr (.inl hr)
    · split
      · exact Frame.ite (k.dsFallback ha _ _) k
      · exact k

theorem Frame.switchBy (h : Frame ps rs s t) (ha : Part.aln ∈ ps) (ho : Part.outp ∈ ps) (hr : rs R.ALN_STAT = true) (soc : Nat) :
    Frame ps rs s (t.switchBy soc) := by
  unfold State.switchBy
  split
  · exact Frame.ite (h.switchCadence ha ho hr) h
  · exact h

theorem Frame.takeLearned (h : Frame ps rs s t) (hp : Part.ing ∈ ps) : Frame ps rs s t.takeLearned := by
  unfold State.takeLearned
  refine Frame.foldl _ _ (h.put_ing hp _) fun u p k => ?_
  exact Frame.ite (k.ev _ _ _) (Frame.ite k ((k.put_ing hp _).ev _ _ _))

/-- The parts and registers that opening an instant may change where no boundary is pending. -/
def openParts : List Part := [.aln, .ing, .outp]
def openRegs : List Nat := [R.ALN_STAT, R.ALN_WAIT_EFF]

theorem State.openNext_frame (hb : s.aln.bound = none) : Frame openParts (regsIn openRegs) s s.openNext := by
  unfold State.openNext
  split
  · exact Frame.refl _ _ s
  · rename_i i hi
    simp only [hb]
    have h := ((((Frame.refl openParts (regsIn openRegs) s).switchBy (by decide) (by decide) (by decide) i.1).takeLearned
      (by decide)).outLayouts (by decide) (i.1, instNs (rateOf ((s.switchBy i.1).takeLearned).aln.cad) i.2))
    exact (((h.put_aln (by decide) _).put_ing (by decide) _).set _ _ (by decide)).set _ _ (by decide)


@[simp] theorem State.outRates_aln (s : State) : s.outRates.aln = s.aln := ((Frame.refl [.outp] noRegs s).outRates (by simp)).parts .aln (by simp)

@[simp] theorem State.outLayouts_aln (s : State) (g : Nat × Nat) : (s.outLayouts g).aln = s.aln :=
  ((Frame.refl [.outp] noRegs s).outLayouts (by simp) g).parts .aln (by simp)

@[simp] theorem State.takeLearned_aln (s : State) : s.takeLearned.aln = s.aln :=
  ((Frame.refl [.ing] noRegs s).takeLearned (by simp)).parts .aln (by simp)

@[simp] theorem State.dsFallback_bound (s : State) (soc k : Nat) : (s.dsFallback soc k).aln.bound = s.aln.bound := by
  rw [State.dsFallback, State.ev_aln]

@[simp] theorem State.switchCadence_bound (s : State) : s.switchCadence.aln.bound = s.aln.bound := by
  unfold State.switchCadence
  split
  · rfl
  · dsimp only
    split
    · rfl
    · refine List.foldlRecOn (motive := fun u : State => u.aln.bound = s.aln.bound) _ _ (by simp) fun u hu p _ => ?_
      split
      · split
        · rw [State.dsFallback_bound, hu]
        · exact hu
      · exact hu

@[simp] theorem State.switchBy_bound (s : State) (soc : Nat) : (s.switchBy soc).aln.bound = s.aln.bound := by
  unfold State.switchBy
  split
  · split
    · exact s.switchCadence_bound
    · rfl
  · rfl

/-- Opening an instant makes no boundary pending. -/
theorem State.openNext_bound (hb : s.aln.bound = none) : s.openNext.aln.bound = none := by
  unfold State.openNext
  split
  · exact hb
  · simp [State.inflightSync, State.demForget, hb]

/-- Opening instants changes no register but those of the alignment, where no boundary is pending. -/
theorem State.openTo_frame (hb : s.aln.bound = none) (g : Nat × Nat) (n : Nat) : Frame openParts (regsIn openRegs) s (s.openTo g n) := by
  induction n generalizing s with
  | zero => exact Frame.refl _ _ s
  | succ n ih =>
    unfold State.openTo
    split
    · exact Frame.refl _ _ s
    · split
      · exact Frame.refl _ _ s
      · exact (State.openNext_frame hb).trans (ih (State.openNext_bound hb))

/-- An instant at or after the pending boundary opens as it does once the boundary has taken effect. -/
theorem State.openNext_crosses {i b : Nat × Nat} (hn : s.aln.next = some i) (hb : s.aln.bound = some b) (hle : ukey b ≤ ukey (s.instTag i))
    (hn' : (s.enterEpoch b (s.instTag i)).aln.next = some i) (hb' : (s.enterEpoch b (s.instTag i)).aln.bound = none) :
    s.openNext = (s.enterEpoch b (s.instTag i)).openNext := by
  unfold State.openNext
  simp only [hn, hb, hn', hb', if_pos hle]

/-! ### The registers while a record is placed in its instant (R133, R151) -/

@[simp] theorem State.modPage_regs (s : State) (id : Nat) (f : Page → Page) : (s.modPage id f).regs = s.regs := by
  unfold State.modPage; split <;> rfl

@[simp] theorem State.modInst_regs (s : State) (g : Nat × Nat) (f : Inst → Inst) : (s.modInst g f).regs = s.regs := rfl

@[simp] theorem State.instStore_regs (s : State) (g : Nat × Nat) (k : Nat) (ws : List SWord) (id : Nat) :
    (s.instStore g k ws id).regs = s.regs := by
  unfold State.instStore
  split
  · rfl
  · rw [State.modInst_regs, State.modPage_regs]

@[simp] theorem State.closeWindows_regs (s : State) (i : Inst) : (s.closeWindows i).1.regs = s.regs :=
  List.foldlRecOn (motive := fun u : State => u.regs = s.regs) _ _ rfl fun _ hu _ _ => hu

@[simp] theorem State.ready_regs (s : State) (g : Nat × Nat) (c : Cause) : (s.ready g c).regs = s.regs := by
  unfold State.ready
  split
  · rfl
  · split
    · rfl
    · rw [State.modInst_regs, State.closeWindows_regs]

@[simp] theorem State.complete_regs (s : State) (g : Nat × Nat) : (s.complete g).regs = s.regs := by
  unfold State.complete
  split
  · rfl
  · split
    · exact s.ready_regs g .all
    · rfl

@[simp] theorem State.windowPut_regs (s : State) (g : Nat × Nat) (fs ph an : Nat) (r : WinRec) : (s.windowPut g fs ph an r).regs = s.regs := by
  unfold State.windowPut
  split
  · rfl
  · dsimp only
    split
    · rfl
    · split
      · rfl
      · split
        · rfl
        · split
          · rfl
          · simp [State.putWords]

section place
variable {i : Nat × Nat} {id k rate arrival : Nat} {pd : Bool} {sh : Nat × Nat × Nat} {ws : List SWord}

/-- A record placed in an instant, for which a page can be had: what changes registers is the opening of instants up to its own. -/
theorem State.place_placed (h : (s.instPage (s.instTag i) ws.length).1 = some id) :
    (s.place (.placed i) pd k rate sh arrival ws).1 = true ∧ (s.place (.placed i) pd k rate sh arrival ws).2.regs =
      ((s.instPage (s.instTag i) ws.length).2.openTo (s.instTag i) 257).regs := by
  unfold State.place
  simp only [h]
  split
  · simp
  · simp

end place

end Sys2Proof.Machine
end

section
namespace Sys2Proof.Machine

variable {s t : State}

/-! ### A matched block that passes every step (R80 steps 6 to 13) -/

section block
variable {f : List Byte} {arrival k : Nat} {a : AuthRes} {e : Stream} {sd : Side} {sp : Span}

/-- A matched block of an enabled entry with a format, whose frame has the entry's length, goes on to be committed. -/
theorem State.ingestBlock_commits {ua : Bool} {x : Nat} (hp : s.cramPoisoned 0 k = false) (hen : bit e.flags 0 = true) (hsd : sd ≠ .early)
    (ha : authPolicy e (s.statIn (decide (sd = .pending)) k) a = (.inl ua, x)) (hw : (bit e.flags 2 && !e.learned) = false)
    (hf : be f 11 3 < e.timeBase) (hl : f.length = e.frameSize) :
    s.ingestBlock f arrival a (k, (e, sd, sp)) = (s.setAuth (decide (sd = .pending)) k x).commitBlock k (e, sd, sp) (be f 6 4)
      (nsOf (be f 11 3) e.timeBase) arrival (be f e.blockOfs 2)
      (makeRecord e k f arrival (be f 6 4) (nsOf (be f 11 3) e.timeBase) (le f 10 1) ua) a := by
  simp [State.ingestBlock, hp, hen, hsd, ha, hw, hf, hl]

/-- A committed record is placed as its class says, and counted. -/
theorem State.commitBlock_places {soc ns statBits newest map : Nat} {ws : List SWord} (hz : s.get F.ING_CTRL_HORIZON = 0) (hsd : sd ≠ .stale)
    (hx : (s.statIn (decide (sd = .pending)) k).window (slotOf (rateOf e.rate) soc ns) = .accept newest map false)
    (hpl : (s.place (s.classify k e.rate sp (soc, ns)) (decide (sd = .pending)) k e.rate (e.phnmr, e.annmr, e.dgnmr) arrival ws).1 = true) :
    s.commitBlock k (e, sd, sp) soc ns arrival statBits ws a =
      (s.place (s.classify k e.rate sp (soc, ns)) (decide (sd = .pending)) k e.rate (e.phnmr, e.annmr, e.dgnmr) arrival ws).2.commitStats
        (decide (sd = .pending)) k soc ns arrival statBits newest map a := by
  simp [State.commitBlock, hz, hsd, hx, hpl]

end block

@[simp] theorem State.modStatIn_regs (s : State) (pd : Bool) (k : Nat) (f : SStat → SStat) : (s.modStatIn pd k f).regs = s.regs := by
  unfold State.modStatIn
  split <;> rfl

@[simp] theorem State.histAdd_regs (s : State) (pd : Bool) (k : Nat) (lat : Int) : (s.histAdd pd k lat).regs = s.regs := by
  unfold State.histAdd
  split
  · rfl
  · exact s.modStatIn_regs pd k _

/-- Of the registers the end of a commit changes the counter of accepted records alone. -/
theorem State.commitStats_regs (s : State) (pd : Bool) (k soc ns arrival statBits newest map : Nat) (a : AuthRes) :
    (s.commitStats pd k soc ns arrival statBits newest map a).regs = (s.inc64 R.ING_CNT_ACCEPT_LO R.ING_CNT_ACCEPT_HI).regs := by
  have due (c : Bool) (u : State) (x : Ing) : (if c = true then { u with ing := x } else u).regs = u.regs := by cases c <;> rfl
  unfold State.commitStats
  rw [State.histAdd_regs, due]
  cases a
  all_goals simp only [State.modStatIn_regs]

/-- A 64-bit counter advances by one. -/
theorem State.get64_inc64 {lo hi : Nat} (h : lo ≠ hi) (s : State) : (s.inc64 lo hi).get64 lo hi = (s.get64 lo hi + 1) % 2 ^ 64 := by
  have hl : ((s.inc64 lo hi).rd lo).toNat = (s.get64 lo hi + 1) % 2 ^ 32 := by
    rw [State.inc64, State.rd_wr_ne _ _ h, State.rd_wr_self, BitVec.toNat_ofNat, State.get64]
  have hh : ((s.inc64 lo hi).rd hi).toNat = (s.get64 lo hi + 1) / 2 ^ 32 % 2 ^ 32 := by
    rw [State.inc64, State.rd_wr_self, BitVec.toNat_ofNat, State.get64]
  rw [State.get64, hl, hh]
  omega

end Sys2Proof.Machine
end

section
namespace Sys2Proof.Machine

variable {s : State} {p n j : Nat}

/-! ### A boundary that opens while a multicast filter is longer than its 64 entries (R154, R344)

As with O6 and O41, a list of more than 64 addresses, which no command makes, reaches the registers behind the filter: from entry 3840 on,
those of the ingest. A frame whose instant lies at a pending boundary puts the boundary into effect when it is placed, and the filters follow. -/

theorem State.mcEntry_rd_other (s : State) (p : Nat) {i j : Nat} (mac : Option Nat) (h : j ≠ i) :
    (s.mcEntry p i mac).rd (mcfLo p j) = s.rd (mcfLo p j) := by
  have hlo : mcfLo p j ≠ mcfLo p i := by unfold mcfLo; omega
  have hhi : mcfLo p j ≠ 0x20804 + 0x2000 * p + 8 * i := by unfold mcfLo; omega
  exact (State.rd_set_ne _ _ hhi).trans ((State.rd_set_ne _ _ hhi).trans (State.rd_set_ne _ _ hlo))

/-- Entries emptied one after the other have no address. -/
theorem State.mcEntries_none_rd (s : State) (p : Nat) (h : j < n) :
    ((List.range n).foldl (fun (s : State) i => s.mcEntry p i none) s).rd (mcfLo p j) = 0 := by
  induction n with
  | zero => omega
  | succ n ih =>
    rw [List.range_succ, List.foldl_append, List.foldl_cons, List.foldl_nil]
    by_cases hj : j = n
    · rw [hj, State.mcEntry_none_rd]
    · rw [State.mcEntry_rd_other _ _ _ hj, ih (by omega)]

/-- Emptying a filter clears the low dword of every entry it is said to hold. -/
theorem State.mcFilter_nil_clears (h : j < (mgetD s.mac.mcf p []).length) : (s.mcFilter p []).rd (mcfLo p j) = 0 := by
  have hw : ¬ (mgetD s.mac.mcf p [] == []) = true := fun e => by
    rw [eq_of_beq e] at h
    exact absurd h (Nat.not_lt_zero _)
  rw [State.mcFilter, if_neg hw, List.length_nil, Nat.max_zero]
  exact State.mcEntries_none_rd s p h

/-- Emptying the filter of a port without a link: its entries read zero, and the registers of other blocks before it and the other parts stay. -/
theorem State.mcNil_unlinked_clears (hp : p < 5) (hl : s.portLink p = false) :
    (∀ j < (mgetD s.mac.mcf p []).length, ((s.mcFilter p []).mcChange p).rd (mcfLo p j) = 0) ∧
      Frame [.mac] (mcfOn p) s ((s.mcFilter p []).mcChange p) := by
  have hf := s.mcFilter_frame p []
  have ha : mcfOn p (pfld F.MAC_STAT_P_LINK p).addr = false := decide_eq_false (by show ¬ _ ≤ 0x20004 + 0x2000 * p; omega)
  have hlog : logReg (pfld F.MAC_STAT_P_LINK p).addr = false := (by decide : ∀ p < 5, logReg (pfld F.MAC_STAT_P_LINK p).addr = false) p hp
  have hlink : (s.mcFilter p []).portLink p = false := (hf.flag ha hlog).trans hl
  rw [State.mcChange_unlinked hlink]
  exact ⟨fun j hj => State.mcFilter_nil_clears hj, hf.put_mac (by simp) _⟩

/-- A C37.118 data frame of IDCODE 7 with the time of second 100, of one block without phasors. -/
def dueFrame : List Byte := [0xAA, 0x01, 0, 22, 0, 7, 0, 0, 0, 100, 0, 0, 0, 0, 0, 0, 0, 0, 0, 0, 0xF9, 0x17]

/-- The IPv4 datagram that carries it to UDP port 4713. -/
def dueDatagram : RxDatagram :=
  { port := 0, tick := 0, arrival := 0
    packet := [0x45, 0, 0, 50, 0, 0, 0, 0, 64, 17, 0x66, 0xB9, 10, 0, 0, 1, 10, 0, 0, 2, 0x12, 0x69, 0x12, 0x69, 0, 30, 0, 0] ++ dueFrame }

/-- The entry of a stream of 120 reports/s that such frames belong to, with the FLAGS given. -/
def dueEntry (flags : Nat) : Stream :=
  { idcode := 7, udpPort := 4713, cmdPort := 0, addr := 0xFFFF * 2 ^ 32 + 0x0A000001, flags := flags, rate := 9, format := 0, fnom := 0,
    phnmr := 0, annmr := 0, dgnmr := 0, block := 0, nblocks := 1, blockOfs := 14, frameSize := 22, keyGroup := 0, timeBase := 1000000,
    scale := [], learned := false, fresh := false }

/-- Streams 0, of the network, and 1, injected, are enabled. The next instant is that of second 100, and so is the pending boundary, which
deletes both streams. The filter of port 4, which has no link, is said to hold 3867 addresses. -/
def overlongBoundary : State :=
  { State.reset with
    regs := [(R.ING_CTRL, 3), (R.ING_CNT_ACCEPT_LO, 5), (R.ING_INJ_SIZE, 16), (R.ING_INJ_PROD, 6), (R.ING_INJ_CONS, 5), (R.SET_CTRL, 1),
      (R.SET_QUOTA_ALIGN, 1), (R.ALN_CTRL, 1)]
    cmd := { Cmd.reset with epochs := [(0, [])] }
    irq := { Irq.reset with fn0 := { PcieFn.reset with bme := true } }
    ing := { Ing.reset with streams := { (Tbl.empty : Tbl Stream) with
      eff := [(0, dueEntry 1), (1, dueEntry 3)], pend := [(0, none), (1, none)] } }
    aln := { Aln.reset with next := some (100, 0), bound := some (100, 0) }
    mac := { Mac.reset with mcf := [(4, List.replicate 3867 0)] } }

/-- The page that the record needs has been taken. -/
def overlongPaged : State := (overlongBoundary.alloc 0 [] [.inst]).2

/-- What follows the multicast joins when a boundary takes effect: a twin's sum of its configuration. -/
def State.cfgSummed (s : State) : State :=
  if s.twin then s.fresh.2.put64 R.TWN_CFGSUM_LO R.TWN_CFGSUM_HI s.fresh.1 else s

theorem State.cfgSummed_frame (s : State) : Frame [] (regsIn [R.TWN_CFGSUM_LO, R.TWN_CFGSUM_HI]) s s.cfgSummed :=
  .ite ((Frame.refl _ _ s).fresh.put64 _ _ _ (by decide) (by decide)) (.refl _ _ s)

/-- The state in which the filters are brought up to date, those of ports 0 to 3 having followed. -/
structure BeforeFilter4 (y : State) : Prop where
  macs : y.mcMacs 4 = []
  link : y.portLink 4 = false
  long : (mgetD y.mac.mcf 4 []).length = 3867
  bound : y.aln.bound = none
  next : y.aln.next = some (100, 0)

theorem overlongPaged_enters : ∃ x : State, overlongPaged.enterEpoch (100, 0) (100, 0) = (x.mcSync.cfgSummed).ev0 Ev.ALN_EPOCH ∧
    x.fwRuns = true ∧ BeforeFilter4 x.mcBefore4 :=
  ⟨_, rfl, by decide +kernel, by decide +kernel, by decide +kernel, by decide +kernel, by decide +kernel, by decide +kernel⟩

/-- The boundary has taken effect, and clears the counter of accepted records and CONS of the injection ring. -/
structure Cleared (t : State) : Prop where
  accept : t.rd R.ING_CNT_ACCEPT_LO = 0
  cons : t.rd R.ING_INJ_CONS = 0

theorem overlongPaged_entered : let t := overlongPaged.enterEpoch (100, 0) (100, 0)
    Cleared t ∧ t.aln.bound = none ∧ t.aln.next = some (100, 0) := by
  obtain ⟨x, he, hrun, hy⟩ := overlongPaged_enters
  intro t
  obtain ⟨hz, hm⟩ := State.mcNil_unlinked_clears (by decide) hy.link
  have hs : x.mcSync = (x.mcBefore4.mcFilter 4 []).mcChange 4 := by rw [State.mcSync_last hrun, hy.macs]
  rw [← hs] at hz hm
  have hf : Frame [] (regsIn [R.TWN_CFGSUM_LO, R.TWN_CFGSUM_HI]) x.mcSync t := by
    show Frame _ _ _ (overlongPaged.enterEpoch _ _)
    rw [he]
    exact x.mcSync.cfgSummed_frame.ev0 _
  have ha : t.aln = x.mcBefore4.aln := (hf.parts .aln (by simp)).trans (hm.parts .aln (by simp))
  refine ⟨⟨?_, ?_⟩, ?_, ?_⟩
  · exact (hf.regs _ (by decide) (by decide)).trans (hz 3848 (by rw [hy.long]; decide))
  · exact (hf.regs _ (by decide) (by decide)).trans (hz 3866 (by rw [hy.long]; decide))
  · rw [ha, hy.bound]
  · rw [ha, hy.next]

theorem Cleared.frame {rs : Nat → Bool} {ps : List Part} {t u : State} (h : Cleared t) (hf : Frame ps rs t u) (ha : rs R.ING_CNT_ACCEPT_LO = false)
    (hc : rs R.ING_INJ_CONS = false) : Cleared u :=
  ⟨(hf.regs _ ha (by decide)).trans h.accept, (hf.regs _ hc (by decide)).trans h.cons⟩

theorem overlongPaged_opens : Cleared (overlongPaged.openTo (100, 0) 257) := by
  have hn : overlongPaged.aln.next = some (100, 0) := by decide +kernel
  have hb : overlongPaged.aln.bound = some (100, 0) := by decide +kernel
  have htag : overlongPaged.instTag (100, 0) = (100, 0) := by decide +kernel
  obtain ⟨hc, hb', hn'⟩ := overlongPaged_entered
  have hx : overlongPaged.openNext = (overlongPaged.enterEpoch (100, 0) (100, 0)).openNext := by
    have h := State.openNext_crosses hn hb
    rw [htag] at h
    exact h (by decide) hn' hb'
  have ho : overlongPaged.openTo (100, 0) 257 = (overlongPaged.enterEpoch (100, 0) (100, 0)).openNext.openTo (100, 0) 256 := by
    rw [State.openTo, hn]
    dsimp only
    rw [htag, if_neg (by decide), hx]
  rw [ho]
  exact hc.frame ((State.openNext_frame hb').trans (State.openTo_frame (State.openNext_bound hb') _ _)) (by decide) (by decide)

/-- A record placed in the instant finds the counter and CONS cleared. -/
theorem overlongBoundary_places (pd : Bool) (k rate arrival : Nat) (sh : Nat × Nat × Nat) (ws : List SWord) :
    let x := overlongBoundary.place (.placed (100, 0)) pd k rate sh arrival ws
    x.1 = true ∧ Cleared x.2 := by
  have htag : overlongBoundary.instTag (100, 0) = (100, 0) := by decide +kernel
  have hi : overlongBoundary.instPage (100, 0) ws.length = overlongBoundary.alloc 0 [] [.inst] := rfl
  have hid : (overlongBoundary.alloc 0 [] [.inst]).1 = some 0 := by decide +kernel
  obtain ⟨h1, h2⟩ := State.place_placed (s := overlongBoundary) (i := (100, 0)) (id := 0) (k := k) (rate := rate) (arrival := arrival)
    (pd := pd) (sh := sh) (ws := ws) (by rw [htag, hi, hid])
  rw [htag, hi] at h2
  have rd (a : Nat) : (overlongBoundary.place (.placed (100, 0)) pd k rate sh arrival ws).2.rd a =
      (overlongPaged.openTo (100, 0) 257).rd a := congrArg (fun m => mgetD m a 0) h2
  exact ⟨h1, (rd _).trans overlongPaged_opens.accept, (rd _).trans overlongPaged_opens.cons⟩

end Sys2Proof.Machine
end

section
namespace Sys2Proof.Machine

variable {s : State}

/-- What is said of the frame: it is a good data frame of its stream, with the length of the entry. -/
structure GoodFrame (f : List Byte) : Prop where
  ok : c37Ok f = true
  crc : c37Crc f = true
  type : c37Type f = 0
  soc : be f 6 4 = 100
  frac : be f 11 3 = 0
  length : f.length = 22

theorem dueFrame_good : GoodFrame dueFrame :=
  ⟨by decide +kernel, by decide +kernel, by decide +kernel, by decide +kernel, by decide +kernel, rfl⟩

/-- The frame is accepted, and its record counted from the cleared counter. -/
theorem overlongBoundary_accepts {k flags : Nat} (arrival : Nat) (hk : overlongBoundary.classify k 9 Span.all (100, 0) = .placed (100, 0))
    (hen : bit flags 0 = true) (hauth : bit flags 3 = false) (hlearn : bit flags 2 = false) :
    ∃ c : State, Cleared c ∧ (overlongBoundary.ingestBlock dueFrame arrival .plain (k, (dueEntry flags, .now, Span.all))).regs =
      (c.inc64 R.ING_CNT_ACCEPT_LO R.ING_CNT_ACCEPT_HI).regs := by
  have hpol : authPolicy (dueEntry flags) (overlongBoundary.statIn (decide (Side.now = .pending)) k) .plain = (.inl false, 0) := by
    show (if bit flags 3 then _ else _) = _
    rw [hauth]
    rfl
  have hset : overlongBoundary.setAuth (decide (Side.now = .pending)) k 0 = overlongBoundary := rfl
  have hns : nsOf 0 (dueEntry flags).timeBase = 0 := by
    show nsOf 0 1000000 = 0
    decide
  have hcl : overlongBoundary.classify k (dueEntry flags).rate Span.all (100, 0) = .placed (100, 0) := hk
  obtain ⟨hpl, hc⟩ := overlongBoundary_places false k 9 arrival (0, 0, 0)
    (makeRecord (dueEntry flags) k dueFrame arrival 100 0 (le dueFrame 10 1) false)
  refine ⟨_, hc, ?_⟩
  rw [State.ingestBlock_commits rfl hen (by simp) hpol (by rw [dueEntry, hlearn]; rfl)
    (by rw [dueFrame_good.frac]; show 0 < 1000000; decide) dueFrame_good.length, hset, dueFrame_good.soc, dueFrame_good.frac, hns,
    State.commitBlock_places (newest := slotOf 120 100 0) (map := 1) (by decide +kernel) (by simp) rfl (by rw [hcl]; exact hpl), hcl]
  exact State.commitStats_regs _ _ _ _ _ _ _ _ _ _

end Sys2Proof.Machine
end

section
namespace Sys2Proof.Machine

variable {s : State}

/-! ### The datagram, and the entry of the injection ring, that bring the frame (R80, R97) -/

/-- With ingest enabled, a good datagram of no session has its frame checked. -/
theorem State.ingestDatagram_plain {d : RxDatagram} (hen : s.flag F.ING_CTRL_EN = true) (hip : ipOk d.packet = true)
    (hl : s.udpListed (udpDport d.packet) ≠ some true) : s.ingestDatagram d = s.ingestFrame d (udpData d.packet) .plain := by
  rcases h : s.udpListed (udpDport d.packet) with _ | _ | _
  · simp [State.ingestDatagram, hen, hip, h]
  · simp [State.ingestDatagram, hen, hip, h]
  · exact absurd h hl

/-- A good data frame is taken by the entries that its key and tag match. -/
theorem State.ingestFrame_data {d : RxDatagram} {f : List Byte} {a : AuthRes} {m : Nat × Match} (hf : GoodFrame f)
    (hm : s.lookup (ipSrc d.packet) (udpDport d.packet) (be f 4 2) (be f 6 4) (be f 11 3) = [m]) :
    s.ingestFrame d f a = s.ingestBlock f (d.arrival / 2 ^ 40) a m := by
  simp [State.ingestFrame, hf.ok, hf.crc, hf.type, hm]

/-- The datagram waits. -/
def overlongArrived : State := { overlongBoundary with ing := { overlongBoundary.ing with rxq := [dueDatagram] } }

theorem dueDatagram_good : ipOk dueDatagram.packet = true ∧ udpData dueDatagram.packet = dueFrame ∧ overlongBoundary.udpListed (udpDport dueDatagram.packet) = none ∧
    overlongBoundary.flag F.ING_CTRL_EN = true :=
  ⟨by decide +kernel, by decide +kernel, by decide +kernel, by decide +kernel⟩

theorem dueDatagram_matches : overlongBoundary.lookup (ipSrc dueDatagram.packet) (udpDport dueDatagram.packet) (be dueFrame 4 2) (be dueFrame 6 4) (be dueFrame 11 3) =
    [(0, dueEntry 1, .now, Span.all)] := by decide +kernel

/-- The oldest datagram is taken from the queue (R80). -/
theorem exec_dataFrameIngest {d : RxDatagram} {rest : List RxDatagram} (h : s.ing.rxq = d :: rest) :
    exec .dataFrameIngest s = .next (({ s with ing := { s.ing with rxq := rest } } : State).ingestDatagram d).drain := by
  show execDataFrameIngest s = _
  rw [execDataFrameIngest, h]
  rfl

theorem State.rd_congr_regs {t u : State} (h : t.regs = u.regs) (a : Nat) : t.rd a = u.rd a := by rw [State.rd, h, State.rd]

theorem State.get64_congr_regs {t u : State} (h : t.regs = u.regs) (lo hi : Nat) : t.get64 lo hi = u.get64 lo hi := by
  simp only [State.get64, State.rd, h]

/-- The block of the datagram's frame. -/
def overlongIngested : State := overlongBoundary.ingestBlock dueFrame 0 .plain (0, dueEntry 1, .now, Span.all)

theorem overlongBoundary_ingests : overlongBoundary.ingestDatagram dueDatagram = overlongIngested := by
  obtain ⟨hip, hf, hl, hen⟩ := dueDatagram_good
  rw [State.ingestDatagram_plain hen hip (by rw [hl]; nofun), hf, State.ingestFrame_data dueFrame_good dueDatagram_matches,
    overlongIngested, show dueDatagram.arrival / 2 ^ 40 = 0 by decide]

theorem overlongArrived_rest : ({ overlongArrived with ing := { overlongArrived.ing with rxq := [] } } : State) = overlongBoundary := rfl

theorem exec_overlongArrived : exec .dataFrameIngest overlongArrived = .next overlongIngested.drain := by
  rw [exec_dataFrameIngest (d := dueDatagram) (rest := []) rfl, overlongArrived_rest, overlongBoundary_ingests]

theorem overlongIngested_accept : overlongIngested.drain.get64 R.ING_CNT_ACCEPT_LO R.ING_CNT_ACCEPT_HI % 2 ^ 32 = 1 := by
  obtain ⟨c, hc, hr⟩ := overlongBoundary_accepts (k := 0) (flags := 1) 0 (by decide +kernel) rfl rfl rfl
  have he := State.get64_congr_regs hr R.ING_CNT_ACCEPT_LO R.ING_CNT_ACCEPT_HI
  rw [← overlongIngested] at he
  have hz : c.get64 R.ING_CNT_ACCEPT_LO R.ING_CNT_ACCEPT_HI = 2 ^ 32 * (c.rd R.ING_CNT_ACCEPT_HI).toNat := by
    rw [State.get64, hc.accept]
    exact Nat.zero_add _
  rw [State.drain_get64 _ (by decide) (by decide), he, State.get64_inc64 (by decide), hz]
  omega

/-- A finished entry moves CONS on (R97). -/
theorem State.injDone_cons (s : State) : s.injDone.get F.ING_INJ_CONS_CONS = (s.get F.ING_INJ_CONS_CONS + 1) % 2 ^ 16 := by
  have h := s.get_set_self (f := F.ING_INJ_CONS_CONS) (s.get F.ING_INJ_CONS_CONS + 1) (by decide)
  unfold State.injDone
  dsimp only
  split
  · exact (((Frame.refl [] noRegs _).raise (by decide)).get rfl (by decide)).trans h
  · exact h

/-- An entry of the ring for stream 1, with an arrival time of its own. -/
def dueRingEntry : List Byte := [0, 0, 0, 0, 0, 0, 0, 0, 22, 0, 1, 0, 1, 0, 0, 0, 0, 0, 0, 0, 0, 0, 0, 0]

/-- The block of the injected frame. -/
def overlongInjected : State := overlongBoundary.ingestBlock dueFrame 0 .plain (1, dueEntry 3, .now, Span.all)

theorem overlongInjected_cons : overlongInjected.rd R.ING_INJ_CONS = 0 := by
  obtain ⟨c, hc, hr⟩ := overlongBoundary_accepts (k := 1) (flags := 3) 0 (by decide +kernel) rfl rfl rfl
  have hi : (c.inc64 R.ING_CNT_ACCEPT_LO R.ING_CNT_ACCEPT_HI).rd R.ING_INJ_CONS = 0 := by
    rw [State.inc64, State.rd_wr_ne _ _ (by decide), State.rd_wr_ne _ _ (by decide), hc.cons]
  exact (State.rd_congr_regs hr _).trans hi

/-- An entry finished while CONS reads zero leaves it at one. -/
theorem State.injDone_cons_one (h : s.rd R.ING_INJ_CONS = 0) : s.injDone.drain.get F.ING_INJ_CONS_CONS = 1 := by
  have hg : s.get F.ING_INJ_CONS_CONS = 0 := by
    rw [State.get, show F.ING_INJ_CONS_CONS.addr = R.ING_INJ_CONS from rfl, h]
    decide
  rw [State.drain_get _ (by decide), State.injDone_cons, hg]
  rfl

end Sys2Proof.Machine
end

section
open Sys2Proof Sys2Proof.Machine

/-- Refutes O7: a frame that passes every step does not count one further in ACCEPT in a state whose list of port 4's multicast filter is longer
than the filter: placing its record opens the instant of a pending boundary, and bringing the filters up to date overwrites the counter. -/
theorem not_dataFrameStepsDiscardOrCommit : ¬ Obligations.DataFrameStepsDiscardOrCommit := by
  intro h
  obtain ⟨hip, hf, hl, hen⟩ := dueDatagram_good
  obtain ⟨-, -, -, -, hmatch⟩ := h.2 overlongArrived overlongBoundary dueDatagram [] dueFrame rfl rfl hf.symm hen hip
    (by rw [show overlongArrived.udpListed _ = _ from hl]; nofun)
  obtain ⟨-, -, hauth⟩ := hmatch 0 (dueEntry 1) .now Span.all dueFrame_good.ok dueFrame_good.crc dueFrame_good.type dueDatagram_matches
  obtain ⟨-, hplain⟩ := hauth (.inl false) 0 rfl rfl (by nofun) rfl
  obtain ⟨-, -, -, -, -, hwindow⟩ := hplain false _ _ _ rfl rfl rfl rfl
  have hfrac : be dueFrame 11 3 < (dueEntry 1).timeBase := by rw [dueFrame_good.frac]; show 0 < 1000000; decide
  obtain ⟨-, haccept⟩ := hwindow rfl hfrac dueFrame_good.length (fun hfut => hfut.1 (by decide +kernel)) nofun
  obtain ⟨-, hplaced, -⟩ := haccept (slotOf 120 100 0) 1 false rfl
  have hclass : (overlongBoundary.setAuth (decide (Side.now = .pending)) 0 0).classify 0 9 Span.all (be dueFrame 6 4, nsOf (be dueFrame 11 3) (dueEntry 1).timeBase) =
      .placed (100, 0) := by decide +kernel
  obtain ⟨t, hx, -, hcount⟩ := hplaced (by
    show (State.place _ (State.classify _ 0 9 Span.all _) _ _ _ _ _ _).1 = true
    rw [hclass]
    exact (overlongBoundary_places false 0 9 _ _ _).1)
  have ht : overlongIngested.drain = t :=
    Host.Outcome.next.inj (exec_overlongArrived.symm.trans hx)
  have hone := overlongIngested_accept
  rw [ht, hcount, show overlongArrived.get64 R.ING_CNT_ACCEPT_LO R.ING_CNT_ACCEPT_HI = 5 by decide +kernel] at hone
  exact absurd hone (by decide)

/-- Refutes O8: the entry of an injected frame that is taken does not move CONS on by one in a state whose list of port 4's multicast filter
is longer than the filter: placing its record opens the instant of a pending boundary, and bringing the filters up to date overwrites CONS. -/
theorem not_injectionRingIsConsumedEntryByEntry : ¬ Obligations.InjectionRingIsConsumedEntryByEntry := by
  intro h
  obtain ⟨-, -, hframe, -⟩ := h
  obtain ⟨-, -, -, -, hdata⟩ := hframe overlongBoundary dueRingEntry dueFrame dueFrame 0 (by decide +kernel) (by decide +kernel) (by decide +kernel)
    (by decide +kernel)
  obtain ⟨-, -, hmatch⟩ := hdata (by decide +kernel) dueFrame_good.ok dueFrame_good.crc dueFrame_good.type
  obtain ⟨t, -, ht, hcons⟩ := hmatch (dueEntry 3, .now, Span.all) (by decide +kernel) rfl
  have h1 : t.get F.ING_INJ_CONS_CONS = 1 := ht ▸ State.injDone_cons_one overlongInjected_cons
  rw [h1] at hcons
  exact absurd hcons (by decide +kernel)

end

section
namespace Sys2Proof.Machine

variable {ps : List Part} {rs : Nat → Bool} {s t : State}

/-! ### A frame offered to ports of the MAC (R348, R365) -/

/-- The state with another ingest part and another count of free values: neither is the MAC's. -/
def State.withIng (s : State) (x : Ing) (n : Nat) : State := { s with ing := x, freeCtr := n }

theorem Frame.withIng (h : Frame ps rs s t) (hp : Part.ing ∈ ps) (x : Ing) (n : Nat) : Frame ps rs s (t.withIng x n) :=
  (h.put_ing hp x).freeCtr n

theorem State.ev0_withIng (s : State) (x : Ing) (n c : Nat) : (s.withIng x n).ev0 c = (s.ev0 c).withIng x n := by
  have hr (k : Nat) : (s.withIng x n).raise k = (s.raise k).withIng x n := by
    show State.raiseOn _ _ _ (s.pf1En k) = (s.raiseOn _ _ (s.pf1En k)).withIng x n
    cases s.pf1En k <;> rfl
  unfold State.ev0 State.ev
  cases evSource c with
  | none =>
    dsimp only
    split <;> rfl
  | some k =>
    dsimp only
    rw [hr]
    split <;> rfl

theorem State.txOffer_withIng (s : State) (x : Ing) (n p : Nat) (f : TxFrame) :
    (s.withIng x n).txOffer p f = ((s.txOffer p f).1.withIng x n, (s.txOffer p f).2) := by
  have hr : (s.withIng x n).txRefused p f = s.txRefused p f := rfl
  unfold State.txOffer
  rw [hr]
  split
  · split
    · rfl
    · exact congrArg (·, false) (State.ev0_withIng (s.macInc p 15) x n _)
  · rfl

/-- What is sent does not depend on the ingest part. -/
theorem State.send_withIng (s : State) (x : Ing) (n p tc : Nat) (tag : TagWish) (kind : TxKind) (q : Option Nat) (dst et : Nat) (b : List Byte) :
    (s.withIng x n).send p tc tag kind q dst et b = ((s.send p tc tag kind q dst et b).1.withIng x n, (s.send p tc tag kind q dst et b).2) := by
  have hon : (s.withIng x n).prpOn p = s.prpOn p := rfl
  unfold State.send
  rw [hon]
  split
  · have ht : (if q.isNone then (s.withIng x n).inc F.MAC_PRP_SEQ_SEQ else s.withIng x n) =
        (if q.isNone then s.inc F.MAC_PRP_SEQ_SEQ else s).withIng x n := by split <;> rfl
    dsimp only
    rw [ht, State.txOffer_withIng, State.txOffer_withIng]
    rfl
  · exact State.txOffer_withIng s x n p _

theorem Frame.txOffer (h : Frame ps rs s t) (hm : Part.mac ∈ ps) {p : Nat} (hr : rs (macCnt p 15).addr = true) (f : TxFrame) :
    Frame ps rs s (t.txOffer p f).1 := by
  have hi : Frame ps rs s (t.macInc p 15) := h.inc _ (by rw [hr, Bool.true_or])
  unfold State.txOffer
  split
  · exact Frame.ite hi (hi.ev0 _)
  · exact h.put_mac hm _

/-- A send changes the ports' queues, the counters of refused frames and the PRP sequence number. -/
theorem Frame.send (h : Frame ps rs s t) (hm : Part.mac ∈ ps) (hr : ∀ p < 5, rs (macCnt p 15).addr = true) (hq : rs R.MAC_PRP_SEQ = true)
    {p : Nat} (hp : p < 5) (tc : Nat) (tag : TagWish) (kind : TxKind) (q : Option Nat) (dst et : Nat) (b : List Byte) :
    Frame ps rs s (t.send p tc tag kind q dst et b).1 := by
  unfold State.send
  split
  · have h' : Frame ps rs s (if q.isNone then t.inc F.MAC_PRP_SEQ_SEQ else t) :=
      Frame.ite (h.inc _ (by rw [show rs F.MAC_PRP_SEQ_SEQ.addr = true from hq, Bool.true_or])) h
    exact (h'.txOffer hm (hr 0 (by decide)) _).txOffer hm (hr 1 (by decide)) _
  · exact h.txOffer hm (hr p hp) _

/-! ### SEND_CFG2_REQUEST (R95) -/

/-- The registers that a send may change. -/
def sendReg (a : Nat) : Bool := (List.range 5).any (fun p => a == 0x2013C + 0x2000 * p) || a == R.MAC_PRP_SEQ

theorem sendReg_macCnt {p : Nat} (h : p < 5) : sendReg (macCnt p 15).addr = true :=
  Bool.or_eq_true_iff.mpr (.inl (List.any_eq_true.mpr ⟨p, List.mem_range.mpr h, beq_iff_eq.mpr (by show 0x20100 + 0x2000 * p + 4 * 15 = _; omega)⟩))

/-- The ingest part after a request for entry k at tick n. -/
def Ing.requested (x : Ing) (k n : Nat) : Ing := { x with cfgDue := sdel x.cfgDue k, cfgSent := mput x.cfgSent k n }

/-- The state at the instant of the request: not before one second after the last. -/
def State.requestTime (s : State) (k : Nat) : State :=
  match mget s.ing.cfgSent k with
  | some n => s.reach (n + ticksOfS 1)
  | none => s

theorem State.requestTime_frame (s : State) (k : Nat) : Frame [.tim] noRegs s (s.requestTime k) := by
  unfold State.requestTime
  split
  · exact s.reach_frame _
  · exact Frame.refl _ _ s

theorem State.requestTime_ing (s : State) (k : Nat) : (s.requestTime k).ing = s.ing := (s.requestTime_frame k).parts .ing (by simp)


section request
variable {k : Nat} {e : Stream}

/-- A due request of an entry that takes none: the time and the ingest part alone change. -/
theorem sendCfg2Request_silent (hd : k ∈ s.ing.cfgDue) (hf : s.fwRuns = true) (he : mget s.ing.streams.eff k = some e)
    (hn : e.cmdPort = 0 ∨ bit e.flags 1 = true) :
    Does (.sendCfg2Request k) s [.ing, .tim] noRegs fun t =>
      t.ing = s.ing.requested k (s.requestTime k).now ∧ t.tim = (s.requestTime k).tim := by
  have hx : exec (.sendCfg2Request k) s =
      ({ s.requestTime k with ing := (s.requestTime k).ing.requested k (s.requestTime k).now } : State).done := by
    show execSendCfg2Request k s = _
    have hc : (e.cmdPort == 0 || bit e.flags 1) = true := by simpa using hn
    simp only [execSendCfg2Request, List.contains_iff_mem.mpr hd, hf, Bool.and_self, if_true, he, hc]
    rfl
  have hr := s.requestTime_frame k
  refine ⟨_, hx, ⟨?_, ?_⟩, ?_⟩
  · rw [State.drain_ing, State.requestTime_ing]
  · rw [State.drain_tim]
  · exact ((hr.mono (by simp) fun _ h => h).put_ing (by simp) _).drain

/-- A due request of an entry with a command port: one frame goes out. -/
theorem sendCfg2Request_sends (hd : k ∈ s.ing.cfgDue) (hf : s.fwRuns = true) (he : mget s.ing.streams.eff k = some e)
    (hp : e.cmdPort ≠ 0) (hb : bit e.flags 1 = false) :
    let u := s.requestTime k
    let pk := udpPacket (Config.op "cmd.src" [k] % 2 ^ 128) e.addr (Config.op "cmd.sport" [k] % 65536) e.cmdPort (u.cmdFrame e.idcode 5)
    Does (.sendCfg2Request k) s [.ing, .mac, .tim] sendReg fun t => t.ing = s.ing.requested k u.now ∧ t.tim = u.tim ∧
      t.mac = (u.send (u.fresh.1 % 5) 0 .port .plain none (Config.op "cmd.mac" [k] % 2 ^ 48) pk.1 pk.2).1.mac := by
  intro u pk
  let w := u.withIng (u.ing.requested k u.now) (u.freeCtr + 1)
  have hx : exec (.sendCfg2Request k) s =
      (w.send (u.fresh.1 % 5) 0 .port .plain none (Config.op "cmd.mac" [k] % 2 ^ 48) pk.1 pk.2).1.done := by
    show execSendCfg2Request k s = _
    simp only [execSendCfg2Request, List.contains_iff_mem.mpr hd, hf, Bool.and_self, if_true, he, beq_false_of_ne hp, hb, Bool.or_self]
    rfl
  have hr : Frame [.ing, .mac, .tim] sendReg s u := (s.requestTime_frame k).mono (by simp) fun _ _ => rfl
  have hs (t : State) : Frame [.mac] sendReg t
      (t.send (u.fresh.1 % 5) 0 .port .plain none (Config.op "cmd.mac" [k] % 2 ^ 48) pk.1 pk.2).1 :=
    (Frame.refl _ _ t).send (by simp) (fun _ => sendReg_macCnt) rfl (Nat.mod_lt _ (by decide)) _ _ _ _ _ _ _
  refine ⟨_, hx, ⟨?_, ?_, ?_⟩, ?_⟩
  · rw [State.drain_ing, (hs w).parts .ing (by simp)]
    exact congrArg (Ing.requested · k _) (s.requestTime_ing k)
  · rw [State.drain_tim, (hs w).parts .tim (by simp)]
    rfl
  · rw [State.drain_mac, State.send_withIng]
    rfl
  · have hw : Frame [.ing, .mac, .tim] sendReg s w := hr.withIng (by simp) _ _
    exact (hw.trans ((hs w).mono (by simp) fun _ h => h)).drain

end request

/-! ### CFG_FRAME_RX (R94) -/

/-- What the firmware does with a configuration frame for one entry. -/
def State.learnFormat (s : State) (f : List Byte) (k : Nat) : State :=
  match mget s.ing.streams.eff k with
  | none => s
  | some e =>
    if !bit e.flags 2 then s
    else
      let x := if c37Type f == 3 then learnCfg2 e f else learnCfg3 e f
      if s.ing.streams.dirty.contains k then s.ev Ev.ING_CFG_CONFLICT k []
      else if x.shapeOk then { s with ing := { s.ing with learnNext := mput s.ing.learnNext k x, cfgDue := sdel s.ing.cfgDue k } }
      else s

theorem State.learnFrame_eq (s : State) (f : List Byte) (ks : List Nat) : s.learnFrame f ks = ks.foldl (fun u k => u.learnFormat f k) s := rfl

/-- Learned formats wait: t is s but for the formats learned for entries of `ks` and the requests that are due. -/
structure Learns (ks : List Nat) (s t : State) : Prop where
  frame : Frame [.ing] noRegs s t
  fwq : t.ing.fwq = s.ing.fwq
  streams : t.ing.streams = s.ing.streams
  stat : t.ing.stat = s.ing.stat
  others : ∀ k, k ∉ ks → mget t.ing.learnNext k = mget s.ing.learnNext k

theorem Learns.refl (ks : List Nat) (s : State) : Learns ks s s := ⟨Frame.refl _ _ s, rfl, rfl, rfl, fun _ _ => rfl⟩

theorem State.learnFormat_learns {ks : List Nat} {k : Nat} (h : Learns ks s t) (hk : k ∈ ks) (f : List Byte) : Learns ks s (t.learnFormat f k) := by
  have hput (y : Stream) : Learns ks s
      { t with ing := { t.ing with learnNext := mput t.ing.learnNext k y, cfgDue := sdel t.ing.cfgDue k } } :=
    ⟨h.frame.put_ing (by simp) _, h.fwq, h.streams, h.stat, fun j hj =>
      (mget_mput_ne _ _ fun e : j = k => hj (e ▸ hk)).trans (h.others j hj)⟩
  have hev : Learns ks s (t.ev Ev.ING_CFG_CONFLICT k []) :=
    ⟨h.frame.ev _ _ _, by rw [State.ev_ing, h.fwq], by rw [State.ev_ing, h.streams], by rw [State.ev_ing, h.stat], fun j hj => by
      rw [State.ev_ing, h.others j hj]⟩
  unfold State.learnFormat
  split
  · exact h
  · split
    · exact h
    · rename_i e _ _
      generalize (if c37Type f == 3 then learnCfg2 e f else learnCfg3 e f) = y
      dsimp only
      split
      · exact hev
      · split
        · exact hput _
        · exact h

theorem State.learnFrame_learns (s : State) (f : List Byte) (ks : List Nat) : Learns ks s (s.learnFrame f ks) := by
  rw [State.learnFrame_eq]
  exact List.foldlRecOn (motive := Learns ks s) ks _ (Learns.refl ks s) fun _ hu k hk => State.learnFormat_learns hu hk f

/-- The format that one LEARN entry is given. -/
theorem State.learnFormat_next {f : List Byte} {k : Nat} {e y : Stream} (he : mget s.ing.streams.eff k = some e)
    (hy : y = if c37Type f == 3 then learnCfg2 e f else learnCfg3 e f) :
    mget (s.learnFormat f k).ing.learnNext k =
      if bit e.flags 2 && !s.ing.streams.dirty.contains k && y.shapeOk then some y else mget s.ing.learnNext k := by
  unfold State.learnFormat
  rw [he]
  dsimp only
  rw [← hy]
  cases bit e.flags 2
  case false => rfl
  case true =>
    cases hd : s.ing.streams.dirty.contains k
    case true => simp
    case false => cases hs : y.shapeOk <;> simp

theorem exec_cfgFrameRx {x : FwFrame} (hx : (s.ing.fwq.find? fun x => (x.kind == 3 && c37Type (udpData x.bytes) != 4) || (x.kind == 4)) = some x)
    (hf : s.fwRuns = true) :
    let f := if x.kind == 4 then x.bytes.drop 2 else udpData x.bytes
    let ks := if x.kind == 4 then [le x.bytes 0 2] else s.lookupEff (ipSrc x.bytes) (udpDport x.bytes) (be f 4 2)
    let u : State := { s with ing := { s.ing with fwq := s.ing.fwq.erase x } }
    exec .cfgFrameRx s = (if c37Type f == 3 || c37Type f == 5 then u.learnFrame f ks else u).done := by
  intro f ks u
  show execCfgFrameRx s = _
  unfold execCfgFrameRx
  simp only [hx, hf, if_true]
  rfl


/-! ### ING_HIST_WRITE (R93) and OLD_ENTRY_EXPIRY (R87) -/

/-- The row of ING_HIST. -/
def ingHistRow : RegRow := ⟨R.ING_HIST, [], .pf0, .sys, [⟨31, 16, .rw, 4096⟩, ⟨15, 0, .rw, 250⟩]⟩

theorem rowOf_ingHist : rowOf R.ING_HIST = some ingHistRow := by decide +kernel

theorem ingHistRow_tidy : ingHistRow.tidy := by unfold RegRow.tidy; decide

/-- A stream's statistics without its histogram. -/
def SStat.histCleared (x : SStat) : SStat := { x with hist := List.replicate 32 0, latMin := 0x7FFFFFFF, latMax := -0x80000000 }

theorem State.store_ing (s : State) (x : Nat) (v : Dword) : (s.store x v).ing = s.ing := by
  unfold State.store; split <;> rfl

theorem State.histWrite_ing (s : State) (v : Dword) :
    (s.histWrite v).ing = { s.ing with stat := s.ing.stat.map fun p => (p.1, p.2.histCleared) } := by
  rw [State.histWrite, State.ev0_ing, State.store_ing]
  rfl

theorem State.histWrite_get (s : State) (v : Dword) {f : FldRow} (hf : f ∈ ingHistRow.flds) (hw : f.ty.takesWrite = true) :
    (s.histWrite v).get ⟨R.ING_HIST, f.hi, f.lo⟩ = bits v.toNat f.hi f.lo :=
  (State.ev0_get _ _ (show logReg R.ING_HIST = false by decide)).trans (State.get_store rowOf_ingHist ingHistRow_tidy hf hw)

theorem ingHistWrite_does {a : Agent} {v : Dword} (hm : s.mayWrite a R.ING_HIST) :
    Does (.ingHistWrite a v) s [.ing] (regsIn [R.ING_HIST]) fun t =>
      t.get F.ING_HIST_UNIT = fval F.ING_HIST_UNIT v ∧ t.get F.ING_HIST_WINDOW = fval F.ING_HIST_WINDOW v ∧
        t.ing = { s.ing with stat := t.ing.stat } ∧ ∀ k, mget t.ing.stat k = (mget s.ing.stat k).map SStat.histCleared := by
  have hx : exec (.ingHistWrite a v) s = (s.histWrite v).done := congrArg State.done (State.gate_may hm _)
  refine ⟨_, hx, ⟨?_, ?_, ?_, fun k => ?_⟩, ?_⟩
  · rw [State.drain_get _ (by decide)]
    exact s.histWrite_get v (f := ⟨15, 0, .rw, 250⟩) (by decide) rfl
  · rw [State.drain_get _ (by decide)]
    exact s.histWrite_get v (f := ⟨31, 16, .rw, 4096⟩) (by decide) rfl
  · rw [State.drain_ing, State.histWrite_ing]
  · rw [State.drain_ing, State.histWrite_ing]
    exact mget_map_values SStat.histCleared s.ing.stat k
  · exact ((((Frame.refl _ _ s).store _ _ (by decide)).put_ing (by simp) _).ev0 _).drain

theorem oldEntryExpiry_does {k : Nat} {o : OldEntry} (ho : firstOld (mgetD s.ing.old k []) = some o) :
    Does (.oldEntryExpiry k) s [.tim, .ing] noRegs fun t =>
      t.tim = { s.tim with now := max s.tim.now o.untilTick } ∧ mgetD t.ing.old k [] = (mgetD s.ing.old k []).erase o ∧
        (∀ j, j ≠ k → mgetD t.ing.old j [] = mgetD s.ing.old j []) ∧ t.ing = { s.ing with old := t.ing.old } := by
  set rest := (mgetD s.ing.old k []).erase o with hrest
  let u := s.reach o.untilTick
  have hi : u.ing = s.ing := (s.reach_frame _).parts .ing (by simp)
  have hx : exec (.oldEntryExpiry k) s =
      ({ u with ing := { u.ing with old := if rest.isEmpty then merase u.ing.old k else mput u.ing.old k rest } } : State).done := by
    show execOldEntryExpiry k s = _
    simp only [execOldEntryExpiry, ho]
    rfl
  refine ⟨_, hx, ⟨?_, ?_, fun j hj => ?_, ?_⟩, (((s.reach_frame _).mono (by simp) fun _ h => h).put_ing (by simp) _).drain⟩
  · rw [State.drain_tim]
    exact s.reach_tim _
  · rw [State.drain_ing]
    show mgetD (if rest.isEmpty then _ else _) k [] = rest
    split
    case isTrue h => rw [mgetD, mget_merase_self, List.isEmpty_iff.mp h]; rfl
    case isFalse => exact mgetD_mput_self _ _ _ _
  · rw [State.drain_ing]
    show mgetD (if rest.isEmpty then _ else _) j [] = _
    rw [hi]
    split
    · rw [mgetD, mget_merase_ne _ hj, mgetD]
    · exact mgetD_mput_ne _ _ _ hj
  · rw [State.drain_ing, hi]

end Sys2Proof.Machine
end

section
open Sys2Proof Sys2Proof.Machine

/-- Settles O9, command by command. -/
theorem firmwareLearnsFormatsAndOldEntriesExpire : Obligations.FirmwareLearnsFormatsAndOldEntriesExpire := by
  refine ⟨?_, ?_, fun s a v hm => ingHistWrite_does hm, fun s k o ho => oldEntryExpiry_does ho⟩
  · intro s x hx hf f ks
    set b : State := { s with ing := { s.ing with fwq := s.ing.fwq.erase x } } with hb
    have hlearn : Learns ks b (if c37Type f == 3 || c37Type f == 5 then b.learnFrame f ks else b) := by
      split
      · exact b.learnFrame_learns f ks
      · exact Learns.refl ks b
    refine ⟨_, exec_cfgFrameRx hx hf, ⟨?_, ?_, ?_, fun k hk => ?_, fun k e y hks he hy => ?_⟩, ?_⟩
    · rw [State.drain_ing, hlearn.fwq]
    · rw [State.drain_ing, hlearn.streams]
    · rw [State.drain_ing, hlearn.stat]
    · rw [State.drain_ing, hlearn.others k hk]
    · have htype : (c37Type f == 3 || c37Type f == 5) = true := by
        rcases hy with ⟨h, -⟩ | ⟨h, -⟩ <;> rw [h] <;> rfl
      have hy' : y = if c37Type f == 3 then learnCfg2 e f else learnCfg3 e f := by
        rcases hy with ⟨h, rfl⟩ | ⟨h, rfl⟩ <;> rw [h] <;> rfl
      rw [State.drain_ing, if_pos htype]
      show mget (b.learnFrame f ks).ing.learnNext k = _
      rw [hks]
      exact State.learnFormat_next (s := b) he hy'
    · exact (((Frame.refl _ _ s).put_ing (by simp) _).trans hlearn.frame).drain
  · intro s u k e hd hf he hu i
    have hu' : u = s.requestTime k := hu
    subst hu'
    exact ⟨fun hp hb => sendCfg2Request_sends hd hf he hp hb, fun hn => sendCfg2Request_silent hd hf he hn⟩

end

section
namespace Sys2Proof.Machine

variable {ps : List Part} {rs : Nat → Bool} {s t u : State} {r : Fn} {b : List Byte}

/-! ### What the packet's leaving its ring does not change -/

@[simp] theorem State.popHead_ing : (s.popHead r).ing = s.ing := by cases r <;> rfl
@[simp] theorem State.popHead_aln : (s.popHead r).aln = s.aln := by cases r <;> rfl
@[simp] theorem State.popHead_prep : (s.popHead r).cmd.prep = s.cmd.prep := by cases r <;> rfl
@[simp] theorem State.popHead_epochs : (s.popHead r).cmd.epochs = s.cmd.epochs := by cases r <;> rfl
@[simp] theorem State.popHead_udpListed (p : Nat) : (s.popHead r).udpListed p = s.udpListed p := by cases r <;> rfl
@[simp] theorem State.popHead_descChecks (d : List Byte) (n : Option Nat) : (s.popHead r).descChecks d n = s.descChecks d n := by
  cases r <;> rfl
@[simp] theorem State.popHead_rateSum (tab : List (Nat × Stream)) : (s.popHead r).rateSum tab = s.rateSum tab := by cases r <;> rfl
@[simp] theorem State.popHead_statsBlock (k : Nat) : (s.popHead r).statsBlock k = s.statsBlock k := by cases r <;> rfl
@[simp] theorem State.popHead_pfn (f : Fn) : (s.popHead r).pfn f = s.pfn f := by cases r <;> rfl
@[simp] theorem State.popHead_stat (k : Nat) : (s.popHead r).stat k = s.stat k := by cases r <;> rfl

/-! ### Members of a rising list, and tables (R417) -/

theorem mem_sadd {l : List Nat} {j k : Nat} : j ∈ sadd l k ↔ j = k ∨ j ∈ l := by
  induction l with
  | nil => simp [sadd]
  | cons a l ih =>
    rw [sadd]
    split
    · simp
    · split
      case isTrue h => rw [← eq_of_beq h]; simp
      case isFalse => rw [List.mem_cons, ih, List.mem_cons]; tauto

theorem mem_foldl_sadd {α : Type} (f : α → Nat) {xs : List α} {l : List Nat} {j : Nat} :
    j ∈ xs.foldl (fun l x => sadd l (f x)) l ↔ j ∈ l ∨ ∃ x ∈ xs, f x = j := by
  induction xs generalizing l with
  | nil => simp
  | cons x xs ih =>
    rw [List.foldl_cons, ih, mem_sadd]
    simp only [List.mem_cons, exists_eq_or_imp]
    rw [eq_comm (a := j)]
    tauto

/-- Writing several items writes the shadow and marks each. -/
theorem Tbl.foldl_put {α β : Type} (k : β → Nat) (v : β → α) (xs : List β) (t : Tbl α) :
    xs.foldl (fun t x => t.put (k x) (v x)) t =
      { t with shadow := xs.foldl (fun m x => mput m (k x) (v x)) t.shadow, dirty := xs.foldl (fun l x => sadd l (k x)) t.dirty } := by
  induction xs generalizing t with
  | nil => rfl
  | cons x xs ih => exact ih (t.put (k x) (v x))

/-- Removing several items. -/
theorem Tbl.foldl_del {α : Type} (ks : List Nat) (t : Tbl α) :
    ks.foldl (fun t k => t.del k) t = { t with shadow := ks.foldl merase t.shadow, dirty := ks.foldl sadd t.dirty } := by
  induction ks generalizing t with
  | nil => rfl
  | cons k ks ih => exact ih (t.del k)

theorem mget_foldl_merase {α : Type} (ks : List Nat) (m : List (Nat × α)) (j : Nat) :
    mget (ks.foldl merase m) j = if ks.contains j then none else mget m j := by
  induction ks generalizing m with
  | nil => rfl
  | cons k ks ih =>
    rw [List.foldl_cons, ih]
    by_cases hj : j = k
    · subst hj
      rw [mget_merase_self]
      simp
    · rw [mget_merase_ne m hj]
      simp [hj]

/-! ### Items of the control RAM written anew (R450) -/

theorem Frame.heal (h : Frame ps rs s t) (hp : Part.ecc ∈ ps) (kind idx : Nat) : Frame ps rs s (t.heal kind idx) :=
  Frame.ite h (h.put_ecc hp _)

theorem Frame.healAll (h : Frame ps rs s t) (hp : Part.ecc ∈ ps) (n : Nat) (ks : List Nat) : Frame ps rs s (t.healAll n ks) :=
  Frame.ite h (Frame.foldl _ _ h fun _ _ k => k.heal hp _ _)

theorem State.healAll_frame (s : State) (n : Nat) (ks : List Nat) : Frame [.ecc] noRegs s (s.healAll n ks) :=
  (Frame.refl _ _ s).healAll (by simp) n ks

@[simp] theorem State.healAll_ing (s : State) (n : Nat) (ks : List Nat) : (s.healAll n ks).ing = s.ing :=
  (s.healAll_frame n ks).parts .ing (by simp)

@[simp] theorem State.healAll_aln (s : State) (n : Nat) (ks : List Nat) : (s.healAll n ks).aln = s.aln :=
  (s.healAll_frame n ks).parts .aln (by simp)

/-! ### An entry written into the shadow (R76, R536) -/

theorem Frame.writeEntry (h : Frame ps rs s t) (hi : Part.ing ∈ ps) (ha : Part.aln ∈ ps) (he : Part.ecc ∈ ps) (k : Nat) (e : Stream) :
    Frame ps rs s (t.writeEntry k e) := by
  have h1 := (h.put_ing hi { t.ing with streams := t.ing.streams.put k e }).healAll he 0 [k]
  unfold State.writeEntry
  dsimp only
  split
  · exact Frame.ite h1 ((h1.put_aln ha _).healAll he 1 [k])
  · exact h1

@[simp] theorem State.writeEntry_ing (s : State) (k : Nat) (e : Stream) :
    (s.writeEntry k e).ing = { s.ing with streams := s.ing.streams.put k e } := by
  unfold State.writeEntry
  dsimp only
  split
  · split <;> simp
  · simp

/-- Between x and y the shadow copies of the WAIT_POLICY settings may have changed. -/
def Aln.PolicyWritten (x y : Aln) : Prop := y = { x with policy := y.policy } ∧ y.policy.eff = x.policy.eff

theorem Aln.PolicyWritten.refl (x : Aln) : x.PolicyWritten x := ⟨rfl, rfl⟩

theorem Aln.PolicyWritten.trans {x y z : Aln} (h : x.PolicyWritten y) (k : y.PolicyWritten z) : x.PolicyWritten z := by
  obtain ⟨h1, h2⟩ := h
  obtain ⟨k1, k2⟩ := k
  exact ⟨by rw [k1, h1], k2.trans h2⟩

theorem State.writeEntry_aln (s : State) (k : Nat) (e : Stream) : s.aln.PolicyWritten (s.writeEntry k e).aln := by
  unfold State.writeEntry
  dsimp only
  split
  · split
    · rw [State.healAll_aln]
      exact .refl _
    · rw [State.healAll_aln, State.healAll_aln]
      exact ⟨rfl, rfl⟩
  · rw [State.healAll_aln]
    exact .refl _

/-- The descriptors of an image written one after the other. -/
def State.writeAll (s : State) (ds : List (List Byte)) : State := ds.foldl (fun s d => s.writeEntry (le d 0 2) (Machine.descOf d)) s

theorem State.writeAll_ing (s : State) (ds : List (List Byte)) :
    (s.writeAll ds).ing = { s.ing with streams := ds.foldl (fun t d => t.put (le d 0 2) (Machine.descOf d)) s.ing.streams } := by
  induction ds generalizing s with
  | nil => rfl
  | cons d ds ih =>
    show ((s.writeEntry _ _).writeAll ds).ing = _
    rw [ih, State.writeEntry_ing]
    rfl

theorem State.writeAll_aln (s : State) (ds : List (List Byte)) : s.aln.PolicyWritten (s.writeAll ds).aln :=
  List.foldlRecOn (motive := fun u : State => s.aln.PolicyWritten u.aln) ds _ (.refl _) fun u hu _ _ => hu.trans (u.writeEntry_aln _ _)

theorem Frame.writeAll (h : Frame ps rs s t) (hi : Part.ing ∈ ps) (ha : Part.aln ∈ ps) (he : Part.ecc ∈ ps) (ds : List (List Byte)) :
    Frame ps rs s (t.writeAll ds) :=
  Frame.foldl _ _ h fun _ _ k => k.writeEntry hi ha he _ _

/-! ### The entries of an image, over the table as it grows (R76) -/

/-- What one entry of an image does to the table, or why it fails. -/
def loadStep (replace : Bool) (acc : (Nat × Nat) ⊕ List (Nat × Stream)) (x : List Byte × Nat) : (Nat × Nat) ⊕ List (Nat × Stream) :=
  match acc with
  | .inl f => .inl f
  | .inr t =>
    let sidx := le x.1 0 2
    let e := descOf x.1
    if (mget t sidx).isSome && !replace then .inl (x.2, St.state)
    else if (conflict t sidx e).isSome then .inl (x.2, St.badParam)
    else .inr (mput t sidx e)

theorem loadEntries_eq (replace : Bool) (tab : List (Nat × Stream)) (ds : List (List Byte)) :
    loadEntries replace tab ds = ds.zipIdx.foldl (loadStep replace) (.inr tab) := rfl

theorem loadStep_foldl_inl (replace : Bool) (f : Nat × Nat) (xs : List (List Byte × Nat)) : xs.foldl (loadStep replace) (.inl f) = .inl f := by
  induction xs with
  | nil => rfl
  | cons x xs ih => exact ih

/-- An entry that does not fail is put into the table. -/
theorem loadStep_inr {replace : Bool} {tab : List (Nat × Stream)} {x : List Byte × Nat} :
    loadStep replace (.inr tab) x = .inr (mput tab (le x.1 0 2) (descOf x.1)) ∨ ∃ f, loadStep replace (.inr tab) x = .inl f := by
  unfold loadStep
  dsimp only
  split
  · exact .inr ⟨_, rfl⟩
  · split
    · exact .inr ⟨_, rfl⟩
    · exact .inl rfl

theorem loadStep_foldl_inr {replace : Bool} {tab tab' : List (Nat × Stream)} {ds : List (List Byte)} {n : Nat}
    (h : (ds.zipIdx n).foldl (loadStep replace) (.inr tab) = .inr tab') :
    ds.foldl (fun m d => mput m (le d 0 2) (descOf d)) tab = tab' := by
  induction ds generalizing n tab with
  | nil => exact Sum.inr.inj h
  | cons d ds ih =>
    rw [List.zipIdx_cons, List.foldl_cons] at h
    rcases loadStep_inr (replace := replace) (tab := tab) (x := (d, n)) with hk | ⟨f, hf⟩
    · rw [hk] at h
      exact ih h
    · rw [hf, loadStep_foldl_inl] at h
      cases h

/-- A good image puts every descriptor in. -/
theorem loadEntries_inr {replace : Bool} {tab tab' : List (Nat × Stream)} {ds : List (List Byte)} (h : loadEntries replace tab ds = .inr tab') :
    ds.foldl (fun m d => mput m (le d 0 2) (descOf d)) tab = tab' := by
  rw [loadEntries_eq] at h
  exact loadStep_foldl_inr h

end Sys2Proof.Machine
end

section
namespace Sys2Proof.Machine

variable {ps : List Part} {rs : Nat → Bool} {s t u : State} {r : Fn} {b : List Byte}

/-! ### STREAM_ADD, STREAM_MOD and STREAM_CFG_LOAD (R76 to R79, R536) -/

theorem State.reply_part (hn : t.NoneLate) (st steps : Nat) (res : List Byte) (p : Part) (hc : p ≠ .cmd) (ho : p ≠ .out) :
    p.same t (t.reply r b st steps res) :=
  ((Frame.refl [.cmd, .out] (regsIn [ringReg r R.RPL_PROD]) t).reply (by simp) (by simp) (by simp [regsIn]) hn st steps res).parts p
    (by simp [hc, ho])

/-- A plain command whose body changes parts other than the commands, the outputs and the interrupts, and no register. -/
theorem Starts.answersWith {c : Instr} {op plen st : Nat} {ok : Bool} {mine : List Byte → Bool} {body : List Byte → State → CmdRes}
    {res : List Byte} {P : State → Prop} (hs : Starts s r op plen ok b) (he : exec c s = .next (s.plain r op plen ok mine body).drain)
    (hm : mine b = true) (hb : body b (s.popHead r) = ⟨st, res, u⟩) (hf : Frame ps noRegs (s.popHead r) u)
    (hp : ∀ p ∈ [Part.cmd, .out, .irq], p ∉ ps) (hP : ∀ t : State, t.ing = u.ing → t.aln = u.aln → P t) : Answers c s r b st res ps [] P := by
  have hc : u.cmd = (s.popHead r).cmd := hf.parts .cmd (hp _ (by simp))
  have ho : u.out = (s.popHead r).out := hf.parts .out (hp _ (by simp))
  have hi := hp .irq (by simp)
  have hf' : Frame (.cmd :: ps) (regsIn []) s u :=
    ((Frame.refl _ _ s).popHead (by simp)).trans (hf.mono (fun _ h => List.mem_cons_of_mem _ h) fun _ _ => rfl)
  have hn : u.NoneLate := hs.late.frame hf' (by simp [hi]) (by rw [hc, State.popHead_late])
  refine Answers.of hs he hm hb hf' hc (fun _ _ => rfl) hi (by rw [ho, State.popHead_out]) (hP _ ?_ ?_)
  · rw [State.drain_ing]
    exact State.reply_part hn _ _ _ .ing (by simp) (by simp)
  · rw [State.drain_aln]
    exact State.reply_part hn _ _ _ .aln (by simp) (by simp)

/-- Command c fails with a status and result bytes, and nothing changes. -/
def Fails (c : Instr) (s : State) (r : Fn) (b : List Byte) (st : Nat) (res : List Byte) : Prop := Answers c s r b st res [] [] fun _ => True

theorem Starts.streamAdd_fails (hs : Starts s r 0x10 24 false b) {h : HostRead} {st : Nat} {res : List Byte}
    (hb : streamAddBody h b (s.popHead r) = ⟨st, res, s.popHead r⟩) : Fails (.streamAdd r h) s r b st res :=
  hs.answers (mine := fun _ => true) rfl rfl hb

/-- Stages 6 to 8 of STREAM_ADD. -/
def streamAddChecks (s : State) (b : List Byte) : Option Nat :=
  firstFail [(le b 8 8 % 8 != 0, St.badParam), (le b 16 2 == 0, St.badLength), (!zeroAt b 18 6, St.badParam), (s.cmd.prep.isSome, St.busy)]

theorem streamAddBody_bad {h : HostRead} {st : Nat} (hb : streamAddChecks s b = some st) :
    streamAddBody h b (s.popHead r) = ⟨st, [], s.popHead r⟩ := by
  rw [streamAddBody, State.popHead_prep]
  exact checked_fail hb

/-- The stages of STREAM_ADD after the host read, for a descriptor d. -/
def streamAddStages (s : State) (b d : List Byte) (t : State) : CmdRes :=
  match s.descChecks d (some (le b 16 2)) with
  | some st => ⟨st, [], t⟩
  | none =>
    if (mget s.ing.streams.shadow (le d 0 2)).isSome then ⟨St.state, [], t⟩
    else match conflict s.ing.streams.shadow (le d 0 2) (descOf d) with
      | some c => ⟨St.badParam, toLe 2 c, t⟩
      | none =>
        if rateBudget < s.rateSum (mput s.ing.streams.shadow (le d 0 2) (descOf d)) then ⟨St.noResource, [], t⟩
        else ⟨St.ok, [], t.writeEntry (le d 0 2) (descOf d)⟩

theorem streamAddBody_pass {h : HostRead} (hb : streamAddChecks s b = none) :
    streamAddBody h b (s.popHead r) = withBuf h (s.popHead r) fun d => streamAddStages s b d (s.popHead r) := by
  rw [streamAddBody, State.popHead_prep]
  refine (checked_pass hb).trans ?_
  simp only [State.popHead_descChecks, State.popHead_ing, State.popHead_rateSum]
  rfl

section stages
variable {d : List Byte}

theorem streamAddStages_bad {st : Nat} (hd : s.descChecks d (some (le b 16 2)) = some st) : streamAddStages s b d t = ⟨st, [], t⟩ := by
  simp only [streamAddStages, hd]

variable (hd : s.descChecks d (some (le b 16 2)) = none)
include hd

theorem streamAddStages_used (hu : (mget s.ing.streams.shadow (le d 0 2)).isSome = true) :
    streamAddStages s b d t = ⟨St.state, [], t⟩ := by
  simp only [streamAddStages, hd, hu, if_true]

variable (hu : mget s.ing.streams.shadow (le d 0 2) = none)
include hu

theorem streamAddStages_conflict {c : Nat} (hc : conflict s.ing.streams.shadow (le d 0 2) (descOf d) = some c) :
    streamAddStages s b d t = ⟨St.badParam, toLe 2 c, t⟩ := by
  simp [streamAddStages, hd, hu, hc]

variable (hc : conflict s.ing.streams.shadow (le d 0 2) (descOf d) = none)
include hc

theorem streamAddStages_budget (hr : rateBudget < s.rateSum (mput s.ing.streams.shadow (le d 0 2) (descOf d))) :
    streamAddStages s b d t = ⟨St.noResource, [], t⟩ := by
  simp [streamAddStages, hd, hu, hc, hr]

theorem streamAddStages_ok (hr : s.rateSum (mput s.ing.streams.shadow (le d 0 2) (descOf d)) ≤ rateBudget) :
    streamAddStages s b d t = ⟨St.ok, [], t.writeEntry (le d 0 2) (descOf d)⟩ := by
  simp [streamAddStages, hd, hu, hc, Nat.not_lt.mpr hr]

end stages

theorem Starts.streamAdd_adds {d : List Byte} (hs : Starts s r 0x10 24 false b) (hb : streamAddChecks s b = none)
    (hd : streamAddStages s b d (s.popHead r) = ⟨St.ok, [], (s.popHead r).writeEntry (le d 0 2) (descOf d)⟩) :
    Answers (.streamAdd r (.data d)) s r b St.ok [] [.ing, .aln, .ecc] [] fun t =>
      t.ing = { s.ing with streams := s.ing.streams.put (le d 0 2) (descOf d) } ∧ s.aln.PolicyWritten t.aln := by
  refine hs.answersWith (mine := fun _ => true) rfl rfl ((streamAddBody_pass hb).trans hd)
    ((Frame.refl _ _ _).writeEntry (by simp) (by simp) (by simp) _ _) (by simp) fun t hi ha => ⟨?_, ?_⟩
  · rw [hi, State.writeEntry_ing, State.popHead_ing]
  · rw [ha, ← State.popHead_aln (s := s) (r := r)]
    exact State.writeEntry_aln _ _ _

/-! ### STREAM_MOD (R78) -/

theorem Starts.streamMod_fails (hs : Starts s r 0x12 40 false b) {st : Nat} {res : List Byte}
    (hb : streamModBody b (s.popHead r) = ⟨st, res, s.popHead r⟩) : Fails (.streamMod r) s r b st res :=
  hs.answers (mine := fun _ => true) rfl rfl hb

/-- A check at the end of the list. -/
theorem firstFail_concat (l : List (Bool × Nat)) (c : Bool) (st : Nat) :
    firstFail (l ++ [(c, st)]) = (firstFail l).or (if c then some st else none) := by
  rw [firstFail, firstFail, List.find?_append]
  cases l.find? fun c => c.1
  · cases c <;> rfl
  · rfl

/-- A check at the end of the list is made where the others have passed. -/
theorem checked_concat (l : List (Bool × Nat)) (c : Bool) (st : Nat) (s : State) (k : CmdRes) :
    checked (l ++ [(c, st)]) s k = checked l s (if c then ⟨st, [], s⟩ else k) := by
  rw [checked, firstFail_concat, checked]
  cases firstFail l
  · cases c <;> rfl
  · rfl

/-- Stages 6 to 8 of STREAM_MOD but the last, that the entry exists. -/
def streamModList (s : State) (b : List Byte) : List (Bool × Nat) :=
  [(decide (8183 < le b 8 2), St.badParam), (le b 10 2 == 0 || decide (31 < le b 10 2), St.badParam),
    (bit (le b 10 2) 0 && decide (63 < le b 12 1), St.badParam), (!zeroAt b 13 1, St.badParam),
    (bit (le b 10 2) 1 && !((mget s.ing.streams.shadow (le b 8 2)).map fun e => bit e.flags 1).getD false &&
      (s.udpListed (le b 14 2)).isNone, St.badParam), (!zeroAt b 20 4, St.badParam), (s.cmd.prep.isSome, St.busy)]

/-- Stages 6 to 8 of STREAM_MOD. -/
def streamModChecks (s : State) (b : List Byte) : Option Nat :=
  firstFail (streamModList s b ++ [((mget s.ing.streams.shadow (le b 8 2)).isNone, St.state)])

/-- Would the entry o, as STREAM_MOD changes it, be another entry's, or one of another kind. -/
def streamModWrong (s : State) (b : List Byte) (o : Stream) : Bool :=
  bits (modEntry o b).flags 2 1 != bits o.flags 2 1 || (conflict s.ing.streams.shadow (le b 8 2) (modEntry o b)).isSome

/-- Does the entry o, as STREAM_MOD changes it, exceed the budget. -/
def streamModPast (s : State) (b : List Byte) (o : Stream) : Bool :=
  bit (modEntry o b).flags 0 && !bit o.flags 0 && decide (rateBudget < s.rateSum (mput s.ing.streams.shadow (le b 8 2) (modEntry o b)))

/-- An entry of the shadow changed. -/
def State.entryPut (s : State) (k : Nat) (e : Stream) : State :=
  ({ s with ing := { s.ing with streams := s.ing.streams.put k e } } : State).healAll 0 [k]

/-- The stages of STREAM_MOD after the checks, for the entry o. -/
def streamModStages (s : State) (b : List Byte) (o : Stream) (t : State) : CmdRes :=
  if streamModWrong s b o then ⟨St.badParam, [], t⟩
  else if streamModPast s b o then ⟨St.noResource, [], t⟩
  else ⟨St.ok, [], t.entryPut (le b 8 2) (modEntry o b)⟩

/-- The stages of STREAM_MOD from the entry on. -/
def streamModFrom (s : State) (b : List Byte) (old : Option Stream) (t : State) : CmdRes :=
  match old with
  | none => ⟨St.state, [], t⟩
  | some o => streamModStages s b o t

theorem streamModBody_eq : streamModBody b (s.popHead r) =
    checked (streamModList s b) (s.popHead r) (streamModFrom s b (mget s.ing.streams.shadow (le b 8 2)) (s.popHead r)) := by
  unfold streamModBody
  simp only [State.popHead_ing, State.popHead_udpListed, State.popHead_prep, State.popHead_rateSum]
  refine congrArg (checked (streamModList s b) (s.popHead r)) ?_
  cases mget s.ing.streams.shadow (le b 8 2) with
  | none => rfl
  | some o => simp only [streamModFrom, streamModStages, streamModWrong, streamModPast, State.entryPut, State.popHead_ing]; rfl

theorem streamModBody_bad {st : Nat} (hb : streamModChecks s b = some st) : streamModBody b (s.popHead r) = ⟨st, [], s.popHead r⟩ := by
  rw [streamModBody_eq, ← checked_fail (k := streamModFrom s b (mget s.ing.streams.shadow (le b 8 2)) (s.popHead r)) hb, checked_concat]
  cases mget s.ing.streams.shadow (le b 8 2) <;> rfl

theorem streamModBody_pass {o : Stream} (hb : streamModChecks s b = none) (ho : mget s.ing.streams.shadow (le b 8 2) = some o) :
    streamModBody b (s.popHead r) = streamModStages s b o (s.popHead r) := by
  rw [streamModBody_eq, ho, ← checked_pass (s := s.popHead r) (k := streamModStages s b o (s.popHead r)) hb, checked_concat, ho]
  rfl

section stages
variable {o : Stream}

theorem streamModStages_wrong (hw : streamModWrong s b o = true) : streamModStages s b o t = ⟨St.badParam, [], t⟩ := if_pos hw

variable (hw : streamModWrong s b o = false)
include hw

theorem streamModStages_past (hp : streamModPast s b o = true) : streamModStages s b o t = ⟨St.noResource, [], t⟩ := by
  simp [streamModStages, hw, hp]

theorem streamModStages_ok (hp : streamModPast s b o = false) : streamModStages s b o t = ⟨St.ok, [], t.entryPut (le b 8 2) (modEntry o b)⟩ := by
  simp [streamModStages, hw, hp]

end stages

theorem Starts.streamMod_changes {o : Stream} (hs : Starts s r 0x12 40 false b)
    (hb : streamModBody b (s.popHead r) = ⟨St.ok, [], (s.popHead r).entryPut (le b 8 2) (modEntry o b)⟩) :
    Answers (.streamMod r) s r b St.ok [] [.ing, .ecc] [] fun t =>
      t.ing = { s.ing with streams := s.ing.streams.put (le b 8 2) (modEntry o b) } := by
  refine hs.answersWith (mine := fun _ => true) rfl rfl hb (((Frame.refl _ _ _).put_ing (by simp) _).healAll (by simp) _ _) (by simp)
    fun t hi _ => ?_
  rw [hi, State.entryPut, State.healAll_ing, State.popHead_ing]

/-! ### STREAM_CFG_LOAD (R76) -/

theorem Starts.streamCfgLoad_fails (hs : Starts s r 0x13 24 false b) {h : HostRead} {st : Nat} {res : List Byte}
    (hb : streamCfgLoadBody h b (s.popHead r) = ⟨st, res, s.popHead r⟩) : Fails (.streamCfgLoad r h) s r b st res :=
  hs.answers (mine := fun _ => true) rfl rfl hb

/-- Stages 6 to 8 of STREAM_CFG_LOAD. -/
def streamCfgLoadChecks (s : State) (b : List Byte) : Option Nat :=
  firstFail [(le b 16 4 == 0, St.badLength), (le b 20 2 == 0, St.badLength), (decide (256 < le b 20 2), St.badParam),
    (decide (1 < le b 22 1), St.badParam), (!zeroAt b 23 1, St.badParam), (s.cmd.prep.isSome, St.busy)]

/-- The descriptors of an image. -/
def imageDescs (b d : List Byte) : List (List Byte) := (imageParts d (le b 20 2) 0).1.map fun o => d.drop o

/-- The first descriptor of a list with a field out of range, and its status. -/
def State.descWrong (s : State) (ds : List (List Byte)) : Option (Nat × Nat) :=
  ds.zipIdx.findSome? fun x => (s.descChecks x.1 none).map fun st => (x.2, st)

/-- The first descriptor with which the sum of rates passes the budget. -/
def State.descPast (s : State) (ds : List (List Byte)) : Option (List Byte × Nat) :=
  ds.zipIdx.find? fun x => decide (rateBudget < s.rateSum
    ((ds.take (x.2 + 1)).foldl (fun t d => mput t (le d 0 2) (Machine.descOf d)) s.ing.streams.shadow))

/-- The stages of STREAM_CFG_LOAD after the host read, for an image d. -/
def streamCfgLoadStages (s : State) (b d : List Byte) (t : State) : CmdRes :=
  if (imageParts d (le b 20 2) 0).2 != le b 16 4 then ⟨St.badLength, [], t⟩
  else match s.descWrong (imageDescs b d) with
    | some f => ⟨f.2, toLe 2 f.1, t⟩
    | none =>
      match loadEntries (bit (le b 22 1) 0) s.ing.streams.shadow (imageDescs b d) with
      | .inl f => ⟨f.2, toLe 2 f.1, t⟩
      | .inr tab =>
        if rateBudget < s.rateSum tab then ⟨St.noResource, toLe 2 (((s.descPast (imageDescs b d)).map fun x => x.2).getD 0), t⟩
        else ⟨St.ok, [], t.writeAll (imageDescs b d)⟩

theorem streamCfgLoadBody_bad {h : HostRead} {st : Nat} (hb : streamCfgLoadChecks s b = some st) :
    streamCfgLoadBody h b (s.popHead r) = ⟨st, [], s.popHead r⟩ := by
  rw [streamCfgLoadBody, State.popHead_prep]
  exact checked_fail hb

theorem streamCfgLoadBody_pass {h : HostRead} (hb : streamCfgLoadChecks s b = none) :
    streamCfgLoadBody h b (s.popHead r) = withBuf h (s.popHead r) fun d => streamCfgLoadStages s b d (s.popHead r) := by
  rw [streamCfgLoadBody, State.popHead_prep]
  refine (checked_pass hb).trans ?_
  simp only [State.popHead_descChecks, State.popHead_ing, State.popHead_rateSum]
  rfl

section stages
variable {d : List Byte}

theorem streamCfgLoadStages_length (hl : (imageParts d (le b 20 2) 0).2 ≠ le b 16 4) :
    streamCfgLoadStages s b d t = ⟨St.badLength, [], t⟩ := if_pos (bne_iff_ne.mpr hl)

variable (hl : (imageParts d (le b 20 2) 0).2 = le b 16 4)
include hl

theorem streamCfgLoadStages_wrong {f : Nat × Nat} (hw : s.descWrong (imageDescs b d) = some f) :
    streamCfgLoadStages s b d t = ⟨f.2, toLe 2 f.1, t⟩ := by
  simp [streamCfgLoadStages, hl, hw]

variable (hw : s.descWrong (imageDescs b d) = none)
include hw

theorem streamCfgLoadStages_entry {f : Nat × Nat} (hg : loadEntries (bit (le b 22 1) 0) s.ing.streams.shadow (imageDescs b d) = .inl f) :
    streamCfgLoadStages s b d t = ⟨f.2, toLe 2 f.1, t⟩ := by
  simp [streamCfgLoadStages, hl, hw, hg]

variable {tab : List (Nat × Stream)} (hg : loadEntries (bit (le b 22 1) 0) s.ing.streams.shadow (imageDescs b d) = .inr tab)
include hg

theorem streamCfgLoadStages_budget {x : List Byte × Nat} (hx : s.descPast (imageDescs b d) = some x) (hr : rateBudget < s.rateSum tab) :
    streamCfgLoadStages s b d t = ⟨St.noResource, toLe 2 x.2, t⟩ := by
  simp [streamCfgLoadStages, hl, hw, hg, hr, hx]

theorem streamCfgLoadStages_ok (hr : s.rateSum tab ≤ rateBudget) :
    streamCfgLoadStages s b d t = ⟨St.ok, [], t.writeAll (imageDescs b d)⟩ := by
  simp [streamCfgLoadStages, hl, hw, hg, Nat.not_lt.mpr hr]

end stages

theorem Starts.streamCfgLoad_loads {d : List Byte} {tab : List (Nat × Stream)} (hs : Starts s r 0x13 24 false b)
    (hb : streamCfgLoadChecks s b = none)
    (hd : streamCfgLoadStages s b d (s.popHead r) = ⟨St.ok, [], (s.popHead r).writeAll (imageDescs b d)⟩)
    (hg : loadEntries (bit (le b 22 1) 0) s.ing.streams.shadow (imageDescs b d) = .inr tab) :
    Answers (.streamCfgLoad r (.data d)) s r b St.ok [] [.ing, .aln, .ecc] [] fun t =>
      t.ing = { s.ing with streams := { s.ing.streams with shadow := tab, dirty := t.ing.streams.dirty } } ∧
        (∀ e, e ∈ imageDescs b d → le e 0 2 ∈ t.ing.streams.dirty) ∧ s.aln.PolicyWritten t.aln := by
  refine hs.answersWith (mine := fun _ => true) rfl rfl ((streamCfgLoadBody_pass hb).trans hd)
    ((Frame.refl _ _ _).writeAll (by simp) (by simp) (by simp) _) (by simp) fun t hi ha => ?_
  rw [State.writeAll_ing, State.popHead_ing, Tbl.foldl_put (fun e => le e 0 2) Machine.descOf, loadEntries_inr hg] at hi
  refine ⟨by rw [hi], fun e he => ?_, ?_⟩
  · rw [hi]
    exact (mem_foldl_sadd fun e => le e 0 2).mpr (.inr ⟨e, he, rfl⟩)
  · rw [ha, ← State.popHead_aln (s := s) (r := r)]
    exact State.writeAll_aln _ _

end Sys2Proof.Machine
end

section
namespace Sys2Proof.Machine

variable {ps : List Part} {rs : Nat → Bool} {s t u : State} {r : Fn} {b : List Byte}

/-! ### A stepped command that starts (R412, R414) -/

section stepped
variable {op plen : Nat} {check : List Byte → State → Option Nat} {prog0 : List Byte → List Nat} {step : List Byte → List Nat → State → StepRes}
variable (hs : Starts s r op plen false b) (hr : roomOps.contains op = true)
include hs hr

theorem State.stepped_bad {st : Nat} (hc : check b (s.popHead r) = some st) :
    s.stepped r op plen check prog0 step = (s.popHead r).reply r b st 0 [] := by
  simp [State.stepped, hs.head, hs.op, hs.valid, hc, State.room_of_head hs.head (State.needsRoom_of_op hs.op hr)]

variable (hc : check b (s.popHead r) = none)
include hc

theorem State.stepped_second (hf : (s.cmd.fly.any fun f => pkOp f.bytes == op) = true) :
    s.stepped r op plen check prog0 step = (s.popHead r).reply r b St.busy 0 [] := by
  rw [← State.popHead_fly (s := s) (r := r)] at hf
  simp only [State.stepped, hs.head, hs.op, hs.valid, hc, hf, State.room_of_head hs.head (State.needsRoom_of_op hs.op hr), beq_self_eq_true,
    decide_true, Bool.and_self, if_true]

variable (hf : (s.cmd.fly.any fun f => pkOp f.bytes == op) = false)
include hf

theorem State.stepped_final {st : Nat} {res : List Byte} (hx : step b (prog0 b) (s.popHead r) = .final st res u) :
    s.stepped r op plen check prog0 step = u.reply r b st (stepsDone 0 st) res := by
  rw [← State.popHead_fly (s := s) (r := r)] at hf
  simp only [State.stepped, hs.head, hs.op, hs.valid, hc, hf, hx, State.room_of_head hs.head (State.needsRoom_of_op hs.op hr),
    beq_self_eq_true, decide_true, Bool.and_self, if_true, if_false, Bool.false_eq_true]

theorem State.stepped_more {p : List Nat} (hx : step b (prog0 b) (s.popHead r) = .more p u) :
    let v := u.reply r b St.stepping 1 []
    s.stepped r op plen check prog0 step =
      ({ v with cmd := { v.cmd with fly := v.cmd.fly ++ [Fly.mk r b 1 false false p none] } } : State).flySync := by
  rw [← State.popHead_fly (s := s) (r := r)] at hf
  simp only [State.stepped, hs.head, hs.op, hs.valid, hc, hf, hx, State.room_of_head hs.head (State.needsRoom_of_op hs.op hr),
    beq_self_eq_true, decide_true, Bool.and_self, if_true, if_false, Bool.false_eq_true]

end stepped

/-! ### STREAM_DEL (R536) -/

/-- The used entries of the range that STREAM_DEL names. -/
def State.delRange (s : State) (b : List Byte) : List Nat :=
  (s.ing.streams.shadow.map fun x => x.1).filter fun k => decide (le b 8 2 ≤ k) && decide (k < le b 8 2 + le b 10 2)

/-- Entries removed from the shadow. -/
def State.entriesDel (s : State) (ks : List Nat) : State :=
  ({ s with ing := { s.ing with streams := ks.foldl (fun t k => t.del k) s.ing.streams } } : State).healAll 0 ks

/-- Between x and y the entries of `ks` have left the shadow, and are marked. -/
structure Ing.Deleted (ks : List Nat) (x y : Ing) : Prop where
  rest : y = { x with streams := { x.streams with shadow := y.streams.shadow, dirty := y.streams.dirty } }
  shadow : ∀ k, mget y.streams.shadow k = if ks.contains k then none else mget x.streams.shadow k
  dirty : ∀ k, k ∈ ks → k ∈ y.streams.dirty

theorem State.entriesDel_ing (s : State) (ks : List Nat) : s.ing.Deleted ks (s.entriesDel ks).ing := by
  have h : (s.entriesDel ks).ing = { s.ing with streams := { s.ing.streams with
      shadow := ks.foldl merase s.ing.streams.shadow, dirty := ks.foldl sadd s.ing.streams.dirty } } := by
    rw [State.entriesDel, State.healAll_ing, Tbl.foldl_del]
  refine ⟨by rw [h], fun k => ?_, fun k hk => ?_⟩
  · rw [h]
    exact mget_foldl_merase ks _ k
  · rw [h]
    exact (mem_foldl_sadd id).mpr (.inr ⟨k, hk, rfl⟩)

theorem Frame.entriesDel (h : Frame ps rs s t) (hi : Part.ing ∈ ps) (he : Part.ecc ∈ ps) (ks : List Nat) : Frame ps rs s (t.entriesDel ks) :=
  (h.put_ing hi _).healAll he 0 ks

@[simp] theorem State.popHead_delRange : (s.popHead r).delRange b = s.delRange b := by
  rw [State.delRange, State.popHead_ing, State.delRange]

/-- How a step of STREAM_DEL ends, by the next entry to remove. -/
def delOutcome (next : Option Nat) (t : State) : StepRes :=
  match next with
  | none => .final St.ok [] t
  | some k => .more [k] t

theorem streamDelStep_eq (s : State) (b : List Byte) :
    streamDelStep b [le b 8 2] s = delOutcome ((s.delRange b)[512]?) (s.entriesDel ((s.delRange b).take 512)) := rfl

/-- The first step of STREAM_DEL ends it where at most 512 entries are used. -/
theorem streamDelStep_final (h : (s.delRange b).length ≤ 512) :
    streamDelStep b [le b 8 2] (s.popHead r) = .final St.ok [] ((s.popHead r).entriesDel ((s.delRange b).take 512)) := by
  rw [streamDelStep_eq, State.popHead_delRange, List.getElem?_eq_none h]
  rfl

theorem streamDelStep_more (h : 512 < (s.delRange b).length) :
    streamDelStep b [le b 8 2] (s.popHead r) =
      .more ((s.delRange b)[512]?).toList ((s.popHead r).entriesDel ((s.delRange b).take 512)) := by
  rw [streamDelStep_eq, State.popHead_delRange, List.getElem?_eq_getElem h]
  rfl

/-- Stages 6 to 8 of STREAM_DEL. -/
def streamDelChecks (s : State) (b : List Byte) : Option Nat :=
  firstFail [(le b 10 2 == 0, St.badLength), (decide (8184 < le b 8 2 + le b 10 2), St.badParam), (s.cmd.prep.isSome, St.busy)]

theorem streamDelCheck_popHead : streamDelCheck b (s.popHead r) = streamDelChecks s b := by
  rw [streamDelCheck, State.popHead_prep, streamDelChecks]

/-- Is a STREAM_DEL in flight. -/
def State.delFlies (s : State) : Bool := s.cmd.fly.any fun f => pkOp f.bytes == 0x11

/-- All checks of STREAM_DEL's start. -/
def streamDelStart (s : State) (b : List Byte) : Option Nat :=
  firstFail [(le b 10 2 == 0, St.badLength), (decide (8184 < le b 8 2 + le b 10 2), St.badParam), (s.cmd.prep.isSome, St.busy),
    (s.delFlies, St.busy)]

theorem streamDelStart_eq : streamDelStart s b = (streamDelChecks s b).or (if s.delFlies then some St.busy else none) :=
  firstFail_concat [(le b 10 2 == 0, St.badLength), (decide (8184 < le b 8 2 + le b 10 2), St.badParam), (s.cmd.prep.isSome, St.busy)]
    s.delFlies St.busy

theorem streamDelChecks_pass (hb : streamDelStart s b = none) : streamDelChecks s b = none ∧ s.delFlies = false := by
  rw [streamDelStart_eq, Option.or_eq_none_iff] at hb
  exact ⟨hb.1, by simpa using hb.2⟩

/-- The registers that a stepped command's start may change. -/
def steppedRegs (r : Fn) : List Nat := [ringReg r R.RPL_PROD, R.CMD_INFLIGHT, ringReg .pf1 R.CMD_INFLIGHT]

section streamDel
variable (hs : Starts s r 0x11 12 false b)
include hs

theorem Starts.streamDel_fails {st : Nat}
    (hx : s.stepped r 0x11 12 streamDelCheck (fun p => [le p 8 2]) streamDelStep = (s.popHead r).reply r b st 0 []) :
    Fails (.streamDel r) s r b st [] :=
  Answers.of_reply hs.late (congrArg State.done hx)

theorem Starts.streamDel_bad {st : Nat} (hb : streamDelStart s b = some st) : Fails (.streamDel r) s r b st [] := by
  rw [streamDelStart_eq, Option.or_eq_some_iff] at hb
  rcases hb with hc | ⟨hc, hb⟩
  · exact hs.streamDel_fails (State.stepped_bad hs rfl (streamDelCheck_popHead.trans hc))
  · obtain ⟨hf, hst⟩ := Option.ite_none_right_eq_some.mp hb
    cases hst
    exact hs.streamDel_fails (State.stepped_second hs rfl (streamDelCheck_popHead.trans hc) hf)

variable (hc : streamDelChecks s b = none) (hf : s.delFlies = false)

/-- The state of the first step's reply: the entries have left the shadow. -/
theorem Starts.streamDel_stepped (st : Nat) :
    let u := (s.popHead r).entriesDel ((s.delRange b).take 512)
    let v := u.reply r b st 1 []
    Answered r b st 1 [] s v.drain ∧ v.cmd = { (s.popHead r).cmd with late := v.cmd.late } ∧ s.ing.Deleted ((s.delRange b).take 512) v.ing ∧
      Frame [.cmd, .out, .ing, .ecc] (regsIn (steppedRegs r)) s v := by
  intro u v
  have hpop : Frame [.cmd, .ing, .ecc] noRegs s (s.popHead r) := (Frame.refl _ _ s).popHead (by simp)
  have hu : Frame [.cmd, .ing, .ecc] noRegs s u := hpop.entriesDel (by simp) (by simp) _
  have hcmd : u.cmd = (s.popHead r).cmd :=
    ((Frame.refl [.ing, .ecc] noRegs _).entriesDel (by simp) (by simp) _).parts .cmd (by simp)
  have hlate : u.cmd.late = s.cmd.late := by rw [hcmd, State.popHead_late]
  have hn : u.NoneLate := hs.late.frame hu (by simp) hlate
  refine ⟨?_, ?_, ?_, ?_⟩
  · exact (hu.mono (by decide) fun _ h => h).answered hs.late (fun _ _ => rfl) hlate st 1 []
  · rw [State.reply_cmd hn, hcmd]
  · have hi : v.ing = u.ing := State.reply_part hn _ _ _ .ing (by simp) (by simp)
    rw [hi, ← State.popHead_ing (s := s) (r := r)]
    exact State.entriesDel_ing _ _
  · exact (hu.mono (by decide) fun _ _ => rfl).reply (by simp) (by simp) (by simp [regsIn, steppedRegs]) hn _ _ _

include hc hf

/-- A step that ends STREAM_DEL. -/
theorem Starts.streamDel_ends (hu : (s.delRange b).length ≤ 512) :
    ∃ t, exec (.streamDel r) s = .next t ∧ Answered r b St.ok 1 [] s t ∧ s.ing.Deleted ((s.delRange b).take 512) t.ing ∧
      Frame [.cmd, .out, .ing, .ecc] (regsIn (steppedRegs r)) s t ∧ t.cmd = { (s.popHead r).cmd with late := t.cmd.late } := by
  obtain ⟨ha, hcmd, hi, hfr⟩ := hs.streamDel_stepped St.ok
  have hx := State.stepped_final (prog0 := fun p => [le p 8 2]) hs rfl (streamDelCheck_popHead.trans hc) hf (streamDelStep_final hu)
  refine ⟨_, congrArg State.done hx, ha, ?_, hfr.drain, ?_⟩
  · rw [State.drain_ing]
    exact hi
  · rw [State.drain_cmd]
    exact hcmd

/-- A step after which more entries are left. -/
theorem Starts.streamDel_steps (hu : 512 < (s.delRange b).length) :
    ∃ t, exec (.streamDel r) s = .next t ∧ Answered r b St.stepping 1 [] s t ∧ s.ing.Deleted ((s.delRange b).take 512) t.ing ∧
      Frame [.cmd, .out, .ing, .ecc] (regsIn (steppedRegs r)) s t ∧
      t.cmd = { (s.popHead r).cmd with
        fly := s.cmd.fly ++ [⟨r, b, 1, false, false, ((s.delRange b)[512]?).toList, none⟩], late := t.cmd.late } := by
  obtain ⟨ha, hcmd, hi, hfr⟩ := hs.streamDel_stepped St.stepping
  have hx := State.stepped_more (prog0 := fun p => [le p 8 2]) hs rfl (streamDelCheck_popHead.trans hc) hf (streamDelStep_more hu)
  refine ⟨_, congrArg State.done hx, ha.sync _ rfl, ?_, ?_, ?_⟩
  · rw [State.drain_ing]
    exact hi
  · exact ((hfr.put_cmd (by simp) _).flySync (by simp [regsIn, steppedRegs]) (by simp [regsIn, steppedRegs])).drain
  · rw [State.drain_cmd]
    rw [← State.popHead_fly (s := s) (r := r)]
    exact congrArg (fun c : Cmd => { c with fly := c.fly ++ [Fly.mk r b 1 false false ((s.delRange b)[512]?).toList none] }) hcmd

end streamDel

end Sys2Proof.Machine
end

section
namespace Sys2Proof.Machine

variable {ps : List Part} {rs : Nat → Bool} {s t u : State} {r : Fn} {b : List Byte} {k : Nat}

/-! ### STREAM_STATS (R157) -/

theorem firstFail_none {l : List (Bool × Nat)} (h : firstFail l = none) : ∀ x ∈ l, x.1 = false := fun x hx => by
  have hn := List.find?_eq_none.mp (Option.map_eq_none_iff.mp h) x hx
  simpa using hn

theorem Answers.mono {c : Instr} {st : Nat} {res : List Byte} {P : State → Prop} (h : Answers c s r b st res (.out :: ps) [] P) :
    Answers c s r b st res ps [] P := by
  obtain ⟨t, hx, ha, hc, hP, hf⟩ := h
  exact ⟨t, hx, ha, hc, hP, hf.mono (by simp) fun _ h => h⟩

/-- A stream's state, where it has one. -/
theorem State.stat_of_some {x : SStat} (h : mget s.ing.stat k = some x) : s.stat k = x := by
  rw [State.stat, h]
  rfl

/-- A stream's state follows from the states stored, the number of the epoch and the wait bounds. -/
theorem State.stat_congr (hs : mget t.ing.stat k = mget s.ing.stat k) (he : t.cmd.epochs = s.cmd.epochs)
    (hr : ∀ a ∈ [R.CMD_EPOCH, R.ALN_WAITINIT], t.rd a = s.rd a) : t.stat k = s.stat k := by
  have h1 : t.get F.CMD_EPOCH_EPOCH = s.get F.CMD_EPOCH_EPOCH := congrArg (fun v : Dword => bits v.toNat _ _) (hr _ (by simp))
  have h2 : t.get F.ALN_WAITINIT_US = s.get F.ALN_WAITINIT_US := congrArg (fun v : Dword => bits v.toNat _ _) (hr _ (by simp))
  have h3 (f : Fld) : t.eget f = s.eget f := by
    rw [State.eget, State.egetAt, State.erdAt, h1, he, ← State.erdAt, ← State.egetAt, ← State.eget]
  rw [State.stat, State.stat, hs, h1, State.waitInit, State.clampWait, State.waitBounds, h2, h3, h3]
  rfl

/-- The counters of stream k cleared where CLEAR asks for it and the stream has a state. -/
def State.statsCleared (s : State) (b : List Byte) : State :=
  if bit (le b 10 1) 0 && (mget s.ing.stat (le b 8 2)).isSome then s.modStat (le b 8 2) SStat.cleared else s

/-- The checks of STREAM_STATS, the last that the block could be issued. -/
def streamStatsList (s : State) (r : Fn) (issued : Bool) (b : List Byte) : List (Bool × Nat) :=
  [(decide (8191 < le b 8 2), St.badParam), (decide (1 < le b 10 1), St.badParam), (r == .pf1 && bit (le b 10 1) 0, St.denied),
    (!zeroAt b 11 5, St.badParam), (le b 16 8 % 8 != 0, St.badParam), (decide (le b 24 2 < 256), St.badLength),
    (!issued || !(s.pfn r).bme, St.timeout)]

theorem streamStatsBody_eq (issued : Bool) :
    streamStatsBody r issued b (s.popHead r) = checked (streamStatsList s r issued b) (s.popHead r)
      ⟨St.ok, [], ((s.popHead r).statsCleared b).dma r (le b 16 8) (s.statsBlock (le b 8 2))⟩ := by
  have h := checked_concat [(decide (8191 < le b 8 2), St.badParam), (decide (1 < le b 10 1), St.badParam),
    (r == .pf1 && bit (le b 10 1) 0, St.denied), (!zeroAt b 11 5, St.badParam), (le b 16 8 % 8 != 0, St.badParam),
    (decide (le b 24 2 < 256), St.badLength)] (!issued || !(s.pfn r).bme) St.timeout (s.popHead r)
    ⟨St.ok, [], ((s.popHead r).statsCleared b).dma r (le b 16 8) (s.statsBlock (le b 8 2))⟩
  refine Eq.trans ?_ h.symm
  rw [streamStatsBody, withWrite, State.popHead_pfn, State.popHead_statsBlock]
  cases issued <;> cases (s.pfn r).bme <;> rfl

theorem State.statsCleared_frame (s : State) (b : List Byte) : Frame [.ing] noRegs s (s.statsCleared b) :=
  Frame.ite ((Frame.refl _ _ s).put_ing (by simp) _) (Frame.refl _ _ s)

theorem State.statsCleared_ing (s : State) (b : List Byte) : (s.statsCleared b).ing = { s.ing with stat := (s.statsCleared b).ing.stat } := by
  unfold State.statsCleared
  split <;> rfl

theorem State.statsCleared_ne (s : State) (h : k ≠ le b 8 2) : mget (s.statsCleared b).ing.stat k = mget s.ing.stat k := by
  unfold State.statsCleared
  split
  · exact mget_mput_ne _ _ h
  · rfl

theorem State.statsCleared_self (h : bit (le b 10 1) 0 = true) (hs : (mget s.ing.stat (le b 8 2)).isSome = true) :
    mget (s.statsCleared b).ing.stat (le b 8 2) = some (s.stat (le b 8 2)).cleared := by
  rw [State.statsCleared, h, hs]
  exact mget_mput_self _ _ _

theorem bit_zero_of_le_one {n : Nat} (h : n ≤ 1) : bit n 0 = true ↔ n = 1 := by
  interval_cases n <;> decide

/-- No output already made is lost by a reply. -/
theorem State.reply_out (hn : t.NoneLate) (st steps : Nat) (res : List Byte) : t.out <+: (t.reply r b st steps res).out := by
  cases hb : (t.pfn r).bme
  · rw [State.reply_wait hb]
  · obtain ⟨⟨l, hl⟩, -⟩ := State.replyNow_spec (r := r) (b := b) t hb st steps res
    rw [State.reply_bme hb hn, hl]
    exact List.prefix_append _ _

/-- What STREAM_STATS leaves of the ingest part and the streams' states, seen in the state t of its reply. -/
structure StatsTaken (s t : State) (b : List Byte) : Prop where
  rest : t.ing = { s.ing with stat := t.ing.stat }
  others : ∀ k, k ≠ le b 8 2 → t.stat k = s.stat k
  self : t.stat (le b 8 2) =
    if le b 10 1 = 1 ∧ (mget s.ing.stat (le b 8 2)).isSome = true then (s.stat (le b 8 2)).cleared else s.stat (le b 8 2)

theorem StatsTaken.of (hfl : le b 10 1 ≤ 1) (hi : t.ing = (s.statsCleared b).ing) (he : t.cmd.epochs = s.cmd.epochs)
    (hr : ∀ a ∈ [R.CMD_EPOCH, R.ALN_WAITINIT], t.rd a = s.rd a) : StatsTaken s t b := by
  refine ⟨by rw [hi]; exact s.statsCleared_ing b, fun k hk => State.stat_congr ?_ he hr, ?_⟩
  · rw [hi, State.statsCleared_ne _ hk]
  · split
    case isTrue h => exact State.stat_of_some (by rw [hi, State.statsCleared_self ((bit_zero_of_le_one hfl).mpr h.1) h.2])
    case isFalse h =>
      refine State.stat_congr ?_ he hr
      rw [hi, State.statsCleared, if_neg]
      rw [Bool.and_eq_true, bit_zero_of_le_one hfl]
      exact h

section streamStats
variable {issued : Bool} (hs : Starts s r 0x14 26 true b)
include hs

theorem Starts.streamStats_bad {st : Nat} (hb : firstFail (streamStatsList s r issued b) = some st) : Fails (.streamStats r issued) s r b st [] :=
  hs.answers (mine := fun _ => true) rfl rfl ((streamStatsBody_eq issued).trans (checked_fail hb))

theorem Starts.streamStats_reports (hb : firstFail (streamStatsList s r issued b) = none) :
    Answers (.streamStats r issued) s r b St.ok [] [.ing] [] fun t =>
      Out.dma r (le b 16 8) (s.statsBlock (le b 8 2)) ∈ t.out.drop s.out.length ∧ StatsTaken s t b := by
  have hpass := firstFail_none hb
  have hfl : le b 10 1 ≤ 1 := by simpa using hpass (decide (1 < le b 10 1), St.badParam) (by simp [streamStatsList])
  have hbme : (s.pfn r).bme = true := by
    have h := hpass (!issued || !(s.pfn r).bme, St.timeout) (by simp [streamStatsList])
    simp only [Bool.or_eq_false_iff, Bool.not_eq_false'] at h
    exact h.2
  set w := (s.popHead r).statsCleared b with hw
  set d := Out.dma r (le b 16 8) (s.statsBlock (le b 8 2)) with hd
  have hfw : Frame [.ing] noRegs (s.popHead r) w := State.statsCleared_frame _ b
  have hwb : (w.pfn r).bme = true := by rw [State.pfn_same hfw (by simp), State.popHead_pfn, hbme]
  have hdma : w.dma r (le b 16 8) (s.statsBlock (le b 8 2)) = w.emit d := if_pos hwb
  have hcmd : w.cmd = (s.popHead r).cmd := hfw.parts .cmd (by simp)
  have hout : w.out = s.out := (hfw.parts .out (by simp)).trans State.popHead_out
  have hf : Frame [.cmd, .out, .ing] (regsIn []) s (w.emit d) :=
    ((((Frame.refl _ _ s).popHead (by simp)).trans (hfw.mono (by simp) fun _ _ => rfl))).emit (by simp) d
  have hn : (w.emit d).NoneLate := hs.late.frame hf (by simp) ((congrArg Cmd.late hcmd).trans State.popHead_late)
  have hfr : Frame [.cmd, .out, .ing] (regsIn [ringReg r R.RPL_PROD]) s ((w.emit d).reply r b St.ok 0 []).drain :=
    ((hf.mono (fun _ h => h) fun _ _ => rfl).reply (by simp) (by simp) (by simp [regsIn]) hn St.ok 0 []).drain
  have hbody : streamStatsBody r issued b (s.popHead r) = ⟨St.ok, [], w.emit d⟩ := by
    rw [streamStatsBody_eq, checked_pass hb, ← hw, hdma]
  refine Answers.mono (Answers.of hs (mine := fun _ => true) rfl rfl hbody hf hcmd (fun _ _ => rfl) (by simp) ?_ ⟨?_, StatsTaken.of hfl ?_ ?_ ?_⟩)
  · exact ⟨[d], by rw [← hout]; rfl⟩
  · obtain ⟨l, hl⟩ := State.reply_out (r := r) (b := b) hn St.ok 0 []
    have ho : (w.emit d).out = s.out ++ [d] := congrArg (· ++ [d]) hout
    rw [State.drain_out, ← hl, ho, List.append_assoc, List.drop_left]
    simp
  · rw [State.drain_ing]
    refine (State.reply_part hn _ _ _ .ing (by simp) (by simp)).trans ?_
    show w.ing = _
    rw [hw, State.statsCleared, State.statsCleared, State.popHead_ing]
    split
    · rw [State.modStat, State.setStat, State.modStat, State.setStat, State.popHead_ing, State.popHead_stat]
    · exact State.popHead_ing
  · rw [State.drain_cmd, State.reply_cmd hn]
    exact (congrArg Cmd.epochs hcmd).trans State.popHead_epochs
  · intro a ha
    refine hfr.regs a ?_ ?_
    · simp only [List.mem_cons, List.not_mem_nil, or_false] at ha
      rcases ha with rfl | rfl <;> cases r <;> rfl
    · simp only [List.mem_cons, List.not_mem_nil, or_false] at ha
      rcases ha with rfl | rfl <;> rfl

end streamStats

end Sys2Proof.Machine
end

section
open Sys2Proof Sys2Proof.Machine

/-- Settles O10, command by command. -/
theorem streamTableCommandsChangeTheShadowOnly : Obligations.StreamTableCommandsChangeTheShadowOnly := by
  refine ⟨?_, ?_, ?_, ?_, ?_⟩
  · intro s r b h hs tab bad
    refine ⟨fun st hb => hs.streamAdd_fails (streamAddBody_bad hb), fun hb => ?_⟩
    have fails {d : List Byte} {st : Nat} {res : List Byte} (hd : streamAddStages s b d (s.popHead r) = ⟨st, res, s.popHead r⟩) :
        Fails (.streamAdd r (.data d)) s r b st res := hs.streamAdd_fails ((streamAddBody_pass hb).trans hd)
    refine ⟨hs.streamAdd_fails (streamAddBody_pass hb), hs.streamAdd_fails (streamAddBody_pass hb), fun buf => ⟨?_, ?_, ?_⟩⟩
    · exact fun st hd => fails (streamAddStages_bad hd)
    · exact fun hd hu => fails (streamAddStages_used hd hu)
    · intro hd hu
      exact ⟨fun c hc => fails (streamAddStages_conflict hd hu hc), fun hc hr => fails (streamAddStages_budget hd hu hc hr),
        fun hc hr => hs.streamAdd_adds hb (streamAddStages_ok hd hu hc hr)⟩
  · intro s r b hs k m tab inj bad
    refine ⟨fun st hb => hs.streamMod_fails (streamModBody_bad hb), fun o ho hb => ?_⟩
    have hbody := streamModBody_pass (r := r) hb ho
    exact ⟨fun hw => hs.streamMod_fails (hbody.trans (streamModStages_wrong hw)),
      fun hw hp => hs.streamMod_fails (hbody.trans (streamModStages_past hw hp)),
      fun hw hp => hs.streamMod_changes (hbody.trans (streamModStages_ok hw hp))⟩
  · intro s r b h hs bad
    refine ⟨fun st hb => hs.streamCfgLoad_fails (streamCfgLoadBody_bad hb), fun hb => ?_⟩
    have fails {d : List Byte} {st : Nat} {res : List Byte} (hd : streamCfgLoadStages s b d (s.popHead r) = ⟨st, res, s.popHead r⟩) :
        Fails (.streamCfgLoad r (.data d)) s r b st res := hs.streamCfgLoad_fails ((streamCfgLoadBody_pass hb).trans hd)
    refine ⟨hs.streamCfgLoad_fails (streamCfgLoadBody_pass hb), hs.streamCfgLoad_fails (streamCfgLoadBody_pass hb), fun buf => ⟨?_, ?_, ?_, ?_⟩⟩
    · exact fun hl => fails (streamCfgLoadStages_length hl)
    · exact fun f hw hl => fails (streamCfgLoadStages_wrong hl hw)
    · exact fun f hg hw hl => fails (streamCfgLoadStages_entry hl hw hg)
    · intro tab hg hw hl
      exact ⟨fun x hx hr => fails (streamCfgLoadStages_budget hl hw hg hx hr),
        fun hr => hs.streamCfgLoad_loads hb (streamCfgLoadStages_ok hl hw hg hr) hg⟩
  · intro s r b hs from0 used bad
    refine ⟨fun st hb => hs.streamDel_bad hb, fun hb hu => ?_, fun hb hu => ?_⟩
    · obtain ⟨hc, hf⟩ := streamDelChecks_pass hb
      obtain ⟨t, hx, ha, ⟨h1, h2, h3⟩, hfr, hcmd⟩ := hs.streamDel_ends hc hf hu
      exact ⟨t, hx, ha, ⟨h1, h2, h3, hfr⟩, hcmd⟩
    · obtain ⟨hc, hf⟩ := streamDelChecks_pass hb
      obtain ⟨t, hx, ha, ⟨h1, h2, h3⟩, hfr, hcmd⟩ := hs.streamDel_steps hc hf hu
      exact ⟨t, hx, ha, ⟨h1, h2, h3, hfr⟩, hcmd⟩
  · intro s r b issued hs bad
    refine ⟨fun st hb => hs.streamStats_bad hb, fun hb => ?_⟩
    obtain ⟨t, hx, ha, hc, ⟨ho, ht⟩, hf⟩ := hs.streamStats_reports hb
    exact ⟨t, hx, ha, hc, ⟨ho, ht.rest, ht.others, ht.self⟩, hf⟩

end

section
namespace Sys2Proof.Machine

/-! ### A used page charged to no class (R109, R456)

The classes of pages are 0 to 6. A page of class 7, which no command allocates, is charged to none of them: when the command that retires it
ends with SET_QUOTA_SPARE at 0, there is no class whose quota it could lower. -/

/-- PAGE_RETIRE of page 5. -/
def retirePacket : List Byte := [0x80, 0, 4, 0, 0, 0, 0, 0, 5, 0, 0, 0, 0, 0, 0, 0]

/-- It is in flight, and only its last step is left. -/
def retireFly : Fly := ⟨.pf0, retirePacket, 3, false, false, [1, 3], none⟩

/-- The page that goes, and its replacement. -/
def unclassedPage : Page := ⟨5, 7, [], [.inst], false⟩
def unclassedCopy : Page := ⟨6, 7, [], [], false⟩

/-- Ring 0 runs, its command has its last step to take, and SET_QUOTA_SPARE is 0. -/
def unclassedRetire : State :=
  { State.reset with
    regs := [(R.CMD_CTRL, 1), (R.RPL_SIZE, 16)]
    sett := { Sett.reset with pages := [(0, unclassedPage), (1, unclassedCopy)], nextId := 2 }
    cmd := { Cmd.reset with fly := [retireFly], todo := [0] } }

theorem unclassedRetire_due : unclassedRetire.due .pf0 = some retireFly := by decide +kernel

end Sys2Proof.Machine
end

section
open Sys2Proof Sys2Proof.Machine

/-- Refutes O49: the last step of a PAGE_RETIRE with SET_QUOTA_SPARE at 0 lowers the quota of no class where the page's class is none of the seven. -/
theorem not_pagesAreRetiredAndScrubLapsRun : ¬ Obligations.PagesAreRetiredAndScrubLapsRun := by
  intro h
  obtain ⟨-, -, hstep, -⟩ := h
  obtain ⟨-, -, hlast⟩ := hstep unclassedRetire .pf0 retireFly .poison 1 3 unclassedRetire_due nofun rfl (by decide) rfl
  obtain ⟨u, -, ⟨-, -, -, -, -, -, -, -, -, -, hshrunk⟩, -⟩ := hlast (0, unclassedPage) unclassedCopy (by decide +kernel) rfl rfl (by decide) rfl
  obtain ⟨-, -, hclass⟩ := hshrunk (by decide)
  obtain ⟨c, hc, hl⟩ := List.any_eq_true.mp hclass
  have h7 : 7 = c := by simpa [unclassedPage] using (Bool.and_eq_true_iff.mp hl).1
  exact absurd (List.mem_range.mp hc) (by omega)

end

section
namespace Sys2Proof.Machine

/-! ### A capture segment in the page of the event ring (R329, R442)

Each page is taken for one use. In a state that no command leads to, where the page of a unit's last segment is also the event ring's last page,
the words of an event that is logged meanwhile stand between the segment's. -/

/-- An arming of unit 0 for one channel, without a condition. -/
def sharedCfg : TrgCfg := ⟨false, false, 0, 0, 1, 0, 0, 0, 1, 1, [], [], [], [], 0, 0, 0, 0, []⟩

/-- The last segment, with one set. -/
def sharedSeg : TrgSeg := ⟨0, [⟨0, 0, [], [], []⟩]⟩

/-- The page of that segment. -/
def sharedPage : Page := ⟨0, 3, [], [.capture 0], false⟩

/-- Unit 0 is ARMED. The event ring runs, with the segment's page as its last, and an event waits to be logged. -/
def sharedRingPage : State :=
  { State.reset with
    regs := [(R.EVR_CTRL, 1)]
    sett := { Sett.reset with pages := [(0, sharedPage)], nextId := 1 }
    evr := { Evr.reset with started := true, pages := [0], backlog := [⟨Ev.TRG_ARM, 0, []⟩] }
    trg := { Trg.reset with units := [(0, { TrgUnit.idle with st := 2, cfg := some sharedCfg, segs := [sharedSeg] })] } }

/-- Four words of the event's record and the two of the set are stored. -/
theorem sharedRingPage_stored :
    ((mget (sharedRingPage.captureEval 0).drain.sett.pages 0).map fun p => p.words.length) = some 6 := by decide +kernel

end Sys2Proof.Machine
end

section
open Sys2Proof Sys2Proof.Machine

/-- Refutes O35: storing a set puts more than the set's words into the page of its segment where that page is the event ring's too. -/
theorem not_captureInstantsTriggerStoreAndComplete : ¬ Obligations.CaptureInstantsTriggerStoreAndComplete := by
  intro h
  obtain ⟨-, -, heval, -⟩ := h
  obtain ⟨-, hquiet, -⟩ := heval sharedRingPage 0 sharedCfg rfl rfl
  obtain ⟨t, hx, ⟨-, -, -, -, -, hstore⟩, -⟩ := hquiet (by decide +kernel) (.inr rfl) (by decide +kernel) rfl
  obtain ⟨-, -, hwords⟩ := hstore sharedSeg _ _ rfl rfl rfl (by decide +kernel)
  have ht : t = (sharedRingPage.captureEval 0).drain := (Host.Outcome.next.inj hx).symm
  have hw := congrArg (Option.map List.length) (hwords sharedPage rfl nofun)
  rw [Option.map_map, ht] at hw
  exact absurd (sharedRingPage_stored.symm.trans hw) (by decide +kernel)

end


section
namespace Sys2Proof.Machine

variable {s t u : State} {ps : List Part} {rs : Nat → Bool}

/-! ### What raising and the check of a block leave of the host queues (R117, R447 to R449) -/

/-- Raising an interrupt changes registers of the interrupt unit only. -/
theorem State.raiseOn_rd_below (s : State) (n : Nat) (main pf1 : Bool) {x : Nat} (hx : x < R.IRQ_PEND) :
    (s.raiseOn n main pf1).rd x = s.rd x := by
  have ho : x ≠ (occFld n).addr := by
    have : R.IRQ_OCC ≤ (occFld n).addr := by unfold occFld; split <;> exact Nat.le_add_right _ _
    have : R.IRQ_PEND < R.IRQ_OCC := by decide
    omega
  have hp : x ≠ (bitFld R.IRQ_PEND n).addr := by
    show x ≠ R.IRQ_PEND + 4 * (n / 32)
    omega
  have hd : x ≠ (bitFld R.IRQ_DUE n).addr := by
    show x ≠ R.IRQ_DUE + 4 * (n / 32)
    have : R.IRQ_PEND < R.IRQ_DUE := by decide
    omega
  have ha : (s.inc (occFld n)).rd x = s.rd x := State.rd_set_ne _ _ ho
  have hb : (((s.inc (occFld n)).setB (bitFld R.IRQ_PEND n) true).setB (bitFld R.IRQ_DUE n) true).rd x = s.rd x :=
    (State.rd_set_ne _ _ hd).trans ((State.rd_set_ne _ _ hp).trans ha)
  cases main <;> cases pf1
  · exact ha
  · exact ha
  · exact hb
  · exact hb

theorem State.raiseQueue_rd_below (s : State) (q : Nat) {x : Nat} (hx : x < R.IRQ_PEND) : (s.raiseQueue q).rd x = s.rd x := by
  unfold State.raiseQueue
  dsimp only
  split <;> exact s.raiseOn_rd_below _ _ _ hx

/-- An event changes no register below the interrupt unit's. -/
theorem State.ev_rd_below (s : State) (c i : Nat) (l : List (Nat × Nat)) {x : Nat} (hx : x < R.IRQ_PEND) : (s.ev c i l).rd x = s.rd x := by
  unfold State.ev
  split
  · dsimp only
    split <;> exact s.raiseOn_rd_below _ _ _ hx
  · dsimp only
    split <;> rfl

theorem State.ev0_rd_below (s : State) (c : Nat) {x : Nat} (hx : x < R.IRQ_PEND) : (s.ev0 c).rd x = s.rd x := s.ev_rd_below c 0 [] hx

/-- A state with the same queues has the same queue q. -/
theorem State.hq_of_queues (h : t.sett.queues = s.sett.queues) (j : Nat) : t.hq j = s.hq j := congrArg (mgetD · j HostQ.empty) h

@[simp] theorem State.setHq_hq_self (s : State) (q : Nat) (h : HostQ) : (s.setHq q h).hq q = h := mgetD_mput_self _ _ _ _

theorem State.setHq_hq_ne (s : State) {q j : Nat} (h : HostQ) (hj : j ≠ q) : (s.setHq q h).hq j = s.hq j := mgetD_mput_ne _ _ _ hj

@[simp] theorem State.modEcc_sett (s : State) (f : Ecc → Ecc) : (s.modEcc f).sett = s.sett := rfl

@[simp] theorem State.eccTag_sett (s : State) (x : EccTag) : (s.eccTag x).sett = s.sett := by
  unfold State.eccTag
  dsimp only
  split_ifs
  · rfl
  · rfl
  · simp
  · rfl

@[simp] theorem State.eccLast_sett (s : State) (b : Block) (w k c : Nat) : (s.eccLast b w k c).sett = s.sett := by
  unfold State.eccLast
  rw [State.set_sett, State.set_sett, State.set_sett, State.set_sett]

@[simp] theorem State.uncorrLog_sett (s : State) (b : Block) (w : Nat) : (s.uncorrLog b w).sett = s.sett :=
  (State.ev_sett _ _ _ _).trans ((State.eccLast_sett _ _ _ _ _).trans (s.inc_sett _))

theorem State.eccSync_sett (s : State) : s.eccSync.sett = s.sett := (State.set_sett _ _ _).trans (s.set_sett _ _)

@[simp] theorem State.eccHard_sett (s : State) (b : Block) (w c : Nat) : (s.eccHard b w c).sett = s.sett := by
  have logged (l : List (Nat × Nat)) : (((s.inc F.ECC_CNT_HARD_COUNT).eccLast b w 3 c).ev Ev.ECC_HARD 0 l).sett = s.sett :=
    (State.ev_sett _ _ _ _).trans ((State.eccLast_sett _ _ _ _ _).trans (s.inc_sett _))
  have h := logged ([(1, b2n b.cram), (32, b.no), (32, w), (7, c)] ++ (if b.cram then [] else [(16, 8 * b.no / 1024)]))
  unfold State.eccHard
  dsimp only
  split
  · exact (State.modEcc_sett _ _).trans h
  · split
    · exact h
    · split
      · exact (State.eccSync_sett _).trans ((State.modEcc_sett _ _).trans h)
      · exact h

@[simp] theorem State.eccCorr_sett (s : State) (b : Block) (w c : Nat) : (s.eccCorr b w c).sett = s.sett := by
  have logged (v : State) (w' c' : Nat) : (((v.inc F.ECC_CNT_CORR_COUNT).eccLast b w' 1 c').ev0 Ev.CORR |>.eccTag ⟨b, w, some c⟩).sett =
      v.sett := (State.eccTag_sett _ _).trans ((State.ev0_sett _ _).trans ((State.eccLast_sett _ _ _ _ _).trans (v.inc_sett _)))
  have drawn : (if w == 8 || c == 74 then s.fresh.2 else s).sett = s.sett := by split <;> rfl
  exact (apply_ite State.sett _ _ _).trans ((ite_congr rfl (fun _ => State.eccHard_sett _ _ _ _) fun _ => rfl).trans
    ((ite_self _).trans ((logged _ _ _).trans drawn)))

@[simp] theorem State.eccUncorr_sett (s : State) (b : Block) (w : Nat) : (s.eccUncorr b w).sett = s.sett := by
  unfold State.eccUncorr
  dsimp only
  split
  · exact s.eccTag_sett _
  · exact (State.modEcc_sett _ _).trans ((State.uncorrLog_sett _ _ _).trans (s.eccTag_sett _))

@[simp] theorem State.poisonWord_queues (s : State) (x : Nat) : (s.poisonWord x).sett.queues = s.sett.queues := by
  unfold State.poisonWord
  split
  · rfl
  · split <;> simp

@[simp] theorem State.poisonWords_queues (s : State) (b : Block) (ws : List Nat) : (s.poisonWords b ws).sett.queues = s.sett.queues := by
  unfold State.poisonWords
  split
  · induction ws generalizing s with
    | nil => rfl
    | cons w ws ih => exact ih _
  · induction ws generalizing s with
    | nil => rfl
    | cons w ws ih => exact (ih _).trans (s.poisonWord_queues _)

/-- A check of a block changes no host queue: it only poisons words in their pages (R447). -/
@[simp] theorem State.eccRead_queues (s : State) (cram : Bool) (x : Nat) (err : ReadErr) :
    (s.eccRead cram x err).1.sett.queues = s.sett.queues := by
  unfold State.eccRead
  dsimp only
  split <;> simp

@[simp] theorem State.poisonRead_sett (s : State) (x : Nat) (p : Bool) : (s.poisonRead x p).sett = s.sett := by
  unfold State.poisonRead
  dsimp only
  split <;> simp

/-! ### A packet that leaves its queue (R117, R120, R121) -/

theorem hqf_addr (f : Fld) (q : Nat) : (hqf f q).addr = f.addr + 0x80 * q := rfl

@[simp] theorem State.dropHold_regs (s : State) (x : Holder) (id : Nat) : (s.dropHold x id).regs = s.regs := by
  unfold State.dropHold
  split
  · rfl
  · dsimp only
    split_ifs
    · rfl
    · simp
    · rfl

@[simp] theorem State.dropHolds_regs (s : State) (x : Holder) (ids : List Nat) : (s.dropHolds x ids).regs = s.regs := by
  unfold State.dropHolds
  induction ids generalizing s with
  | nil => rfl
  | cons id ids ih => exact (ih _).trans (s.dropHold_regs _ _)

theorem State.rd_of_regs (h : t.regs = s.regs) (x : Nat) : t.rd x = s.rd x := by rw [State.rd, State.rd, h]

theorem State.get_of_regs (h : t.regs = s.regs) (f : Fld) : t.get f = s.get f := by rw [State.get, State.get, State.rd_of_regs h]

section leave
variable {q : Nat} {h : HostQ} {p : Pkt} {rest : List Pkt}

/-- The pages that no later packet of the queue names. -/
def HostQ.gone (h : HostQ) (p : Pkt) (rest : List Pkt) : List Nat :=
  p.pages.filter fun id => !(({ h with pkts := rest, sent := 0 } : HostQ).pageSet.contains id)

theorem State.hqLeave_cons (hq : s.hq q = h) (hk : h.pkts = p :: rest) : s.hqLeave q =
    (((s.setHq q { h with pkts := rest, sent := 0 }).inc (hqf F.SET_HQ_PKTOUT_PKTOUT q)).dropHolds (.queue q) (h.gone p rest)) := by
  unfold State.hqLeave
  dsimp only
  rw [hq, hk]
  rfl

theorem State.hqLeave_hq (hq : s.hq q = h) (hk : h.pkts = p :: rest) : (s.hqLeave q).hq q = { h with pkts := rest, sent := 0 } := by
  rw [State.hqLeave_cons hq hk]
  exact (State.hq_of_queues (State.dropHolds_queues _ _ _) q).trans (s.setHq_hq_self q _)

theorem State.hqLeave_hq_ne (hq : s.hq q = h) (hk : h.pkts = p :: rest) {j : Nat} (hj : j ≠ q) : (s.hqLeave q).hq j = s.hq j := by
  rw [State.hqLeave_cons hq hk]
  exact (State.hq_of_queues (State.dropHolds_queues _ _ _) j).trans (s.setHq_hq_ne _ hj)

theorem State.hqLeave_rd (hq : s.hq q = h) (hk : h.pkts = p :: rest) (x : Nat) :
    (s.hqLeave q).rd x = (s.inc (hqf F.SET_HQ_PKTOUT_PKTOUT q)).rd x := by
  rw [State.hqLeave_cons hq hk]
  exact State.rd_of_regs (State.dropHolds_regs _ _ _) x

theorem hqf_word_ok (x q : Nat) : (hqf ⟨x, 31, 0⟩ q).ok := ⟨Nat.zero_le _, Nat.lt_succ_self 31⟩

theorem State.hqLeave_pktout (hq : s.hq q = h) (hk : h.pkts = p :: rest) :
    (s.hqLeave q).get (hqf F.SET_HQ_PKTOUT_PKTOUT q) = (s.get (hqf F.SET_HQ_PKTOUT_PKTOUT q) + 1) % 2 ^ 32 := by
  rw [State.get, State.hqLeave_rd hq hk]
  exact State.get_inc_self _ (hqf_word_ok _ q)

theorem State.hqLeave_get_ne (hq : s.hq q = h) (hk : h.pkts = p :: rest) {f : Fld} (hf : f.addr ≠ R.SET_HQ_PKTOUT + 0x80 * q) :
    (s.hqLeave q).get f = s.get f := by
  rw [State.get, State.hqLeave_rd hq hk]
  exact State.get_set_ne _ _ hf

theorem Frame.hqLeave (hf : Frame ps rs s t) (hq : t.hq q = h) (hk : h.pkts = p :: rest) (hr : rs (R.SET_HQ_PKTOUT + 0x80 * q) = true) :
    Frame ps rs s (t.hqLeave q) := by
  rw [State.hqLeave_cons hq hk]
  exact ((hf.setHq _ _).inc _ (by simp [hqf_addr, hr])).dropHolds _ _

/-- A queue's registers lie below those of the interrupt unit. -/
theorem hqReg_below (q : Fin 16) {o : Nat} (h : o < 0x41080) : o + 0x80 * q.val < R.IRQ_PEND := by
  have := q.isLt
  show _ < 0x100010
  omega

theorem State.hqPend_get (s : State) (q : Fin 16) {f : Fld} (h1 : R.SET_HQ_CFG ≤ f.addr) (h2 : f.addr < 0x41080) :
    (s.hqPend q).get (hqf f q) = s.get (hqf f q) := by
  have hne : (hqf f q).addr ≠ R.SET_HQ_PEND := by
    have : R.SET_HQ_PEND < R.SET_HQ_CFG := by decide
    rw [hqf_addr]
    omega
  rw [State.get, State.hqPend, State.raiseQueue_rd_below _ _ (show (hqf f q).addr < R.IRQ_PEND from hqReg_below q h2)]
  exact State.get_set_ne _ _ hne

theorem State.hqPend_flag (s : State) (q : Fin 16) : (s.hqPend q).flag ⟨R.SET_HQ_PEND, q, q⟩ = true := by
  rw [State.flag, State.get, State.hqPend, State.raiseQueue_rd_below _ _ (show R.SET_HQ_PEND < R.IRQ_PEND by decide)]
  exact State.flag_setB_self _ _ ⟨Nat.le_refl _, Nat.lt_of_lt_of_le q.isLt (by decide)⟩ rfl

theorem State.hqPend_hq (s : State) (q j : Nat) : (s.hqPend q).hq j = s.hq j := by
  refine State.hq_of_queues ?_ j
  unfold State.hqPend State.raiseQueue
  dsimp only
  split <;> exact congrArg Sett.queues (State.raiseOn_sett _ _ _ _)

end leave

/-- Logging leaves the outputs alone, and so does the check of a block. -/
theorem Frame.out_eq (h : Frame ps rs s t) (ho : Part.out ∉ ps) : t.out = s.out := h.parts .out ho

theorem Frame.now_eq (h : Frame ps rs s t) (ho : Part.tim ∉ ps) : t.now = s.tim.now := congrArg Tim.now (h.parts .tim ho)

/-! ### A block of a queue in DMA mode (R120) -/

section block
variable {q : Fin 16} {err : ReadErr} {h : HostQ} {p : Pkt} {rest : List Pkt}

/-- Is the queue one that writes blocks: EN, DMA mode and bus mastering. -/
def State.hqRuns (s : State) (q : Nat) : Bool :=
  s.flag (hqf F.SET_HQ_CFG_EN q) && !s.flag (hqf F.SET_HQ_CFG_MODE q) && (s.pfn (s.hqOwner q)).bme

/-- The number of the next block. -/
def State.hqNext (s : State) (q : Nat) : Nat := s.get (hqf F.SET_HQ_PROD_PROD q) + (s.hq q).sent / 8

/-- Has the ring room for the next block. -/
def State.hqRoom (s : State) (q : Nat) : Bool :=
  decide (subMod 32 (s.hqNext q) (s.get (hqf F.SET_HQ_CONS_CONS q)) < s.get (hqf F.SET_HQ_SIZE_SIZE q))

/-- Where the next block goes in the host's memory. -/
def State.hqBlockAt (s : State) (q : Nat) : Nat :=
  s.get64 (R.SET_HQ_BASE_LO + 0x80 * q) (R.SET_HQ_BASE_HI + 0x80 * q) / 64 * 64 + 80 * (s.hqNext q % s.get (hqf F.SET_HQ_SIZE_SIZE q))

/-- The check of the first word of the next block. -/
def State.hqBlockCheck (s : State) (q : Nat) (p : Pkt) (err : ReadErr) : State × Bool :=
  s.eccRead false ((((s.pktCells p).drop (s.hq q).sent).head?.map fun c => c.1).getD 0) err

/-- The words of the next block and their flags after the check. -/
def State.hqBlockWords (s : State) (q : Nat) (p : Pkt) (r : State × Bool) : List (Nat × Nat) :=
  (((r.1.pktCells p).drop (s.hq q).sent).take 8).zipIdx.map fun x =>
    (x.1.2.v.toNat, flagByte x.1.2.eop x.1.2.poison (x.2 == 0 && r.2) false)

/-- The write of the next block. -/
def State.hqBlock (s : State) (q : Nat) (p : Pkt) (err : ReadErr) : Out :=
  .dma (s.hqOwner q) (s.hqBlockAt q) (packedBlock (s.hqBlockWords q p (s.hqBlockCheck q p err))
    (s.hqNext q / s.get (hqf F.SET_HQ_SIZE_SIZE q) % 2 == 1))

/-- The state with the next block checked and written. -/
def State.hqBlockOut (s : State) (q : Nat) (p : Pkt) (err : ReadErr) : State := (s.hqBlockCheck q p err).1.emit (s.hqBlock q p err)

theorem eccRegs_regsIn {l : List Nat} (h : ∀ a ∈ eccRegs, a ∈ l) : ∀ a ∈ eccRegs, regsIn l a = true := fun a ha =>
  List.elem_eq_true_of_mem (h a ha)

theorem State.hqBlockOut_frame (hp : ∀ x ∈ [Part.out, Part.ecc], x ∈ ps) (hr : ∀ a ∈ eccRegs, rs a = true) :
    Frame ps rs s (s.hqBlockOut q p err) :=
  ((Frame.refl _ _ s).eccRead (hp _ (by simp)) hr _ _ _).emit (hp _ (by simp)) _

theorem State.hqBlockOut_queues : (s.hqBlockOut q p err).sett.queues = s.sett.queues := s.eccRead_queues _ _ _

theorem State.hqBlockOut_out : (s.hqBlockOut q p err).out = s.out ++ [s.hqBlock q p err] :=
  congrArg (· ++ [s.hqBlock q p err])
    (((Frame.refl [.ecc] (regsIn eccRegs) s).eccRead (by simp) (eccRegs_regsIn fun _ h => h) _ _ _).out_eq (by simp))

/-- The cases of HOSTQ_DMA_BLOCK_WRITE (R120). -/
theorem exec_hostqDmaBlockWrite (hk : (s.hq q).pkts = p :: rest) : exec (.hostqDmaBlockWrite q err) s =
    if s.hqRuns q && s.hqRoom q then
      if (s.hq q).sent + 8 < (s.pktCells p).length then
        ((s.hqBlockOut q p err).setHq q { s.hq q with sent := (s.hq q).sent + 8 }).done
      else ((((s.hqBlockOut q p err).set (hqf F.SET_HQ_PROD_PROD q) (s.hqNext q + 1)).hqLeave q).hqPend q).done
    else s.done := by
  show execHostqDmaBlockWrite q err s = _
  unfold execHostqDmaBlockWrite
  dsimp only
  have first (l : List (Nat × SWord)) : (l.take 8).head? = l.head? := by cases l <;> rfl
  rw [hk]
  simp only [first]
  split
  · rename_i hc
    have hb : ((s.hqBlockCheck q p err).1.pfn (s.hqOwner q)).bme = true := by
      have hf : Frame [.ecc] (regsIn eccRegs) s (s.hqBlockCheck q p err).1 :=
        (Frame.refl _ _ s).eccRead (by simp) (eccRegs_regsIn fun _ h => h) _ _ _
      rw [State.pfn_same hf (by simp)]
      simp only [Bool.and_eq_true] at hc
      exact hc.1.2
    have hd : (s.hqBlockCheck q p err).1.dma (s.hqOwner q) (s.hqBlockAt q) (packedBlock (s.hqBlockWords q p (s.hqBlockCheck q p err))
        (s.hqNext q / s.get (hqf F.SET_HQ_SIZE_SIZE q) % 2 == 1)) = s.hqBlockOut q p err := if_pos hb
    rw [if_pos (show (s.hqRuns q && s.hqRoom q) = true from hc), ← hd]
    rfl
  · rename_i hc
    rw [if_neg (show ¬(s.hqRuns q && s.hqRoom q) = true from hc)]

/-- PKTOUT is no register of store integrity, and logging leaves it alone. -/
theorem hqPktout_closed : ∀ q : Fin 16, regsIn eccRegs (hqf F.SET_HQ_PKTOUT_PKTOUT q).addr = false ∧
    logReg (hqf F.SET_HQ_PKTOUT_PKTOUT q).addr = false := by decide +kernel

/-- A block that is not its packet's last: PROD stays (R120). -/
theorem hostqDmaBlockWrite_mid (hk : (s.hq q).pkts = p :: rest) (hrun : s.hqRuns q = true) (hroom : s.hqRoom q = true)
    (hl : (s.hq q).sent + 8 < (s.pktCells p).length) : Leads (.hostqDmaBlockWrite q err) s [.out, .ecc] (regsIn eccRegs) fun u =>
      u.out = s.out ++ [s.hqBlock q p err] ∧ u.hq q = { s.hq q with sent := (s.hq q).sent + 8 } ∧ ∀ j, j ≠ q.val → u.hq j = s.hq j := by
  refine ⟨(s.hqBlockOut q p err).setHq q { s.hq q with sent := (s.hq q).sent + 8 }, ?_, ⟨State.hqBlockOut_out, State.setHq_hq_self _ _ _,
    fun j hj => (State.setHq_hq_ne _ _ hj).trans (State.hq_of_queues State.hqBlockOut_queues j)⟩,
    (State.hqBlockOut_frame (fun _ h => h) (eccRegs_regsIn fun _ h => h)).setHq _ _⟩
  rw [exec_hostqDmaBlockWrite hk, hrun, hroom, Bool.and_self, if_pos rfl, if_pos hl]
  rfl

/-- The packet's last block: PROD passes its blocks, and it leaves (R120, R123). -/
theorem hostqDmaBlockWrite_last (hk : (s.hq q).pkts = p :: rest) (hrun : s.hqRuns q = true) (hroom : s.hqRoom q = true)
    (hl : (s.pktCells p).length ≤ (s.hq q).sent + 8) : Leads (.hostqDmaBlockWrite q err) s [.out, .ecc]
      (regsIn ((R.SET_HQ_PROD + 0x80 * q.val) :: (R.SET_HQ_PKTOUT + 0x80 * q.val) :: eccRegs)) fun u =>
      u.out = s.out ++ [s.hqBlock q p err] ∧ u.get (hqf F.SET_HQ_PROD_PROD q) = (s.hqNext q + 1) % 2 ^ 32 ∧
        u.hq q = { s.hq q with pkts := rest, sent := 0 } ∧ (∀ j, j ≠ q.val → u.hq j = s.hq j) ∧
        u.get (hqf F.SET_HQ_PKTOUT_PKTOUT q) = (s.get (hqf F.SET_HQ_PKTOUT_PKTOUT q) + 1) % 2 ^ 32 ∧
        u.flag ⟨R.SET_HQ_PEND, q, q⟩ = true := by
  have hf : Frame [.out, .ecc] (regsIn ((R.SET_HQ_PROD + 0x80 * q.val) :: (R.SET_HQ_PKTOUT + 0x80 * q.val) :: eccRegs)) s
      ((s.hqBlockOut q p err).set (hqf F.SET_HQ_PROD_PROD q) (s.hqNext q + 1)) :=
    (State.hqBlockOut_frame (fun _ h => h) (eccRegs_regsIn fun _ h => by simp [h])).set _ _ (by simp [hqf_addr, regsIn])
  have hq : ((s.hqBlockOut q p err).set (hqf F.SET_HQ_PROD_PROD q) (s.hqNext q + 1)).hq q = s.hq q :=
    State.hq_of_queues State.hqBlockOut_queues q
  refine ⟨(((s.hqBlockOut q p err).set (hqf F.SET_HQ_PROD_PROD q) (s.hqNext q + 1)).hqLeave q).hqPend q, ?_, ⟨?_, ?_, ?_, ?_, ?_, ?_⟩, ?_⟩
  · rw [exec_hostqDmaBlockWrite hk, hrun, hroom, Bool.and_self, if_pos rfl, if_neg (by omega)]
    rfl
  · have hl : Frame [] (regsIn [R.SET_HQ_PKTOUT + 0x80 * q.val]) ((s.hqBlockOut q p err).set (hqf F.SET_HQ_PROD_PROD q) (s.hqNext q + 1)) _ :=
      (Frame.refl _ _ _).hqLeave hq hk (by simp [regsIn])
    exact (Logs.out (Logs.hqPend (al := false) .refl q)).trans ((hl.out_eq (by simp)).trans State.hqBlockOut_out)
  · rw [State.hqPend_get _ _ (by decide) (by decide), State.hqLeave_get_ne hq hk (by simp [hqf_addr])]
    exact State.get_set_self _ _ (hqf_word_ok _ q)
  · exact (State.hqPend_hq _ _ _).trans (State.hqLeave_hq hq hk)
  · exact fun j hj => (State.hqPend_hq _ _ _).trans ((State.hqLeave_hq_ne hq hk hj).trans (State.hq_of_queues State.hqBlockOut_queues j))
  · rw [State.hqPend_get _ _ (by decide) (by decide), State.hqLeave_pktout hq hk, State.get_set_ne _ _ (by simp [hqf_addr]),
      State.get, State.get, State.hqBlockOut_frame (ps := [.out, .ecc]) (rs := regsIn eccRegs) (fun _ h => h) (eccRegs_regsIn fun _ h => h)
        |>.regs _ (hqPktout_closed q).1 (hqPktout_closed q).2]
  · exact State.hqPend_flag _ q
  · exact (hf.hqLeave hq hk (by simp [regsIn])).logs (Logs.hqPend (al := false) .refl q)

/-- Nothing is written without a packet, without room, or while the queue does not run (R120). -/
theorem hostqDmaBlockWrite_idle (h : (s.hq q).pkts = [] ∨ s.hqRuns q = false ∨ s.hqRoom q = false) :
    Leads (.hostqDmaBlockWrite q err) s [] noRegs fun u => u = s := by
  refine Leads.nothing ?_
  cases hk : (s.hq q).pkts with
  | nil =>
    show execHostqDmaBlockWrite q err s = _
    unfold execHostqDmaBlockWrite
    dsimp only
    rw [hk]
  | cons p rest => rw [exec_hostqDmaBlockWrite hk, if_neg fun hc => by simp_all]

end block

/-! ### A write of CONS (R117, R120) -/

section cons
variable {a : Agent} {q : Fin 16} {v : Dword}

theorem exec_hostqConsWrite (hm : s.mayWrite a (R.SET_HQ_CONS + 0x80 * q)) : exec (.hostqConsWrite a q v) s =
    (if s.hqMine q a then s.consWrite q v else s).done := congrArg State.done (State.gate_may hm _)

/-- CONS_q as written. -/
def State.consStored (s : State) (q : Nat) (v : Dword) : State := s.set (hqf F.SET_HQ_CONS_CONS q) v.toNat

/-- Does a write of CONS_q advance it in DMA mode. -/
def State.consAdvances (s : State) (q : Nat) (v : Dword) : Bool :=
  !s.flag (hqf F.SET_HQ_CFG_MODE q) && decide (0 < subMod 32 v.toNat (s.get (hqf F.SET_HQ_CONS_CONS q))) &&
    decide (subMod 32 v.toNat (s.get (hqf F.SET_HQ_CONS_CONS q)) < 2 ^ 31)

theorem State.consWrite_past (h : 0 < subMod 32 v.toNat (s.get (hqf F.SET_HQ_PROD_PROD q)) ∧
    subMod 32 v.toNat (s.get (hqf F.SET_HQ_PROD_PROD q)) < 2 ^ 31) : s.consWrite q v = s.ev0 Ev.SET_CFG_RANGE := if_pos (by simpa using h)

theorem State.consWrite_taken (h : ¬(0 < subMod 32 v.toNat (s.get (hqf F.SET_HQ_PROD_PROD q)) ∧
    subMod 32 v.toNat (s.get (hqf F.SET_HQ_PROD_PROD q)) < 2 ^ 31)) : s.consWrite q v =
      if s.consAdvances q v then (s.consStored q v).hqRenew q else s.consStored q v := by
  have hm : (s.consStored q v).flag (hqf F.SET_HQ_CFG_MODE q) = s.flag (hqf F.SET_HQ_CFG_MODE q) :=
    State.flag_set_ne _ _ (by simp [hqf_addr])
  unfold State.consAdvances
  rw [← hm]
  exact if_neg (by simpa using h)

theorem hostqConsWrite_taken (hm : s.mayWrite a (R.SET_HQ_CONS + 0x80 * q)) (hq : s.hqMine q a = true)
    (h : ¬(0 < subMod 32 v.toNat (s.get (hqf F.SET_HQ_PROD_PROD q)) ∧ subMod 32 v.toNat (s.get (hqf F.SET_HQ_PROD_PROD q)) < 2 ^ 31)) :
    Leads (.hostqConsWrite a q v) s [] (regsIn [R.SET_HQ_CONS + 0x80 * q]) fun u =>
      u.get (hqf F.SET_HQ_CONS_CONS q) = v.toNat ∧ (∀ j, j ≠ q.val → u.hq j = s.hq j) ∧
        u.hq q = if s.consAdvances q v then { s.hq q with leaseAt := s.tim.now } else s.hq q := by
  have hg : (s.consStored q v).get (hqf F.SET_HQ_CONS_CONS q) = v.toNat :=
    (State.get_set_self _ _ (hqf_word_ok _ q)).trans (Nat.mod_eq_of_lt v.isLt)
  have hf : Frame [] (regsIn [R.SET_HQ_CONS + 0x80 * q]) s (s.consStored q v) := (Frame.refl _ _ s).set _ _ (by simp [regsIn, hqf_addr])
  have he : exec (.hostqConsWrite a q v) s = _ :=
    (exec_hostqConsWrite hm).trans (congrArg State.done ((if_pos hq).trans (State.consWrite_taken h)))
  cases hc : s.consAdvances q v <;> rw [hc] at he
  · exact ⟨_, he, ⟨hg, fun _ _ => rfl, rfl⟩, hf⟩
  · exact ⟨_, he, ⟨hg, fun j hj => State.setHq_hq_ne _ _ hj, State.setHq_hq_self _ _ _⟩, hf.setHq _ _⟩

end cons

/-! ### A write of SET_HQ_PEND (R123) -/

section pend

/-- One bit of a number, as a field shows it. -/
theorem bits_one_testBit (x i : Nat) : (bits x i i != 0) = x.testBit i := by
  rw [Nat.testBit, Nat.shiftRight_eq_div_pow, Nat.one_and_eq_mod_two, bits, Nat.sub_self, Nat.zero_add, Nat.pow_one]

theorem bit_testBit (x i : Nat) : bit x i = x.testBit i := by
  have h : x / 2 ^ i % 2 = 0 ∨ x / 2 ^ i % 2 = 1 := by omega
  rw [Nat.testBit, Nat.shiftRight_eq_div_pow, Nat.one_and_eq_mod_two, bit]
  rcases h with h | h <;> rw [h] <;> rfl

/-- Taking away bits that are set clears them. -/
theorem testBit_sub_and (p c i : Nat) : (p - (p &&& c)).testBit i = (p.testBit i && !c.testBit i) := by
  have hle : p &&& c ≤ p := Nat.and_le_left
  have hodd : (p &&& c) % 2 = 1 ↔ p % 2 = 1 ∧ c % 2 = 1 := Nat.and_mod_two_eq_one
  induction i generalizing p c with
  | zero =>
    have hp : p % 2 = 0 ∨ p % 2 = 1 := by omega
    have hc : c % 2 = 0 ∨ c % 2 = 1 := by omega
    have hx : (p - (p &&& c)) % 2 = 1 ↔ p % 2 = 1 ∧ ¬c % 2 = 1 := by omega
    simp only [Nat.testBit_zero, hx]
    rcases hp with hp | hp <;> rcases hc with hc | hc <;> simp [hp, hc]
  | succ i ih =>
    have hhalf : (p - (p &&& c)) / 2 = p / 2 - (p / 2 &&& c / 2) := by
      rw [← Nat.and_div_two]
      omega
    rw [Nat.testBit_succ, Nat.testBit_succ, Nat.testBit_succ, hhalf]
    exact ih _ _ Nat.and_le_left Nat.and_mod_two_eq_one

/-- A sum of distinct powers of two has the bits summed. -/
theorem sum_pow_testBit (f : Nat → Bool) (n : Nat) :
    (((List.range n).filter f).foldl (fun m q => m + 2 ^ q) 0) < 2 ^ n ∧
      ∀ i, i < n → (((List.range n).filter f).foldl (fun m q => m + 2 ^ q) 0).testBit i = f i := by
  induction n with
  | zero => exact ⟨Nat.one_pos, fun i hi => absurd hi (Nat.not_lt_zero i)⟩
  | succ n ih =>
    obtain ⟨hlt, hbit⟩ := ih
    rw [List.range_succ, List.filter_append, List.foldl_append]
    generalize ((List.range n).filter f).foldl (fun m q => m + 2 ^ q) 0 = m at *
    have hpow : 2 ^ (n + 1) = 2 ^ n + 2 ^ n := by omega
    have hm : m.testBit n = false := Nat.testBit_eq_false_of_lt hlt
    cases hf : f n
    · rw [List.filter_cons_of_neg (by simp [hf])]
      refine ⟨by simp only [List.filter_nil, List.foldl_nil]; omega, fun i hi => ?_⟩
      rcases Nat.lt_succ_iff_lt_or_eq.mp hi with h | rfl
      · exact hbit i h
      · exact hm.trans hf.symm
    · rw [List.filter_cons_of_pos hf]
      refine ⟨by simp only [List.filter_nil, List.foldl_cons, List.foldl_nil]; omega, fun i hi => ?_⟩
      simp only [List.filter_nil, List.foldl_cons, List.foldl_nil, Nat.add_comm m]
      rcases Nat.lt_succ_iff_lt_or_eq.mp hi with h | rfl
      · rw [Nat.testBit_two_pow_add_gt h, hbit i h]
      · rw [Nat.testBit_two_pow_add_eq, hm, hf]
        rfl

/-- The bits that an agent may clear. -/
theorem State.hqPendMask_bit (s : State) (a : Agent) {q : Nat} (hq : q < 16) :
    (s.hqPendMask a).testBit q = (decide (a ≠ .pf1) || s.flag (hqf F.SET_HQ_CFG_OWNER q)) := by
  unfold State.hqPendMask
  split
  · rename_i h
    rw [(sum_pow_testBit _ 16).2 q hq, h]
    rfl
  · rename_i h
    rw [show 65535 = 2 ^ 16 - 1 from rfl, Nat.testBit_two_pow_sub_one]
    simp [h, hq]

theorem State.hqPendWrite_flag (s : State) (a : Agent) (v : Dword) {q : Nat} (hq : q < 16) :
    (s.hqPendWrite a v).flag ⟨R.SET_HQ_PEND, q, q⟩ = (s.flag ⟨R.SET_HQ_PEND, q, q⟩ &&
      !(bit v.toNat q && (decide (a ≠ .pf1) || s.flag (hqf F.SET_HQ_CFG_OWNER q)))) := by
  -- a bit of the register is that bit of its field of 16 bits
  have low (x : Nat) : (bits x 15 0).testBit q = x.testBit q := by
    show (x / 2 ^ 0 % 2 ^ 16).testBit q = _
    rw [Nat.pow_zero, Nat.div_one, Nat.testBit_mod_two_pow]
    simp [hq]
  have flag (t : State) : t.flag ⟨R.SET_HQ_PEND, q, q⟩ = (t.get F.SET_HQ_PEND_PEND).testBit q := (bits_one_testBit _ q).trans (low _).symm
  have mod (x : Nat) : (x % 2 ^ 16).testBit q = x.testBit q := by
    rw [Nat.testBit_mod_two_pow]
    simp [hq]
  rw [flag, flag, State.hqPendWrite, State.get_set_self _ _ (by decide)]
  refine (mod _).trans ((testBit_sub_and _ (bits v.toNat 15 0 &&& s.hqPendMask a) q).trans ?_)
  rw [Nat.testBit_and, low, State.hqPendMask_bit _ _ hq, bit_testBit]

theorem hqPendClear_leads {a : Agent} {v : Dword} (hm : s.mayWrite a R.SET_HQ_PEND) : Leads (.hqPendClear a v) s [] noRegs fun u =>
    ∀ q, q < 16 → u.flag ⟨R.SET_HQ_PEND, q, q⟩ = (s.flag ⟨R.SET_HQ_PEND, q, q⟩ &&
      !(bit v.toNat q && (decide (a ≠ .pf1) || s.flag (hqf F.SET_HQ_CFG_OWNER q)))) :=
  ⟨s.hqPendWrite a v, congrArg State.done (State.gate_may hm _), fun _ hq => s.hqPendWrite_flag a v hq, (Frame.refl _ _ s).set _ _ (by decide)⟩

end pend

/-! ### A pop in MMIO mode (R121) -/

section pop
variable {a : Agent} {q : Fin 16} {byte len n : Nat} {err : ReadErr} {p : Pkt} {rest : List Pkt} {w : SWord} {bad : Bool}

/-- Does a read of the agent pop or show words of the queue. -/
def State.hqPops (s : State) (a : Agent) (q byte len : Nat) : Bool :=
  s.hqMine q a && s.flag (hqf F.SET_HQ_CFG_MODE q) && paddedOk byte len

/-- The agent's latch for the queue takes a word. -/
def State.hqLatched (s : State) (a : Agent) (q : Nat) (l : Nat × Nat) : State :=
  { s with sett := { s.sett with hqLatch := mput s.sett.hqLatch (agentNum a * 16 + q) l } }

@[simp] theorem State.hqLatched_queues (s : State) (a : Agent) (q : Nat) (l : Nat × Nat) : (s.hqLatched a q l).sett.queues = s.sett.queues := rfl

theorem State.hqLatched_latch (s : State) (a : Agent) (q : Nat) (l : Nat × Nat) :
    mgetD (s.hqLatched a q l).sett.hqLatch (agentNum a * 16 + q) (0, 0) = l := mgetD_mput_self _ _ _ _

/-- An answer changes no register. -/
theorem State.wordAnswer_latched_regs (s : State) (a : Agent) (q byte len : Nat) (l : Nat × Nat) :
    ((s.hqLatched a q l).wordAnswer a byte len l).regs = s.regs := rfl

/-- The head word has been popped: its check's state with the latch, the lease and the queue's place set. -/
def State.hqWordGone (s : State) (q : Nat) (l : Nat × Nat) (sent : Nat) : State :=
  (s.hqRenew q).setHq q { (s.hqRenew q).hq q with sent := sent + 1, last := l }

theorem State.hqPop_not (h : s.hqPops a q byte len = false) : s.hqPop a q byte len err = s.zeroAnswer a len :=
  if_pos (by simp only [State.hqPops] at h; revert h; cases s.hqMine q a <;> cases s.flag (hqf F.SET_HQ_CFG_MODE q) <;> simp)

theorem State.hqPop_is (h : s.hqPops a q byte len = true) : s.hqPop a q byte len err =
    if byte != 0 then s.wordAnswer a byte len (mgetD s.sett.hqLatch (agentNum a * 16 + q) (0, 0))
    else match (s.hq q).pkts with
      | [] =>
        let l := (0, flagByte false false false true)
        ((((s.setB (hqf F.SET_HQ_STAT_UNDERRUN q) true).inc (hqf F.SET_HQ_UNDER_UNDER_CNT q)).ev0 Ev.SET_HQ_UNDERRUN).hqLatched a q l).wordAnswer
          a 0 len l
      | p :: _ =>
        let c := ((s.pktCells p)[(s.hq q).sent]?).getD (0, sword 0)
        let r := s.eccRead false c.1 err
        let bad := ((((r.1.pktCells p)[(s.hq q).sent]?).getD c).2).poison
        let l := (c.2.v.toNat, flagByte c.2.eop bad r.2 false)
        let s' := ((r.1.hqLatched a q l).poisonRead c.1 bad).hqWordGone q l (s.hq q).sent
        (if (s.pktCells p).length ≤ (s.hq q).sent + 1 then s'.hqLeave q else s').wordAnswer a 0 len l := by
  refine if_neg ?_
  simp only [State.hqPops, Bool.and_eq_true] at h
  simp [h]

/-- A read that neither pops nor shows a word (R13, R121). -/
theorem hostqDataPop_not (h : s.hqPops a q byte len = false) : Does (.hostqDataPop a q byte len err) s [.out] noRegs fun t =>
    t.out = s.out ++ [Out.answer a (zeros len) false] :=
  ⟨_, congrArg State.done (State.hqPop_not h), State.drain_out _, ((Frame.refl _ _ s).emit (by simp) _).drain⟩

/-- A read of later bytes answers from the agent's latch (R121). -/
theorem hostqDataPop_later (h : s.hqPops a q byte len = true) (hb : byte ≠ 0) {l : Nat × Nat}
    (hl : l = mgetD s.sett.hqLatch (agentNum a * 16 + q) (0, 0)) : Does (.hostqDataPop a q byte len err) s [.out] noRegs fun t =>
      t.out = s.out ++ [Out.answer a (bytesAt (padded l.1 l.2) byte len) (flagPoison l)] :=
  ⟨_, congrArg State.done ((State.hqPop_is h).trans (if_pos (by simp [hb]))), by subst hl; exact State.drain_out _,
    ((Frame.refl _ _ s).emit (by simp) _).drain⟩

/-- An empty queue has been read: UNDERRUN, its counter and the event (R121). -/
def State.hqUnderrun (s : State) (q : Nat) : State :=
  ((s.setB (hqf F.SET_HQ_STAT_UNDERRUN q) true).inc (hqf F.SET_HQ_UNDER_UNDER_CNT q)).ev0 Ev.SET_HQ_UNDERRUN

theorem State.hqUnderrun_sett (s : State) (q : Nat) : (s.hqUnderrun q).sett = s.sett :=
  (State.ev0_sett _ _).trans ((State.inc_sett _ _).trans (s.setB_sett _ _))

theorem State.hqUnderrun_cnt (s : State) (q : Fin 16) :
    (s.hqUnderrun q).get (hqf F.SET_HQ_UNDER_UNDER_CNT q) = (s.get (hqf F.SET_HQ_UNDER_UNDER_CNT q) + 1) % 2 ^ 32 := by
  have h := State.ev0_rd_below ((s.setB (hqf F.SET_HQ_STAT_UNDERRUN q) true).inc (hqf F.SET_HQ_UNDER_UNDER_CNT q)) Ev.SET_HQ_UNDERRUN
    (show (hqf F.SET_HQ_UNDER_UNDER_CNT q).addr < R.IRQ_PEND from hqReg_below q (by decide))
  rw [State.get, State.hqUnderrun, h]
  refine (State.get_inc_self _ (hqf_word_ok _ q)).trans ?_
  rw [State.setB, State.get_set_ne _ _ (by simp [hqf_addr])]
  rfl

theorem State.hqUnderrun_flag (s : State) (q : Fin 16) : (s.hqUnderrun q).flag (hqf F.SET_HQ_STAT_UNDERRUN q) = true := by
  have h := State.ev0_rd_below ((s.setB (hqf F.SET_HQ_STAT_UNDERRUN q) true).inc (hqf F.SET_HQ_UNDER_UNDER_CNT q)) Ev.SET_HQ_UNDERRUN
    (show (hqf F.SET_HQ_STAT_UNDERRUN q).addr < R.IRQ_PEND from hqReg_below q (by decide))
  rw [State.flag, State.get, State.hqUnderrun, h]
  exact (State.flag_set_ne _ _ (by simp [hqf_addr])).trans (State.flag_setB_self _ _ (hqf_bit_ok (by decide)) rfl)

/-- STAT is a register that logging may change. -/
theorem logReg_hqStat : ∀ q : Fin 16, logReg (hqf F.SET_HQ_STAT_UNDERRUN q).addr = true := by decide +kernel

theorem State.hqUnderrun_frame (s : State) (q : Fin 16) : Frame [] (regsIn [R.SET_HQ_UNDER + 0x80 * q]) s (s.hqUnderrun q) :=
  (((Frame.refl _ _ s).setB _ _ (reg_log (logReg_hqStat q))).inc _ (by simp [regsIn, hqf_addr])).ev0 _

/-- A pop of an empty queue (R121). -/
theorem hostqDataPop_empty (h : s.hqPops a q 0 len = true) (hk : (s.hq q).pkts = []) :
    Leads (.hostqDataPop a q 0 len err) s [.out, .sett] (regsIn [R.SET_HQ_UNDER + 0x80 * q]) fun u =>
      u.out = s.out ++ [Out.answer a (bytesAt (padded 0 8) 0 len) false] ∧
        u.get (hqf F.SET_HQ_UNDER_UNDER_CNT q) = (s.get (hqf F.SET_HQ_UNDER_UNDER_CNT q) + 1) % 2 ^ 32 ∧
        u.flag (hqf F.SET_HQ_STAT_UNDERRUN q) = true ∧ u.pends 27 ∧ u.hq q = s.hq q ∧ (∀ j, j ≠ q.val → u.hq j = s.hq j) ∧
        mgetD u.sett.hqLatch (agentNum a * 16 + q) (0, 0) = (0, 8) := by
  have he : exec (.hostqDataPop a q 0 len err) s = (((s.hqUnderrun q).hqLatched a q (0, 8)).wordAnswer a 0 len (0, 8)).done := by
    refine congrArg State.done ((State.hqPop_is h).trans ((if_neg (by simp)).trans ?_))
    rw [hk]
    rfl
  have hq (j : Nat) : (s.hqUnderrun q).hq j = s.hq j := State.hq_of_queues (congrArg Sett.queues (s.hqUnderrun_sett q)) j
  have hp : (s.hqUnderrun q).pends 27 := State.ev0_pends _ (by decide)
  have hg := State.get_of_regs ((s.hqUnderrun q).wordAnswer_latched_regs a q 0 len (0, 8))
  refine ⟨_, he, ⟨?_, (hg _).trans (s.hqUnderrun_cnt q), (congrArg (· != 0) (hg _)).trans (s.hqUnderrun_flag q), State.pends_of_regs (State.wordAnswer_latched_regs _ _ _ _ _ _)
    hp, hq q, fun j _ => hq j, State.hqLatched_latch _ _ _ _⟩, ?_⟩
  · exact congrArg (· ++ [_]) ((s.hqUnderrun_frame q).out_eq (by simp))
  · exact (((s.hqUnderrun_frame q).mono (by simp) fun _ h => h).put_sett (by simp) _).emit (by simp) _

theorem State.hqWordGone_hq (v : State) (q : Nat) (l : Nat × Nat) (sent : Nat) :
    (v.hqWordGone q l sent).hq q = { v.hq q with sent := sent + 1, leaseAt := v.now, last := l } := by
  refine (State.setHq_hq_self _ _ _).trans ?_
  rw [show (v.hqRenew q).hq q = { v.hq q with leaseAt := v.now } from State.setHq_hq_self _ _ _]

theorem State.hqWordGone_hq_ne (v : State) {q j : Nat} (l : Nat × Nat) (sent : Nat) (hj : j ≠ q) : (v.hqWordGone q l sent).hq j = v.hq j :=
  (State.setHq_hq_ne _ _ hj).trans (State.setHq_hq_ne _ _ hj)

theorem State.hqWordGone_latch (v : State) (q : Nat) (l : Nat × Nat) (sent : Nat) : (v.hqWordGone q l sent).sett.hqLatch = v.sett.hqLatch := rfl

/-- The word of a pop with the flags that the check of its block leaves. -/
def popWord (w : SWord) (bad corrected : Bool) : Nat × Nat := (w.v.toNat, flagByte w.eop bad corrected false)

/-- The state in which the word has been checked, latched and taken from its queue. -/
def State.hqWordTaken (s : State) (a : Agent) (q n : Nat) (w : SWord) (r : State × Bool) (bad : Bool) : State :=
  ((r.1.hqLatched a q (popWord w bad r.2)).poisonRead n bad).hqWordGone q (popWord w bad r.2) (s.hq q).sent

theorem State.hqPop_word (h : s.hqPops a q 0 len = true) (hk : (s.hq q).pkts = p :: rest) (hc : (s.pktCells p)[(s.hq q).sent]? = some (n, w))
    {r : State × Bool} (hr : r = s.eccRead false n err) (hb : bad = ((((r.1.pktCells p)[(s.hq q).sent]?).getD (n, w)).2).poison) :
    s.hqPop a q 0 len err = (if (s.pktCells p).length ≤ (s.hq q).sent + 1 then (s.hqWordTaken a q n w r bad).hqLeave q
      else s.hqWordTaken a q n w r bad).wordAnswer a 0 len (popWord w bad r.2) := by
  refine (State.hqPop_is h).trans ((if_neg (by simp)).trans ?_)
  rw [hk]
  dsimp only
  rw [hc, Option.getD_some]
  dsimp only
  rw [← hr, ← hb]
  rfl

section taken
variable {r : State × Bool} (hr : r = s.eccRead false n err)
include hr

theorem State.hqWordTaken_frame : Frame [.sett, .ecc] (regsIn eccRegs) s (s.hqWordTaken a q n w r bad) := by
  subst hr
  exact ((((Frame.refl _ _ s).eccRead (by simp) (eccRegs_regsIn fun _ h => h) _ _ _).put_sett (by simp) _).poisonRead (by simp)
    (eccRegs_regsIn fun _ h => h) _ _).setHq _ _ |>.setHq _ _

theorem State.hqWordTaken_before (j : Nat) : ((r.1.hqLatched a q (popWord w bad r.2)).poisonRead n bad).hq j = s.hq j := by
  subst hr
  exact State.hq_of_queues ((congrArg Sett.queues (State.poisonRead_sett _ _ _)).trans ((State.hqLatched_queues _ _ _ _).trans
    (s.eccRead_queues _ _ _))) j

theorem State.hqWordTaken_hq : (s.hqWordTaken a q n w r bad).hq q =
    { s.hq q with sent := (s.hq q).sent + 1, leaseAt := s.tim.now, last := popWord w bad r.2 } := by
  have hn : ((r.1.hqLatched a q (popWord w bad r.2)).poisonRead n bad).now = s.tim.now := by
    subst hr
    exact ((((Frame.refl [.sett, .ecc] (regsIn eccRegs) s).eccRead (by simp) (eccRegs_regsIn fun _ h => h) _ _ _).put_sett (by simp) _).poisonRead
      (by simp) (eccRegs_regsIn fun _ h => h) _ _).now_eq (by simp)
  rw [State.hqWordTaken, State.hqWordGone_hq, State.hqWordTaken_before hr, hn]

theorem State.hqWordTaken_hq_ne {j : Nat} (hj : j ≠ q) : (s.hqWordTaken a q n w r bad).hq j = s.hq j :=
  (State.hqWordGone_hq_ne _ _ _ hj).trans (State.hqWordTaken_before hr j)

theorem State.hqWordTaken_out : (s.hqWordTaken a q n w r bad).out = s.out := (State.hqWordTaken_frame hr).out_eq (by simp)

theorem State.hqWordTaken_latch : mgetD (s.hqWordTaken a q n w r bad).sett.hqLatch (agentNum a * 16 + q) (0, 0) = popWord w bad r.2 := by
  have := hr
  have h : (s.hqWordTaken a q n w r bad).sett.hqLatch = (r.1.hqLatched a q (popWord w bad r.2)).sett.hqLatch :=
    (State.hqWordGone_latch _ _ _ _).trans (congrArg Sett.hqLatch (State.poisonRead_sett _ _ _))
  rw [h]
  exact State.hqLatched_latch _ _ _ _

theorem State.hqWordTaken_pktout : (s.hqWordTaken a q n w r bad).get (hqf F.SET_HQ_PKTOUT_PKTOUT q) = s.get (hqf F.SET_HQ_PKTOUT_PKTOUT q) := by
  rw [State.get, State.get, (State.hqWordTaken_frame hr).regs _ (hqPktout_closed q).1 (hqPktout_closed q).2]

end taken

/-- Logging, and a packet that leaves, keep the agents' latches. -/
theorem Frame.hqLatch (h : Frame ps rs s t) (hp : Part.sett ∉ ps) : t.sett.hqLatch = s.sett.hqLatch :=
  have hq : t.sett.quiet = s.sett.quiet := h.parts .sett hp
  (congrArg Sett.hqLatch hq : t.sett.quiet.hqLatch = s.sett.quiet.hqLatch)

/-- A pop of a word answers it as the check of its block leaves it; after the last word the packet leaves (R111, R121). -/
theorem hostqDataPop_word (h : s.hqPops a q 0 len = true) (hk : (s.hq q).pkts = p :: rest) (hc : (s.pktCells p)[(s.hq q).sent]? = some (n, w))
    {r : State × Bool} (hr : r = s.eccRead false n err) (hb : bad = ((((r.1.pktCells p)[(s.hq q).sent]?).getD (n, w)).2).poison) :
    Leads (.hostqDataPop a q 0 len err) s [.out, .sett, .ecc] (regsIn ((R.SET_HQ_PKTOUT + 0x80 * q.val) :: eccRegs)) fun u =>
      u.out = s.out ++ [Out.answer a (bytesAt (padded w.v.toNat (flagByte w.eop bad r.2 false)) 0 len) bad] ∧
        (∀ j, j ≠ q.val → u.hq j = s.hq j) ∧ mgetD u.sett.hqLatch (agentNum a * 16 + q) (0, 0) = popWord w bad r.2 ∧
        ((s.hq q).sent + 1 < (s.pktCells p).length →
          u.hq q = { s.hq q with sent := (s.hq q).sent + 1, leaseAt := s.tim.now, last := popWord w bad r.2 }) ∧
        ((s.pktCells p).length = (s.hq q).sent + 1 →
          u.hq q = { s.hq q with pkts := rest, sent := 0, leaseAt := s.tim.now, last := popWord w bad r.2 } ∧
            u.get (hqf F.SET_HQ_PKTOUT_PKTOUT q) = (s.get (hqf F.SET_HQ_PKTOUT_PKTOUT q) + 1) % 2 ^ 32) := by
  have he := congrArg State.done (State.hqPop_word h hk hc hr hb)
  have hq := State.hqWordTaken_hq (a := a) (q := q) (w := w) (bad := bad) hr
  have hf : Frame [.out, .sett, .ecc] (regsIn ((R.SET_HQ_PKTOUT + 0x80 * q.val) :: eccRegs)) s (s.hqWordTaken a q n w r bad) :=
    (State.hqWordTaken_frame hr).mono (by simp) fun x hx => by simp_all [regsIn]
  have answered (v : State) (hv : v.out = s.out) : (v.wordAnswer a 0 len (popWord w bad r.2)).out =
      s.out ++ [Out.answer a (bytesAt (padded w.v.toNat (flagByte w.eop bad r.2 false)) 0 len) bad] := by
    rw [State.wordAnswer, State.emit_out, hv, popWord, flagPoison_flagByte]
  by_cases hl : (s.pktCells p).length ≤ (s.hq q).sent + 1
  · rw [if_pos hl] at he
    have hgone : ({ s.hq q with sent := (s.hq q).sent + 1, leaseAt := s.tim.now, last := popWord w bad r.2 } : HostQ).pkts = p :: rest := hk
    have hleft : Frame [] (regsIn [R.SET_HQ_PKTOUT + 0x80 * q.val]) _ _ := (Frame.refl _ _ _).hqLeave hq hgone (by simp [regsIn])
    refine ⟨_, he, ⟨answered _ ((hleft.out_eq (by simp)).trans (State.hqWordTaken_out hr)), fun j hj =>
      (State.hqLeave_hq_ne hq hgone hj).trans (State.hqWordTaken_hq_ne hr hj), ?_, fun hlt => absurd hlt (Nat.not_lt.mpr hl), fun _ =>
      ⟨State.hqLeave_hq hq hgone, ?_⟩⟩, (hf.hqLeave hq hgone (by simp [regsIn])).emit (by simp) _⟩
    · exact (congrArg (mgetD · _ _) (hleft.hqLatch (by simp))).trans (State.hqWordTaken_latch hr)
    · exact (State.hqLeave_pktout hq hgone).trans (by rw [State.hqWordTaken_pktout hr])
  · rw [if_neg hl] at he
    exact ⟨_, he, ⟨answered _ (State.hqWordTaken_out hr), fun j hj => State.hqWordTaken_hq_ne hr hj, State.hqWordTaken_latch hr, fun _ => hq,
      fun heq => absurd heq.le hl⟩, hf.emit (by simp) _⟩

end pop

end Sys2Proof.Machine
end

section
open Sys2Proof Sys2Proof.Machine

/-- Settles O12: the branches of the block write, of the CONS write, of the pop and of the clear of PEND, each with its frame. -/
theorem hostQueuesDeliverInBothModes : Obligations.HostQueuesDeliverInBothModes := by
  refine ⟨fun s q err h hq => ?_, fun s a q v hm => ⟨fun hmine hd => ?_, fun hmine hd => ?_, fun hmine => ?_⟩,
    fun s a q byte len err h hq => ?_, fun s a v hm => hqPendClear_leads hm⟩
  · subst hq
    refine ⟨fun p rest r ws hk hrun hroom hr hws => ?_, fun h => hostqDmaBlockWrite_idle h⟩
    subst hws hr
    exact ⟨hostqDmaBlockWrite_mid hk hrun hroom, hostqDmaBlockWrite_last hk hrun hroom⟩
  · obtain ⟨u, he, ⟨h1, h2, h3⟩, hf⟩ := hostqConsWrite_taken hm hmine hd
    exact ⟨u, he, ⟨h1, h2, h3⟩, hf⟩
  · refine ⟨(s.ev0 Ev.SET_CFG_RANGE).drain, ?_, State.pends_drain (by decide) (State.ev0_pends _ (by decide)), ((Frame.refl _ _ s).ev0 _).drain⟩
    exact (exec_hostqConsWrite hm).trans (congrArg State.done ((if_pos hmine).trans (State.consWrite_past hd)))
  · exact Leads.nothing ((exec_hostqConsWrite hm).trans (congrArg State.done (if_neg (by simp [hmine]))))
  · subst hq
    refine ⟨hostqDataPop_not, fun hown hb => ?_, fun hown hb hk => ?_, fun p rest n w r bad hown hb hk hc hr hbad => ?_⟩
    · obtain ⟨t, he, hout, hf⟩ := hostqDataPop_later (err := err) hown hb rfl
      exact ⟨t, he, fun l hl => hl ▸ hout, hf⟩
    · subst hb
      exact hostqDataPop_empty hown hk
    · subst hb
      exact hostqDataPop_word hown hk hc hr hbad

end


section
namespace Sys2Proof.Machine

variable {s t u : State} {ps : List Part} {rs : Nat → Bool}

/-! ### Logging adds no holder of the hand-over block (R111, R438 to R442) -/

/-- How often the hand-over block holds a page. -/
def State.handovers (s : State) (id : Nat) : Nat := ((mget s.sett.pages id).map fun g => g.holders.count .handover).getD 0

/-- From s to t the hand-over block has gained no page. -/
def HandKept (s t : State) : Prop := ∀ id, t.handovers id ≤ s.handovers id

theorem HandKept.refl (s : State) : HandKept s s := fun _ => Nat.le_refl _

theorem HandKept.trans (h : HandKept s t) (k : HandKept t u) : HandKept s u := fun id => (k id).trans (h id)

theorem HandKept.of_sett (h : HandKept s t) (e : u.sett = t.sett) : HandKept s u := fun id => by
  rw [State.handovers, e]
  exact h id

theorem HandKept.of_pages (h : HandKept s t) (e : u.sett.pages = t.sett.pages) : HandKept s u := fun id => by
  rw [State.handovers, e]
  exact h id

theorem HandKept.evr (h : HandKept s t) (x : Evr) : HandKept s { t with evr := x } := h

theorem HandKept.alm (h : HandKept s t) (x : Alm) : HandKept s { t with alm := x } := h

theorem HandKept.set (h : HandKept s t) (f : Fld) (x : Nat) : HandKept s (t.set f x) := h.of_sett (t.set_sett f x)

theorem HandKept.inc (h : HandKept s t) (f : Fld) : HandKept s (t.inc f) := h.set _ _

theorem HandKept.add (h : HandKept s t) (f : Fld) (n : Nat) : HandKept s (t.add f n) := h.set _ _

theorem HandKept.ev0 (h : HandKept s t) (c : Nat) : HandKept s (t.ev0 c) := h.of_sett (t.ev0_sett c)

theorem HandKept.raise (h : HandKept s t) (n : Nat) : HandKept s (t.raise n) := h.of_sett (t.raiseOn_sett _ _ _)

theorem HandKept.quotaLog (h : HandKept s t) (l : List (Nat × Nat)) :
    HandKept s { t with sett := { t.sett with quotaLog := l } } := h.of_pages rfl

theorem HandKept.ite {c : Prop} [Decidable c] (ht : HandKept s t) (hu : HandKept s u) : HandKept s (if c then t else u) := by
  split
  · exact ht
  · exact hu

theorem HandKept.foldl {α : Type} (f : State → α → State) (l : List α) (h : HandKept s t)
    (hf : ∀ v a, HandKept s v → HandKept s (f v a)) : HandKept s (l.foldl f t) := by
  induction l generalizing t with
  | nil => exact h
  | cons a l ih => exact ih (hf t a h)

/-- A page takes the place of one that the hand-over block holds no less often. -/
theorem HandKept.put (h : HandKept s t) {id : Nat} {g : Page} (e : u.sett.pages = mput t.sett.pages id g)
    (hg : g.holders.count .handover ≤ t.handovers id) : HandKept s u := fun j => by
  refine Nat.le_trans ?_ (h j)
  rw [State.handovers, e]
  by_cases hj : j = id
  · subst hj
    rw [mget_mput_self]
    exact hg
  · rw [mget_mput_ne _ _ hj]
    exact Nat.le_refl _

theorem HandKept.modPage (h : HandKept s t) (id : Nat) {f : Page → Page}
    (hf : ∀ g : Page, (f g).holders.count .handover ≤ g.holders.count .handover) : HandKept s (t.modPage id f) := by
  unfold State.modPage
  split
  · exact h
  · rename_i g hg
    refine h.put (id := id) (g := f g) rfl ?_
    rw [State.handovers, hg]
    exact hf g

theorem HandKept.holdPage (h : HandKept s t) (id q : Nat) : HandKept s (t.holdPage id (.queue q)) := by
  refine h.modPage id fun g => ?_
  split
  · exact Nat.le_refl _
  · simp [List.count_append]

theorem HandKept.takePage (h : HandKept s t) (c : Nat) (ws : List SWord) {hs : List Holder} (hh : hs.count .handover = 0) :
    HandKept s (t.takePage c ws hs).2 := by
  have h1 : HandKept s { t with
      freeCtr := t.freeCtr + 1
      sett := { t.sett with
        pages := mput t.sett.pages t.sett.nextId ⟨t.pickPhys, c, ws, hs, false⟩, nextId := t.sett.nextId + 1, lastPhys := some t.pickPhys } } :=
    h.put rfl (by rw [hh]; exact Nat.zero_le _)
  exact .ite (h1.set _ _) h1

theorem HandKept.allocFail (h : HandKept s t) (c : Nat) : HandKept s (t.allocFail c) := by
  have h1 : HandKept s (t.inc (F.SET_FAIL_COUNT.at (4 * c))) := h.set _ _
  unfold State.allocFail
  dsimp only
  split
  · exact .ite ((h1.quotaLog _).ev0 _) h1
  · exact (h1.quotaLog _).ev0 _

theorem HandKept.alloc (h : HandKept s t) (c : Nat) (ws : List SWord) {hs : List Holder} (hh : hs.count .handover = 0) :
    HandKept s (t.alloc c ws hs).2 := by
  unfold State.alloc
  split
  · exact h.takePage c ws hh
  · exact h.allocFail c

theorem HandKept.hqPush (h : HandKept s t) (q : Nat) (p : Pkt) : HandKept s (t.hqPush q p) := by
  have h1 : HandKept s (p.pages.foldl (fun s id => s.holdPage id (.queue q)) (t.setHq q
      { t.hq q with pkts := (t.hq q).pkts ++ [p], leaseAt := if (t.hq q).pkts.isEmpty then t.now else (t.hq q).leaseAt })) :=
    .foldl _ _ (h.of_pages rfl) fun _ _ k => k.holdPage _ _
  have h2 := h1.inc (F.SET_HQ_PKTIN_PKTIN.at (0x80 * q))
  have h3 {v : State} (hv : HandKept s v) : HandKept s (v.hqPend q) := by
    refine hv.of_sett ?_
    unfold State.hqPend State.raiseQueue
    dsimp only
    split <;> exact State.raiseOn_sett _ _ _ _
  exact .ite (h3 h2) h2

theorem HandKept.hqRefuse (h : HandKept s t) (q : Nat) : HandKept s (t.hqRefuse q) :=
  ((h.set _ _).set _ _).ev0 _

theorem HandKept.foldlP {α β : Type} (g : β → State) (f : β → α → β) (l : List α) (b : β) (h : HandKept s (g b))
    (hf : ∀ v a, HandKept s (g v) → HandKept s (g (f v a))) : HandKept s (g (l.foldl f b)) := by
  induction l generalizing b with
  | nil => exact h
  | cons a l ih => exact ih _ (hf b a h)

theorem HandKept.offerCopy (h : HandKept s t) (src m : Nat) (recs : List (Nat × List SWord)) : HandKept s (t.offerCopy src m recs) := by
  unfold State.offerCopy
  dsimp only
  have h1 (f : Nat → Bool) (l : List Nat) : HandKept s (l.foldl (fun s q => if f q then s else s.hqRefuse q) t) :=
    .foldl _ _ h fun _ q k => .ite k (k.hqRefuse q)
  have h2 (f : Nat → Bool) (l : List Nat) (b : Bool) : HandKept s (if b = true then
      (l.foldl (fun s q => if f q then s else s.hqRefuse q) t).allocFail 2 else l.foldl (fun s q => if f q then s else s.hqRefuse q) t) :=
    .ite ((h1 f l).allocFail 2) (h1 f l)
  refine .ite (h2 _ _ _) (.foldl _ _ ?_ fun _ _ k => k.hqPush _ _)
  exact .foldlP (β := State × List Ref × List Nat) (fun x => x.1) _ _ _ (h2 _ _ _) fun _ _ k => k.takePage _ _ rfl

theorem HandKept.ringAppend (h : HandKept s t) (q : Nat) (ws : List SWord) (id : Nat) : HandKept s (t.ringAppend q ws id) := by
  unfold State.ringAppend
  split
  · exact h
  · have h1 := h.modPage id (f := fun g => { g with words := g.words ++ ws }) fun _ => Nat.le_refl _
    exact (h1.evr _).raise 7

theorem HandKept.ringStore (h : HandKept s t) (q : Nat) (ws : List SWord) : HandKept s (t.ringStore q ws) := by
  unfold State.ringStore
  dsimp only
  generalize hx : (if t.evr.pages.length < t.evr.size then t.alloc 4 [] [.ring] else (none, t)) = r
  have hr : HandKept s r.2 := by
    rw [← hx, apply_ite Prod.snd]
    exact .ite (h.alloc 4 [] rfl) h
  clear hx
  have cleared (n id : Nat) := (hr.add F.EVR_CNT_OVERWRITE_COUNT n).modPage id (f := fun g => { g with words := [] }) fun _ => Nat.le_refl _
  refine .ite h (.ite (h.ringAppend _ _ _) ?_)
  split
  · exact HandKept.ringAppend (hr.evr _) _ _ _
  · refine .ite ((hr.evr _).set _ _) ?_
    split
    · exact hr
    · exact HandKept.ringAppend ((cleared _ _).evr _) _ _ _

theorem HandKept.mirrorWrite (h : HandKept s t) (e : PendEv) (q o : Nat) : HandKept s (t.mirrorWrite e q o) :=
  (((h.evr _).set _ _).set _ _).set _ _

theorem HandKept.evrSync (h : HandKept s t) : HandKept s t.evrSync := (h.set _ _).set _ _

theorem HandKept.logRecord (h : HandKept s t) (e : PendEv) (o : Nat) : HandKept s (t.logRecord e o) := by
  unfold State.logRecord
  refine HandKept.evrSync ?_
  have h1 := (((h.set F.EVR_SEQ_SEQ (t.get F.EVR_SEQ_SEQ + 1)).evr
    { (t.set F.EVR_SEQ_SEQ (t.get F.EVR_SEQ_SEQ + 1)).evr with
      supp := merase (t.set F.EVR_SEQ_SEQ (t.get F.EVR_SEQ_SEQ + 1)).evr.supp e.code }).offerCopy 7
    (if e.code == Ev.SET_SKIP then 2 ^ 7 + 2 ^ 9 else 2 ^ 7)
    [(e.sidx, t.eventWords e (t.get F.EVR_SEQ_SEQ) (mgetD t.evr.supp e.code 0) o)]).ringStore (t.get F.EVR_SEQ_SEQ)
    (t.eventWords e (t.get F.EVR_SEQ_SEQ) (mgetD t.evr.supp e.code 0) o)
  exact .ite (h1.mirrorWrite _ _ _) h1

theorem HandKept.logOne (h : HandKept s t) (f : Nat → Nat) (e : PendEv) : HandKept s (t.logOne f e) := by
  unfold State.logOne
  exact .ite (h.logRecord _ _) (.ite ((h.evr _).set _ _) (HandKept.logRecord (t := t.takeToken e.code) (h.evr _) _ _))

theorem HandKept.logAll (h : HandKept s t) (es : List PendEv) : HandKept s (t.logAll es) := by
  unfold State.logAll
  refine .ite (.foldl _ _ h fun _ _ k => ?_) (.ite (.foldl _ _ h fun _ _ k => k.logOne _ _) (h.evr _))
  exact .ite ((k.set _ _).mirrorWrite _ _ _) k

theorem HandKept.healthSync (h : HandKept s t) : HandKept s t.healthSync := by
  have h1 : HandKept s (if (t.get F.TWN_FAULT_FAULT == t.twnFaults) = true then t else t.set F.TWN_FAULT_FAULT t.twnFaults) :=
    .ite h (h.set _ _)
  unfold State.healthSync
  exact .ite h (.ite h1 ((h1.set _ _).ev0 _))

theorem HandKept.almSync (h : HandKept s t) : HandKept s t.almSync := by
  have rise {v : State} (hv : HandKept s v) (n : Nat) : HandKept s (v.almRise n) := by
    unfold State.almRise
    split
    · exact hv.set _ _
    · exact .ite hv (hv.alm _)
    · exact hv
  have h1 : HandKept s (if (t.aspWord0 == t.alm.word0 && t.almGroups == t.alm.groups) = true then t
      else ({ t with alm := { t.alm with word0 := t.aspWord0, groups := t.almGroups } }.inc F.ANG_ASPCNT_WORD).set
        F.ANG_ASPSUM_WORD t.aspWord0) :=
    .ite h (((h.alm _).set _ _).set _ _)
  have h2 (l : List Nat) {v : State} (hv : HandKept s v) : HandKept s (l.foldl (fun s n => s.almRise n) v) :=
    .foldl _ _ hv fun _ n k => rise k n
  unfold State.almSync
  dsimp only
  refine .ite ?_ (HandKept.set ?_ _ _)
  all_goals exact .ite (h2 _ h1) ((h2 _ h1).alm _)

theorem HandKept.drain (h : HandKept s t) : HandKept s t.drain := (h.healthSync.almSync.evr _).logAll _

theorem State.reach_handKept (s : State) (n : Nat) : HandKept s (s.reach n) :=
  .ite (HandKept.drain (HandKept.refl s)) (HandKept.refl s)

/-! ### Taking the hand-over block off its pages (R111) -/

theorem State.dropHold_handovers_ne (s : State) {id j : Nat} (hj : j ≠ id) : (s.dropHold .handover id).handovers j = s.handovers j := by
  unfold State.handovers State.dropHold
  split
  · rfl
  · rename_i g hg
    dsimp only
    split_ifs
    · rw [State.freePage, mget_merase_ne _ hj]
    · simp only [State.modPage, hg]
      rw [mget_mput_ne _ _ hj]
    · rfl

theorem State.dropHold_handovers (s : State) (id : Nat) : (s.dropHold .handover id).handovers id = s.handovers id - 1 := by
  unfold State.handovers State.dropHold
  cases hg : mget s.sett.pages id with
  | none => simp [hg]
  | some g =>
    have he : g.holders.count .handover - 1 = (g.holders.erase .handover).count .handover := List.count_erase_self.symm
    dsimp only [Option.map_some, Option.getD_some]
    split_ifs with hc hn
    · rw [State.freePage, mget_merase_self, he, List.isEmpty_iff.mp hn]
      rfl
    · simp only [State.modPage, hg]
      rw [mget_mput_self, he]
      rfl
    · rw [hg, Option.map_some, Option.getD_some, List.count_eq_zero_of_not_mem fun hm => hc (List.contains_iff_mem.mpr hm)]

theorem State.dropHolds_handovers (s : State) (ids : List Nat) (id : Nat) : (s.dropHolds .handover ids).handovers id ≤ s.handovers id ∧
    (id ∈ ids → (s.dropHolds .handover ids).handovers id ≤ s.handovers id - 1) := by
  unfold State.dropHolds
  induction ids generalizing s with
  | nil => exact ⟨Nat.le_refl _, fun h => absurd h List.not_mem_nil⟩
  | cons x ids ih =>
    obtain ⟨h1, h2⟩ := ih (s.dropHold .handover x)
    by_cases hx : id = x
    · subst hx
      rw [State.dropHold_handovers] at h1 h2
      exact ⟨h1.trans (Nat.sub_le _ _), fun _ => h1⟩
    · rw [State.dropHold_handovers_ne s hx] at h1 h2
      exact ⟨h1, fun hm => h2 ((List.mem_cons.mp hm).resolve_left hx)⟩

/-! ### Quotas and peaks (R106 to R108, R110) -/

/-- The row of SET_QUOTA_c. -/
def quotaRow (c : Fin 7) : RegRow := ⟨0x40040 + 4 * c, [], .pf0, .sys, [⟨16, 16, .rw, if c < 4 then 1 else 0⟩,
  ⟨13, 0, .rw, ([5120, 256, 1024, 1024, 128, 384, 64][c.val]?).getD 0⟩]⟩

theorem rowOf_quota : ∀ c : Fin 7, rowOf (R.SET_QUOTA_ALIGN + 4 * c) = some (quotaRow c) := by decide +kernel

theorem quotaRow_tidy : ∀ c, (quotaRow c).tidy := by
  simp only [RegRow.tidy]
  decide

/-- The row of SET_CTRL. -/
def setCtrlRow : RegRow := ⟨0x40000, [], .pf0, .sys, [⟨2, 2, .wo, 0⟩, ⟨1, 1, .rw, 0⟩, ⟨0, 0, .rw, 0⟩]⟩

theorem rowOf_setCtrl : rowOf R.SET_CTRL = some setCtrlRow := by decide +kernel

theorem setCtrlRow_tidy : setCtrlRow.tidy := by unfold RegRow.tidy; decide

section quota
variable {a : Agent} {c : Fin 7} {v : Dword}

/-- The other quotas together. -/
def State.otherQuotas (s : State) (c : Nat) : Nat := (((List.range 7).filter fun i => i != c).map s.quota).foldl (· + ·) 0

/-- The pages not retired. -/
def State.pagesLeft (s : State) : Nat := 8192 - s.sett.retired.length

theorem logReg_peak {c : Nat} (h : c < 8) : logReg (F.SET_USE_PEAK.at (4 * c)).addr = true := by
  have h1 : 0x40060 ≤ (F.SET_USE_PEAK.at (4 * c)).addr := Nat.le_add_right _ _
  have h2 : (F.SET_USE_PEAK.at (4 * c)).addr < 0x400A0 := by show 0x40060 + 4 * c < 0x400A0; omega
  simp [logReg, h1, h2]

theorem exec_quotaWrite (hm : s.mayWrite a (R.SET_QUOTA_ALIGN + 4 * c)) : exec (.quotaWrite a c v) s = (s.quotaWrite c v).done :=
  congrArg State.done (State.gate_may hm _)

theorem logReg_quota : ∀ c : Fin 7, logReg (R.SET_QUOTA_ALIGN + 4 * c) = false := by decide +kernel

theorem quotaWrite_taken (hm : s.mayWrite a (R.SET_QUOTA_ALIGN + 4 * c)) (h1 : (quotaRange c).1 ≤ fval (F.SET_QUOTA_ALIGN_QUOTA.at (4 * c)) v)
    (h2 : fval (F.SET_QUOTA_ALIGN_QUOTA.at (4 * c)) v ≤ (quotaRange c).2)
    (h3 : s.otherQuotas c + fval (F.SET_QUOTA_ALIGN_QUOTA.at (4 * c)) v ≤ s.pagesLeft) :
    Does (.quotaWrite a c v) s [] (regsIn [R.SET_QUOTA_ALIGN + 4 * c, R.SET_QUOTA_SPARE]) fun t =>
      t.quota c = fval (F.SET_QUOTA_ALIGN_QUOTA.at (4 * c)) v ∧
        t.get F.SET_QUOTA_SPARE_QUOTA = s.pagesLeft - (s.otherQuotas c + fval (F.SET_QUOTA_ALIGN_QUOTA.at (4 * c)) v) := by
  have hw : s.quotaWrite c v = (s.store (R.SET_QUOTA_ALIGN + 4 * c) v).set F.SET_QUOTA_SPARE_QUOTA
      (s.pagesLeft - (s.otherQuotas c + fval (F.SET_QUOTA_ALIGN_QUOTA.at (4 * c)) v)) := by
    refine if_neg ?_
    simp only [Bool.or_eq_true, decide_eq_true_eq, not_or, Nat.not_lt]
    exact ⟨⟨h1, h2⟩, h3⟩
  have hne : (F.SET_QUOTA_ALIGN_QUOTA.at (4 * c)).addr ≠ R.SET_QUOTA_SPARE := by
    have := c.isLt
    show 0x40040 + 4 * c.val ≠ 0x4005C
    omega
  refine ⟨_, (exec_quotaWrite hm).trans (congrArg State.done hw), ⟨?_, ?_⟩, ?_⟩
  · have hl : logReg (F.SET_QUOTA_ALIGN_QUOTA.at (4 * c)).addr = false := logReg_quota c
    rw [State.quota, State.drain_get _ hl, State.get_set_ne _ _ hne]
    exact State.get_store (f := ⟨13, 0, .rw, ([5120, 256, 1024, 1024, 128, 384, 64][c.val]?).getD 0⟩) (rowOf_quota c) (quotaRow_tidy c)
      (by simp [quotaRow]) rfl
  · refine (State.drain_get _ (f := F.SET_QUOTA_SPARE_QUOTA) (by decide)).trans ((State.get_set_self _ _ ⟨by decide, by decide⟩).trans ?_)
    have hlt : s.pagesLeft ≤ 8192 := Nat.sub_le _ _
    exact Nat.mod_eq_of_lt (show _ < 2 ^ 14 by omega)
  · exact (((Frame.refl _ _ s).store _ _ (by simp [regsIn])).set _ _ (by simp [regsIn])).drain

theorem quotaWrite_dropped (hm : s.mayWrite a (R.SET_QUOTA_ALIGN + 4 * c))
    (h : fval (F.SET_QUOTA_ALIGN_QUOTA.at (4 * c)) v < (quotaRange c).1 ∨ (quotaRange c).2 < fval (F.SET_QUOTA_ALIGN_QUOTA.at (4 * c)) v ∨
      s.pagesLeft < s.otherQuotas c + fval (F.SET_QUOTA_ALIGN_QUOTA.at (4 * c)) v) :
    Does (.quotaWrite a c v) s [] noRegs fun t => t.pends 31 := by
  have hw : s.quotaWrite c v = s.ev0 Ev.SET_CFG_RANGE := by
    refine if_pos ?_
    simp only [Bool.or_eq_true, decide_eq_true_eq]
    exact or_assoc.mpr h
  exact ⟨_, (exec_quotaWrite hm).trans (congrArg State.done hw), State.pends_drain (by decide) (State.ev0_pends _ (by decide)),
    ((Frame.refl _ _ s).ev0 _).drain⟩

theorem State.used_of_sett (h : t.sett = s.sett) (c : Nat) : t.used c = s.used c := by rw [State.used, State.used, h]

/-- PEAK of each class of the list becomes what `f` says. -/
def State.setPeaks (s : State) (f : Nat → Nat) (l : List Nat) : State := l.foldl (fun s c => s.set (F.SET_USE_PEAK.at (4 * c)) (f c)) s

theorem State.setPeaks_cons (s : State) (f : Nat → Nat) (x : Nat) (l : List Nat) :
    s.setPeaks f (x :: l) = (s.set (F.SET_USE_PEAK.at (4 * x)) (f x)).setPeaks f l := rfl

theorem State.setPeaks_get_ne (s : State) (f : Nat → Nat) {l : List Nat} {g : Fld} (h : ∀ c ∈ l, g.addr ≠ (F.SET_USE_PEAK.at (4 * c)).addr) :
    (s.setPeaks f l).get g = s.get g := by
  induction l generalizing s with
  | nil => rfl
  | cons x l ih =>
    rw [State.setPeaks_cons, ih _ fun c hc => h c (List.mem_cons_of_mem _ hc), State.get_set_ne _ _ (h x List.mem_cons_self)]

theorem peak_ok (c : Nat) : (F.SET_USE_PEAK.at (4 * c)).ok := ⟨(by decide : 16 ≤ 29), (by decide : 29 < 32)⟩

theorem State.setPeaks_get (s : State) (f : Nat → Nat) {l : List Nat} (hd : l.Nodup) {c : Nat} (hc : c ∈ l) :
    (s.setPeaks f l).get (F.SET_USE_PEAK.at (4 * c)) = f c % 2 ^ 14 := by
  induction l generalizing s with
  | nil => exact absurd hc List.not_mem_nil
  | cons x l ih =>
    obtain ⟨hx, hl⟩ := List.nodup_cons.mp hd
    rw [State.setPeaks_cons]
    by_cases h : c = x
    · subst h
      have hne : ∀ d ∈ l, (F.SET_USE_PEAK.at (4 * c)).addr ≠ (F.SET_USE_PEAK.at (4 * d)).addr := fun d hd he => by
        have he : 0x40060 + 4 * c = 0x40060 + 4 * d := he
        have : c = d := by omega
        exact hx (this ▸ hd)
      exact (State.setPeaks_get_ne _ f hne).trans (State.get_set_self _ _ (peak_ok c))
    · exact ih _ hl ((List.mem_cons.mp hc).resolve_left h)

theorem Frame.setPeaks (h : Frame ps rs s t) (f : Nat → Nat) {l : List Nat} (hl : ∀ c ∈ l, c < 8) : Frame ps rs s (t.setPeaks f l) :=
  h.foldlMem _ _ fun _ c hc k => k.set _ _ (reg_log (logReg_peak (hl c hc)))

/-- What PEAK_CLR puts into the PEAK of class c, or of all borrowing together (R107). -/
def State.peakNow (s : State) (c : Nat) : Nat := if c < 7 then s.used c else ((List.range 7).map s.borrowed).foldl (· + ·) 0

/-- A PEAK register is none that the counts of pages depend on. -/
theorem State.peakNow_set (s : State) (x y c : Nat) : (s.set (F.SET_USE_PEAK.at (4 * x)) y).peakNow c = s.peakNow c := by
  have hu (i : Nat) : (s.set (F.SET_USE_PEAK.at (4 * x)) y).used i = s.used i := State.used_of_sett (State.set_sett _ _ _) i
  unfold State.peakNow
  split
  · exact hu c
  · congr 1
    refine List.map_congr_left fun i hi => ?_
    have hne : (F.SET_QUOTA_ALIGN_QUOTA.at (4 * i)).addr ≠ (F.SET_USE_PEAK.at (4 * x)).addr := by
      have := List.mem_range.mp hi
      show 0x40040 + 4 * i ≠ 0x40060 + 4 * x
      omega
    rw [State.borrowed, State.borrowed, hu, State.quota, State.quota, State.get_set_ne _ _ hne]

theorem State.foldl_peakNow (s : State) (l : List Nat) :
    l.foldl (fun s c => s.set (F.SET_USE_PEAK.at (4 * c)) (s.peakNow c)) s = s.setPeaks s.peakNow l := by
  induction l generalizing s with
  | nil => rw [State.setPeaks, List.foldl_nil, List.foldl_nil]
  | cons x l ih =>
    have hp : (s.set (F.SET_USE_PEAK.at (4 * x)) (s.peakNow x)).peakNow = s.peakNow := funext fun c => s.peakNow_set x _ c
    rw [List.foldl_cons, ih, hp, State.setPeaks_cons]

theorem State.setCtrlWrite_clr (h : bit v.toNat 2 = true) :
    s.setCtrlWrite v = (s.store R.SET_CTRL v).setPeaks (s.store R.SET_CTRL v).peakNow (List.range 8) := by
  have hv : (fval F.SET_CTRL_PEAK_CLR v == 1) = true := by
    rw [← h, bit_testBit, ← bits_one_testBit, bits_one]
    rfl
  exact (if_pos hv).trans (State.foldl_peakNow _ _)

theorem peakClr_leads (hm : s.mayWrite a R.SET_CTRL) (h : bit v.toNat 2 = true) :
    Leads (.peakClr a v) s [] (regsIn [R.SET_CTRL]) fun u => u.flag F.SET_CTRL_EN = bit v.toNat 0 ∧
      ∀ c, c < 7 → u.get (F.SET_USE_PEAK.at (4 * c)) = s.used c % 2 ^ 14 := by
  refine ⟨_, congrArg State.done ((State.gate_may hm _).trans (State.setCtrlWrite_clr h)), ⟨?_, fun c hc => ?_⟩,
    ((Frame.refl _ _ s).store _ _ (by simp [regsIn])).setPeaks _ fun _ hc => List.mem_range.mp hc⟩
  · rw [State.flag, State.setPeaks_get_ne _ _ (fun c _ => ?_)]
    · refine (congrArg (· != 0) (State.get_store (f := ⟨0, 0, .rw, 0⟩) rowOf_setCtrl setCtrlRow_tidy (by decide) rfl)).trans ?_
      rw [bits_one_testBit, bit_testBit]
    · show 0x40000 ≠ 0x40060 + 4 * c
      omega
  · refine (State.setPeaks_get _ _ List.nodup_range (List.mem_range.mpr (by omega))).trans ?_
    rw [State.peakNow, if_pos hc, State.used, State.store_sett]
    rfl

/-- The charge of a page that only host queues hold moves to HOSTQ (R110). -/
theorem pageChargeMove_leads {page id : Nat} {p : Page} (hf : (s.sett.pages.find? fun x => x.2.phys == page) = some (id, p))
    (hg : mget s.sett.pages id = some p) (hc : p.cls ≤ 1) (hq : p.onlyQueues = true) :
    Leads (.pageChargeMove page) s [] noRegs fun u =>
      u.sett = { s.sett with pages := mput s.sett.pages id { p with cls := 2, reserved := false } } := by
  have he : exec (.pageChargeMove page) s = ((s.modPage id fun g => { g with cls := 2, reserved := false }).peak 2).done := by
    show execPageChargeMove page s = _
    simp [execPageChargeMove, hf, hc, hq]
  have hm : (s.modPage id fun g => { g with cls := 2, reserved := false }).sett =
      { s.sett with pages := mput s.sett.pages id { p with cls := 2, reserved := false } } := by
    rw [State.modPage, hg]
  refine ⟨_, he, Eq.trans ?_ hm, ((Frame.refl _ _ s).modPage _ _).logs (al := false) (Logs.refl.peak (by decide))⟩
  unfold State.peak
  dsimp only
  split
  · exact State.set_sett _ _ _
  · rfl

end quota

/-! ### Leases (R111, R112) -/

section lease
variable {q : Fin 16} {n : Nat}

/-- The event of a lease that has run out raises source 28. -/
theorem State.leaseEvent_pends (s : State) (c w n : Nat) : (s.leaseEvent c w n).pends 28 := s.ev_pend _ _ (by decide)

@[simp] theorem State.leaseEvent_sett (s : State) (c w n : Nat) : (s.leaseEvent c w n).sett = s.sett := s.ev_sett _ _ _

theorem Frame.leaseEvent (h : Frame ps rs s t) (c w n : Nat) : Frame ps rs s (t.leaseEvent c w n) := h.ev _ _ _

theorem logReg_hqExpired : ∀ q : Fin 16, logReg (hqf F.SET_HQ_STAT_EXPIRED q).addr = true := by decide +kernel

theorem leaseExpiry_queue (hl : s.get (hqf F.SET_HQ_LEASE_MS q) ≠ 0) (hk : (s.hq q).pkts ≠ []) :
    Leads (.leaseExpiry (.queue q)) s [.tim] noRegs fun u =>
      u.tim.now = max s.tim.now ((s.hq q).leaseAt + ticksOfMs (s.get (hqf F.SET_HQ_LEASE_MS q))) ∧ (u.hq q).pkts = [] ∧
        u.flag (hqf F.SET_HQ_STAT_EXPIRED q) = true ∧ u.pends 28 := by
  have he : exec (.leaseExpiry (.queue q)) s = ((((s.reach ((s.hq q).leaseAt + ticksOfMs (s.get (hqf F.SET_HQ_LEASE_MS q)))).hqFlush q).setB
      (hqf F.SET_HQ_STAT_EXPIRED q) true).leaseEvent 2 32 q).done := if_neg (by simp [hl, hk])
  have hf (v : State) : Frame [] noRegs v (((v.hqFlush q).setB (hqf F.SET_HQ_STAT_EXPIRED q) true).leaseEvent 2 32 q) :=
    (((Frame.refl _ _ v).hqFlush q.isLt).setB (hqf F.SET_HQ_STAT_EXPIRED q) true (reg_log (logReg_hqExpired q))).leaseEvent 2 32 q
  refine ⟨_, he, ⟨?_, ?_, ?_, State.leaseEvent_pends _ _ _ _⟩, (s.reach_frame _).trans ((hf _).mono (by simp) fun _ h => h)⟩
  · exact (congrArg Tim.now ((hf _).parts .tim (by simp))).trans (congrArg Tim.now (s.reach_tim _))
  · have hs := (State.leaseEvent_sett (((s.reach ((s.hq q).leaseAt + ticksOfMs (s.get (hqf F.SET_HQ_LEASE_MS q)))).hqFlush q).setB
      (hqf F.SET_HQ_STAT_EXPIRED q) true) 2 32 q).trans (State.setB_sett _ _ _)
    rw [State.hq_of_queues (congrArg Sett.queues hs), State.hqFlush_hq, if_pos rfl]
  · rw [State.flag, State.get, State.leaseEvent, State.ev_rd_below _ _ _ _
      (show (hqf F.SET_HQ_STAT_EXPIRED q).addr < R.IRQ_PEND from hqReg_below q (by decide))]
    exact State.flag_setB_self _ _ (hqf_bit_ok (by decide)) rfl

theorem leaseExpiry_capture {d : TrgDone} (hl : s.get F.SET_LEASE_CAPT_MS ≠ 0) (hd : mget s.trg.done n = some d) :
    Leads (.leaseExpiry (.capture n)) s [.tim, .trg] noRegs fun u =>
      u.tim.now = max s.tim.now (d.doneAt + ticksOfMs (s.get F.SET_LEASE_CAPT_MS)) ∧
        u.trg = { s.trg with done := merase s.trg.done n } ∧ u.pends 28 := by
  have he : exec (.leaseExpiry (.capture n)) s =
      (((s.reach (d.doneAt + ticksOfMs (s.get F.SET_LEASE_CAPT_MS))).releaseCapture n).leaseEvent 3 16 d.capno).done := by
    show execLeaseExpiry (.capture n) s = _
    simp only [execLeaseExpiry, hd]
    exact if_neg (by simp [hl])
  have ht : (s.reach (d.doneAt + ticksOfMs (s.get F.SET_LEASE_CAPT_MS))).trg = s.trg := (s.reach_frame _).parts .trg (by simp)
  have hd' : mget (s.reach (d.doneAt + ticksOfMs (s.get F.SET_LEASE_CAPT_MS))).trg.done n = some d := by rw [ht, hd]
  have hc : (s.reach (d.doneAt + ticksOfMs (s.get F.SET_LEASE_CAPT_MS))).releaseCapture n =
      ((s.reach (d.doneAt + ticksOfMs (s.get F.SET_LEASE_CAPT_MS))).dropHolds (.capture n) d.pkt.pages).modTrg
        fun t => { t with done := merase t.done n } := by
    rw [State.releaseCapture, hd']
  have hf (v : State) : Frame [.trg] noRegs v (((v.dropHolds (.capture n) d.pkt.pages).modTrg
      fun t => { t with done := merase t.done n }).leaseEvent 3 16 d.capno) :=
    (((Frame.refl _ _ v).dropHolds _ _).put_trg (by simp) _).leaseEvent _ _ _
  rw [hc] at he
  refine ⟨_, he, ⟨?_, ?_, State.leaseEvent_pends _ _ _ _⟩, ((s.reach_frame _).mono (by simp) fun _ h => h).trans ((hf _).mono (by simp) fun _ h => h)⟩
  · exact (congrArg Tim.now ((hf _).parts .tim (by simp))).trans (congrArg Tim.now (s.reach_tim _))
  · refine (State.ev_trg _ _ _ _).trans ?_
    have hk (v : State) : (v.dropHolds (.capture n) d.pkt.pages).trg = v.trg := ((Frame.refl [] noRegs v).dropHolds _ _).parts .trg (by simp)
    rw [State.modTrg, hk, ht]

theorem leaseExpiry_digest {x : CasReasm} (hl : s.get F.SET_LEASE_CASC_MS ≠ 0) (hx : (s.cas.reasm.find? fun x => x.id == n) = some x) :
    Leads (.leaseExpiry (.digest n)) s [.tim, .cas] noRegs fun u =>
      u.tim.now = max s.tim.now (x.first + ticksOfMs (s.get F.SET_LEASE_CASC_MS)) ∧
        u.cas = { s.cas with reasm := s.cas.reasm.filter fun y => y.id != n } ∧ u.pends 28 := by
  have hn : x.id = n := by simpa using List.find?_some hx
  have he : exec (.leaseExpiry (.digest n)) s =
      (((s.reach (x.first + ticksOfMs (s.get F.SET_LEASE_CASC_MS))).reasmDrop x).leaseEvent 5 32 x.member).done := by
    show execLeaseExpiry (.digest n) s = _
    simp only [execLeaseExpiry, hx]
    exact if_neg (by simp [hl])
  have hc : (s.reach (x.first + ticksOfMs (s.get F.SET_LEASE_CASC_MS))).cas = s.cas := (s.reach_frame _).parts .cas (by simp)
  have hf (v : State) : Frame [.cas] noRegs v ((v.reasmDrop x).leaseEvent 5 32 x.member) :=
    (((Frame.refl _ _ v).dropHolds _ _).put_cas (by simp) _).leaseEvent _ _ _
  refine ⟨_, he, ⟨?_, ?_, State.leaseEvent_pends _ _ _ _⟩, ((s.reach_frame _).mono (by simp) fun _ h => h).trans ((hf _).mono (by simp) fun _ h => h)⟩
  · exact (congrArg Tim.now ((hf _).parts .tim (by simp))).trans (congrArg Tim.now (s.reach_tim _))
  · refine (State.ev_cas _ _ _ _).trans ?_
    have hk (v : State) : (v.dropHolds (.digest x.id) x.pages).cas = v.cas := ((Frame.refl [] noRegs v).dropHolds _ _).parts .cas (by simp)
    rw [State.reasmDrop, State.modCas, hk, hc, hn]

theorem State.handovers_of_get {id : Nat} {p : Page} (h : mget s.sett.pages id = some p) : s.handovers id = p.holders.count .handover := by
  rw [State.handovers, h]
  rfl

theorem leaseExpiry_handover (hl : s.get F.SET_LEASE_HANDOVER_MS ≠ 0) (hn : s.cmd.pauseAt = some n)
    (hh : (s.sett.pages.any fun p => p.2.holders.contains .handover) = true) :
    Leads (.leaseExpiry .handover) s [.tim] noRegs fun u =>
      u.tim.now = max s.tim.now (n + ticksOfMs (s.get F.SET_LEASE_HANDOVER_MS)) ∧ u.pends 28 ∧
        ∀ (id : Nat) (p g : Page), mget s.sett.pages id = some p → p.holders.contains .handover = true → mget u.sett.pages id = some g →
          g.holders.count .handover < p.holders.count .handover := by
  have hi : (((s.sett.pages.filter fun p => p.2.holders.contains .handover).map fun p => p.1).isEmpty) = false := by
    obtain ⟨p, hp, hc⟩ := List.any_eq_true.mp hh
    exact List.isEmpty_eq_false_iff_exists_mem.mpr ⟨p.1, List.mem_map_of_mem (List.mem_filter.mpr ⟨hp, hc⟩)⟩
  have he : exec (.leaseExpiry .handover) s = (((s.reach (n + ticksOfMs (s.get F.SET_LEASE_HANDOVER_MS))).dropHolds .handover
      ((s.sett.pages.filter fun p => p.2.holders.contains .handover).map fun p => p.1)).leaseEvent 6 32 0).done := by
    show execLeaseExpiry .handover s = _
    simp only [execLeaseExpiry, hn]
    exact if_neg (by rw [hi]; simp [hl])
  have hf (v : State) (ids : List Nat) : Frame [] noRegs v ((v.dropHolds .handover ids).leaseEvent 6 32 0) :=
    ((Frame.refl _ _ v).dropHolds _ _).leaseEvent _ _ _
  refine ⟨_, he, ⟨?_, State.leaseEvent_pends _ _ _ _, fun id p g hp hc hg => ?_⟩, (s.reach_frame _).trans ((hf _ _).mono (by simp) fun _ h => h)⟩
  · exact (congrArg Tim.now ((hf _ _).parts .tim (by simp))).trans (congrArg Tim.now (s.reach_tim _))
  · have hm : id ∈ (s.sett.pages.filter fun p => p.2.holders.contains .handover).map fun p => p.1 :=
      List.mem_map_of_mem (f := fun p : Nat × Page => p.1) (List.mem_filter.mpr ⟨mget_mem hp, hc⟩)
    have hpos : 0 < p.holders.count .handover := List.count_pos_iff.mpr (List.contains_iff_mem.mp hc)
    have hle := s.reach_handKept (n + ticksOfMs (s.get F.SET_LEASE_HANDOVER_MS)) id
    have hdrop := ((s.reach (n + ticksOfMs (s.get F.SET_LEASE_HANDOVER_MS))).dropHolds_handovers _ id).2 hm
    rw [State.leaseEvent_sett] at hg
    rw [State.handovers_of_get hp] at hle
    rw [State.handovers_of_get hg] at hdrop
    omega

end lease

end Sys2Proof.Machine
end

section
open Sys2Proof Sys2Proof.Machine

/-- Settles O14: the branches of the quota write, of PEAK_CLR, of the charge's move and of the four kinds of lease, each with its frame. -/
theorem quotasChargesAndLeases : Obligations.QuotasChargesAndLeases :=
  ⟨fun _ _ _ _ hm => ⟨quotaWrite_taken hm, quotaWrite_dropped hm⟩, fun _ _ _ => peakClr_leads, fun _ _ _ _ => pageChargeMove_leads,
    fun _ _ => leaseExpiry_queue, fun _ _ _ => leaseExpiry_capture, fun _ _ _ => leaseExpiry_digest, fun _ _ => leaseExpiry_handover⟩

end


section
namespace Sys2Proof.Machine

variable {s t u : State} {ps : List Part} {rs : Nat → Bool} {key : Nat}

/-! ### One alarm of the limit-and-angle engine: its count, and the group it names while it is active (R163) -/

/-- Count and active group of an alarm. -/
def State.alarmAt (s : State) (k : Nat) : Nat × Option Nat := (s.angCnt k, mget s.alm.act k)

/-- The counters of raises and clears. -/
def angCntRegs : List Nat := [R.ANG_CNT_RAISE, R.ANG_CNT_CLEAR]

/-- t is s but for counts, active alarms, healed items, the counters of raises and clears, and logging; pending sources stay pending. -/
structure AngKept (s t : State) : Prop where
  frame : Frame [.ang, .alm, .ecc] (regsIn angCntRegs) s t
  ang : t.ang = { s.ang with cnt := t.ang.cnt }
  alm : t.alm = { s.alm with act := t.alm.act }
  sett : t.sett = s.sett
  pends : ∀ n, n < 128 → s.pends n → t.pends n

theorem AngKept.refl (s : State) : AngKept s s := ⟨Frame.refl _ _ s, rfl, rfl, rfl, fun _ _ h => h⟩

theorem AngKept.trans (h : AngKept s t) (k : AngKept t u) : AngKept s u :=
  ⟨h.frame.trans k.frame, by rw [k.ang, h.ang], by rw [k.alm, h.alm], k.sett.trans h.sett, fun n hn hs => k.pends n hn (h.pends n hn hs)⟩

theorem State.setAngCnt_kept (s : State) (key n : Nat) : AngKept s (s.setAngCnt key n) :=
  ⟨(Frame.refl _ _ s).put_ang (by simp) _, rfl, rfl, rfl, fun _ _ h => State.pends_of_regs (s := s) rfl h⟩

theorem State.almSet_kept (s : State) (key g : Nat) : AngKept s (s.almSet key g) :=
  ⟨(Frame.refl _ _ s).put_alm (by simp) _, rfl, rfl, rfl, fun _ _ h => State.pends_of_regs (s := s) rfl h⟩

theorem State.almClear_kept (s : State) (key : Nat) : AngKept s (s.almClear key) :=
  ⟨(Frame.refl _ _ s).put_alm (by simp) _, rfl, rfl, rfl, fun _ _ h => State.pends_of_regs (s := s) rfl h⟩

theorem State.heal_kept (s : State) (kind idx : Nat) : AngKept s (s.heal kind idx) := by
  unfold State.heal
  split
  · exact .refl s
  · exact ⟨(Frame.refl _ _ s).put_ecc (by simp) _, rfl, rfl, rfl, fun _ _ h => State.pends_of_regs (s := s) rfl h⟩

@[simp] theorem State.heal_alarmAt (s : State) (kind idx k : Nat) : (s.heal kind idx).alarmAt k = s.alarmAt k := by
  unfold State.heal
  split <;> rfl

theorem State.setAngCnt_alarmAt (s : State) (key n k : Nat) :
    (s.setAngCnt key n).alarmAt k = if k = key then (n, (s.alarmAt k).2) else s.alarmAt k := by
  split
  case isTrue h => subst h; exact congrArg (·, _) (mgetD_mstore_self 0 _ _ _)
  case isFalse h => exact congrArg (·, _) (mgetD_mstore_ne 0 _ _ h)

theorem State.almSet_alarmAt (s : State) (key g k : Nat) :
    (s.almSet key g).alarmAt k = if k = key then ((s.alarmAt k).1, some g) else s.alarmAt k := by
  split
  case isTrue h => subst h; exact congrArg (_, ·) (mget_mput_self _ _ _)
  case isFalse h => exact congrArg (_, ·) (mget_mput_ne _ _ h)

theorem State.almClear_alarmAt (s : State) (key k : Nat) :
    (s.almClear key).alarmAt k = if k = key then ((s.alarmAt k).1, none) else s.alarmAt k := by
  split
  case isTrue h => subst h; exact congrArg (_, ·) (mget_merase_self _ _)
  case isFalse h => exact congrArg (_, ·) (mget_merase_ne _ h)

/-- A raise or a clear has been counted, with its event (R163). -/
def State.angCounted (s : State) (raise : Bool) : State :=
  if raise then (s.inc F.ANG_CNT_RAISE_COUNT).ev0 Ev.ANG_RAISE else (s.inc F.ANG_CNT_CLEAR_COUNT).ev0 Ev.ANG_CLEAR

theorem State.angCounted_kept (s : State) (b : Bool) : AngKept s (s.angCounted b) := by
  have step (f : Fld) (e : Nat) (hf : f.addr ∈ angCntRegs) (hb : f.addr < R.IRQ_PEND) : AngKept s ((s.inc f).ev0 e) :=
    ⟨((Frame.refl _ _ s).inc f (by simp [regsIn, hf])).ev0 e, by rw [State.ev0, State.ev_ang]; rfl,
      by rw [State.ev0_alm]; rfl, (State.ev0_sett _ _).trans (s.inc_sett f), fun _ hn h => State.pends_ev0 hn _ (State.pends_set _ hb h)⟩
  cases b
  · exact step _ _ (by decide) (by decide)
  · exact step _ _ (by decide) (by decide)

@[simp] theorem State.angCounted_alarmAt (s : State) (b : Bool) (k : Nat) : (s.angCounted b).alarmAt k = s.alarmAt k := by
  have step (f : Fld) (e : Nat) : ((s.inc f).ev0 e).alarmAt k = s.alarmAt k := by
    rw [State.alarmAt, State.angCnt, State.ev0_alm, State.ev0, State.ev_ang]
    rfl
  cases b <;> exact step _ _

theorem State.angCounted_pends (s : State) (b : Bool) : (s.angCounted b).pends 41 := by
  cases b <;> exact State.ev0_pends _ (by decide)

theorem State.angCounted_raise (s : State) (b : Bool) :
    (s.angCounted b).get F.ANG_CNT_RAISE_COUNT = (s.get F.ANG_CNT_RAISE_COUNT + b2n b) % 2 ^ 32 := by
  cases b
  · exact (State.ev0_get _ _ (by decide)).trans ((State.get_set_ne _ _ (by decide)).trans (Nat.mod_eq_of_lt s.get_lt).symm)
  · exact (State.ev0_get _ _ (by decide)).trans (State.get_inc_self _ ⟨by decide, by decide⟩)

theorem State.angCounted_clear (s : State) (b : Bool) :
    (s.angCounted b).get F.ANG_CNT_CLEAR_COUNT = (s.get F.ANG_CNT_CLEAR_COUNT + b2n (!b)) % 2 ^ 32 := by
  cases b
  · exact (State.ev0_get _ _ (by decide)).trans (State.get_inc_self _ ⟨by decide, by decide⟩)
  · exact (State.ev0_get _ _ (by decide)).trans ((State.get_set_ne _ _ (by decide)).trans (Nat.mod_eq_of_lt s.get_lt).symm)

theorem AngRun.add_s (a : AngRun) (x : Trans) : (a.add x).s = a.s.angCounted (x.dir == 1) := rfl

theorem AngRun.add_miss (a : AngRun) (x : Trans) : (a.add x).miss = a.miss := rfl

/-! ### What evaluating, rewriting or losing one entry does (R163, R166, R455) -/

/-- The persistence rule for an entry in force (`on`) with group and PERSIST given: `val` is whether its value is outside the limits and
whether it is inside by HYST, none where it is missing (R162, R163). -/
def alarmStep (on : Bool) (grp per : Nat) (val : Option (Bool × Bool)) (x : Nat × Option Nat) : Nat × Option Nat :=
  match on, val, x.2 with
  | true, some (o, _), none => if per ≤ (if o then x.1 + 1 else 0) then (0, some grp) else (if o then x.1 + 1 else 0, none)
  | true, some (_, i), some g => if per ≤ (if i then x.1 + 1 else 0) then (0, none) else (if i then x.1 + 1 else 0, some g)
  | _, _, _ => x

theorem alarmStep_none (grp per c : Nat) (o i : Bool) : alarmStep true grp per (some (o, i)) (c, none) =
    if per ≤ (if o then c + 1 else 0) then (0, some grp) else (if o then c + 1 else 0, none) := rfl

theorem alarmStep_some (grp per c g : Nat) (o i : Bool) : alarmStep true grp per (some (o, i)) (c, some g) =
    if per ≤ (if i then c + 1 else 0) then (0, none) else (if i then c + 1 else 0, some g) := rfl

/-- From run a to run b the alarm `key` changed by G, and no other: a raise and, where `counted`, a clear counts and raises source 41;
`missing` says whether a value was missing. -/
structure KeyEffect (key : Nat) (G : Nat × Option Nat → Nat × Option Nat) (counted missing : Bool) (a b : AngRun) : Prop where
  kept : AngKept a.s b.s
  at_self : b.s.alarmAt key = G (a.s.alarmAt key)
  at_ne : ∀ k, k ≠ key → b.s.alarmAt k = a.s.alarmAt k
  raise : b.s.get F.ANG_CNT_RAISE_COUNT = (a.s.get F.ANG_CNT_RAISE_COUNT +
    b2n ((a.s.alarmAt key).2.isNone && (G (a.s.alarmAt key)).2.isSome)) % 2 ^ 32
  clear : b.s.get F.ANG_CNT_CLEAR_COUNT = (a.s.get F.ANG_CNT_CLEAR_COUNT +
    b2n (counted && (a.s.alarmAt key).2.isSome && (G (a.s.alarmAt key)).2.isNone)) % 2 ^ 32
  miss : b.miss = a.miss + b2n missing
  pend : counted = true → (a.s.alarmAt key).2.isSome ≠ (G (a.s.alarmAt key)).2.isSome → b.s.pends 41

variable {a b : AngRun}

/-- An entry that nothing happens to. -/
theorem KeyEffect.same {G : Nat × Option Nat → Nat × Option Nat} {counted missing : Bool} (hs : b.s = a.s) (hG : G (a.s.alarmAt key) = a.s.alarmAt key)
    (hm : b.miss = a.miss + b2n missing) : KeyEffect key G counted missing a b where
  kept := hs ▸ .refl a.s
  at_self := by rw [hs, hG]
  at_ne := fun _ _ => by rw [hs]
  raise := by
    rw [hs, hG]
    cases (a.s.alarmAt key).2 <;> exact (Nat.mod_eq_of_lt a.s.get_lt).symm
  clear := by
    rw [hs, hG]
    cases counted <;> cases (a.s.alarmAt key).2 <;> exact (Nat.mod_eq_of_lt a.s.get_lt).symm
  miss := hm
  pend := fun _ h => absurd (congrArg (fun x => x.2.isSome) hG.symm) h

/-- An alarm whose count alone changes. -/
theorem KeyEffect.count {G : Nat × Option Nat → Nat × Option Nat} {counted : Bool} {n : Nat} (hv : AngKept a.s b.s)
    (hat : ∀ k, b.s.alarmAt k = (a.s.setAngCnt key n).alarmAt k) (hr : ∀ x ∈ angCntRegs, b.s.rd x = a.s.rd x)
    (hG : G (a.s.alarmAt key) = (n, (a.s.alarmAt key).2)) (hm : b.miss = a.miss) : KeyEffect key G counted false a b where
  kept := hv
  at_self := by rw [hat, hG, State.setAngCnt_alarmAt, if_pos rfl]
  at_ne := fun k hk => by rw [hat, State.setAngCnt_alarmAt, if_neg hk]
  raise := by
    rw [hG, State.get, hr _ (by decide)]
    cases (a.s.alarmAt key).2 <;> exact (Nat.mod_eq_of_lt a.s.get_lt).symm
  clear := by
    rw [hG, State.get, hr _ (by decide)]
    cases counted <;> cases (a.s.alarmAt key).2 <;> exact (Nat.mod_eq_of_lt a.s.get_lt).symm
  miss := hm
  pend := fun _ h => absurd (by rw [hG]) h

/-- An alarm that becomes active. -/
theorem KeyEffect.raised {G : Nat × Option Nat → Nat × Option Nat} {counted : Bool} {g : Nat}
    (hs : b.s = ((a.s.setAngCnt key 0).almSet key g).angCounted true) (ha : (a.s.alarmAt key).2 = none) (hG : G (a.s.alarmAt key) = (0, some g))
    (hm : b.miss = a.miss) : KeyEffect key G counted false a b where
  kept := hs ▸ ((a.s.setAngCnt_kept key 0).trans (State.almSet_kept _ key g)).trans (State.angCounted_kept _ true)
  at_self := by rw [hs, hG, State.angCounted_alarmAt, State.almSet_alarmAt, if_pos rfl, State.setAngCnt_alarmAt, if_pos rfl]
  at_ne := fun k hk => by rw [hs, State.angCounted_alarmAt, State.almSet_alarmAt, if_neg hk, State.setAngCnt_alarmAt, if_neg hk]
  raise := by
    rw [hs, hG, ha, State.angCounted_raise]
    rfl
  clear := by
    rw [hs, hG, ha, State.angCounted_clear]
    cases counted <;> rfl
  miss := hm
  pend := fun _ _ => hs ▸ State.angCounted_pends _ true

/-- An active alarm that clears, and counts. -/
theorem KeyEffect.cleared {G : Nat × Option Nat → Nat × Option Nat} {v : State} {g : Nat} (hs : b.s = (v.almClear key).angCounted false)
    (hv : AngKept a.s v) (hat : ∀ k, v.alarmAt k = (a.s.setAngCnt key 0).alarmAt k)
    (hr : ∀ x ∈ angCntRegs, v.rd x = a.s.rd x) (ha : (a.s.alarmAt key).2 = some g) (hG : G (a.s.alarmAt key) = (0, none))
    (hm : b.miss = a.miss) : KeyEffect key G true false a b where
  kept := hs ▸ (hv.trans (State.almClear_kept _ key)).trans (State.angCounted_kept _ false)
  at_self := by rw [hs, hG, State.angCounted_alarmAt, State.almClear_alarmAt, if_pos rfl, hat, State.setAngCnt_alarmAt, if_pos rfl]
  at_ne := fun k hk => by rw [hs, State.angCounted_alarmAt, State.almClear_alarmAt, if_neg hk, hat, State.setAngCnt_alarmAt, if_neg hk]
  raise := by
    rw [hs, hG, ha, State.angCounted_raise]
    exact congrArg (fun x => (bits x.toNat 31 0 + 0) % 2 ^ 32) (hr R.ANG_CNT_RAISE (by decide))
  clear := by
    rw [hs, hG, ha, State.angCounted_clear]
    exact congrArg (fun x => (bits x.toNat 31 0 + 1) % 2 ^ 32) (hr R.ANG_CNT_CLEAR (by decide))
  miss := hm
  pend := fun _ _ => hs ▸ State.angCounted_pends _ false

theorem AngRun.persist_effect (a : AngRun) (src idx grp per : Nat) (above o i : Bool) (value fl : Nat) :
    KeyEffect (almKey src idx) (alarmStep true grp per (some (o, i))) true false a (a.persist src idx grp per above o i value fl) := by
  unfold AngRun.persist
  dsimp only
  cases ha : mget a.s.alm.act (almKey src idx) with
  | none =>
    have hat : a.s.alarmAt (almKey src idx) = (a.s.angCnt (almKey src idx), none) := congrArg (_, ·) ha
    dsimp only
    by_cases h : per ≤ (if o = true then a.s.angCnt (almKey src idx) + 1 else 0)
    · rw [if_pos h]
      exact .raised rfl (congrArg Prod.snd hat) (by rw [hat, alarmStep_none, if_pos h]) rfl
    · rw [if_neg h]
      exact .count (a.s.setAngCnt_kept _ _) (fun _ => rfl) (fun _ _ => rfl) (by rw [hat, alarmStep_none, if_neg h]) rfl
  | some g =>
    have hat : a.s.alarmAt (almKey src idx) = (a.s.angCnt (almKey src idx), some g) := congrArg (_, ·) ha
    dsimp only
    by_cases h : per ≤ (if i = true then a.s.angCnt (almKey src idx) + 1 else 0)
    · rw [if_pos h]
      exact .cleared rfl (a.s.setAngCnt_kept _ 0) (fun _ => rfl) (fun _ _ => rfl) (congrArg Prod.snd hat)
        (by rw [hat, alarmStep_some, if_pos h]) rfl
    · rw [if_neg h]
      exact .count (a.s.setAngCnt_kept _ _) (fun _ => rfl) (fun _ _ => rfl) (by rw [hat, alarmStep_some, if_neg h]) rfl

/-- An entry written for the epoch starts afresh; a clear of an active alarm counts (R166). -/
theorem AngRun.reconf_effect (a : AngRun) (src idx fl : Nat) :
    KeyEffect (almKey src idx) (fun _ => (0, none)) true false a (a.reconf src idx fl) := by
  have hh : AngKept a.s ((a.s.setAngCnt (almKey src idx) 0).heal (1 + src) idx) := (a.s.setAngCnt_kept _ 0).trans (State.heal_kept _ _ _)
  have hrd (x : Nat) : ((a.s.setAngCnt (almKey src idx) 0).heal (1 + src) idx).rd x = a.s.rd x := by
    unfold State.heal
    split <;> rfl
  have hat (k : Nat) : ((a.s.setAngCnt (almKey src idx) 0).heal (1 + src) idx).alarmAt k = (a.s.setAngCnt (almKey src idx) 0).alarmAt k :=
    State.heal_alarmAt _ _ _ _
  have hact : mget ((a.s.setAngCnt (almKey src idx) 0).heal (1 + src) idx).alm.act (almKey src idx) = (a.s.alarmAt (almKey src idx)).2 :=
    (congrArg Prod.snd (hat (almKey src idx))).trans (by rw [State.setAngCnt_alarmAt, if_pos rfl])
  unfold AngRun.reconf
  dsimp only
  split
  case h_1 h => exact .count hh hat (fun x _ => hrd x) (by rw [← hact, h]) rfl
  case h_2 g h => exact .cleared rfl hh hat (fun x _ => hrd x) (hact.symm.trans h) rfl rfl

/-- An entry whose state was lost starts at its start value (R455). -/
theorem AngRun.lost_effect (a : AngRun) (src idx : Nat) : KeyEffect (almKey src idx) (fun _ => (0, none)) false false a (a.lost src idx) := by
  have hrd (f : Fld) : (a.lost src idx).s.get f = a.s.get f := State.get_of_regs (by unfold AngRun.lost State.heal; split <;> rfl) f
  have hat (k : Nat) : (a.lost src idx).s.alarmAt k = if k = almKey src idx then (0, none) else a.s.alarmAt k := by
    refine (State.heal_alarmAt _ _ _ _).trans ?_
    rw [State.almClear_alarmAt, State.setAngCnt_alarmAt]
    split <;> rfl
  exact {
    kept := ((a.s.setAngCnt_kept _ 0).trans (State.almClear_kept _ _)).trans (State.heal_kept _ _ _)
    at_self := by rw [hat, if_pos rfl]
    at_ne := fun k hk => by rw [hat, if_neg hk]
    raise := by
      rw [hrd]
      cases (a.s.alarmAt (almKey src idx)).2 <;> exact (Nat.mod_eq_of_lt a.s.get_lt).symm
    clear := by
      rw [hrd]
      exact (Nat.mod_eq_of_lt a.s.get_lt).symm
    miss := rfl
    pend := fun h => absurd h (by decide) }

/-! ### A rule and a pair against a set (R160 to R163) -/

/-- Is a rule's value outside its limits, and is it inside by HYST (R163). -/
def Limit.judge (e : Limit) (x : Nat × Bool) : Bool × Bool :=
  (f32Lt e.hi x.1 || f32Lt x.1 e.lo,
    (f32IsNaN e.hi || f32Le x.1 (f32AddSub true e.hi e.hyst)) && (f32IsNaN e.lo || f32Le (f32AddSub false e.lo e.hyst) x.1))

/-- The angle between a pair's phasors. -/
def pairAngle (p q : Nat × Nat × Bool) : Int := sext 16 (subMod 16 (bangle p.1 p.2.1) (bangle q.1 q.2.1))

/-- Is a pair's angle outside its limits, and is it inside by HYST; none where a phasor is below MINMAG (R161 to R163). -/
def Pair.judge (e : Pair) (p q : Nat × Nat × Bool) : Option (Bool × Bool) :=
  if f32Lt (mag p.1 p.2.1) e.minmag || f32Lt (mag q.1 q.2.1) e.minmag then none
  else some (decide (e.hi < pairAngle p q) || decide (pairAngle p q < e.lo),
    decide (pairAngle p q ≤ e.hi - (e.hyst : Int)) && decide (e.lo + (e.hyst : Int) ≤ pairAngle p q))

/-- A rule in a set, by whether its entry reads poisoned. -/
def State.limitJudged (s : State) (d : SetDesc) (poisoned : Bool) (e : Limit) : Option (Bool × Bool) :=
  if poisoned then none else (s.limitVal d e).map e.judge

/-- A pair in a set, by whether its entry reads poisoned. -/
def State.pairJudged (s : State) (d : SetDesc) (poisoned : Bool) (e : Pair) : Option (Bool × Bool) :=
  if poisoned then none else (s.setPhasor d e.sidxA e.phA).bind fun p => (s.setPhasor d e.sidxB e.phB).bind fun q => e.judge p q

theorem AngRun.limit_effect (a : AngRun) (d : SetDesc) (fl idx : Nat) (e : Limit) :
    KeyEffect (almKey 0 idx) (alarmStep (e.enable && e.kind != 0) e.grp e.persist (a.s.limitJudged d (a.s.cramPoisoned 1 idx) e)) true
      (e.enable && e.kind != 0 && (a.s.limitJudged d (a.s.cramPoisoned 1 idx) e).isNone) a (a.limit d fl idx e) := by
  have hoff : (!e.enable || e.kind == 0) = !(e.enable && e.kind != 0) := by simp only [Bool.not_and, bne, Bool.not_not]
  unfold AngRun.limit State.limitJudged
  rw [hoff]
  cases hon : e.enable && e.kind != 0
  · exact .same rfl rfl rfl
  · cases hp : a.s.cramPoisoned 1 idx
    · simp only [Bool.not_true, Bool.false_eq_true, if_false]
      cases hv : a.s.limitVal d e with
      | none => exact .same rfl rfl rfl
      | some x => exact a.persist_effect 0 idx e.grp e.persist _ _ _ _ _
    · exact .same rfl rfl rfl

theorem AngRun.pair_effect (a : AngRun) (d : SetDesc) (fl idx : Nat) (e : Pair) :
    KeyEffect (almKey 1 idx) (alarmStep e.enable e.grp e.persist (a.s.pairJudged d (a.s.cramPoisoned 2 idx) e)) true
      (e.enable && (a.s.pairJudged d (a.s.cramPoisoned 2 idx) e).isNone) a (a.pair d fl idx e) := by
  unfold AngRun.pair State.pairJudged
  cases hon : e.enable
  · exact .same rfl rfl rfl
  · cases hp : a.s.cramPoisoned 2 idx
    · simp only [Bool.not_true, Bool.false_eq_true, if_false]
      cases hA : a.s.setPhasor d e.sidxA e.phA with
      | none => exact .same rfl rfl rfl
      | some p =>
        cases hB : a.s.setPhasor d e.sidxB e.phB with
        | none => exact .same rfl rfl rfl
        | some q =>
          dsimp only [Option.bind_some, Pair.judge]
          split
          · exact .same rfl rfl rfl
          · have h := fun x => AngRun.persist_effect { a with best := x } 1 idx e.grp e.persist (decide (e.hi < pairAngle p q))
              (decide (e.hi < pairAngle p q) || decide (pairAngle p q < e.lo))
              (decide (pairAngle p q ≤ e.hi - (e.hyst : Int)) && decide (e.lo + (e.hyst : Int) ≤ pairAngle p q)) (wrapInt 32 (pairAngle p q))
              (fl + 2 * b2n (p.2.2 || q.2.2))
            obtain ⟨h1, h2, h3, h4, h5, h6, h7⟩ := h (match a.best with
              | some b => if b.2.natAbs < (pairAngle p q).natAbs then some (idx, pairAngle p q) else a.best
              | none => some (idx, pairAngle p q))
            exact ⟨h1, h2, h3, h4, h5, h6, h7⟩
    · exact .same rfl rfl rfl

/-! ### A pass over a list of entries -/

/-- From run a to run b each entry x of the list has changed its alarm by `G x`, and no other alarm changed. -/
structure ListEffect {α : Type} (l : List α) (key : α → Nat) (G : α → Nat × Option Nat → Nat × Option Nat) (counted : Bool)
    (missing : α → Bool) (a b : AngRun) : Prop where
  kept : AngKept a.s b.s
  at_mem : ∀ x ∈ l, b.s.alarmAt (key x) = G x (a.s.alarmAt (key x))
  at_ne : ∀ k, (∀ x ∈ l, k ≠ key x) → b.s.alarmAt k = a.s.alarmAt k
  raise : b.s.get F.ANG_CNT_RAISE_COUNT = (a.s.get F.ANG_CNT_RAISE_COUNT +
    (l.filter fun x => (a.s.alarmAt (key x)).2.isNone && (b.s.alarmAt (key x)).2.isSome).length) % 2 ^ 32
  clear : b.s.get F.ANG_CNT_CLEAR_COUNT = (a.s.get F.ANG_CNT_CLEAR_COUNT +
    (l.filter fun x => counted && (a.s.alarmAt (key x)).2.isSome && (b.s.alarmAt (key x)).2.isNone).length) % 2 ^ 32
  miss : b.miss = a.miss + (l.filter missing).length
  pend : ∀ x ∈ l, counted = true → (a.s.alarmAt (key x)).2.isSome ≠ (b.s.alarmAt (key x)).2.isSome → b.s.pends 41

theorem length_filter_cons {α : Type} (f : α → Bool) (x : α) (l : List α) : ((x :: l).filter f).length = b2n (f x) + (l.filter f).length := by
  cases h : f x
  · rw [List.filter_cons_of_neg (by simp [h])]
    exact (Nat.zero_add _).symm
  · rw [List.filter_cons_of_pos h, List.length_cons, Nat.add_comm]
    rfl

theorem ListEffect.nil {α : Type} {key : α → Nat} {G : α → Nat × Option Nat → Nat × Option Nat} {counted : Bool} {missing : α → Bool}
    (a : AngRun) : ListEffect [] key G counted missing a a where
  kept := .refl a.s
  at_mem := fun _ h => absurd h List.not_mem_nil
  at_ne := fun _ _ => rfl
  raise := (Nat.mod_eq_of_lt a.s.get_lt).symm
  clear := (Nat.mod_eq_of_lt a.s.get_lt).symm
  miss := rfl
  pend := fun _ h => absurd h List.not_mem_nil

theorem ListEffect.cons {α : Type} {key : α → Nat} {G : α → Nat × Option Nat → Nat × Option Nat} {counted : Bool} {missing : α → Bool}
    {a b c : AngRun} {x : α} {l : List α} (h : KeyEffect (key x) (G x) counted (missing x) a b) (hl : ListEffect l key G counted missing b c)
    (hx : ∀ y ∈ l, key y ≠ key x) : ListEffect (x :: l) key G counted missing a c := by
  have hcx : c.s.alarmAt (key x) = b.s.alarmAt (key x) := hl.at_ne _ fun y hy => (hx y hy).symm
  have hby (y : α) (hy : y ∈ l) : b.s.alarmAt (key y) = a.s.alarmAt (key y) := h.at_ne _ (hx y hy)
  exact {
    kept := h.kept.trans hl.kept
    at_mem := fun y hy => by
      rcases List.mem_cons.mp hy with rfl | hy
      · rw [hcx, h.at_self]
      · rw [hl.at_mem y hy, hby y hy]
    at_ne := fun k hk => by
      rw [hl.at_ne k fun y hy => hk y (List.mem_cons_of_mem _ hy), h.at_ne k (hk x List.mem_cons_self)]
    raise := by
      rw [hl.raise, h.raise, length_filter_cons, hcx, h.at_self, Nat.mod_add_mod, Nat.add_assoc,
        List.filter_congr fun y hy => by rw [hby y hy]]
    clear := by
      rw [hl.clear, h.clear, length_filter_cons, hcx, h.at_self, Nat.mod_add_mod, Nat.add_assoc,
        List.filter_congr fun y hy => by rw [hby y hy]]
    miss := by rw [hl.miss, h.miss, length_filter_cons, Nat.add_assoc]
    pend := fun y hy hc hne => by
      rcases List.mem_cons.mp hy with rfl | hy
      · rw [hcx, h.at_self] at hne
        exact hl.kept.pends _ (by decide) (h.pend hc hne)
      · exact hl.pend y hy hc (by rwa [hby y hy]) }

/-- A pass over entries with distinct alarms, each of which does what it does wherever `I` holds, which the pass keeps. -/
theorem listEffect_foldl {α : Type} {key : α → Nat} {G : α → Nat × Option Nat → Nat × Option Nat} {counted : Bool} {missing : α → Bool}
    {op : AngRun → α → AngRun} (I : AngRun → Prop) {l : List α}
    (hop : ∀ a, ∀ x ∈ l, I a → KeyEffect (key x) (G x) counted (missing x) a (op a x) ∧ I (op a x)) (hn : (l.map key).Nodup) {a : AngRun}
    (ha : I a) : ListEffect l key G counted missing a (l.foldl op a) ∧ I (l.foldl op a) := by
  induction l generalizing a with
  | nil => exact ⟨.nil a, ha⟩
  | cons x l ih =>
    obtain ⟨hx, hl⟩ := List.nodup_cons.mp hn
    obtain ⟨h1, h2⟩ := hop a x List.mem_cons_self ha
    obtain ⟨h3, h4⟩ := ih (fun b y hy => hop b y (List.mem_cons_of_mem _ hy)) hl h2
    exact ⟨.cons h1 h3 fun y hy he => hx (List.mem_map.mpr ⟨y, hy, he⟩), h4⟩

/-! ### Poisoned entries through a run (R450, R455) -/

theorem State.heal_poisoned (s : State) (kind idx k i : Nat) :
    (s.heal kind idx).cramPoisoned k i = (s.cramPoisoned k i && !(kind == k && idx == i)) := by
  unfold State.heal
  split
  case isTrue h =>
    rcases Bool.or_eq_true_iff.mp h with he | he
    · have : s.cramPoisoned k i = false := by
        unfold State.cramPoisoned
        rw [List.isEmpty_iff.mp he]
        rfl
      rw [this, Bool.false_and]
    · by_cases hk : (kind == k && idx == i) = true
      · simp only [Bool.and_eq_true, beq_iff_eq] at hk
        obtain ⟨rfl, rfl⟩ := hk
        unfold State.cramPoisoned
        rw [he]
        simp
      · simp [hk]
  case isFalse h =>
    unfold State.cramPoisoned State.modEcc
    simp only [List.contains_append, Bool.not_or, Bool.and_assoc]
    congr 2
    rw [List.contains_cons, List.contains_nil, Bool.or_false]
    congr 1
    rw [Bool.eq_iff_iff]
    simp only [Bool.and_eq_true, beq_iff_eq, Prod.mk.injEq]
    exact and_congr eq_comm eq_comm

theorem State.cramPoisoned_of_ecc (h : t.ecc = s.ecc) (k i : Nat) : t.cramPoisoned k i = s.cramPoisoned k i := by
  rw [State.cramPoisoned, State.cramPoisoned, h]

theorem AngRun.reconf_poisoned (a : AngRun) (src idx fl k i : Nat) :
    (a.reconf src idx fl).s.cramPoisoned k i = (a.s.cramPoisoned k i && !(1 + src == k && idx == i)) := by
  have hv : ((a.s.setAngCnt (almKey src idx) 0).heal (1 + src) idx).cramPoisoned k i =
      (a.s.cramPoisoned k i && !(1 + src == k && idx == i)) := State.heal_poisoned _ _ _ _ _
  refine (State.cramPoisoned_of_ecc ?_ k i).trans hv
  unfold AngRun.reconf
  dsimp only
  split
  · rfl
  · rw [AngRun.add_s]
    exact State.ev0_ecc _ _

theorem AngRun.lost_poisoned (a : AngRun) (src idx k i : Nat) :
    (a.lost src idx).s.cramPoisoned k i = (a.s.cramPoisoned k i && !(32 + src == k && idx == i)) := State.heal_poisoned _ _ _ _ _

theorem AngRun.persist_ecc (a : AngRun) (src idx grp per : Nat) (above o i : Bool) (value fl : Nat) :
    (a.persist src idx grp per above o i value fl).s.ecc = a.s.ecc := by
  have counted (v : State) (b : Bool) : (v.angCounted b).ecc = v.ecc := by cases b <;> exact State.ev0_ecc _ _
  have pick {c : Prop} [Decidable c] {x y : AngRun} (hx : x.s.ecc = a.s.ecc) (hy : y.s.ecc = a.s.ecc) : (if c then x else y).s.ecc = a.s.ecc := by
    split
    · exact hx
    · exact hy
  unfold AngRun.persist
  dsimp only
  split
  · exact pick (counted _ _) rfl
  · exact pick (counted _ _) rfl

theorem AngRun.limit_ecc (a : AngRun) (d : SetDesc) (fl idx : Nat) (e : Limit) : (a.limit d fl idx e).s.ecc = a.s.ecc := by
  unfold AngRun.limit
  dsimp only
  split
  · rfl
  · split
    · rfl
    · exact AngRun.persist_ecc _ _ _ _ _ _ _ _ _ _

theorem AngRun.pair_ecc (a : AngRun) (d : SetDesc) (fl idx : Nat) (e : Pair) : (a.pair d fl idx e).s.ecc = a.s.ecc := by
  unfold AngRun.pair
  dsimp only
  split
  · rfl
  · split
    · rfl
    · split
      · split
        · rfl
        · exact AngRun.persist_ecc _ _ _ _ _ _ _ _ _ _
      · rfl

/-! ### The passes of a run (R163, R166, R455) -/

section passes
variable {a b : AngRun} {d : SetDesc} {fl : Nat}

theorem almKey_inj {src i j : Nat} (h : almKey src i = almKey src j) : i = j := Nat.add_left_cancel h

/-- The poison of entries after a pass over rewritten ones. -/
theorem foldl_reconf_poisoned (src fl k i : Nat) (l : List Nat) (a : AngRun) :
    (l.foldl (fun a i => a.reconf src i fl) a).s.cramPoisoned k i = (a.s.cramPoisoned k i && !(1 + src == k && l.contains i)) := by
  induction l generalizing a with
  | nil => simp
  | cons x l ih =>
    rw [List.foldl_cons, ih, AngRun.reconf_poisoned, List.contains_cons, Bool.and_assoc]
    rw [show (i == x) = (x == i) from Bool.eq_iff_iff.mpr (by simp only [beq_iff_eq]; exact eq_comm)]
    cases 1 + src == k <;> cases x == i <;> simp

end passes

end Sys2Proof.Machine
end


section
namespace Sys2Proof.Machine

variable {s t u : State} {ps : List Part} {rs : Nat → Bool}

/-! ### The run's passes together (R160 to R166) -/

section passes
variable {a : AngRun} {d : SetDesc} {fl : Nat}

theorem State.setRec_of_sett (h : t.sett = s.sett) (d : SetDesc) (i : Nat) : t.setRec d i = s.setRec d i := by
  have hw (r : Ref) : t.refWords r = s.refWords r := by rw [State.refWords, State.refWords, h]
  unfold State.setRec
  simp only [hw]

theorem State.limitJudged_of_sett (h : t.sett = s.sett) (d : SetDesc) (b : Bool) (e : Limit) : t.limitJudged d b e = s.limitJudged d b e := by
  unfold State.limitJudged State.limitVal State.setPhasor State.setFreq
  simp only [State.setRec_of_sett h]

theorem State.pairJudged_of_sett (h : t.sett = s.sett) (d : SetDesc) (b : Bool) (e : Pair) : t.pairJudged d b e = s.pairJudged d b e := by
  unfold State.pairJudged State.setPhasor
  simp only [State.setRec_of_sett h]

/-- The pass over rewritten entries of one table (R166). -/
theorem reconfs_effect (src fl : Nat) {l : List Nat} (hl : l.Nodup) (a : AngRun) :
    ListEffect l (almKey src) (fun _ _ => (0, none)) true (fun _ => false) a (l.foldl (fun a i => a.reconf src i fl) a) :=
  (listEffect_foldl (fun _ => True) (fun a x _ _ => ⟨a.reconf_effect src x fl, trivial⟩) (hl.map fun _ _ => almKey_inj) trivial).1

/-- The pass over entries whose state was lost (R455). -/
theorem losts_effect (src : Nat) {l : List Nat} (hl : l.Nodup) (a : AngRun) :
    ListEffect l (almKey src) (fun _ _ => (0, none)) false (fun _ => false) a (l.foldl (fun a i => a.lost src i) a) :=
  (listEffect_foldl (fun _ => True) (fun a x _ _ => ⟨a.lost_effect src x, trivial⟩) (hl.map fun _ _ => almKey_inj) trivial).1

theorem losts_poisoned (src k i : Nat) (hk : 32 + src ≠ k) (l : List Nat) (a : AngRun) :
    (l.foldl (fun a i => a.lost src i) a).s.cramPoisoned k i = a.s.cramPoisoned k i := by
  induction l generalizing a with
  | nil => rfl
  | cons x l ih => rw [List.foldl_cons, ih, AngRun.lost_poisoned, beq_false_of_ne hk, Bool.false_and, Bool.not_false, Bool.and_true]

/-- Does nothing where the unit's enable is clear. -/
def AngRun.gated (on : Bool) (f : AngRun → AngRun) (a : AngRun) : AngRun := if on then f a else a

/-- The pass over the rules (R160, R163). -/
theorem limits_effect (on : Bool) {l : List (Nat × Limit)} (hl : (l.map fun p => p.1).Nodup) {P : Nat → Bool} (hP : ∀ i, a.s.cramPoisoned 1 i = P i)
    (ht : a.s.sett = t.sett) :
    ListEffect l (fun p => almKey 0 p.1) (fun p => alarmStep (on && p.2.enable && p.2.kind != 0) p.2.grp p.2.persist (t.limitJudged d (P p.1) p.2)) true
      (fun p => on && p.2.enable && p.2.kind != 0 && (t.limitJudged d (P p.1) p.2).isNone) a
      (a.gated on fun a => l.foldl (fun a e => a.limit d fl e.1 e.2) a) ∧
      (a.gated on fun a => l.foldl (fun a e => a.limit d fl e.1 e.2) a).s.ecc = a.s.ecc := by
  have hn : (l.map fun p => almKey 0 p.1).Nodup := by
    have h := hl.map fun _ _ => almKey_inj (src := 0)
    rwa [List.map_map] at h
  cases on
  · have h := listEffect_foldl (op := fun a (_ : Nat × Limit) => a) (counted := true) (missing := fun _ => false)
      (G := fun p => alarmStep false p.2.grp p.2.persist (t.limitJudged d (P p.1) p.2)) (fun b => b.s.ecc = a.s.ecc)
      (fun b x _ h => ⟨.same rfl rfl rfl, h⟩) hn rfl
    rw [List.foldl_fixed] at h
    exact h
  · refine listEffect_foldl (fun b => b.s.sett = t.sett ∧ b.s.ecc = a.s.ecc) (fun b x _ hb => ?_) hn ⟨ht, rfl⟩ |>.imp id And.right
    obtain ⟨hs, he⟩ := hb
    have h := b.limit_effect d fl x.1 x.2
    rw [State.limitJudged_of_sett hs, State.cramPoisoned_of_ecc he, hP] at h
    exact ⟨h, h.kept.sett.trans hs, (b.limit_ecc d fl _ _).trans he⟩

/-- The pass over the pairs (R161 to R163). -/
theorem pairs_effect (on : Bool) {l : List (Nat × Pair)} (hl : (l.map fun p => p.1).Nodup) {P : Nat → Bool} (hP : ∀ i, a.s.cramPoisoned 2 i = P i)
    (ht : a.s.sett = t.sett) :
    ListEffect l (fun p => almKey 1 p.1) (fun p => alarmStep (on && p.2.enable) p.2.grp p.2.persist (t.pairJudged d (P p.1) p.2)) true
      (fun p => on && p.2.enable && (t.pairJudged d (P p.1) p.2).isNone) a
      (a.gated on fun a => l.foldl (fun a e => a.pair d fl e.1 e.2) a) := by
  have hn : (l.map fun p => almKey 1 p.1).Nodup := by
    have h := hl.map fun _ _ => almKey_inj (src := 1)
    rwa [List.map_map] at h
  cases on
  · have h := listEffect_foldl (op := fun a (_ : Nat × Pair) => a) (counted := true) (missing := fun _ => false)
      (G := fun p => alarmStep false p.2.grp p.2.persist (t.pairJudged d (P p.1) p.2)) (fun b => b.s.ecc = a.s.ecc)
      (fun b x _ h => ⟨.same rfl rfl rfl, h⟩) hn rfl
    rw [List.foldl_fixed] at h
    exact h.1
  · refine (listEffect_foldl (fun b => b.s.sett = t.sett ∧ b.s.ecc = a.s.ecc) (fun b x _ hb => ?_) hn ⟨ht, rfl⟩).1
    obtain ⟨hs, he⟩ := hb
    have h := b.pair_effect d fl x.1 x.2
    rw [State.pairJudged_of_sett hs, State.cramPoisoned_of_ecc he, hP] at h
    exact ⟨h, h.kept.sett.trans hs, (b.pair_ecc d fl _ _).trans he⟩

end passes

/-! ### Which entries a run starts afresh (R166, R417) -/

/-- A rising list has no member twice. -/
theorem sadd_sorted {l : List Nat} (h : l.Pairwise (· < ·)) (k : Nat) : (sadd l k).Pairwise (· < ·) := by
  induction l with
  | nil => exact List.pairwise_singleton _ _
  | cons x l ih =>
    obtain ⟨hx, hl⟩ := List.pairwise_cons.mp h
    rw [sadd]
    split
    case isTrue hk => exact List.pairwise_cons.mpr ⟨fun y hy => (List.mem_cons.mp hy).elim (fun e => e ▸ hk) fun hy => hk.trans (hx y hy), h⟩
    case isFalse hk =>
      split
      · exact h
      case isFalse hne =>
        refine List.pairwise_cons.mpr ⟨fun y hy => ?_, ih hl⟩
        rcases mem_sadd.mp hy with rfl | hy
        · have : y ≠ x := fun e => hne (beq_iff_eq.mpr e)
          omega
        · exact hx y hy

theorem foldl_sadd_sorted {α : Type} (f : α → Nat) {xs : List α} {l : List Nat} (h : l.Pairwise (· < ·)) :
    (xs.foldl (fun l x => sadd l (f x)) l).Pairwise (· < ·) := by
  induction xs generalizing l with
  | nil => exact h
  | cons x xs ih => exact ih (sadd_sorted h _)

theorem Tbl.dueKeys_nodup {α : Type} (t : Tbl α) (tag : Nat) : (t.dueKeys tag).Nodup := by
  have rising (l : List (Nat × List (Nat × Option α))) (m : List Nat) (hm : m.Pairwise (· < ·)) :
      (l.foldl (fun l d => d.2.foldl (fun l p => sadd l p.1) l) m).Pairwise (· < ·) := by
    induction l generalizing m with
    | nil => exact hm
    | cons x l ih => exact ih _ (foldl_sadd_sorted (fun p : Nat × Option α => p.1) hm)
  unfold Tbl.dueKeys
  split
  · exact List.nodup_nil
  · exact (rising _ [] List.Pairwise.nil).imp fun h => Nat.ne_of_lt h

end Sys2Proof.Machine
end


section
namespace Sys2Proof.Machine

variable {s t u : State} {ps : List Part} {rs : Nat → Bool}

/-! ### The start of a run: entries rewritten or lost (R166, R455) -/

/-- The run after the passes over rewritten and lost entries. -/
def AngRun.started (a : AngRun) (newR newP lost0 lost1 : List Nat) (fl : Nat) : AngRun :=
  lost1.foldl (fun a i => a.lost 1 i) (lost0.foldl (fun a i => a.lost 0 i)
    (newP.foldl (fun a i => a.reconf 1 i fl) (newR.foldl (fun a i => a.reconf 0 i fl) a)))

/-- Where an entry's alarm starts: afresh, or as it was. -/
def startAt (fresh : Bool) (x : Nat × Option Nat) : Nat × Option Nat := if fresh then (0, none) else x

/-- What the first passes leave: every named alarm afresh, every other as it was. -/
structure Started (newR newP lost0 lost1 : List Nat) (a b : AngRun) : Prop where
  kept : AngKept a.s b.s
  rule : ∀ i, i < 2 ^ 20 → b.s.alarmAt (almKey 0 i) = startAt (newR.contains i || lost0.contains i) (a.s.alarmAt (almKey 0 i))
  pair : ∀ i, b.s.alarmAt (almKey 1 i) = startAt (newP.contains i || lost1.contains i) (a.s.alarmAt (almKey 1 i))
  other : ∀ k, (∀ i ∈ newR ++ lost0, k ≠ almKey 0 i) → (∀ i ∈ newP ++ lost1, k ≠ almKey 1 i) → b.s.alarmAt k = a.s.alarmAt k
  raise : b.s.get F.ANG_CNT_RAISE_COUNT = a.s.get F.ANG_CNT_RAISE_COUNT
  clear : b.s.get F.ANG_CNT_CLEAR_COUNT = (a.s.get F.ANG_CNT_CLEAR_COUNT + (newR.filter fun i => (a.s.alarmAt (almKey 0 i)).2.isSome).length +
    (newP.filter fun i => (a.s.alarmAt (almKey 1 i)).2.isSome).length) % 2 ^ 32
  miss : b.miss = a.miss
  poison0 : ∀ i, b.s.cramPoisoned 1 i = (a.s.cramPoisoned 1 i && !newR.contains i)
  poison1 : ∀ i, b.s.cramPoisoned 2 i = (a.s.cramPoisoned 2 i && !newP.contains i)

theorem almKey_apart {i : Nat} (h : i < 2 ^ 20) (j : Nat) : almKey 0 i ≠ almKey 1 j := by
  unfold almKey
  omega

section restart
variable {l : List Nat} {src : Nat} {counted : Bool} {a b : AngRun}

/-- An alarm of the source after a pass that starts entries afresh. -/
theorem ListEffect.restart_at (h : ListEffect l (almKey src) (fun _ _ => (0, none)) counted (fun _ => false) a b) (i : Nat) :
    b.s.alarmAt (almKey src i) = startAt (l.contains i) (a.s.alarmAt (almKey src i)) := by
  unfold startAt
  split
  case isTrue hi => exact h.at_mem i (List.contains_iff_mem.mp hi)
  case isFalse hi => exact h.at_ne _ fun x hx he => hi (List.contains_iff_mem.mpr (almKey_inj he ▸ hx))

theorem ListEffect.restart_raise (h : ListEffect l (almKey src) (fun _ _ => (0, none)) counted (fun _ => false) a b) :
    b.s.get F.ANG_CNT_RAISE_COUNT = a.s.get F.ANG_CNT_RAISE_COUNT := by
  have hnone : (l.filter fun x => (a.s.alarmAt (almKey src x)).2.isNone && (b.s.alarmAt (almKey src x)).2.isSome) = [] :=
    List.filter_eq_nil_iff.mpr fun x hx => by simp [h.at_mem x hx]
  rw [h.raise, hnone]
  exact Nat.mod_eq_of_lt a.s.get_lt

theorem ListEffect.restart_clear (h : ListEffect l (almKey src) (fun _ _ => (0, none)) counted (fun _ => false) a b) :
    b.s.get F.ANG_CNT_CLEAR_COUNT = (a.s.get F.ANG_CNT_CLEAR_COUNT +
      (l.filter fun i => counted && (a.s.alarmAt (almKey src i)).2.isSome).length) % 2 ^ 32 := by
  rw [h.clear, List.filter_congr fun x hx => by rw [h.at_mem x hx, Option.isNone_none, Bool.and_true]]

theorem ListEffect.restart_miss (h : ListEffect l (almKey src) (fun _ _ => (0, none)) counted (fun _ => false) a b) : b.miss = a.miss := by
  rw [h.miss, List.filter_false]
  rfl

end restart

theorem AngRun.started_effect {newR newP lost0 lost1 : List Nat} (a : AngRun) (fl : Nat) (hR : newR.Nodup) (hP : newP.Nodup) (h0 : lost0.Nodup)
    (h1 : lost1.Nodup) (hRlt : ∀ i ∈ newR, i < 2 ^ 20) (h0lt : ∀ i ∈ lost0, i < 2 ^ 20) :
    Started newR newP lost0 lost1 a (a.started newR newP lost0 lost1 fl) := by
  have e1 := reconfs_effect 0 fl hR a
  have p1 (k i : Nat) := foldl_reconf_poisoned 0 fl k i newR a
  unfold AngRun.started
  generalize newR.foldl (fun a i => a.reconf 0 i fl) a = b1 at *
  have e2 := reconfs_effect 1 fl hP b1
  have p2 (k i : Nat) := foldl_reconf_poisoned 1 fl k i newP b1
  generalize newP.foldl (fun a i => a.reconf 1 i fl) b1 = b2 at *
  have e3 := losts_effect 0 h0 b2
  have p3 (k i : Nat) (hk : 32 + 0 ≠ k) := losts_poisoned 0 k i hk lost0 b2
  generalize lost0.foldl (fun a i => a.lost 0 i) b2 = b3 at *
  have e4 := losts_effect 1 h1 b3
  have p4 (k i : Nat) (hk : 32 + 1 ≠ k) := losts_poisoned 1 k i hk lost1 b3
  generalize lost1.foldl (fun a i => a.lost 1 i) b3 = b4 at *
  have apart0 {l : List Nat} (i : Nat) (hi : i < 2 ^ 20) : ∀ x ∈ l, almKey 0 i ≠ almKey 1 x := fun x _ => almKey_apart hi x
  have again (b c : Bool) (x : Nat × Option Nat) : startAt b (startAt c x) = startAt (c || b) x := by cases b <;> cases c <;> rfl
  exact {
    kept := ((e1.kept.trans e2.kept).trans e3.kept).trans e4.kept
    rule := fun i hi => by
      rw [e4.at_ne _ (apart0 i hi), e3.restart_at, e2.at_ne _ (apart0 i hi), e1.restart_at, again]
    pair := fun i => by
      rw [e4.restart_at, e3.at_ne _ fun x hx => (almKey_apart (h0lt x hx) i).symm, e2.restart_at,
        e1.at_ne _ fun x hx => (almKey_apart (hRlt x hx) i).symm, again]
    other := fun k hk0 hk1 => by
      rw [e4.at_ne _ fun x hx => hk1 x (List.mem_append_right _ hx), e3.at_ne _ fun x hx => hk0 x (List.mem_append_right _ hx),
        e2.at_ne _ fun x hx => hk1 x (List.mem_append_left _ hx), e1.at_ne _ fun x hx => hk0 x (List.mem_append_left _ hx)]
    raise := by rw [e4.restart_raise, e3.restart_raise, e2.restart_raise, e1.restart_raise]
    clear := by
      rw [e4.restart_clear, e3.restart_clear, e2.restart_clear, e1.restart_clear]
      simp only [Bool.false_and, Bool.true_and, List.filter_false, List.length_nil, Nat.add_zero, Nat.mod_mod, Nat.mod_add_mod]
      rw [List.filter_congr (l := newP) fun i _ => by rw [e1.at_ne _ fun x hx => (almKey_apart (hRlt x hx) i).symm]]
    miss := by rw [e4.restart_miss, e3.restart_miss, e2.restart_miss, e1.restart_miss]
    poison0 := fun i => by
      rw [p4 1 i (by decide), p3 1 i (by decide), p2, p1]
      simp
    poison1 := fun i => by
      rw [p4 2 i (by decide), p3 2 i (by decide), p2, p1]
      simp }

/-! ### A whole run's alarms -/

/-- The run after its passes over the rules and the pairs. -/
def AngRun.judged (a : AngRun) (lim pair : Bool) (rules : List (Nat × Limit)) (pairs : List (Nat × Pair)) (d : SetDesc) (fl : Nat) : AngRun :=
  (a.gated lim fun a => rules.foldl (fun a e => a.limit d fl e.1 e.2) a).gated pair fun a => pairs.foldl (fun a e => a.pair d fl e.1 e.2) a

/-- A rule in force. -/
def ruleOn (lim : Bool) (e : Limit) : Bool := lim && e.enable && e.kind != 0

/-- A pair in force. -/
def pairOn (on : Bool) (e : Pair) : Bool := on && e.enable

/-- What a run leaves of the alarms of state w: `s0`, `s1` are where the alarms of rules and pairs start, `v0`, `v1` what their values are. -/
structure Judged (w : State) (lim prs : Bool) (rules : List (Nat × Limit)) (pairs : List (Nat × Pair)) (newR newP : List Nat)
    (s0 s1 : Nat → Nat × Option Nat) (v0 : Nat × Limit → Option (Bool × Bool)) (v1 : Nat × Pair → Option (Bool × Bool)) (b : AngRun) : Prop where
  kept : AngKept w b.s
  rule : ∀ p ∈ rules, b.s.alarmAt (almKey 0 p.1) = alarmStep (ruleOn lim p.2) p.2.grp p.2.persist (v0 p) (s0 p.1)
  pair : ∀ p ∈ pairs, b.s.alarmAt (almKey 1 p.1) = alarmStep (pairOn prs p.2) p.2.grp p.2.persist (v1 p) (s1 p.1)
  newRule : ∀ i ∈ newR, (∀ p ∈ rules, p.1 ≠ i) → b.s.alarmAt (almKey 0 i) = (0, none)
  newPair : ∀ i ∈ newP, (∀ p ∈ pairs, p.1 ≠ i) → b.s.alarmAt (almKey 1 i) = (0, none)
  other : ∀ k, (∀ p ∈ rules, k ≠ almKey 0 p.1) → (∀ p ∈ pairs, k ≠ almKey 1 p.1) → (∀ i ∈ newR, k ≠ almKey 0 i) →
    (∀ i ∈ newP, k ≠ almKey 1 i) → b.s.alarmAt k = w.alarmAt k
  raise : b.s.get F.ANG_CNT_RAISE_COUNT = (w.get F.ANG_CNT_RAISE_COUNT +
    (rules.filter fun p => (s0 p.1).2.isNone && (b.s.alarmAt (almKey 0 p.1)).2.isSome).length +
    (pairs.filter fun p => (s1 p.1).2.isNone && (b.s.alarmAt (almKey 1 p.1)).2.isSome).length) % 2 ^ 32
  clear : b.s.get F.ANG_CNT_CLEAR_COUNT = (w.get F.ANG_CNT_CLEAR_COUNT + (newR.filter fun i => (w.alarmAt (almKey 0 i)).2.isSome).length +
    (newP.filter fun i => (w.alarmAt (almKey 1 i)).2.isSome).length +
    (rules.filter fun p => (s0 p.1).2.isSome && (b.s.alarmAt (almKey 0 p.1)).2.isNone).length +
    (pairs.filter fun p => (s1 p.1).2.isSome && (b.s.alarmAt (almKey 1 p.1)).2.isNone).length) % 2 ^ 32
  miss : b.miss = (rules.filter fun p => ruleOn lim p.2 && (v0 p).isNone).length + (pairs.filter fun p => pairOn prs p.2 && (v1 p).isNone).length
  pendRule : ∀ p ∈ rules, (s0 p.1).2.isSome ≠ (b.s.alarmAt (almKey 0 p.1)).2.isSome → b.s.pends 41
  pendPair : ∀ p ∈ pairs, (s1 p.1).2.isSome ≠ (b.s.alarmAt (almKey 1 p.1)).2.isSome → b.s.pends 41

theorem AngRun.judged_effect {w : State} {rules : List (Nat × Limit)} {pairs : List (Nat × Pair)} {newR newP lost0 lost1 : List Nat}
    (hr : (rules.map fun p => p.1).Nodup) (hp : (pairs.map fun p => p.1).Nodup) (hR : newR.Nodup) (hP : newP.Nodup)
    (hrlt : ∀ p ∈ rules, p.1 < 2 ^ 20) (hRlt : ∀ i ∈ newR, i < 2 ^ 20)
    (h0 : lost0 = (rules.map fun p => p.1).filter (w.cramPoisoned 32)) (h1 : lost1 = (pairs.map fun p => p.1).filter (w.cramPoisoned 33))
    (lim prs : Bool) (d : SetDesc) (fl : Nat) :
    Judged w lim prs rules pairs newR newP
      (fun i => startAt (newR.contains i || w.cramPoisoned 32 i) (w.alarmAt (almKey 0 i)))
      (fun i => startAt (newP.contains i || w.cramPoisoned 33 i) (w.alarmAt (almKey 1 i)))
      (fun p => w.limitJudged d (w.cramPoisoned 1 p.1 && !newR.contains p.1) p.2)
      (fun p => w.pairJudged d (w.cramPoisoned 2 p.1 && !newP.contains p.1) p.2)
      (((⟨w, [], 0, none⟩ : AngRun).started newR newP lost0 lost1 fl).judged lim prs rules pairs d fl) := by
  have hlost0 (i : Nat) (hi : i ∈ rules.map fun p => p.1) : lost0.contains i = w.cramPoisoned 32 i := by
    rw [h0, Bool.eq_iff_iff, List.contains_iff_mem, List.mem_filter]
    exact and_iff_right hi
  have hlost1 (i : Nat) (hi : i ∈ pairs.map fun p => p.1) : lost1.contains i = w.cramPoisoned 33 i := by
    rw [h1, Bool.eq_iff_iff, List.contains_iff_mem, List.mem_filter]
    exact and_iff_right hi
  have hsub0 : ∀ i ∈ lost0, i ∈ rules.map fun p => p.1 := fun i hi => (List.mem_filter.mp (h0 ▸ hi)).1
  have hsub1 : ∀ i ∈ lost1, i ∈ pairs.map fun p => p.1 := fun i hi => (List.mem_filter.mp (h1 ▸ hi)).1
  have hs := AngRun.started_effect (⟨w, [], 0, none⟩ : AngRun) fl hR hP (h0 ▸ hr.filter _) (h1 ▸ hp.filter _) hRlt fun i hi => by
    obtain ⟨p, hp, rfl⟩ := List.mem_map.mp (hsub0 i hi)
    exact hrlt p hp
  generalize (⟨w, [], 0, none⟩ : AngRun).started newR newP lost0 lost1 fl = a at hs
  obtain ⟨e1, he⟩ := limits_effect (d := d) (fl := fl) lim hr hs.poison0 hs.kept.sett
  unfold AngRun.judged
  generalize (a.gated lim fun a => rules.foldl (fun a e => a.limit d fl e.1 e.2) a) = b at e1 he
  have e2 := pairs_effect (d := d) (fl := fl) prs hp (fun i => (State.cramPoisoned_of_ecc he 2 i).trans (hs.poison1 i)) (e1.kept.sett.trans hs.kept.sett)
  generalize (b.gated prs fun a => pairs.foldl (fun a e => a.pair d fl e.1 e.2) a) = c at e2
  -- where the alarms of rules and pairs stand before and after their own pass
  have before0 (p) (hp : p ∈ rules) : a.s.alarmAt (almKey 0 p.1) = startAt (newR.contains p.1 || w.cramPoisoned 32 p.1) (w.alarmAt (almKey 0 p.1)) := by
    rw [hs.rule _ (hrlt p hp), hlost0 _ (List.mem_map_of_mem hp)]
  have after0 (i : Nat) (hi : i < 2 ^ 20) : c.s.alarmAt (almKey 0 i) = b.s.alarmAt (almKey 0 i) := e2.at_ne _ fun x _ => almKey_apart hi x.1
  have before1 (p) (hp : p ∈ pairs) : b.s.alarmAt (almKey 1 p.1) = startAt (newP.contains p.1 || w.cramPoisoned 33 p.1) (w.alarmAt (almKey 1 p.1)) := by
    rw [e1.at_ne _ fun x hx => (almKey_apart (hrlt x hx) _).symm, hs.pair, hlost1 _ (List.mem_map_of_mem hp)]
  exact {
    kept := (hs.kept.trans e1.kept).trans e2.kept
    rule := fun p hp => by rw [after0 _ (hrlt p hp), e1.at_mem p hp, before0 p hp]; rfl
    pair := fun p hp => by rw [e2.at_mem p hp, before1 p hp]; rfl
    newRule := fun i hi hn => by
      rw [after0 i (hRlt i hi), e1.at_ne _ fun x hx he => hn x hx (almKey_inj he).symm, hs.rule i (hRlt i hi), List.contains_iff_mem.mpr hi]
      rfl
    newPair := fun i hi hn => by
      rw [e2.at_ne _ fun x hx he => hn x hx (almKey_inj he).symm, e1.at_ne _ fun x hx => (almKey_apart (hrlt x hx) i).symm, hs.pair,
        List.contains_iff_mem.mpr hi]
      rfl
    other := fun k h1 h2 h3 h4 => by
      rw [e2.at_ne k h2, e1.at_ne k h1]
      refine hs.other k (fun i hi => ?_) fun i hi => ?_
      · rcases List.mem_append.mp hi with hi | hi
        · exact h3 i hi
        · obtain ⟨p, hp, rfl⟩ := List.mem_map.mp (hsub0 i hi)
          exact h1 p hp
      · rcases List.mem_append.mp hi with hi | hi
        · exact h4 i hi
        · obtain ⟨p, hp, rfl⟩ := List.mem_map.mp (hsub1 i hi)
          exact h2 p hp
    raise := by
      rw [e2.raise, e1.raise, hs.raise, Nat.mod_add_mod,
        List.filter_congr (l := rules) fun p hp => by rw [before0 p hp, ← after0 _ (hrlt p hp)],
        List.filter_congr (l := pairs) fun p hp => by rw [before1 p hp]]
    clear := by
      rw [e2.clear, e1.clear, hs.clear, Nat.mod_add_mod, Nat.add_assoc (_ % _), Nat.mod_add_mod, ← Nat.add_assoc,
        List.filter_congr (l := rules) fun p hp => by rw [before0 p hp, ← after0 _ (hrlt p hp), Bool.true_and],
        List.filter_congr (l := pairs) fun p hp => by rw [before1 p hp, Bool.true_and]]
    miss := by
      rw [e2.miss, e1.miss, hs.miss, Nat.zero_add]
      rfl
    pendRule := fun p hp hne => e2.kept.pends _ (by decide) (e1.pend p hp rfl (by rwa [before0 p hp, ← after0 _ (hrlt p hp)]))
    pendPair := fun p hp hne => e2.pend p hp rfl (by rwa [before1 p hp]) }

end Sys2Proof.Machine
end


section
namespace Sys2Proof.Machine

variable {s t u : State} {ps : List Part} {rs : Nat → Bool}

/-! ### The sets skipped before a run (R127) -/

/-- t is s after engine 0 has skipped n sets. -/
structure Skipped (n : Nat) (s t : State) : Prop where
  frame : Frame [.sched] (regsIn [R.SET_SKIP]) s t
  casc : t.sched.casc = s.sched.casc
  pend : t.sched.pend = s.sched.pend
  count : t.get F.SET_SKIP_COUNT = (s.get F.SET_SKIP_COUNT + n) % 2 ^ 32

theorem State.feedMark_sched (s : State) (d : SetDesc) (e : Nat) (ran : Bool) (ws : List SWord) :
    ∃ l, (s.feedMark d e ran ws) = { s with sched := { s.sched with feed := l } } := by
  unfold State.feedMark
  dsimp only
  split
  · exact ⟨_, rfl⟩
  · exact ⟨s.sched.feed, rfl⟩

theorem Frame.feedMark (h : Frame ps rs s t) (hp : Part.sched ∈ ps) (d : SetDesc) (e : Nat) (ran : Bool) (ws : List SWord) :
    Frame ps rs s (t.feedMark d e ran ws) := by
  obtain ⟨l, hl⟩ := t.feedMark_sched d e ran ws
  rw [hl]
  exact h.put_sched hp _

theorem Skipped.trans {n m : Nat} (h : Skipped n s t) (k : Skipped m t u) : Skipped (n + m) s u := by
  obtain ⟨h1, h2, h3, h4⟩ := h
  obtain ⟨k1, k2, k3, k4⟩ := k
  exact ⟨h1.trans k1, k2.trans h2, k3.trans h3, by rw [k4, h4, Nat.mod_add_mod, Nat.add_assoc]⟩

/-- A step that keeps the count, the cascade builder's sets and the pending lists skips nothing. -/
theorem Skipped.none (hf : Frame [.sched] noRegs s t) (hc : t.sched.casc = s.sched.casc) (hp : t.sched.pend = s.sched.pend) : Skipped 0 s t :=
  ⟨hf.mono (fun _ h => h) fun _ _ => rfl, hc, hp,
    (hf.get (f := F.SET_SKIP_COUNT) rfl (by decide)).trans (Nat.mod_eq_of_lt s.get_lt).symm⟩

theorem Skipped.logs (hf : Frame [] noRegs s t) : Skipped 0 s t :=
  have hs : t.sched = s.sched := hf.parts .sched (by simp)
  .none (hf.mono (by simp) fun _ h => h) (congrArg Sched.casc hs) (congrArg Sched.pend hs)

theorem Skipped.mark (s : State) (x : List Nat) (y : Option Nat) :
    Skipped 0 s { s with sched := { s.sched with skipped := x, skipAt := y } } :=
  .none ((Frame.refl _ _ s).put_sched (by simp) _) rfl rfl

theorem Skipped.feedMark (s : State) (d : SetDesc) (e : Nat) (ran : Bool) (ws : List SWord) : Skipped 0 s (s.feedMark d e ran ws) := by
  obtain ⟨l, hl⟩ := s.feedMark_sched d e ran ws
  rw [hl]
  exact .none ((Frame.refl _ _ s).put_sched (by simp) _) rfl rfl

theorem Skipped.counted (s : State) : Skipped 1 s (s.inc F.SET_SKIP_COUNT) :=
  ⟨(Frame.refl _ _ s).inc F.SET_SKIP_COUNT (by decide), rfl, rfl, s.get_inc_self (f := F.SET_SKIP_COUNT) ⟨by decide, by decide⟩⟩

theorem State.skipSet_skipped (s : State) (d : SetDesc) : Skipped 1 s (s.skipSet 0 false d) :=
  have h1 := Skipped.logs ((Frame.refl [] noRegs s).dropHolds (.engine 0) d.pages)
  have h2 := (h1.trans (Skipped.counted _)).trans (Skipped.mark ((s.dropHolds (.engine 0) d.pages).inc F.SET_SKIP_COUNT)
    (sadd ((s.dropHolds (.engine 0) d.pages).inc F.SET_SKIP_COUNT).sched.skipped 0)
    (some ((s.dropHolds (.engine 0) d.pages).inc F.SET_SKIP_COUNT).now))
  (h2.trans (Skipped.feedMark _ d 0 false [])).trans (Skipped.logs ((Frame.refl [] noRegs _).ev _ _ _))

theorem State.skips_skipped (s : State) (old : List SetDesc) : Skipped old.length s (old.foldl (fun s o => s.skipSet 0 false o) s) := by
  induction old generalizing s with
  | nil => exact .logs (Frame.refl _ _ s)
  | cons d old ih =>
    rw [List.length_cons, Nat.add_comm]
    exact (s.skipSet_skipped d).trans (ih (s.skipSet 0 false d))

/-- The engine takes the first set that is in time (R127). -/
theorem State.engineTake_some {d : SetDesc} {old rest : List SetDesc} (hp : s.pendOf 0 = old ++ d :: rest) (ho : ∀ o ∈ old, s.tooOld 0 o = true)
    (hd : s.tooOld 0 d = false) : s.engineTake 0 = (some d, (old.foldl (fun s o => s.skipSet 0 false o) s).setPend 0 rest) := by
  have htake : (s.pendOf 0).takeWhile (s.tooOld 0) = old := by
    rw [hp, List.takeWhile_append_of_pos ho, List.takeWhile_cons_of_neg (by simp [hd]), List.append_nil]
  unfold State.engineTake
  simp only [htake]
  rw [hp, List.drop_left]

theorem State.engineTake_none (ho : ∀ o ∈ s.pendOf 0, s.tooOld 0 o = true) :
    s.engineTake 0 = (none, ((s.pendOf 0).foldl (fun s o => s.skipSet 0 false o) s).setPend 0 []) := by
  have htake : (s.pendOf 0).takeWhile (s.tooOld 0) = s.pendOf 0 := List.takeWhile_eq_self_iff.mpr ho
  unfold State.engineTake
  simp only [htake]
  rw [List.drop_length]

/-! ### A run's end: what is counted, published and recorded (R126, R168, R178) -/

/-- t is s but for the parts and registers given and logging; the active alarms are the same, and pending sources stay pending. -/
structure Told (ps : List Part) (rs : Nat → Bool) (s t : State) : Prop where
  frame : Frame ps rs s t
  act : t.alm.act = s.alm.act
  pends : ∀ n, n < 128 → s.pends n → t.pends n

theorem Frame.act_eq (h : Frame ps rs s t) (hp : Part.alm ∉ ps) : t.alm.act = s.alm.act :=
  have hq : t.alm.quiet = s.alm.quiet := h.parts .alm hp
  (congrArg Alm.act hq : t.alm.quiet.act = s.alm.quiet.act)

theorem Told.refl (s : State) : Told ps rs s s := ⟨Frame.refl _ _ s, rfl, fun _ _ h => h⟩

theorem Told.trans (h : Told ps rs s t) (k : Told ps rs t u) : Told ps rs s u :=
  ⟨h.frame.trans k.frame, k.act.trans h.act, fun n hn hs => k.pends n hn (h.pends n hn hs)⟩

theorem Told.logs {al : Bool} (h : Told ps rs s t) (k : Logs al t u) : Told ps rs s u :=
  h.trans ⟨(Frame.refl _ _ t).logs k, k.frame.act_eq (by simp), fun _ hn hs => k.pendKeep hn hs⟩

theorem Told.set (h : Told ps rs s t) (f : Fld) (x : Nat) (hr : rs f.addr = true) (hb : f.addr < R.IRQ_PEND) : Told ps rs s (t.set f x) :=
  h.trans ⟨(Frame.refl _ _ t).set f x (by simp [hr]), rfl, fun _ _ hs => State.pends_set x hb hs⟩

theorem Told.inc (h : Told ps rs s t) (f : Fld) (hr : rs f.addr = true) (hb : f.addr < R.IRQ_PEND) : Told ps rs s (t.inc f) := h.set f _ hr hb

theorem Told.ev0 (h : Told ps rs s t) (c : Nat) : Told ps rs s (t.ev0 c) := h.logs (Logs.refl.ev0 c)

/-- A step that leaves the registers and the active alarms alone. -/
theorem Told.part (h : Told ps rs s t) (hf : Frame ps rs t u) (ha : u.alm.act = t.alm.act) (hr : u.regs = t.regs) : Told ps rs s u :=
  h.trans ⟨hf, ha, fun _ _ hs => State.pends_of_regs hr hs⟩

theorem Told.ite {c : Prop} [Decidable c] (ht : Told ps rs s t) (hu : Told ps rs s u) : Told ps rs s (if c then t else u) := by
  split
  · exact ht
  · exact hu

theorem Told.foldlMem {α : Type} (f : State → α → State) (l : List α) (h : Told ps rs s t)
    (hf : ∀ v, ∀ x ∈ l, Told ps rs s v → Told ps rs s (f v x)) : Told ps rs s (l.foldl f t) := by
  induction l generalizing t with
  | nil => exact h
  | cons x l ih => exact ih (hf t x List.mem_cons_self h) fun v y hy => hf v y (List.mem_cons_of_mem _ hy)

/-- The registers that alarm frames change. -/
def netReg (x : Nat) : Bool := sendReg x || x == R.ANG_NET_NORES || x == R.ANG_NET_SEQ

section net
variable (hm : Part.mac ∈ ps) (ha : Part.alm ∈ ps) (hr : ∀ x, netReg x = true → rs x = true)
include hm ha hr

theorem Told.txOffer (h : Told ps rs s t) {p : Nat} (hp : p < 5) (f : TxFrame) : Told ps rs s (t.txOffer p f).1 := by
  have hrp : rs (macCnt p 15).addr = true := hr _ (by rw [netReg, sendReg_macCnt hp]; rfl)
  have hb : (macCnt p 15).addr < R.IRQ_PEND := by
    show 0x20100 + 0x2000 * p + 4 * 15 < 0x100010
    omega
  have hi : Told ps rs s (t.macInc p 15) := h.inc _ hrp hb
  have := ha
  unfold State.txOffer
  split
  · exact .ite hi (hi.ev0 _)
  · exact h.part ((Frame.refl _ _ t).put_mac hm _) rfl rfl

theorem Told.send (h : Told ps rs s t) {p : Nat} (hp : p < 5) (tc : Nat) (tag : TagWish) (kind : TxKind) (q : Option Nat) (dst et : Nat)
    (b : List Byte) : Told ps rs s (t.send p tc tag kind q dst et b).1 := by
  unfold State.send
  split
  · have h' : Told ps rs s (if q.isNone then t.inc F.MAC_PRP_SEQ_SEQ else t) := .ite (h.inc _ (hr _ (by decide)) (by decide)) h
    exact (h'.txOffer hm ha hr (by decide) _).txOffer hm ha hr (by decide) _
  · exact h.txOffer hm ha hr hp _

theorem Told.almSend (h : Told ps rs s t) (copy seq : Nat) {ports : List Nat} (hports : ∀ p ∈ ports, p < 5) (ws : List SWord) :
    Told ps rs s (t.almSend copy seq ports ws) := by
  have honce : ∀ p ∈ t.portsOnce ports, p < 5 := fun p hp => by
    unfold State.portsOnce at hp
    split at hp
    · exact hports p (List.mem_of_mem_filter hp)
    · exact hports p hp
  refine h.foldlMem _ _ fun v p hp hv => ?_
  split
  · exact hv
  · exact hv.send hm ha hr (honce p hp) _ _ _ _ _ _ _

theorem Told.almFrames (h : Told ps rs s t) (recs : List (Nat × List SWord)) : Told ps rs s (t.almFrames recs) := by
  have hok (v : State) : ∀ p ∈ v.almPorts.filter fun p => (v.almMac p).isSome, p < 5 := fun p hp =>
    List.mem_range.mp (List.mem_of_mem_filter (List.mem_of_mem_filter hp))
  unfold State.almFrames
  refine .ite h ?_
  dsimp only
  have h1 : Told ps rs s ((t.almPorts.filter fun p => (t.almMac p).isNone).foldl (fun s _ => (s.inc F.ANG_NET_NORES_COUNT).ev0 Ev.ANG_NORESOLVE) t) :=
    h.foldlMem _ _ fun v _ _ hv => (hv.inc _ (hr _ (by decide)) (by decide)).ev0 _
  refine .ite h1 (h1.foldlMem _ _ fun v ws _ hv => ?_)
  have h2 : Told ps rs s ((v.almSend 0 (v.get F.ANG_NET_SEQ_SEQ) (t.almPorts.filter fun p => (t.almMac p).isSome) ws).inc F.ANG_NET_SEQ_SEQ) :=
    (hv.almSend hm ha hr _ _ (hok t) ws).inc _ (hr _ (by decide)) (by decide)
  exact .ite h2 (h2.part ((Frame.refl _ _ _).put_alm ha _) rfl rfl)

theorem Told.publish (h : Told ps rs s t) (trans : List (Nat × List SWord)) (src : Nat) (res : List (Nat × List SWord)) :
    Told ps rs s (t.publish trans src res) := by
  have h1 : Told ps rs s (if trans.isEmpty then t else (t.offerCopy 5 (2 ^ 5) trans).almFrames trans) :=
    .ite h ((h.logs (al := false) (Logs.refl.offerCopy _ _ _)).almFrames hm ha hr _)
  unfold State.publish
  exact .ite h1 (h1.logs (al := false) (Logs.refl.offerCopy _ _ _))

end net

/-- With no alarm frames on, publishing only stores and offers (R168, R178). -/
theorem Told.publish_off (h : Told ps rs s t) (hn : t.flag F.ANG_NET_CFG_EN = false) (trans : List (Nat × List SWord)) (src : Nat)
    (res : List (Nat × List SWord)) : Told ps rs s (t.publish trans src res) := by
  have hx : (t.offerCopy 5 (2 ^ 5) trans).almFrames trans = t.offerCopy 5 (2 ^ 5) trans := by
    refine if_pos ?_
    rw [((Frame.refl [] noRegs t).offerCopy 5 (2 ^ 5) trans).flag (f := F.ANG_NET_CFG_EN) rfl (by decide), hn]
    rfl
  have h1 : Told ps rs s (if trans.isEmpty then t else (t.offerCopy 5 (2 ^ 5) trans).almFrames trans) := by
    rw [hx]
    exact .ite h (h.logs (al := false) (Logs.refl.offerCopy _ _ _))
  unfold State.publish
  exact .ite h1 (h1.logs (al := false) (Logs.refl.offerCopy _ _ _))

/-- The run's end: the set's hold is released, and the longest interval kept (R126). -/
theorem Told.runEnd (h : Told ps rs s t) (hp : Part.sched ∈ ps) {f : Fld} (hr : rs f.addr = true) (hb : f.addr < R.IRQ_PEND) (e : Nat) (d : SetDesc)
    (ws : List SWord) : Told ps rs s (t.runEnd e d f ws) := by
  have h1 : Told ps rs s (t.dropHolds (.engine e) d.pages) := h.logs (al := false) (Logs.refl.dropHolds _ _)
  have h2 (c : Nat) : Told ps rs s (if (t.dropHolds (.engine e) d.pages).get f < c then (t.dropHolds (.engine e) d.pages).set f c
      else t.dropHolds (.engine e) d.pages) := .ite (h1.set _ _ hr hb) h1
  have h3 (v : State) (x : List Nat) (hv : Told ps rs s v) : Told ps rs s ({ v with sched := { v.sched with skipped := x } } : State) :=
    hv.part ((Frame.refl _ _ v).put_sched hp _) rfl rfl
  have h4 (v : State) (hv : Told ps rs s v) : Told ps rs s (v.feedMark d e true ws) := by
    obtain ⟨l, hl⟩ := v.feedMark_sched d e true ws
    rw [hl]
    exact hv.part ((Frame.refl _ _ v).put_sched hp _) rfl rfl
  exact h4 _ (h3 _ _ (h2 _))

end Sys2Proof.Machine
end


section
namespace Sys2Proof.Machine

variable {s t u : State} {ps : List Part} {rs : Nat → Bool}

/-! ### What a run's end records (R126) -/

/-- The longest interval recorded. -/
theorem State.runMax_get (s : State) {c : Nat} (hc : c < 2 ^ 24) :
    (if s.get F.ANG_RUNMAX_CLK < c then s.set F.ANG_RUNMAX_CLK c else s).get F.ANG_RUNMAX_CLK = max (s.get F.ANG_RUNMAX_CLK) c := by
  by_cases h : s.get F.ANG_RUNMAX_CLK < c
  · rw [if_pos h, s.get_set_self c ⟨by decide, by decide⟩, max_eq_right h.le]
    exact Nat.mod_eq_of_lt hc
  · rw [if_neg h, max_eq_left (Nat.le_of_not_lt h)]

/-- t is s but for what engines skipped and what the cascade builder is told. -/
structure Fed (s t : State) : Prop where
  regs : t.regs = s.regs
  casc : t.sched.casc = s.sched.casc
  pend : t.sched.pend = s.sched.pend

theorem State.runEnd_fed (s : State) (d : SetDesc) (x : List Nat) (ws : List SWord) :
    Fed s (({ s with sched := { s.sched with skipped := x } } : State).feedMark d 0 true ws) := by
  obtain ⟨l, hl⟩ := State.feedMark_sched { s with sched := { s.sched with skipped := x } } d 0 true ws
  rw [hl]
  exact ⟨rfl, rfl, rfl⟩

theorem State.runEnd_max (s : State) (d : SetDesc) : (s.runEnd 0 d F.ANG_RUNMAX_CLK []).get F.ANG_RUNMAX_CLK =
    max (s.get F.ANG_RUNMAX_CLK) (min ((s.now - d.releasedAt) * 5 / 3) 16777215) := by
  have hd : Frame [] noRegs s (s.dropHolds (.engine 0) d.pages) := (Frame.refl _ _ s).dropHolds _ _
  refine (State.get_of_regs (State.runEnd_fed _ _ _ _).regs _).trans ?_
  rw [State.runMax_get _ (by omega), hd.now_eq (by simp), State.get_of_regs (State.dropHolds_regs _ _ _)]
  rfl

/-- The run's end leaves the builder's sets and the pending lists. -/
theorem State.runEnd_sched (s : State) (d : SetDesc) :
    (s.runEnd 0 d F.ANG_RUNMAX_CLK []).sched.casc = s.sched.casc ∧ (s.runEnd 0 d F.ANG_RUNMAX_CLK []).sched.pend = s.sched.pend := by
  have hd : Frame [] noRegs s (s.dropHolds (.engine 0) d.pages) := (Frame.refl _ _ s).dropHolds _ _
  have hm (c : Nat) : (if (s.dropHolds (.engine 0) d.pages).get F.ANG_RUNMAX_CLK < c then (s.dropHolds (.engine 0) d.pages).set F.ANG_RUNMAX_CLK c
      else s.dropHolds (.engine 0) d.pages).sched = s.sched := by
    split
    · exact hd.parts .sched (by simp)
    · exact hd.parts .sched (by simp)
  obtain ⟨-, hc, hp⟩ := State.runEnd_fed (if (s.dropHolds (.engine 0) d.pages).get F.ANG_RUNMAX_CLK <
      min (((s.dropHolds (.engine 0) d.pages).now - d.releasedAt) * 5 / 3) 16777215 then
    (s.dropHolds (.engine 0) d.pages).set F.ANG_RUNMAX_CLK (min (((s.dropHolds (.engine 0) d.pages).now - d.releasedAt) * 5 / 3) 16777215)
    else s.dropHolds (.engine 0) d.pages) d (sdel (State.sched _).skipped 0) []
  exact ⟨hc.trans (congrArg Sched.casc (hm _)), hp.trans (congrArg Sched.pend (hm _))⟩

/-! ### The run of the limit engine (R167) -/

/-- The tables due for an epoch take effect (R166). -/
def State.angDue (s : State) (epoch : Nat) : State :=
  { s with ang := { s.ang with limits := s.ang.limits.takeThrough epoch, pairs := s.ang.pairs.takeThrough epoch } }

/-- The run over a set before its results are published. -/
def State.angJudged (s : State) (d : SetDesc) : AngRun :=
  ((⟨s.angDue d.epoch, [], 0, none⟩ : AngRun).started (s.ang.limits.dueKeys d.epoch) (s.ang.pairs.dueKeys d.epoch)
    ((s.angDue d.epoch).stateLost 32 ((s.ang.limits.takeThrough d.epoch).eff.map fun p => p.1))
    ((s.angDue d.epoch).stateLost 33 ((s.ang.pairs.takeThrough d.epoch).eff.map fun p => p.1)) (s.transFlags d.tq)).judged
    (s.flag F.ANG_CTRL_LIM_EN) (s.flag F.ANG_CTRL_PAIR_EN)
    (s.ang.limits.takeThrough d.epoch).eff (s.ang.pairs.takeThrough d.epoch).eff d (s.transFlags d.tq)

/-- What follows the passes: counting, publishing, the run's end and its source. -/
def State.angTail (s : State) (d : SetDesc) (cut : Bool) (n : Nat) (trans res : List (Nat × List SWord)) : State :=
  (((if cut then (s.add F.ANG_CNT_TRUNC_COUNT n).ev0 Ev.ANG_TRUNC else s).publish trans 2 res).runEnd 0 d F.ANG_RUNMAX_CLK []).raise 40

theorem State.angRun_tail (s : State) (d : SetDesc) : ∃ cut n trans res,
    s.angRun d = ((s.angJudged d).s.add F.ANG_CNT_MISS_COUNT (s.angJudged d).miss).angTail d cut n trans res := ⟨_, _, _, _, rfl⟩

/-- The registers that the tail of a run changes when no alarm frames are on. -/
def angTailRegs : List Nat := [R.ANG_CNT_TRUNC, R.ANG_RUNMAX]

section tail
variable {d : SetDesc} {cut : Bool} {n : Nat} {trans res : List (Nat × List SWord)}

theorem Told.angTail (hs : Part.sched ∈ ps) (hr : ∀ x ∈ angTailRegs, rs x = true)
    (hpub : ∀ y, Told ps rs s y → y.flag F.ANG_NET_CFG_EN = s.flag F.ANG_NET_CFG_EN → Told ps rs s (y.publish trans 2 res)) :
    Told ps rs s (s.angTail d cut n trans res) := by
  have h0 : Told ps rs s s := .refl s
  have h1 : Told ps rs s (if cut then (s.add F.ANG_CNT_TRUNC_COUNT n).ev0 Ev.ANG_TRUNC else s) :=
    .ite ((h0.set F.ANG_CNT_TRUNC_COUNT _ (hr _ (by decide)) (by decide)).ev0 _) h0
  have hf : Frame [] (regsIn [R.ANG_CNT_TRUNC]) s (if cut then (s.add F.ANG_CNT_TRUNC_COUNT n).ev0 Ev.ANG_TRUNC else s) :=
    .ite (((Frame.refl _ _ s).add _ _ (by decide)).ev0 _) (Frame.refl _ _ s)
  have h2 := hpub _ h1 (hf.flag (f := F.ANG_NET_CFG_EN) (by decide) (by decide))
  exact (h2.runEnd hs (hr _ (by decide)) (by decide) 0 d []).logs (al := false) (Logs.refl.raise (by decide))

/-- The tail with no alarm frames on. -/
theorem State.angTail_off (hn : s.flag F.ANG_NET_CFG_EN = false) : Told [.sched] (regsIn angTailRegs) s (s.angTail d cut n trans res) :=
  .angTail (by simp) (fun _ hx => List.contains_iff_mem.mpr hx) fun _ hy hf => hy.publish_off (hf.trans hn) _ _ _

/-- The registers that the tail of a run may change. -/
def angTailReg (x : Nat) : Bool := netReg x || angTailRegs.contains x

/-- The tail in general. -/
theorem State.angTail_told : Told [.sched, .mac, .alm] angTailReg s (s.angTail d cut n trans res) :=
  .angTail (by simp) (fun _ hx => Bool.or_eq_true_iff.mpr (.inr (List.contains_iff_mem.mpr hx))) fun _ hy _ =>
    hy.publish (by simp) (by simp) (fun _ hx => Bool.or_eq_true_iff.mpr (.inl hx)) _ _ _

/-- What stands before the run's end. -/
theorem State.angTail_end : ∃ y, s.angTail d cut n trans res = (y.runEnd 0 d F.ANG_RUNMAX_CLK []).raise 40 ∧
    Told [.mac, .alm] (fun x => netReg x || x == R.ANG_CNT_TRUNC) s y := by
  have h0 : Told [.mac, .alm] (fun x => netReg x || x == R.ANG_CNT_TRUNC) s s := .refl s
  have h1 := Told.ite (c := cut = true) ((h0.set F.ANG_CNT_TRUNC_COUNT (s.get F.ANG_CNT_TRUNC_COUNT + n) (by decide) (by decide)).ev0 Ev.ANG_TRUNC) h0
  exact ⟨_, rfl, h1.publish (by simp) (by simp) (fun _ hx => Bool.or_eq_true_iff.mpr (.inl hx)) _ _ _⟩

theorem State.angTail_max : (s.angTail d cut n trans res).get F.ANG_RUNMAX_CLK =
    max (s.get F.ANG_RUNMAX_CLK) (min ((s.now - d.releasedAt) * 5 / 3) 16777215) := by
  obtain ⟨y, he, hy⟩ := s.angTail_end (d := d) (cut := cut) (n := n) (trans := trans) (res := res)
  have hr : Frame [] noRegs (y.runEnd 0 d F.ANG_RUNMAX_CLK []) ((y.runEnd 0 d F.ANG_RUNMAX_CLK []).raise 40) := (Frame.refl _ _ _).raise (by decide)
  rw [he, hr.get rfl (by decide), y.runEnd_max, hy.frame.get (by decide) (by decide), hy.frame.now_eq (by simp)]
  rfl

theorem State.angTail_sched :
    (s.angTail d cut n trans res).sched.casc = s.sched.casc ∧ (s.angTail d cut n trans res).sched.pend = s.sched.pend := by
  obtain ⟨y, he, hy⟩ := s.angTail_end (d := d) (cut := cut) (n := n) (trans := trans) (res := res)
  have hr : Frame [] noRegs (y.runEnd 0 d F.ANG_RUNMAX_CLK []) ((y.runEnd 0 d F.ANG_RUNMAX_CLK []).raise 40) := (Frame.refl _ _ _).raise (by decide)
  have h1 : ((y.runEnd 0 d F.ANG_RUNMAX_CLK []).raise 40).sched = (y.runEnd 0 d F.ANG_RUNMAX_CLK []).sched := hr.parts .sched (by simp)
  have h2 : y.sched = s.sched := hy.frame.parts .sched (by simp)
  obtain ⟨hc, hp⟩ := y.runEnd_sched d
  rw [he, h1, hc, hp, h2]
  exact ⟨rfl, rfl⟩

theorem State.angTail_pends : (s.angTail d cut n trans res).pends 40 := State.raise_pends _ (by decide)

end tail

end Sys2Proof.Machine
end


section
namespace Sys2Proof.Machine

variable {s t u v : State} {ps : List Part} {rs : Nat → Bool}

/-! ### A run from the set taken to the results sent -/

/-- The registers of a run with no alarm frames on, but for the skips. -/
def angRunRegs : List Nat := angCntRegs ++ R.ANG_CNT_MISS :: angTailRegs

/-- What the run over set d makes of state v, with b what stands before the results are published. -/
structure AngRan (v : State) (d : SetDesc) (b : AngRun) (u : State) : Prop where
  alarm : ∀ k, u.alarmAt k = b.s.alarmAt k
  pends : ∀ n, n < 128 → b.s.pends n → u.pends n
  ran : u.pends 40
  raise : u.get F.ANG_CNT_RAISE_COUNT = b.s.get F.ANG_CNT_RAISE_COUNT
  clear : u.get F.ANG_CNT_CLEAR_COUNT = b.s.get F.ANG_CNT_CLEAR_COUNT
  miss : u.get F.ANG_CNT_MISS_COUNT = (v.get F.ANG_CNT_MISS_COUNT + b.miss) % 2 ^ 32
  runMax : u.get F.ANG_RUNMAX_CLK = max (v.get F.ANG_RUNMAX_CLK) (min ((v.now - d.releasedAt) * 5 / 3) 16777215)
  casc : u.sched.casc = v.sched.casc
  pend : u.sched.pend = v.sched.pend
  ang : u.ang = { v.ang with limits := v.ang.limits.takeThrough d.epoch, pairs := v.ang.pairs.takeThrough d.epoch, cnt := u.ang.cnt }
  frame : Frame [.sched, .mac, .ang, .alm, .ecc] (fun x => angTailReg x || angRunRegs.contains x) v u
  quiet : v.flag F.ANG_NET_CFG_EN = false →
    Frame [.sched, .ang, .alm, .ecc] (regsIn angRunRegs) v u ∧ u.alm.quiet = { v.alm.quiet with act := u.alm.act }

theorem State.angRun_ran (v : State) (d : SetDesc) (hk : AngKept (v.angDue d.epoch) (v.angJudged d).s) : AngRan v d (v.angJudged d) (v.angRun d) := by
  obtain ⟨cut, n, trans, res, he⟩ := v.angRun_tail d
  have h0 : Frame [.ang, .alm, .ecc] (regsIn angCntRegs) v (v.angDue d.epoch) := (Frame.refl _ _ v).put_ang (by simp) _
  have h1 : Frame [.ang, .alm, .ecc] (regsIn angCntRegs) v (v.angJudged d).s := h0.trans hk.frame
  rw [he]
  generalize v.angJudged d = b at hk h1
  have hm : Told [] (regsIn [R.ANG_CNT_MISS]) b.s (b.s.add F.ANG_CNT_MISS_COUNT b.miss) := (Told.refl b.s).set _ _ (by decide) (by decide)
  have h2 : Frame [.ang, .alm, .ecc] (regsIn (angCntRegs ++ [R.ANG_CNT_MISS])) v (b.s.add F.ANG_CNT_MISS_COUNT b.miss) := by
    refine (h1.mono (fun _ h => h) fun x hx => ?_).trans (hm.frame.mono (by simp) fun x hx => ?_)
    all_goals simp_all [regsIn]
  have hmiss : (b.s.add F.ANG_CNT_MISS_COUNT b.miss).get F.ANG_CNT_MISS_COUNT = (v.get F.ANG_CNT_MISS_COUNT + b.miss) % 2 ^ 32 := by
    rw [b.s.get_add_self b.miss ⟨by decide, by decide⟩, h1.get (by decide) (by decide)]
    rfl
  have hang : (b.s.add F.ANG_CNT_MISS_COUNT b.miss).ang = b.s.ang := hm.frame.parts .ang (by simp)
  generalize b.s.add F.ANG_CNT_MISS_COUNT b.miss = w at *
  have ht : Told [.sched, .mac, .alm] angTailReg w (w.angTail d cut n trans res) := State.angTail_told
  have hoff := fun hn => State.angTail_off (s := w) (d := d) (cut := cut) (n := n) (trans := trans) (res := res) hn
  have hend := State.angTail_sched (s := w) (d := d) (cut := cut) (n := n) (trans := trans) (res := res)
  have hmax := State.angTail_max (s := w) (d := d) (cut := cut) (n := n) (trans := trans) (res := res)
  have hran := State.angTail_pends (s := w) (d := d) (cut := cut) (n := n) (trans := trans) (res := res)
  generalize w.angTail d cut n trans res = u at *
  have hsched : w.sched = v.sched := h2.parts .sched (by simp)
  have hua : u.ang = b.s.ang := (ht.frame.parts .ang (by simp)).trans hang
  have hact : u.alm.act = b.s.alm.act := ht.act.trans hm.act
  exact {
    alarm := fun k => by rw [State.alarmAt, State.alarmAt, State.angCnt, State.angCnt, hua, hact]
    pends := fun n hn h => ht.pends n hn (hm.pends n hn h)
    ran := hran
    raise := (ht.frame.get (by decide) (by decide)).trans (hm.frame.get (by decide) (by decide))
    clear := (ht.frame.get (by decide) (by decide)).trans (hm.frame.get (by decide) (by decide))
    miss := (ht.frame.get (by decide) (by decide)).trans hmiss
    runMax := by
      rw [hmax, h2.get (by decide) (by decide), h2.now_eq (by simp)]
      rfl
    casc := hend.1.trans (congrArg Sched.casc hsched)
    pend := hend.2.trans (congrArg Sched.pend hsched)
    ang := by
      rw [hua, hk.ang]
      rfl
    frame := (h2.mono (by simp) fun x hx => by simp_all [regsIn, angRunRegs]).trans (ht.frame.mono (by simp) fun x hx => by simp_all)
    quiet := fun hn => by
      have hw : w.flag F.ANG_NET_CFG_EN = false := (h2.flag (by decide) (by decide)).trans hn
      refine ⟨(h2.mono (by simp) fun x hx => by simp_all [regsIn, angRunRegs]).trans ((hoff hw).frame.mono (by simp) fun x hx => by
        simp_all [regsIn, angRunRegs]), ?_⟩
      have hu : u.alm.quiet = w.alm.quiet := (hoff hw).frame.parts .alm (by simp)
      have hb : w.alm.quiet = b.s.alm.quiet := hm.frame.parts .alm (by simp)
      rw [hu, hb, hact, hk.alm]
      rfl }

/-- The set is taken: the older ones are skipped, and it leaves the pending list. -/
theorem State.taken_frame {n : Nat} {rest : List SetDesc} (h : Skipped n s t) (ht : u = t.setPend 0 rest) :
    Frame [.sched] (regsIn [R.SET_SKIP]) s u ∧ u.sched.casc = s.sched.casc ∧ u.pendOf 0 = rest ∧ (∀ e, e ≠ 0 → u.pendOf e = s.pendOf e) ∧
      u.get F.SET_SKIP_COUNT = (s.get F.SET_SKIP_COUNT + n) % 2 ^ 32 := by
  subst ht
  refine ⟨h.frame.put_sched (by simp) _, h.casc, mgetD_mput_self _ _ _ _, fun e he => ?_, h.count⟩
  exact (mgetD_mput_ne _ _ _ he).trans (congrArg (mgetD · e []) h.pend)

/-- The limit engine's law for one alarm: by what its value is, where its count and its group stand after the run (R163). -/
def State.alarmLaw (t : State) (key grp per : Nat) (was : Option Nat) (cnt : Nat) (on : Bool) (val : Option (Bool × Bool)) : Prop :=
  (on = false ∨ val = none → t.angCnt key = cnt ∧ mget t.alm.act key = was) ∧
    (∀ o i, on = true → val = some (o, i) → per ≠ 0 →
      (was = none → o = false → t.angCnt key = 0 ∧ mget t.alm.act key = none) ∧
      (was = none → o = true → cnt + 1 < per → t.angCnt key = cnt + 1 ∧ mget t.alm.act key = none) ∧
      (was = none → o = true → per ≤ cnt + 1 → t.angCnt key = 0 ∧ mget t.alm.act key = some grp ∧ t.pends 41) ∧
      (∀ g, was = some g → i = false → t.angCnt key = 0 ∧ mget t.alm.act key = some g) ∧
      (∀ g, was = some g → i = true → cnt + 1 < per → t.angCnt key = cnt + 1 ∧ mget t.alm.act key = some g) ∧
      (∀ g, was = some g → i = true → per ≤ cnt + 1 → t.angCnt key = 0 ∧ mget t.alm.act key = none ∧ t.pends 41))

/-- An alarm that took the engine's step, with its source pending where it was raised or cleared, obeys the law. -/
theorem State.alarmLaw_of_step {key grp per cnt : Nat} {was : Option Nat} {on : Bool} {val : Option (Bool × Bool)}
    (h : t.alarmAt key = alarmStep on grp per val (cnt, was)) (hp : was.isSome ≠ (t.alarmAt key).2.isSome → t.pends 41) :
    t.alarmLaw key grp per was cnt on val := by
  have hat {x : Nat × Option Nat} (hx : t.alarmAt key = x) : t.angCnt key = x.1 ∧ mget t.alm.act key = x.2 := Prod.mk.inj hx
  refine ⟨fun hno => ?_, fun o i hon hval hper => ?_⟩
  · rcases hno with rfl | rfl
    · exact hat h
    · cases on
      · exact hat h
      · exact hat h
  subst hon hval
  have hpos : ¬per ≤ 0 := by omega
  refine ⟨?_, ?_, ?_, ?_, ?_, ?_⟩
  · rintro rfl rfl
    exact hat (h.trans (if_neg hpos))
  · rintro rfl rfl hlt
    exact hat (h.trans (if_neg (Nat.not_le_of_lt hlt)))
  · rintro rfl rfl hle
    have hx := h.trans (if_pos hle)
    exact ⟨(hat hx).1, (hat hx).2, hp (by rw [hx]; simp)⟩
  · rintro g rfl rfl
    exact hat (h.trans (if_neg hpos))
  · rintro g rfl rfl hlt
    exact hat (h.trans (if_neg (Nat.not_le_of_lt hlt)))
  · rintro g rfl rfl hle
    have hx := h.trans (if_pos hle)
    exact ⟨(hat hx).1, (hat hx).2, hp (by rw [hx]; simp)⟩

theorem startAt_fst (b : Bool) (x : Nat × Option Nat) : (startAt b x).1 = if b then 0 else x.1 := by cases b <;> rfl

theorem startAt_snd (b : Bool) (x : Nat × Option Nat) : (startAt b x).2 = if b then none else x.2 := by cases b <;> rfl

end Sys2Proof.Machine
end


section
namespace Sys2Proof.Machine

variable {s t u v : State} {d : SetDesc}

/-! ### The whole command -/

/-- Where the alarm of a table's entry starts in a run: afresh where the entry is rewritten for the set or its own state was lost. -/
def State.angStart (s : State) (src kind : Nat) (keys : List Nat) (i : Nat) : Nat × Option Nat :=
  startAt (keys.contains i || s.cramPoisoned kind i) (s.alarmAt (almKey src i))

/-- The passes of a run over a set, in the terms of the state before the skips. -/
theorem State.angJudged_effect {rules : List (Nat × Limit)} {pairs : List (Nat × Pair)} {newR newP : List Nat} (hf : Frame [.sched] (regsIn [R.SET_SKIP]) s v)
    (er : rules = (s.ang.limits.takeThrough d.epoch).eff) (ep : pairs = (s.ang.pairs.takeThrough d.epoch).eff)
    (eR : newR = s.ang.limits.dueKeys d.epoch) (eP : newP = s.ang.pairs.dueKeys d.epoch) (hr : (rules.map fun p => p.1).Nodup)
    (hp : (pairs.map fun p => p.1).Nodup) (hrlt : ∀ p ∈ rules, p.1 < 2 ^ 20) (hRlt : ∀ i ∈ newR, i < 2 ^ 20) :
    Judged (v.angDue d.epoch) (s.flag F.ANG_CTRL_LIM_EN) (s.flag F.ANG_CTRL_PAIR_EN) rules pairs newR newP (s.angStart 0 32 newR) (s.angStart 1 33 newP)
      (fun p => v.limitJudged d (s.cramPoisoned 1 p.1 && !newR.contains p.1) p.2)
      (fun p => v.pairJudged d (s.cramPoisoned 2 p.1 && !newP.contains p.1) p.2) (v.angJudged d) := by
  have hang : v.ang = s.ang := hf.parts .ang (by simp)
  have hecc : v.ecc = s.ecc := hf.parts .ecc (by simp)
  have hal (k : Nat) : (v.angDue d.epoch).alarmAt k = s.alarmAt k := by
    show (mgetD v.ang.cnt k 0, mget v.alm.act k) = (mgetD s.ang.cnt k 0, mget s.alm.act k)
    rw [hang, hf.act_eq (by simp)]
  have hcr (k i : Nat) : (v.angDue d.epoch).cramPoisoned k i = s.cramPoisoned k i := State.cramPoisoned_of_ecc hecc k i
  have hlim (b : Bool) (e : Limit) : (v.angDue d.epoch).limitJudged d b e = v.limitJudged d b e := State.limitJudged_of_sett rfl d b e
  have hpair (b : Bool) (e : Pair) : (v.angDue d.epoch).pairJudged d b e = v.pairJudged d b e := State.pairJudged_of_sett rfl d b e
  have hj := AngRun.judged_effect (w := v.angDue d.epoch) hr hp (eR ▸ Tbl.dueKeys_nodup _ _) (eP ▸ Tbl.dueKeys_nodup _ _) hrlt hRlt rfl rfl
    (s.flag F.ANG_CTRL_LIM_EN) (s.flag F.ANG_CTRL_PAIR_EN) d (v.transFlags d.tq)
  have hrun : v.angJudged d = ((⟨v.angDue d.epoch, [], 0, none⟩ : AngRun).started newR newP
      ((rules.map fun p => p.1).filter ((v.angDue d.epoch).cramPoisoned 32)) ((pairs.map fun p => p.1).filter ((v.angDue d.epoch).cramPoisoned 33))
      (v.transFlags d.tq)).judged (s.flag F.ANG_CTRL_LIM_EN) (s.flag F.ANG_CTRL_PAIR_EN) rules pairs d (v.transFlags d.tq) := by
    rw [er, ep, eR, eP, ← hang, ← hf.flag (f := F.ANG_CTRL_LIM_EN) (by decide) (by decide),
      ← hf.flag (f := F.ANG_CTRL_PAIR_EN) (by decide) (by decide)]
    rfl
  rw [hrun]
  simp only [hal, hcr, hlim, hpair] at hj ⊢
  exact hj

end Sys2Proof.Machine
end

section
open Sys2Proof Sys2Proof.Machine

/-- Settles O19: the passes over rewritten, lost and enabled entries each move one alarm by `alarmStep`, and what follows them only counts, sends and logs. -/
theorem limitRulesRaiseAndClearByPersistence : Obligations.LimitRulesRaiseAndClearByPersistence := by
  unfold Obligations.LimitRulesRaiseAndClearByPersistence
  refine ⟨?_, fun s ho => ?_⟩
  · intro s v d old rest hs ho hd hv rules pairs newR newP fresh0 fresh1 was0 was1 cnt0 cnt1 val0 val1 on0 on1 law post hr hp hrlt hplt hRlt
    obtain ⟨hf, hcasc, hrest, hpend, hskip⟩ := State.taken_frame (s.skips_skipped old) hv
    have hexec : exec .angEngineRun s = .next (v.angRun d).drain := by
      show execAngEngineRun s = _
      rw [execAngEngineRun, State.engineTake_some hs ho hd, ← hv]
      rfl
    have hj := State.angJudged_effect (d := d) hf rfl rfl rfl rfl hr hp (fun p hx => (hrlt p hx).1) hRlt
    have hran := v.angRun_ran d hj.kept
    generalize v.angJudged d = b at hj hran
    generalize v.angRun d = u at hran hexec
    have hu : Frame [] noRegs u u.drain := u.drain_frame
    have hal (k : Nat) : u.drain.alarmAt k = b.s.alarmAt k := by
      rw [← hran.alarm, State.alarmAt, State.alarmAt, State.angCnt, State.angCnt, State.drain_ang, hu.act_eq (by simp)]
    have hpends (n : Nat) (hn : n < 128) (h : b.s.pends n) : u.drain.pends n := State.pends_drain hn (hran.pends n hn h)
    have hfull : Frame [.sched, .mac, .ang, .alm, .ecc] (fun x => angTailReg x || angRunRegs.contains x || x == R.SET_SKIP) s u.drain :=
      (hf.mono (by simp) fun x hx => by simp_all [regsIn]).trans ((hran.frame.mono (fun _ h => h) fun x hx => by simp_all).trans
        (hu.mono (by simp) fun _ _ => rfl))
    have hget {f : Fld} (h1 : regsIn [R.SET_SKIP] f.addr = false) (h2 : logReg f.addr = false) : (v.angDue d.epoch).get f = s.get f := hf.get h1 h2
    have hws (k : Nat) : (v.angDue d.epoch).alarmAt k = s.alarmAt k := by
      show (mgetD v.ang.cnt k 0, mget v.alm.act k) = (mgetD s.ang.cnt k 0, mget s.alm.act k)
      rw [hf.parts .ang (by simp), hf.act_eq (by simp)]
    refine ⟨u.drain, hexec, ⟨State.pends_drain (by decide) hran.ran, ?_, ?_, fun p hx => ?_, fun p hx => ?_, fun i hi hx => ?_, fun i hi hx => ?_,
      fun k h1 h2 h3 h4 => ?_, ?_, ?_, ?_, ?_, ?_⟩, ?_, ?_, ?_, ?_, ?_, ?_, ?_, ?_, ?_, ?_, fun hn => ⟨?_, ?_⟩⟩
    · show mgetD u.drain.sched.pend 0 [] = rest
      rw [State.drain_sched, hran.pend]
      exact hrest
    · rw [State.drain_ang, hran.ang, show v.ang = s.ang from hf.parts .ang (by simp)]
    · refine State.alarmLaw_of_step (((hal _).trans (hj.rule p hx)).trans (congrArg _ (Prod.ext (startAt_fst _ _) (startAt_snd _ _)))) fun hne => ?_
      refine hpends _ (by decide) (hj.pendRule p hx ?_)
      rwa [← hal, State.angStart, startAt_snd]
    · refine State.alarmLaw_of_step (((hal _).trans (hj.pair p hx)).trans (congrArg _ (Prod.ext (startAt_fst _ _) (startAt_snd _ _)))) fun hne => ?_
      refine hpends _ (by decide) (hj.pendPair p hx ?_)
      rwa [← hal, State.angStart, startAt_snd]
    · exact Prod.mk.inj ((hal _).trans (hj.newRule i hi hx))
    · exact Prod.mk.inj ((hal _).trans (hj.newPair i hi hx))
    · exact Prod.mk.inj (((hal k).trans (hj.other k h1 h2 h3 h4)).trans (hws k))
    · rw [State.drain_get _ (by decide), hran.miss, hf.get (by decide) (by decide), hj.miss, ← Nat.add_assoc]
      rfl
    · have hraise := hj.raise
      simp only [← hal, State.angStart, startAt_snd] at hraise
      rw [State.drain_get _ (by decide), hran.raise, hraise, hget (by decide) (by decide)]
      rfl
    · have hclear := hj.clear
      simp only [← hal, hws, State.angStart, startAt_snd] at hclear
      rw [State.drain_get _ (by decide), hran.clear, hclear, hget (by decide) (by decide)]
      rfl
    · rw [State.drain_get _ (by decide), hran.runMax, hf.get (by decide) (by decide), hf.now_eq (by simp)]
    · rw [State.drain_get _ (by decide), ← hskip]
      exact hran.frame.get (by decide) (by decide)
    · exact hfull.pending
    · exact hfull.parts .tim (by simp)
    · exact hfull.parts .aln (by simp)
    · exact hfull.parts .ing (by simp)
    · exact hfull.parts .isl (by simp)
    · exact hfull.parts .osc (by simp)
    · exact hfull.parts .cmd (by simp)
    · have hc : u.drain.sched.casc = s.sched.casc := by rw [State.drain_sched, hran.casc, hcasc]
      exact congrArg (fun c => { u.drain.sched with casc := c }) hc
    · show mgetD u.drain.sched.pend 1 [] = s.pendOf 1
      rw [State.drain_sched, hran.pend]
      exact hpend 1 (by decide)
    · show mgetD u.drain.sched.pend 2 [] = s.pendOf 2
      rw [State.drain_sched, hran.pend]
      exact hpend 2 (by decide)
    · obtain ⟨hq, -⟩ := hran.quiet ((hf.flag (by decide) (by decide)).trans hn)
      exact (hf.mono (by simp) fun x hx => by simp_all [regsIn]).trans ((hq.mono (by simp) fun x hx => by
        simp_all [regsIn, angRunRegs, angCntRegs, angTailRegs]).trans (hu.mono (by simp) fun _ _ => rfl))
    · obtain ⟨-, hq⟩ := hran.quiet ((hf.flag (by decide) (by decide)).trans hn)
      have h1 : u.drain.alm.quiet = u.alm.quiet := hu.parts .alm (by simp)
      have h2 : v.alm.quiet = s.alm.quiet := hf.parts .alm (by simp)
      rw [h1, hq, h2, hu.act_eq (by simp)]
  · obtain ⟨hf, -, hrest, -, hskip⟩ := State.taken_frame (s.skips_skipped (s.pendOf 0)) rfl
    refine ⟨_, ?_, ⟨hrest, hskip⟩, hf⟩
    show execAngEngineRun s = _
    rw [execAngEngineRun, State.engineTake_none ho]
    rfl

end


section
namespace Sys2Proof.Machine

variable {s : State}

/-! ### A digest whose record opens a boundary that counts it once more (R154, R232, R245)

The forwarded record of a digest may be the first of its instant, and a boundary pending at that instant then takes effect while the digest is
being accepted. A boundary counts in CFGCNT of each output group it changes. There are 16 groups; a group of number 114, which no command
prepares, has CAS_CNT_RECV where its CFGCNT would be. -/

/-- JOIN's conditions on member, source, group and depth hold; the open number of forwarded streams then leaves two reasons. -/
theorem State.joinReason_passes {src : Nat} {b : List Byte}
    (hw : ¬ ((casHdrOf b).member == 0 || decide (15 < (casHdrOf b).member) || !s.casEnabled (casHdrOf b).member) = true)
    (hsrc : src = s.eget (mbr F.CAS_MMACA_LO_MAC (casHdrOf b).member) + 2 ^ 32 * s.eget (mbr F.CAS_MMACA_HI_MAC (casHdrOf b).member))
    (hg : (casHdrOf b).group = s.eget F.CAS_GROUPID_ID) (hd : (casHdrOf b).depth ≤ s.tier) : s.joinReason src b = 0 ∨ s.joinReason src b = 5 := by
  unfold State.joinReason
  rw [if_neg hw, if_neg (by simp [hsrc]), if_neg (by simp [hg]), if_neg (Nat.not_lt_of_le hd)]
  split
  · exact .inr rfl
  · exact .inl rfl

/-- Is a frame one that CASCADE_DIGEST_RX takes: no message of the handshake. -/
def isDigest (b : List Byte) : Bool := !(1 ≤ be b 3 1 && be b 3 1 ≤ 4)

/-- A well-formed frame of a known member without authentication, where none is required, joins its digest. -/
theorem execCascadeDigestRx_joins {f : Nat × (Nat × (Nat × List Byte))} (hq : (s.cas.rxq.find? fun f => isDigest f.2.2.2) = some f) (ht : s.tier ≠ 0)
    (hen : s.flag F.CAS_CTRL_EN = true) (hok : casOk f.2.2.2 = true) (hwhy : s.joinReason f.2.2.1 f.2.2.2 = 0 ∨ s.joinReason f.2.2.1 f.2.2.2 = 5)
    (hd : (casHdrOf f.2.2.2).depth ≤ s.tier) (ha : (casHdrOf f.2.2.2).auth = false)
    (hr : (s.eget (mbr F.CAS_MCFG_AUTH_REQ (casHdrOf f.2.2.2).member) == 1) = false) :
    execCascadeDigestRx s = .next ((s.modCas fun c => { c with rxq := c.rxq.erase f }).digestFragment (casHdrOf f.2.2.2) f.2.1 false
      (casWords (f.2.2.2.take (32 + 10 * be f.2.2.2 24 2)))).drain := by
  have htake : (s.casTake fun b => !(1 ≤ be b 3 1 && be b 3 1 ≤ 4)) = (some f, s.modCas fun c => { c with rxq := c.rxq.erase f }) := by
    show (match s.cas.rxq.find? fun f => isDigest f.2.2.2 with
      | none => (none, s)
      | some f => (some f, s.modCas fun c => { c with rxq := c.rxq.erase f })) = _
    rw [hq]
  have hpass : ¬ (decide (1 ≤ s.joinReason f.2.2.1 f.2.2.2) && decide (s.joinReason f.2.2.1 f.2.2.2 ≤ 3)) = true := by
    rcases hwhy with h | h <;> simp [h]
  unfold execCascadeDigestRx
  rw [htake]
  show (if s.tier == 0 then _ else _) = _
  rw [if_neg (by simpa using ht)]
  show (if !s.flag F.CAS_CTRL_EN then _ else _) = _
  rw [hen, if_neg (by simp)]
  show (if !casOk f.2.2.2 then _ else _) = _
  rw [hok, if_neg (by simp)]
  show (if decide (1 ≤ s.joinReason f.2.2.1 f.2.2.2) && decide (s.joinReason f.2.2.1 f.2.2.2 ≤ 3) then _ else
    if s.tier < (casHdrOf f.2.2.2).depth then _ else _) = _
  rw [if_neg hpass, if_neg (Nat.not_lt_of_le hd), ha]
  show (if s.eget (mbr F.CAS_MCFG_AUTH_REQ (casHdrOf f.2.2.2).member) == 1 && true then _ else _) = _
  rw [hr]
  rfl

/-- A digest of member 1 in one fragment, of the words given. -/
def digestOf (ws : List Nat) : List Byte := CasHdr.bytes ⟨0, 0, 1, 0, 0, 1, 0, 0, 0, false, 0, 0⟩ (ws.map sword)

/-- The digest of member 1 with one forwarded record of one word, tagged with second 100. -/
def boundaryDigest : List Byte := digestOf [2 ^ 63, 0, 2 ^ 49, 100 * 2 ^ 40, 0]

/-- The frame as it waits. -/
def boundaryFrame : Nat × (Nat × (Nat × List Byte)) := (0, (0, (0, boundaryDigest)))

/-- A manager whose member 1 may forward 256 records from SIDX 0 on. The next instant is that of second 100, and so is the pending boundary,
which deletes output group 114. -/
def twiceCounted : State :=
  { State.reset with
    regs := [(R.TOP_STRAPS, 0x400), (R.CAS_CTRL, 1), (R.SET_CTRL, 1), (R.SET_QUOTA_ALIGN, 1), (R.SET_QUOTA_ALIGN + 20, 1), (R.ALN_CTRL, 1)]
    cmd := { Cmd.reset with epochs := [(0, [(R.CAS_MCFG, 0x80000100)])] }
    ing := { Ing.reset with streams := { (Tbl.empty : Tbl Stream) with eff := [(0, dueEntry 3)] } }
    aln := { Aln.reset with next := some (100, 0), bound := some (100, 0) }
    outp := { OutSt.reset with groups := { OutSt.reset.groups with pend := [(114, none)] } }
    cas := { Cas.reset with rxq := [boundaryFrame] } }

/-- The digest is counted, and the boundary counts it again. -/
theorem twiceCounted_recv : ((twiceCounted.modCas fun c => { c with rxq := c.rxq.erase boundaryFrame }).digestFragment (casHdrOf boundaryDigest) 0 false
    (casWords (boundaryDigest.take (32 + 10 * be boundaryDigest 24 2)))).get F.CAS_CNT_RECV_COUNT = 2 := by
  decide +kernel

theorem twiceCounted_reason : twiceCounted.joinReason 0 boundaryDigest = 0 ∨ twiceCounted.joinReason 0 boundaryDigest = 5 :=
  State.joinReason_passes (by decide +kernel) (by decide +kernel) (by decide +kernel) (by decide +kernel)

theorem twiceCounted_rx : ∃ u : State, exec .cascadeDigestRx twiceCounted = .next u.drain ∧ u.get F.CAS_CNT_RECV_COUNT = 2 :=
  ⟨_, execCascadeDigestRx_joins (f := boundaryFrame) (by decide +kernel) (by decide +kernel) (by decide +kernel) (by decide +kernel) twiceCounted_reason
    (by decide +kernel) (by decide +kernel) (by decide +kernel), twiceCounted_recv⟩

end Sys2Proof.Machine
end

section
open Sys2Proof Sys2Proof.Machine

/-- Refutes O28: accepting a digest counts it twice in RECV where its record opens a boundary that changes an output group of number 114. -/
theorem not_digestsAreBuiltAndTakenInOrder : ¬ Obligations.DigestsAreBuiltAndTakenInOrder := by
  intro h
  obtain ⟨-, hrx, -⟩ := h
  obtain ⟨-, hframe⟩ := hrx twiceCounted
  obtain ⟨-, -, htaken⟩ := hframe boundaryFrame (by decide +kernel)
  obtain ⟨-, -, hjoin⟩ := htaken (by decide +kernel) (by decide +kernel)
  have hwell : (casOk boundaryDigest && (twiceCounted.joinReason 0 boundaryDigest == 0 || decide (4 ≤ twiceCounted.joinReason 0 boundaryDigest))) = true := by
    rcases twiceCounted_reason with hwhy | hwhy
    · rw [hwhy]
      decide +kernel
    · rw [hwhy]
      decide +kernel
  obtain ⟨-, hacc⟩ := hjoin hwell (by decide +kernel)
  obtain ⟨-, -, -, hwhole⟩ := hacc (.inl (by decide +kernel))
  obtain ⟨t, ht, -, -, hcount, -⟩ := hwhole _ (by decide +kernel) (by decide +kernel) (by decide +kernel) (by decide +kernel) (by decide +kernel) rfl
  obtain ⟨u, hu, hrecv⟩ := twiceCounted_rx
  obtain rfl : u.drain = t := Host.Outcome.next.inj (hu.symm.trans ht)
  have hone : u.drain.get F.CAS_CNT_RECV_COUNT = 1 := hcount.trans (by decide +kernel)
  rw [State.drain_get _ (by decide), hrecv] at hone
  exact absurd hone (by decide)

end

section
namespace Sys2Proof.Machine

variable {s : State} {r : Fn} {b : List Byte}

/-! ### Lists of checks (R535) -/

theorem firstFail_cons (c : Bool) (st : Nat) (l : List (Bool × Nat)) : firstFail ((c, st) :: l) = if c then some st else firstFail l := by
  cases c <;> rfl

/-- Checks that fail with the same status, before others. -/
theorem firstFail_append {l m : List (Bool × Nat)} {st : Nat} (h : ∀ x ∈ l, x.2 = st) :
    firstFail (l ++ m) = if l.any fun x => x.1 then some st else firstFail m := by
  induction l with
  | nil => rfl
  | cons x l ih =>
    obtain ⟨c, n⟩ := x
    obtain rfl : n = st := h _ List.mem_cons_self
    rw [List.cons_append, firstFail_cons, ih fun y hy => h y (List.mem_cons_of_mem _ hy), List.any_cons]
    cases c
    · rw [Bool.false_or]; rfl
    · rfl

/-! ### CADENCE_SET (R156) -/

/-- Stages 6 to 8 of CADENCE_SET. -/
def cadenceSetChecks (s : State) (b : List Byte) : List (Bool × Nat) :=
  [(decide (11 < le b 8 1), St.badParam), (!zeroAt b 9 7, St.badParam), (s.cmd.prep.isSome, St.busy)]

/-- A cadence written into the shadow. -/
def State.cadencePut (s : State) (c : Nat) : State := ({ s with aln := { s.aln with cadShadow := c, cadDirty := true } } : State).healAll 2 [0]

theorem cadenceSetBody_eq : cadenceSetBody b (s.popHead r) =
    checked (cadenceSetChecks s b) (s.popHead r) ⟨St.ok, [], (s.popHead r).cadencePut (le b 8 1)⟩ := by
  rw [cadenceSetBody, State.popHead_prep]
  rfl

theorem cadenceSetChecks_bad (h : 11 < le b 8 1 ∨ zeroAt b 9 7 = false) : firstFail (cadenceSetChecks s b) = some St.badParam := by
  have hall : ∀ x ∈ (cadenceSetChecks s b).take 2, x.2 = St.badParam := by simp [cadenceSetChecks]
  refine (firstFail_append (m := [(s.cmd.prep.isSome, St.busy)]) hall).trans (if_pos ?_)
  simpa [cadenceSetChecks] using h

theorem cadenceSetChecks_good (hc : le b 8 1 ≤ 11) (hz : zeroAt b 9 7 = true) :
    firstFail (cadenceSetChecks s b) = if s.cmd.prep.isSome then some St.busy else none := by
  simp [cadenceSetChecks, firstFail_cons, hz, Nat.not_lt.mpr hc, show firstFail [] = none from rfl]

theorem Starts.cadenceSet_fails (hs : Starts s r 0x20 16 false b) {st : Nat} (h : firstFail (cadenceSetChecks s b) = some st) :
    Fails (.cadenceSet r) s r b st [] :=
  hs.answers (mine := fun _ => true) rfl rfl (cadenceSetBody_eq.trans (checked_fail h))

theorem Starts.cadenceSet_sets (hs : Starts s r 0x20 16 false b) (h : firstFail (cadenceSetChecks s b) = none) :
    Answers (.cadenceSet r) s r b St.ok [] [.aln, .ecc] [] fun t => t.aln = { s.aln with cadShadow := le b 8 1, cadDirty := true } := by
  refine hs.answersWith (mine := fun _ => true) rfl rfl (cadenceSetBody_eq.trans (checked_pass h))
    (((Frame.refl _ _ _).put_aln (by simp) _).healAll (by simp) _ _) (by simp) fun t _ ha => ?_
  rw [ha, State.cadencePut, State.healAll_aln, State.popHead_aln]

/-! ### WAIT_POLICY (R148, R151, R153) -/

@[simp] theorem State.popHead_shadowRate (k : Nat) : (s.popHead r).shadowRate? k = s.shadowRate? k := by cases r <;> rfl

/-- The used entries among those that WAIT_POLICY names. -/
def State.usedIn (s : State) (first count : Nat) : List Nat :=
  ((List.range count).map fun i => first + i).filter fun x => (s.shadowRate? x).isSome

theorem State.mem_usedIn {first count x : Nat} : x ∈ s.usedIn first count ↔ (first ≤ x ∧ x < first + count) ∧ (s.shadowRate? x).isSome = true := by
  rw [State.usedIn, List.mem_filter, List.mem_map]
  refine and_congr_left fun _ => ⟨?_, fun ⟨h1, h2⟩ => ⟨x - first, List.mem_range.mpr (by omega), by omega⟩⟩
  rintro ⟨i, hi, rfl⟩
  rw [List.mem_range] at hi
  omega

theorem State.usedIn_nodup (s : State) (first count : Nat) : (s.usedIn first count).Nodup :=
  (List.nodup_range.map fun _ _ h => Nat.add_left_cancel h).filter _

/-- Does no used entry ask for a mean that its rate does not give. -/
def State.meanFits (s : State) (first count : Nat) : Bool :=
  !(s.usedIn first count).any fun x => (meanN (rateOf ((s.shadowRate? x).getD 0)) (rateOf s.aln.cadShadow)).isNone

theorem State.meanFits_iff {first count : Nat} : s.meanFits first count = true ↔
    ∀ x, x < count → ∀ rate, s.shadowRate? (first + x) = some rate → (meanN (rateOf rate) (rateOf s.aln.cadShadow)).isSome = true := by
  rw [State.meanFits, Bool.not_eq_true', List.any_eq_false]
  constructor
  · intro h x hx rate hr
    have hm := h (first + x) (State.mem_usedIn.mpr ⟨by omega, by rw [hr]; rfl⟩)
    rwa [hr, Option.getD_some, Bool.not_eq_true, Option.isNone_eq_false_iff] at hm
  · intro h y hy
    obtain ⟨⟨h1, h2⟩, hu⟩ := State.mem_usedIn.mp hy
    obtain ⟨rate, hr⟩ := Option.isSome_iff_exists.mp hu
    have hm := h (y - first) (by omega) rate (by rwa [Nat.add_sub_cancel' h1])
    rwa [hr, Option.getD_some, Bool.not_eq_true, Option.isNone_eq_false_iff]

/-- The stages of WAIT_POLICY that end with ST_BAD_PARAM. -/
def waitPolicyParams (s : State) (b : List Byte) : List (Bool × Nat) :=
  [(decide (8192 < le b 8 2 + le b 10 2), St.badParam), (le b 12 1 == 0 || decide (15 < le b 12 1), St.badParam),
    (decide (7 < le b 13 1) || (bit (le b 12 1) 1 && bit (le b 13 1) 1 && !s.meanFits (le b 8 2) (le b 10 2)), St.badParam),
    (!zeroAt b 14 2, St.badParam),
    (bit (le b 12 1) 0 && bit (le b 13 1) 0 &&
      (decide (le b 16 4 < s.get F.ALN_WAITMIN_US) || decide (s.get F.ALN_WAITMAX_US < le b 16 4)), St.badParam),
    (!zeroAt b 20 4, St.badParam)]

/-- WAIT_POLICY's operands are in range. -/
def WaitPolicyOk (s : State) (b : List Byte) : Prop :=
  le b 8 2 + le b 10 2 ≤ 8192 ∧ le b 12 1 ≠ 0 ∧ le b 12 1 ≤ 15 ∧ le b 13 1 ≤ 7 ∧ zeroAt b 14 2 = true ∧ zeroAt b 20 4 = true ∧
    (bit (le b 12 1) 1 = true → bit (le b 13 1) 1 = true → ∀ x, x < le b 10 2 → ∀ rate, s.shadowRate? (le b 8 2 + x) = some rate →
      (meanN (rateOf rate) (rateOf s.aln.cadShadow)).isSome = true) ∧
    (bit (le b 12 1) 0 = true → bit (le b 13 1) 0 = true → s.get F.ALN_WAITMIN_US ≤ le b 16 4 ∧ le b 16 4 ≤ s.get F.ALN_WAITMAX_US)

theorem waitPolicyParams_iff : ((waitPolicyParams s b).any fun x => x.1) = false ↔ WaitPolicyOk s b := by
  simp only [waitPolicyParams, WaitPolicyOk, ← State.meanFits_iff, List.any_cons, List.any_nil, Bool.or_eq_false_iff, Bool.and_eq_false_imp,
    Bool.and_eq_true, Bool.not_eq_false', decide_eq_false_iff_not, Nat.not_lt, beq_eq_false_iff_ne, and_imp]
  tauto

/-- All stages of WAIT_POLICY from 6 to 8. -/
def waitPolicyChecks (s : State) (b : List Byte) : List (Bool × Nat) :=
  (le b 10 2 == 0, St.badLength) :: (waitPolicyParams s b ++ [(s.cmd.prep.isSome, St.busy)])

theorem waitPolicyChecks_zero (h : le b 10 2 = 0) : firstFail (waitPolicyChecks s b) = some St.badLength := by
  rw [waitPolicyChecks, firstFail_cons, h]
  rfl

theorem waitPolicyChecks_range (h : le b 10 2 ≠ 0) : firstFail (waitPolicyChecks s b) =
    if (waitPolicyParams s b).any fun x => x.1 then some St.badParam else if s.cmd.prep.isSome then some St.busy else none := by
  rw [waitPolicyChecks, firstFail_cons, if_neg (by simpa using h), firstFail_append (st := St.badParam) (by simp [waitPolicyParams]), firstFail_cons]
  rfl

/-- The masked parts of the shadow policies of the entries given are written. -/
def State.policyPut (s : State) (mask flags wait : Nat) (ks : List Nat) : State :=
  ({ s with aln := { s.aln with policy := ks.foldl (fun t x =>
    t.put x (policyMask (mgetD t.shadow x Policy.default) mask flags wait)) s.aln.policy } } : State).healAll 1 ks

theorem waitPolicyBody_eq : waitPolicyBody b (s.popHead r) = checked (waitPolicyChecks s b) (s.popHead r)
    ⟨St.ok, [], (s.popHead r).policyPut (le b 12 1) (le b 13 1) (le b 16 4) (s.usedIn (le b 8 2) (le b 10 2))⟩ := by
  unfold waitPolicyBody
  simp only [State.popHead_shadowRate, State.popHead_get, State.popHead_prep, State.popHead_aln]
  simp only [waitPolicyChecks, waitPolicyParams, State.meanFits, Bool.not_not, State.policyPut, State.popHead_aln]
  rfl

/-- Items of the shadow changed, each once. -/
theorem Tbl.foldl_change {α : Type} (f : α → α) (d : α) {ks : List Nat} (hk : ks.Nodup) (t : Tbl α) :
    let u := ks.foldl (fun t k => t.put k (f (mgetD t.shadow k d))) t
    u.eff = t.eff ∧ ∀ j, mget u.shadow j = if j ∈ ks then some (f (mgetD t.shadow j d)) else mget t.shadow j := by
  induction ks generalizing t with
  | nil => exact ⟨rfl, fun _ => rfl⟩
  | cons k ks ih =>
    obtain ⟨hnot, hks⟩ := List.nodup_cons.mp hk
    obtain ⟨he, hget⟩ := ih hks (t.put k (f (mgetD t.shadow k d)))
    refine ⟨he, fun j => (hget j).trans ?_⟩
    by_cases hj : j = k
    · subst hj
      rw [if_neg hnot, if_pos List.mem_cons_self]
      exact mget_mput_self _ _ _
    · have hput : mget (t.put k (f (mgetD t.shadow k d))).shadow j = mget t.shadow j := mget_mput_ne _ _ hj
      have hputD : mgetD (t.put k (f (mgetD t.shadow k d))).shadow j d = mgetD t.shadow j d := mgetD_mput_ne _ _ _ hj
      simp only [List.mem_cons, hj, false_or, hput, hputD]

theorem Starts.waitPolicy_fails (hs : Starts s r 0x21 24 false b) {st : Nat} (h : firstFail (waitPolicyChecks s b) = some st) :
    Fails (.waitPolicy r) s r b st [] :=
  hs.answers (mine := fun _ => true) rfl rfl (waitPolicyBody_eq.trans (checked_fail h))

theorem Starts.waitPolicy_changes (hs : Starts s r 0x21 24 false b) (h : firstFail (waitPolicyChecks s b) = none) :
    Answers (.waitPolicy r) s r b St.ok [] [.aln, .ecc] [] fun t => s.aln.PolicyWritten t.aln ∧
      ∀ x, mget t.aln.policy.shadow x = if x ∈ s.usedIn (le b 8 2) (le b 10 2) then
        some (policyMask (mgetD s.aln.policy.shadow x Policy.default) (le b 12 1) (le b 13 1) (le b 16 4))
        else mget s.aln.policy.shadow x := by
  refine hs.answersWith (mine := fun _ => true) rfl rfl (waitPolicyBody_eq.trans (checked_pass h))
    (((Frame.refl _ _ _).put_aln (by simp) _).healAll (by simp) _ _) (by simp) fun t _ ha => ?_
  obtain ⟨he, hget⟩ := Tbl.foldl_change (fun p => policyMask p (le b 12 1) (le b 13 1) (le b 16 4)) Policy.default
    (s.usedIn_nodup (le b 8 2) (le b 10 2)) s.aln.policy
  rw [ha, State.policyPut, State.healAll_aln, State.popHead_aln]
  exact ⟨⟨rfl, he⟩, hget⟩

end Sys2Proof.Machine
end

section
open Sys2Proof Sys2Proof.Machine

/-- Settles O18: what each of the two commands checks, and what it writes into the shadow. -/
theorem cadenceAndWaitPolicyGoToTheShadow : Obligations.CadenceAndWaitPolicyGoToTheShadow := by
  refine ⟨fun s r b hs => ⟨fun hc hz hp => ?_, fun hbad => ?_, fun hc hz hp => ?_⟩, fun s r b hs => ?_⟩
  · exact hs.cadenceSet_sets (by rw [cadenceSetChecks_good hc hz, hp]; rfl)
  · exact hs.cadenceSet_fails (cadenceSetChecks_bad hbad)
  · exact hs.cadenceSet_fails (by rw [cadenceSetChecks_good hc hz, hp]; rfl)
  · intro first count mask flags ok
    have hiff : ((waitPolicyParams s b).any fun x => x.1) = false ↔ ok := waitPolicyParams_iff
    refine ⟨fun h0 => ?_, fun h0 hbad => ?_, fun h0 hok hp => ?_, fun h0 hok hp => ?_⟩
    · exact hs.waitPolicy_fails (waitPolicyChecks_zero h0)
    · exact hs.waitPolicy_fails ((waitPolicyChecks_range h0).trans (if_pos (eq_true_of_ne_false (mt hiff.mp hbad))))
    · exact hs.waitPolicy_fails (by rw [waitPolicyChecks_range h0, hiff.mpr hok, hp]; rfl)
    · obtain ⟨t, hx, ha, hc, ⟨⟨hw, he⟩, hget⟩, hf⟩ := hs.waitPolicy_changes (by rw [waitPolicyChecks_range h0, hiff.mpr hok, hp]; rfl)
      refine ⟨t, hx, ha, hc, ⟨hw, he, fun x => ⟨fun h1 h2 hu => ?_, fun hout => ?_⟩⟩, hf⟩
      · rw [hget x, if_pos (State.mem_usedIn.mpr ⟨⟨h1, h2⟩, hu⟩)]
      · rw [hget x, if_neg]
        intro hm
        obtain ⟨⟨h1, h2⟩, hu⟩ := State.mem_usedIn.mp hm
        rcases hout with h | h | h
        · exact absurd h (Nat.not_lt.mpr h1)
        · exact absurd h (Nat.not_le.mpr h2)
        · rw [h] at hu
          cases hu

end

section
namespace Sys2Proof.Machine

variable {s : State} {i : Nat × Nat}

/-! ### A boundary that opens an instant while a multicast filter is longer than its 64 entries (R154, R344)

As with O7 and O8, the registers behind the filter of port 4 are cleared when the filters follow: from entry 20237 on, those of the boundary,
which have been written just before. -/

/-- An instant that local time has reached by now, no more than WAIT_MAX ago, opens. -/
theorem State.instantOpen_now (hn : s.aln.next = some i) (hen : s.flag F.ALN_CTRL_EN = true) (ha : s.tim.anchor.isSome = true)
    (hr : s.tickAtTai (s.cadTai i) ≤ s.tim.now) (hw : s.taiNs - s.waitBounds.2 * 1000 ≤ s.cadTai i) (ht : s.cadTai i ≤ s.taiNs)
    (hl : s.aln.insts.length < 256) : exec .instantOpen s = s.openNext.done := by
  show execInstantOpen s = _
  have hreach : s.reach (s.tickAtTai (s.cadTai i)) = s := if_neg (Nat.not_lt.mpr hr)
  have hskip : s.skipLate = s := by
    simp only [State.skipLate, hn, if_neg (Nat.not_lt.mpr hw)]
  unfold execInstantOpen
  simp only [hn, hen, ha, hreach, hskip, Bool.and_self, if_true, if_neg (Nat.not_lt.mpr ht), if_pos hl]

/-- The instant 60 of second 100 at 120 reports/s is due; the boundary pending at the second comes into effect with it. The filter of port 4,
which has no link, is said to hold 20238 addresses. -/
def overlongOpening : State :=
  { State.reset with
    regs := [(R.ALN_CTRL, 1)]
    cmd := { Cmd.reset with epochs := [(0, [])] }
    tim := { Tim.reset with anchor := some (100500000000 * 2 ^ 40, 0) }
    aln := { Aln.reset with next := some (100, 60), bound := some (100, 0) }
    mac := { Mac.reset with mcf := [(4, List.replicate 20238 0)] } }

theorem overlongOpening_tag : overlongOpening.instTag (100, 60) = (100, 500000000) := by decide +kernel

/-- The filters of ports 0 to 3 have followed, and that of port 4 is still to. -/
structure BeforeClearing (y : State) : Prop where
  macs : y.mcMacs 4 = []
  link : y.portLink 4 = false
  long : (mgetD y.mac.mcf 4 []).length = 20238
  bound : y.aln.bound = none
  next : y.aln.next = some (100, 60)

theorem overlongOpening_enters : ∃ x : State,
    overlongOpening.enterEpoch (100, 0) (100, 500000000) = (x.mcSync.cfgSummed).ev0 Ev.ALN_EPOCH ∧ x.fwRuns = true ∧
      BeforeClearing x.mcBefore4 :=
  ⟨_, rfl, by decide +kernel, by decide +kernel, by decide +kernel, by decide +kernel, by decide +kernel, by decide +kernel⟩

/-- The boundary has taken effect, and ALN_BOUND does not show its instant. -/
theorem overlongOpening_entered : let t := overlongOpening.enterEpoch (100, 0) (100, 500000000)
    t.rd R.ALN_BOUND_LO = 0 ∧ t.aln.bound = none ∧ t.aln.next = some (100, 60) := by
  obtain ⟨x, he, hrun, hy⟩ := overlongOpening_enters
  intro t
  obtain ⟨hz, hm⟩ := State.mcNil_unlinked_clears (by decide) hy.link
  have hs : x.mcSync = (x.mcBefore4.mcFilter 4 []).mcChange 4 := by rw [State.mcSync_last hrun, hy.macs]
  rw [← hs] at hz hm
  have hf : Frame [] (regsIn [R.TWN_CFGSUM_LO, R.TWN_CFGSUM_HI]) x.mcSync t := by
    show Frame _ _ _ (overlongOpening.enterEpoch _ _)
    rw [he]
    exact x.mcSync.cfgSummed_frame.ev0 _
  have ha : t.aln = x.mcBefore4.aln := (hf.parts .aln (by simp)).trans (hm.parts .aln (by simp))
  refine ⟨?_, ?_, ?_⟩
  · exact (hf.regs R.ALN_BOUND_LO (by decide) (by decide)).trans (hz 20237 (by rw [hy.long]; decide))
  · rw [ha, hy.bound]
  · rw [ha, hy.next]

theorem overlongOpening_opens : exec .instantOpen overlongOpening = .next overlongOpening.openNext.drain :=
  State.instantOpen_now (i := (100, 60)) rfl (by decide +kernel) rfl (by decide +kernel) (by decide +kernel) (by decide +kernel) (by decide)

theorem overlongOpening_cleared : overlongOpening.openNext.drain.rd R.ALN_BOUND_LO = 0 := by
  obtain ⟨hz, hb, hn⟩ := overlongOpening_entered
  have hx : overlongOpening.openNext = (overlongOpening.enterEpoch (100, 0) (100, 500000000)).openNext := by
    have h := State.openNext_crosses (s := overlongOpening) (i := (100, 60)) (b := (100, 0)) rfl rfl
    rw [overlongOpening_tag] at h
    exact h (by decide) hn hb
  rw [State.drain_rd _ (by decide), hx]
  exact ((State.openNext_frame hb).regs _ (by decide) (by decide)).trans hz

end Sys2Proof.Machine
end

section
open Sys2Proof Sys2Proof.Machine

/-- Refutes O15: where a boundary takes effect with an instant, ALN_BOUND does not show the instant in a state whose list of port 4's multicast
filter is longer than the filter. -/
theorem not_instantsOpenInLatticeOrder : ¬ Obligations.InstantsOpenInLatticeOrder := by
  intro h
  have hreach : overlongOpening = overlongOpening.reach (overlongOpening.tickAtTai (overlongOpening.cadTai (100, 60))) :=
    (if_neg (by decide +kernel)).symm
  obtain ⟨-, hbound, -⟩ := h overlongOpening overlongOpening (100, 60) rfl (by decide +kernel) rfl hreach (by decide +kernel) (by decide +kernel)
  obtain ⟨t, ht, -, -, -, -, -, hlo, -⟩ := hbound (100, 0) rfl (by decide +kernel) (by decide)
  obtain rfl : overlongOpening.openNext.drain = t := Host.Outcome.next.inj (overlongOpening_opens.symm.trans ht)
  rw [overlongOpening_cleared, overlongOpening_tag] at hlo
  exact absurd hlo (by decide)

end

section
namespace Sys2Proof.Machine

/-! ### The last step of a commit while a boundary pends already (R154, R156, R417)

No command brings this about, as COMMIT_EPOCH is turned away while a boundary pends. The step makes the cadence of the shadow pending before it
chooses its boundary, and with a boundary pending that cadence already counts from the boundary on. -/

/-- A commit of PF0's ring that has copied all its items, with what is left of it to do. -/
def lastCopied : Fly := Fly.mk .pf0 [0x03, 0, 4, 0, 0, 0, 0, 0, 0, 0, 0, 0, 0, 0, 0, 0] 1 false false [512] none

/-- Local time is second 100, the cadence 120 reports/s. A boundary pends at second 50, and the shadow has a cadence of 10 reports/s. -/
def boundTwice : State :=
  { State.reset with
    regs := [(R.ALN_CTRL, 1), (R.ALN_EPOCH_LEAD, 5000), (R.CMD_CTRL, 1), (R.RPL_SIZE, 16)]
    cmd := { Cmd.reset with prep := some ([], []), fly := [lastCopied], todo := [0], turn := .pf0 }
    tim := { Tim.reset with anchor := some (100000000000 * 2 ^ 40, 0) }
    aln := { Aln.reset with bound := some (50, 0), cadShadow := 0, cadDirty := true } }

theorem boundTwice_due : boundTwice.due .pf0 = some lastCopied := by decide +kernel

/-- The first instant of 120 reports/s that is 5 ms away. -/
theorem boundTwice_boundary : boundTwice.boundary = (100, 8333333) := by decide +kernel

/-- The commit takes the first instant of 10 reports/s that is 5 ms away. -/
theorem boundTwice_bound : ((boundTwice.passNow .pf0).stepFly .pf0 lastCopied (.data [])).drain.aln.bound = some (100, 100000000) := by
  rw [State.drain_aln]
  decide +kernel

end Sys2Proof.Machine
end

section
open Sys2Proof Sys2Proof.Machine

/-- Refutes O45: the boundary that the last step of a commit chooses is not the one of R154 as the state before shows it, where a boundary pends
already and the shadow has another cadence. -/
theorem not_commitEpochPreparesThePendingCopy : ¬ Obligations.CommitEpochPreparesThePendingCopy := by
  intro h
  obtain ⟨-, -, hstep⟩ := h
  obtain ⟨-, -, hlast⟩ := hstep boundTwice .pf0 lastCopied (.data []) boundTwice_due nofun rfl (by decide) 512 [] [] rfl rfl
  obtain ⟨t, ht, ⟨-, ⟨hbound, -⟩, -⟩, -⟩ := hlast (by decide +kernel) (by decide)
  obtain rfl := Host.Outcome.next.inj ((State.commandStep_due (.data []) boundTwice_due).symm.trans ht)
  rw [boundTwice_bound, boundTwice_boundary] at hbound
  exact absurd hbound (by decide)

end

section
namespace Sys2Proof.Machine

variable {ps : List Part} {rs : Nat → Bool} {s t : State}

/-! ### Instants that become READY (R141, R142, R152) -/

/-- The tag of an instant. -/
def Inst.tag (i : Inst) : Nat × Nat := (i.soc, i.ns)

/-- The streams of an instant whose window did not fill: their centre records count as arrived when it closes (R152). -/
def Inst.unfilled (i : Inst) : List Nat := ((i.win.filter fun r => r.j == 0).map fun r => r.sidx).filter fun x => !(i.arrived.contains x)

/-- An instant as it is once closed at tick `now`: one that was READY already stays. -/
def Inst.shut (c : Cause) (now : Nat) (i : Inst) : Inst :=
  if i.cause.isSome then i else { i with cause := some c, readyAt := now, arrived := i.arrived ++ i.unfilled, win := [] }

variable {c : Cause} {now : Nat} {i : Inst}

theorem Inst.shut_ready (h : i.cause.isSome = true) : i.shut c now = i := if_pos h

theorem Inst.shut_cause (h : i.cause = none) : (i.shut c now).cause = some c := by
  rw [Inst.shut, if_neg (by simp [h])]

/-- What closing leaves of an instant. -/
theorem Inst.shut_keeps (c : Cause) (now : Nat) (i : Inst) : (i.shut c now).tag = i.tag ∧ (i.shut c now).recs = i.recs ∧
    (i.shut c now).expected = i.expected := by
  unfold Inst.shut
  split <;> exact ⟨rfl, rfl, rfl⟩

theorem Inst.shut_shut : (i.shut c now).shut c now = i.shut c now := by
  by_cases h : i.cause.isSome
  · rw [Inst.shut_ready h, Inst.shut_ready h]
  · exact Inst.shut_ready (by rw [Inst.shut_cause (by simpa using h)]; rfl)

theorem Inst.tag_beq (i : Inst) (g : Nat × Nat) : (i.soc == g.1 && i.ns == g.2) = decide (i.tag = g) := by
  obtain ⟨a, b⟩ := g
  rw [Inst.tag, Bool.eq_iff_iff]
  simp

theorem State.inst_eq (s : State) (g : Nat × Nat) : s.inst? g = s.aln.insts.find? fun i => decide (i.tag = g) := by
  simp only [State.inst?, Inst.tag_beq]

theorem State.modInst_insts (s : State) (g : Nat × Nat) (f : Inst → Inst) :
    (s.modInst g f).aln.insts = s.aln.insts.map fun i => if i.tag = g then f i else i := by
  simp only [State.modInst, Inst.tag_beq, decide_eq_true_eq]

theorem State.closeWindows_frame (s : State) (i : Inst) : Frame [.ing] noRegs s (s.closeWindows i).1 :=
  Frame.foldl _ _ (.refl _ _ s) fun _ _ h => h.modStat (by simp) _ _

/-- With no two instants of the same tag, the one named is closed and the others stay. -/
theorem State.ready_insts (hn : (s.aln.insts.map Inst.tag).Nodup) (g : Nat × Nat) (c : Cause) :
    (s.ready g c).aln.insts = s.aln.insts.map fun i => if i.tag = g then i.shut c s.now else i := by
  have hone (x : Inst) (hx : s.inst? g = some x) : ∀ i ∈ s.aln.insts, i.tag = g → i = x := by
    rw [State.inst_eq] at hx
    have hg : x.tag = g := by simpa using List.find?_some hx
    exact fun i hi h => List.inj_on_of_nodup_map hn hi (List.mem_of_find?_eq_some hx) (h.trans hg.symm)
  have hsame (h : ∀ i ∈ s.aln.insts, i.tag = g → i.shut c s.now = i) :
      s.aln.insts = s.aln.insts.map fun i => if i.tag = g then i.shut c s.now else i := by
    refine ((List.map_congr_left fun i hi => ?_).trans (List.map_id _)).symm
    split
    · exact h i hi ‹_›
    · rfl
  unfold State.ready
  split
  · rename_i hx
    rw [State.inst_eq, List.find?_eq_none] at hx
    exact hsame fun i hi h => absurd h (by simpa using hx i hi)
  · rename_i x hx
    split
    · rename_i hr
      exact hsame fun i hi h => by rw [hone x hx i hi h, Inst.shut_ready hr]
    · rename_i hr
      have ha : (s.closeWindows x).1.aln = s.aln := (s.closeWindows_frame x).parts .aln (by simp)
      rw [State.modInst_insts, ha]
      refine List.map_congr_left fun i hi => ?_
      split
      · rename_i h
        rw [hone x hx i hi h, Inst.shut, if_neg hr]
        rfl
      · rfl

theorem Frame.ready (h : Frame ps rs s t) (ha : Part.aln ∈ ps) (hi : Part.ing ∈ ps) (g : Nat × Nat) (c : Cause) :
    Frame ps rs s (t.ready g c) := by
  unfold State.ready
  split
  · exact h
  · rename_i x _
    exact Frame.ite h ((h.trans ((t.closeWindows_frame x).mono (by simpa using hi) fun _ _ => rfl)).modInst ha _ _)

/-- The instants of a list closed one after the other. -/
def State.readyAll (s : State) (c : Cause) (l : List Inst) : State := l.foldl (fun s i => s.ready (i.soc, i.ns) c) s

theorem Frame.readyAll (h : Frame ps rs s t) (ha : Part.aln ∈ ps) (hi : Part.ing ∈ ps) (c : Cause) (l : List Inst) :
    Frame ps rs s (t.readyAll c l) :=
  Frame.foldl _ _ h fun _ _ k => k.ready ha hi _ _

theorem State.readyAll_insts (hn : (s.aln.insts.map Inst.tag).Nodup) (c : Cause) (l : List Inst) :
    (s.readyAll c l).aln.insts = s.aln.insts.map fun i => if i.tag ∈ l.map Inst.tag then i.shut c s.now else i := by
  induction l generalizing s with
  | nil => simp [State.readyAll]
  | cons x l ih =>
    have hx := State.ready_insts hn x.tag c
    have ht : (s.ready x.tag c).tim = s.tim := ((Frame.refl [.aln, .ing] noRegs s).ready (by simp) (by simp) x.tag c).parts .tim (by simp)
    have htag (i : Inst) : (if i.tag = x.tag then i.shut c s.now else i).tag = i.tag := by
      split
      · exact (Inst.shut_keeps c s.now i).1
      · rfl
    have hn' : ((s.ready x.tag c).aln.insts.map Inst.tag).Nodup := by
      rw [hx, List.map_map]
      exact (List.map_congr_left fun i _ => htag i) ▸ hn
    show ((s.ready x.tag c).readyAll c l).aln.insts = _
    rw [ih hn', hx, List.map_map, State.now, ht]
    refine List.map_congr_left fun i _ => ?_
    simp only [Function.comp_apply, htag, List.map_cons, List.mem_cons]
    by_cases h1 : i.tag = x.tag <;> by_cases h2 : i.tag ∈ l.map Inst.tag
    · simp only [h1, true_or, if_true]
      rw [if_pos (h1 ▸ h2)]
      exact Inst.shut_shut
    · simp only [h1, true_or, if_true]
      rw [if_neg (h1 ▸ h2)]
    · simp only [h1, h2, or_true, if_true, if_false]
      rfl
    · simp only [h1, h2, or_self, if_false]

/-! ### INSTANT_DEADLINE (R141) -/

/-- The open instants whose deadline has come. -/
def State.dueInsts (s : State) : List Inst := s.aln.insts.filter fun i => i.cause.isNone && decide (i.deadline ≤ s.now)

theorem State.mem_dueInsts {i : Inst} : i ∈ s.dueInsts ↔ i ∈ s.aln.insts ∧ i.cause = none ∧ i.deadline ≤ s.now := by
  simp [State.dueInsts]

/-- What becomes of an instant when those whose deadline has come are closed. -/
structure Inst.Lapsed (now : Nat) (i y : Inst) : Prop where
  soc : y.soc = i.soc
  ns : y.ns = i.ns
  recs : y.recs = i.recs
  expected : y.expected = i.expected
  ready : i.cause.isSome = true → y = i
  due : i.cause = none → i.deadline ≤ now → y.cause = some .deadline
  later : i.cause = none → now < i.deadline → y = i

theorem State.dueInsts_lapse (hn : (s.aln.insts.map Inst.tag).Nodup) {i : Inst} (hi : i ∈ s.aln.insts) :
    i.Lapsed s.now (if i.tag ∈ s.dueInsts.map Inst.tag then i.shut .deadline s.now else i) := by
  by_cases hd : i ∈ s.dueInsts
  · obtain ⟨-, hc, hle⟩ := State.mem_dueInsts.mp hd
    obtain ⟨htag, hrecs, hexp⟩ := Inst.shut_keeps .deadline s.now i
    rw [if_pos (List.mem_map_of_mem hd)]
    exact ⟨congrArg Prod.fst htag, congrArg Prod.snd htag, hrecs, hexp, Inst.shut_ready, fun _ _ => Inst.shut_cause hc,
      fun _ h => absurd hle (Nat.not_le.mpr h)⟩
  · have hnot : i.tag ∉ s.dueInsts.map Inst.tag := fun h => by
      obtain ⟨j, hj, htag⟩ := List.mem_map.mp h
      exact hd (List.inj_on_of_nodup_map hn (State.mem_dueInsts.mp hj).1 hi htag ▸ hj)
    rw [if_neg hnot]
    exact ⟨rfl, rfl, rfl, rfl, fun _ => rfl, fun hc h => absurd (State.mem_dueInsts.mpr ⟨hi, hc, h⟩) hd, fun _ _ => rfl⟩

theorem instantDeadline_closes {x : Inst} (hx : (s.aln.insts.find? fun i => i.cause.isNone) = some x)
    (hn : (s.aln.insts.map Inst.tag).Nodup) :
    Does .instantDeadline s [.tim, .aln, .ing] noRegs fun t => t.tim.now = max s.tim.now x.deadline ∧
      t.aln.insts.length = s.aln.insts.length ∧ ∀ i ∈ s.aln.insts, ∃ y ∈ t.aln.insts, i.Lapsed t.tim.now y := by
  have hr : (s.reach x.deadline).aln = s.aln := (s.reach_frame x.deadline).parts .aln (by simp)
  have hf : Frame [.tim, .aln, .ing] noRegs s ((s.reach x.deadline).readyAll .deadline (s.reach x.deadline).dueInsts) :=
    ((Frame.refl _ _ s).reach (by simp) _).readyAll (by simp) (by simp) _ _
  have ht : ((s.reach x.deadline).readyAll .deadline (s.reach x.deadline).dueInsts).tim = (s.reach x.deadline).tim :=
    ((Frame.refl [.aln, .ing] noRegs _).readyAll (by simp) (by simp) _ _).parts .tim (by simp)
  have hn' : ((s.reach x.deadline).aln.insts.map Inst.tag).Nodup := by rwa [hr]
  have hinsts := State.readyAll_insts hn' .deadline (s.reach x.deadline).dueInsts
  refine ⟨((s.reach x.deadline).readyAll .deadline (s.reach x.deadline).dueInsts).drain, ?_, ⟨?_, ?_, fun i hi => ?_⟩, hf.drain⟩
  · show execInstantDeadline s = _
    rw [execInstantDeadline, hx]
    rfl
  · rw [State.drain_tim, ht, State.reach_tim]
  · rw [State.drain_aln, hinsts, List.length_map, hr]
  · rw [State.drain_aln, State.drain_tim, ht, hinsts]
    exact ⟨_, List.mem_map_of_mem (hr ▸ hi), State.dueInsts_lapse hn' (hr ▸ hi)⟩

end Sys2Proof.Machine
end

section
namespace Sys2Proof.Machine

variable {ps : List Part} {rs : Nat → Bool} {s t u : State} {g : Nat × Nat}

/-! ### Placeholders and header of a set (R140, R145) -/

/-- Between s and u instants in flight may have been changed, of those of tag g not the cause. -/
structure Stored (g : Nat × Nat) (s u : State) : Prop where
  frame : Frame [.aln] noRegs s u
  aln : u.aln = { s.aln with insts := u.aln.insts }
  cause : ∀ x, s.inst? g = some x → ∃ y, u.inst? g = some y ∧ y.cause = x.cause

theorem Stored.refl : Stored g s s := ⟨.refl _ _ s, rfl, fun x hx => ⟨x, hx, rfl⟩⟩

theorem Stored.trans (h : Stored g s t) (k : Stored g t u) : Stored g s u := by
  refine ⟨h.frame.trans k.frame, ?_, fun x hx => ?_⟩
  · rw [k.aln, h.aln]
  · obtain ⟨y, hy, hc⟩ := h.cause x hx
    obtain ⟨z, hz, hd⟩ := k.cause y hy
    exact ⟨z, hz, hd.trans hc⟩

/-- What logging changes is no instant in flight. -/
theorem Stored.quiet (h : Frame [] noRegs s u) : Stored g s u := by
  have ha : u.aln = s.aln := h.parts .aln (by simp)
  refine ⟨h.mono (by simp) fun _ _ => rfl, by rw [ha], fun x hx => ⟨x, ?_, rfl⟩⟩
  rwa [State.inst?, ha, ← State.inst?]

theorem Stored.foldl {α : Type} (f : State → α → State) (l : List α) (hf : ∀ u a, Stored g u (f u a)) : Stored g s (l.foldl f s) := by
  induction l generalizing s with
  | nil => exact .refl
  | cons a l ih => exact (hf s a).trans ih

/-- A change of the instants of the tag that keeps tag and cause. -/
theorem Stored.modInst (f : Inst → Inst) (hf : ∀ i, (f i).tag = i.tag ∧ (f i).cause = i.cause) : Stored g s (s.modInst g f) := by
  refine ⟨(Frame.refl _ _ s).modInst (by simp) _ _, rfl, fun x hx => ⟨f x, ?_, (hf x).2⟩⟩
  have htag (i : Inst) : (if i.tag = g then f i else i).tag = i.tag := by
    split
    · exact (hf i).1
    · rfl
  rw [State.inst_eq] at hx ⊢
  have hg : x.tag = g := by simpa using List.find?_some hx
  rw [State.modInst_insts, List.find?_map]
  simp only [Function.comp_def, htag, hx, Option.map_some, if_pos hg]

theorem Stored.instAdd (s : State) (k : Nat) (ws : List SWord) : Stored g s (s.instAdd g k ws) := by
  have hpage : Frame [] noRegs s (s.instPage g ws.length).2 := by
    unfold State.instPage
    split
    · split
      · exact .refl _ _ s
      · exact (Frame.refl _ _ s).alloc (by decide) _ _
    · exact (Frame.refl _ _ s).alloc (by decide) _ _
  unfold State.instAdd
  dsimp only
  split
  · exact .quiet hpage
  · refine (Stored.quiet hpage).trans ?_
    unfold State.instStore
    split
    · exact .refl
    · exact (Stored.quiet ((Frame.refl _ _ _).modPage _ _)).trans (.modInst _ fun i => ⟨rfl, rfl⟩)

/-- Placeholders and header go into pages of the instant. -/
theorem Stored.closeSet (s : State) (i : Inst) : Stored i.tag s (s.closeSet i) :=
  (Stored.foldl _ _ fun u k => .instAdd u k _).trans (.instAdd _ _ _)

theorem Stored.endOn (s : State) (parts : List Ref) : Stored g s (s.endOn parts) := by
  unfold State.endOn
  split
  · exact .refl
  · exact .quiet ((Frame.refl _ _ s).modPage _ _)

/-! ### What a release counts (R138, R143) -/

/-- The counter of the cause of a released set. -/
def State.causeCount (s : State) (c : Option Cause) : State :=
  match c with
  | some .deadline => s.inc F.ALN_CNT_DL_COUNT
  | some .forced => s.inc F.ALN_CNT_FORCED_COUNT
  | _ => s

/-- The longest interval of a release. -/
def State.relLongest (s : State) (i : Inst) : State :=
  let c := min ((s.now - max i.readyAt s.aln.relTick) * 5 / 4) 65535
  if s.get F.ALN_RELMAX_CLK < c then s.set F.ALN_RELMAX_CLK c else s

/-- The tag up to which no instant is in flight, with those in flight given. -/
def State.closedTag (s : State) (rest : List Inst) : Option (Nat × Nat) :=
  match rest with
  | n :: _ => n.pred
  | [] => s.aln.last

/-- The closed horizon goes to a tag, if there is one. -/
def State.horizTo (s : State) (h : Option (Nat × Nat)) : State :=
  match h with
  | some t => s.setHoriz t
  | none => s

theorem State.relLongest_frame (s : State) (i : Inst) : Frame [] (regsIn [R.ALN_RELMAX]) s (s.relLongest i) :=
  Frame.ite ((Frame.refl _ _ s).set _ _ (by decide)) (.refl _ _ s)

theorem State.horizTo_frame (s : State) (h : Option (Nat × Nat)) : Frame [] (regsIn [R.ALN_HORIZ_LO, R.ALN_HORIZ_HI]) s (s.horizTo h) := by
  cases h with
  | none => exact .refl _ _ s
  | some t => exact ((Frame.refl _ _ s).wr _ _ (by decide)).wr _ _ (by decide)

theorem State.relCount_eq (s : State) (i : Inst) (rest : List Inst) : s.relCount i rest =
    let u := ((s.inc64 R.ALN_SETS_LO R.ALN_SETS_HI).causeCount i.cause).relLongest i
    u.horizTo (u.closedTag rest) := rfl

/-- The registers of a release's counters. -/
def countRegs : List Nat :=
  [R.ALN_SETS_LO, R.ALN_SETS_HI, R.ALN_CNT_DL, R.ALN_CNT_FORCED, R.ALN_HORIZ_LO, R.ALN_HORIZ_HI]

/-- What a release with cause c counts, and the horizon after it. -/
structure Counted (c : Cause) (h : Option (Nat × Nat)) (s u : State) : Prop where
  sets : u.get64 R.ALN_SETS_LO R.ALN_SETS_HI = (s.get64 R.ALN_SETS_LO R.ALN_SETS_HI + 1) % 2 ^ 64
  late : u.get F.ALN_CNT_DL_COUNT = (s.get F.ALN_CNT_DL_COUNT + b2n (decide (c = .deadline))) % 2 ^ 32
  forced : u.get F.ALN_CNT_FORCED_COUNT = (s.get F.ALN_CNT_FORCED_COUNT + b2n (decide (c = .forced))) % 2 ^ 32
  horiz : ∀ x, h = some x → u.rd R.ALN_HORIZ_LO = BitVec.ofNat 32 x.2 ∧ u.rd R.ALN_HORIZ_HI = BitVec.ofNat 32 x.1

/-- The counters depend on their own registers alone. -/
theorem Counted.congr {c : Cause} {h : Option (Nat × Nat)} {v : State} (k : Counted c h s u) (hs : ∀ a ∈ countRegs, s.rd a = v.rd a)
    (hu : ∀ a ∈ countRegs, t.rd a = u.rd a) : Counted c h v t := by
  obtain ⟨k1, k2, k3, k4⟩ := k
  have e (a : Nat) (ha : a ∈ countRegs) : s.rd a = v.rd a ∧ t.rd a = u.rd a := ⟨hs a ha, hu a ha⟩
  refine ⟨?_, ?_, ?_, fun x hx => ?_⟩
  · simpa only [State.get64, e R.ALN_SETS_LO (by decide), e R.ALN_SETS_HI (by decide)] using k1
  · simpa only [State.get, e F.ALN_CNT_DL_COUNT.addr (by decide)] using k2
  · simpa only [State.get, e F.ALN_CNT_FORCED_COUNT.addr (by decide)] using k3
  · rw [(e _ (by decide)).2, (e _ (by decide)).2]
    exact k4 x hx

theorem State.causeCount_frame (s : State) (c : Option Cause) : Frame [] (regsIn [R.ALN_CNT_DL, R.ALN_CNT_FORCED]) s (s.causeCount c) := by
  unfold State.causeCount
  split
  · exact (Frame.refl _ _ s).inc _ (by decide)
  · exact (Frame.refl _ _ s).inc _ (by decide)
  · exact .refl _ _ s

theorem State.causeCount_late (s : State) (c : Cause) :
    (s.causeCount (some c)).get F.ALN_CNT_DL_COUNT = (s.get F.ALN_CNT_DL_COUNT + b2n (decide (c = .deadline))) % 2 ^ 32 := by
  have hlt : s.get F.ALN_CNT_DL_COUNT < 2 ^ 32 := s.get_lt
  cases c
  · exact (Nat.mod_eq_of_lt hlt).symm
  · exact s.get_inc_self ⟨by decide, by decide⟩
  · exact (State.get_set_ne _ _ (by decide)).trans (Nat.mod_eq_of_lt hlt).symm

theorem State.causeCount_forced (s : State) (c : Cause) :
    (s.causeCount (some c)).get F.ALN_CNT_FORCED_COUNT = (s.get F.ALN_CNT_FORCED_COUNT + b2n (decide (c = .forced))) % 2 ^ 32 := by
  have hlt : s.get F.ALN_CNT_FORCED_COUNT < 2 ^ 32 := s.get_lt
  cases c
  · exact (Nat.mod_eq_of_lt hlt).symm
  · exact (State.get_set_ne _ _ (by decide)).trans (Nat.mod_eq_of_lt hlt).symm
  · exact s.get_inc_self ⟨by decide, by decide⟩

theorem State.horizTo_rd (s : State) (x : Nat × Nat) : (s.horizTo (some x)).rd R.ALN_HORIZ_LO = BitVec.ofNat 32 x.2 ∧
    (s.horizTo (some x)).rd R.ALN_HORIZ_HI = BitVec.ofNat 32 x.1 :=
  ⟨(State.rd_wr_ne _ _ (by decide)).trans (State.rd_wr_self _ _ _), State.rd_wr_self _ _ _⟩

theorem State.inc64_frame (s : State) (lo hi : Nat) : Frame [] (regsIn [lo, hi]) s (s.inc64 lo hi) :=
  ((Frame.refl _ _ s).wr _ _ (by simp [regsIn])).wr _ _ (by simp [regsIn])

theorem State.relCount_frame (s : State) (i : Inst) (rest : List Inst) :
    Frame [] (regsIn (R.ALN_RELMAX :: countRegs)) s (s.relCount i rest) := by
  have sub (l : List Nat) (hl : ∀ a ∈ l, a ∈ R.ALN_RELMAX :: countRegs) (a : Nat) (ha : regsIn (R.ALN_RELMAX :: countRegs) a = false) :
      regsIn l a = false := by
    simp only [regsIn, List.contains_eq_mem, decide_eq_false_iff_not] at ha ⊢
    exact mt (hl a) ha
  rw [State.relCount_eq]
  exact ((((s.inc64_frame _ _).mono (fun _ h => h) (sub _ (by decide))).trans ((State.causeCount_frame _ _).mono (fun _ h => h) (sub _ (by decide)))).trans
    ((State.relLongest_frame _ _).mono (fun _ h => h) (sub _ (by decide)))).trans
    ((State.horizTo_frame _ _).mono (fun _ h => h) (sub _ (by decide)))

theorem State.relCount_counted {i : Inst} {c : Cause} (hc : i.cause = some c) (s : State) (rest : List Inst) :
    Counted c (s.closedTag rest) s (s.relCount i rest) := by
  have hsets := s.inc64_frame R.ALN_SETS_LO R.ALN_SETS_HI
  have hcause := State.causeCount_frame (s.inc64 R.ALN_SETS_LO R.ALN_SETS_HI) (some c)
  have hlong := State.relLongest_frame ((s.inc64 R.ALN_SETS_LO R.ALN_SETS_HI).causeCount (some c)) i
  have ha := (hlong.parts .aln (by simp)).trans (hcause.parts .aln (by simp))
  rw [State.relCount_eq, hc]
  dsimp only
  generalize hv : ((s.inc64 R.ALN_SETS_LO R.ALN_SETS_HI).causeCount (some c)).relLongest i = v at hlong ha ⊢
  have hlast : v.closedTag rest = s.closedTag rest := by
    unfold State.closedTag
    split
    · rfl
    · exact congrArg Aln.last ha
  have hhoriz := State.horizTo_frame v (v.closedTag rest)
  refine ⟨?_, ?_, ?_, fun x hx => ?_⟩
  · rw [State.get64_congr (hhoriz.regs _ (by decide) (by decide)) (hhoriz.regs _ (by decide) (by decide)),
      State.get64_congr (hlong.regs _ (by decide) (by decide)) (hlong.regs _ (by decide) (by decide)),
      State.get64_congr (hcause.regs _ (by decide) (by decide)) (hcause.regs _ (by decide) (by decide))]
    exact State.get64_inc64 (by decide) s
  · rw [hhoriz.get (by decide) (by decide), hlong.get (by decide) (by decide), State.causeCount_late,
      hsets.get (by decide) (by decide)]
  · rw [hhoriz.get (by decide) (by decide), hlong.get (by decide) (by decide), State.causeCount_forced,
      hsets.get (by decide) (by decide)]
  · rw [hlast, hx]
    exact v.horizTo_rd x

end Sys2Proof.Machine
end

section
namespace Sys2Proof.Machine

variable {ps : List Part} {rs : Nat → Bool} {s t u : State}

/-! ### Output frames of a set (R233, R235 to R240, R390) -/

/-- What sending a set's output frames may change is left open: output groups and ports, the ports' counters of refused frames, and the
registers of the output block and those behind it. -/
structure OutOpen (ps : List Part) (rs : Nat → Bool) : Prop where
  outp : Part.outp ∈ ps
  mac : Part.mac ∈ ps
  refused : ∀ p, rs (macCnt p 15).addr = true
  seq : rs R.MAC_PRP_SEQ = true
  own : ∀ a, R.OUT_CTRL ≤ a → rs a = true

section out
variable (ho : OutOpen ps rs)
include ho

theorem OutOpen.reg {a : Nat} (h : R.OUT_CTRL ≤ a) : (rs a || logReg a) = true := by rw [ho.own a h, Bool.true_or]

/-- A register of a group or a destination. -/
theorem OutOpen.ogf {f : Fld} (h : R.OUT_CTRL ≤ f.addr) (d : Nat) : (rs (Machine.ogf f d).addr || logReg (Machine.ogf f d).addr) = true :=
  ho.reg (Nat.le_trans h (Nat.le_add_right _ _))

theorem Frame.outSync (h : Frame ps rs s t) : Frame ps rs s t.outSync := by
  unfold State.outSync
  refine Frame.set (Frame.set (Frame.foldl _ _ (Frame.foldl _ _ h fun v d k => ?_) fun v d k => ?_) _ _ (ho.reg (by decide))) _ _
    (ho.reg (by decide))
  · exact (k.set _ _ (ho.ogf (by decide) d)).set _ _ (ho.ogf (by decide) d)
  · exact ((k.setB _ _ (ho.ogf (by decide) d)).setB _ _ (ho.ogf (by decide) d)).setB _ _ (ho.ogf (by decide) d)

theorem Frame.outSuspend (h : Frame ps rs s t) (tag d : Nat) : Frame ps rs s (t.outSuspend tag d) := by
  unfold State.outSuspend
  split
  · exact (h.put_outp ho.outp _).ev0 _
  · exact ((h.setB _ _ (ho.ogf (by decide) d)).ev0 _).outSync ho

variable {r : OutRun}

theorem Frame.outSeq (h : Frame ps rs s r.s) (slot : Nat) : Frame ps rs s (r.seq slot).2.s := by
  have hi : Frame ps rs s (r.s.inc F.TWN_CNT_SEQOVF_COUNT) := h.inc _ (ho.reg (by decide))
  unfold OutRun.seq
  dsimp only
  split
  · exact h
  · split
    · exact h
    · exact Frame.ite hi (hi.ev0 _)

/-- The PRP sequence number of a datagram's next frame: the slot's, or the pair's counter. -/
def OutRun.pairSeq (r : OutRun) (paired : Bool) (slot : Option Nat) : Option Nat × OutRun :=
  if paired then
    let q := match slot with
      | some n => r.seq n
      | none => (none, r)
    match q.1 with
    | some n => (some n, q.2)
    | none => (some (q.2.s.get F.MAC_PRP_SEQ_SEQ), { q.2 with s := q.2.s.inc F.MAC_PRP_SEQ_SEQ })
  else (none, r)

theorem Frame.outPairSeq (h : Frame ps rs s r.s) (paired : Bool) (slot : Option Nat) : Frame ps rs s (r.pairSeq paired slot).2.s := by
  have hq : Frame ps rs s (match slot with | some n => r.seq n | none => (none, r)).2.s := by
    cases slot with
    | none => exact h
    | some n => exact h.outSeq ho n
  unfold OutRun.pairSeq
  dsimp only
  split
  · split
    · exact hq
    · exact hq.inc _ (by rw [show rs F.MAC_PRP_SEQ_SEQ.addr = true from ho.seq, Bool.true_or])
  · exact h

theorem Frame.outDatagram (h : Frame ps rs s r.s) (d : Nat) (x : OutDest) (mac : Option Nat) (tc : Nat) (slot : Option Nat)
    (data : List Byte) : Frame ps rs s (r.datagram d x mac tc slot data).s := by
  have fold {α : Type} (f : OutRun × List Nat → α → OutRun × List Nat) (l : List α) (b : OutRun × List Nat) (hb : Frame ps rs s b.1.s)
      (hf : ∀ a i, Frame ps rs s a.1.s → Frame ps rs s (f a i).1.s) : Frame ps rs s (l.foldl f b).1.s :=
    Frame.foldlP (fun a => a.1.s) f l b hb hf
  have pick {c : Prop} [Decidable c] {a b : OutRun × List Nat} (ha : Frame ps rs s a.1.s) (hb : Frame ps rs s b.1.s) :
      Frame ps rs s (if c then a else b).1.s := by split <;> assumption
  unfold OutRun.datagram
  dsimp only
  split
  · exact (h.put_outp ho.outp _).inc _ (ho.ogf (by decide) d)
  · rw [apply_ite OutRun.s]
    refine (fun k => Frame.ite (Frame.inc k _ (ho.ogf (by decide) d)) k) ?_
    refine fold _ _ _ (h.put_outp ho.outp _) fun a i ha => ?_
    refine fold _ _ _ (ha.outPairSeq ho _ slot) fun b p hb => ?_
    have hx (f : TxFrame) := Frame.txOffer hb ho.mac (ho.refused p) f
    exact pick (hx _) (pick (((hx _).inc _ (ho.ogf (by decide) d)).ev0 _) (hx _))

theorem Frame.outDest (h : Frame ps rs s r.s) (tag d : Nat) (x : OutDest) (slot : Nat) (frame : List Byte) :
    Frame ps rs s (r.dest tag d x slot frame).s := by
  unfold OutRun.dest
  dsimp only
  split
  · exact h
  · split
    · exact h.outSuspend ho tag d
    · exact h.outDatagram ho _ _ _ _ _ _

/-- The output frames of a set. -/
theorem Frame.outSet (h : Frame ps rs s t) (d : SetDesc) : Frame ps rs s (t.outSet d) := by
  unfold State.outSet
  split
  · exact h
  · refine Frame.foldlP OutRun.s _ _ _ (h.put_outp ho.outp _) fun r g hr => ?_
    dsimp only
    split
    · exact Frame.foldlP OutRun.s _ _ _ (hr.inc _ (ho.ogf (by decide) g.1)) fun r x k => k.outDest ho _ _ _ _ _
    · exact hr

end out

/-- Nothing is sent while the outputs are off (R233). -/
theorem State.outSet_off (h : s.flag F.OUT_CTRL_EN = false) (d : SetDesc) : s.outSet d = s := by
  unfold State.outSet
  rw [h]
  rfl

end Sys2Proof.Machine
end

section
namespace Sys2Proof.Machine

variable {ps : List Part} {rs : Nat → Bool} {s t u : State}

/-! ### Offers of a released set (R125, R129, R139, R143, R149, R170, R255) -/

/-- What a released set's offers may change, output frames apart, is left open: stream state, what the engines and the cascade builder have
pending, and the registers of stale sets, of demoted streams and of skipped sets. -/
structure RelOpen (ps : List Part) (rs : Nat → Bool) : Prop where
  ing : Part.ing ∈ ps
  sched : Part.sched ∈ ps
  isl : Part.isl ∈ ps
  cas : Part.cas ∈ ps
  stale : rs R.ANG_STAT = true
  demoted : rs R.ALN_NDEMOTED = true
  skip : ∀ e < 3, rs (R.SET_SKIP + 4 * e) = true

section offers
variable (ho : RelOpen ps rs)
include ho

theorem Frame.demSync (h : Frame ps rs s t) : Frame ps rs s t.demSync :=
  h.set _ _ (by rw [show rs F.ALN_NDEMOTED_COUNT.addr = true from ho.demoted, Bool.true_or])

theorem Frame.promote (h : Frame ps rs s t) (k : Nat) : Frame ps rs s (t.promote k) := ((h.modStat ho.ing k _).ev _ _ _).demSync ho

theorem Frame.demote (h : Frame ps rs s t) (k : Nat) : Frame ps rs s (t.demote k) := ((h.modStat ho.ing k _).ev _ _ _).demSync ho

theorem Frame.countPlaced (h : Frame ps rs s t) (i : Inst) : Frame ps rs s (t.countPlaced i) :=
  Frame.foldl _ _ h fun _ x k => .ite (k.modStat ho.ing x _) (k.modStat ho.ing x _)

theorem Frame.staleSync (h : Frame ps rs s t) : Frame ps rs s t.staleSync := by
  unfold State.staleSync
  exact .ite h ((h.setB _ _ (by rw [show rs F.ANG_STAT_STALE.addr = true from ho.stale, Bool.true_or])).ev0 _)

theorem Frame.streakOne (h : Frame ps rs s t) (i : Inst) (x : Nat) : Frame ps rs s (t.streakOne i x) := by
  have h1 (f : SStat → SStat) := h.modStat ho.ing x f
  unfold State.streakOne
  exact .ite ((h1 _).promote ho x) (h1 _)

theorem Frame.streaks (h : Frame ps rs s t) (i : Inst) : Frame ps rs s (t.streaks i) :=
  Frame.foldl _ _ h fun _ x k => k.streakOne ho i x

theorem Frame.missOne (h : Frame ps rs s t) (i : Inst) (x : Nat) : Frame ps rs s (t.missOne i x) := by
  have h1 (f : SStat → SStat) := h.modStat ho.ing x f
  unfold State.missOne
  exact .ite ((h1 _).demote ho x) (h1 _)

theorem Frame.missMaps (h : Frame ps rs s t) (i : Inst) : Frame ps rs s (t.missMaps i) := by
  unfold State.missMaps
  exact .ite h (Frame.foldl _ _ h fun _ x k => k.missOne ho i x)

theorem Frame.skipSet (h : Frame ps rs s t) {e : Nat} (he : e < 3) (new : Bool) (d : SetDesc) : Frame ps rs s (t.skipSet e new d) := by
  have h1 : Frame ps rs s ((t.dropHolds (.engine e) d.pages).inc (F.SET_SKIP_COUNT.at (4 * e))) :=
    (h.dropHolds _ _).inc _ (by rw [show rs (F.SET_SKIP_COUNT.at (4 * e)).addr = true from ho.skip e he, Bool.true_or])
  unfold State.skipSet
  refine (Frame.feedMark ?_ ho.sched d e false []).ev _ _ _
  exact .ite (h1.put_sched ho.sched _) (.ite ((h1.put_sched ho.sched _).put_isl ho.isl _) ((h1.put_sched ho.sched _).put_isl ho.isl _))

theorem Frame.enginePut (h : Frame ps rs s t) {e : Nat} (he : e < 3) (d : SetDesc) : Frame ps rs s (t.enginePut e d) := by
  have hold : Frame ps rs s (d.pages.foldl (fun s p => s.holdPage p (.engine e)) t) := Frame.foldl _ _ h fun _ p k => k.holdPage p _
  have put {u : State} (k : Frame ps rs s u) (l : List SetDesc) : Frame ps rs s
      (if e == 1 then ({ u with isl := { u.isl with gapT := 0 } } : State).setPend e (l ++ [{ d with lead := u.isl.gapT }])
        else u.setPend e (l ++ [d])) := .ite ((k.put_isl ho.isl _).put_sched ho.sched _) (k.put_sched ho.sched _)
  unfold State.enginePut
  dsimp only
  split
  · exact put hold _
  · split
    · exact hold.skipSet ho he true d
    · split
      · exact hold
      · next o rest _ => exact put (hold.skipSet ho he false o) rest

theorem Frame.engineOffer (h : Frame ps rs s t) {e : Nat} (he : e < 3) (d : SetDesc) : Frame ps rs s (t.engineOffer d e) := by
  unfold State.engineOffer
  exact .ite (h.enginePut ho he d) (h.feedMark ho.sched _ _ _ _)

theorem Frame.cascOffer (h : Frame ps rs s t) (d : SetDesc) : Frame ps rs s (t.cascOffer d) := by
  unfold State.cascOffer
  split
  · exact .ite ((Frame.foldl _ _ h fun _ p k => k.holdPage p _).put_sched ho.sched _) (h.put_cas ho.cas _)
  · exact h

theorem Frame.offerSet (hout : ∀ v d, Frame ps rs s v → Frame ps rs s (v.outSet d)) (h : Frame ps rs s t) (i : Inst) (parts : List Ref)
    (d : SetDesc) : Frame ps rs s (t.offerSet i parts d) := by
  unfold State.offerSet
  refine (Frame.foldlMem _ _ ((hout _ _ (.ite h (h.offerRefs _ _ _))).cascOffer ho d) fun v e he k => ?_).dropHolds _ _
  have he : e < 3 := by revert he; decide +revert
  exact k.engineOffer ho he d

end offers
end Sys2Proof.Machine
end

section
namespace Sys2Proof.Machine

variable {ps : List Part} {rs : Nat → Bool} {s t u : State}

/-! ### SET_RELEASE (R138, R142, R143) -/

/-- The instant with its placeholders and header. -/
def State.filledInst (s : State) (i : Inst) : Inst := ((s.closeSet i).inst? i.tag).getD i

/-- The descriptor of the set of an instant. -/
def State.setOf (s : State) (i : Inst) : SetDesc := (s.closeSet i).descOf (s.filledInst i)

/-- The records of the set of an instant, its header first. -/
def State.setParts (s : State) (i : Inst) : List Ref := ((s.filledInst i).recs.filter fun r => r.sidx == hdrKey) ++ (s.setOf i).recs

/-- The filled instant goes off the table. -/
def State.offTable (s : State) (i : Inst) (rest : List Inst) : State :=
  let s := (s.closeSet i).endOn (s.setParts i)
  { s with aln := { s.aln with insts := rest } }

/-- The released set's records are counted, and its tick is kept. -/
def State.placed (s : State) (i : Inst) : State :=
  let s := s.countPlaced i
  { s with aln := { s.aln with relTick := s.now } }

/-- The released set goes into stream state and to its receivers. -/
def State.offered (s : State) (i : Inst) (parts : List Ref) (d : SetDesc) : State :=
  ((s.staleSync.streaks i).missMaps i).offerSet i parts d

/-- The interrupts of a release and the count of instants in flight. -/
def State.announced (s : State) (i : Inst) : State :=
  let s := s.raise 32
  let s := if i.cause = some .all then s else s.raise 33
  s.learnTick.inflightSync

theorem State.release_eq (s : State) (i : Inst) (rest : List Inst) : s.release i rest =
    let j := s.filledInst i
    ((((s.offTable i rest).relCount j rest).placed j).offered j (s.setParts i) (s.setOf i)).announced j := rfl

theorem State.filledInst_cause {i : Inst} {rest : List Inst} (h : s.aln.insts = i :: rest) : (s.filledInst i).cause = i.cause := by
  have hi : s.inst? i.tag = some i := by
    rw [State.inst_eq, h, List.find?_cons, decide_eq_true rfl]
  obtain ⟨y, hy, hc⟩ := (Stored.closeSet s i).cause i hi
  rw [State.filledInst, hy]
  exact hc

theorem State.offTable_frame (s : State) (i : Inst) (rest : List Inst) : Frame [.aln] noRegs s (s.offTable i rest) :=
  (((Stored.closeSet s i).trans (.endOn _ _)).frame).put_aln (by simp) _

theorem State.offTable_last (s : State) (i : Inst) (rest : List Inst) : (s.offTable i rest).aln.last = s.aln.last := by
  have h := ((Stored.closeSet s i).trans (.endOn _ (s.setParts i))).aln
  show ((s.closeSet i).endOn (s.setParts i)).aln.last = _
  rw [h]

theorem Frame.placed (ho : RelOpen ps rs) (ha : Part.aln ∈ ps) (h : Frame ps rs s t) (i : Inst) : Frame ps rs s (t.placed i) :=
  (h.countPlaced ho i).put_aln ha _

theorem Frame.offered (ho : RelOpen ps rs) (hout : ∀ v d, Frame ps rs s v → Frame ps rs s (v.outSet d))
    (h : Frame ps rs s t) (i : Inst) (parts : List Ref) (d : SetDesc) : Frame ps rs s (t.offered i parts d) :=
  Frame.offerSet ho hout (((h.staleSync ho).streaks ho i).missMaps ho i) i parts d

theorem State.learnTick_insts (s : State) : s.learnTick.aln.insts = s.aln.insts := by
  unfold State.learnTick
  dsimp only
  split
  · split <;> rfl
  · rfl

theorem State.learnTick_regs (s : State) : s.learnTick.regs = s.regs := by
  unfold State.learnTick
  dsimp only
  split
  · split <;> rfl
  · rfl

theorem Frame.learnTick (h : Frame ps rs s t) (ha : Part.aln ∈ ps) : Frame ps rs s t.learnTick := by
  unfold State.learnTick
  exact .ite (.ite (h.put_aln ha _) (h.put_aln ha _)) h

theorem State.announced_frame (s : State) (i : Inst) : Frame [.aln] (regsIn [R.ALN_STAT]) s (s.announced i) := by
  have h32 : Frame [.aln] (regsIn [R.ALN_STAT]) s (s.raise 32) := (Frame.refl _ _ s).raise (by decide)
  exact ((Frame.ite h32 (h32.raise (by decide))).learnTick (by simp)).set _ _ (by decide)

theorem State.announced_insts (s : State) (i : Inst) : (s.announced i).aln.insts = s.aln.insts := by
  have h32 : Frame [] noRegs s (s.raise 32) := (Frame.refl _ _ s).raise (by decide)
  have ha : (if i.cause = some .all then s.raise 32 else (s.raise 32).raise 33).aln = s.aln :=
    (Frame.ite h32 (h32.raise (by decide))).parts .aln (by simp)
  exact (State.learnTick_insts _).trans (congrArg Aln.insts ha)

theorem State.announced_inflight (s : State) (i : Inst) : (s.announced i).get F.ALN_STAT_INFLIGHT = s.aln.insts.length % 512 := by
  rw [← s.announced_insts i]
  exact State.get_set_self (f := F.ALN_STAT_INFLIGHT) _ _ ⟨by decide, by decide⟩

theorem State.announced_pends (s : State) (i : Inst) : (s.announced i).pends 32 ∧ (i.cause ≠ some .all → (s.announced i).pends 33) := by
  have h32 : (s.raise 32).pends 32 := s.raise_pend (by decide)
  have last {n : Nat} {v : State} (h : v.pends n) : v.learnTick.inflightSync.pends n :=
    State.pends_set _ (by decide) (State.pends_of_regs v.learnTick_regs h)
  unfold State.announced
  refine ⟨last ?_, fun hc => last ?_⟩
  · split
    · exact h32
    · exact (Logs.refl.raise (al := true) (by decide)).pendKeep (by decide) h32
  · rw [if_neg hc]
    exact State.raise_pend _ (by decide)

/-! ### Registers and parts that a release may change -/

/-- The parts of the receivers of a set with the outputs off. -/
def relParts : List Part := [.ing, .sched, .isl, .cas]

/-- The registers that a release may change while the outputs are off. -/
def relReg (a : Nat) : Bool :=
  (decide (0x50040 ≤ a) && decide (a < 0x50064)) || a == R.ALN_STAT || a == R.ALN_NDEMOTED || a == R.ANG_STAT ||
    (decide (0x400D0 ≤ a) && decide (a < 0x400E0))

/-- The registers of a list are among those that a release may change. -/
theorem regsIn_relReg {l : List Nat} (h : ∀ a ∈ l, relReg a = true) (a : Nat) (ha : relReg a = false) : regsIn l a = false := by
  simp only [regsIn, List.contains_eq_mem, decide_eq_false_iff_not]
  exact fun hm => by simp [h a hm] at ha

theorem relOpen_relReg : RelOpen (.aln :: relParts) relReg := ⟨by decide, by decide, by decide, by decide, by decide, by decide, by decide⟩

/-- All registers but those of a release's counters (ALN_HORIZ, ALN_SETS, ALN_CNT_DL, ALN_CNT_FORCED). -/
def offCountReg (a : Nat) : Bool := decide (a < R.ALN_HORIZ_LO) || decide (R.ALN_CNT_GAP ≤ a)

/-- The parts of all receivers of a set. -/
def sendParts : List Part := .outp :: .mac :: relParts

theorem relOpen_offCountReg : RelOpen sendParts offCountReg := ⟨by decide, by decide, by decide, by decide, by decide, by decide, by decide⟩

theorem outOpen_offCountReg : OutOpen sendParts offCountReg := by
  refine ⟨by decide, by decide, fun p => ?_, by decide, fun a h => ?_⟩
  · show (decide (0x20100 + 0x2000 * p + 60 < 0x50040) || decide (0x50058 ≤ 0x20100 + 0x2000 * p + 60)) = true
    simp only [Bool.or_eq_true, decide_eq_true_eq]
    omega
  · simp only [offCountReg, Bool.or_eq_true, decide_eq_true_eq]
    exact .inr (Nat.le_trans (by decide) h)

/-! ### What a release does -/

/-- With the outputs off, a release changes stream state, what the engines and the cascade builder have pending, and its counters. -/
theorem State.release_frame (hoff : s.flag F.OUT_CTRL_EN = false) (i : Inst) (rest : List Inst) :
    Frame (.aln :: relParts) relReg s (s.release i rest) := by
  have htab : Frame (.aln :: relParts) relReg s (s.offTable i rest) := (s.offTable_frame i rest).mono (by decide) fun _ _ => rfl
  have hcount := htab.trans ((State.relCount_frame _ (s.filledInst i) rest).mono (by simp) (regsIn_relReg (by decide)))
  have hout (v : State) (d : SetDesc) (h : Frame (.aln :: relParts) relReg s v) : Frame (.aln :: relParts) relReg s (v.outSet d) := by
    rwa [State.outSet_off ((h.flag (by decide) (by decide)).trans hoff)]
  rw [State.release_eq]
  exact ((hcount.placed relOpen_relReg (by decide) _).offered relOpen_relReg hout _ _ _).trans
    ((State.announced_frame _ _).mono (by decide) (regsIn_relReg (by decide)))

/-- What follows the counting of a release keeps its counters, time and the instants in flight. -/
theorem State.afterCount_frame (s : State) (i : Inst) (parts : List Ref) (d : SetDesc) :
    Frame (.aln :: sendParts) offCountReg s ((s.placed i).offered i parts d) ∧ ((s.placed i).offered i parts d).aln.insts = s.aln.insts := by
  have hplaced := (Frame.refl sendParts offCountReg s).countPlaced relOpen_offCountReg i
  have hoff := (Frame.refl sendParts offCountReg (s.placed i)).offered relOpen_offCountReg (fun _ d h => h.outSet outOpen_offCountReg d) i parts d
  have sub (p : Part) (h : p ∈ sendParts) : p ∈ Part.aln :: sendParts := List.mem_cons_of_mem _ h
  refine ⟨((hplaced.mono sub fun _ h => h).put_aln (by decide) _).trans (hoff.mono sub fun _ h => h), ?_⟩
  have haln : ((s.placed i).offered i parts d).aln = (s.placed i).aln := hoff.parts .aln (by decide)
  have hkeep : (s.countPlaced i).aln = s.aln := hplaced.parts .aln (by decide)
  rw [haln, ← hkeep]
  rfl

/-- A release of the oldest instant, READY with cause c. -/
structure Released (c : Cause) (rest : List Inst) (s u : State) : Prop where
  pending : u.pending = s.pending
  now : u.tim.now = s.tim.now
  insts : u.aln.insts = rest
  counted : Counted c (s.closedTag rest) s u
  inflight : u.get F.ALN_STAT_INFLIGHT = rest.length % 512
  raised : u.pends 32
  incomplete : c ≠ .all → u.pends 33

theorem State.release_released {i : Inst} {rest : List Inst} {c : Cause} (h : s.aln.insts = i :: rest) (hc : i.cause = some c) :
    Released c rest s (s.release i rest) := by
  have hj : (s.filledInst i).cause = some c := (State.filledInst_cause h).trans hc
  have htab := s.offTable_frame i rest
  have hlast := s.offTable_last i rest
  have hrest : (s.offTable i rest).aln.insts = rest := rfl
  rw [State.release_eq]
  dsimp only
  generalize s.offTable i rest = t at htab hlast hrest ⊢
  have hcount := t.relCount_frame (s.filledInst i) rest
  have hcounted := State.relCount_counted hj t rest
  generalize t.relCount (s.filledInst i) rest = v at hcount hcounted ⊢
  obtain ⟨hsend, hinsts⟩ := v.afterCount_frame (s.filledInst i) (s.setParts i) (s.setOf i)
  generalize (v.placed (s.filledInst i)).offered (s.filledInst i) (s.setParts i) (s.setOf i) = w at hsend hinsts ⊢
  have hann := w.announced_frame (s.filledInst i)
  have hcaln : v.aln = t.aln := hcount.parts .aln (by simp)
  have hw : w.aln.insts = rest := by rw [hinsts, hcaln, hrest]
  obtain ⟨hp32, hp33⟩ := w.announced_pends (s.filledInst i)
  have htag : t.closedTag rest = s.closedTag rest := by
    unfold State.closedTag
    split
    · rfl
    · exact hlast
  have htim : (w.announced (s.filledInst i)).tim = s.tim := calc
    (w.announced (s.filledInst i)).tim = w.tim := hann.parts .tim (by decide)
    _ = v.tim := hsend.parts .tim (by decide)
    _ = t.tim := hcount.parts .tim (by decide)
    _ = s.tim := htab.parts .tim (by decide)
  have hquiet (a : Nat) (ha : a ∈ countRegs) : logReg a = false ∧ offCountReg a = false ∧ regsIn [R.ALN_STAT] a = false := by
    revert a
    decide
  refine ⟨?_, congrArg Tim.now htim, ?_, ?_, ?_, hp32, fun hne => hp33 (by rwa [hj, ne_eq, Option.some.injEq])⟩
  · exact hann.pending.trans (hsend.pending.trans (hcount.pending.trans htab.pending))
  · rw [State.announced_insts, hw]
  · rw [← htag]
    refine hcounted.congr (fun a ha => htab.regs a rfl (hquiet a ha).1) fun a ha => ?_
    obtain ⟨hlog, hoff, hstat⟩ := hquiet a ha
    exact (hann.regs a hstat hlog).trans (hsend.regs a hoff hlog)
  · rw [State.announced_inflight, hw]

end Sys2Proof.Machine
end

section
open Sys2Proof Sys2Proof.Machine

/-- Settles O16: a deadline closes the instants due and no others, and a release is the counting of the oldest READY instant, between the
store of its placeholders and header and the offers of its set, all of which keep the cause, the counters and the other instants. -/
theorem instantsCloseAndAreReleasedInOrder : Obligations.InstantsCloseAndAreReleasedInOrder := by
  unfold Obligations.InstantsCloseAndAreReleasedInOrder
  refine ⟨fun s x hx hn => ?_, fun s i rest c hs hc => ?_, fun s hs => ?_⟩
  · obtain ⟨t, he, ⟨hnow, hlen, hall⟩, hf⟩ := instantDeadline_closes hx hn
    refine ⟨t, he, ⟨hnow, hlen, fun i hi => ?_⟩, hf⟩
    obtain ⟨y, hy, hsoc, hns, hrecs, hexp, hready, hdue, hlater⟩ := hall i hi
    exact ⟨y, hy, hsoc, hns, hrecs, hexp, hready, hdue, hlater⟩
  · obtain ⟨hpend, hnow, hinsts, ⟨hsets, hlate, hforced, hhoriz⟩, hfly, h32, h33⟩ := State.release_released hs hc
    refine ⟨s.release i rest, ?_, hpend, hnow, fun hoff => State.release_frame hoff i rest, hinsts, hsets, hlate, hforced, hfly, h32, h33, hhoriz⟩
    show execSetRelease s = _
    rw [execSetRelease, hs]
    simp only [hc]
    rfl
  · refine Leads.nothing ?_
    show execSetRelease s = _
    unfold execSetRelease
    split
    · rfl
    · next i rest hi =>
      rw [hs i (by simp [hi])]
      rfl
end

section
namespace Sys2Proof.Machine

/-! ### What follows a command (R383, R438)

The end of a command is a chain of logged events and kept pins. -/

theorem State.drain_logs (s : State) : Logs true s s.drain :=
  Logs.refl.drain

end Sys2Proof.Machine
end

section
open Sys2Proof Sys2Proof.Machine

/-- Settles O11: the end of a command logs, and logging keeps the frame, the pending sources, the outputs, the time and the registers' order. -/
theorem loggingChangesOnlyItsOwn : Obligations.LoggingChangesOnlyItsOwn := by
  unfold Obligations.LoggingChangesOnlyItsOwn
  intro s
  have h : Logs true s s.drain := s.drain_logs
  exact ⟨h.frame, fun _ hn hp => h.pendKeep hn hp, h.out, h.tim, h.free, h.canon⟩

end

section
namespace Sys2Proof.Machine

/-! ### A copy of an alarm datagram that is due on a port the unit does not have (R178)

A copy's ports are a list of numbers. ANG_NET_CFG.PORTS selects among the five ports only, but the state space holds other lists: a copy that
goes out there is refused, and counted in the register where port 7's counters would lie. -/

/-- One copy, the last of its datagram, with no words, for port 7. -/
def copyToPort7 : AlmRepeat := ⟨0, 1, 1, [7], 0, []⟩

/-- Alarm frames are on, to the fixed address, and the copy for port 7 is due. -/
def copyOnPort7 : State :=
  { State.reset with regs := [(R.ANG_NET_CFG, 0x41)], alm := { State.reset.alm with repeats := [copyToPort7] } }

/-- The copy is taken. -/
def copyOnPort7Taken : State :=
  { copyOnPort7.reach 0 with alm := { (copyOnPort7.reach 0).alm with repeats := [] } }

/-- The copy is sent. -/
def copyOnPort7Sent : State :=
  copyOnPort7Taken.almSend 1 0 [7] []

/-- ALARM_FRAME_REPEAT takes the copy and sends it. -/
theorem copyOnPort7_exec : exec .alarmFrameRepeat copyOnPort7 = .next copyOnPort7Sent.drain := by
  have hsends : (copyOnPort7Taken.flag F.ANG_NET_CFG_EN && !copyOnPort7Taken.inhibited) = true := by decide +kernel
  show (if copyOnPort7Taken.flag F.ANG_NET_CFG_EN && !copyOnPort7Taken.inhibited then copyOnPort7Sent.done else copyOnPort7Taken.done) = _
  rw [if_pos hsends]
  rfl

/-- The refusal counts. -/
theorem copyOnPort7Sent_counts : copyOnPort7Sent.rd refused7 = 1 := by
  decide +kernel

end Sys2Proof.Machine
end

section
open Sys2Proof Sys2Proof.Machine

/-- Refutes O21: the refusal of an alarm datagram's copy may count in a register outside the five ports' counters, where the copy's list of
ports names none of them. -/
theorem not_alarmCopiesDestinationsAndPins : ¬ Obligations.AlarmCopiesDestinationsAndPins := by
  intro h
  obtain ⟨u, hexec, -, hframe⟩ := ((h.1 copyOnPort7 copyToPort7 rfl).2 (by decide +kernel) (by decide +kernel)).2
  have hend : u.drain = copyOnPort7Sent.drain := Host.Outcome.next.inj (hexec.symm.trans copyOnPort7_exec)
  have hsame : u.drain.rd refused7 = copyOnPort7.rd refused7 := hframe.drain.regs refused7 (by decide +kernel) (by decide +kernel)
  rw [hend, State.drain_rd _ (by decide +kernel), copyOnPort7Sent_counts] at hsame
  exact absurd hsame (by decide +kernel)

end

section
namespace Sys2Proof.Machine

variable {s t u : State}

/-! ### What the pins and the unit's health are derived from (R170 to R173, R383) -/

/-- The registers that TWN_FAULT follows. -/
def faultRegs : List Nat := [R.TIM_STAT, F.MAC_STAT_P_LINK.addr, F.MAC_STAT_P_LINK.addr + 0x2000, R.ING_CTRL, R.ALN_CTRL, R.TWN_CTRL]

/-- The registers that the alarm port and the pins follow, and those of the unit's health. -/
def causeRegs : List Nat :=
  faultRegs ++ [R.TOP_STRAPS, R.TWN_STAT, R.TWN_FAULT, R.TWN_FAULTMASK, R.PWR_STAT, R.ANG_STAT, R.ANG_CTRL, R.TIM_UTCOFF, R.TIM_SRC, R.TIM_CTRL,
    R.TIM_UNC, R.TIM_SERVO] ++ (List.range 8).map fun n => R.ANG_ALMCFG + 4 * n

theorem almCfg_cause {n : Nat} (hn : n < 8) : R.ANG_ALMCFG + 4 * n ∈ causeRegs :=
  List.mem_append_right _ (List.mem_map.mpr ⟨n, List.mem_range.mpr hn, rfl⟩)

theorem State.twnFaults_congr (hr : ∀ a ∈ faultRegs, t.rd a = s.rd a) (hm : t.tim = s.tim) (hd : t.sched = s.sched) (hw : t.twn = s.twn) :
    t.twnFaults = s.twnFaults := by
  have flag {f : Fld} (hf : f.addr ∈ faultRegs) : t.flag f = s.flag f := by rw [State.flag, State.get, hr _ hf]; rfl
  have second (x : Option Nat) : t.lastSecond x = s.lastSecond x := by unfold State.lastSecond State.now; rw [hm]
  unfold State.twnFaults
  rw [flag (f := F.TIM_STAT_REF_LOST) (by decide), flag (f := F.TIM_STAT_EXPIRED) (by decide), flag (f := F.MAC_STAT_P_LINK) (by decide),
    flag (f := F.MAC_STAT_P_LINK.at 0x2000) (by decide), flag (f := F.ING_CTRL_EN) (by decide), flag (f := F.ALN_CTRL_EN) (by decide),
    flag (f := F.TWN_CTRL_SELF_FAULT) (by decide), second, second, hd, hw]

/-- The causes of t are those of s. -/
structure CausesKept (s t : State) : Prop where
  regs : ∀ a ∈ causeRegs, t.rd a = s.rd a
  act : t.alm.act = s.alm.act
  inh : t.alm.inh = s.alm.inh
  tim : t.tim = s.tim
  sched : t.sched = s.sched
  twn : t.twn = s.twn

namespace CausesKept

theorem refl (s : State) : CausesKept s s := ⟨fun _ _ => rfl, rfl, rfl, rfl, rfl, rfl⟩

theorem trans (h : CausesKept s t) (k : CausesKept t u) : CausesKept s u :=
  ⟨fun a ha => (k.regs a ha).trans (h.regs a ha), k.act.trans h.act, k.inh.trans h.inh, k.tim.trans h.tim, k.sched.trans h.sched,
    k.twn.trans h.twn⟩

/-- A write of a register that is no cause. -/
theorem wr (h : CausesKept s t) {a : Nat} (v : Dword) (ha : a ∉ causeRegs) : CausesKept s (t.wr a v) :=
  h.trans ⟨fun _ hb => t.rd_wr_ne v fun e => ha (e ▸ hb), rfl, rfl, rfl, rfl, rfl⟩

/-- A change of the alarm logic that keeps the active alarms and ALMINH_IN. -/
theorem almPut (h : CausesKept s t) (x : Alm) (ha : x.act = t.alm.act) (hi : x.inh = t.alm.inh) : CausesKept s { t with alm := x } :=
  h.trans ⟨fun _ _ => rfl, ha, hi, rfl, rfl, rfl⟩

variable (h : CausesKept s t)
include h

theorem get {f : Fld} (hf : f.addr ∈ causeRegs) : t.get f = s.get f := by rw [State.get, State.get, h.regs _ hf]

theorem flag {f : Fld} (hf : f.addr ∈ causeRegs) : t.flag f = s.flag f := by rw [State.flag, State.flag, h.get hf]

theorem twin : t.twin = s.twin := by rw [State.twin, State.twin, h.get (by decide)]

theorem inhibited : t.inhibited = s.inhibited := by rw [State.inhibited, State.inhibited, h.twin, h.inh, h.flag (by decide)]

theorem pinsHeld : t.pinsHeld = s.pinsHeld := by
  rw [State.pinsHeld, State.pinsHeld, h.inhibited, h.flag (by decide), h.flag (by decide)]

theorem almGroups : t.almGroups = s.almGroups := by rw [State.almGroups, State.almGroups, h.act]

theorem almAny (n : Nat) : t.almAny n = s.almAny n := by rw [State.almAny, State.almAny, h.act]

theorem tqByte : t.tqByte = s.tqByte := by
  have hcode : t.tqCode = s.tqCode := State.tqCode_congr (by rw [h.tim]) fun g hg => h.get (by revert g; decide)
  rw [State.tqByte, State.tqByte, hcode, h.get (by decide), h.get (by decide), h.get (by decide)]

theorem aspWord0 : t.aspWord0 = s.aspWord0 := by
  simp only [State.aspWord0, h.almGroups, h.almAny, h.inh, h.twin, h.tqByte]
  rw [h.get (by decide), h.flag (by decide), h.flag (by decide)]

theorem twnFaults : t.twnFaults = s.twnFaults :=
  State.twnFaults_congr (fun a ha => h.regs a (List.mem_append_left _ (List.mem_append_left _ ha))) h.tim h.sched h.twn

theorem almRaw (hg : t.alm.groups = s.alm.groups) {n : Nat} (hn : n < 8) : t.almRaw n = s.almRaw n := by
  have cfg : R.ANG_ALMCFG + 4 * n ∈ causeRegs := almCfg_cause hn
  rw [State.almRaw, State.almRaw, hg, h.get cfg, h.get cfg]

theorem almActive (hg : t.alm.groups = s.alm.groups) (hw : t.alm.word0 = s.alm.word0) (hp : t.alm.pulse = s.alm.pulse)
    (hl : t.get F.ANG_ALMSTAT_LATCHED = s.get F.ANG_ALMSTAT_LATCHED) {n : Nat} (hn : n < 8) : t.almActive n = s.almActive n := by
  have cfg : R.ANG_ALMCFG + 4 * n ∈ causeRegs := almCfg_cause hn
  rw [State.almActive, State.almActive, h.almRaw hg hn, hw, hp, hl, h.get cfg, h.flag cfg]

end CausesKept

/-- Logging that leaves the alarm port and the unit's health keeps the causes. -/
theorem Logs.causesKept (h : Logs false s t) : CausesKept s t :=
  ⟨fun a ha => h.rd (by revert a; decide) (by revert a; decide), by rw [h.alm], by rw [h.alm], h.tim, h.parts .sched, h.twn⟩

/-! ### The port and the pins follow (R170 to R173) -/

/-- First the words follow. -/
def State.almWords (s : State) : State :=
  if s.aspWord0 == s.alm.word0 && s.almGroups == s.alm.groups then s
  else ({ s with alm := { s.alm with word0 := s.aspWord0, groups := s.almGroups } }.inc F.ANG_ASPCNT_WORD).set F.ANG_ASPSUM_WORD s.aspWord0

/-- The pins whose raw is 1. -/
def State.rawPins (s : State) : List Nat := (List.range 8).filter s.almRaw

/-- Then raw's rises set latches and start pulses. -/
def State.almRises (s : State) : State := (s.rawPins.filter fun n => !smem s.alm.raw n).foldl (fun s n => s.almRise n) s

/-- Then raw is kept. -/
def State.almRawKept (s : State) (raw : List Nat) : State := if raw == s.alm.raw then s else { s with alm := { s.alm with raw := raw } }

/-- ALMSTAT.OUT as it has to be. -/
def State.almOuts (s : State) : Nat := ((List.range 8).filter fun n => s.almActive n && !s.pinsHeld).foldl (fun a n => a + 2 ^ n) 0

/-- Last, OUT follows. -/
def State.almOutKept (s : State) : State := if s.get F.ANG_ALMSTAT_OUT == s.almOuts then s else s.set F.ANG_ALMSTAT_OUT s.almOuts

theorem State.almSync_stages (s : State) : s.almSync = (s.almWords.almRises.almRawKept s.almWords.rawPins).almOutKept := rfl

/-- The causes and the words of t are those of s. -/
structure PortKept (s t : State) : Prop extends CausesKept s t where
  word0 : t.alm.word0 = s.alm.word0
  groups : t.alm.groups = s.alm.groups

theorem PortKept.refl (s : State) : PortKept s s := ⟨.refl s, rfl, rfl⟩

theorem PortKept.trans (h : PortKept s t) (k : PortKept t u) : PortKept s u :=
  ⟨h.toCausesKept.trans k.toCausesKept, k.word0.trans h.word0, k.groups.trans h.groups⟩

theorem PortKept.rawPins (h : PortKept s t) : t.rawPins = s.rawPins :=
  List.filter_congr fun _ hn => h.almRaw h.groups (List.mem_range.mp hn)

/-- A write of ALMSTAT. -/
theorem PortKept.almstat (s : State) (v : Dword) : PortKept s (s.wr R.ANG_ALMSTAT v) :=
  ⟨(CausesKept.refl s).wr v (by decide), rfl, rfl⟩

theorem State.almWords_follow (s : State) :
    CausesKept s s.almWords ∧ s.almWords.alm.word0 = s.aspWord0 ∧ s.almWords.alm.groups = s.almGroups := by
  unfold State.almWords
  split
  · next hsame =>
    obtain ⟨hw, hg⟩ := Bool.and_eq_true_iff.mp hsame
    exact ⟨.refl s, (eq_of_beq hw).symm, (eq_of_beq hg).symm⟩
  · exact ⟨(((CausesKept.refl s).almPut _ (by rfl) (by rfl)).wr _ (by decide)).wr _ (by decide), rfl, rfl⟩

theorem State.almRise_portKept (s : State) (n : Nat) : PortKept s (s.almRise n) := by
  unfold State.almRise
  split
  · exact .almstat s _
  · split
    · exact .refl s
    · exact ⟨(CausesKept.refl s).almPut _ (by rfl) (by rfl), rfl, rfl⟩
  · exact .refl s

theorem State.almRises_portKept (s : State) : PortKept s s.almRises := by
  unfold State.almRises
  generalize (s.rawPins.filter fun n => !smem s.alm.raw n) = l
  induction l generalizing s with
  | nil => exact .refl s
  | cons n l ih => exact (s.almRise_portKept n).trans (ih _)

theorem State.almRawKept_keeps (s : State) (raw : List Nat) : PortKept s (s.almRawKept raw) ∧ (s.almRawKept raw).alm.raw = raw := by
  unfold State.almRawKept
  split
  · next hsame => exact ⟨.refl s, (eq_of_beq hsame).symm⟩
  · exact ⟨⟨(CausesKept.refl s).almPut _ (by rfl) (by rfl), rfl, rfl⟩, rfl⟩

theorem State.almOuts_lt (s : State) : s.almOuts < 2 ^ 8 := (sum_pow_testBit _ 8).1

theorem State.almOuts_bit (s : State) {n : Nat} (hn : n < 8) : bit s.almOuts n = (s.almActive n && !s.pinsHeld) := by
  rw [bit_testBit]
  exact (sum_pow_testBit _ 8).2 n hn

theorem State.almOutKept_keeps (s : State) : PortKept s s.almOutKept ∧ s.almOutKept.alm = s.alm ∧
    s.almOutKept.get F.ANG_ALMSTAT_LATCHED = s.get F.ANG_ALMSTAT_LATCHED ∧ s.almOutKept.get F.ANG_ALMSTAT_OUT = s.almOuts := by
  unfold State.almOutKept
  split
  · next hsame => exact ⟨.refl s, rfl, rfl, eq_of_beq hsame⟩
  · refine ⟨.almstat s _, rfl, State.get_set_other s _ (by decide) (by decide) rfl (by decide), ?_⟩
    rw [State.get_set_self s _ (by decide)]
    exact Nat.mod_eq_of_lt s.almOuts_lt

/-- Where the unit's health follows its causes, all follow after the port and the pins have been kept. -/
theorem State.almSync_follows (hf : s.twin = true → s.get F.TWN_FAULT_FAULT = s.twnFaults)
    (hh : s.twin = true → s.flag F.TWN_STAT_HEALTHY = (Nat.land s.twnFaults (s.get F.TWN_FAULTMASK_MASK) == 0)) : PinsFollow s.almSync := by
  obtain ⟨hkeep, hword, hgroups⟩ := s.almWords_follow
  obtain ⟨hraw, hpins⟩ := s.almWords.almRises.almRawKept_keeps s.almWords.rawPins
  obtain ⟨hout, halm, hlatch, hbits⟩ := (s.almWords.almRises.almRawKept s.almWords.rawPins).almOutKept_keeps
  rw [State.almSync_stages]
  generalize s.almWords.almRises.almRawKept s.almWords.rawPins = v at *
  have hport : PortKept s.almWords v.almOutKept := s.almWords.almRises_portKept.trans (hraw.trans hout)
  have hall : CausesKept s v.almOutKept := hkeep.trans hport.toCausesKept
  refine ⟨?_, ?_, ?_, fun n hn => ?_, fun ht => ?_, fun ht => ?_⟩
  · rw [hport.word0, hword, hall.aspWord0]
  · rw [hport.groups, hgroups, hall.almGroups]
  · rw [halm, hpins]
    exact hport.rawPins.symm
  · rw [hbits, v.almOuts_bit hn, hout.almActive hout.groups hout.word0 (by rw [halm]) hlatch hn, hout.pinsHeld]
  · rw [hall.get (by decide), hall.twnFaults]
    exact hf (hall.twin ▸ ht)
  · rw [hall.flag (by decide), hall.twnFaults, hall.get (by decide)]
    exact hh (hall.twin ▸ ht)

end Sys2Proof.Machine
end

section
namespace Sys2Proof.Machine

variable {s t u : State}

/-! ### The unit's health follows (R383) -/

theorem State.twnFaults_lt (s : State) : s.twnFaults < 2 ^ 8 := by
  have bit_le (b : Bool) : b2n b ≤ 1 := by cases b <;> decide
  have h0 := bit_le (s.flag F.TIM_STAT_REF_LOST)
  have h1 := bit_le (s.flag F.TIM_STAT_EXPIRED)
  have h2 := bit_le (!s.flag F.MAC_STAT_P_LINK && !s.flag (F.MAC_STAT_P_LINK.at 0x2000))
  have h3 := bit_le (!s.flag F.ING_CTRL_EN || !s.flag F.ALN_CTRL_EN)
  have h4 := bit_le (s.lastSecond s.sched.skipAt)
  have h5 := bit_le (s.lastSecond s.twn.uncorrAt)
  have h6 := bit_le s.twn.zeroed
  have h7 := bit_le (s.flag F.TWN_CTRL_SELF_FAULT)
  unfold State.twnFaults
  omega

/-- First TWN_FAULT follows. -/
def State.faultKept (s : State) : State :=
  if s.get F.TWN_FAULT_FAULT == s.twnFaults then s else s.set F.TWN_FAULT_FAULT s.twnFaults

/-- Then HEALTHY follows, and a change is logged. -/
def State.healthyKept (s : State) (h : Bool) : State :=
  if h == s.flag F.TWN_STAT_HEALTHY then s else (s.setB F.TWN_STAT_HEALTHY h).ev0 Ev.TWN_FAULT

theorem State.healthSync_twin (h : s.twin = true) :
    s.healthSync = s.faultKept.healthyKept (Nat.land s.twnFaults (s.faultKept.get F.TWN_FAULTMASK_MASK) == 0) := by
  unfold State.healthSync
  rw [h]
  rfl

theorem State.faultKept_keeps (s : State) : s.faultKept.tim = s.tim ∧ s.faultKept.sched = s.sched ∧ s.faultKept.twn = s.twn ∧
    (∀ a, a ≠ R.TWN_FAULT → s.faultKept.rd a = s.rd a) ∧ s.faultKept.get F.TWN_FAULT_FAULT = s.twnFaults := by
  unfold State.faultKept
  split
  · next hsame => exact ⟨rfl, rfl, rfl, fun _ _ => rfl, eq_of_beq hsame⟩
  · refine ⟨rfl, rfl, rfl, fun a ha => s.rd_set_ne _ ha, ?_⟩
    rw [State.get_set_self s _ (by decide)]
    exact Nat.mod_eq_of_lt s.twnFaults_lt

theorem State.healthyKept_keeps (s : State) (h : Bool) : (s.healthyKept h).tim = s.tim ∧ (s.healthyKept h).sched = s.sched ∧
    (s.healthyKept h).twn = s.twn ∧ (∀ a ∈ causeRegs, a ≠ R.TWN_STAT → (s.healthyKept h).rd a = s.rd a) ∧
    (s.healthyKept h).flag F.TWN_STAT_HEALTHY = h := by
  unfold State.healthyKept
  split
  · next hsame => exact ⟨rfl, rfl, rfl, fun _ _ _ => rfl, (eq_of_beq hsame).symm⟩
  · have hlog : CausesKept (s.setB F.TWN_STAT_HEALTHY h) ((s.setB F.TWN_STAT_HEALTHY h).ev0 Ev.TWN_FAULT) :=
      (Logs.refl.evBut (.inr (by decide)) 0 []).causesKept
    refine ⟨hlog.tim, hlog.sched, hlog.twn, fun a ha hne => (hlog.regs a ha).trans (s.rd_set_ne _ hne), ?_⟩
    rw [hlog.flag (by decide), State.flag_setB_self _ h (by decide) rfl]

theorem State.healthSync_follows (ht : s.healthSync.twin = true) : s.healthSync.get F.TWN_FAULT_FAULT = s.healthSync.twnFaults ∧
    s.healthSync.flag F.TWN_STAT_HEALTHY = (Nat.land s.healthSync.twnFaults (s.healthSync.get F.TWN_FAULTMASK_MASK) == 0) := by
  cases htwin : s.twin with
  | false =>
    have hsame : s.healthSync = s := by unfold State.healthSync; rw [htwin]; rfl
    rw [hsame, htwin] at ht
    cases ht
  | true =>
    rw [State.healthSync_twin htwin]
    obtain ⟨htim, hsched, htwn, hregs, hfault⟩ := s.faultKept_keeps
    obtain ⟨htim', hsched', htwn', hregs', hhealthy⟩ :=
      s.faultKept.healthyKept_keeps (Nat.land s.twnFaults (s.faultKept.get F.TWN_FAULTMASK_MASK) == 0)
    generalize s.faultKept.healthyKept _ = v at *
    have get {f : Fld} (hf : f.addr ∈ causeRegs) (hne : f.addr ≠ R.TWN_STAT) : v.get f = s.faultKept.get f := by
      rw [State.get, hregs' _ hf hne, State.get]
    have hfaults : v.twnFaults = s.twnFaults :=
      State.twnFaults_congr (fun a ha => (hregs' a (by revert a; decide) (by revert a; decide)).trans (hregs a (by revert a; decide)))
        (htim'.trans htim) (hsched'.trans hsched) (htwn'.trans htwn)
    rw [hfaults, get (f := F.TWN_FAULT_FAULT) (by decide) (by decide), get (f := F.TWN_FAULTMASK_MASK) (by decide) (by decide)]
    exact ⟨hfault, hhealthy⟩

/-! ### What keeps the pins as they follow -/

/-- The causes, the alarm logic and ALMSTAT of t are those of s. -/
structure PinsKept (s t : State) : Prop extends CausesKept s t where
  alm : t.alm = s.alm
  almstat : t.rd R.ANG_ALMSTAT = s.rd R.ANG_ALMSTAT

theorem PinsKept.refl (s : State) : PinsKept s s := ⟨.refl s, rfl, rfl⟩

theorem PinsKept.trans (h : PinsKept s t) (k : PinsKept t u) : PinsKept s u :=
  ⟨h.toCausesKept.trans k.toCausesKept, k.alm.trans h.alm, k.almstat.trans h.almstat⟩

/-- A fold of an operation that keeps them. -/
theorem PinsKept.foldl {α : Type} (f : State → α → State) (l : List α) (h : PinsKept s t) (hf : ∀ u a, PinsKept u (f u a)) :
    PinsKept s (l.foldl f t) := by
  induction l generalizing t with
  | nil => exact h
  | cons a l ih => exact ih (h.trans (hf t a))

/-- A count in a register that is neither a cause nor ALMSTAT. -/
theorem PinsKept.inc (s : State) {f : Fld} (hf : f.addr ∉ causeRegs) (ha : f.addr ≠ R.ANG_ALMSTAT) : PinsKept s (s.inc f) :=
  ⟨(CausesKept.refl s).wr _ hf, rfl, s.rd_wr_ne _ ha.symm⟩

theorem Logs.pinsKept (h : Logs false s t) : PinsKept s t :=
  ⟨h.causesKept, h.alm, h.almReg (by decide) (by decide)⟩

theorem PinsFollow.kept (h : PinsFollow s) (k : PinsKept s t) : PinsFollow t := by
  have stat {f : Fld} (hf : f.addr = R.ANG_ALMSTAT) : t.get f = s.get f := by rw [State.get, State.get, hf, k.almstat]
  have hgroups : t.alm.groups = s.alm.groups := by rw [k.alm]
  refine ⟨?_, ?_, ?_, fun n hn => ?_, fun ht => ?_, fun ht => ?_⟩
  · rw [k.alm, k.aspWord0, h.word0]
  · rw [k.alm, k.almGroups, h.groups]
  · rw [k.alm, h.raw]
    exact List.filter_congr fun n hn => (k.almRaw hgroups (List.mem_range.mp hn)).symm
  · rw [stat rfl, k.almActive hgroups (by rw [k.alm]) (by rw [k.alm]) (stat rfl) hn, k.pinsHeld]
    exact h.pins n hn
  · rw [k.get (by decide), k.twnFaults]
    exact h.faults (k.twin ▸ ht)
  · rw [k.flag (by decide), k.twnFaults, k.get (by decide)]
    exact h.healthy (k.twin ▸ ht)

/-- At the end of every command. -/
theorem State.drain_follows (s : State) : PinsFollow s.drain :=
  (State.almSync_follows (fun ht => (State.healthSync_follows ht).1) fun ht => (State.healthSync_follows ht).2).kept (Logs.drain_rest s).pinsKept

/-! ### The LEAVE frames due at a tick (R252) -/

theorem macCnt_apart {p : Nat} (hp : p < 8) : (macCnt p 15).addr ∉ causeRegs ∧ (macCnt p 15).addr ≠ R.ANG_ALMSTAT := by
  revert p
  decide

theorem State.txOffer_pinsKept (s : State) {p : Nat} (hp : p < 8) (f : TxFrame) : PinsKept s (s.txOffer p f).1 := by
  obtain ⟨hcause, hstat⟩ := macCnt_apart hp
  have hcount : PinsKept s (s.macInc p 15) := .inc s hcause hstat
  unfold State.txOffer
  split
  · dsimp only
    split
    · exact hcount
    · exact hcount.trans (Logs.refl.evBut (.inr (by decide)) 0 []).pinsKept
  · exact ⟨⟨fun _ _ => rfl, rfl, rfl, rfl, rfl, rfl⟩, rfl, rfl⟩

theorem State.send_pinsKept (s : State) {p : Nat} (hp : p < 8) (tc : Nat) (tag : TagWish) (kind : TxKind) (q : Option Nat) (dst et : Nat)
    (b : List Byte) : PinsKept s (s.send p tc tag kind q dst et b).1 := by
  have hseq : PinsKept s (if q.isNone then s.inc F.MAC_PRP_SEQ_SEQ else s) := by
    split
    · exact .inc s (by decide) (by decide)
    · exact .refl s
  unfold State.send
  split
  · exact (hseq.trans (State.txOffer_pinsKept _ (by decide) _)).trans (State.txOffer_pinsKept _ (by decide) _)
  · exact s.txOffer_pinsKept hp _

theorem State.leaveDue_pinsKept (s : State) : PinsKept s s.leaveDue := by
  unfold State.leaveDue
  dsimp only
  split
  · exact .refl s
  · exact .foldl _ _ ⟨⟨fun _ _ => rfl, rfl, rfl, rfl, rfl, rfl⟩, rfl, rfl⟩ fun u x => u.send_pinsKept (u.get_lt (f := F.CAS_CTRL_PORT)) _ _ _ _ _ _ _

end Sys2Proof.Machine
end

section
namespace Sys2Proof.Machine

/-! ### Every command completes (R383, R438) -/

/-- It is the end of a command. -/
def Ends (x : Result) : Prop := ∃ u : State, x = u.done

theorem Ends.done (u : State) : Ends u.done := ⟨u, rfl⟩

theorem Ends.ite {c : Prop} [Decidable c] {x y : Result} (hx : Ends x) (hy : Ends y) : Ends (if c then x else y) := by
  split <;> assumption

theorem execCascadeDigestRx_ends (s : State) : Ends (execCascadeDigestRx s) := by
  unfold execCascadeDigestRx
  obtain ⟨_ | f, t⟩ := s.casTake fun b => !(1 ≤ be b 3 1 && be b 3 1 ≤ 4)
  · exact .done _
  · exact .ite (.done _) (.ite (.done _) (.ite (.done _) (.ite (.done _) (.ite (.done _) (.ite (.done _) (.done _))))))

/-- Each meaning ends with the command's end on each of its branches: the commands are listed by the branches of their meanings. -/
theorem exec_ends (c : Instr) (s : State) : Ends (exec c s) := by
  cases c
  case registerWrite | wideValueLoRead | wideValueHeldWrite | wideValueHiWrite | timIncrWrite | timStepRequest | timeStepForce | ptpCfg |
      tsqEntryRead | timServoWrite | holdWrite | injDoorbell | ingHistWrite | streamAdd | streamDel | streamMod | streamCfgLoad | streamStats |
      settWindowRead | hostqConsWrite | hostqDataPop | hostqCfgWrite | hqPendClear | quotaWrite | peakClr | alnCtrlWrite | cadenceSet |
      waitPolicy | almLatchClear | limitsLoad | anglePairsLoad | topoLoad | partitionExpect | oscSignals | oscBands | outGroupDef | outDest |
      casJoin | casLeave | frontEndStart | frontEndStop | tapSample | evFltModFault | evFltModRestored | rangeToLowGain | rangeToHighGain |
      coefLoad | bankSwap | pmuCfg | calLoad | energyTick | energyCycleEnd | energyPeriodicSave | nrgSnapshot | evNrgSnapshot | nrgPreset |
      captureInstantEval | evTrgDone | trigiInput | trgArm | trgDisarm | trgForce | captRelease | trgDisable | txFrameEnd | evMacLinkDown |
      mdioCommandStart | twinEnWrite | twinCfg | twinHandover | twinForceRole | cmdDoorbell | cmdRingReset | pcieFunctionReset | nop | getInfo |
      commitEpoch | abortStepped | irqPendWrite | irqMaskWrite | msixVectorUnmask | heldDeliveryRelease | evrRateWrite | evrRingStart |
      evrRingStop | evrRead | evrFreeze | evrThaw | pageRetire | scrubCfg | scrubFull | keyLoadBlob | keyEvict | keyInvalidateParent | keyWrapNew
      | keyUpdateBegin | keyUpdateRewrap | keyUpdateCommit | keyUpdateAbort | recoveryGo | watchdogRestart | updStageBegin | updStageData |
      updStageEnd | restartHitless | restartStagedUpdate | restartSys | pwrQuiesce | pwrRun | debugLineReset | dbgAddrWrite | dbgDataRead |
      dbgChalRead | dbgRespWrite | dbgPortLock | dbgChallenge | dbgResponse | dbgCtrlLock | coreHalt | coreResume | coreStep | coreBreakpointHit
      | vbatLoss | pcieConfigWrite | dbgDataWrite =>
    exact .done _
  case evTimRefLost | evTimRefRestored | pdelayReqTx | ppsInEdge | ppsOutFall | servoTimeout | holdoverUncUpdate | evSetWinWrite | evAngStale |
      evIslNodeLost | bandRecentrePass | joinRetry | joinTimeout | cpConfigChange | pauseFrameRepeat | txFrameEnqueue | evMacLinkUp |
      gateCycleStart | prpSupervisionTx | heartbeatInstant | heartbeatWordRx | witnessTx | evTwnWitnessLost | alWitnessWaitEnd |
      relinquishComplete | cmdFetchTimeout | irqCoalTimeout | evIrqFallback | badgerBlockVisit | evEccLapLate | retmapFlashSave | tamperDetect |
      sysReset | evBootSvn | evUpdSlotWritten | quiesceTimeout | coreRailsDown =>
    exact .ite (.done _) (.done _)
  case timeSourceLost | irigFrameRx | ppsOutRise | alminhInChange | xfireFall | pfwnAccept =>
    exact .ite (.done _) (.ite (.done _) (.done _))
  case waitLearnUpdate | p4PhyPoll | cmdEntryFetch =>
    exact .ite (.ite (.done _) (.done _)) (.done _)
  case pauseFrameTx | twinSyncTx | pfwnReturn =>
    exact .ite (.done _) (.ite (.done _) (.ite (.done _) (.done _)))
  case portFrameRx => exact .ite (.done _) (.ite (.done _) (.ite (.done _) (.ite (.done _) (.ite (.done _) (.done _)))))
  case cascadeDigestRx => exact execCascadeDigestRx_ends s
  case evPairTimeout | refDetectRetry | pdelayRespTx | pdelayRespFollowUpTx | evTimPpsinMissing | irigValidExpiry | dataFrameIngest |
      injEntryFetch | injFetchTimeout | cfgFrameRx | sendCfg2Request | oldEntryExpiry | pageChargeMove | leaseExpiry | hostqDmaBlockWrite |
      instantOpen | instantDeadline | setRelease | angEngineRun | alarmFrameRepeat | alarmDestResolve | almPulseEnd | islEngineRun | oscEngineRun
      | oscSignalRestart | evOscModeNew | evOscModeLost | evOscClass | outCmdFrameRx | outDestResolve | outCfgchgExpiry | cascadeDigestBuild |
      digestReassemblyTimeout | evCasMemberLost | joinRx | joinAnswerRx | leaveRx | xfirePulseEnd | overloadEpisodeEnd | blankingEnd |
      evFltFadeStart | evFltFadeDone | pmuEstimateReady | pmuDetectorEval | pmuReturnToM | energyFlashCopy | captureHeldResume | captureReoffer |
      trigoPulseEnd | pauseTimeEnd | evMacPauseWdog | evMacPauseRestore | txFrameStart | hdxCollision | hdxBackoffEnd | gateEntryEnd |
      mdioCommandDone | evTwnPathDown | evTwnHandoverFail | twinRevert | evTwnFault | commandStep | irqDeliveryCommit | evrBucketRefill |
      evEvrThawTimeout | badgerTagWriteback | keyLeaseExpiry | porReset | bootSequence | recoveryFlashRetry | evBootWatchdog | bootFailsClear |
      dbgResponseVerify | dbgChallengeExpiry | arpNdRequestRx =>
    dsimp only [exec, execEvPairTimeout, execRefDetectRetry, execPdelayRespTx, execPdelayRespFollowUpTx, execEvTimPpsinMissing,
      execIrigValidExpiry, execDataFrameIngest, execInjEntryFetch, execInjFetchTimeout, execCfgFrameRx, execSendCfg2Request, execOldEntryExpiry,
      execPageChargeMove, execLeaseExpiry, execHostqDmaBlockWrite, execInstantOpen, execInstantDeadline, execSetRelease, execAngEngineRun,
      execAlarmFrameRepeat, execAlarmDestResolve, execAlmPulseEnd, execIslEngineRun, execOscEngineRun, execOscSignalRestart, execEvOscModeNew,
      execEvOscModeLost, execEvOscClass, execOutCmdFrameRx, execOutDestResolve, execOutCfgchgExpiry, execCascadeDigestBuild,
      execDigestReassemblyTimeout, execEvCasMemberLost, execJoinRx, execJoinAnswerRx, execLeaveRx, execXfirePulseEnd, execOverloadEpisodeEnd,
      execBlankingEnd, execEvFltFadeStart, execEvFltFadeDone, execPmuEstimateReady, execPmuDetectorEval, execPmuReturnToM, execEnergyFlashCopy,
      execCaptureHeldResume, execCaptureReoffer, execTrigoPulseEnd, execPauseTimeEnd, execEvMacPauseWdog, execEvMacPauseRestore,
      execTxFrameStart, execHdxCollision, execHdxBackoffEnd, execGateEntryEnd, execMdioCommandDone, execEvTwnPathDown, execEvTwnHandoverFail,
      execTwinRevert, execEvTwnFault, execCommandStep, execIrqDeliveryCommit, execEvrBucketRefill, execEvEvrThawTimeout, execBadgerTagWriteback,
      execKeyLeaseExpiry, execPorReset, execBootSequence, execRecoveryFlashRetry, execEvBootWatchdog, execBootFailsClear, execDbgResponseVerify,
      execDbgChallengeExpiry, execArpNdRequestRx]
    repeat' split
    all_goals exact .done _

theorem exec_follows (c : Instr) (s : State) : ∃ t, exec c s = .next t ∧ PinsFollow t := by
  obtain ⟨u, hu⟩ := exec_ends c s
  exact ⟨u.drain, hu, u.drain_follows⟩

end Sys2Proof.Machine
end

section
open Sys2Proof Sys2Proof.Machine

/-- Settles O60: each command ends with the keeping of the alarm port, the pins and the unit's health, which logging leaves as they are; so does
a tick, and the frames due then leave them too. -/
theorem everyCommandCompletesAndThePinsFollow : Obligations.EveryCommandCompletesAndThePinsFollow := by
  unfold Obligations.EveryCommandCompletesAndThePinsFollow
  refine ⟨exec_follows, fun s => ?_⟩
  cases hp : s.pending with
  | nil =>
    have hstep : step s = .next s.tick.leaveDue := by rw [step, hp]
    exact ⟨s.tick.leaveDue, hstep, (State.drain_follows _).kept (State.leaveDue_pinsKept _)⟩
  | cons c rest =>
    have hstep : step s = exec c { s with pending := rest } := by rw [step, hp]
    rw [hstep]
    exact exec_follows c { s with pending := rest }

end

section
namespace Sys2Proof.Machine

variable {s t u : State} {r : Fn} {b : List Byte} {c : Instr} {q : Part} {P : State → Prop}

@[simp] theorem State.popHead_ang : (s.popHead r).ang = s.ang := by cases r <;> rfl
@[simp] theorem State.popHead_isl : (s.popHead r).isl = s.isl := by cases r <;> rfl
@[simp] theorem State.popHead_osc : (s.popHead r).osc = s.osc := by cases r <;> rfl

theorem State.healAll_part (s : State) (n : Nat) (ks : List Nat) (hq : q ≠ .ecc) : q.same s (s.healAll n ks) :=
  (s.healAll_frame n ks).parts q (by simpa using hq)

theorem Answers.imp {st : Nat} {res : List Byte} {ps : List Part} {rs : List Nat} {Q : State → Prop} (h : Answers c s r b st res ps rs P)
    (hPQ : ∀ t, P t → Q t) : Answers c s r b st res ps rs Q := by
  obtain ⟨t, hx, ha, hc, hP, hf⟩ := h
  exact ⟨t, hx, ha, hc, hPQ t hP, hf⟩

/-! ### Entries of a host buffer in a table (R166, R202, R229) -/

/-- Entries written into the shadow, the first at `first`. -/
def Tbl.load {α : Type} (x : Tbl α) (first : Nat) (f : List Byte → α) (es : List (List Byte)) : Tbl α :=
  es.zipIdx.foldl (fun t e => t.put (first + e.2) (f e.1)) x

/-- Between x and y the n entries from `first` have been written to the shadow, and no others. -/
structure Tbl.Loaded {α : Type} (first n : Nat) (f : Nat → α) (x y : Tbl α) : Prop where
  eff : y.eff = x.eff
  due : y.due = x.due
  inside : ∀ i, i < n → mget y.shadow (first + i) = some (f i)
  outside : ∀ k, k < first ∨ first + n ≤ k → mget y.shadow k = mget x.shadow k

theorem Tbl.loaded_from {α : Type} (f : List Byte → α) (es : List (List Byte)) (x : Tbl α) (first j : Nat) :
    Tbl.Loaded (first + j) es.length (fun i => f (es.getD i [])) x ((es.zipIdx j).foldl (fun t e => t.put (first + e.2) (f e.1)) x) := by
  induction es generalizing x j with
  | nil => exact ⟨rfl, rfl, fun i hi => absurd hi (Nat.not_lt_zero i), fun _ _ => rfl⟩
  | cons e es ih =>
    obtain ⟨heff, hdue, hin, hout⟩ := ih (x.put (first + j) (f e)) (j + 1)
    refine ⟨heff, hdue, fun i hi => ?_, fun k hk => ?_⟩
    · cases i with
      | zero => exact (hout _ (.inl (by omega))).trans (mget_mput_self _ _ _)
      | succ i =>
        have h := hin i (by simpa using hi)
        rwa [show first + (j + 1) + i = first + j + (i + 1) by omega] at h
    · rw [List.length_cons] at hk
      exact (hout k (by omega)).trans (mget_mput_ne _ _ (by omega))

theorem Tbl.load_loaded {α : Type} (x : Tbl α) (first : Nat) (f : List Byte → α) (size n : Nat) (buf : List Byte) :
    Tbl.Loaded first n (fun i => f (bytesAt buf (size * i) size)) x (x.load first f (entriesOf size n buf)) := by
  obtain ⟨heff, hdue, hin, hout⟩ := Tbl.loaded_from f (entriesOf size n buf) x first 0
  have hlen : (entriesOf size n buf).length = n := by simp [entriesOf]
  rw [hlen] at hin hout
  refine ⟨heff, hdue, fun i hi => (hin i hi).trans ?_, hout⟩
  have hget : (entriesOf size n buf).getD i [] = bytesAt buf (size * i) size := by simp [entriesOf, List.getD, hi]
  exact congrArg (fun e => some (f e)) hget

/-! ### Commands that change one part (R416) -/

/-- A plain command whose body changes one part and the marks of poisoned items, and no register. -/
theorem Starts.answersPart {op plen st : Nat} {ok : Bool} {mine : List Byte → Bool} {body : List Byte → State → CmdRes} {res : List Byte}
    (hs : Starts s r op plen ok b) (he : exec c s = .next (s.plain r op plen ok mine body).drain) (hm : mine b = true)
    (hb : body b (s.popHead r) = ⟨st, res, u⟩) (hf : Frame [q, .ecc] noRegs (s.popHead r) u) (hq : q ∉ [Part.cmd, .out, .irq])
    (hP : ∀ t, q.same u t → P t) : Answers c s r b st res [q, .ecc] [] P := by
  simp only [List.mem_cons, List.not_mem_nil, or_false, not_or] at hq
  obtain ⟨hqc, hqo, hqi⟩ := hq
  have hc : u.cmd = (s.popHead r).cmd := hf.parts .cmd (by simp [Ne.symm hqc])
  have ho : u.out = (s.popHead r).out := hf.parts .out (by simp [Ne.symm hqo])
  have hi : Part.irq ∉ [q, .ecc] := by simp [Ne.symm hqi]
  have hf' : Frame [.cmd, q, .ecc] (regsIn []) s u :=
    ((Frame.refl _ _ s).popHead (by simp)).trans (hf.mono (fun _ h => List.mem_cons_of_mem _ h) fun _ _ => rfl)
  have hn : u.NoneLate := hs.late.frame hf' (by simp [Ne.symm hqi]) (by rw [hc, State.popHead_late])
  refine Answers.of hs he hm hb hf' hc (fun _ _ => rfl) hi (by rw [ho, State.popHead_out]) (hP _ ?_)
  exact q.same_trans (State.reply_part hn _ _ _ q hqc hqo) ((Frame.refl [] noRegs _).drain.parts q (by simp))

/-- A command that only answers its packet fails. -/
theorem Fails.of_reply {st : Nat} {res : List Byte} (hn : s.NoneLate) (he : exec c s = .next ((s.popHead r).reply r b st 0 res).drain) :
    Fails c s r b st res := by
  have hf : Frame [.cmd] noRegs s (s.popHead r) := (Frame.refl _ _ s).popHead (by simp)
  have hn' : (s.popHead r).NoneLate := hn.frame hf (by simp) State.popHead_late
  refine ⟨_, he, ?_, ?_, trivial, ?_⟩
  · exact Answered.of hf hn (fun _ _ => rfl) (by simp) State.popHead_late (by simp) st 0 res
  · rw [State.drain_cmd, State.reply_cmd hn']
  · exact ((hf.mono (by simp) fun _ _ => rfl).reply (by simp) (by simp) (by simp [regsIn]) hn' st 0 res).drain

/-! ### Stepped table loads (R412, R414) -/

/-- How a first step that wrote n of `count` entries ends. -/
def loadOutcome (n count : Nat) (u : State) : StepRes := if n < count then .more [n] u else .final St.ok [] u

/-- Command c, for packet b at the head of ring r, starts as a stepped load of n entries, and P holds of the next state. -/
def Steps (c : Instr) (s : State) (r : Fn) (b : List Byte) (op n : Nat) (ps : List Part) (P : State → Prop) : Prop :=
  ∃ t, exec c s = .next t ∧ P t ∧
    (n ≤ 1024 → Answered r b St.ok 1 [] s t ∧ t.cmd = { (s.popHead r).cmd with late := t.cmd.late }) ∧
    (1024 < n → Answered r b St.stepping 1 [] s t ∧ pkOp b = op ∧
      t.cmd = { (s.popHead r).cmd with fly := s.cmd.fly ++ [⟨r, b, 1, false, false, [1024], none⟩], late := t.cmd.late }) ∧
    Frame ([.cmd, .out, .ecc] ++ ps) (regsIn (steppedRegs r)) s t

theorem Steps.imp {op n : Nat} {ps : List Part} {Q : State → Prop} (h : Steps c s r b op n ps P) (hPQ : ∀ t, P t → Q t) : Steps c s r b op n ps Q := by
  obtain ⟨t, hx, hP, hlast, hmore, hf⟩ := h
  exact ⟨t, hx, hPQ t hP, hlast, hmore, hf⟩

section steppedLoad
variable {op plen : Nat} {check : List Byte → State → Option Nat} {step : List Byte → List Nat → State → StepRes}
variable (hs : Starts s r op plen false b) (hroom : roomOps.contains op = true)
variable (he : exec c s = (s.stepped r op plen check (fun _ => [0]) step).done)
include hs hroom he

theorem Starts.steppedLoad_bad {st : Nat}
    (hb : (check b (s.popHead r)).or (if s.cmd.fly.any fun f => pkOp f.bytes == op then some St.busy else none) = some st) :
    Fails c s r b st [] := by
  rcases Option.or_eq_some_iff.mp hb with hc | ⟨hc, hbusy⟩
  · exact .of_reply hs.late (he.trans (congrArg State.done (State.stepped_bad hs hroom hc)))
  · obtain ⟨hf, hst⟩ := Option.ite_none_right_eq_some.mp hbusy
    cases hst
    exact .of_reply hs.late (he.trans (congrArg State.done (State.stepped_second hs hroom hc hf)))

variable (hb : (check b (s.popHead r)).or (if s.cmd.fly.any fun f => pkOp f.bytes == op then some St.busy else none) = none)
include hb

theorem Starts.steppedLoad_fails {st : Nat} {res : List Byte} (hst : st ≠ St.ok) (hx : step b [0] (s.popHead r) = .final st res (s.popHead r)) :
    Fails c s r b st res := by
  obtain ⟨hc, hf⟩ := Option.or_eq_none_iff.mp hb
  have hreply := State.stepped_final (prog0 := fun _ => [0]) hs hroom hc (by simpa using hf) hx
  rw [stepsDone, if_neg (by simpa using hst)] at hreply
  exact .of_reply hs.late (he.trans (congrArg State.done hreply))

theorem Starts.steppedLoad_steps {n : Nat} (hx : step b [0] (s.popHead r) = loadOutcome (min 1024 n) n u)
    (hu : Frame [q, .ecc] noRegs (s.popHead r) u) (hq : q ∈ [Part.ang, .isl]) (hP : ∀ t, q.same u t → P t) : Steps c s r b op n [q] P := by
  obtain ⟨hc, hf⟩ := Option.or_eq_none_iff.mp hb
  have hfly : (s.cmd.fly.any fun f => pkOp f.bytes == op) = false := by simpa using hf
  have hmem : ∀ p ∈ [Part.cmd, q, .ecc], p ∈ stepParts ∧ p ∈ [Part.cmd, .out, .ecc] ++ [q] := by
    intro p hp
    simp only [List.mem_cons, List.not_mem_nil, or_false] at hp hq
    rcases hp with rfl | rfl | rfl
    · simp [stepParts]
    · rcases hq with rfl | rfl <;> simp [stepParts]
    · simp [stepParts]
  have hne : Part.cmd ≠ q ∧ Part.irq ≠ q ∧ q ∉ [Part.cmd, .out] := by
    simp only [List.mem_cons, List.not_mem_nil, or_false] at hq
    rcases hq with rfl | rfl <;> decide
  obtain ⟨hqc, hqi, hqr⟩ := hne
  have hpop : Frame [.cmd, q, .ecc] noRegs s u :=
    ((Frame.refl _ _ s).popHead (by simp)).trans (hu.mono (fun _ h => List.mem_cons_of_mem _ h) fun _ _ => rfl)
  have hcmd : u.cmd = (s.popHead r).cmd := hu.parts .cmd (by simp [hqc])
  have hlate : u.cmd.late = s.cmd.late := by rw [hcmd, State.popHead_late]
  have hn : u.NoneLate := hs.late.frame hpop (by simp [hqi]) hlate
  have hreply (st : Nat) : Frame [.cmd, .out] (regsIn (steppedRegs r)) u (u.reply r b st 1 []) :=
    (Frame.refl _ _ u).reply (by simp) (by simp) (by simp [regsIn, steppedRegs]) hn _ _ _
  have hans (st : Nat) : Answered r b st 1 [] s (u.reply r b st 1 []).drain :=
    (hpop.mono (fun p hp => (hmem p hp).1) fun _ h => h).answered hs.late (fun _ _ => rfl) hlate st 1 []
  have hrest {t : State} (h : Frame [.cmd, .out] (regsIn (steppedRegs r)) u t) :
      P t ∧ Frame ([.cmd, .out, .ecc] ++ [q]) (regsIn (steppedRegs r)) s t :=
    ⟨hP t (h.parts q hqr), (hpop.mono (fun p hp => (hmem p hp).2) fun _ _ => rfl).trans (h.mono (by simp) fun _ h => h)⟩
  rcases Nat.lt_or_ge 1024 n with hmore | hlast
  · rw [Nat.min_eq_left (Nat.le_of_lt hmore), loadOutcome, if_pos hmore] at hx
    have hstep := State.stepped_more (prog0 := fun _ => [0]) hs hroom hc hfly hx
    obtain ⟨hPt, hfr⟩ := hrest (((hreply St.stepping).put_cmd (by simp) _).flySync (by simp [regsIn, steppedRegs]) (by simp [regsIn, steppedRegs])).drain
    refine ⟨_, he.trans (congrArg State.done hstep), hPt, fun h => absurd hmore (Nat.not_lt.mpr h), fun _ => ⟨(hans _).sync _ rfl, hs.op, ?_⟩, hfr⟩
    rw [State.drain_cmd, ← State.popHead_fly (s := s) (r := r), ← hcmd]
    exact congrArg (fun c : Cmd => { c with fly := c.fly ++ [Fly.mk r b 1 false false [1024] none] }) (State.reply_cmd hn _ _ _)
  · rw [Nat.min_eq_right hlast, loadOutcome, if_neg (Nat.lt_irrefl n)] at hx
    have hstep := State.stepped_final (prog0 := fun _ => [0]) hs hroom hc hfly hx
    obtain ⟨hPt, hfr⟩ := hrest (hreply St.ok).drain
    refine ⟨_, he.trans (congrArg State.done hstep), hPt, fun _ => ⟨hans _, ?_⟩, fun h => absurd h (Nat.not_lt.mpr hlast), hfr⟩
    rw [State.drain_cmd, ← hcmd]
    exact State.reply_cmd hn _ _ _

end steppedLoad

end Sys2Proof.Machine
end

section
namespace Sys2Proof.Machine

variable {s t u : State} {r : Fn} {b : List Byte} {q : Part} {P : State → Prop} {h : HostRead}

/-! ### Plain commands that read a host buffer (R416) -/

section reads
variable {cmd : HostRead → Instr} {op plen st : Nat} {ok : Bool} {body : HostRead → List Byte → State → CmdRes} {l : List (Bool × Nat)}
variable (hs : Starts s r op plen ok b) (he : ∀ h, exec (cmd h) s = (s.plain r op plen ok (fun _ => true) (body h)).done)
include hs he

theorem Starts.reads_bad {k : CmdRes} (hbody : body h b (s.popHead r) = checked l (s.popHead r) k) (hb : firstFail l = some st) :
    Fails (cmd h) s r b st [] :=
  hs.answers (he h) rfl (hbody.trans (checked_fail hb))

variable {k : List Byte → CmdRes} (hbody : ∀ h, body h b (s.popHead r) = checked l (s.popHead r) (withBuf h (s.popHead r) k))
variable (hb : firstFail l = none)
include hbody hb

theorem Starts.reads_status : Fails (cmd .poison) s r b St.poison [] ∧ Fails (cmd .timeout) s r b St.timeout [] :=
  ⟨hs.answers (he _) rfl ((hbody _).trans (checked_pass hb)), hs.answers (he _) rfl ((hbody _).trans (checked_pass hb))⟩

variable {buf : List Byte}

theorem Starts.reads_fails {res : List Byte} (hk : k buf = ⟨st, res, s.popHead r⟩) : Fails (cmd (.data buf)) s r b st res :=
  hs.answers (he _) rfl ((hbody _).trans ((checked_pass hb).trans hk))

theorem Starts.reads_writes (hk : k buf = ⟨St.ok, [], u⟩) (hf : Frame [q, .ecc] noRegs (s.popHead r) u) (hq : q ∉ [Part.cmd, .out, .irq])
    (hP : ∀ t, q.same u t → P t) : Answers (cmd (.data buf)) s r b St.ok [] [q, .ecc] [] P :=
  hs.answersPart (he _) rfl ((hbody _).trans ((checked_pass hb).trans hk)) hf hq hP

end reads

/-- Where an entry is out of range its index is answered, else the load goes on. -/
def entryRes (bad : Option Nat) (first : Nat) (s : State) (k : CmdRes) : CmdRes :=
  match bad with
  | some i => ⟨St.badParam, toLe 2 (first + i), s⟩
  | none => k

/-! ### LIMITS_LOAD (R166) -/

/-- Rules written into the shadow. -/
def State.limitsPut (s : State) (first : Nat) (es : List (List Byte)) : State :=
  ({ s with ang := { s.ang with limits := s.ang.limits.load first limitOf es } } : State).healAll 3 ((List.range es.length).map fun i => first + i)

theorem State.limitsPut_ang (s : State) (first : Nat) (es : List (List Byte)) :
    (s.limitsPut first es).ang = { s.ang with limits := s.ang.limits.load first limitOf es } :=
  State.healAll_part (q := .ang) _ _ _ (by decide)

theorem State.limitsPut_frame (s : State) (first : Nat) (es : List (List Byte)) : Frame [.ang, .ecc] noRegs s (s.limitsPut first es) :=
  ((Frame.refl _ _ s).put_ang (by simp) _).healAll (by simp) _ _

/-- What LIMITS_LOAD does with the buffer. -/
def limitsStages (s : State) (b buf : List Byte) : CmdRes :=
  entryRes (firstBad limitOk (entriesOf 32 (le b 18 2) buf)) (le b 16 2) s ⟨St.ok, [], s.limitsPut (le b 16 2) (entriesOf 32 (le b 18 2) buf)⟩

theorem limitsLoadBody_eq (s : State) (h : HostRead) : limitsLoadBody h b (s.popHead r) =
    checked (loadParams b 1024 32768 ++ [(s.cmd.prep.isSome, St.busy)]) (s.popHead r)
      (withBuf h (s.popHead r) (limitsStages (s.popHead r) b)) := by
  rw [limitsLoadBody, State.popHead_prep]
  rfl

theorem limitsStages_bad {buf : List Byte} {i : Nat} (hi : firstBad limitOk (entriesOf 32 (le b 18 2) buf) = some i) :
    limitsStages s b buf = ⟨St.badParam, toLe 2 (le b 16 2 + i), s⟩ := by
  rw [limitsStages, hi]; rfl

theorem limitsStages_ok {buf : List Byte} (hi : firstBad limitOk (entriesOf 32 (le b 18 2) buf) = none) :
    limitsStages s b buf = ⟨St.ok, [], s.limitsPut (le b 16 2) (entriesOf 32 (le b 18 2) buf)⟩ := by
  rw [limitsStages, hi]; rfl

/-- The rules of the buffer are in the shadow, and no others changed. -/
def LimitsLoaded (s : State) (b buf : List Byte) (t : State) : Prop :=
  t.ang = { s.ang with limits := t.ang.limits } ∧
    Tbl.Loaded (le b 16 2) (le b 18 2) (fun i => limitOf (bytesAt buf (32 * i) 32)) s.ang.limits t.ang.limits

theorem Starts.limitsLoad_loads {buf : List Byte} (hs : Starts s r 0x29 24 false b)
    (hb : firstFail (loadParams b 1024 32768 ++ [(s.cmd.prep.isSome, St.busy)]) = none)
    (hi : firstBad limitOk (entriesOf 32 (le b 18 2) buf) = none) :
    Answers (.limitsLoad r (.data buf)) s r b St.ok [] [.ang, .ecc] [] (LimitsLoaded s b buf) := by
  refine hs.reads_writes (cmd := .limitsLoad r) (fun _ => rfl) (limitsLoadBody_eq s) hb (limitsStages_ok hi) (State.limitsPut_frame _ _ _)
    (by decide) fun t ht => ?_
  have hang : t.ang = _ := ht.trans (State.limitsPut_ang _ _ _)
  rw [State.popHead_ang] at hang
  rw [LimitsLoaded, hang]
  exact ⟨rfl, s.ang.limits.load_loaded _ _ _ _ _⟩

end Sys2Proof.Machine
end

section
namespace Sys2Proof.Machine

variable {s t u : State} {r : Fn} {b buf : List Byte} {h : HostRead}

/-- Where an entry is out of range a step ends with its index, else it goes on. -/
def entryStep (bad : Option Nat) (first : Nat) (s : State) (k : StepRes) : StepRes :=
  match bad with
  | some i => .final St.badParam (toLe 2 (first + i)) s
  | none => k

/-! ### ANGLE_PAIRS_LOAD (R166) -/

/-- Pairs written into the shadow. -/
def State.pairsPut (s : State) (first : Nat) (es : List (List Byte)) : State :=
  ({ s with ang := { s.ang with pairs := s.ang.pairs.load first pairOfBytes es } } : State).healAll 4 ((List.range es.length).map fun i => first + i)

theorem State.pairsPut_ang (s : State) (first : Nat) (es : List (List Byte)) :
    (s.pairsPut first es).ang = { s.ang with pairs := s.ang.pairs.load first pairOfBytes es } :=
  State.healAll_part (q := .ang) _ _ _ (by decide)

theorem State.pairsPut_frame (s : State) (first : Nat) (es : List (List Byte)) : Frame [.ang, .ecc] noRegs s (s.pairsPut first es) :=
  ((Frame.refl _ _ s).put_ang (by simp) _).healAll (by simp) _ _

/-- The entries of the first step. -/
def firstEntries (size : Nat) (b buf : List Byte) : List (List Byte) := entriesOf size (min 1024 (le b 18 2)) buf

theorem anglePairsStep_data (s : State) : anglePairsStep (.data buf) b [0] s =
    entryStep (firstBad pairOk (firstEntries 32 b buf)) (le b 16 2) s
      (loadOutcome (min 1024 (le b 18 2)) (le b 18 2) (s.pairsPut (le b 16 2) (firstEntries 32 b buf))) := by
  unfold anglePairsStep entryStep loadOutcome
  simp only [hostStatus, hostBytes, List.getElem?_cons_zero, Option.getD_some, Nat.zero_add]
  rfl

theorem anglePairsStart_eq :
    firstFail (loadParams b 16384 16384 ++ [(s.cmd.prep.isSome, St.busy), (s.cmd.fly.any fun f => pkOp f.bytes == 0x28, St.busy)]) =
    (anglePairsCheck b (s.popHead r)).or (if s.cmd.fly.any fun f => pkOp f.bytes == 0x28 then some St.busy else none) := by
  rw [anglePairsCheck, State.popHead_prep]
  exact firstFail_concat (loadParams b 16384 16384 ++ [(s.cmd.prep.isSome, St.busy)]) _ _

/-- The first step's pairs are in the shadow, and no others changed. -/
def PairsLoaded (s : State) (b buf : List Byte) (t : State) : Prop :=
  t.ang = { s.ang with pairs := t.ang.pairs } ∧
    Tbl.Loaded (le b 16 2) (min 1024 (le b 18 2)) (fun i => pairOfBytes (bytesAt buf (32 * i) 32)) s.ang.pairs t.ang.pairs

theorem exec_anglePairsLoad (s : State) : exec (.anglePairsLoad r h) s =
    (s.stepped r 0x28 24 anglePairsCheck (fun _ => [0]) (anglePairsStep h)).done := rfl

section anglePairsLoad
variable (hs : Starts s r 0x28 24 false b)
include hs

theorem Starts.anglePairsLoad_bad {st : Nat}
    (hb : (anglePairsCheck b (s.popHead r)).or (if s.cmd.fly.any fun f => pkOp f.bytes == 0x28 then some St.busy else none) = some st) :
    Fails (.anglePairsLoad r h) s r b st [] :=
  hs.steppedLoad_bad rfl (exec_anglePairsLoad s) hb

variable (hb : (anglePairsCheck b (s.popHead r)).or (if s.cmd.fly.any fun f => pkOp f.bytes == 0x28 then some St.busy else none) = none)
include hb

theorem Starts.anglePairsLoad_status : Fails (.anglePairsLoad r .poison) s r b St.poison [] ∧ Fails (.anglePairsLoad r .timeout) s r b St.timeout [] :=
  ⟨hs.steppedLoad_fails rfl (exec_anglePairsLoad s) hb (by decide) rfl, hs.steppedLoad_fails rfl (exec_anglePairsLoad s) hb (by decide) rfl⟩

theorem Starts.anglePairsLoad_entry {i : Nat} (hi : firstBad pairOk (firstEntries 32 b buf) = some i) :
    Fails (.anglePairsLoad r (.data buf)) s r b St.badParam (toLe 2 (le b 16 2 + i)) :=
  hs.steppedLoad_fails rfl (exec_anglePairsLoad s) hb (by decide) (by rw [anglePairsStep_data, hi]; rfl)

theorem Starts.anglePairsLoad_steps (hi : firstBad pairOk (firstEntries 32 b buf) = none) :
    Steps (.anglePairsLoad r (.data buf)) s r b 0x28 (le b 18 2) [.ang] (PairsLoaded s b buf) := by
  refine hs.steppedLoad_steps rfl (exec_anglePairsLoad s) hb (by rw [anglePairsStep_data, hi]; rfl) (State.pairsPut_frame _ (le b 16 2) (firstEntries 32 b buf)) (by decide)
    fun t ht => ?_
  have hang : t.ang = _ := ht.trans (State.pairsPut_ang _ _ _)
  rw [State.popHead_ang] at hang
  rw [PairsLoaded, hang]
  exact ⟨rfl, s.ang.pairs.load_loaded _ _ _ _ _⟩

end anglePairsLoad

/-! ### TOPO_LOAD (R202) -/

/-- Nodes written into the shadow. -/
def State.nodesPut (s : State) (first : Nat) (es : List (List Byte)) : State :=
  (s.modIsl fun x => { x with nodes := x.nodes.load first nodeOf es }).healAll 5 ((List.range es.length).map fun i => first + i)

/-- Edges written into the shadow. -/
def State.edgesPut (s : State) (first : Nat) (es : List (List Byte)) : State :=
  (s.modIsl fun x => { x with edges := x.edges.load first edgeOf es }).healAll 6 ((List.range es.length).map fun i => first + i)

theorem State.nodesPut_isl (s : State) (first : Nat) (es : List (List Byte)) :
    (s.nodesPut first es).isl = { s.isl with nodes := s.isl.nodes.load first nodeOf es } :=
  State.healAll_part (q := .isl) _ _ _ (by decide)

theorem State.edgesPut_isl (s : State) (first : Nat) (es : List (List Byte)) :
    (s.edgesPut first es).isl = { s.isl with edges := s.isl.edges.load first edgeOf es } :=
  State.healAll_part (q := .isl) _ _ _ (by decide)

theorem State.nodesPut_frame (s : State) (first : Nat) (es : List (List Byte)) : Frame [.isl, .ecc] noRegs s (s.nodesPut first es) :=
  ((Frame.refl _ _ s).put_isl (by simp) _).healAll (by simp) _ _

theorem State.edgesPut_frame (s : State) (first : Nat) (es : List (List Byte)) : Frame [.isl, .ecc] noRegs s (s.edgesPut first es) :=
  ((Frame.refl _ _ s).put_isl (by simp) _).healAll (by simp) _ _

theorem topoLoadStep_nodes (s : State) (hn : le b 20 1 = 0) : topoLoadStep (.data buf) b [0] s =
    entryStep (firstBad nodeOk (firstEntries 8 b buf)) (le b 16 2) s
      (loadOutcome (min 1024 (le b 18 2)) (le b 18 2) (s.nodesPut (le b 16 2) (firstEntries 8 b buf))) := by
  unfold topoLoadStep entryStep loadOutcome
  simp only [hostStatus, hostBytes, List.getElem?_cons_zero, Option.getD_some, Nat.zero_add, hn]
  rfl

theorem topoLoadStep_edges (s : State) (hn : le b 20 1 = 1) : topoLoadStep (.data buf) b [0] s =
    entryStep (firstBad edgeOk (firstEntries 24 b buf)) (le b 16 2) s
      (loadOutcome (min 1024 (le b 18 2)) (le b 18 2) (s.edgesPut (le b 16 2) (firstEntries 24 b buf))) := by
  unfold topoLoadStep entryStep loadOutcome
  simp only [hostStatus, hostBytes, List.getElem?_cons_zero, Option.getD_some, Nat.zero_add, hn]
  rfl

@[simp] theorem topoLoadCheck_popHead : topoLoadCheck b (s.popHead r) = topoLoadCheck b s := by
  rw [topoLoadCheck, State.popHead_prep, topoLoadCheck]

/-- The first step's nodes are in the shadow, and no others changed. -/
def NodesLoaded (s : State) (b buf : List Byte) (t : State) : Prop :=
  t.isl = { s.isl with nodes := t.isl.nodes } ∧
    Tbl.Loaded (le b 16 2) (min 1024 (le b 18 2)) (fun i => nodeOf (bytesAt buf (8 * i) 8)) s.isl.nodes t.isl.nodes

/-- The first step's edges are in the shadow, and no others changed. -/
def EdgesLoaded (s : State) (b buf : List Byte) (t : State) : Prop :=
  t.isl = { s.isl with edges := t.isl.edges } ∧
    Tbl.Loaded (le b 16 2) (min 1024 (le b 18 2)) (fun i => edgeOf (bytesAt buf (24 * i) 24)) s.isl.edges t.isl.edges

theorem exec_topoLoad (s : State) : exec (.topoLoad r h) s =
    (s.stepped r 0x30 24 topoLoadCheck (fun _ => [0]) (topoLoadStep h)).done := rfl

section topoLoad
variable (hs : Starts s r 0x30 24 false b)
include hs

theorem Starts.topoLoad_bad {st : Nat}
    (hb : (topoLoadCheck b s).or (if s.cmd.fly.any fun f => pkOp f.bytes == 0x30 then some St.busy else none) = some st) :
    Fails (.topoLoad r h) s r b st [] :=
  hs.steppedLoad_bad rfl (exec_topoLoad s) (by simpa only [topoLoadCheck_popHead] using hb)

variable (hb : (topoLoadCheck b s).or (if s.cmd.fly.any fun f => pkOp f.bytes == 0x30 then some St.busy else none) = none)
include hb

theorem Starts.topoLoad_fails {st : Nat} {res : List Byte} (hst : st ≠ St.ok) (hx : topoLoadStep h b [0] (s.popHead r) = .final st res (s.popHead r)) :
    Fails (.topoLoad r h) s r b st res :=
  hs.steppedLoad_fails rfl (exec_topoLoad s) (by simpa only [topoLoadCheck_popHead] using hb) hst hx

theorem Starts.topoLoad_node (hn : le b 20 1 = 0) {i : Nat} (hi : firstBad nodeOk (firstEntries 8 b buf) = some i) :
    Fails (.topoLoad r (.data buf)) s r b St.badParam (toLe 2 (le b 16 2 + i)) :=
  hs.topoLoad_fails hb (by decide) (by rw [topoLoadStep_nodes _ hn, hi]; rfl)

theorem Starts.topoLoad_edge (hn : le b 20 1 = 1) {i : Nat} (hi : firstBad edgeOk (firstEntries 24 b buf) = some i) :
    Fails (.topoLoad r (.data buf)) s r b St.badParam (toLe 2 (le b 16 2 + i)) :=
  hs.topoLoad_fails hb (by decide) (by rw [topoLoadStep_edges _ hn, hi]; rfl)

theorem Starts.topoLoad_nodes (hn : le b 20 1 = 0) (hi : firstBad nodeOk (firstEntries 8 b buf) = none) :
    Steps (.topoLoad r (.data buf)) s r b 0x30 (le b 18 2) [.isl] (NodesLoaded s b buf) := by
  refine hs.steppedLoad_steps rfl (exec_topoLoad s) (by simpa only [topoLoadCheck_popHead] using hb) (by rw [topoLoadStep_nodes _ hn, hi]; rfl)
    (State.nodesPut_frame _ (le b 16 2) (firstEntries 8 b buf)) (by decide) fun t ht => ?_
  have hisl : t.isl = _ := ht.trans (State.nodesPut_isl _ _ _)
  rw [State.popHead_isl] at hisl
  rw [NodesLoaded, hisl]
  exact ⟨rfl, s.isl.nodes.load_loaded _ _ _ _ _⟩

theorem Starts.topoLoad_edges (hn : le b 20 1 = 1) (hi : firstBad edgeOk (firstEntries 24 b buf) = none) :
    Steps (.topoLoad r (.data buf)) s r b 0x30 (le b 18 2) [.isl] (EdgesLoaded s b buf) := by
  refine hs.steppedLoad_steps rfl (exec_topoLoad s) (by simpa only [topoLoadCheck_popHead] using hb) (by rw [topoLoadStep_edges _ hn, hi]; rfl)
    (State.edgesPut_frame _ (le b 16 2) (firstEntries 24 b buf)) (by decide) fun t ht => ?_
  have hisl : t.isl = _ := ht.trans (State.edgesPut_isl _ _ _)
  rw [State.popHead_isl] at hisl
  rw [EdgesLoaded, hisl]
  exact ⟨rfl, s.isl.edges.load_loaded _ _ _ _ _⟩

end topoLoad

end Sys2Proof.Machine
end

section
namespace Sys2Proof.Machine

variable {s t u : State} {r : Fn} {b buf : List Byte} {h : HostRead}

/-! ### PARTITION_EXPECT (R195) -/

/-- The expected partition written into the shadow. -/
def State.expectPut (s : State) (x : Expect) : State := (s.modIsl fun i => { i with expect := i.expect.put 0 x }).healAll 7 [0]

theorem State.expectPut_isl (s : State) (x : Expect) : (s.expectPut x).isl = { s.isl with expect := s.isl.expect.put 0 x } :=
  State.healAll_part (q := .isl) _ _ _ (by decide)

theorem State.expectPut_frame (s : State) (x : Expect) : Frame [.isl, .ecc] noRegs s (s.expectPut x) :=
  ((Frame.refl _ _ s).put_isl (by simp) _).healAll (by simp) _ _

/-- The checks of PARTITION_EXPECT, the last that the reported partition fits. -/
def partitionChecks (s : State) (b : List Byte) : List (Bool × Nat) :=
  [(decide (1 < le b 16 1), St.badParam), (le b 16 1 == 0 && le b 8 8 % 8 != 0, St.badParam), (le b 16 1 == 1 && le b 8 8 != 0, St.badParam),
    (!zeroAt b 17 7, St.badParam), (le b 16 1 == 1 && !s.flag F.ISL_CTRL_EN, St.state), (s.cmd.prep.isSome, St.busy),
    (le b 16 1 == 1 && decide (127 < (islandIds s.isl.part).length), St.noResource)]

/-- What MODE 0 does with the host's image. -/
def expectStages (s : State) (buf : List Byte) : CmdRes :=
  if expectOk buf then ⟨St.ok, [], s.expectPut (expectOf buf)⟩ else ⟨St.badParam, [], s⟩

/-- The reported partition as the expected one. -/
def State.reportedExpect (s : State) : Expect := expectFrom (mgetD s.isl.expect.shadow 0 Expect.reset) s.isl.part

theorem partitionExpectBody_eq (s : State) (h : HostRead) : partitionExpectBody h b (s.popHead r) =
    checked (partitionChecks s b) (s.popHead r) (if le b 16 1 == 0 then withBuf h (s.popHead r) (expectStages (s.popHead r))
      else ⟨St.ok, [], (s.popHead r).expectPut s.reportedExpect⟩) := by
  have hlast := checked_concat [(decide (1 < le b 16 1), St.badParam), (le b 16 1 == 0 && le b 8 8 % 8 != 0, St.badParam),
    (le b 16 1 == 1 && le b 8 8 != 0, St.badParam), (!zeroAt b 17 7, St.badParam), (le b 16 1 == 1 && !s.flag F.ISL_CTRL_EN, St.state),
    (s.cmd.prep.isSome, St.busy)] (le b 16 1 == 1 && decide (127 < (islandIds s.isl.part).length)) St.noResource (s.popHead r)
    (if le b 16 1 == 0 then withBuf h (s.popHead r) (expectStages (s.popHead r)) else ⟨St.ok, [], (s.popHead r).expectPut s.reportedExpect⟩)
  refine Eq.trans ?_ hlast.symm
  unfold partitionExpectBody
  simp only [State.popHead_flag, State.popHead_prep, State.popHead_isl]
  generalize le b 16 1 = mode
  match mode with
  | 0 => rfl
  | 1 =>
    cases decide (127 < (islandIds s.isl.part).length) <;> rfl
  | _ + 2 => simp [checked, firstFail]

section partitionExpect
variable (hs : Starts s r 0x31 24 false b)
include hs

theorem Starts.partitionExpect_bad {st : Nat} (hb : firstFail (partitionChecks s b) = some st) : Fails (.partitionExpect r h) s r b st [] :=
  hs.reads_bad (cmd := .partitionExpect r) (fun _ => rfl) (partitionExpectBody_eq s h) hb

variable (hb : firstFail (partitionChecks s b) = none)
include hb

theorem Starts.partitionExpect_reported (hm : le b 16 1 = 1) : Answers (.partitionExpect r h) s r b St.ok [] [.isl, .ecc] [] fun t =>
    t.isl = { s.isl with expect := s.isl.expect.put 0 s.reportedExpect } := by
  have hbody := (partitionExpectBody_eq (r := r) (b := b) s h).trans (checked_pass hb)
  rw [hm] at hbody
  refine hs.answersPart (mine := fun _ => true) rfl rfl hbody (State.expectPut_frame _ s.reportedExpect) (by decide) fun t ht => ?_
  have hisl : t.isl = _ := ht.trans (State.expectPut_isl _ _)
  rw [hisl, State.popHead_isl]

variable (hm : le b 16 1 = 0)
include hm

omit hs hb in
theorem partitionExpectBody_image (h : HostRead) : partitionExpectBody h b (s.popHead r) =
    checked (partitionChecks s b) (s.popHead r) (withBuf h (s.popHead r) (expectStages (s.popHead r))) := by
  rw [partitionExpectBody_eq, hm]
  rfl

theorem Starts.partitionExpect_status : Fails (.partitionExpect r .poison) s r b St.poison [] ∧ Fails (.partitionExpect r .timeout) s r b St.timeout [] :=
  hs.reads_status (cmd := .partitionExpect r) (fun _ => rfl) (partitionExpectBody_image hm) hb

theorem Starts.partitionExpect_wrong (hx : expectOk buf = false) : Fails (.partitionExpect r (.data buf)) s r b St.badParam [] :=
  hs.reads_fails (cmd := .partitionExpect r) (fun _ => rfl) (partitionExpectBody_image hm) hb (by rw [expectStages, hx]; rfl)

theorem Starts.partitionExpect_image (hx : expectOk buf = true) : Answers (.partitionExpect r (.data buf)) s r b St.ok [] [.isl, .ecc] [] fun t =>
    t.isl = { s.isl with expect := s.isl.expect.put 0 (expectOf buf) } := by
  refine hs.reads_writes (cmd := .partitionExpect r) (fun _ => rfl) (partitionExpectBody_image hm) hb (if_pos hx)
    (State.expectPut_frame _ (expectOf buf)) (by decide) fun t ht => ?_
  have hisl : t.isl = _ := ht.trans (State.expectPut_isl _ _)
  rw [hisl, State.popHead_isl]

end partitionExpect

/-! ### EV_ISL_NODE_LOST (R197) -/

/-- Has node v been absent long enough, and is not yet reported. -/
def State.nodeLostDue (s : State) (v : Nat) : Bool :=
  s.get F.ISL_LOST_N != 0 && decide (s.get F.ISL_LOST_N ≤ mgetD s.isl.absent v 0) && !smem s.isl.lost v

theorem State.evIslNodeLost_reports {v : Nat} (hd : s.nodeLostDue v = true) :
    Does (.evIslNodeLost v) s [.isl] noRegs fun t => t.isl = { s.isl with lost := sadd s.isl.lost v } ∧ t.pends 45 := by
  have hlog : Frame [] noRegs (s.modIsl fun x => { x with lost := sadd x.lost v })
      ((s.modIsl fun x => { x with lost := sadd x.lost v }).ev0 Ev.ISL_NODE_LOST).drain := ((Frame.refl _ _ _).ev0 _).drain
  refine ⟨_, if_pos hd, ⟨hlog.parts .isl (by simp), State.pends_drain (by decide) (State.ev0_pends _ rfl)⟩, ?_⟩
  exact ((Frame.refl _ _ s).put_isl (by simp) _).trans (hlog.mono (by simp) fun _ h => h)

theorem State.evIslNodeLost_idle {v : Nat} (hd : s.nodeLostDue v = false) : Leads (.evIslNodeLost v) s [] noRegs fun u => u = s :=
  Leads.nothing (if_neg (by rw [← State.nodeLostDue, hd]; decide))

/-! ### OSC_SIGNALS (R214, R229) -/

/-- Signals written into the shadow. -/
def State.sigsPut (s : State) (first : Nat) (es : List (List Byte)) : State :=
  (s.modOsc fun x => { x with sigs := x.sigs.load first oscSigOf es }).healAll 8 ((List.range es.length).map fun i => first + i)

/-- Rules of the oscillation engine written into the shadow. -/
def State.oscRulesPut (s : State) (first : Nat) (es : List (List Byte)) : State :=
  (s.modOsc fun x => { x with rules := x.rules.load first oscRuleOf es }).healAll 9 ((List.range es.length).map fun i => first + i)

theorem State.sigsPut_osc (s : State) (first : Nat) (es : List (List Byte)) :
    (s.sigsPut first es).osc = { s.osc with sigs := s.osc.sigs.load first oscSigOf es } :=
  State.healAll_part (q := .osc) _ _ _ (by decide)

theorem State.oscRulesPut_osc (s : State) (first : Nat) (es : List (List Byte)) :
    (s.oscRulesPut first es).osc = { s.osc with rules := s.osc.rules.load first oscRuleOf es } :=
  State.healAll_part (q := .osc) _ _ _ (by decide)

theorem State.sigsPut_frame (s : State) (first : Nat) (es : List (List Byte)) : Frame [.osc, .ecc] noRegs s (s.sigsPut first es) :=
  ((Frame.refl _ _ s).put_osc (by simp) _).healAll (by simp) _ _

theorem State.oscRulesPut_frame (s : State) (first : Nat) (es : List (List Byte)) : Frame [.osc, .ecc] noRegs s (s.oscRulesPut first es) :=
  ((Frame.refl _ _ s).put_osc (by simp) _).healAll (by simp) _ _

/-- The checks of OSC_SIGNALS, of tables of n entries. -/
def oscSignalsChecks (s : State) (b : List Byte) (n : Nat) : List (Bool × Nat) :=
  [(le b 8 8 % 8 != 0, St.badParam), (le b 18 2 == 0, St.badLength), (decide (1 < le b 20 1), St.badParam),
    (decide (n < le b 18 2) || decide (n < le b 16 2 + le b 18 2), St.badParam), (!zeroAt b 21 3, St.badParam), (s.cmd.prep.isSome, St.busy)]

/-- The signals tracked once the buffer's are in the table. -/
def Tbl.tracked (x : Tbl OscSig) : Nat := (x.shadow.filter fun q => q.2.track).length

/-- What OSC_SIGNALS does with a buffer of signals. -/
def sigStages (s : State) (b buf : List Byte) : CmdRes :=
  entryRes (firstBad oscSigOk (entriesOf 16 (le b 18 2) buf)) (le b 16 2) s
    (if 64 < (s.osc.sigs.load (le b 16 2) oscSigOf (entriesOf 16 (le b 18 2) buf)).tracked then ⟨St.noResource, [], s⟩
    else ⟨St.ok, [], s.sigsPut (le b 16 2) (entriesOf 16 (le b 18 2) buf)⟩)

/-- What it does with a buffer of rules. -/
def oscRuleStages (s : State) (b buf : List Byte) : CmdRes :=
  entryRes (firstBad oscRuleOk (entriesOf 32 (le b 18 2) buf)) (le b 16 2) s
    ⟨St.ok, [], s.oscRulesPut (le b 16 2) (entriesOf 32 (le b 18 2) buf)⟩

/-- The entries of the table that OSC_SIGNALS loads. -/
def oscTableSize (b : List Byte) : Nat := if le b 20 1 = 1 then 256 else 1024

theorem oscSignalsBody_eq (s : State) (h : HostRead) : oscSignalsBody h b (s.popHead r) =
    checked (oscSignalsChecks s b (oscTableSize b)) (s.popHead r) (withBuf h (s.popHead r)
      (if le b 20 1 = 1 then oscRuleStages (s.popHead r) b else sigStages (s.popHead r) b)) := by
  unfold oscSignalsBody
  rw [State.popHead_prep]
  by_cases hm : le b 20 1 = 1
  · simp only [oscTableSize, oscSignalsChecks, hm, if_true, beq_self_eq_true]
    rfl
  · simp only [oscTableSize, hm, if_false, beq_eq_false_iff_ne.mpr hm, Bool.false_eq_true]
    rfl

/-- The buffer's signals are in the shadow, and no others changed. -/
def SigsLoaded (s : State) (b buf : List Byte) (t : State) : Prop :=
  t.osc = { s.osc with sigs := t.osc.sigs } ∧
    Tbl.Loaded (le b 16 2) (le b 18 2) (fun i => oscSigOf (bytesAt buf (16 * i) 16)) s.osc.sigs t.osc.sigs

/-- The buffer's rules are in the shadow, and no others changed. -/
def OscRulesLoaded (s : State) (b buf : List Byte) (t : State) : Prop :=
  t.osc = { s.osc with rules := t.osc.rules } ∧
    Tbl.Loaded (le b 16 2) (le b 18 2) (fun i => oscRuleOf (bytesAt buf (32 * i) 32)) s.osc.rules t.osc.rules

section oscSignals
variable (hs : Starts s r 0x38 24 false b)
include hs

theorem Starts.oscSignals_bad {st : Nat} (hb : firstFail (oscSignalsChecks s b (oscTableSize b)) = some st) :
    Fails (.oscSignals r h) s r b st [] :=
  hs.reads_bad (cmd := .oscSignals r) (fun _ => rfl) (oscSignalsBody_eq s h) hb

variable (hb : firstFail (oscSignalsChecks s b (oscTableSize b)) = none)
include hb

theorem Starts.oscSignals_status : Fails (.oscSignals r .poison) s r b St.poison [] ∧ Fails (.oscSignals r .timeout) s r b St.timeout [] :=
  hs.reads_status (cmd := .oscSignals r) (fun _ => rfl) (oscSignalsBody_eq s) hb

section rules
variable (hm : le b 20 1 = 1)
include hm

theorem Starts.oscSignals_rule {i : Nat} (hi : firstBad oscRuleOk (entriesOf 32 (le b 18 2) buf) = some i) :
    Fails (.oscSignals r (.data buf)) s r b St.badParam (toLe 2 (le b 16 2 + i)) :=
  hs.reads_fails (cmd := .oscSignals r) (fun _ => rfl) (oscSignalsBody_eq s) hb (by rw [if_pos hm, oscRuleStages, hi]; rfl)

theorem Starts.oscSignals_rules (hi : firstBad oscRuleOk (entriesOf 32 (le b 18 2) buf) = none) :
    Answers (.oscSignals r (.data buf)) s r b St.ok [] [.osc, .ecc] [] (OscRulesLoaded s b buf) := by
  refine hs.reads_writes (cmd := .oscSignals r) (fun _ => rfl) (oscSignalsBody_eq s) hb (by rw [if_pos hm, oscRuleStages, hi]; rfl)
    (State.oscRulesPut_frame _ (le b 16 2) (entriesOf 32 (le b 18 2) buf)) (by decide) fun t ht => ?_
  have hosc : t.osc = _ := ht.trans (State.oscRulesPut_osc _ _ _)
  rw [State.popHead_osc] at hosc
  rw [OscRulesLoaded, hosc]
  exact ⟨rfl, s.osc.rules.load_loaded _ _ _ _ _⟩

end rules

variable (hm : le b 20 1 = 0)
include hm

omit hs hb in
theorem oscSignalsBody_sigs (h : HostRead) : oscSignalsBody h b (s.popHead r) =
    checked (oscSignalsChecks s b (oscTableSize b)) (s.popHead r) (withBuf h (s.popHead r) (sigStages (s.popHead r) b)) := by
  rw [oscSignalsBody_eq, if_neg (by omega)]

theorem Starts.oscSignals_sig {i : Nat} (hi : firstBad oscSigOk (entriesOf 16 (le b 18 2) buf) = some i) :
    Fails (.oscSignals r (.data buf)) s r b St.badParam (toLe 2 (le b 16 2 + i)) :=
  hs.reads_fails (cmd := .oscSignals r) (fun _ => rfl) (oscSignalsBody_sigs hm) hb (by rw [sigStages, hi]; rfl)

variable (hi : firstBad oscSigOk (entriesOf 16 (le b 18 2) buf) = none)
include hi

theorem Starts.oscSignals_many (hn : 64 < (s.osc.sigs.load (le b 16 2) oscSigOf (entriesOf 16 (le b 18 2) buf)).tracked) :
    Fails (.oscSignals r (.data buf)) s r b St.noResource [] := by
  refine hs.reads_fails (cmd := .oscSignals r) (fun _ => rfl) (oscSignalsBody_sigs hm) hb ?_
  rw [sigStages, hi, State.popHead_osc, if_pos hn]
  rfl

theorem Starts.oscSignals_sigs (hn : (s.osc.sigs.load (le b 16 2) oscSigOf (entriesOf 16 (le b 18 2) buf)).tracked ≤ 64) :
    Answers (.oscSignals r (.data buf)) s r b St.ok [] [.osc, .ecc] [] (SigsLoaded s b buf) := by
  have hk : sigStages (s.popHead r) b buf = ⟨St.ok, [], (s.popHead r).sigsPut (le b 16 2) (entriesOf 16 (le b 18 2) buf)⟩ := by
    rw [sigStages, hi, State.popHead_osc, if_neg (Nat.not_lt.mpr hn)]
    rfl
  refine hs.reads_writes (cmd := .oscSignals r) (fun _ => rfl) (oscSignalsBody_sigs hm) hb hk (State.sigsPut_frame _ _ _) (by decide) fun t ht => ?_
  have hosc : t.osc = _ := ht.trans (State.sigsPut_osc _ _ _)
  rw [State.popHead_osc] at hosc
  rw [SigsLoaded, hosc]
  exact ⟨rfl, s.osc.sigs.load_loaded _ _ _ _ _⟩

end oscSignals

/-! ### OSC_BANDS (R209, R229) -/

/-- A placement of the band centres written into the shadow. -/
def State.placePut (s : State) (x : OscPlace) : State := (s.modOsc fun o => { o with place := o.place.put 0 x }).healAll 10 [0]

theorem State.placePut_osc (s : State) (x : OscPlace) : (s.placePut x).osc = { s.osc with place := s.osc.place.put 0 x } :=
  State.healAll_part (q := .osc) _ _ _ (by decide)

theorem State.placePut_frame (s : State) (x : OscPlace) : Frame [.osc, .ecc] noRegs s (s.placePut x) :=
  ((Frame.refl _ _ s).put_osc (by simp) _).healAll (by simp) _ _

/-- The highest centre at the cadence of the shadow. -/
def State.topCentre (s : State) : Nat := f32Round (rateOf s.aln.cadShadow) 4

/-- The checks of OSC_BANDS. -/
def oscBandsChecks (s : State) (b : List Byte) : List (Bool × Nat) :=
  [(decide (2 < le b 8 1), St.badParam), (decide (1 < le b 9 1), St.badParam), (!zeroAt b 10 2, St.badParam),
    (if le b 8 1 == 2 then le b 12 4 != 0 else !f32Le f32Cent (le b 12 4) || decide (fu (le b 16 4) < 2 * fu (le b 12 4)), St.badParam),
    (if le b 8 1 == 2 then le b 16 4 != 0 else !f32Le (le b 16 4) s.topCentre || !f32Le 0 (le b 16 4), St.badParam), (!zeroAt b 20 4, St.badParam),
    (if le b 8 1 == 2 then le b 24 8 % 8 != 0 else le b 24 8 != 0, St.badParam), (s.cmd.prep.isSome, St.busy)]

/-- The centres in a host buffer. -/
def centresOf (buf : List Byte) : List (Nat × Bool) := (entriesOf 8 64 buf).map fun e => (le e 0 4, le e 4 1 == 1)

/-- Are they in range, and do they rise. -/
def State.centresOk (s : State) (buf : List Byte) : Bool :=
  (entriesOf 8 64 buf).all (fun e => f32Le f32Cent (le e 0 4) && f32Le (le e 0 4) s.topCentre && decide (le e 4 1 ≤ 1) && zeroAt e 5 3) &&
    risingF ((centresOf buf).map Prod.fst)

/-- What MODE 2 does with the buffer; `ok` says whether its centres are in range. -/
def centreStages (ok : Bool) (s : State) (b buf : List Byte) : CmdRes :=
  if ok then ⟨St.ok, [], s.placePut ⟨2, bit (le b 9 1) 0, 0, 0, centresOf buf⟩⟩ else ⟨St.badParam, [], s⟩

theorem oscBandsBody_eq (s : State) (h : HostRead) : oscBandsBody h b (s.popHead r) =
    checked (oscBandsChecks s b) (s.popHead r) (if le b 8 1 != 2 then
        ⟨St.ok, [], (s.popHead r).placePut ⟨le b 8 1, bit (le b 9 1) 0, le b 12 4, le b 16 4, []⟩⟩
      else withBuf h (s.popHead r) fun buf => centreStages (s.centresOk buf) (s.popHead r) b buf) := by
  rw [oscBandsBody, State.popHead_prep, State.popHead_aln]
  rfl

section oscBands
variable (hs : Starts s r 0x39 32 false b)
include hs

theorem Starts.oscBands_bad {st : Nat} (hb : firstFail (oscBandsChecks s b) = some st) : Fails (.oscBands r h) s r b st [] :=
  hs.reads_bad (cmd := .oscBands r) (fun _ => rfl) (oscBandsBody_eq s h) hb

variable (hb : firstFail (oscBandsChecks s b) = none)
include hb

theorem Starts.oscBands_range (hm : le b 8 1 ≠ 2) : Answers (.oscBands r h) s r b St.ok [] [.osc, .ecc] [] fun t =>
    t.osc = { s.osc with place := s.osc.place.put 0 ⟨le b 8 1, bit (le b 9 1) 0, le b 12 4, le b 16 4, []⟩ } := by
  have hbody := (oscBandsBody_eq (r := r) (b := b) s h).trans (checked_pass hb)
  rw [if_pos (bne_iff_ne.mpr hm)] at hbody
  refine hs.answersPart (mine := fun _ => true) rfl rfl hbody (State.placePut_frame _ _) (by decide) fun t ht => ?_
  have hosc : t.osc = _ := ht.trans (State.placePut_osc _ _)
  rw [hosc, State.popHead_osc]

variable (hm : le b 8 1 = 2)
include hm

omit hs hb in
theorem oscBandsBody_centres (h : HostRead) : oscBandsBody h b (s.popHead r) =
    checked (oscBandsChecks s b) (s.popHead r) (withBuf h (s.popHead r) fun buf => centreStages (s.centresOk buf) (s.popHead r) b buf) := by
  rw [oscBandsBody_eq, if_neg (by simp [hm])]

theorem Starts.oscBands_status : Fails (.oscBands r .poison) s r b St.poison [] ∧ Fails (.oscBands r .timeout) s r b St.timeout [] :=
  hs.reads_status (cmd := .oscBands r) (fun _ => rfl) (oscBandsBody_centres hm) hb

theorem Starts.oscBands_wrong (hx : s.centresOk buf = false) : Fails (.oscBands r (.data buf)) s r b St.badParam [] :=
  hs.reads_fails (cmd := .oscBands r) (fun _ => rfl) (oscBandsBody_centres hm) hb (by rw [hx]; rfl)

theorem Starts.oscBands_centres (hx : s.centresOk buf = true) : Answers (.oscBands r (.data buf)) s r b St.ok [] [.osc, .ecc] [] fun t =>
    t.osc = { s.osc with place := s.osc.place.put 0 ⟨2, bit (le b 9 1) 0, 0, 0, centresOf buf⟩ } := by
  refine hs.reads_writes (cmd := .oscBands r) (fun _ => rfl) (oscBandsBody_centres hm) hb (by rw [hx]; rfl)
    (State.placePut_frame _ ⟨2, bit (le b 9 1) 0, 0, 0, centresOf buf⟩) (by decide) fun t ht => ?_
  have hosc : t.osc = _ := ht.trans (State.placePut_osc _ _)
  rw [hosc, State.popHead_osc]

end oscBands

end Sys2Proof.Machine
end

section
open Sys2Proof Sys2Proof.Machine

/-- Settles O20, command by command: the checks, the host read, the entries, and what stands in the shadow afterwards. -/
theorem tablesAreLoadedWhole : Obligations.TablesAreLoadedWhole := by
  unfold Obligations.TablesAreLoadedWhole
  refine ⟨?_, ?_, ?_, ?_, ?_, ?_, ?_⟩
  · intro s r b h hs bad
    have hstatus (hb : bad = none) := hs.reads_status (cmd := .limitsLoad r) (fun _ => rfl) (limitsLoadBody_eq s) hb
    refine ⟨fun st hb => hs.reads_bad (cmd := .limitsLoad r) (fun _ => rfl) (limitsLoadBody_eq s h) hb, fun hb =>
      ⟨(hstatus hb).1, (hstatus hb).2, fun buf => ⟨fun i hi => ?_, fun hi => ?_⟩⟩⟩
    · exact hs.reads_fails (cmd := .limitsLoad r) (fun _ => rfl) (limitsLoadBody_eq s) hb (limitsStages_bad hi)
    · exact (hs.limitsLoad_loads hb hi).imp fun t ⟨hang, heff, hdue, hin, hout⟩ => ⟨hang, heff, hdue, hin, hout⟩
  · intro s r b h hs _ bad n
    have hbad : bad = _ := anglePairsStart_eq (s := s) (r := r) (b := b)
    refine ⟨fun st hb => hs.anglePairsLoad_bad (hbad.symm.trans hb), fun hb => ?_⟩
    have hstart := hbad.symm.trans hb
    obtain ⟨hpoison, htimeout⟩ := hs.anglePairsLoad_status hstart
    refine ⟨hpoison, htimeout, fun buf => ⟨fun i hi => hs.anglePairsLoad_entry hstart hi, fun hi => ?_⟩⟩
    exact (hs.anglePairsLoad_steps hstart hi).imp fun t ⟨hang, heff, hdue, hin, hout⟩ => ⟨hang, heff, hdue, hin, hout⟩
  · intro s r b h hs _ bad n
    refine ⟨fun st hb => hs.topoLoad_bad hb, fun hb => ?_⟩
    refine ⟨hs.topoLoad_fails hb (by decide) rfl, hs.topoLoad_fails hb (by decide) rfl, fun buf => ⟨fun hm => ?_, fun hm => ?_⟩⟩
    · exact ⟨fun i hi => hs.topoLoad_node hb hm hi, fun hi => (hs.topoLoad_nodes hb hm hi).imp
        fun t ⟨hisl, heff, hdue, hin, hout⟩ => ⟨hisl, heff, hdue, hin, hout⟩⟩
    · exact ⟨fun i hi => hs.topoLoad_edge hb hm hi, fun hi => (hs.topoLoad_edges hb hm hi).imp
        fun t ⟨hisl, heff, hdue, hin, hout⟩ => ⟨hisl, heff, hdue, hin, hout⟩⟩
  · intro s r b h hs bad
    refine ⟨fun st hb => hs.partitionExpect_bad hb, fun hb hm => ?_, fun hb hm => hs.partitionExpect_reported hb hm⟩
    obtain ⟨hpoison, htimeout⟩ := hs.partitionExpect_status hb hm
    exact ⟨hpoison, htimeout, fun buf => ⟨hs.partitionExpect_wrong hb hm, hs.partitionExpect_image hb hm⟩⟩
  · exact fun s v => ⟨State.evIslNodeLost_reports, State.evIslNodeLost_idle⟩
  · intro s r b h hs n bad
    refine ⟨fun st hb => hs.oscSignals_bad hb, fun hb => ?_⟩
    obtain ⟨hpoison, htimeout⟩ := hs.oscSignals_status hb
    refine ⟨hpoison, htimeout, fun buf => ⟨fun hm => ?_, fun hm => ?_⟩⟩
    · exact ⟨fun i hi => hs.oscSignals_sig hb hm hi, fun hi hn => hs.oscSignals_many hb hm hi hn, fun hi hn =>
        (hs.oscSignals_sigs hb hm hi hn).imp fun t ⟨hosc, heff, hdue, hin, hout⟩ => ⟨hosc, heff, hdue, hin, hout⟩⟩
    · exact ⟨fun i hi => hs.oscSignals_rule hb hm hi, fun hi => (hs.oscSignals_rules hb hm hi).imp
        fun t ⟨hosc, heff, hdue, hin, hout⟩ => ⟨hosc, heff, hdue, hin, hout⟩⟩
  · intro s r b h hs mode top bad put
    refine ⟨fun st hb => hs.oscBands_bad hb, fun hb hm => hs.oscBands_range hb hm, fun hb hm => ?_⟩
    obtain ⟨hpoison, htimeout⟩ := hs.oscBands_status hb hm
    exact ⟨hpoison, htimeout, fun buf => ⟨hs.oscBands_wrong hb hm, hs.oscBands_centres hb hm⟩⟩

end
